-- ==== Sys2Proof/Word.lean ====
section
/-! DEFINITION. The word types of the Station: what the manual treats as bits. -/
namespace Sys2Proof

/-- One byte of a packet, a register window or a memory. -/
abbrev Byte := BitVec 8
/-- A 32-bit register, or a word of a Vavis core (R481, R503). -/
abbrev Word := BitVec 32
/-- Chassis time, 48 bits (R88, the table of CT bits). -/
abbrev CT := BitVec 48
/-- An accumulator, 40 bits in Q9.31 (R503). -/
abbrev Acc := BitVec 40

/-- Ports P0-P23. -/
abbrev PortId := Fin 24
/-- Platforms PL0-PL3. -/
abbrev PlatId := Fin 4
/-- The Vavis cores: 0-3 are PC0-PC3, 4 is SB, the coding of CID (R504). -/
abbrev CoreId := Fin 5
/-- Rails SQ0-SQ11. -/
abbrev RailId := Fin 12

/-- Core SB. -/
abbrev coreSB : CoreId := 4

end Sys2Proof
end

