-- ==== Sys2Proof/Syntax.lean ====
section
/-! DEFINITION. The commands of the Station: one constructor of `Instr` for each row of spec/opcode_table.json,
with the operands the model gives it. The table gives no operand (log entry 3): an operand is what the rule of the
row compares, carries or needs, where the machine itself does not hold it (a measured voltage, a packet, a message). -/
namespace Sys2Proof

/-- The five host ports, in the order of their codes 0-4 (chapter 15). -/
inductive HostPort where
  | ma | mb | ls | aux | net
  deriving DecidableEq, Repr

/-- The three two-wire buses; their register index k is 0, 1 and 3 (R447). -/
inductive TwBus where
  | ma | mb | aux
  deriving DecidableEq, Repr

/-- How a two-wire write transfer ended: a STOP, a repeated START, or either of them in the middle of a byte (R436). -/
inductive TwEnd where
  | stop | restart | midByte
  deriving DecidableEq, Repr

/-- A command packet after its CRC: what R451 carries beside OPCODE (the row names it), LEN (the payload's length)
and CRC. -/
structure Packet where
  host : HostPort
  tag : Byte
  flags : Byte
  target : BitVec 16
  payload : List Byte
  deriving DecidableEq, Repr

/-- A Schmitt input at the sequencer's first sample (R195). -/
inductive Schmitt where
  | low | high | band
  deriving DecidableEq, Repr

/-- What a CC comparator reads: as source open, Ra or Rd (R207); as sink open or one of three Rp levels (R208). -/
inductive CcRead where
  | opn | ra | rd | rpDef | rp15 | rp30
  deriving DecidableEq, Repr

/-- The supplies of the logic die (R68). -/
inductive Supply where
  | vdd33 | vdd09 | vddnt
  deriving DecidableEq, Repr

/-- SOP* types: SOP, SOP′, SOP″. -/
inductive Sop where
  | sop | sop1 | sop2
  deriving DecidableEq, Repr

/-- A power data object, as the offers of R290 and R323 and a partner's capabilities name them: a fixed object
(mV, 10 mA), a PPS APDO (minimum mV, maximum mV, 50 mA), an EPR AVS APDO (minimum mV, maximum mV, W), or the zero
object that fills positions up to 7 (R290). -/
inductive Pdo where
  | fixed (mv i10 : Nat)
  | pps (minMv maxMv i50 : Nat)
  | avs (minMv maxMv w : Nat)
  | zero
  deriving DecidableEq, Repr

/-- A Request or EPR_Request data object: position, operating and maximum operating current in 10 mA, output voltage
in mV (APDO), and the EPR Capable bit (R295). -/
structure Rdo where
  pos : Nat
  opI : Nat
  maxI : Nat
  mv : Nat
  eprCapable : Bool
  deriving DecidableEq, Repr

/-- The first object's flags of a Source_Capabilities message (R291). -/
structure CapFlags where
  dualPower : Bool
  unconstrained : Bool
  dualData : Bool
  unchunked : Bool
  eprCapable : Bool
  deriving DecidableEq, Repr

/-- A cable's answer to Discover Identity on SOP′: the fields PD_CABLE keeps (R289), and whether its VDO gives USB4
Gen2 or higher (R359). -/
structure CableVdo where
  cblI : BitVec 2
  cblV : BitVec 2
  eprCap : Bool
  active : Bool
  soppp : Bool
  vid : BitVec 16
  usb4 : Bool
  deriving DecidableEq, Repr

/-- The structured VDM commands of chapter 13. -/
inductive VdmCmd where
  | discoverIdentity | discoverSvids | discoverModes | enterMode | exitMode | dpStatus | dpConfigure | attention
  deriving DecidableEq, Repr

/-- The contents of a PD message, by the names the manual uses. A message the manual does not name is `other`. -/
inductive PdBody where
  | accept | reject | wait | notSupported | psRdy
  | getSourceCap | getSinkCap | eprGetSourceCap | eprGetSinkCap
  | prSwap | drSwap | vconnSwap | frSwap | softReset
  | request (r : Rdo) | eprRequest (r : Rdo)
  | sourceCaps (f : CapFlags) (objs : List Pdo) | eprSourceCaps (f : CapFlags) (objs : List Pdo)
  | sinkCaps (drp : Bool) (frs : BitVec 2) (objs : List Pdo) | eprSinkCaps (objs : List Pdo)
  | eprEnter | eprAck | eprSucceeded | eprFailed (reason : Nat)
  | eprKeepAlive | eprKeepAliveAck
  | firmwareUpdateRequest | securityRequest | getBatteryCap | getBatteryStatus
  | vdm (c : VdmCmd) (svid : BitVec 16) (arg : Nat) | vdmAck (c : VdmCmd) (arg : Nat)
  | vdmNak (c : VdmCmd) | vdmBusy (c : VdmCmd)
  | identityAck (v : CableVdo) | svidsAck (svids : List (BitVec 16)) | partnerIdentity (usb4 : Bool)
  | enterUsb | chunkRequest (k : Nat) | other (code : Nat)
  deriving DecidableEq, Repr

/-- A PD message on the line: SOP* type, MessageID, revision (0b01 is 2.0, 0b10 is 3.x), contents, the number of
data bytes, for a chunked extended message (chunk number, last chunk), and whether its ordered set, symbols and CRC are
valid (R269, R279). -/
structure PdMsg where
  sop : Sop
  id : BitVec 3
  rev : BitVec 2
  body : PdBody
  len : Nat
  chunk : Option (Nat × Bool)
  valid : Bool := true
  deriving DecidableEq, Repr

/-- The role swaps a host or a core may start (R489). -/
inductive SwapKind where
  | power | data | vconn
  deriving DecidableEq, Repr

/-- How the partner declines a swap (R490). -/
inductive SwapNo where
  | reject | wait | notSupported
  deriving DecidableEq, Repr

/-- The rule that asserts WARN_N (R164): BP_VIN in mV for the level rule, the fall within SAG_WIN in mV for the sag
rule. A path opening asserts it inside the command that opens the path (R163). -/
inductive WarnCause where
  | level (vin : Nat)
  | sag (fall : Nat)
  deriving DecidableEq, Repr

/-- One port's four converter codes at a sample instant (R373): VC and VB in mV, V_ds in 4.8828125 µV, Pn_DSS in
20 µV. -/
structure PortSample where
  vc : BitVec 16
  vb : BitVec 16
  vds : BitVec 16
  dss : BitVec 16
  deriving DecidableEq, Repr

/-- One scan of the housekeeping ADC, in the units of HK_READ (R376, R494). -/
structure HkScan where
  vbp : BitVec 16
  vhold : BitVec 16
  vcp : BitVec 16
  vdd33 : BitVec 16
  vdd09 : BitVec 16
  vddnt : BitVec 16
  int33 : BitVec 16
  vconn0 : BitVec 16
  vconn1 : BitVec 16
  vconn2 : BitVec 16
  vconn3 : BitVec 16
  tHv : BitVec 16
  tLogic : BitVec 16
  deriving DecidableEq, Repr

/-- A received Ethernet II frame with IPv4 and UDP, as R472 tests it. -/
structure NetFrame where
  fcsOk : Bool
  dstMac : BitVec 48
  srcMac : BitVec 48
  options : Bool
  fragment : Bool
  srcIp : BitVec 32
  dstIp : BitVec 32
  srcPort : BitVec 16
  dstPort : BitVec 16
  udpSumOk : Bool
  payload : List Byte
  deriving DecidableEq, Repr

/-- The platform core's policy timers the manual names (R288, R337). -/
inductive PolicyTimer where
  | senderResponse | sinkRequest | typeCSendSourceCap | sourceEprKeepAlive | discoverIdentity | swapSourceStart
  | tripHardReset
  deriving DecidableEq, Repr

/-- A core-bus register that a core writes and that has no row of its own (R7, R143, R104, R526). -/
inductive CoreReg where
  | chReload (ch : Fin 128) | chBuf (ch : Fin 128) | chMatch (ch : Fin 128) | chPhase (ch : Fin 128)
  | ttReqA | ttReqB | ttReqC | ttReqD
  | timeStat | frmCap
  | eventReg
  deriving DecidableEq, Repr

/-- A Vavis context: a core's firmware context or its kernel context (R503). -/
structure Ctx where
  core : CoreId
  kernel : Bool
  deriving DecidableEq, Repr

/-- A general register v0-v15. -/
abbrev Reg := Fin 16

/-- The M field (R507); 0b11 is an illegal instruction. -/
inductive MMode where
  | follow | modular | saturating
  deriving DecidableEq, Repr

/-- The RM field (R507). -/
inductive RMode where
  | follow | truncate | halfUp | halfEven
  deriving DecidableEq, Repr

/-- What Primer's reads of the main Varnish bank at two references gave beside their values: a difference outside the
anti-rollback thermometer, and the fuses of the thermometer that read blown at one reference alone (R78, R574). -/
structure MainReads where
  other : Bool
  oneRef : BitVec 64
  deriving DecidableEq, Repr

/-- The count of LOOP and REP: an immediate or a register (R507). -/
inductive Count where
  | imm (n : Nat)
  | reg (r : Reg)
  deriving DecidableEq, Repr

/-- An edge of CAD: the cycles of the 200 MHz clock, eight to a crystal cycle, since the edge before it, and the level of FRM
it samples (R82, R95, R386). -/
structure CadEdge where
  clk : Nat
  frm : Bool
  deriving DecidableEq, Repr

/-- A Chunk Request: its MessageID and the chunk it asks for (R269, R279). -/
structure ChunkAsk where
  id : BitVec 3
  num : Nat
  deriving DecidableEq, Repr

/-- The commands. -/
inductive Instr where
  -- chapters 02 and 03: supplies, reset, boot; chapter 01: hold-over
  /-- Fuse-read results of the HV bank (normal uncorrectable, margin uncorrectable, both correctable but different)
  and the sequencer's first sample: SQ_PG0-11, SQ_CIN, SQ_RETI, SQ_FAULT_N. -/
  | preRegulatorStart (uncorr marginUncorr differ : Bool) (pg : Vector Schmitt 12) (cin reti faultN : Schmitt)
  | preRegulatorReset
  | hvSupplyLoss
  /-- VCP in mV. -/
  | vcpReady (mv : Nat)
  | vcpFault (mv : Nat)
  /-- The three supplies in mV, each held above for the qualify time, and the level of RESET_N. -/
  | logicDieRelease (vdd33 vdd09 vddnt : Nat) (resetN : Bool)
  | logicSupplyReset (which : Supply) (mv : Nat)
  /-- A low pulse on RESET_N of so many ns. -/
  | resetN (lowNs : Nat)
  | sbWatchdog
  | platformWatchdog (k : PlatId)
  | linkSilence
  | linkReturn
  | holdOverLimit (n : PortId)
  | takeBack (k : PlatId) (cc1 cc2 : Nat) (vbus : Nat)
  | restartBegin
  | restartAbandoned
  -- chapter 04: chassis time and counters
  | cadTick (edge : CadEdge)
  /-- Cycles of the 200 MHz clock since the tick before it: those that R95 owes it. -/
  | generatedTick (clk : Nat)
  /-- The run that has ended: the CT of its rise, and how many CAD samples it lasted. -/
  | frmMarker (rise : CT) (width : Nat)
  | slewEnd
  | cadAbsent
  /-- Crystal cycles of the two frames. -/
  | cadOutOfTolerance (c1 c2 : Nat)
  /-- Crystal cycles of the sixteen frames. -/
  | cadQualified (counts : List Nat)
  | frmAbsent
  | crystalLost
  | superframeStart
  | frmCapRead
  /-- The sixteen samples. -/
  | slotLatch (samples : List (BitVec 6))
  | slotChange (value : BitVec 6)
  | channelMatch (ch : Fin 128)
  | channelWrap (ch : Fin 128)
  | chnCtrlWrite (core : CoreId) (ch : Fin 128) (value : Word)
  -- chapter 05: the Timetable
  | ttGo (core : CoreId)
  | ttCancel (core : CoreId) (index : Byte)
  | hsBookingRequest
  | ttCfgWrite (core : CoreId) (value : Word)
  | pathGrant (n : PortId)
  | setGrant (n : PortId)
  | rampGrant (n : PortId)
  | roleGrant (n : PortId)
  | calGrant (n : PortId)
  | sinkGrant (n : PortId)
  | reserveGrant (index : Fin 256)
  -- chapter 06: the card feed (mV; µV for V_sns)
  | inrushSegment
  | qualifyTime (vin : Nat)
  | phaseExit
  | phTo
  | inrushDone (vin vout : Nat)
  | pgQ (vin vout gate : Nat)
  | bpFastTrip (vsns : Int)
  | breakerFault (vsns : Int)
  | inrTo
  | bpReverseTrip (vsns : Int)
  | feedLost (vin : Nat)
  | feedReturn (vin : Nat)
  | holdTExpiry
  | retryTExpiry
  | retryCntClear
  | warnNAssert (cause : WarnCause)
  | warnNRelease (vin : Nat) (sagClear : Bool)
  | sagSuspend (fall : Nat)
  | sagClear
  | historyCopy
  -- chapter 07: card rail sequencing
  | sqStart
  | sqRaise
  | sqEnableRise (x : RailId)
  | sqPgFilter (x : RailId) (level : Bool)
  | railQualify (x : RailId)
  | upToExpiry (x : RailId)
  | sqFeedAlloff
  | sqPeerAlloff
  | sqRailFault (x : RailId)
  | sqCinFall
  | sqCinRise
  | sqRetiRise
  | retToExpiry
  | disToExpiry (x : RailId)
  | alloffPulseEnd
  | aoDelayExpiry
  | downRestart
  | aoCntClear
  | sqFaultNArm
  | sqHostShutdown
  -- chapter 08: attach (mV)
  | portOpen (n : PortId)
  | converterStartCheck (n : PortId)
  | ccDetect (n : PortId) (cc1 cc2 : Nat)
  | tccdebounce (n : PortId) (cc1 cc2 : Nat) (vbus : Nat)
  | tpddebounce (n : PortId)
  | ttryccdebounce (n : PortId) (cc1 cc2 : Nat) (vbus : Nat)
  | tdrptry (n : PortId)
  | ttrytimeout (n : PortId)
  | tsrcdisconnect (n : PortId)
  | vbusLoss (n : PortId) (mv : Nat)
  | vbusPresent (n : PortId) (mv : Nat)
  | vbusSafe0v (n : PortId) (mv : Nat)
  | terrorrecovery (n : PortId)
  | tSrcEnd (n : PortId)
  | comparatorBlankEnd (n : PortId)
  /-- The largest difference between a read-back and its loaded code, in steps. -/
  | dacReadback (n : PortId) (diff : Nat)
  /-- The voltage on the stepped pin. -/
  | sinkThresholdStep (n : PortId) (mv : Nat)
  | rpLevelChange (n : PortId)
  | pathBookingRetry (n : PortId)
  | pathGrantLimit (n : PortId)
  | vconnOc (n : PortId)
  -- chapter 09: the port power path
  | closingDone (n : PortId) (near far : Nat)
  | closeFail (n : PortId)
  | cpgLost (n : PortId)
  /-- V_ds in µV, positive from bus to connector. -/
  | portFastTrip (n : PortId) (vds : Int)
  | portReverseTrip (n : PortId) (vds : Int)
  | i2tTrip (n : PortId)
  | sketchComplete (k : PlatId) (slot : Fin 8)
  | rpairEstimate (n : PortId)
  | thermalLimitRemove (n : PortId)
  /-- The means over the sample sets of R247, which stand in State, in µV: V_ds before, in and after the pulse, Pn_DSS in it;
  and the drops across the two FETs of the pair in the pulse (R244), µV. -/
  | calResult (n : PortId) (pre pulse post dss : Rat) (dropBus dropConn : Int)
  | ftCodeTakeover (n : PortId)
  | dischargeEnd (n : PortId) (mv : Nat)
  | dischargeTimeout (n : PortId)
  | retryExpiry (n : PortId)
  | trimLoop (n : PortId)
  | trimSet (n : PortId)
  | hardwareTestFail (n : PortId) (test : Fin 6)
  -- chapter 10: the PD engine
  | pdMessage (n : PortId) (m : PdMsg)
  | goodcrc (n : PortId) (ty : Sop) (id : BitVec 3)
  | transmitRequest (n : PortId)
  | lineIdle (n : PortId)
  | treceive (n : PortId) (ty : Sop)
  | tsinktx (n : PortId)
  | sinktxokSample (n : PortId) (mv : Nat)
  | sinktxDiscard (n : PortId)
  | chunkRequest (n : PortId) (ty : Sop) (k : ChunkAsk)
  | chunkTimer (n : PortId) (ty : Sop)
  | hardResetSend (n : PortId)
  | hardResetReceived (n : PortId)
  | tpshardreset (n : PortId)
  | tsrcrecover (n : PortId)
  | sinkVbusWait (n : PortId)
  | tnoresponse (n : PortId)
  | cableReset (n : PortId)
  | cableResetReceived (n : PortId)
  | softReset (n : PortId)
  | eprKeepalive (n : PortId)
  | eprKeepaliveSend (n : PortId)
  | notSupportedRequest (n : PortId)
  | getCapabilities (n : PortId)
  | getSinkCapSend (n : PortId)
  | discoverIdentityUfp (n : PortId)
  | discoverIdentityCable (n : PortId)
  -- chapter 11: contracts and the budget
  | request (n : PortId)
  | eprModeEnter (n : PortId)
  | sourceCapabilities (n : PortId)
  | capabilitiesSend (n : PortId)
  | offerRiseCaps (n : PortId)
  | psRdy (n : PortId)
  | accept (n : PortId)
  | swapAnswer (n : PortId)
  | prSwap (n : PortId)
  | drSwap (n : PortId)
  | vconnSwap (n : PortId)
  | frSwap (n : PortId)
  | attention (n : PortId)
  | vdmAck (n : PortId)
  | policyTimer (n : PortId) (t : PolicyTimer)
  | transitionCheck (n : PortId) (meanVc : Nat)
  | convFail (n : PortId)
  | shedTimeout (n : PortId)
  | regenStop (vsns : Int)
  | regenRebook
  | sinkPartialRebook (n : PortId)
  | sinkStopRetry (n : PortId)
  -- chapter 12: role swaps
  | swapStart (n : PortId) (k : SwapKind)
  | turntableTimeout (n : PortId)
  | prSwapRoleTimeout (n : PortId)
  | vconnSourceReached (n : PortId) (mv : Nat)
  | vconnSwapFail (n : PortId)
  | frSwapWait (n : PortId)
  | frsSignal (n : PortId)
  | frsNosig (n : PortId)
  | frsStandbyDetach (n : PortId) (mv : Nat)
  -- chapter 13: alternate modes and Points
  | discoveryStart (n : PortId)
  | scriptStart
  | scriptWrite (acked : Bool)
  | scriptDelay
  | scriptWriteRetry (acked : Bool)
  | arbitrationLoss (ownAddress : Bool)
  | auxBusStuck (sclLow sdaStillLow : Bool)
  | vdmTimeout (n : PortId)
  -- chapter 14: measurement and trace
  | housekeepingScan (hk : HkScan)
  | enSnap (core : CoreId)
  | frameAssembly (n : PortId)
  | laneFrameBoundary
  | linkUp
  | linkDown
  | arpRequest (senderMac : BitVec 48) (senderIp targetIp : BitVec 32)
  | netFrame (f : NetFrame)
  | frameDiscard (f : NetFrame)
  | filterInvocation (k : PlatId)
  | kernelBudget (core : CoreId)
  -- chapters 16 and 17: transports
  /-- The bytes of a write transfer after its address byte, and how it ended. -/
  | twoWireWrite (bus : TwBus) (bytes : List Byte) (fin : TwEnd)
  /-- A read transfer of so many bytes. -/
  | twoWireRead (bus : TwBus) (count : Nat)
  /-- A read from 0x0C, and whether this port won the arbitration. -/
  | alertResponse (bus : TwBus) (won : Bool)
  | twoWireTimeout (bus : TwBus)
  | send (bus : TwBus)
  | rplDone (bus : TwBus)
  | evtDone (bus : TwBus)
  | status
  /-- The bytes after the instruction, and whether LS_CS_N rose on a byte boundary. -/
  | localSend (bytes : List Byte) (clean : Bool)
  /-- The bits clocked after the instruction; a transaction that ends inside a byte is discarded. -/
  | readReply (clocked : Nat)
  | readEvent (clocked : Nat)
  | commandBegin
  | overflow (h : HostPort)
  -- chapter 20: the store
  /-- VHOLD in mV. -/
  | storeProgramStart (vhold : Nat)
  | pageProgramDone (verified : Bool)
  | programAbandon
  | uncorrectableRecall
  /-- The groups of the page read that were corrected, and those that could not be; 32 is the marker. -/
  | scrubPage (corrected uncorrectable : List (Fin 33))
  | scrubDue
  | hourlySave
  | ssnSave
  /-- The higher die temperature of the hour, in 1/16 °C. -/
  | lifeHour (t : Int)
  | verifyDone
  | registerWrite (core : CoreId) (r : CoreReg) (value : Word)
  -- chapter 18: the opcodes
  | identity (p : Packet)
  | claim (p : Packet)
  | release (p : Packet)
  | claimBreak (p : Packet)
  | subscribe (p : Packet)
  | restart (p : Packet)
  /-- READ_REGS and WRITE_REGS exist in five groups (R482): the group byte gg. -/
  | readRegs (gg : Byte) (p : Packet)
  | writeRegs (gg : Byte) (p : Packet)
  | swap (p : Packet)
  | altMode (p : Packet)
  | pathClear (p : Packet)
  | readTime (p : Packet)
  | setEpoch (p : Packet)
  | readChannel (p : Packet)
  | readEntries (p : Packet)
  | storeInfo (p : Packet)
  | paletteRead (p : Packet)
  | paletteWrite (p : Packet)
  | userRead (p : Packet)
  | userWrite (p : Packet)
  | userProtect (p : Packet)
  | scrub (p : Packet)
  | wearReset (p : Packet)
  | format (p : Packet)
  | energySnapshot (p : Packet)
  | hkRead (p : Packet)
  | sketchList (p : Packet)
  | sketchRead (p : Packet)
  | sketchPush (p : Packet)
  | sketchTrigger (p : Packet)
  | sketchRelease (p : Packet)
  | seqClear (p : Packet)
  | seqShutdown (p : Packet)
  | kernelList (p : Packet)
  | kernelWrite (p : Packet)
  | kernelStart (p : Packet)
  | kernelUnload (p : Packet)
  | imageInfo (p : Packet)
  | imageWrite (p : Packet)
  | imageVerify (p : Packet)
  | bankSelect (p : Packet)
  | rollbackAdvance (p : Packet)
  | healthStatus (p : Packet)
  | logRead (p : Packet)
  | logClear (p : Packet)
  /-- Should TARGET be the Station, the outcome of its four tests (R582), the Varnish bank that failed and the ECC corrections
  counted. -/
  | selftest (p : Packet) (station : BitVec 4) (bank : Fin 2) (count : Nat)
  | odometerRead (p : Packet)
  -- chapter 19: the Vavis instructions, each run in a context
  | nop (c : Ctx)
  | add (c : Ctx) (d a b : Reg) (m : MMode)
  | sub (c : Ctx) (d a b : Reg) (m : MMode)
  | neg (c : Ctx) (d a : Reg) (m : MMode)
  | abs (c : Ctx) (d a : Reg) (m : MMode)
  | min (c : Ctx) (d a b : Reg)
  | max (c : Ctx) (d a b : Reg)
  | cmp (c : Ctx) (a b : Reg)
  | and (c : Ctx) (d a b : Reg)
  | or (c : Ctx) (d a b : Reg)
  | xor (c : Ctx) (d a b : Reg)
  | shl (c : Ctx) (d a b : Reg) (m : MMode)
  | shr (c : Ctx) (d a b : Reg) (r : RMode)
  | shrl (c : Ctx) (d a b : Reg)
  | shli (c : Ctx) (d a : Reg) (m : MMode) (sh : BitVec 5)
  | shri (c : Ctx) (d a : Reg) (r : RMode) (sh : BitVec 5)
  | shrli (c : Ctx) (d a : Reg) (sh : BitVec 5)
  | mov (c : Ctx) (d a : Reg)
  | div (c : Ctx) (d a b : Reg)
  | idiv (c : Ctx) (d a b : Reg) (m : MMode)
  | addi (c : Ctx) (d a : Reg) (imm : BitVec 18)
  | andi (c : Ctx) (d a : Reg) (imm : BitVec 18)
  | ori (c : Ctx) (d a : Reg) (imm : BitVec 18)
  | lui (c : Ctx) (d : Reg) (imm : BitVec 22)
  | ld (c : Ctx) (d a : Reg) (imm : BitVec 18)
  | st (c : Ctx) (d a : Reg) (imm : BitVec 18)
  | ldh (c : Ctx) (d a : Reg) (imm : BitVec 18)
  | sth (c : Ctx) (d a : Reg) (imm : BitVec 18)
  | mul (c : Ctx) (a b : Reg)
  | fmul (c : Ctx) (a b : Reg) (m : MMode)
  | productWrite (c : Ctx)
  | mac (c : Ctx) (k : Bool) (a b : Reg) (m : MMode) (r : RMode)
  | msu (c : Ctx) (k : Bool) (a b : Reg) (m : MMode) (r : RMode)
  | aclr (c : Ctx) (k : Bool)
  | accl (c : Ctx) (k : Bool) (a : Reg)
  | accs (c : Ctx) (k : Bool) (d : Reg) (m : MMode) (r : RMode) (sh : BitVec 5)
  | accx (c : Ctx) (k : Bool) (d : Reg)
  | accsh (c : Ctx) (k : Bool) (r : RMode) (sh : BitVec 5)
  | mvs (c : Ctx) (d : Reg) (index : Fin 16)
  | smv (c : Ctx) (index : Fin 16) (a : Reg)
  | macm (c : Ctx) (k : Bool) (a b : Reg) (m : MMode) (r : RMode)
  | b (c : Ctx) (off : BitVec 26)
  | call (c : Ctx) (off : BitVec 26)
  | ret (c : Ctx)
  | bc (c : Ctx) (cond : Fin 16) (off : BitVec 18)
  | loop (c : Ctx) (k : Fin 3) (count : Count) (endOff : BitVec 11)
  | rep (c : Ctx) (count : Count)
  | ttRead (c : Ctx)
  | budget (c : Ctx)
  | yield (c : Ctx)
  | wait (c : Ctx)
  | ldp (c : Ctx) (d a : Reg) (imm : BitVec 18)
  -- the rows at the end of the table
  /-- Main-bank fuse reads of Primer's step 2: normal or margin uncorrectable, and a difference between them. -/
  | primerCompletion (uncorr : Bool) (differ : MainReads)
  | serviceLevelChange (level : Bool)
  | vconnPresentChange (k : PlatId) (mv : Nat)
  /-- Whether a CC input lies inside its comparator's hysteresis band at the opening (R210). -/
  | converterPowerGood (n : PortId) (undet : Bool)
  | dischargeAssistEnd (n : PortId) (mv : Nat)
  | breakerRegulation (vsns : Int)
  | railDischarged (x : RailId)
  | newSourceVbusReady (n : PortId) (mv : Nat)
  | frsSignalEnd (n : PortId)
  | busFree (bus : TwBus)
  | bookingRetry (n : PortId)
  | selftestDone (n : PortId) (failed : BitVec 6)
  | rollbackAdvanceDone
  /-- The 24 ports' codes, BP_VIN in mV and V_sns in 4 µV units for HS_MEAS. -/
  | sampleInstant (samples : Vector PortSample 24) (vin : BitVec 16) (vsns : BitVec 16)
  | illegalInstruction (c : Ctx) (word : Word)
  deriving DecidableEq, Repr

end Sys2Proof
end

