-- ==== Sys2Proof/Decode.lean ====
section
/-! DEFINITION. The command a word of the table spells. The table gives no row any bits: no word spells a command. -/
namespace Sys2Proof

/-- spec/opcode_table.json lists every row without bits, so that no word of it spells a command. -/
def decodeTableWord (_nbits _w : Nat) : Option Instr := none

end Sys2Proof
end

