-- ==== Sys2Proof/Config.lean ====
section
/-! DEFINITION. What the implementation of a Station fixes, and the free values: what the manual leaves open. A free
value has no body; `n` is the index a step takes from the counter `State.fresh` (log entry 6). -/
namespace Sys2Proof.Config

/-- Whether a RESET_N pulse between 0.96 and 1.04 µs acts (R49). Log entry 7. -/
opaque resetActs (n : Nat) : Bool

/-- How a value is brought to a whole number where the manual names a unit and no rounding: up rather than down.
Log entry 8. -/
opaque roundUp (q : Rat) : Bool

/-- The 256-bit firmware key of Varnish (R570, R616). Log entry 9. -/
opaque firmwareKey : BitVec 256

/-- Whether Primer's step 4 had passed when WARN_N stopped it (R79, R578). Log entry 167. -/
opaque primerPast (n : Nat) : Bool

/-- The base address of a firmware context's data memory, by core (chapter 19 gives its size and no address).
Log entry 10. -/
opaque dataBase (c : CoreId) : Nat

/-- The constant k of R592, in eV/K, to which the manual gives no number. Log entry 11. -/
opaque boltzmann : Rat

/-- By how many codes, 1 to 8, current limiting lowers the setpoint in one step (R316). Log entry 13. -/
opaque limitCodes (n : Nat) : Fin 8

/-- Whether two drops of 0 count as within the ratio of R244. Log entry 141. -/
opaque zeroRatio (n : Nat) : Bool

/-- Whether the PCS still has block lock when the link goes down (R394). Log entry 146. -/
opaque lockKept (n : Nat) : Bool

/-- What a field of a Hexpo header holds where R388 to R399 give it no value, by its offset. Log entry 14. -/
opaque openHeader (n off : Nat) : Nat

/-- What the group of a torn control page reads as: 0 its old value, 1 its new value, 2 uncorrectable (R564). Log
entry 15. -/
opaque tornGroup (n : Nat) : Fin 3

/-- How many fuses an advance of the anti-rollback level had blown when it was cut short (R574). Log entry 16. -/
opaque advanceCut (n : Nat) : Nat

/-- Whether SEQ of a filter kernel's IN window counts the invocation that reads it (R534). Log entry 17. -/
opaque firstSeq : Fin 2

end Sys2Proof.Config
end

