-- ==== Sys2Proof/Machine/State.lean ====
section
/-! DEFINITION. The state of the Station: every register, FIFO, buffer, counter, mode and pin the manual gives it, and
the queue of commands that wait. Each field's docstring ends with [width; file and rule of spec/; reset value]; DC n
marks a value the manual does not give, chosen in log entry n. -/
namespace Sys2Proof.Machine

/-- Why the machine stops with a fault. It has no constructor: the manual stops the Station nowhere; every fault it
describes is a state that goes on (chapter 06 R149, chapter 07 R176, chapter 19 R518). Safe. -/
inductive Fault : Type
  deriving DecidableEq, Repr

/-- Why a command is refused. -/
inductive Refusal where
  /-- The command has no meaning in the model. Raised by exec's arms only; safe. -/
  | notModelled (mnemonic : String)
  deriving DecidableEq, Repr

/-- A memory: (address, byte) pairs, addresses strictly rising, none equal to what an unlisted address reads as. -/
abbrev Mem := List Host.Cell

/-- Image banks A and B (R567). -/
inductive Bank where
  | a | b
  deriving DecidableEq, Repr

/-- The host command that work in progress belongs to. -/
structure CmdRef where
  host : HostPort
  tag : Byte
  op : BitVec 16
  target : BitVec 16
  deriving DecidableEq, Repr

/-! ### Varnish -/

/-- The sealed fuse banks. No command changes any of it but ROLLBACK_ADVANCE its thermometer (R407, R574). -/
structure Varnish where
  /-- Port-present mask. [24 bits; 02 R52; sealed, DC 4 all present] -/
  present : BitVec 24
  /-- HS_FUSE0. [32; 06 R168; sealed, blank] -/
  hs0 : Word
  /-- HS_FUSE1. [32; 06 R168; sealed, blank] -/
  hs1 : Word
  /-- HS_FUSE2. [32; 06 R168; sealed, blank] -/
  hs2 : Word
  /-- HS_FUSE3. [32; 06 R168; sealed, blank: VALID 0] -/
  hs3 : Word
  /-- SQ_CFG. [32; 07 R196; sealed, blank: VALID 0] -/
  sqCfg : Word
  /-- SQ_RAIL0-11. [12 × 32; 07 R196; sealed, blank] -/
  sqRail : Vector Word 12
  /-- HP_FUSE0. [32; 15 R408; sealed, blank: VALID 0] -/
  hp0 : Word
  /-- HP_FUSE1. [32; 15 R408; sealed, blank] -/
  hp1 : Word
  /-- PMAX_FUSE0-5. [6 × 32; 11 R332; blank 240 in every field] -/
  pmax : Vector Word 6
  /-- BUDGET_CEIL, W. [10; 05 R139 R140; blank 0x258] -/
  budgetCeil : BitVec 10
  /-- CARD_CEIL, W. [13; 11 R298 R331; blank 2400] -/
  cardCeil : BitVec 13
  /-- FW_FUSE0.KEY_SET. [1; 21 R570 R616; 1 as every part leaves the maker] -/
  keySet : Bool
  /-- The anti-rollback thermometer, bit 0 the first fuse. [64 fuses; 21 R574; 0 blown] -/
  arb : BitVec 64
  deriving DecidableEq, Repr

/-! ### Supplies, reset, boot -/

/-- What Primer is doing (R74-R79). -/
inductive Primer where
  /-- The logic die has not been released since insertion, or has lost its supplies. -/
  | off
  /-- Running; warm start; bank an update names. -/
  | running (warm : Bool) (named : Option Bank)
  /-- Stopped by WARN_N (R79). -/
  | stopped (warm : Bool) (named : Option Bank)
  /-- The service state (R78). -/
  | service
  /-- Ended: core SB runs. -/
  | done
  deriving DecidableEq, Repr

/-- A restart that core SB starts itself and that waits for transitions, swaps and Hard Resets to end (R26). -/
structure RestartReq where
  bank : Option Bank
  cmd : CmdRef
  deriving DecidableEq, Repr

structure Supplies where
  /-- The pre-regulator and with it the HV die run. [1; 03 R57; reset off] -/
  hvUp : Bool
  /-- VCP has reached 11 V and has not faulted since. [1; 03 R60; 0] -/
  vcpOk : Bool
  /-- The logic die is out of reset. [1; 03 R69; 0] -/
  logicUp : Bool
  /-- The retained domain has kept its supply since the last latch. [1; 20 R559; 0] -/
  retainedKept : Bool
  /-- The RUN flag. [1; 03 R74; cleared by a new insertion] -/
  runFlag : Bool
  /-- The die-to-die link is silent. [1; 01 R13; DC 2 silent until the logic die runs] -/
  linkSilent : Bool
  /-- Primer's state. [03 R74; off] -/
  primer : Primer
  /-- Primer has completed since insertion, which ends the hold of R11. [1; 01 R11, 03 R80; 0] -/
  primerEver : Bool
  /-- The bank running. [03 R77; none] -/
  runBank : Option Bank
  /-- A restart waits under R26. [03 reset table, 18 R488; none] -/
  restartReq : Option RestartReq
  /-- Platform cores that Primer reloads while core SB runs, in order. [03 R76; none] -/
  reload : List PlatId
  /-- SERVICE as read at the last release. [1; 02 R48; 0] -/
  service : Bool
  /-- SERVICE pin now; internal pull-down. [1; 02 R48; 0] -/
  servicePin : Bool
  /-- HV Varnish read uncorrectable: the card is locked out. [1; 03 R72; 0] -/
  hvUncorr : Bool
  /-- HV bank reads differ at the two references. [1; 03 R72; 0] -/
  hvMargin : Bool
  /-- The logic die's replacement request, kept by the HV die. [1; 22 R579; 0] -/
  replaceReq : Bool
  /-- Primer's service state asserts REPLACE_N. [1; 03 R78; 0] -/
  serviceReplace : Bool
  /-- SLOT_ID. [6; 02 R46; not latched] -/
  slotId : Option (BitVec 6)
  /-- The SLOT pins as last held for 16 samples. [6; 02 R46 R47; none] -/
  slotPins : Option (BitVec 6)
  /-- Changes on the SLOT pins still to be reported, oldest first. [6 each; 02 R47; none] -/
  slotChanged : List (BitVec 6)
  /-- Levels of SERVICE whose change is still to be reported, oldest first. [02 R48; none] -/
  serviceDue : List Bool
  /-- The bank that ran last, which a warm start tries first. [03 R77; none] -/
  lastBank : Option Bank
  deriving DecidableEq, Repr

/-! ### Chassis time and counters -/

/-- The states of chassis time (chapter 04, state table). -/
inductive CtState where
  | acquire | locked | holdover | slew
  deriving DecidableEq, Repr

/-- A run of consecutive CAD samples at which FRM reads high (R82). -/
structure Marker where
  /-- CT of the first high sample. -/
  rise : CT
  /-- CT of the first low sample after it. -/
  fall : CT
  /-- Samples in the run. -/
  width : Nat
  /-- The slew offset that remained at the first high sample (R98). -/
  ofs : BitVec 32
  deriving DecidableEq, Repr

structure Time where
  /-- CT. [48; 04 R88; 0] -/
  ct : CT
  /-- State; TIME_STAT.HOLDOVER and SLEWING follow it. [04 state table; ACQUIRE] -/
  st : CtState
  /-- MISMATCH_CNT. [8; 04 R93; 0] -/
  mismatch : Byte
  /-- CAUSE. [4; 04 R93; 0] -/
  cause : BitVec 4
  /-- EPOCH_SET. [1; 04 R93; 0] -/
  epochSet : Bool
  /-- SF_LOCK. [1; 04 R93; 0] -/
  sfLock : Bool
  /-- FRAME_LOCK. [1; 04 R93; 0] -/
  frameLock : Bool
  /-- CAD_OK. [1; 04 R93; 0] -/
  cadOk : Bool
  /-- CAD is present: an edge has come since the last absence. [1; 04 R84 R92; 0] -/
  cadHere : Bool
  /-- XTAL_OK. [1; 04 R93; 1] -/
  xtalOk : Bool
  /-- SLEW_OFS. [signed 32; 04 R93; 0] -/
  slewOfs : BitVec 32
  /-- The value with CT[10:0] = 2047 has been held once in this frame. [1; 04 R98; 0] -/
  heldTick : Bool
  /-- FRM_RISE. [48; 04 Marker capture; 0] -/
  rise : CT
  /-- FRM_FALL. [48; 04 Marker capture; 0] -/
  fall : CT
  /-- FRM_CAP.VALID. [1; 04 R86; 0] -/
  capValid : Bool
  /-- FRM_CAP.OVR. [1; 04 R86; 0] -/
  capOvr : Bool
  /-- FRM_CAP.KIND. [2; 04 R86; 0] -/
  capKind : BitVec 2
  /-- FRM_CAP.WIDTH. [8; 04 R86; 0] -/
  capWidth : Byte
  /-- The run of high FRM samples in progress. [04 R82; none] -/
  frmRun : Option Marker
  /-- A run that has ended and is still to be taken. [04 R82; none] -/
  frmDone : Option Marker
  /-- CT at the last valid frame marker before lock. [48; 04 state table; none] -/
  lastFrame : Option CT
  /-- Run of markers implying one nonzero tick error: error, markers. [04 R614; none] -/
  tickRun : Option (Nat × Nat)
  /-- Run of superframe markers implying one nonzero frame error. [04 R614; none] -/
  frameRun : Option (Nat × Nat)
  /-- A set epoch that waits, with host port and tag of its command. [27; 04 R90, 18 R491; none] -/
  epochPend : Option (BitVec 27 × Option CmdRef)
  /-- Cycles of the 200 MHz clock, eight to a crystal cycle, toward the next 1 µs edge of SRC 0b11. [04 R105; 0] -/
  usAcc : Nat
  /-- Those of the present frame. [04 R95; 0] -/
  frameClk : Nat
  /-- Those of a tick that SLEW holds, up to its second edge. [04 R98, 14 R386; 0] -/
  heldClk : Nat
  /-- The present frame began in LOCKED. [1; 04 R95; 0] -/
  wholeFrame : Bool
  /-- Crystal counts of the last locked frames, at most 256, newest first. [04 R95; none] -/
  frames : List Nat
  /-- What is owed to generated ticks, in 1/524288 cycle of the 200 MHz clock. [04 R95; 0] -/
  genAcc : Nat
  deriving DecidableEq, Repr

structure Channel where
  /-- CHn_COUNT. [32; 04 R104; DC 5 0] -/
  count : Word
  /-- CHn_RELOAD. [32; 04 R104; DC 5 0] -/
  reload : Word
  /-- CHn_BUF. [32; 04 R104; DC 5 0] -/
  buf : Word
  /-- CHn_MATCH. [32; 04 R104; DC 5 0] -/
  mtch : Word
  /-- CHn_PHASE. [32; 04 R104; DC 5 0] -/
  phase : Word
  /-- RUN. [1; 04 R105; 0] -/
  run : Bool
  /-- MODE, DOWN. [1; 04 R105; 0] -/
  down : Bool
  /-- SRC. [2; 04 R105; 0] -/
  src : BitVec 2
  /-- START_SF. [1; 04 R105; 0] -/
  startSf : Bool
  /-- ACT_M. [3; 04 R105; 0] -/
  actM : BitVec 3
  /-- ACT_W. [3; 04 R105; 0] -/
  actW : BitVec 3
  /-- MFLAG. [1; 04 R105; 0] -/
  mflag : Bool
  /-- WFLAG. [1; 04 R105; 0] -/
  wflag : Bool
  /-- LINK. [7; 04 R105; 0] -/
  link : BitVec 7
  /-- A value loaded in step 4 is held through the next edge. [1; 04 R107; 0] -/
  held : Bool
  /-- A write forces a wrap at the next tick. [1; 04 R108; 0] -/
  force : Bool
  /-- A match of this edge whose CHANNEL_MATCH is still to come. [1; 04 R107; 0] -/
  dueM : Bool
  /-- A wrap of this edge whose CHANNEL_WRAP is still to come. [1; 04 R107; 0] -/
  dueW : Bool
  /-- COUNT after step 2 of this edge, before any action. [32; 04 R107; 0] -/
  edgeCount : Word
  /-- RUN after step 2 of this edge, before any action. [1; 04 R107; 0] -/
  edgeRun : Bool
  /-- Rank of the action that has reached the channel in this edge: 0 none, 1 start, 2 restart, 3 stop. [04 R107; 0] -/
  rank : Nat
  deriving DecidableEq, Repr

/-! ### The Timetable -/

/-- Kinds of booking (R118). -/
inductive Kind where
  | inrush | path | set | ramp | role | cal | sink | reserve
  deriving DecidableEq, Repr

/-- One entry (R145). Powers in 0.25 W. -/
structure Entry where
  /-- OWNER code. [5; 05 R117] -/
  owner : Nat
  kind : Kind
  /-- DUR, tk. [11] -/
  dur : Nat
  /-- STEP, signed. [16] -/
  step : Int
  /-- INC. [12] -/
  inc : Nat
  /-- Grant ticks not yet fired, in order, with each increment's signed power. -/
  todo : List (CT × Int)
  /-- Increments fired. -/
  fired : Nat
  /-- The last grant tick of the booking. -/
  last : CT
  deriving DecidableEq, Repr

/-- A core's request set (R143) and the result of its last GO (R144). -/
structure TtReq where
  /-- TT_REQ_A. [32; 05 R143; 0] -/
  a : Word
  /-- TT_REQ_B. [32; 05 R143; 0] -/
  b : Word
  /-- TT_REQ_C. [32; 05 R143; 0] -/
  c : Word
  /-- TT_REQ_D. [32; 05 R143; 0] -/
  d : Word
  /-- TT_RESP.DONE. [1; 05 R144; 0] -/
  done : Bool
  /-- TT_RESP.INDEX. [8; 05 R144; 0] -/
  index : Byte
  /-- TT_RESP.STATUS. [16; 05 R144; 0] -/
  status : BitVec 16
  /-- First grant. [48; 05 R144; 0] -/
  first : CT
  /-- Last grant. [48; 05 R144; 0] -/
  last : CT
  deriving DecidableEq, Repr

structure Timetable where
  /-- TT_CFG.NLOG, pending. [3; 05 R140; 0b100] -/
  nlogPend : BitVec 3
  /-- TT_CFG.BUDGET, pending, W. [10; 05 R140; 0x0C8] -/
  budgetPend : BitVec 10
  /-- NLOG_ACT. [3; 05 R141; 0b100] -/
  nlog : BitVec 3
  /-- BUDGET_ACT, W. [10; 05 R142; 0x0C8] -/
  budget : BitVec 10
  /-- The 256 entries. [256; 05 R145; free] -/
  entries : Vector (Option Entry) 256
  /-- The ledger: (frame number, power used in 0.25 W). [1024 frames; 05 R123 R126; empty] -/
  ledger : List (Nat × Nat)
  /-- The five cores' request sets. [05 R143 R144; 0] -/
  req : Vector TtReq 5
  /-- Cores whose GO is being placed (TT_RESP.BUSY), in order of arrival. [05 R132 R144; none] -/
  gos : List CoreId
  /-- The tick of the last grant that fired. [48; 05 R128, 06 R153; none] -/
  firedAt : Option CT
  /-- Bookings placed in the present tick, by rank, each with its earliest tick E. [05 R124 R132; none] -/
  news : List (Fin 256 × Nat)
  /-- Those that a higher-ranked one of the tick has moved. [05 R132; none] -/
  moved : List (Fin 256)
  /-- Those it has left no place for. [05 R132; none] -/
  dropped : List (Fin 256 × Entry)
  deriving DecidableEq, Repr

/-! ### The card feed -/

/-- States of the hot-swap block (R148). -/
inductive HsState where
  | lockout | qualify | phase | inrush | settle | on | feedLost | faultWait | latched
  deriving DecidableEq, Repr

/-- Causes of HS_STAT.CAUSE (R169). -/
inductive HsCause where
  | none | fast | breaker | inrushTime | vcp | reverse
  deriving DecidableEq, Repr

/-- A hot-swap history entry (R170): what the HS event carries. -/
structure HsHist where
  ct : CT
  st : HsState
  cause : HsCause
  retry : Nat
  warn : Bool
  pgood : Bool
  /-- A segment self-placed under R155. -/
  selfPlaced : Bool
  deriving DecidableEq, Repr

structure HotSwap where
  /-- STATE. [4; 06 R169; QUALIFY] -/
  st : HsState
  /-- The long qualify time applies. [06 R149; long] -/
  long : Bool
  /-- CAUSE. [3; 06 R169; none] -/
  cause : HsCause
  /-- RETRY_CNT. [4; 06 R162; 0] -/
  retry : Nat
  /-- WARN_N asserted. [1; 06 R148; released] -/
  warn : Bool
  /-- W_LEVEL. [1; 06 R169; 0] -/
  wLevel : Bool
  /-- W_SAG. [1; 06 R169; 0] -/
  wSag : Bool
  /-- W_OPEN. [1; 06 R169; 0] -/
  wOpen : Bool
  /-- OV_ACT. [1; 06 R149; 0] -/
  ovAct : Bool
  /-- NOCAD_START. [1; 06 R151; 0] -/
  nocad : Bool
  /-- DERATE. [1; 06 R155; 0] -/
  derate : Bool
  /-- REGULATING; the FLT_T count runs. [1; 06 R160; 0] -/
  regulating : Bool
  /-- SEG_CNT. [12; 06 R169; 0] -/
  segCnt : Nat
  /-- HS_MEAS.VIN, mV. [16; 06 R169; 0] -/
  vin : BitVec 16
  /-- HS_MEAS.VSNS, 4 µV signed. [16; 06 R169; 0] -/
  vsns : BitVec 16
  /-- VIN × VSNS of the updates of the last 10 ms, newest first, at most 10 000. [11 R326; none] -/
  power : List Int
  /-- Chassis times of the reverse trips, newest first. [06 R149; none] -/
  revTrips : List CT
  /-- Halvings of I_inr in this inrush. [2; 06 R155; 0] -/
  halved : Nat
  /-- Every later segment is self-placed. [1; 06 R155; 0] -/
  selfAll : Bool
  /-- The next segment is self-placed, and a booking follows in the next frame. [1; 06 R155; 0] -/
  selfNext : Bool
  /-- Segments are suspended by a sag. [1; 06 R156; 0] -/
  suspended : Bool
  /-- INR_TO runs. [1; 06 R149; 0] -/
  inrTo : Bool
  /-- PH_TO has elapsed in PHASE. [1; 06 R150; 0] -/
  phTo : Bool
  /-- A removal runs: BP_VIN fell below UV_F and has not risen above UV_R. [1; 06 R158; 0] -/
  removal : Bool
  /-- The frame of the last segment. [06 R152; none] -/
  lastSeg : Option Nat
  /-- The last row taken from INRUSH, SETTLE or ON: its tick, the state left, and REGULATING there. [06 R149; none] -/
  opened : Option (CT × HsState × Bool)
  /-- NOCAD_START and DERATE, set and still to be reported. [1; 06 R151 R155; 0] -/
  nocadDue : Bool
  derateDue : Bool
  /-- The history, oldest first, at most 16. [16 entries; 06 R170; empty] -/
  hist : List HsHist
  /-- History entries overwritten since the last copy. [16; 06 R170; 0] -/
  lost : Nat
  deriving DecidableEq, Repr

/-! ### The rail sequencer -/

/-- States of the sequencer (R175). -/
inductive SqState where
  | idle | lock | waitCin | raise | run | shutdown | alloff | retryWait | down | latched
  deriving DecidableEq, Repr

/-- Causes of SQ_STAT.CAUSE (R199). -/
inductive SqCause where
  | none | rail | peer | feed | start | host | cascade
  deriving DecidableEq, Repr

/-- Flags of an SQ event (R500). -/
inductive SqFlag where
  | none | prebias | disLate | downFail | retLate | undet
  deriving DecidableEq, Repr

/-- A sequencer history entry (R174): what the SQ event carries. -/
structure SqHist where
  ct : CT
  st : SqState
  cause : SqCause
  rail : Nat
  flag : SqFlag
  deriving DecidableEq, Repr

structure Rail where
  /-- SQ_EN level. [1; 07 R199; 0] -/
  en : Bool
  /-- Filtered SQ_PG level. [1; 07 R199; 0] -/
  pg : Bool
  /-- Waits for its enable: its step has begun. [1; 07 R181; 0] -/
  waiting : Bool
  /-- Has qualified since its enable rose. [1; 07 R181; 0] -/
  qualified : Bool
  /-- UP_TO runs. [1; 07 R181; 0] -/
  upTo : Bool
  /-- DIS_TO runs. [1; 07 R185; 0] -/
  disTo : Bool
  /-- DIS_TO has ended since its enable fell. [1; 07 R185; 0] -/
  disEnded : Bool
  /-- Discharged; true until it is first enabled. [1; 07 R185; 1] -/
  discharged : Bool
  /-- Fell in SHUTDOWN while enabled, so that its discharge wait ends with its enable. [1; 07 R188; 0] -/
  fell : Bool
  /-- CT at which its step began; DLY counts from it. [48; 07 R181; 0] -/
  stepAt : CT
  /-- CT at which it qualified, against an UP_TO that ends in the same evaluation. [48; 07 R181; none] -/
  qualAt : Option CT
  /-- UNDET. [1; 07 R199; 0] -/
  undet : Bool
  /-- PREBIAS. [1, W1C; 07 R199; 0] -/
  prebias : Bool
  /-- DIS_LATE. [1, W1C; 07 R199; 0] -/
  disLate : Bool
  /-- DOWN_FAIL. [1, W1C; 07 R199; 0] -/
  downFail : Bool
  deriving DecidableEq, Repr

structure Sequencer where
  /-- STATE. [4; 07 R199; IDLE] -/
  st : SqState
  /-- CAUSE. [3; 07 R199; none] -/
  cause : SqCause
  /-- FAULT_RAIL. [4; 07 R199; 0xF] -/
  faultRail : Nat
  /-- AO_CNT. [2; 07 R199; 0] -/
  aoCnt : Nat
  /-- ARMED. [1; 07 R191; 0] -/
  armed : Bool
  /-- RET_LATE. [1, W1C; 07 R186; 0] -/
  retLate : Bool
  /-- RET_TO has ended in the present shut-down. [1; 07 R185; 0] -/
  retEnded : Bool
  /-- RET_TO runs: the shut-down waits for SQ_RETI. [1; 07 R186; 0] -/
  retTo : Bool
  /-- STEP_NOW. [4; 07 R199; 0] -/
  stepNow : Nat
  /-- UNDET_C: SQ_FAULT_N, SQ_RETI, SQ_CIN. [3; 07 R199; 0] -/
  undetC : BitVec 3
  /-- SQ_CIN level. [1; 07 R195; 0] -/
  cin : Bool
  /-- SQ_CIN has been high for 16 µs. [1; 07 R177; 0] -/
  cinQual : Bool
  /-- SQ_RETI level. [1; 07 R195; 0] -/
  reti : Bool
  /-- SQ_FAULT_N is driven low by this device. [1; 07 R175; driven low in IDLE] -/
  faultDriven : Bool
  /-- SQ_FAULT_N as sampled. [1; 07 R195; inactive high] -/
  faultN : Bool
  /-- The all-off interrupted a SHUTDOWN with cause START. [1; 07 R176; 0] -/
  fromStart : Bool
  /-- AO_DELAY has elapsed in RETRY_WAIT. [1; 07 R177; 0] -/
  aoDelay : Bool
  /-- Restart time of cause HOST, 0.1 s. [16; 07 R177; 0] -/
  restart : Nat
  /-- The restart time has elapsed in DOWN. [1; 07 R177; 0] -/
  restartUp : Bool
  /-- A SEQ_SHUTDOWN waits its 10 ms. [1; 18 R495; 0] -/
  hostPend : Bool
  /-- The rails. [12; 07 R171] -/
  rails : Vector Rail 12
  /-- The history, oldest first, at most 16. [16 entries; 07 R174; empty] -/
  hist : List SqHist
  /-- History entries overwritten since the last copy. [16; 07 R174; 0] -/
  lost : Nat
  deriving DecidableEq, Repr

/-! ### Attach -/

/-- The attach states, in the order of their codes 0x0-0xE (R211). -/
inductive TcState where
  | disabled | unattSnk | attwaitSnk | attSnk | unattSrc | attwaitSrc | attSrc | trySrc | trywaitSnk | trySnk
  | trywaitSrc | audio | debugSrc | debugSnk | errRecov
  deriving DecidableEq, Repr

/-- TC_STAT.ORIENT, in the order of its codes (R236). -/
inductive Orient where
  | none | cc1 | cc2 | unoriented
  deriving DecidableEq, Repr

/-- TC_STAT.PARTNER, in the order of its codes 0-6 (R236). -/
inductive Partner where
  | none | sink | source | sinkRa | audio | debugSrc | debugSnk
  deriving DecidableEq, Repr

/-- Where the opening of a port stands (R241). -/
inductive Opening where
  /-- Not opened. -/
  | closed
  /-- The SET booking was refused and is made again every 10 ms. -/
  | retry
  /-- The SET booking is placed and its grant is to come. -/
  | booked
  /-- Pn_CEN is asserted and Pn_CPG has not risen. -/
  | starting
  /-- Opened. -/
  | opened
  deriving DecidableEq, Repr

structure TypeC where
  /-- TC_STAT.STATE. [4; 08 R211 R236; DISABLED] -/
  st : TcState
  /-- ORIENT. [2; 08 R223 R236; none] -/
  orient : Orient
  /-- RP_SEEN. [2; 08 R236; 0b00] -/
  rpSeen : BitVec 2
  /-- RP_OFFER. [2; 08 R236; 0b00] -/
  rpOffer : BitVec 2
  /-- PARTNER. [3; 08 R236; none] -/
  partner : Partner
  /-- VCONN_ON. [1; 08 R224 R236; 0] -/
  vconnOn : Bool
  /-- VCONN_WAIT. [1; 08 R226; 0] -/
  vconnWait : Bool
  /-- VCONN_OC. [1, W1C; 08 R227; 0] -/
  vconnOc : Bool
  /-- VCONN limited off since this attach. [1; 08 R227; 0] -/
  vconnOff : Bool
  /-- CC_UNDET. [1, W1C; 08 R210; 0] -/
  ccUndet : Bool
  /-- HOLD_ATTACH. [1; 08 R231; 0] -/
  holdAttach : Bool
  /-- CMP_FAIL. [1; 08 R209; 0] -/
  cmpFail : Bool
  /-- ATT_CNT. [8; 08 R236; 0] -/
  attCnt : Byte
  /-- TC_CFG as read at the last entry to an Unattached state. [32; 08 R203; the reset value 0x0380_0000] -/
  cfg : Word
  /-- PD_CFG as read at the last entry to an Unattached state. [32; 08 R203, 10 R289; the reset value 0xB800_0000] -/
  pdCfg : Word
  /-- Reading of CC1. [08 R207 R208; open] -/
  cc1 : CcRead
  /-- Reading of CC2. [08 R207 R208; open] -/
  cc2 : CcRead
  /-- In DEBUG_SRC or DEBUG_SNK the engine runs on CC2. [1; 08 R230; 0] -/
  dbgCc2 : Bool
  /-- The pin that is not the orientation pin read Ra at entry. [1; 08 R224; 0] -/
  raOther : Bool
  /-- tCCDebounce has ended and the port waits for VBUS. [1; 08 R213; 0] -/
  debDone : Bool
  /-- tDRPTry has ended in TRY_SRC, TRY_SNK or TRYWAIT_SRC. [1; 08 R213; 0] -/
  tryEnded : Bool
  /-- The CC comparators' outputs are ignored. [1; 08 R206; 0] -/
  blank : Bool
  /-- Step of the sink threshold DAC, 0-2. [2; 08 R208; 0] -/
  sinkStep : Fin 3
  /-- The Rp level the present round of steps has seen. [2; 08 R208; 0b00] -/
  rpRound : BitVec 2
  /-- A changed Rp level being held for tPDDebounce. [2; 08 R208; none] -/
  rpPend : Option (BitVec 2)
  /-- The port's LFSR. [16; 08 R217; seeded at opening, DC 5 0 before] -/
  lfsr : BitVec 16
  /-- Opening of the port. [09 R241; not opened] -/
  opening : Opening
  /-- A PATH booking is wanted and is made again every 10 ms. [1; 08 R220 R221; 0] -/
  pathRetry : Bool
  /-- The 250 ms limit of R220 runs. [1; 08 R220; 0] -/
  pathLimit : Bool
  deriving DecidableEq, Repr

/-! ### The port power path -/

/-- The path states, in the order of their codes 0x0-0x5 (R239). -/
inductive PathState where
  | opn | closing | closed | discharge | tripped | lockoff
  deriving DecidableEq, Repr

/-- Causes of a Sketch, in the order of their codes 1-8; the first six are the trip causes by rank (R257, R397). -/
inductive Cause where
  | fast | reverse | i2t | cpgLost | closeFail | therm | dsgFail | command
  deriving DecidableEq, Repr

/-- One sample instant of a port: the codes of its four converters and of channel I (R373, R374). -/
structure Sample where
  vc : BitVec 16
  vb : BitVec 16
  i : BitVec 16
  vds : BitVec 16
  dss : BitVec 16
  deriving DecidableEq, Repr

structure Path where
  /-- PP_STAT.PSTATE; LOCKOFF follows it. [3; 09 R239; OPEN] -/
  st : PathState
  /-- SINK. [1; 09 R262; 0] -/
  sink : Bool
  /-- FT_TRIP. [1, W1C; 09 R262; 0] -/
  ftTrip : Bool
  /-- REV_TRIP. [1, W1C; 09 R262; 0] -/
  revTrip : Bool
  /-- I2T_TRIP. [1, W1C; 09 R262; 0] -/
  i2tTrip : Bool
  /-- THERM_TRIP. [1, W1C; 09 R262; 0] -/
  thermTrip : Bool
  /-- CLOSE_FAIL. [1, W1C; 09 R262; 0] -/
  closeFail : Bool
  /-- CPG_LOST. [1, W1C; 09 R262; 0] -/
  cpgLost : Bool
  /-- DSG_FAIL. [1; 09 R255 R262; 0] -/
  dsgFail : Bool
  /-- CAL_SKIP. [1; 09 R246 R262; 0] -/
  calSkip : Bool
  /-- CAL_REJ. [1, W1C; 09 R248 R262; 0] -/
  calRej : Bool
  /-- TRIM_LIM. [1; 09 R259 R262; 0] -/
  trimLim : Bool
  /-- T_WARN. [1; 09 R251 R262; 0] -/
  tWarn : Bool
  /-- NOSKETCH. [1, W1C; 09 R261 R262; 0] -/
  noSketch : Bool
  /-- R_HELD. [1; 09 R249 R262; 0] -/
  rHeld : Bool
  /-- FET_IMB. [1, W1C; 09 R244 R262; 0] -/
  fetImb : Bool
  /-- Chassis times of the trips, newest first; TRIP_CNT counts those of the last 60 s. [09 R239 R262; none] -/
  trips : List CT
  /-- PP_PROT in force. [32; 09 R262; 0xA029_40C8] -/
  prot : Word
  /-- PP_PROT to be loaded at the first grant of the transition or at PS_RDY. [32; 11 R329; none] -/
  protPend : Option Word
  /-- R_est, µΩ; G_PAIR is its inverse. 0 until the port opens. [09 R243 R250 R262; 0] -/
  rEst : Rat
  /-- R_c, µΩ. [09 R250; 0] -/
  rc : Rat
  /-- ΔT, K. [09 R250; 0] -/
  dT : Rat
  /-- ΔT_c, K. [09 R250; 0] -/
  dTc : Rat
  /-- A calibration has been accepted since the cold start. [1; 09 R248; 0] -/
  rKnown : Bool
  /-- R_REF µΩ and T_REF in 1/16 °C learned. [09 R251; none] -/
  learned : Option (Rat × Int)
  /-- |I| below 0.1 A for 60 s before the accepted calibration. [1; 09 R251; counted in samples, 0] -/
  quiet : Nat
  /-- PP_CAL.R_CAL. [16; 09 R262; 0] -/
  rCal : BitVec 16
  /-- The last accepted result exactly, µΩ. [09 R248; 0] -/
  rCalQ : Rat
  /-- PP_CAL.I_CAL. [16; 09 R262; 0] -/
  iCal : BitVec 16
  /-- Rejections in a row. [4; 09 R248; 0] -/
  rejRun : Nat
  /-- CT of the calibration that G_PAIR rests on. [48; 14 R380; none] -/
  calAt : Option CT
  /-- CT of the newest accepted one, which in hold-over waits for the core. [48; 09 R249; none] -/
  calGot : Option CT
  /-- PP_VSET.CODE. [12; 09 R258 R262; 0] -/
  code : BitVec 12
  /-- PP_VSET.FT_CODE. [10; 09 R252 R262; 0] -/
  ftCode : BitVec 10
  /-- Fast-trip code in the standby comparator. [10; 09 R253; none] -/
  ftPend : Option (BitVec 10)
  /-- A fast-trip code that waits for the end of a pulse. [10; 09 R257; none] -/
  ftHold : Option (BitVec 10)
  /-- FET_IMB was set while no core ran, and its event is due. [1; 09 R244; 0] -/
  imbDue : Bool
  /-- PP_VSET.TRIM. [signed 10; 09 R259 R262; 0] -/
  trim : BitVec 10
  /-- Pending trim. [signed; 09 R259; 0] -/
  trimPend : Int
  /-- Codes by which current limiting holds the setpoint below that of the contract voltage. [11 R316; 0] -/
  lim : Nat
  /-- Trim is stopped by a transition until this tick. [48; 09 R259, 11 R313; none] -/
  trimStop : Option CT
  /-- The I²t sum A, in (0.5 mA)² × 10 µs / 2500. [09 R254; 0] -/
  i2t : Nat
  /-- Pn_CEN. [1; 09 R241; deasserted] -/
  cen : Bool
  /-- Pn_CPG, deglitched. [1; 09 R242; 0] -/
  cpg : Bool
  /-- Pn_DSG is driven for a discharge assist, or for step 2 of R341. [1; 11 R314, 12 R341; 0] -/
  assist : Bool
  /-- A trip caused the entry to DISCHARGE. [1; 09 R239; 0] -/
  byTrip : Bool
  /-- A VCP fault caused the entry to DISCHARGE. [1; 03 R60; 0] -/
  byVcp : Bool
  /-- RETRY has not passed since the last trip. [1; 09 R256; 0] -/
  retryRun : Bool
  /-- The pulse whose result is not out yet: its grant tick, and I_cal in mA. Pn_DSG is high from one tick after it to 22
  ticks after it. [48 and 10; 09 R245 R247; none] -/
  pulse : Option (CT × Nat)
  /-- The last 10 ms of samples, newest first, at most 50 000. [09 R246, 12 R339, 14 R396; none] -/
  hist : List Sample
  /-- The port waits, open, for VCP to reach 11 V. [1; 03 R60, 09 R613; 0] -/
  vcpWait : Bool
  /-- The last opening: its tick, the state left, SINK and A there. [09 R239 R257; none] -/
  left : Option (CT × PathState × Bool × Nat)
  deriving DecidableEq, Repr

/-! ### The PD engine -/

/-- TX_STATE (R267). -/
inductive TxState where
  | idle | waitIdle | sending | waitGoodcrc | chunking
  deriving DecidableEq, Repr

/-- How a transmission ended (R271, R272). -/
inductive Report where
  | sent | failed | discarded
  deriving DecidableEq, Repr

/-- A message a core hands the engine, with its AMS mark (R271). -/
structure OutMsg where
  sop : Sop
  body : PdBody
  ams : Bool
  /-- An answer of the hardware in hold-over, which leaves no report (R278). -/
  hw : Bool := false
  deriving DecidableEq, Repr

structure Context where
  /-- TX_MSGID. [3; 10 R267; 0] -/
  txId : BitVec 3
  /-- RX_MSGID. [3; 10 R267; 0] -/
  rxId : BitVec 3
  /-- RX_VALID. [1; 10 R267; 0] -/
  rxValid : Bool
  /-- RETRY. [2; 10 R267; 0] -/
  retry : BitVec 2
  /-- TX_STATE. [3; 10 R267; IDLE] -/
  tx : TxState
  /-- CHUNK. [4; 10 R267; 0] -/
  chunk : BitVec 4
  /-- REV. [2; 10 R267; 0b00 none] -/
  rev : BitVec 2
  /-- The message being transmitted. [10 R271; none] -/
  cur : Option OutMsg
  /-- A chunked message is being received: its contents, once whole. [10 R279; none] -/
  rxPart : Option PdBody
  /-- A report that waits for the returning core. [10 R278; none] -/
  report : Option (Report × PdBody)
  deriving DecidableEq, Repr

/-- PD timers and waits that run. -/
inductive PdTimer where
  | tSinkTx | sinkSample | psHardReset | srcRecover | noResponse | sinkVbus | senderResponse | sinkRequest
  | typeCSendSourceCap | srcEprKeepAlive | discoverIdentity | swapSourceStart | tripHardReset
  /-- The answer to a structured VDM is awaited (R361, R362). -/
  | vdm
  deriving DecidableEq, Repr

structure Pd where
  /-- The contexts of SOP, SOP′ and SOP″. [3; 10 R267; cleared] -/
  ctx : Vector Context 3
  /-- The receive queue, oldest first; RXQ is its length. [4 messages; 10 R270; empty] -/
  rxq : List PdMsg
  /-- Queued copies that the Turntable has answered and no core has read yet; RXQ counts them too. [3; 12 R347; 0] -/
  rxDone : Nat
  /-- The last GoodCRC sent: its SOP* type and MessageID. [10 R269; none] -/
  lastAck : Option (Sop × BitVec 3)
  /-- Packets with a bad CRC or a broken symbol. [10 R269; 0] -/
  rxErr : Nat
  /-- Messages the engine is to answer itself, oldest first. [10 R274; none] -/
  eng : List PdMsg
  /-- A notice of a Soft_Reset. [1; 10 R615; 0] -/
  notice : Bool
  /-- Messages a core has handed over and the engine has not begun. [10 R271; none] -/
  outbox : List OutMsg
  /-- Copies of the capabilities last sent: Source, EPR Source, Sink, EPR Sink. [10 R275; none sent] -/
  cacheSrc : Option PdBody
  cacheEprSrc : Option PdBody
  cacheSnk : Option PdBody
  cacheEprSnk : Option PdBody
  /-- CONTRACT. [1; 10 R289; 0] -/
  contract : Bool
  /-- EPR. [1; 10 R289; 0] -/
  epr : Bool
  /-- EPR mode was acknowledged and the cable is being asked again. [1; 11 R296; 0] -/
  eprEntry : Bool
  /-- AMS. [1; 10 R289; 0] -/
  ams : Bool
  /-- SINKTX_OK. [1; 10 R289; 0] -/
  sinkTxOk : Bool
  /-- HR_PEND. [1; 10 R289; 0] -/
  hrPend : Bool
  /-- HR_FAIL. [1, W1C; 10 R283; 0] -/
  hrFail : Bool
  /-- RX_FULL. [1, W1C; 10 R270; 0] -/
  rxFull : Bool
  /-- CHUNK_ABORT. [1, W1C; 10 R280; 0] -/
  chunkAbort : Bool
  /-- nDiscoverIdentityCount requests had no answer: the part of CABLE_ABSENT that is kept. [1; 10 R287; 0] -/
  cableAbsent : Bool
  /-- HR_CNT. [8; 10 R289; 0] -/
  hrCnt : Byte
  /-- RETRY_CNT. [8; 10 R289; 0] -/
  retryCnt : Byte
  /-- PD_CABLE. [32; 10 R289; 0] -/
  cable : Word
  /-- The cable VDO gives USB4 Gen2 or higher. [1; 13 R359; 0] -/
  cableUsb4 : Bool
  /-- A Hard Reset is asked for and not sent. [1; 10 R281; 0] -/
  hrReq : Bool
  /-- Hard Resets sent without an answer. [2; 10 R283; 0] -/
  hrTries : Nat
  /-- Timers and waits that run. [10 R288, 12 R337, 13 R362; none] -/
  timers : List PdTimer
  /-- Source_Capabilities sent without an answer. [6; 10 R288; 0] -/
  capsCnt : Nat
  /-- The objects last sent, and those last received. [11 R302 R324; none] -/
  objs : List Pdo
  partnerObjs : List Pdo
  /-- The RDO of the contract had EPR Capable set. [1; 11 R295; 0] -/
  rdoEpr : Bool
  /-- The request sent and not answered. [11 R324; none] -/
  reqSent : Option Rdo
  /-- The partner's Get_Sink_Cap came, and was answered with a nonzero FRS field, in this contract period. [1; 12 R346; 0] -/
  gotGetSink : Bool
  /-- The partner's Sink_Capabilities of this period had Dual-Role Power. [1; 12 R346; 0] -/
  partnerDrp : Bool
  /-- Get_Sink_Cap was sent in this contract period. [1; 12 R346; 0] -/
  sentGetSink : Bool
  /-- The answer that tSenderResponse waits for is that to a Get_Sink_Cap. [1; 10 R273 R288; 0] -/
  askedSnk : Bool
  /-- An explicit contract has been made since the attach, Hard Reset or swap. [1; 12 R346; 0] -/
  period : Bool
  deriving DecidableEq, Repr

/-! ### Contracts -/

/-- CT_STAT.KIND, in the order of its codes 0-6 (R330). -/
inductive CtKind where
  | none | typeC | sprFixed | pps | eprFixed | avs | sinkFixed
  deriving DecidableEq, Repr

/-- A transition, from admission to PS_RDY (R311). -/
structure Plan where
  kind : CtKind
  pos : Nat
  v0 : Nat
  v1 : Nat
  i10 : Nat
  k : Nat
  fired : Nat
  entry : Option (Fin 256)
  small : Bool
  first : CT
  last : CT
  newK : Nat
  imax : Nat
  accepted : Bool
  inc : Nat
  /-- EPR Capable of the RDO. [1; 11 R295] -/
  eprCap : Bool
  deriving DecidableEq, Repr

structure Contract where
  /-- KIND. [3; 11 R330; none] -/
  kind : CtKind
  /-- OBJPOS. [4; 11 R330; 0] -/
  pos : Nat
  /-- SHED. [1; 11 R330; 0] -/
  shed : Bool
  /-- DERATED: the thermal limit in force, in 0.25 W. [1; 11 R308 R330; none] -/
  therm : Option Nat
  /-- CONV_FAIL. [1, W1C; 11 R315; 0] -/
  convFail : Bool
  /-- The contract voltage, mV; VOLT follows it. [11; 11 R330; 0] -/
  mv : Nat
  /-- CURR, 10 mA. [10; 11 R330; 0] -/
  i10 : Nat
  /-- I_max of R329, mA. [11 R329; 0] -/
  imax : Nat
  /-- COMMIT: K_p, 0.25 W. [16; 11 R330; 0x003C] -/
  commit : Nat
  /-- OFFER: O_p at the last capabilities sent, 0.25 W. [16; 11 R330; 0] -/
  offer : Nat
  /-- The transition in progress; TRANS follows it. [11 R311; none] -/
  plan : Option Plan
  /-- Budget Waits in a row. [2; 11 R304; 0] -/
  waits : Nat
  /-- T_p while shed, 0.25 W. [11 R306; none] -/
  target : Option Nat
  /-- The capabilities for that target have still to be sent. [1; 11 R306 R308; 0] -/
  shedDue : Bool
  /-- The 500 ms of R307 run from the GoodCRC to them. [1; 11 R307; 0] -/
  shedTimer : Bool
  /-- PS_RDY of a transition is handed over and not sent. [1; 11 R317; 0] -/
  rdyOut : Bool
  /-- When core SB last had capabilities sent for a risen offer. [48; 11 R304; none] -/
  capsAt : Option CT
  /-- D: sink draw granted and fired, 0.25 W. [11 R325; 0] -/
  draw : Nat
  /-- The intended draw, 0.25 W. [11 R325; 0] -/
  intended : Nat
  /-- The draw is to be taken to code 0 before this message is sent. [11 R325, 12 R342; none] -/
  stopFor : Option PdBody
  /-- The booking of that stop was refused and is made again every 10 ms. [1; 11 R325; 0] -/
  stopRetry : Bool
  /-- A regenerative stop has not yet lasted 1 s. [1; 11 R327; 0] -/
  regenHold : Bool
  deriving DecidableEq, Repr

/-! ### Role swaps -/

/-- RS_STAT.SWAP, in the order of its codes 0-7 (R356). -/
inductive SwapCode where
  | none | prSrcSnk | prSnkSrc | dr | vconnOn | vconnOff | frsSource | frsSink
  deriving DecidableEq, Repr

/-- Power roles, in the order of RS_STAT.PR's codes (R356). -/
inductive PRole where
  | none | source | sink
  deriving DecidableEq, Repr

/-- Data roles, in the order of RS_STAT.DR's codes (R356). -/
inductive DRole where
  | none | dfp | ufp
  deriving DecidableEq, Repr

/-- Where the swap in progress stands (R341-R350). -/
inductive SwapStep where
  /-- No swap. -/
  | idle
  /-- The Station's own request is out. -/
  | asked
  /-- Draw is being taken to code 0 first. -/
  | stopDraw
  /-- Accept is being sent. -/
  | accepting
  /-- The ROLE grant is to come. -/
  | role
  /-- VBUS falls to vSafe0V. -/
  | fall
  /-- The partner's PS_RDY is awaited. -/
  | partnerRdy
  /-- VBUS is to rise after the ROLE grant. -/
  | rise
  /-- The Station's PS_RDY is being sent. -/
  | psRdy
  /-- The FRS signal is driven. -/
  | signal
  /-- FR_Swap is awaited. -/
  | frWait
  /-- The partner's Accept to FR_Swap is awaited. -/
  | frAccept
  deriving DecidableEq, Repr

structure Swap where
  /-- SWAP. [4; 12 R356; none] -/
  code : SwapCode
  /-- Step of the swap. [12 R341-R350; idle] -/
  step : SwapStep
  /-- PR. [2; 12 R356; none] -/
  pr : PRole
  /-- DR. [2; 12 R356; none] -/
  dr : DRole
  /-- VC. [1; 12 R356; 0] -/
  vc : Bool
  /-- BASE_PR. [2; 12 R334; none] -/
  basePr : PRole
  /-- BASE_DR. [2; 12 R334; none] -/
  baseDr : DRole
  /-- BASE_VC. [1; 12 R334; 0] -/
  baseVc : Bool
  /-- The partner is VCONN source, and was at the attach-time roles. [1 each; 12 R336; 0] -/
  partnerVc : Bool
  basePartnerVc : Bool
  /-- FRS_STBY. [1; 12 R348; 0] -/
  stby : Bool
  /-- Leaving FRS standby: the negative ROLE step is placed. [1; 12 R339; 0] -/
  leaving : Bool
  /-- A SWAP or standby ROLE booking is placed. [12 R339; none] -/
  entry : Option (Fin 256)
  /-- FRS_CUR. [2; 12 R356; 0b00] -/
  frsCur : BitVec 2
  /-- SWAP_FAIL. [1, W1C; 12 R338; 0] -/
  fail : Bool
  /-- FRS_DONE. [1, W1C; 12 R347; 0] -/
  frsDone : Bool
  /-- FRS_NOSIG. [1, W1C; 12 R351; 0] -/
  nosig : Bool
  /-- SWAP_CNT. [8; 12 R356; 0] -/
  cnt : Byte
  /-- A swap toward a preference, and one to become VCONN source before cable discovery, has been started since attach.
  [1 each; 12 R336; 0] -/
  prefPr : Bool
  prefDr : Bool
  prefVc : Bool
  /-- The host command that started the swap, its port and tag. [18 R490; none] -/
  host : Option CmdRef
  /-- The Station's own request is being sent or answered. [12 R336; none] -/
  kind : Option SwapKind
  /-- Draw to code 0 for a swap: the booking was refused and is made again every 10 ms. [1; 12 R342; 0] -/
  retry : Bool
  deriving DecidableEq, Repr

/-! ### Alternate modes -/

/-- ALT_STAT.MODE, in the order of its codes (R370). -/
inductive AltMode where
  | none | displayPort | usb4
  deriving DecidableEq, Repr

/-- Where discovery, entry or exit stands (R359, R368). -/
inductive AltStep where
  | idle | identity | svids | modes | enterMode | safe | status | configure | enterUsb | mounted
  /-- SAFE runs before Exit Mode. -/
  | exitSafe
  /-- Exit Mode is out. -/
  | exiting
  deriving DecidableEq, Repr

structure Alt where
  /-- MODE. [2; 13 R370; none] -/
  mode : AltMode
  /-- PIN, 0 none, 1 C, 2 D, 3 E. [2; 13 R370; 0] -/
  pin : Fin 4
  /-- HPD. [1; 13 R370; 0] -/
  hpd : Bool
  /-- PTS_FAIL. [1, W1C; 13 R367; 0] -/
  ptsFail : Bool
  /-- PTS_FAIL has been set since attach. [1; 13 R368; 0] -/
  ptsSince : Bool
  /-- NO_SCRIPT. [1; 13 R360; 0] -/
  noScript : Bool
  /-- ENTER_FAIL. [1, W1C; 13 R361; 0] -/
  enterFail : Bool
  /-- ENTER_FAIL has been set since attach. [1; 13 R361; 0] -/
  enterSince : Bool
  /-- DET_PEND. [1; 13 R369; 0] -/
  detPend : Bool
  /-- LAST_EVT. [4; 13 R370; 0] -/
  lastEvt : BitVec 4
  /-- FAIL_STEP. [4; 13 R370; 0] -/
  failStep : BitVec 4
  /-- Step of discovery, entry or exit. [13 R359 R368; idle] -/
  step : AltStep
  /-- The partner's UFP VDO shows USB4. [1; 13 R359; 0] -/
  partnerUsb4 : Bool
  /-- Discovery has run since attach. [1; 13 R359; 0] -/
  tried : Bool
  /-- The pin assignments of the partner's mode, E D C. [3; 13 R361; 0] -/
  pins : BitVec 3
  /-- EXIT is due: it runs once R282 has reached step 4, and not in hold-over. [1; 13 R369; 0] -/
  exitDue : Bool
  /-- The returning core sends DP Status Update, and the HPD script of the state it reads runs. [1; 13 R369; 0] -/
  askStatus : Bool
  /-- The host command in progress, its port and tag. [18 R489; none] -/
  host : Option CmdRef
  deriving DecidableEq, Repr

/-! ### Measurement of one port -/

/-- One group of a trace (R383): time and SIDX of its first sample, its boxcar values once it is complete, and the values
a kernel has committed for it (R535). -/
structure TrGroup where
  ct : CT
  ph : Nat
  sidx : Nat
  box : List (BitVec 16)
  kern : Option (List (BitVec 16))
  deriving DecidableEq, Repr

/-- A frame cut and not yet queued: its last group is not complete, or its assembly is to come (R382, R535). -/
structure TrFrame where
  cfg : Word
  seq : Word
  flags : Byte
  rEst : BitVec 16
  tFet : Nat
  groups : List TrGroup
  /-- The kernel makes the values of this frame (R384). -/
  kernel : Bool
  waitGroup : Bool
  waitAsm : Bool
  /-- The place of its cut among those of all ports (R393). -/
  cut : Nat
  deriving DecidableEq, Repr

/-- A port's trace. -/
structure Trace where
  /-- TR_CFG in force. [32; 14 R385; 0x0F04_0000] -/
  cfg : Word
  /-- SEQ of TYPE 0x01. [32; 14 R391; 0] -/
  seq : Word
  /-- SEQ of TYPE 0x02. [32; 14 R399; 0] -/
  sketchSeq : Word
  /-- Groups of the frame in progress, oldest first. [14 R382 R383; none] -/
  groups : List TrGroup
  /-- CT, phase and SIDX of the first sample of the group in progress. [14 R383 R386; none] -/
  part : Option (CT × Nat × Nat)
  /-- FLAGS collected. [8; 14 R390; 0] -/
  flags : Byte
  /-- The next frame sets GAP. [1; 14 R390; 1] -/
  gap : Bool
  /-- The kernel makes the values of the frame in progress. [1; 14 R384; 0] -/
  kernel : Bool
  /-- Frames cut and not yet queued, oldest first. [14 R382 R535; none] -/
  held : List TrFrame
  deriving DecidableEq, Repr

structure Measure where
  /-- EN_SRC, µJ. [64; 14 R377; 0] -/
  src : BitVec 64
  /-- EN_SNK, µJ. [64; 14 R377; 0] -/
  snk : BitVec 64
  /-- Residues in 10⁻⁷ µJ. [14 R377; 0] -/
  srcRes : Nat
  snkRes : Nat
  /-- EN_SRC and EN_SNK of the last snapshot. [64; 14 R379; 0] -/
  snapSrc : BitVec 64
  snapSnk : BitVec 64
  /-- EN_STAT.SAT. [1, W1C; 14 R381; 0] -/
  sat : Bool
  /-- The port's trace. [14 R382-R391] -/
  trace : Trace
  /-- Lifetime counters: attaches. [32; 22 R586; 0] -/
  attaches : Nat
  /-- Trips. [32; 22 R586; 0] -/
  tripsLife : Nat
  /-- Sample instants with path CLOSED. [22 R586; 0] -/
  closedSamples : Nat
  /-- Hard Resets. [32; 22 R586; 0] -/
  hardResets : Nat
  /-- Swaps. [32; 22 R586; 0] -/
  swaps : Nat
  /-- Highest T_FET, 1/16 °C. [16; 22 R586; none, reads 0x8000] -/
  tMax : Option Int
  /-- Tests failed. [16; 22 R586; 0] -/
  tests : BitVec 16
  deriving DecidableEq, Repr

/-- A Port. -/
structure Port where
  tc : TypeC
  pp : Path
  pd : Pd
  ct : Contract
  rs : Swap
  alt : Alt
  ms : Measure
  /-- The Front end is in hold-over; PD_STAT.HOLD. [1; 01 R13, 10 R289; 0] -/
  hold : Bool
  /-- A SELFTEST of this Port runs: its command, and the state it started from. [22 R583; none] -/
  test : Option (CmdRef × TcState)
  /-- A self-test failed in hold-over; retirement follows. [22 R585; none] -/
  failDue : Option (Fin 6 × CT)
  deriving DecidableEq, Repr

/-! ### Sketches and platforms -/

/-- A Sketch, in a slot or in a holding buffer (R397). -/
structure Sketch where
  port : PortId
  cause : Cause
  second : Option (Nat × Cause)
  held : Bool
  holdover : Bool
  pstate : PathState
  trigPh : Nat
  trigCt : CT
  trigIdx : Nat
  rEst : BitVec 16
  ftCode : BitVec 10
  dropped : Nat
  volt : Nat
  curr : Nat
  prot : Word
  /-- The records, oldest first. -/
  recs : List Sample
  /-- CT and phase of each record (R386). -/
  stamps : List (CT × Nat)
  complete : Bool
  deriving DecidableEq, Repr

/-- A trip whose PATH event is issued at the end of its tick, with its cause by rank (R257), and whether LOCKOFF came with
it. -/
structure TripNote where
  port : PortId
  cause : Cause
  lock : Bool
  deriving DecidableEq, Repr

/-- States of a kernel slot, in the order of their codes 0-4 (R496). -/
inductive KState where
  | empty | staged | running | stopped | faulted
  deriving DecidableEq, Repr

structure Platform where
  /-- PLk_VCONN is present. [1; 08 R225 R236; 1, since VCONN_ABSENT resets to 0: DC 139] -/
  vconn : Bool
  /-- The Sketch slots. [8; 09 R261; free] -/
  slots : Vector (Option Sketch) 8
  /-- The holding buffer in the HV die. [1 Sketch; 09 R261; free] -/
  holding : Option Sketch
  /-- Triggers dropped. [32; 09 R261; 0] -/
  dropped : Nat
  /-- A push in progress: slot, next frame, host port and tag. [14 R399; none] -/
  push : Option (Fin 8 × Nat × CmdRef)
  /-- The push ends after the frame in transmission. [1; 14 R399; 0] -/
  pushCut : Bool
  /-- Fallback. [1; 22 R587; 0] -/
  fallback : Bool
  /-- Powered sample index of the watchdog expiries of the last 24 h, newest first. [22 R587; none] -/
  dogs : List Nat
  /-- Take-back: the next port of the Platform to be taken back, 0-5. [01 R29; none] -/
  takeBack : Option Nat
  deriving DecidableEq, Repr

/-! ### The Vavis cores -/

/-- A loop level (R504, R519). -/
structure Loop where
  start : Word
  stop : Word
  count : Word
  active : Bool
  deriving DecidableEq, Repr

/-- One context of a core (R503, R504). -/
structure VCtx where
  /-- v0-v15. [16 × 32; 19 R503; DC 5 0] -/
  v : Vector Word 16
  /-- acc0, acc1. [2 × 40; 19 R503; DC 5 0] -/
  acc : Vector Acc 2
  /-- FL. [8; 19 R505; 0] -/
  fl : Byte
  /-- MD.RND. [2; 19 R506; 0b11] -/
  rnd : BitVec 2
  /-- MD.SAT. [1; 19 R506; 1] -/
  sat : Bool
  /-- mph. [32; 19 R504; 0] -/
  mph : Word
  /-- mpl. [32; 19 R504; 0] -/
  mpl : Word
  /-- lp0, lp1, lp2. [3 × 3 × 32; 19 R504; 0] -/
  loops : Vector Loop 3
  /-- RPT. [32; 19 R504 R523; 0] -/
  rpt : Nat
  /-- CYC, and the cycle the next instruction issues in. [32; 19 R504; 0] -/
  cyc : Nat
  /-- The program counter. [32; 19 R507; DC 5 0] -/
  pc : Word
  /-- Products not yet written: the cycle they can be read from, and their 64 bits, oldest first. [19 R516; none] -/
  prods : List (Nat × BitVec 64)
  /-- The cycle from which each accumulator is complete. [2; 19 R517; 0] -/
  accAt : Vector Nat 2
  /-- The register a load has just written. [4; 19 R515; none] -/
  loaded : Option Reg
  deriving DecidableEq, Repr

/-- A kernel slot (R528-R531). -/
structure KSlot where
  /-- STATE. [3; 19 R530; empty] -/
  st : KState
  /-- KID. [32; 19 R528, 18 R496; 0] -/
  kid : Word
  /-- SIZE. [32; 18 R496; 0] -/
  size : Nat
  /-- Largest cycles used in one frame since start. [32; 18 R496; 0] -/
  cycMax : Nat
  /-- The staging area, by offset. [24 608 bytes; 19 R528; DC 5 0] -/
  staging : Mem
  /-- Code, by address. [16 KiB; 19 R527; 0] -/
  code : Mem
  /-- CODE_SIZE of the package in the slot. [15; 19 R528; 0] -/
  codeSize : Nat
  /-- Data window, by offset. [8 KiB; 19 R527; 0] -/
  data : Mem
  /-- IN window, by offset. [1 KiB; 19 R534 R537; 0] -/
  inw : Mem
  /-- OUT window, by offset. [1 KiB; 19 R527; 0] -/
  outw : Mem
  /-- Entry points INIT and RUN. [19 R528; 0] -/
  init : Nat
  run : Nat
  /-- Cycles charged in this frame. [19 R531; 0] -/
  charge : Nat
  /-- Cycles charged to INIT. [19 R531; 0] -/
  initCharge : Nat
  /-- The frame the charge belongs to. [19 R531; 0] -/
  frame : Nat
  /-- An invocation is in progress. [1; 19 R527; 0] -/
  busy : Bool
  /-- The charge of the invocation has reached its budget: it has stopped. [1; 19 R531; 0] -/
  spent : Bool
  /-- A second invocation is due: GRP_DONE and SIDX of its block, and its sums. [19 R534; none] -/
  due : Option (Nat × Nat × List Int)
  /-- GRP_DONE of the invocation in progress, and SIDX of its block. [19 R534; 0] -/
  grp : Nat
  blk : Nat
  /-- SEQ. [32; 19 R534; 0] -/
  seq : Nat
  /-- MISSED. [32; 19 R534; 0] -/
  missed : Nat
  /-- The KERNEL_START in progress: its host port and tag. [18 R496; none] -/
  host : Option CmdRef
  deriving DecidableEq, Repr

/-- A core. -/
structure VCore where
  /-- The core runs its firmware. [1; 03 R74; 0] -/
  up : Bool
  /-- Firmware context. [19 R503] -/
  fw : VCtx
  /-- Kernel context. [19 R503] -/
  kn : VCtx
  /-- Instruction memory of the firmware, by offset. [256 or 128 KiB; 19 table; DC 5 0] -/
  code : Mem
  /-- Data memory of the firmware, by offset. [192 or 64 KiB; 19 table; DC 5 0] -/
  data : Mem
  /-- The event register. [32; 19 R526; DC 5 0] -/
  event : Word
  /-- Sleeps in WAIT. [1; 19 R526; 0] -/
  sleeping : Bool
  /-- The kernel slot. [19 R528-R531] -/
  slot : KSlot
  deriving DecidableEq, Repr

/-! ### Hosts -/

/-- A reply (R455) before its CRC. -/
structure Reply where
  tag : Byte
  status : BitVec 16
  opcode : BitVec 16
  payload : List Byte
  deriving DecidableEq, Repr

/-- An event (R456) before its CRC. -/
structure Event where
  code : BitVec 16
  ssn : Word
  ct : CT
  source : BitVec 16
  flags : Byte
  tag : Byte
  payload : List Byte
  deriving DecidableEq, Repr

/-- A command whose tag is held: it waits to be taken, waits under R465 or R493, or was answered ACCEPTED. -/
structure Held where
  op : BitVec 16
  p : Packet
  /-- Arrival tick. -/
  stamp : CT
  deriving DecidableEq, Repr

/-- The register windows of a two-wire port (R433-R444). -/
structure TwoWire where
  /-- TW_CFG in force. [32; 16 R447; 0x2C00_0000, for AUX 0x2C3A_0000] -/
  cfg : Word
  /-- TW_TIM in force. [32; 16 R447; 0x7951_8DC0] -/
  tim : Word
  /-- The pointer: window (compatibility mode only) and offset. [16; 16 R434 R435; 0] -/
  ptr : BitVec 16
  /-- WINSEL. [8; 16 R433; 0] -/
  winsel : Byte
  /-- TMO. [1, W1C; 16 R437; 0] -/
  tmo : Bool
  /-- PEC_ERR. [1, W1C; 16 R437; 0] -/
  pecErr : Bool
  /-- CMD_ERR. [1, W1C; 16 R437; 0] -/
  cmdErr : Bool
  /-- CMD_FREE. [1; 16 R437; 1] -/
  cmdFree : Bool
  /-- CMD_LEN. [11; 16 R437; 0] -/
  cmdLen : BitVec 11
  /-- ALRT_EVT. [1; 16 R437; 1] -/
  alrtEvt : Bool
  /-- ALRT_RPL. [1; 16 R437; 1] -/
  alrtRpl : Bool
  /-- Released by a won alert response until its next transfer. [1; 16 R442; 0] -/
  ara : Bool
  /-- The doorbells rung and not acted on: RPL_DONE, EVT_DONE, SEND. [3; 16 R438; 0] -/
  rplDone : Bool
  evtDone : Bool
  send : Bool
  /-- The command buffer, by byte of the frame. [1275; 16 R433; DC 5 0] -/
  buf : Mem
  /-- Address byte and bytes of a write transfer that a repeated START ended, for the PEC of what follows. [16 R443; none] -/
  pre : List Byte
  /-- Bytes of the last read transfer, as sent. [16 R434; none] -/
  out : List Byte
  /-- The bus is free; AUX has its own bit in the Points engine. [1; 16 R445 R447; DC 5 1] -/
  free : Bool
  /-- Changed words wait for the bus to be free. [1; 16 R447; 0] -/
  due : Bool
  deriving DecidableEq, Repr

/-- A host port. -/
structure HostFe where
  /-- Tags held, with their commands. HP_TAGS counts them. [≤ 63; 15 R410 R428; none] -/
  held : List Byte
  /-- Replies queued, oldest first. [16 R440; none] -/
  replies : List Reply
  /-- Events queued, oldest first; HP_EVQ.QUEUED counts them. [64; 15 R425 R428; none] -/
  events : List Event
  /-- Places reserved for completion events. [17 R457; 0] -/
  reserved : Nat
  /-- DROPPED. [16, W1C; 15 R428; 0] -/
  dropped : Nat
  /-- First and last SSN dropped since the last OVERFLOW, and how many. [15 R425; none] -/
  lost : Option (Word × Word × Nat)
  /-- HP_SUB.GROUPS. [8; 15 R421 R428; 0] -/
  sub : Byte
  deriving DecidableEq, Repr

/-! ### The store -/

/-- A Palette copy: its page contents by offset. -/
structure Copy where
  /-- The 8 KiB. [8 KiB; 20 R539 R547; every byte 0] -/
  mem : Mem
  deriving DecidableEq, Repr

/-- What a page program is part of (R542). -/
inductive PageJob where
  /-- Save record page, then the open Log page. -/
  | save
  /-- Page of a Palette commit. -/
  | commit
  /-- Page of a USER_WRITE or FORMAT of the User region. -/
  | user
  /-- Log page. -/
  | log
  /-- Control page. -/
  | control
  /-- Scrub refresh. -/
  | scrub
  deriving DecidableEq, Repr

/-- What a program writes: bytes as given; bytes laid over what the page holds when it is read (R541); what the page holds,
corrected (R546); a control page (R563); the Log page that has filled, or the open one (R560). -/
inductive PageData where
  | bytes (m : Mem)
  | patch (off : Nat) (bs : List Byte)
  | refresh
  | control (prot : Byte)
  | filled
  | openLog
  deriving DecidableEq, Repr

/-- A page program waiting or in progress. -/
structure PageReq where
  job : PageJob
  /-- Page number: store address / 256; 512 and 513 are the control pages. That of a control page is settled as it begins. -/
  page : Nat
  /-- What it writes; of the program in progress, its bytes. -/
  data : PageData
  /-- The first attempt failed its verify. -/
  retried : Bool
  /-- Command it belongs to, and whether it is its last page. -/
  cmd : Option CmdRef
  final : Bool
  deriving DecidableEq, Repr

/-- A save record (R556). -/
structure Record where
  saveNo : Word
  /-- Slots 0-126, of 8 bytes each. -/
  slots : List (BitVec 64)
  /-- Pages of it that are committed. -/
  pages : Nat
  deriving DecidableEq, Repr

/-- A Log entry (R589). -/
structure LogEntry where
  index : Word
  ssn : Word
  ct : CT
  code : BitVec 16
  source : BitVec 16
  first4 : List Byte
  deriving DecidableEq, Repr

/-- A commit in progress (R551). -/
structure Commit where
  /-- The new running configuration, without header and CRC. -/
  cfg : Mem
  seq : Word
  toA : Bool
  /-- The command, if a host's, and its W1C entries (RID, bits). -/
  cmd : Option CmdRef
  w1c : List (BitVec 16 × Word)
  /-- How its pages ended while core SB was down, which finds it when it restarts (R552). -/
  landed : Option Bool
  deriving DecidableEq, Repr

structure Store where
  /-- Palette copies A and B. [2 × 8 KiB; 20 R539 R547; DC 5 no valid copy] -/
  copyA : Copy
  copyB : Copy
  /-- The running configuration, by Palette offset, over the default values. [8 KiB; 20 R547 R548 R551; defaults] -/
  run : Mem
  /-- The configuration loaded at the last recall differs from any copy: FMT above FMT_MAX. [1; 20 R554; 0] -/
  newer : Bool
  /-- The commit in progress. [20 R551; none] -/
  commit : Option Commit
  /-- Programs waiting, in order of request. [20 R542; none] -/
  queue : List PageReq
  /-- The program in progress. [20 R542; none] -/
  prog : Option PageReq
  /-- A recall is in progress. [1; 17 R477, 20 R553; 0] -/
  recalling : Bool
  /-- The recall waits for the pages of a commit. [1; 20 R565; 0] -/
  recallDue : Bool
  /-- Pages left torn by a failed verify since the last scrub. [20 R544 R546; 0] -/
  fails : Nat
  /-- Groups corrected by reads since the last scrub. [20 R545; 0] -/
  fixes : Nat
  /-- The generation of each page's latest program, and that in its commit marker; absent is 0. [514 pages; 20 R540; 0] -/
  gens : List (Nat × Nat)
  marks : List (Nat × Nat)
  /-- Groups known to read uncorrectable, and those that read corrected: page and group, 32 the marker.
  [514 × 33; 20 R540 R545; none] -/
  bad : List (Nat × Fin 33)
  weak : List (Nat × Fin 33)
  /-- A copy (A true) whose commit ended with STORE_FAULT though its last page was programmed: it is not active until the
  next recall. [20 R551 R565; none] -/
  late : Option Bool
  /-- Program counts, by page; absent is 0. [514 × 32; 20 R540 R566; 0] -/
  cycles : List (Nat × Nat)
  /-- The count from which the worst page asks for replacement again after a WEAR_RESET. [20 R566, 18 R492; 0] -/
  wearMark : Nat
  /-- The User region. [64 KiB; 20 R539; DC 5 0] -/
  user : Mem
  /-- The control pages: PROT and generation of each; none where its PROT reads uncorrectable. [2 pages; 20 R563; PROT 0] -/
  prot0 : Option (Nat × Word)
  prot1 : Option (Nat × Word)
  /-- The ring of save records, 16 places. [16 KiB; 20 R556; no valid record] -/
  ring : Vector (Option Record) 16
  /-- Place of the next record. [4; 20 R557; 0] -/
  ringAt : Fin 16
  /-- The save running: its latched slots and SAVE_NO. [20 R557; none] -/
  saving : Option Record
  /-- A save is to start, or to start again with a new latch, after the page in progress. [1; 20 R557 R565; 0] -/
  saveAgain : Bool
  /-- The SSN at the last latch. [32; 20 R557; 0] -/
  ssnLatch : Word
  /-- Log pages: PAGE_NO and entries. [128 pages; 20 R560; empty] -/
  log : List (Nat × Word × List LogEntry)
  /-- Log pages that have filled and whose program waits: PAGE_NO and entries. [20 R560; none] -/
  filled : List (Nat × Word × List LogEntry)
  /-- The open Log page, oldest first, and whether it holds unwritten entries. [10 entries; 20 R560; empty] -/
  page : List LogEntry
  pageDirty : Bool
  /-- PAGE_NO of the open page. [32; 20 R560; 1] -/
  pageNo : Word
  /-- INDEX of the next Log entry. [32; 22 R589; 0] -/
  logIndex : Word
  /-- A scrub: next page, corrected, uncorrectable, and its command. [20 R546; none] -/
  scrub : Option (Nat × Nat × Nat × Option CmdRef)
  deriving DecidableEq, Repr

/-- An image bank (R567-R576). -/
structure ImageBank where
  /-- The bytes delivered, by offset. [1 MiB; 21 R567; DC 5 0] -/
  mem : Mem
  /-- STATE, 0-3. [2; 21 R573; 0 empty] -/
  st : Fin 4
  /-- SEL. [32; 21 R575; 0] -/
  sel : Word
  deriving DecidableEq, Repr

/-! ### Points, NET and the rest -/

/-- A Points script queued or running (R366). -/
structure Script where
  port : PortId
  event : BitVec 4
  /-- Steps from the next one that its ORI does not skip, and the number of that one. -/
  steps : List Word
  num : Nat
  /-- Tries of the present write that failed. -/
  fails : Nat
  /-- Arbitration losses in a row on the step. -/
  losses : Nat
  /-- CT of its request: scripts of one tick stand by port (R366). -/
  asked : CT
  deriving DecidableEq, Repr

structure Points where
  /-- Scripts queued, the running one first if any. [13 R366; none] -/
  queue : List Script
  /-- The head of the queue runs. [1; 13 R366; 0] -/
  running : Bool
  /-- The present step waits: a delay, or 1 ms before another try. [1; 13 R367; 0] -/
  delay : Bool
  /-- The table passed its check at the last load. [1; 13 R364; 1, an empty table] -/
  ok : Bool
  /-- The last transfer sent as controller: ADDR, REG and DATA. [7, 8, 8; 13 R367; none] -/
  out : Option (BitVec 7 × Byte × Byte)
  /-- The AUX bus is free. [1; 16 R445; DC 5 1] -/
  busFree : Bool
  /-- SCL is stuck low: nothing is driven. [1; 16 R446; 0] -/
  sclStuck : Bool
  deriving DecidableEq, Repr

/-- A frame on the NET lane: a reply, an event, an ARP answer, an energy report, a trace frame or a push (R393). -/
inductive LaneFrame where
  | arp (mac : BitVec 48) (ip : BitVec 32)
  | reply (r : Reply) (mac : BitVec 48) (ip : BitVec 32) (port : BitVec 16)
  | event (e : Event)
  | report (hdr : List Byte) (pairs : List (BitVec 64 × BitVec 64))
  | trace (port : PortId) (cut : Nat) (hdr : List Byte) (recs : List (List (BitVec 16)))
  | push (k : PlatId) (hdr : List Byte) (recs : List Sample)
  deriving DecidableEq, Repr

structure Net where
  /-- NET_STAT.LINK. [1; 14 R394; 0] -/
  link : Bool
  /-- NET_STAT.LOCK. [1; 14 R394; 0] -/
  lock : Bool
  /-- NET_STAT.LOST. [16, W1C; 14 R391; 0] -/
  lost : Nat
  /-- SEQ of TYPE 0x03. [32; 14 R388; 0] -/
  repSeq : Word
  /-- Trace frames cut, of all ports: the order of rank 3. [14 R393; 0] -/
  cuts : Nat
  /-- Rank 1: ARP answers, and replies to frames that took no tag. [14 R393, 17 R460; none] -/
  urgent : List LaneFrame
  /-- Rank 2: energy reports. [14 R393; none] -/
  reports : List LaneFrame
  /-- Rank 3: trace frames, in cut order. [48 KiB; 14 R391 R393; none] -/
  traces : List LaneFrame
  /-- The frame in transmission. [14 R393; none] -/
  sending : Option LaneFrame
  /-- The event destination: MAC, address and port of the last subscribe on NET. [17 R473; none] -/
  dest : Option (BitVec 48 × BitVec 32 × BitVec 16)
  /-- Where the reply to each NET tag held goes. [17 R473; none] -/
  origin : List (Byte × BitVec 48 × BitVec 32 × BitVec 16)
  /-- NET_CMD.CPORT in force. [16; 17 R474; 0] -/
  cport : BitVec 16
  /-- A changed CPORT waits until this host port's replies have been sent. [17 R474; none] -/
  cportAfter : Option HostPort
  deriving DecidableEq, Repr

/-- What core SB asks its policy kernel for: a port's offer ceiling, for capabilities to be sent, for an offer that may have
risen, or for an answer to Get_Source_Cap (false) or EPR_Get_Source_Cap (true); or the shedding targets (R537). -/
inductive PolicyAsk where
  | offer (n : PortId) | rise (n : PortId) | answer (n : PortId) (epr : Bool) | shed
  deriving DecidableEq, Repr

structure Budget where
  /-- SHEDDING. [1; 11 R306; 0] -/
  shedding : Bool
  /-- REGEN_STOP. [1, W1C; 11 R327; 0] -/
  regenStop : Bool
  /-- Ports still to be sent shedding capabilities, in order. [11 R306; none] -/
  shedQueue : List PortId
  /-- Policy invocations asked for, the one in progress first: a port's offer ceiling, or the shedding targets.
  [19 R537; none] -/
  policy : List PolicyAsk
  deriving DecidableEq, Repr

structure Local where
  /-- LAST_ERR. [1; 17 R468; 0] -/
  lastErr : Bool
  /-- CMD_FREE. [1; 17 R468; 1] -/
  cmdFree : Bool
  /-- Bytes of the last transaction, as sent. [17 R467; none] -/
  out : List Byte
  deriving DecidableEq, Repr

structure Health where
  /-- HEALTH_STATUS.ACTIVE. [32; 22 R580, 18 R498; 0] -/
  active : Word
  /-- The retired mask. [24; 22 R584; 0] -/
  retired : BitVec 24
  /-- Insertions. [32; 22 R586; 0] -/
  insertions : Nat
  /-- WARN_N assertions. [32; 22 R586; 0] -/
  warns : Nat
  /-- Sequencer all-offs. [32; 22 R586; 0] -/
  alloffs : Nat
  /-- Cold starts. [32; 22 R586; 0] -/
  cold : Nat
  /-- Warm starts. [32; 22 R586; 0] -/
  warm : Nat
  /-- Core SB watchdog expiries. [32; 22 R586; 0] -/
  sbDogs : Nat
  /-- PC0-PC3 watchdog expiries. [4 × 8; 22 R586; 0] -/
  pcDogs : Vector Nat 4
  /-- Samples since the last scrub. [22 R586; 0] -/
  sinceScrub : Nat
  /-- Highest HV die temperature. [16; 22 R586; none, reads 0x8000] -/
  tHv : Option Int
  /-- Highest logic die temperature. [16; 22 R586; none, reads 0x8000] -/
  tLogic : Option Int
  /-- Life used, h, and its part in 2⁻³² h. [32; 22 R586 R592; 0] -/
  life : Nat
  lifePart : Nat
  /-- Powered samples carried from earlier insertions. [22 R586; 0] -/
  powered : Nat
  /-- Station SELFTEST results: tests failed. [4; 22 R582; 0] -/
  station : BitVec 4
  deriving DecidableEq, Repr

/-- The Station. -/
structure State where
  fuse : Varnish
  sup : Supplies
  time : Time
  /-- The 128 counter channels. [128; 04 R104] -/
  chan : Vector Channel 128
  tt : Timetable
  hs : HotSwap
  sq : Sequencer
  /-- The 24 Ports. [24; 01 What software sees] -/
  port : Vector Port 24
  /-- The 4 Platforms. [4; 01 What software sees] -/
  plat : Vector Platform 4
  /-- The 5 cores, CID order. [5; 19] -/
  core : Vector VCore 5
  /-- SIDX of the next sample instant. [64; 14 R372; 0] -/
  sidx : Nat
  /-- Sample instants since the present tick began, in 5 ns units. [14 R386; 0] -/
  phase : Nat
  /-- EN_SNAP_CT and EN_SNAP_PH. [32 + 32; 14 R381; 0] -/
  snapCt : CT
  snapPh : BitVec 16
  /-- CT and phase of the last sample instants, newest first, at most 1024. [14 R386 R397; none] -/
  stamps : List (CT × Nat)
  /-- EN_SRC and EN_SNK of every port at the first sample instant of the present tick and of those in which a measurement
  command arrived that is still to be taken, with its CT and phase. [14 R379; none] -/
  firsts : List (CT × Nat × List (BitVec 64 × BitVec 64))
  /-- The first tick of a superframe, with the configuration and the pending N and B as they stood when it began.
  [14 R385, 18 R502, 05 R137; none] -/
  sfHeld : Option (CT × Mem × BitVec 3 × BitVec 10)
  /-- Trips of the present tick. [09 R257; none] -/
  trips : List TripNote
  /-- Sketches triggered in the present tick, which take their slots at its end. [09 R261; none] -/
  sketches : List Sketch
  /-- The latest scan of the housekeeping ADC. [13 × 16; 14 R376; DC 5 0] -/
  hk : HkScan
  /-- Host ports MA, MB, LS, AUX, NET. [5; 15] -/
  host : Vector HostFe 5
  /-- Two-wire windows of MA, MB and AUX. [3; 16 R433] -/
  tw : Vector TwoWire 3
  loc : Local
  net : Net
  /-- Commands that have arrived and core SB has not taken, in the order of R419. [15 R419; none] -/
  inbox : List Held
  /-- Commands that wait under R465 or R493, in the order of R419. [17 R465; none] -/
  waiting : List Held
  /-- Commands answered ACCEPTED whose completion is to come. [17 R463; none] -/
  active : List Held
  /-- HP_CLAIM: the holder of each Port's claim. [24 × 3; 15 R414 R428; none] -/
  claim : Vector (Option HostPort) 24
  /-- SSN of the next event. [32; 15 R424; 0] -/
  ssn : Word
  /-- The next event carries RESUME. [1; 15 R424; 0] -/
  resume : Bool
  /-- The ranks of the events numbered in the present tick, in SSN order. [15 R422; none] -/
  seqTick : List Nat
  /-- HP_STAT.SET_FAIL. [1; 15 R409; 0] -/
  setFail : Bool
  bg : Budget
  store : Store
  bankA : ImageBank
  bankB : ImageBank
  /-- IMAGE_VERIFY commands in progress, oldest first. [21 R573; none] -/
  verify : List (Bank × CmdRef)
  /-- ROLLBACK_ADVANCE commands in progress, oldest first. [18 R496; none] -/
  advance : List CmdRef
  points : Points
  health : Health
  /-- The model's own: commands that wait to be stepped, first in, first out. [DC 1; empty] -/
  pending : List Instr
  /-- The model's own: index of the next free value. [DC 6; 0] -/
  fresh : Nat
  deriving DecidableEq, Repr

/-! ### Reset

Every field at the value the manual states, or the one its docstring names. -/

def Varnish.reset : Varnish where
  present := 0xFFFFFF
  hs0 := 0
  hs1 := 0
  hs2 := 0
  hs3 := 0
  sqCfg := 0
  sqRail := Vector.replicate 12 0
  hp0 := 0
  hp1 := 0
  pmax := Vector.replicate 6 0xF0F0F0F0
  budgetCeil := 0x258
  cardCeil := 2400
  keySet := true
  arb := 0

def Supplies.reset : Supplies where
  hvUp := false
  vcpOk := false
  logicUp := false
  retainedKept := false
  runFlag := false
  linkSilent := true
  primer := .off
  primerEver := false
  runBank := none
  restartReq := none
  reload := []
  service := false
  servicePin := false
  hvUncorr := false
  hvMargin := false
  replaceReq := false
  serviceReplace := false
  slotId := none
  slotPins := none
  slotChanged := []
  serviceDue := []
  lastBank := none

def Time.reset : Time where
  ct := 0
  st := .acquire
  mismatch := 0
  cause := 0
  epochSet := false
  sfLock := false
  frameLock := false
  cadOk := false
  cadHere := false
  xtalOk := true
  slewOfs := 0
  heldTick := false
  rise := 0
  fall := 0
  capValid := false
  capOvr := false
  capKind := 0
  capWidth := 0
  frmRun := none
  frmDone := none
  lastFrame := none
  tickRun := none
  frameRun := none
  epochPend := none
  usAcc := 0
  frameClk := 0
  heldClk := 0
  wholeFrame := false
  frames := []
  genAcc := 0

def Channel.reset : Channel where
  count := 0
  reload := 0
  buf := 0
  mtch := 0
  phase := 0
  run := false
  down := false
  src := 0
  startSf := false
  actM := 0
  actW := 0
  mflag := false
  wflag := false
  link := 0
  held := false
  force := false
  dueM := false
  dueW := false
  edgeCount := 0
  edgeRun := false
  rank := 0

def TtReq.reset : TtReq where
  a := 0
  b := 0
  c := 0
  d := 0
  done := false
  index := 0
  status := 0
  first := 0
  last := 0

def Timetable.reset : Timetable where
  nlogPend := 0b100
  budgetPend := 0xC8
  nlog := 0b100
  budget := 0xC8
  entries := Vector.replicate 256 none
  ledger := []
  req := Vector.replicate 5 TtReq.reset
  gos := []
  firedAt := none
  news := []
  moved := []
  dropped := []

def HotSwap.reset : HotSwap where
  st := .qualify
  long := true
  cause := .none
  retry := 0
  warn := false
  wLevel := false
  wSag := false
  wOpen := false
  ovAct := false
  nocad := false
  derate := false
  regulating := false
  segCnt := 0
  vin := 0
  vsns := 0
  power := []
  revTrips := []
  halved := 0
  selfAll := false
  selfNext := false
  suspended := false
  inrTo := false
  phTo := false
  removal := false
  lastSeg := none
  opened := none
  nocadDue := false
  derateDue := false
  hist := []
  lost := 0

def Rail.reset : Rail where
  en := false
  pg := false
  waiting := false
  qualified := false
  upTo := false
  disTo := false
  disEnded := false
  discharged := true
  fell := false
  stepAt := 0
  qualAt := none
  undet := false
  prebias := false
  disLate := false
  downFail := false

def Sequencer.reset : Sequencer where
  st := .idle
  cause := .none
  faultRail := 0xF
  aoCnt := 0
  armed := false
  retLate := false
  retEnded := false
  retTo := false
  stepNow := 0
  undetC := 0
  cin := false
  cinQual := false
  reti := false
  faultDriven := true
  faultN := true
  fromStart := false
  aoDelay := false
  restart := 0
  restartUp := false
  hostPend := false
  rails := Vector.replicate 12 Rail.reset
  hist := []
  lost := 0

def TypeC.reset : TypeC where
  st := .disabled
  orient := .none
  rpSeen := 0
  rpOffer := 0
  partner := .none
  vconnOn := false
  vconnWait := false
  vconnOc := false
  vconnOff := false
  ccUndet := false
  holdAttach := false
  cmpFail := false
  attCnt := 0
  cfg := 0x03800000
  pdCfg := 0xB8000000
  cc1 := .opn
  cc2 := .opn
  dbgCc2 := false
  raOther := false
  debDone := false
  tryEnded := false
  blank := false
  sinkStep := 0
  rpRound := 0
  rpPend := none
  lfsr := 0
  opening := .closed
  pathRetry := false
  pathLimit := false

def Path.reset : Path where
  st := .opn
  sink := false
  ftTrip := false
  revTrip := false
  i2tTrip := false
  thermTrip := false
  closeFail := false
  cpgLost := false
  dsgFail := false
  calSkip := false
  calRej := false
  trimLim := false
  tWarn := false
  noSketch := false
  rHeld := false
  fetImb := false
  trips := []
  prot := 0xA02940C8
  protPend := none
  rEst := 0
  rc := 0
  dT := 0
  dTc := 0
  rKnown := false
  learned := none
  quiet := 0
  rCal := 0
  rCalQ := 0
  iCal := 0
  rejRun := 0
  calAt := none
  calGot := none
  code := 0
  ftCode := 0
  ftPend := none
  trim := 0
  trimPend := 0
  lim := 0
  trimStop := none
  i2t := 0
  cen := false
  cpg := false
  assist := false
  byTrip := false
  byVcp := false
  retryRun := false
  pulse := none
  ftHold := none
  imbDue := false
  hist := []
  vcpWait := false
  left := none

def Context.reset : Context where
  txId := 0
  rxId := 0
  rxValid := false
  retry := 0
  tx := .idle
  chunk := 0
  rev := 0
  cur := none
  rxPart := none
  report := none

def Pd.reset : Pd where
  ctx := Vector.replicate 3 Context.reset
  rxq := []
  rxDone := 0
  lastAck := none
  rxErr := 0
  eng := []
  notice := false
  outbox := []
  cacheSrc := none
  cacheEprSrc := none
  cacheSnk := none
  cacheEprSnk := none
  contract := false
  epr := false
  eprEntry := false
  ams := false
  sinkTxOk := false
  hrPend := false
  hrFail := false
  rxFull := false
  chunkAbort := false
  cableAbsent := false
  hrCnt := 0
  retryCnt := 0
  cable := 0
  cableUsb4 := false
  hrReq := false
  hrTries := 0
  timers := []
  capsCnt := 0
  objs := []
  partnerObjs := []
  rdoEpr := false
  reqSent := none
  gotGetSink := false
  partnerDrp := false
  sentGetSink := false
  askedSnk := false
  period := false

def Contract.reset : Contract where
  kind := .none
  pos := 0
  shed := false
  therm := none
  convFail := false
  mv := 0
  i10 := 0
  imax := 0
  commit := 0x3C
  offer := 0
  plan := none
  waits := 0
  target := none
  shedDue := false
  shedTimer := false
  rdyOut := false
  capsAt := none
  draw := 0
  intended := 0
  stopFor := none
  stopRetry := false
  regenHold := false

def Swap.reset : Swap where
  code := .none
  step := .idle
  pr := .none
  dr := .none
  vc := false
  basePr := .none
  baseDr := .none
  baseVc := false
  partnerVc := false
  basePartnerVc := false
  stby := false
  leaving := false
  entry := none
  frsCur := 0
  fail := false
  frsDone := false
  nosig := false
  cnt := 0
  prefPr := false
  prefDr := false
  prefVc := false
  host := none
  kind := none
  retry := false

def Alt.reset : Alt where
  mode := .none
  pin := 0
  hpd := false
  ptsFail := false
  ptsSince := false
  noScript := false
  enterFail := false
  enterSince := false
  detPend := false
  lastEvt := 0
  failStep := 0
  step := .idle
  partnerUsb4 := false
  tried := false
  pins := 0
  exitDue := false
  askStatus := false
  host := none

def Trace.reset : Trace where
  cfg := 0x0F040000
  seq := 0
  sketchSeq := 0
  groups := []
  part := none
  flags := 0
  gap := true
  kernel := false
  held := []

def Measure.reset : Measure where
  src := 0
  snk := 0
  srcRes := 0
  snkRes := 0
  snapSrc := 0
  snapSnk := 0
  sat := false
  trace := Trace.reset
  attaches := 0
  tripsLife := 0
  closedSamples := 0
  hardResets := 0
  swaps := 0
  tMax := none
  tests := 0

def Port.reset : Port where
  tc := TypeC.reset
  pp := Path.reset
  pd := Pd.reset
  ct := Contract.reset
  rs := Swap.reset
  alt := Alt.reset
  ms := Measure.reset
  hold := false
  test := none
  failDue := none

def Platform.reset : Platform where
  vconn := true
  slots := Vector.replicate 8 none
  holding := none
  dropped := 0
  push := none
  pushCut := false
  fallback := false
  dogs := []
  takeBack := none

def VCtx.reset : VCtx where
  v := Vector.replicate 16 0
  acc := Vector.replicate 2 0
  fl := 0
  rnd := 0b11
  sat := true
  mph := 0
  mpl := 0
  loops := Vector.replicate 3 { start := 0, stop := 0, count := 0, active := false }
  rpt := 0
  cyc := 0
  pc := 0
  prods := []
  accAt := Vector.replicate 2 0
  loaded := none

def KSlot.reset : KSlot where
  st := .empty
  kid := 0
  size := 0
  cycMax := 0
  staging := []
  code := []
  codeSize := 0
  data := []
  inw := []
  outw := []
  init := 0
  run := 0
  charge := 0
  initCharge := 0
  frame := 0
  spent := false
  busy := false
  due := none
  grp := 0
  blk := 0
  seq := 0
  missed := 0
  host := none

def VCore.reset : VCore where
  up := false
  fw := VCtx.reset
  kn := VCtx.reset
  code := []
  data := []
  event := 0
  sleeping := false
  slot := KSlot.reset

def TwoWire.reset (cfg : Word) : TwoWire where
  cfg := cfg
  tim := 0x79518DC0
  ptr := 0
  winsel := 0
  tmo := false
  pecErr := false
  cmdErr := false
  cmdFree := true
  cmdLen := 0
  alrtEvt := true
  alrtRpl := true
  ara := false
  rplDone := false
  evtDone := false
  send := false
  buf := []
  pre := []
  out := []
  free := true
  due := false

def HostFe.reset : HostFe where
  held := []
  replies := []
  events := []
  reserved := 0
  dropped := 0
  lost := none
  sub := 0

def Store.reset : Store where
  copyA := { mem := [] }
  copyB := { mem := [] }
  run := []
  newer := false
  commit := none
  queue := []
  prog := none
  recalling := false
  recallDue := false
  fails := 0
  fixes := 0
  gens := []
  marks := []
  bad := []
  weak := []
  late := none
  cycles := []
  wearMark := 0
  user := []
  prot0 := some (0, 0)
  prot1 := some (0, 0)
  ring := Vector.replicate 16 none
  ringAt := 0
  saving := none
  saveAgain := false
  ssnLatch := 0
  log := []
  filled := []
  page := []
  pageDirty := false
  pageNo := 1
  logIndex := 0
  scrub := none

def ImageBank.reset : ImageBank where
  mem := []
  st := 0
  sel := 0

def Points.reset : Points where
  queue := []
  running := false
  delay := false
  ok := true
  out := none
  busFree := true
  sclStuck := false

def Net.reset : Net where
  link := false
  lock := false
  lost := 0
  repSeq := 0
  cuts := 0
  urgent := []
  reports := []
  traces := []
  sending := none
  dest := none
  origin := []
  cport := 0
  cportAfter := none

def Health.reset : Health where
  active := 0
  retired := 0
  insertions := 0
  warns := 0
  alloffs := 0
  cold := 0
  warm := 0
  sbDogs := 0
  pcDogs := Vector.replicate 4 0
  sinceScrub := 0
  tHv := none
  tLogic := none
  life := 0
  lifePart := 0
  powered := 0
  station := 0

/-- The Station as assembled, before VBP first rises through 30 V (R57; log entry 2). -/
def State.reset : State where
  fuse := Varnish.reset
  sup := Supplies.reset
  time := Time.reset
  chan := Vector.replicate 128 Channel.reset
  tt := Timetable.reset
  hs := HotSwap.reset
  sq := Sequencer.reset
  port := Vector.replicate 24 Port.reset
  plat := Vector.replicate 4 Platform.reset
  core := Vector.replicate 5 VCore.reset
  sidx := 0
  phase := 0
  snapCt := 0
  snapPh := 0
  stamps := []
  firsts := []
  sfHeld := none
  trips := []
  sketches := []
  hk := { vbp := 0, vhold := 0, vcp := 0, vdd33 := 0, vdd09 := 0, vddnt := 0, int33 := 0, vconn0 := 0, vconn1 := 0,
          vconn2 := 0, vconn3 := 0, tHv := 0, tLogic := 0 }
  host := Vector.replicate 5 HostFe.reset
  tw := #v[TwoWire.reset 0x2C000000, TwoWire.reset 0x2C000000, TwoWire.reset 0x2C3A0000]
  loc := { lastErr := false, cmdFree := true, out := [] }
  net := Net.reset
  inbox := []
  waiting := []
  active := []
  claim := Vector.replicate 24 none
  ssn := 0
  seqTick := []
  resume := false
  setFail := false
  bg := { shedding := false, regenStop := false, shedQueue := [], policy := [] }
  store := Store.reset
  bankA := ImageBank.reset
  bankB := ImageBank.reset
  verify := []
  advance := []
  points := Points.reset
  health := Health.reset
  pending := []
  fresh := 0

end Sys2Proof.Machine
end

