-- ==== Sys2Proof/Machine/Ops.lean ====
section
/-! DEFINITION. Operations that several families share: memory, configuration words, names of codes, events and the Log,
replies and completions. -/
namespace Sys2Proof

/-! ### Host ports and buses by their codes (chapter 15) -/

def HostPort.ix : HostPort → Fin 5
  | .ma => 0 | .mb => 1 | .ls => 2 | .aux => 3 | .net => 4

def HostPort.ofCode : Nat → Option HostPort
  | 0 => some .ma | 1 => some .mb | 2 => some .ls | 3 => some .aux | 4 => some .net | _ => none

def allHosts : List HostPort := [.ma, .mb, .ls, .aux, .net]

def TwBus.ix : TwBus → Fin 3
  | .ma => 0 | .mb => 1 | .aux => 2

def TwBus.host : TwBus → HostPort
  | .ma => .ma | .mb => .mb | .aux => .aux

end Sys2Proof

namespace Sys2Proof.Machine

/-! ### Bits, bytes and rounding -/

/-- Bits hi:lo of a register, as a number. -/
def bits {w : Nat} (x : BitVec w) (hi lo : Nat) : Nat := (x.toNat >>> lo) % 2 ^ (hi + 1 - lo)

/-- One bit of a register. -/
def bit {w : Nat} (x : BitVec w) (i : Nat) : Bool := x.getLsbD i

def b2n (b : Bool) : Nat := if b then 1 else 0

/-- A field placed at bit `lo` of a register. -/
def fld (v lo : Nat) : Word := BitVec.ofNat 32 (v <<< lo)

def flag (b : Bool) (lo : Nat) : Word := fld (b2n b) lo

/-- The least significant byte first (R9). -/
def leBytes : Nat → Nat → List Byte
  | 0, _ => []
  | k + 1, x => BitVec.ofNat 8 x :: leBytes k (x / 256)

/-- The number that bytes spell, least significant first (R9). -/
def leNat : List Byte → Nat
  | [] => 0
  | b :: t => b.toNat + 256 * leNat t

def le16 (bs : List Byte) (off : Nat) : Nat := leNat ((bs.drop off).take 2)
def le32 (bs : List Byte) (off : Nat) : Nat := leNat ((bs.drop off).take 4)

/-- A rational brought to a whole number where the manual states no rounding (log entry 8). -/
def roundFree (q : Rat) : Int := if q.den = 1 then q.num else if Config.roundUp q then q.ceil else q.floor

/-- The nearest whole number, halves up. -/
def roundHalfUp (q : Rat) : Int := (q + 1 / 2).floor

/-- ceil(a / b) for b > 0. -/
def ceilDiv (a b : Nat) : Nat := (a + b - 1) / b

/-- The ticks of so many ms, µs (2.048 tk each µs). -/
def tkMs (ms : Nat) : Nat := ms * 2048

/-- CRC-32C of bytes (R454). -/
def crcBits : Nat → BitVec 32 → BitVec 32
  | 0, c => c
  | k + 1, c => crcBits k (if c.getLsbD 0 then (c >>> 1) ^^^ 0x82F63B78 else c >>> 1)

def crc32c (bs : List Byte) : Word :=
  (bs.foldl (fun c b => crcBits 8 (c ^^^ b.zeroExtend 32)) 0xFFFFFFFF) ^^^ 0xFFFFFFFF

/-- CRC-8 of SMBus, x⁸ + x² + x + 1 (R443). -/
def crc8Bits : Nat → Byte → Byte
  | 0, c => c
  | k + 1, c => crc8Bits k (if c.getLsbD 7 then (c <<< 1) ^^^ 0x07 else c <<< 1)

def crc8 (bs : List Byte) : Byte := bs.foldl (fun c b => crc8Bits 8 (c ^^^ b)) 0

/-- A tick later than another, by the compare of R102: `c` has come at `now`. -/
def due (now c : CT) : Bool := (now - c).toNat < 2 ^ 47

/-- Serial-number compare over 32 bits (R550): x is newer than y. -/
def newer (x y : Word) : Bool := let d := (x - y).toNat; 1 ≤ d ∧ d < 2 ^ 31

/-! ### Memory -/

/-- What an address reads as; `dflt` is what an unlisted one reads as. -/
def Mem.get (dflt : Nat → Byte) : Mem → Nat → Byte
  | [], a => dflt a
  | (k, b) :: t, a => if a = k then b else if a < k then dflt a else Mem.get dflt t a

/-- A byte written; the canonical form is kept. -/
def Mem.set (dflt : Nat → Byte) : Mem → Nat → Byte → Mem
  | [], a, b => if b = dflt a then [] else [(a, b)]
  | (k, x) :: t, a, b =>
    if a < k then (if b = dflt a then (k, x) :: t else (a, b) :: (k, x) :: t)
    else if a = k then (if b = dflt a then t else (a, b) :: t)
    else (k, x) :: Mem.set dflt t a b

/-- Every address of the memory is above `a`. -/
def Mem.above (a : Nat) : Mem → Bool
  | [] => true
  | (k, _) :: _ => decide (a < k)

/-- The canonical form: addresses strictly rising, no entry equal to what an unlisted address reads as. -/
def Mem.wf (dflt : Nat → Byte) : Mem → Bool
  | [] => true
  | (k, b) :: t => Mem.above k t && !decide (b = dflt k) && Mem.wf dflt t

/-- Unlisted bytes read 0 (log entry 5). -/
def zeroByte : Nat → Byte := fun _ => 0

def Mem.read (dflt : Nat → Byte) (m : Mem) (a : Nat) : Nat → List Byte
  | 0 => []
  | k + 1 => Mem.get dflt m a :: Mem.read dflt m (a + 1) k

def Mem.write (dflt : Nat → Byte) (m : Mem) (a : Nat) : List Byte → Mem
  | [] => m
  | b :: t => Mem.write dflt (Mem.set dflt m a b) (a + 1) t

def Mem.word (dflt : Nat → Byte) (m : Mem) (a : Nat) : Word := BitVec.ofNat 32 (leNat (Mem.read dflt m a 4))

/-! ### Access to the parts of State -/

def State.modPort (s : State) (n : PortId) (f : Port → Port) : State := { s with port := s.port.set n (f s.port[n]) }
def State.modChan (s : State) (c : Fin 128) (f : Channel → Channel) : State :=
  { s with chan := s.chan.set c (f s.chan[c]) }
def State.modPlat (s : State) (k : PlatId) (f : Platform → Platform) : State :=
  { s with plat := s.plat.set k (f s.plat[k]) }
def State.modCore (s : State) (c : CoreId) (f : VCore → VCore) : State := { s with core := s.core.set c (f s.core[c]) }
def State.modRail (s : State) (x : RailId) (f : Rail → Rail) : State :=
  { s with sq := { s.sq with rails := s.sq.rails.set x (f s.sq.rails[x]) } }

def State.modTc (s : State) (n : PortId) (f : TypeC → TypeC) : State := s.modPort n fun p => { p with tc := f p.tc }
def State.modPp (s : State) (n : PortId) (f : Path → Path) : State := s.modPort n fun p => { p with pp := f p.pp }
def State.modPd (s : State) (n : PortId) (f : Pd → Pd) : State := s.modPort n fun p => { p with pd := f p.pd }
def State.modCt (s : State) (n : PortId) (f : Contract → Contract) : State :=
  s.modPort n fun p => { p with ct := f p.ct }
def State.modRs (s : State) (n : PortId) (f : Swap → Swap) : State := s.modPort n fun p => { p with rs := f p.rs }
def State.modAlt (s : State) (n : PortId) (f : Alt → Alt) : State := s.modPort n fun p => { p with alt := f p.alt }
def State.modMs (s : State) (n : PortId) (f : Measure → Measure) : State :=
  s.modPort n fun p => { p with ms := f p.ms }

/-- The 24 ports in ascending index. -/
def allPorts : List PortId := List.finRange 24

def State.forPorts (s : State) (f : PortId → State → State) : State := allPorts.foldl (fun s n => f n s) s

/-- The Platform of a port (chapter 01, What software sees). -/
def platOf (n : PortId) : PlatId := ⟨n.val / 6, by omega⟩

/-- Its six ports, in ascending index. -/
def portsOf (k : PlatId) : List PortId := allPorts.filter fun n => platOf n = k

/-- Core PCk. -/
def coreOf (k : PlatId) : CoreId := ⟨k.val, by omega⟩

/-- Populated and not retired (R52, R53, R584). -/
def State.inService (s : State) (n : PortId) : Bool := bit s.fuse.present n && !bit s.health.retired n

/-- A channel by its number. -/
def chanOf (i : Nat) (h : i < 128 := by omega) : Fin 128 := ⟨i, h⟩

/-! ### The present tick -/

/-- Ticks come from CAD (R81, R92, the state table of chapter 04). -/
def State.fromCad (s : State) : Bool :=
  match s.time.st with
  | .acquire => s.time.cadOk
  | .locked | .slew => true
  | .holdover => s.time.cause = 4 && s.time.cadHere

/-- A command that begins the next tick. -/
def State.tickEdge (s : State) : Instr → Bool
  | .cadTick _ => s.fromCad
  | .generatedTick _ => !s.fromCad
  | _ => false

/-- Some command that is still to come in the present tick, which lasts to the next tick edge in the queue (log entry 79). -/
def State.ahead (s : State) (p : Instr → Bool) : Bool := (s.pending.takeWhile fun c => !s.tickEdge c).any p

/-! ### Codes -/

def TcState.code : TcState → Nat
  | .disabled => 0 | .unattSnk => 1 | .attwaitSnk => 2 | .attSnk => 3 | .unattSrc => 4 | .attwaitSrc => 5 | .attSrc => 6
  | .trySrc => 7 | .trywaitSnk => 8 | .trySnk => 9 | .trywaitSrc => 10 | .audio => 11 | .debugSrc => 12
  | .debugSnk => 13 | .errRecov => 14

def Orient.code : Orient → Nat
  | .none => 0 | .cc1 => 1 | .cc2 => 2 | .unoriented => 3

def Partner.code : Partner → Nat
  | .none => 0 | .sink => 1 | .source => 2 | .sinkRa => 3 | .audio => 4 | .debugSrc => 5 | .debugSnk => 6

def PathState.code : PathState → Nat
  | .opn => 0 | .closing => 1 | .closed => 2 | .discharge => 3 | .tripped => 4 | .lockoff => 5

def Cause.code : Cause → Nat
  | .fast => 1 | .reverse => 2 | .i2t => 3 | .cpgLost => 4 | .closeFail => 5 | .therm => 6 | .dsgFail => 7 | .command => 8

def CtKind.code : CtKind → Nat
  | .none => 0 | .typeC => 1 | .sprFixed => 2 | .pps => 3 | .eprFixed => 4 | .avs => 5 | .sinkFixed => 6

def SwapCode.code : SwapCode → Nat
  | .none => 0 | .prSrcSnk => 1 | .prSnkSrc => 2 | .dr => 3 | .vconnOn => 4 | .vconnOff => 5 | .frsSource => 6
  | .frsSink => 7

def PRole.code : PRole → Nat
  | .none => 0 | .source => 1 | .sink => 2

def DRole.code : DRole → Nat
  | .none => 0 | .dfp => 1 | .ufp => 2

def AltMode.code : AltMode → Nat
  | .none => 0 | .displayPort => 1 | .usb4 => 2

def KState.code : KState → Nat
  | .empty => 0 | .staged => 1 | .running => 2 | .stopped => 3 | .faulted => 4

def HsState.code : HsState → Nat
  | .lockout => 0 | .qualify => 1 | .phase => 2 | .inrush => 3 | .settle => 4 | .on => 5 | .feedLost => 6
  | .faultWait => 7 | .latched => 8

def HsCause.code : HsCause → Nat
  | .none => 0 | .fast => 1 | .breaker => 2 | .inrushTime => 3 | .vcp => 4 | .reverse => 5

def SqState.code : SqState → Nat
  | .idle => 0 | .lock => 1 | .waitCin => 2 | .raise => 3 | .run => 4 | .shutdown => 5 | .alloff => 6
  | .retryWait => 7 | .down => 8 | .latched => 9

def SqCause.code : SqCause → Nat
  | .none => 0 | .rail => 1 | .peer => 2 | .feed => 3 | .start => 4 | .host => 5 | .cascade => 6

def SqFlag.code : SqFlag → Nat
  | .none => 0 | .prebias => 1 | .disLate => 2 | .downFail => 3 | .retLate => 4 | .undet => 5

def Kind.code : Kind → Nat
  | .inrush => 0 | .path => 1 | .set => 2 | .ramp => 3 | .role => 4 | .cal => 5 | .sink => 6 | .reserve => 7

def Kind.ofCode : Nat → Option Kind
  | 0 => some .inrush | 1 => some .path | 2 => some .set | 3 => some .ramp | 4 => some .role | 5 => some .cal
  | 6 => some .sink | 7 => some .reserve | _ => none

/-- TARGET of the Station, of a Platform and of a Port (R453). -/
def tgtStation : BitVec 16 := 0xFFFF
def tgtPlat (k : PlatId) : BitVec 16 := BitVec.ofNat 16 (0x100 + k.val)
def tgtPort (n : PortId) : BitVec 16 := BitVec.ofNat 16 n.val

/-- Status codes (R459). -/
def stOk : BitVec 16 := 0x0000
def stAccepted : BitVec 16 := 0x0001
def stDenied : BitVec 16 := 0x0010
def stOwned : BitVec 16 := 0x0011
def stBadOpcode : BitVec 16 := 0x0020
def stBadLength : BitVec 16 := 0x0021
def stBadParam : BitVec 16 := 0x0022
def stBadCrc : BitVec 16 := 0x0023
def stNoTag : BitVec 16 := 0x0030
def stHoldover : BitVec 16 := 0x0031
def stStoreFault : BitVec 16 := 0x0040
def stStoreRecall : BitVec 16 := 0x0041
def stStoreProtected : BitVec 16 := 0x0042
def stBudgetRefused : BitVec 16 := 0x0050
def stTimetableFull : BitVec 16 := 0x0051
def stPortRetired : BitVec 16 := 0x0060

/-! ### The configuration: default bytes, RW bits, running words (R484, R547, R548) -/

/-- Default and RW bits of the Station words at 0x20 + 4i (R140, R331, R447, R474, R394, R236). -/
def stationWords : List (Word × Word) :=
  [(0x040000C8, 0x070003FF), (0x960, 0x1FFF), (0x3200, 0xFF00), (0x1F4, 0xFFFF),
   (0x2C000000, 0xFC000000), (0x2C000000, 0xFC000000), (0x2C3A0000, 0xFC7F0000),
   (0x79518DC0, 0xFFFFFFC0), (0x79518DC0, 0xFFFFFFC0), (0x79518DC0, 0xFFFFFFC0),
   (0, 0xFFFF), (0, 0xFFFFFFFF), (0, 0xFFFF), (0, 0xFFFFFFFF), (0, 0xFFFF), (0, 0xFFFFFFFF), (0, 0xFFFFFFFF),
   (0, 0xFFFFFFFF), (0x00400000, 0xFFFF0000), (6, 7), (6, 7), (6, 7), (6, 7)]

/-- The same for the words of a port entry at 4i: the registers, the maps and the thermal figures (R548). -/
def portWords : List (Word × Word) :=
  [(0x03800000, 0xFF800000), (0xB8000000, 0xF8000000), (0x55742399, 0xFFFFFFFF), (0xF0F91FEC, 0xFFFFFFFC),
   (0xF0000000, 0xFF800000), (0x7E000000, 0xFE000000), (0x0F040000, 0xEFFE0000), (0, 0),
   (0x44400000, 0xFFFFFFFF), (0x28F30000, 0xFFFFFFFF), (0x0FA00FA0, 0xFFFFFFFF), (0x000000C8, 0xFFFFFFFF),
   (0x06E00000, 0xFFFFFFFF), (0x00000820, 0x0000FFFF)]

/-- Default and RW bits of the configuration word at an offset that is a multiple of 4. -/
def cfgWordInfo (off : Nat) : Word × Word :=
  if off < 0x20 then (0, 0)
  else if off < 0x7C then stationWords.getD ((off - 0x20) / 4) (0, 0)
  else if off < 0x80 then (0, 0)
  else if off < 0xC80 then portWords.getD ((off - 0x80) % 128 / 4) (0, 0)
  else if off < 0x1080 then (0, 0xFFFFFFFF)
  else (0, 0)

def cfgDefault (a : Nat) : Byte := BitVec.ofNat 8 ((cfgWordInfo (a / 4 * 4)).1.toNat >>> (8 * (a % 4)))

def cfgRw (a : Nat) : Byte := BitVec.ofNat 8 ((cfgWordInfo (a / 4 * 4)).2.toNat >>> (8 * (a % 4)))

/-- A word of the running configuration. -/
def State.cfgW (s : State) (off : Nat) : Word := Mem.word cfgDefault s.store.run off

/-- Words of a port entry. -/
def portOff (n : PortId) (off : Nat) : Nat := 0x80 + 128 * n.val + off
def State.tcCfg (s : State) (n : PortId) : Word := s.cfgW (portOff n 0x00)
def State.pdCfg (s : State) (n : PortId) : Word := s.cfgW (portOff n 0x04)
def State.ppCfg (s : State) (n : PortId) : Word := s.cfgW (portOff n 0x08)
def State.pcCfg (s : State) (n : PortId) : Word := s.cfgW (portOff n 0x0C)
def State.rsCfg (s : State) (n : PortId) : Word := s.cfgW (portOff n 0x10)
def State.altCfg (s : State) (n : PortId) : Word := s.cfgW (portOff n 0x14)
def State.trCfg (s : State) (n : PortId) : Word := s.cfgW (portOff n 0x18)
/-- A 16-bit figure of a port entry, unsigned and signed. -/
def State.portU16 (s : State) (n : PortId) (off : Nat) : Nat := leNat (Mem.read cfgDefault s.store.run (portOff n off) 2)
def State.portS16 (s : State) (n : PortId) (off : Nat) : Int := (BitVec.ofNat 16 (s.portU16 n off)).toInt

def State.bgCfg (s : State) : Word := s.cfgW 0x24
def State.bgRegen (s : State) : Word := s.cfgW 0x28
def State.bgShunt (s : State) : Word := s.cfgW 0x2C
def State.twCfgWord (s : State) (i : Fin 3) : Word := s.cfgW (0x30 + 4 * i.val)
def State.twTimWord (s : State) (i : Fin 3) : Word := s.cfgW (0x3C + 4 * i.val)
def State.netCmd (s : State) : Word := s.cfgW 0x48
def State.netSmac (s : State) : BitVec 48 := BitVec.ofNat 48 ((s.cfgW 0x4C).toNat + 2 ^ 32 * bits (s.cfgW 0x50) 15 0)
def State.netDmac (s : State) : BitVec 48 := BitVec.ofNat 48 ((s.cfgW 0x54).toNat + 2 ^ 32 * bits (s.cfgW 0x58) 15 0)
def State.netSip (s : State) : Word := s.cfgW 0x5C
def State.netDip (s : State) : Word := s.cfgW 0x60
def State.netUdp (s : State) : Word := s.cfgW 0x64
def State.netCtl (s : State) : Word := s.cfgW 0x68
def State.vcMax (s : State) (k : PlatId) : Nat := min 6 (bits (s.cfgW (0x6C + 4 * k.val)) 2 0)

/-! ### Pages, the Log and events -/

/-- A page program asked of the store controller (R542). -/
def State.requestPage (s : State) (r : PageReq) : State := { s with store := { s.store with queue := s.store.queue ++ [r] } }

/-- The bytes of the open Log page (R560, R589). -/
def logEntryBytes (e : LogEntry) : List Byte :=
  leBytes 4 e.index.toNat ++ leBytes 4 e.ssn.toNat ++ leBytes 8 e.ct.toNat ++ leBytes 2 e.code.toNat ++
  leBytes 2 e.source.toNat ++ (e.first4 ++ [0, 0, 0, 0]).take 4

def logPageBytes (no : Word) (es : List LogEntry) : List Byte :=
  leBytes 4 no.toNat ++ [0, 0, 0, 0] ++ (es.map logEntryBytes).flatten

/-- Store page of the Log that a PAGE_NO is written to: the ring of 128 pages. -/
def logPage (no : Word) : Nat := 128 + no.toNat % 128

/-- The open Log page has filled: it is handed to the controller, and the next is opened (R560). It can be read until it
stands in the ring. -/
def State.programOpenPage (s : State) : State :=
  let p := logPage s.store.pageNo
  let s := s.requestPage { job := .log, page := p, data := .filled, retried := false, cmd := none, final := true }
  { s with store := { s.store with filled := s.store.filled ++ [(p, s.store.pageNo, s.store.page)],
                                   page := [], pageDirty := false, pageNo := s.store.pageNo + 1 } }

/-- The events core SB writes into the Log (R590). -/
def logged (code : BitVec 16) (payload : List Byte) : Bool :=
  let p0 := (payload.getD 0 0).toNat
  code = 0x0180 || code = 0x0880 || code = 0x0680 || code = 0x0681 || code = 0x0580 ||
  (code = 0x0480 && payload.getD 1 0 = 1) || (code = 0x0281 && (p0 = 2 || p0 = 3)) ||
  (code = 0x0284 && (p0 = 1 || p0 = 2))

/-- A Log entry; a page is programmed when it fills and the next is opened (R560, R589). -/
def State.logAdd (s : State) (e : Event) : State :=
  let ent : LogEntry := { index := s.store.logIndex, ssn := e.ssn, ct := e.ct, code := e.code, source := e.source,
                          first4 := e.payload.take 4 }
  let s := { s with store := { s.store with page := s.store.page ++ [ent], pageDirty := true,
                                            logIndex := s.store.logIndex + 1 } }
  if s.store.page.length < 10 then s else s.programOpenPage

/-- An event numbered before `j` of its tick: those have their SSN, `a` and up, raised by 1 (R422). -/
def slipSsn (a : Word) (j : Nat) (x : Word) : Word := if (x - a).toNat < j then x + 1 else x
def HostFe.slip (h : HostFe) (a : Word) (j : Nat) : HostFe :=
  { h with events := h.events.map fun (x : Event) => { x with ssn := slipSsn a j x.ssn }
           lost := h.lost.map fun (x : Word × Word × Nat) => (slipSsn a j x.1, slipSsn a j x.2.1, x.2.2) }

/-- An ordinary event offered to a queue of 64 with places reserved, before the `j` of its tick that follow it (R422, R425,
R457). -/
def HostFe.offer (h : HostFe) (e : Event) (j : Nat) : HostFe :=
  let after (x : Word) : Bool := x ≠ e.ssn && decide ((x - e.ssn).toNat ≤ j)
  if h.events.length + h.reserved < 64 then
    let k := h.events.length - (h.events.filter fun x => after x.ssn).length
    { h with events := h.events.take k ++ [e] ++ h.events.drop k }
  else { h with dropped := min 0xFFFF (h.dropped + 1),
                lost := match h.lost with
                        | none => some (e.ssn, e.ssn, 1)
                        | some (a, b, k) => some (if after a then e.ssn else a, if after b then b else e.ssn, k + 1) }

/-! ### Host ports: the sealed set (R402-R409) -/

/-- HP_FUSE0 and HP_FUSE1, the blank defaults where VALID is 0 (R408); reserved bits read 0 (R8). -/
def State.hpFuse0 (s : State) : Word := if bit s.fuse.hp0 31 then s.fuse.hp0 &&& 0xFFFF7FFF else 0x5283029C
def State.hpFuse1 (s : State) : Word := if bit s.fuse.hp0 31 then s.fuse.hp1 &&& 0x3FFFFFFF else 0x20828408

/-- The sealed class of a host port, as CLS_MA codes it (R408). -/
def State.sealedClass (s : State) (h : HostPort) : Nat := bits s.hpFuse0 (30 - 2 * h.ix.val) (29 - 2 * h.ix.val)

def rankList (w : Word) : List Nat := [bits w 14 12, bits w 11 9, bits w 8 6, bits w 5 3, bits w 2 0]
def quotaOf (w : Word) (h : HostPort) : Nat := bits w (29 - 6 * h.ix.val) (24 - 6 * h.ix.val)

/-- The two checks of R409. -/
def State.hostSetOk (s : State) : Bool :=
  !bit s.fuse.hp0 31 ||
  ((List.range 5).all fun c => (rankList s.fuse.hp0).count c = 1) &&
  decide (((allHosts.filter fun h => s.sealedClass h ≠ 3).map (quotaOf s.fuse.hp1)).sum ≤ 128)

/-- The class in force: 0 OBSERVE, 1 OPERATE, 2 CONFIGURE, 3 NONE (R402, R409). -/
def State.classOf (s : State) (h : HostPort) : Nat := if s.setFail then 0 else s.sealedClass h

/-- A host port is on: the logic die runs, and its class is not NONE (R404). -/
def State.hostOn (s : State) (h : HostPort) : Bool := s.sup.logicUp && s.classOf h ≠ 3

/-- MAINTAIN is granted (R403, R409). -/
def State.maintain (s : State) (h : HostPort) : Bool :=
  s.sup.service && bit s.hpFuse0 (16 + h.ix.val) && !s.setFail

/-- EFF of HP_STAT, 0 until the logic die has run (R428). -/
def State.eff (s : State) (h : HostPort) : Nat :=
  if s.sup.logicUp then 4 * b2n (s.maintain h) + s.classOf h else 0

/-- Tag quota (R408, R409, R411). -/
def State.quota (s : State) (h : HostPort) : Nat := quotaOf (if s.setFail then 0x20828408 else s.hpFuse1) h

/-- Host rank, 0 the highest (R419). -/
def State.rank (s : State) (h : HostPort) : Nat :=
  (rankList (if s.setFail then 0x5283029C else s.hpFuse0)).idxOf h.ix.val

/-! ### Events (R421-R425, R456, R463) -/

/-- The place of an event among those of its tick: protection actions, the hot-swap block and the sequencer, ports in
ascending index, core SB's Station events (R422); a Platform's between the last two (log entry 147). -/
def eventRank (code source : BitVec 16) (payload : List Byte) : Nat :=
  let p0 := (payload.getD 0 0).toNat
  if code = 0x0284 && (p0 = 1 || p0 = 2) then 0
  else if code = 0x0680 || code = 0x0681 then 1
  else if source.toNat < 24 then 2 + source.toNat
  else if source = 0xFFFF then 30 else 26

/-- How many events of the tick follow one of the rank. -/
def State.seqAfter (s : State) (rank : Nat) : Nat := (s.seqTick.reverse.takeWhile fun k => rank < k).length

/-- The sequencer numbers an event before the `j` of its tick that follow it (R422). -/
def State.seqPut (s : State) (rank j : Nat) : State :=
  let a := s.ssn - BitVec.ofNat 32 j
  let m := s.seqTick.length - j
  { s with ssn := s.ssn + 1, resume := false, seqTick := s.seqTick.take m ++ [rank] ++ s.seqTick.drop m
           host := s.host.map fun (h : HostFe) => h.slip a j
           store := { s.store with
             page := s.store.page.map fun (x : LogEntry) => { x with ssn := slipSsn a j x.ssn }
             filled := s.store.filled.map fun p =>
               (p.1, p.2.1, p.2.2.map fun (x : LogEntry) => { x with ssn := slipSsn a j x.ssn }) } }

/-- The number of an event that follows every other of its tick (R464). -/
def State.seqEnd (s : State) : State := { s with ssn := s.ssn + 1, resume := false, seqTick := s.seqTick ++ [31] }

/-- One event: its SSN, its CT, the subscribed queues and the Log. `hist` marks a copy of the HV die's history. -/
def State.emitFull (s : State) (code source : BitVec 16) (payload : List Byte) (ct : CT) (hist : Bool) : State :=
  let g := bits code 15 8
  let rank := eventRank code source payload
  let j := s.seqAfter rank
  let e : Event := { code := code, ssn := s.ssn - BitVec.ofNat 32 j, ct := ct, source := source,
                     flags := BitVec.ofNat 8 (b2n s.resume + 4 * b2n hist), tag := 0xFF, payload := payload }
  let s := s.seqPut rank j
  let s := { s with host := s.host.map fun (h : HostFe) => if bit h.sub (g - 1) then h.offer e j else h }
  if logged code payload then s.logAdd e else s

def State.emit (s : State) (code source : BitVec 16) (payload : List Byte) : State :=
  s.emitFull code source payload s.time.ct false

def State.emitSt (s : State) (code : BitVec 16) (payload : List Byte) : State := s.emit code tgtStation payload

/-- The causes that assert REPLACE_N (R580). -/
def replaceCauses : Word := 0x275C0 -- bits 6, 7, 8, 10, 12, 13, 14, 17

/-- HEALTH (R500, R501), with the bit of the cause in force set and core SB's request with it (R579-R581). -/
def State.raiseHealth (s : State) (cause unit detail : Nat) (value : Nat) : State :=
  let s := { s with health := { s.health with active := s.health.active ||| BitVec.ofNat 32 (1 <<< cause) } } 
  let s := if bit replaceCauses cause then { s with sup := { s.sup with replaceReq := true } } else s
  s.emitSt 0x0880 (leBytes 1 cause ++ leBytes 1 unit ++ leBytes 2 detail ++ leBytes 4 value)

/-- A cause released; the request is cleared when no cause that asserts REPLACE_N remains (R580, R581). -/
def State.healthClear (s : State) (cause : Nat) : State :=
  let a := s.health.active &&& ~~~ BitVec.ofNat 32 (1 <<< cause)
  { s with health := { s.health with active := a },
           sup := { s.sup with replaceReq := s.sup.replaceReq && (a &&& replaceCauses) ≠ 0 } }

/-- REPLACE_N (R72, R78, R579): asserted. -/
def State.replaceN (s : State) : Bool :=
  s.sup.hvUp && (s.sup.hvUncorr || !s.time.xtalOk || s.sq.st = .lock || s.sq.st = .latched || s.sup.replaceReq ||
  s.sup.serviceReplace)

/-! ### Replies and completions (R410, R455, R457, R462, R463) -/

def State.modHost (s : State) (h : HostPort) (f : HostFe → HostFe) : State :=
  { s with host := s.host.set h.ix (f s.host[h.ix]) }

/-- A reply queued to its host port. -/
def State.queueReply (s : State) (h : HostPort) (r : Reply) : State :=
  s.modHost h fun x => { x with replies := x.replies ++ [r] }

/-- The reply to a command whose tag is held: queued, and the tag released. -/
def State.replyTag (s : State) (p : Packet) (op st : BitVec 16) (payload : List Byte) : State :=
  s.modHost p.host fun x =>
    { x with replies := x.replies ++ [{ tag := p.tag, status := st, opcode := op,
                                        payload := if st = stOk then payload else [] }],
             held := x.held.erase p.tag }

/-- ACCEPTED: the reply, a place kept for the completion event, the tag held on (R410, R457). -/
def State.accept (s : State) (c : Held) : State :=
  let s := s.modHost c.p.host fun x =>
    { x with replies := x.replies ++ [{ tag := c.p.tag, status := stAccepted, opcode := c.op, payload := [] }],
             reserved := x.reserved + 1 }
  { s with active := s.active ++ [c] }

def CmdRef.of (c : Held) : CmdRef := { host := c.p.host, tag := c.p.tag, op := c.op, target := c.p.target }

/-- The completion event of an ACCEPTED command, after the events of its tick and in its reserved place; the tag is released
(R457, R463, R464). A command that a restart has already completed (R413) has none. -/
def State.complete (s : State) (r : CmdRef) (st : BitVec 16) (result : List Byte) : State :=
  if !s.active.any fun c => decide (CmdRef.of c = r) then s else
  let e : Event := { code := r.op, ssn := s.ssn, ct := s.time.ct, source := r.target,
                     flags := BitVec.ofNat 8 (2 + b2n s.resume), tag := r.tag, payload := leBytes 2 st.toNat ++ result }
  let s := { s.seqEnd with active := s.active.filter fun c => !(c.p.host = r.host && c.p.tag = r.tag) }
  s.modHost r.host fun x => { x with events := x.events ++ [e], reserved := x.reserved - 1, held := x.held.erase r.tag }

def State.completeOpt (s : State) (r : Option CmdRef) (st : BitVec 16) (result : List Byte) : State :=
  match r with
  | none => s
  | some r => s.complete r st result

/-! ### Samples and Sketches (R260, R261, R396, R397) -/

/-- PP_STAT (R262); TRIP_CNT counts the trips of the last 60 s. -/
def tripCount (p : Path) (now : CT) : Nat := min 255 (p.trips.filter fun t => (now - t).toNat < 122880000).length

def ppStat (p : Path) (now : CT) : Word :=
  fld p.st.code 29 ||| flag p.sink 28 ||| flag p.ftTrip 27 ||| flag p.revTrip 26 ||| flag p.i2tTrip 25 |||
  flag p.thermTrip 24 ||| flag p.closeFail 23 ||| flag p.cpgLost 22 ||| flag p.dsgFail 21 |||
  flag (p.st = .lockoff) 20 ||| flag p.calSkip 19 ||| flag p.calRej 18 ||| flag p.trimLim 17 ||| flag p.tWarn 16 |||
  flag p.noSketch 15 ||| flag p.rHeld 14 ||| flag p.fetImb 13 ||| fld (tripCount p now) 0

/-- CT_STAT.VOLT: 50 mV, to nearest (R330). -/
def ctVolt (c : Contract) : Nat := (c.mv + 25) / 50

/-- R_est as registers give it, 1 µΩ (log entry 8). -/
def rEst16 (p : Path) : BitVec 16 := BitVec.ofNat 16 (roundFree p.rEst).toNat

/-- A Sketch taken now of a port, its history of 1024 samples first. -/
def State.newSketch (s : State) (n : PortId) (c : Cause) (held : Bool) : Sketch :=
  let p := s.port[n]
  let pre := (p.pp.hist.take 1024).reverse
  { port := n, cause := c, second := none, held := held, holdover := p.hold, pstate := p.pp.st,
    trigPh := s.phase, trigCt := s.time.ct, trigIdx := s.sidx, rEst := rEst16 p.pp, ftCode := p.pp.ftCode,
    dropped := s.plat[platOf n].dropped, volt := ctVolt p.ct, curr := p.ct.i10,
    prot := p.pp.prot,
    recs := List.replicate (1024 - pre.length) { vc := 0, vb := 0, i := 0, vds := 0, dss := 0 } ++ pre,
    stamps := List.replicate (1024 - pre.length) (0, 0) ++ (s.stamps.take pre.length).reverse, complete := false }

/-- The slot of a Platform whose Sketch of this port is still filling. -/
def fillingSlot (k : Platform) (n : PortId) : Option (Fin 8) :=
  (List.finRange 8).find? fun i => match k.slots[i] with | some x => x.port = n && !x.complete | none => false

def freeSlot (k : Platform) : Option (Fin 8) := (List.finRange 8).find? fun i => k.slots[i].isNone

/-- A Sketch goes to the Platform's next free slot, or is dropped. The SKETCH event names the slot, or 0xFF (R261, R500). -/
def State.sketchPlace (s : State) (x : Sketch) : State × Nat :=
  let k := platOf x.port
  let ev (s : State) (slot : Nat) := s.emit 0x0580 (tgtPlat k) (leBytes 1 slot ++ leBytes 1 x.port.val ++ leBytes 1 x.cause.code ++ [0])
  match freeSlot s.plat[k] with
  | some i => (ev (s.modPlat k fun q => { q with slots := q.slots.set i (some x) }) i.val, i.val)
  | none => (ev ((s.modPlat k fun q => { q with dropped := q.dropped + 1 }).modPp x.port fun p => { p with noSketch := true }) 0xFF,
      0xFF)

/-- The Sketches triggered in the tick that ends take their slots in ascending port index (R261). -/
def State.takeSlots (s : State) : State :=
  (allPorts.filterMap fun n => s.sketches.find? fun x => x.port = n).foldl (fun s x => (s.sketchPlace x).1)
    { s with sketches := [] }

def Sketch.again (x : Sketch) (c : Cause) : Sketch := { x with second := some (x.recs.length, c) }

/-- A trigger while the link is silent: the first of a Platform fills its holding buffer in the HV die (R261). -/
def State.holdTrigger (s : State) (n : PortId) (c : Cause) : State :=
  let k := platOf n
  match s.plat[k].holding with
  | none => s.modPlat k fun x => { x with holding := some (s.newSketch n c true) }
  | some h =>
    if h.port = n && !h.complete then s.modPlat k fun x => { x with holding := some (h.again c) }
    else (s.modPlat k fun x => { x with dropped := x.dropped + 1 }).modPp n fun p => { p with noSketch := true }

/-- A trigger on a port (R261): a second one of a Sketch that fills, or a Sketch that takes its slot at the end of the tick. -/
def State.sketchTrigger (s : State) (n : PortId) (c : Cause) : State :=
  if s.sup.linkSilent then s.holdTrigger n c
  else if s.sketches.any fun x => x.port = n then
    { s with sketches := s.sketches.map fun x => if x.port = n then x.again c else x }
  else match fillingSlot s.plat[platOf n] n with
    | some i => s.modPlat (platOf n) fun x => { x with slots := x.slots.set i (x.slots[i].map fun h => h.again c) }
    | none => { s with sketches := s.sketches ++ [s.newSketch n c false] }

/-- The Sketch command's trigger, and the slot it answers with (R260, R261). -/
def State.sketchNow (s : State) (n : PortId) (c : Cause) : State × Nat :=
  if s.sup.linkSilent then (s.holdTrigger n c, 0xFF)
  else
    let s := s.takeSlots
    match fillingSlot s.plat[platOf n] n with
    | some i => (s.sketchTrigger n c, i.val)
    | none => s.sketchPlace (s.newSketch n c false)

end Sys2Proof.Machine
end

