-- ==== Sys2Proof/Machine/Timetable.lean ====
section
/-! DEFINITION. The Timetable (chapter 05): the window, placing, firing and cancelling bookings, and its commands. -/
namespace Sys2Proof.Machine

/-! ### The window (R111-R116, R130) -/

/-- L = 2048 / N, and the window's start W × L, for an NLOG (R111, R112). SLOT_ID 5 stands in until it is latched, as the
reset values of R141 have it. -/
def winLen (nlog : BitVec 3) : Nat := 2048 / 2 ^ nlog.toNat
def State.slotNum (s : State) : Nat := (s.sup.slotId.getD 5).toNat
def winStart (slot : Nat) (nlog : BitVec 3) : Nat := slot % 2 ^ nlog.toNat * winLen nlog

/-- The narrowing of R130 is in force. -/
def State.narrow (s : State) : Bool := s.time.st = .holdover || s.time.st = .slew

/-- The tick at or after `e` in frame `f` at which a booking of `dur` may be placed (R125, R130). -/
def slotTick (start len : Nat) (narrow : Bool) (dur f e : Nat) : Option Nat :=
  let base := f * 2048 + start
  let g := if narrow then len / 4 else 0
  if len < dur then none
  else if narrow && decide (len < dur + 2 * g) then
    let t := base + (len - dur) / 2
    if e ≤ t then some t else none
  else
    let t := max e (base + g)
    if t + dur ≤ base + len - g then some t else none

/-! ### The ledger (R123, R126, R132) -/

abbrev Ledger := List (Nat × Nat)

def Ledger.used : Ledger → Nat → Nat
  | [], _ => 0
  | (g, u) :: t, f => if g = f then u else Ledger.used t f

def Ledger.put : Ledger → Nat → Nat → Ledger
  | [], f, u => if u = 0 then [] else [(f, u)]
  | (g, x) :: t, f, u => if g = f then (if u = 0 then t else (f, u) :: t) else (g, x) :: Ledger.put t f u

/-- Frame numbers wrap with CT (R88). -/
def frameNo (f : Nat) : Nat := f % 2 ^ 37

def Ledger.add (l : Ledger) (f p : Nat) : Ledger := l.put (frameNo f) (l.used (frameNo f) + p)
def Ledger.sub (l : Ledger) (f p : Nat) : Ledger := l.put (frameNo f) (l.used (frameNo f) - p)

/-! ### Placing (R120, R122-R127) -/

/-- What a placement depends on: the window, the budget in 0.25 W, and the last frame of the ledger. -/
structure PlaceCtx where
  start : Nat
  len : Nat
  narrow : Bool
  budget : Nat
  horizon : Nat

/-- The first frame from `f` on that takes a step of `p` (R125); `fuel` bounds the search by the horizon. -/
def placeOne (c : PlaceCtx) (dur p : Nat) : Nat → Nat → Nat → Ledger → Option (Nat × Nat × Ledger)
  | 0, _, _, _ => none
  | fuel + 1, f, e, l =>
    if c.horizon < f then none
    else match slotTick c.start c.len c.narrow dur f e with
      | none => placeOne c dur p fuel (f + 1) e l
      | some t =>
        if l.used (frameNo f) + p ≤ c.budget then some (t, f, l.add f p)
        else placeOne c dur p fuel (f + 1) e l

/-- Increments placed one after another, each from the start of the frame after the last (R125). -/
def placeAll (c : PlaceCtx) (dur : Nat) : List Int → Nat → Ledger → Option (List (Nat × Int) × Ledger)
  | [], _, l => some ([], l)
  | p :: t, e, l =>
    match placeOne c dur p.natAbs 1025 (e / 2048) e l with
    | none => none
    | some (x, f, l) =>
      match placeAll c dur t ((f + 1) * 2048) l with
      | none => none
      | some (r, l) => some ((x, p) :: r, l)

/-- The increments of a booking (R120). -/
def increments (ramp : Bool) (step : Int) (inc : Nat) : List Int :=
  let m := step.natAbs
  if ramp && inc ≠ 0 && inc < m then
    let k := ceilDiv m inc
    List.replicate (k - 1) (step.sign * inc) ++ [step.sign * (m - (k - 1) * inc : Nat)]
  else [step]

def Kind.mayRamp : Kind → Bool
  | .inrush | .ramp | .sink => true
  | _ => false

/-- Who asks for a booking (R117): the HV die's hot-swap block or a core. -/
inductive Asker where
  | hotSwap
  | core (c : CoreId)
  deriving DecidableEq, Repr

/-- Owner codes (R117). -/
def ownHs : Nat := 0x18
def ownStation : Nat := 0x19

/-- The owner and kind are allowed to the requester (R117, R118). -/
def mayAsk (a : Asker) (owner : Nat) (k : Kind) : Bool :=
  match a with
  | .hotSwap => owner = ownHs && k = .inrush
  | .core c =>
    if h : owner < 24 then
      (c = coreSB || c = coreOf (platOf ⟨owner, h⟩)) && k ≠ .inrush && k ≠ .reserve
    else owner = ownStation && c = coreSB && k = .reserve

def shareOf (owner : Nat) : Nat := if owner < 24 then 10 else 8

/-- The active per-frame budget B in 0.25 W (R139, R142). -/
def State.stepBudget (s : State) : Nat := 4 * s.tt.budget.toNat

/-- BUDGET_CEIL as it acts (R139). -/
def State.budgetCeil (s : State) : Nat := max 20 (min 600 s.fuse.budgetCeil.toNat)

def State.placeCtx (s : State) : PlaceCtx :=
  { start := winStart s.slotNum s.tt.nlog, len := winLen s.tt.nlog, narrow := s.narrow, budget := s.stepBudget,
    horizon := s.time.ct.toNat / 2048 + 1023 }

/-- What a request asks for (R143). -/
structure Booking where
  owner : Nat
  kind : Kind
  dur : Nat
  /-- none is ASAP. -/
  req : Option CT
  step : Int
  inc : Nat

/-- What TT_RESP answers (R144). -/
inductive Booked where
  | granted (index : Fin 256) (first last : CT)
  | refused (status : BitVec 16)
  deriving DecidableEq, Repr

/-- The entry a booking gets: the free one of lowest index (DESIGN CHOICE: R144 says only that one is given; log entry 124). -/
def freeEntry (t : Timetable) : Option (Fin 256) :=
  (List.finRange 256).find? fun i => t.entries[i].isNone && !t.dropped.any fun x => x.1 = i

def heldBy (t : Timetable) (owner : Nat) : Nat :=
  (t.entries.toList.filter fun e => e.any fun x => x.owner = owner).length

/-- A later tick as an absolute number not below the present CT. -/
def State.absTick (s : State) (c : CT) : Nat := s.time.ct.toNat + (c - s.time.ct).toNat

/-- The earliest tick E of a request that arrives now (R124). -/
def State.earliest (s : State) (req : Option CT) : Nat :=
  let next := s.time.ct.toNat + 1
  match req with
  | none => next
  | some c => if due s.time.ct c then next else max next (s.absTick c)

/-- The budget of unfired increments returned to their frames (R133). -/
def refund (l : Ledger) (todo : List (CT × Int)) : Ledger :=
  todo.foldl (fun l x => l.sub (x.1.toNat / 2048) x.2.natAbs) l

/-- The rank of an owner in one tick: hot-swap, Station, ports ascending (R132). -/
def ownerRank (o : Nat) : Nat := if o = ownHs then 0 else if o = ownStation then 1 else 2 + o

/-- The rank of an entry's owner, and its unfired increments. -/
def Timetable.rankAt (t : Timetable) (i : Fin 256) : Nat := (t.entries[i].map fun e => ownerRank e.owner).getD 0
def Timetable.todoAt (t : Timetable) (i : Fin 256) : List (CT × Int) := (t.entries[i].map fun e => e.todo).getD []

/-- A booking of the present tick placed again from its E, after one that ranks before it or a cancellation; one that has no
place any more is dropped (R132). -/
def State.settleOne (s : State) (x : Fin 256 × Nat) : State :=
  match s.tt.entries[x.1] with
  | none => s
  | some e =>
    match placeAll s.placeCtx e.dur (e.todo.map Prod.snd) x.2 s.tt.ledger with
    | some (g, l) =>
      let todo := g.map fun y => (BitVec.ofNat 48 y.1, y.2)
      let e' := { e with todo := todo, last := (todo.getLast?.map Prod.fst).getD e.last }
      { s with tt := { s.tt with entries := s.tt.entries.set x.1 (some e'), ledger := l,
                                 moved := if todo = e.todo then s.tt.moved else s.tt.moved ++ [x.1] } }
    | none => { s with tt := { s.tt with entries := s.tt.entries.set x.1 none, dropped := s.tt.dropped ++ [(x.1, e)],
                                         news := s.tt.news.filter fun y => y.1 ≠ x.1 } }

/-- The ledger without the bookings of a list. -/
def Timetable.without (t : Timetable) (l : List (Fin 256 × Nat)) : Ledger := l.foldl (fun g x => refund g (t.todoAt x.1)) t.ledger

/-- Cancellations of a tick come before its placements (R132): those already placed in it are placed again, by rank. -/
def State.resettle (s : State) : State :=
  s.tt.news.foldl State.settleOne { s with tt := { s.tt with ledger := s.tt.without s.tt.news } }

/-- A request is refused with the first status that applies, or granted in every increment at once (R122, R127). One that
ranks before others placed in the present tick takes its budget first, and they are placed again after it (R132). -/
def State.book (s : State) (a : Asker) (b : Booking) : State × Booked :=
  let incs := increments b.kind.mayRamp b.step b.inc
  let heldOver := if h : b.owner < 24 then s.port[b.owner].hold else false
  if !mayAsk a b.owner b.kind then (s, .refused stBadParam)
  else if b.dur = 0 || winLen s.tt.nlog < b.dur then (s, .refused stBadParam)
  else if 255 < incs.length then (s, .refused stBadParam)
  else if s.hs.warn && b.owner ≠ ownHs then (s, .refused stBudgetRefused)
  else if heldOver && a ≠ .core coreSB then (s, .refused stHoldover)
  else if incs.any fun p => decide (s.stepBudget < p.natAbs) then (s, .refused stBudgetRefused)
  else if shareOf b.owner ≤ heldBy s.tt b.owner then (s, .refused stTimetableFull)
  else
    let late := s.tt.news.filter fun x => ownerRank b.owner < s.tt.rankAt x.1
    match freeEntry s.tt, placeAll s.placeCtx b.dur incs (s.earliest b.req) (s.tt.without late) with
    | some i, some (g, l) =>
      let todo := g.map fun x => (BitVec.ofNat 48 x.1, x.2)
      let first := (todo.head?.map Prod.fst).getD s.time.ct
      let last := (todo.getLast?.map Prod.fst).getD s.time.ct
      let e : Entry := { owner := b.owner, kind := b.kind, dur := b.dur, step := b.step, inc := b.inc, todo := todo,
                         fired := 0, last := last }
      let early := s.tt.news.filter fun x => s.tt.rankAt x.1 ≤ ownerRank b.owner
      (late.foldl State.settleOne { s with tt := { s.tt with entries := s.tt.entries.set i (some e), ledger := l,
                                                             news := early ++ [(i, s.earliest b.req)] ++ late } },
       .granted i first last)
    | _, _ => (s, .refused stTimetableFull)

def Booked.ok : Booked → Bool
  | .granted .. => true
  | .refused _ => false

/-- A port's booking made by its Platform core, or by core SB in hold-over and in fallback (R117, R284, R588). -/
def State.portCore (s : State) (n : PortId) : CoreId :=
  if s.plat[platOf n].fallback || s.port[n].hold then coreSB else coreOf (platOf n)

def State.bookPort (s : State) (n : PortId) (k : Kind) (dur : Nat) (req : Option CT) (step : Int) (inc : Nat) :
    State × Booked :=
  s.book (.core (s.portCore n)) { owner := n.val, kind := k, dur := dur, req := req, step := step, inc := inc }

/-! ### Cancelling (R25, R133-R135) -/

/-- An entry is cancelled: it is freed, and the budget of what has not fired returns (R121, R133). -/
def Timetable.cancel (t : Timetable) (i : Fin 256) : Timetable :=
  match t.entries[i] with
  | some e => { t with entries := t.entries.set i none, ledger := refund t.ledger e.todo,
                       news := t.news.filter fun x => x.1 ≠ i }
  | none => t

/-- Every entry with increments to fire that a test picks, in ascending index. -/
def Timetable.pick (t : Timetable) (p : Entry → Bool) : List (Fin 256) :=
  (List.finRange 256).filter fun i => t.entries[i].any fun e => !e.todo.isEmpty && p e

def Timetable.cancelWhere (t : Timetable) (p : Entry → Bool) : Timetable :=
  (t.pick p).foldl (fun t i => t.cancel i) t

def State.cancelWhere (s : State) (p : Entry → Bool) : State := State.resettle { s with tt := s.tt.cancelWhere p }

/-- The port's granted and unfired bookings, cancelled by a protection action or a detach (R25). -/
def State.cancelPort (s : State) (n : PortId) : State := s.cancelWhere fun e => e.owner = n.val
def State.cancelKind (s : State) (n : PortId) (k : Kind) : State := s.cancelWhere fun e => e.owner = n.val && e.kind = k
/-- A port's entry, by the index the port was given. -/
def State.cancelEntry (s : State) (n : PortId) (i : Option (Fin 256)) : State :=
  match i with
  | some i => if s.tt.entries[i].any fun e => e.owner = n.val then State.resettle { s with tt := s.tt.cancel i } else s
  | none => s

/-- TT_CANCEL (R500). -/
def State.ttCancelEvent (s : State) (reason : Nat) (placed cancelled : List (Fin 256)) : State :=
  if placed.isEmpty && cancelled.isEmpty then s
  else s.emitSt 0x0382 (leBytes 1 reason ++ leBytes 1 placed.length ++ leBytes 1 cancelled.length ++ [0] ++
    (placed ++ cancelled).map fun i => BitVec.ofNat 8 i.val)

/-- A positive increment still to fire (R135). -/
def Entry.rises (e : Entry) : Bool := e.todo.any fun x => decide (0 < x.2)

/-- WARN_N cancels every granted positive step but those of the hot-swap block, and tells it in one event (R135). -/
def State.warnCancel (s : State) : State :=
  let l := s.tt.pick fun e => e.owner ≠ ownHs && e.rises
  (State.resettle { s with tt := l.foldl (fun t i => t.cancel i) s.tt }).ttCancelEvent 0 [] l

/-! ### Firing (R102, R119, R121) -/

/-- A core may cancel an owner's bookings: the owner's core and core SB (R133). -/
def mayCancel (core : CoreId) (o : Nat) : Bool :=
  core = coreSB || if h : o < 24 then core = coreOf (platOf ⟨o, h⟩) else false

/-- A core or WARN_N is still to cancel an entry in the present tick: cancellations come before grants (R132, R135). -/
def State.cancelComes (s : State) (i : Fin 256) (e : Entry) : Bool :=
  s.ahead fun c => match c with
    | .ttCancel core index => index.toFin = i && mayCancel core e.owner
    | .warnNAssert _ => !s.hs.warn && decide (e.owner ≠ ownHs) && e.rises
    | _ => false

/-- Fire the next increment of an entry. -/
def State.fireEntry (s : State) (i : Fin 256) : State :=
  { s with tt := { s.tt with entries := s.tt.entries.set i (s.tt.entries[i].map fun e =>
                               { e with todo := e.todo.tail, fired := e.fired + 1 })
                             firedAt := ((s.tt.entries[i].bind fun e => e.todo.head?).map Prod.fst).or s.tt.firedAt } }

/-- Entries whose last increment's action has ended are free (R121). -/
def Timetable.reap (t : Timetable) (now : CT) : Timetable :=
  { t with entries := t.entries.map fun o =>
      match o with
      | some e => if e.todo.isEmpty && due now (e.last + BitVec.ofNat 48 e.dur) then none else some e
      | none => none }

/-- Ledger entries of frames whose window has ended (R132 step 4). -/
def ledgerLive (now stop f : Nat) : Bool :=
  let d := frameNo (f + 2 ^ 37 - now / 2048)
  decide (d < 2 ^ 36) && (d ≠ 0 || decide (now % 2048 < stop))

def State.ledgerClear (s : State) : State :=
  let stop := winStart s.slotNum s.tt.nlog + winLen s.tt.nlog
  { s with tt := { s.tt with ledger := s.tt.ledger.filter fun x => ledgerLive s.time.ct.toNat stop x.1 } }

/-! ### Epochs, alignment and re-placement (R88, R90, R137, R138) -/

/-- Every grant moved by the same amount, a whole number of frames. -/
def Timetable.shift (t : Timetable) (d : CT) : Timetable :=
  { t with entries := t.entries.map fun o => o.map fun e =>
             { e with todo := e.todo.map fun x => (x.1 + d, x.2), last := e.last + d },
           ledger := t.ledger.map fun x => (frameNo (x.1 + d.toNat / 2048), x.2),
           firedAt := t.firedAt.map (· + d) }

/-- Order of re-placement: old next-grant tick, then the rank of the owner (R132, R137). -/
def replaceKey (now : CT) (t : Timetable) (i : Fin 256) : Nat × Nat :=
  match t.entries[i] with
  | some e => (((e.todo.head?.map Prod.fst).getD 0 - now).toNat, ownerRank e.owner)
  | none => (0, 0)

def insertBy {α : Type} (f : α → Nat × Nat) (i : α) : List α → List α
  | [] => [i]
  | j :: t => if (f i).1 < (f j).1 || ((f i).1 = (f j).1 && (f i).2 ≤ (f j).2) then i :: j :: t else j :: insertBy f i t

/-- By key, those of one key in their order. -/
def sortBy {α : Type} (f : α → Nat × Nat) (l : List α) : List α := l.foldr (insertBy f) []

/-- One entry placed again from the later of its old grant tick and now; cancelled where it cannot be (R137). -/
def State.replaceEntry (s : State) (acc : List (Fin 256) × List (Fin 256)) (i : Fin 256) :
    State × List (Fin 256) × List (Fin 256) :=
  match s.tt.entries[i] with
  | none => (s, acc)
  | some e =>
    let e0 := match e.todo.head? with | some g => if due s.time.ct g.1 then s.time.ct.toNat else s.absTick g.1 | none => 0
    let big := e.todo.any fun x => decide (s.stepBudget < x.2.natAbs)
    match (if big then none else placeAll s.placeCtx e.dur (e.todo.map Prod.snd) e0 s.tt.ledger) with
    | none => ({ s with tt := { s.tt with entries := s.tt.entries.set i none } }, acc.1, acc.2 ++ [i])
    | some (g, l) =>
      let todo := g.map fun x => (BitVec.ofNat 48 x.1, x.2)
      let e' := { e with todo := todo, last := (todo.getLast?.map Prod.fst).getD e.last }
      ({ s with tt := { s.tt with entries := s.tt.entries.set i (some e'), ledger := l } },
       (if todo = e.todo then acc.1 else acc.1 ++ [i]), acc.2)

def State.replaceAll (s : State) : List (Fin 256) → List (Fin 256) × List (Fin 256) → State × List (Fin 256) × List (Fin 256)
  | [], acc => (s, acc)
  | i :: t, acc => let r := s.replaceEntry acc i; r.1.replaceAll t r.2

/-- Pending N and B become active, and every unfired grant is placed again under them (R137). Answers the entries moved
and those cancelled. -/
def State.applyTtCfg (s : State) (nlog : BitVec 3) (budget : BitVec 10) : State × List (Fin 256) × List (Fin 256) :=
  if nlog = s.tt.nlog && budget = s.tt.budget then (s, [], [])
  else
    let order := sortBy (replaceKey s.time.ct s.tt) (s.tt.pick fun _ => true)
    let led := order.foldl (fun l i => match s.tt.entries[i] with | some e => refund l e.todo | none => l) s.tt.ledger
    { s with tt := { s.tt with nlog := nlog, budget := budget, ledger := led } }.replaceAll order ([], [])

/-! ### Registers (R141, R142, R145) -/

def State.ttStat (s : State) : Word :=
  flag s.narrow 30 ||| flag s.hs.warn 29 ||| flag (s.tt.nlogPend ≠ s.tt.nlog || s.tt.budgetPend ≠ s.tt.budget) 28 |||
  fld s.tt.nlog.toNat 25 ||| fld (s.slotNum % 2 ^ s.tt.nlog.toNat) 16 |||
  fld (s.tt.entries.toList.filter Option.isSome).length 0

def State.ttWin (s : State) : Word := fld (winLen s.tt.nlog) 16 ||| fld (winStart s.slotNum s.tt.nlog) 0

def State.ttUsed (s : State) : Word :=
  fld s.tt.budget.toNat 16 ||| fld (Ledger.used s.tt.ledger (frameNo (s.time.ct.toNat / 2048)) / 4 % 1024) 0

def State.ttCfgReg (s : State) : Word :=
  fld s.tt.nlogPend.toNat 24 ||| fld s.fuse.budgetCeil.toNat 12 ||| fld s.tt.budgetPend.toNat 0

/-- TT_ENT_W0 to W3 (R145). -/
def entryWords : Option Entry → List Word
  | none => [0, 0, 0, 0]
  | some e =>
    let next := (e.todo.head?.map Prod.fst).getD e.last
    [fld (if e.fired = 0 then 1 else 2) 30 ||| fld e.owner 25 ||| fld e.kind.code 21 ||| fld e.todo.length 13 ||| fld e.dur 0,
     BitVec.ofNat 32 next.toNat, fld (next.toNat / 2 ^ 32) 0,
     fld (BitVec.ofInt 16 e.step).toNat 16 ||| fld e.inc 0]

/-! ### Commands -/

/-- TT_RESP, TT_RESP_FIRST, TT_RESP_LAST and TT_RESP_HI of a core (R144). -/
def State.ttResp (s : State) (core : CoreId) : List Word :=
  let r := s.tt.req[core]
  [flag r.done 31 ||| flag (s.tt.gos.contains core) 30 ||| fld r.index.toNat 16 ||| fld r.status.toNat 0,
   BitVec.ofNat 32 r.first.toNat, BitVec.ofNat 32 r.last.toNat,
   fld (r.last.toNat / 2 ^ 32) 16 ||| fld (r.first.toNat / 2 ^ 32) 0]

/-- TT_GO: the request waits for the end of its tick; a GO while one is being placed is ignored (R132, R144). -/
def execTtGo (core : CoreId) (s : State) : Host.Outcome State Fault Refusal :=
  .next (if s.tt.gos.contains core then s
    else { s with tt := { s.tt with gos := s.tt.gos ++ [core]
                                    req := s.tt.req.set core { s.tt.req[core] with done := false } } })

/-- A core's request placed, and its answer (R122-R127, R143, R144). A refusal leaves INDEX, FIRST and LAST as they were
(DESIGN CHOICE: R144 gives them no value there; log entry 125). The request registers are read here and not at the GO write, so
that a write of one while BUSY still changes the request (DESIGN CHOICE: R143 does not say which; log entry 152). -/
def State.placeGo (s : State) (core : CoreId) : State :=
  let r := s.tt.req[core]
  let (s', res) :=
    match Kind.ofCode (bits r.a 26 23) with
    | none => (s, Booked.refused stBadParam)
    | some k => s.book (.core core)
        { owner := bits r.a 31 27, kind := k, dur := bits r.a 10 0,
          req := if bit r.c 31 then none else some (BitVec.ofNat 48 (r.b.toNat + 2 ^ 32 * bits r.c 15 0)),
          step := (BitVec.ofNat 16 (bits r.d 31 16)).toInt, inc := bits r.d 11 0 }
  let r' : TtReq := match res with
    | .granted i f l => { r with done := true, index := BitVec.ofNat 8 i.val, status := stOk, first := f, last := l }
    | .refused st => { r with done := true, status := st }
  { s' with tt := { s'.tt with req := s'.tt.req.set core r' } }

/-- The requests of the tick that ends, by the rank of their owners, those of one owner as they arrived (R132 step 3). -/
def State.placeGos (s : State) : State :=
  let l := sortBy (fun c => (ownerRank (bits s.tt.req[c].a 31 27), 0)) s.tt.gos
  l.foldl State.placeGo { s with tt := { s.tt with gos := [] } }

/-- TT_CANCEL: an entry cancelled by its owner's core or core SB (R133). -/
def execTtCancel (core : CoreId) (index : Byte) (s : State) : Host.Outcome State Fault Refusal :=
  let i : Fin 256 := index.toFin
  .next (if s.tt.entries[i].any fun e => mayCancel core e.owner then State.resettle { s with tt := s.tt.cancel i } else s)

/-- A write of TT_CFG by core SB; NLOG 0b111 is ignored and BUDGET is clamped (R139, R140). -/
def State.ttCfgSet (s : State) (value : Word) : State :=
  let nl := bits value 26 24
  { s with tt := { s.tt with nlogPend := if nl = 7 then s.tt.nlogPend else BitVec.ofNat 3 nl,
                             budgetPend := BitVec.ofNat 10 (max 20 (min s.budgetCeil (bits value 9 0))) } }

def execTtCfgWrite (core : CoreId) (value : Word) (s : State) : Host.Outcome State Fault Refusal :=
  .next (if core = coreSB then s.ttCfgSet value else s)

/-- A RESERVE grant holds budget and does nothing else (R118). -/
def execReserveGrant (index : Fin 256) (s : State) : Host.Outcome State Fault Refusal :=
  .next (if s.tt.entries[index].any fun e => e.kind = .reserve && (e.todo.head?.any fun g => due s.time.ct g.1) &&
      !s.cancelComes index e
    then s.fireEntry index else s)

end Sys2Proof.Machine
end

