-- ==== Sys2Proof/Machine/PortOps.lean ====
section
/-! DEFINITION. What several families do to a port: opening its path, ending its contract, swap or mode, entering its
attach states, Hard Reset, and the PATH bookings of an attach. -/
namespace Sys2Proof.Machine

/-! ### Roles, levels and codes -/

def TcState.attached : TcState → Bool
  | .attSrc | .attSnk | .debugSrc | .debugSnk => true
  | _ => false

def TcState.isSource : TcState → Bool
  | .attSrc | .debugSrc => true
  | _ => false

def TcState.unatt : TcState → Bool
  | .unattSrc | .unattSnk => true
  | _ => false

/-- TC_CFG.ROLE, TRY, RP_LEVEL of the word in force (R203, R236). -/
def roleOf (w : Word) : Nat := bits w 31 30
def tryOf (w : Word) : Nat := if roleOf w = 0 then bits w 29 28 % 3 else 0
def rpLevelOf (w : Word) : Nat := bits w 27 26 % 3

/-- Rp presented at a level, as RP_OFFER codes it, or not (0); a change of the termination makes the comparators' outputs
ignored (R202, R206). -/
def TypeC.present (t : TypeC) (rp : BitVec 2) : TypeC :=
  { t with rpOffer := rp, blank := t.blank || decide (t.rpOffer ≠ rp) }

/-- RP_LEVEL as RP_OFFER codes it. -/
def TypeC.rpLevel (t : TypeC) : BitVec 2 := BitVec.ofNat 2 (rpLevelOf t.cfg + 1)

/-- The port has not been taken back in hold-over; PD_STAT.HOLD stays in fallback (R29, R588). -/
def State.notBack (s : State) (n : PortId) : Bool :=
  let k := s.plat[platOf n]
  s.port[n].hold && (!k.fallback || k.takeBack.any fun i => decide (i ≤ n.val % 6))

/-- The Type-C current of an Rp level, mA, and the PATH step it takes, 0.25 W (R220). -/
def rpMa : Nat → Nat
  | 0 => 900 | 1 => 1500 | _ => 3000
def rpUnits : Nat → Nat
  | 0 => 18 | 1 => 30 | _ => 60

/-- The Rp current without a contract, mA: the port's own as source, the partner's as sink (R329). -/
def TypeC.rpCurrent (t : TypeC) (src : Bool) : Nat := rpMa (if src then rpLevelOf t.cfg else t.rpSeen.toNat - 1)

/-- PP_PROT for an I_max in mA (R329). -/
def protFor (imax : Nat) : Word := fld 0xA0 24 ||| fld (ceilDiv (11 * imax) 50) 12 ||| fld 200 0

/-- A code limited to 0-4095 (R258). -/
def code12 (x : Int) : BitVec 12 := BitVec.ofNat 12 (max 0 (min 4095 x)).toNat

/-- The source code for a voltage, with trim; the sink code for a draw in 0.25 W (R258). -/
def State.srcCode (s : State) (n : PortId) (mv : Nat) (trim : Int) : BitVec 12 :=
  code12 (s.portS16 n 0x20 + (2 * s.portU16 n 0x22 * mv + 256000) / 512000 + trim)
def State.snkCode (s : State) (n : PortId) (u : Nat) : BitVec 12 :=
  code12 (s.portS16 n 0x24 + (2 * s.portU16 n 0x26 * u + 1024) / 2048)

/-- The fast-trip code of R252, and its load into the standby comparator (R253), which a pulse in flight
delays (R257). -/
def ftCodeFor (p : Path) : BitVec 10 := BitVec.ofNat 10 (min 1023 ((bits p.prot 31 24 : Rat) * p.rEst / 3125).floor.toNat)
def Path.loadFt (p : Path) : Path :=
  if p.pulse.isSome then { p with ftHold := some (ftCodeFor p) } else { p with ftPend := some (ftCodeFor p), ftHold := none }

/-- Core SB runs. -/
def State.sbUp (s : State) : Bool := s.core[coreSB].up

/-- The core that serves a port runs, and the port is not in hold-over; a Platform in fallback is served by core SB, with
the hold-over answers (R588). -/
def State.served (s : State) (n : PortId) : Bool := !s.port[n].hold && (s.core[s.portCore n]).up

/-- DUR of a PATH booking (R240). -/
def State.pathDur (s : State) : Nat := max (winLen s.tt.nlog / 2) 32

/-- CAL_PER, CAL_P, I_CLOSE, DSC_I, RETRY, FT_MAX, CEN_P, TRIM_DB of PP_CFG (R262). -/
def ftMax (w : Word) : Nat := max 1 (bits w 11 8)
def cenUnits (w : Word) : Nat := match bits w 7 6 with | 0 => 4 | 1 => 8 | 2 => 20 | _ => 40

/-! ### The card budget (R297-R301, R306) -/

/-- K_p, 0.25 W; unpopulated and retired ports hold nothing (R299). -/
def State.kp (s : State) (n : PortId) : Nat := if s.inService n then s.port[n].ct.commit else 0

def State.committed (s : State) : Nat := (allPorts.map s.kp).sum

/-- CARD_CEIL as it acts, W, and C, 0.25 W (R298). -/
def State.cardCeil (s : State) : Nat := max 360 (min 4800 s.fuse.cardCeil.toNat)
def clampBudget (ceil w : Nat) : Nat := max 360 (min ceil w)
def State.cardBudget (s : State) : Nat := 4 * clampBudget s.cardCeil (bits s.bgCfg 12 0)

/-- The headroom H (R300). -/
def State.headroom (s : State) : Int := (s.cardBudget : Int) - s.committed

/-- The port's field of PMAX_FUSE, W (R332), and M_p, 0.25 W (R297). -/
def State.pmaxFuse (s : State) (n : PortId) : Nat :=
  max 15 (min 240 (bits s.fuse.pmax[n.val / 4] (8 * (n.val % 4) + 7) (8 * (n.val % 4))))
def State.portMax (s : State) (n : PortId) : Nat :=
  let m := 4 * min (s.pmaxFuse n) (min 240 (bits (s.pcCfg n) 31 24))
  match s.port[n].ct.therm with
  | some t => min m t
  | none => m

/-- The offer ceiling of R301. -/
def State.offerCeil (s : State) (n : PortId) : Nat := min (s.portMax n) ((s.kp n : Int) + s.headroom).toNat

/-- SHED (R500): C and COMMITTED in W, COMMITTED rounded up as BG_STAT gives it. -/
def State.shedEvent (s : State) (phase : Nat) : State :=
  s.emitSt 0x0184 (leBytes 1 phase ++ [0] ++ leBytes 2 (s.cardBudget / 4) ++ leBytes 2 (ceilDiv s.committed 4) ++ [0, 0])

/-- SHEDDING clears once COMMITTED is at or below C (R306 step 5). Targets whose capabilities were not sent yet go with it, but
for a thermal limit's (R308); offers are built with the ceiling of R301 again. -/
def State.shedEnd (s : State) : State :=
  if s.bg.shedding && decide (s.committed ≤ s.cardBudget) then
    let s := { s with bg := { s.bg with shedding := false, shedQueue := [] } }
    let s := s.forPorts fun n s => s.modCt n fun c =>
      if c.shedDue && c.therm.isNone then { c with target := none, shedDue := false } else c
    s.shedEvent 0
  else s

/-! ### Events of a port -/

def State.typecEvent (s : State) (n : PortId) : State :=
  let t := s.port[n].tc
  s.emit 0x0280 (tgtPort n) (leBytes 1 t.st.code ++ leBytes 1 t.orient.code ++ leBytes 1 t.partner.code ++ [t.attCnt])

def State.pathEvent (s : State) (n : PortId) (reason cause : Nat) : State :=
  s.emit 0x0284 (tgtPort n) (leBytes 1 reason ++ leBytes 1 cause ++ [0, 0] ++ leBytes 4 (ppStat s.port[n].pp s.time.ct).toNat)

def State.contractEvent (s : State) (n : PortId) (reason : Nat) : State :=
  let c := s.port[n].ct
  s.emit 0x0281 (tgtPort n)
    (leBytes 1 reason ++ leBytes 1 c.kind.code ++ leBytes 2 (ctVolt c) ++ leBytes 2 c.i10 ++ leBytes 2 c.commit)

def State.altEvent (s : State) (n : PortId) (reason : Nat) : State :=
  let a := s.port[n].alt
  s.emit 0x0283 (tgtPort n)
    (leBytes 1 reason ++ leBytes 1 a.mode.code ++ leBytes 1 a.pin.val ++ leBytes 1 a.lastEvt.toNat)

/-- FRS_TX_OK: R346 holds now. -/
def State.frsTxOk (s : State) (n : PortId) : Bool :=
  let p := s.port[n]
  p.tc.st = .attSrc && p.pd.contract && !p.pd.epr && p.pd.ctx[0].rev = 0b10 && bit (s.rsCfg n) 28 &&
  (p.ct.kind = .sprFixed || p.ct.kind = .pps) && p.pd.partnerDrp && p.pd.gotGetSink

/-- RS_STAT (R356). -/
def State.rsStat (s : State) (n : PortId) : Word :=
  let r := s.port[n].rs
  fld r.code.code 28 ||| fld r.pr.code 26 ||| fld r.dr.code 24 ||| flag r.vc 23 ||| fld r.basePr.code 21 |||
  fld r.baseDr.code 19 ||| flag r.baseVc 18 ||| flag r.stby 17 ||| flag (s.frsTxOk n) 16 ||| fld r.frsCur.toNat 14 |||
  flag r.fail 13 ||| flag r.frsDone 12 ||| flag r.nosig 11 ||| fld r.cnt.toNat 0

/-! ### The engine: contexts and messages -/

/-- A message a core hands the engine (R271); in hold-over an answer of the hardware, but for PS_RDY and what a swap sends
(R278). -/
def State.sendMsg (s : State) (n : PortId) (ty : Sop) (body : PdBody) (ams : Bool) : State :=
  let hw := s.port[n].hold && s.port[n].rs.step = .idle && body ≠ .psRdy
  s.modPd n fun d => { d with outbox := d.outbox ++ [{ sop := ty, body := body, ams := ams, hw := hw }] }

/-- All three contexts cleared, with what was queued in them (R267). -/
def Pd.clear (d : Pd) : Pd :=
  { d with ctx := Vector.replicate 3 Context.reset, rxq := [], rxDone := 0, eng := [], outbox := [], reqSent := none, ams := false,
           sinkTxOk := false, epr := false, eprEntry := false, hrReq := false, capsCnt := 0, notice := false,
           timers := [], askedSnk := false }

def Pd.arm (d : Pd) (t : PdTimer) : Pd := { d with timers := t :: d.timers.erase t }
def Pd.disarm (d : Pd) (t : PdTimer) : Pd := { d with timers := d.timers.erase t }
def Pd.armed (d : Pd) (t : PdTimer) : Bool := d.timers.contains t

/-- A message that waited for the draw to stop or for FRS standby to end; the answer to a Request is awaited (R325, R339). -/
def State.sendWaited (s : State) (n : PortId) (b : PdBody) : State :=
  (s.modPd n fun d => match b with | .request r => { d with reqSent := some r } | _ => d).sendMsg n .sop b (b = .prSwap)

/-- A Hard Reset is asked of the engine (R281). -/
def State.askHr (s : State) (n : PortId) : State := s.modPd n fun d => { d with hrReq := true }

/-! ### The path (R239, R252-R257) -/

/-- CLOSING and CLOSED, the states that a trip or an opening leaves. -/
def PathState.live : PathState → Bool
  | .closing | .closed => true
  | _ => false

/-- The path as it stood before an opening of the present tick, against which a trip of that tick is judged (R239). -/
def Path.before (p : Path) (now : CT) : Path :=
  match p.left with
  | some (t, st, sink, a) => if t = now && !p.st.live then { p with st := st, sink := sink, i2t := a } else p
  | none => p

/-- V_ds in the direction of the port's power flow. -/
def Path.along (p : Path) (vds : Int) : Int := if p.sink then -vds else vds

/-- V_ds at or above the fast-trip code in force (R252). -/
def Path.fastOver (p : Path) (vds : Int) : Bool := decide (15625 * (p.ftCode.toNat : Int) ≤ 100 * p.along vds)

/-- The reverse threshold of R254, µV, and V_ds beyond it. -/
def Path.revLimit (p : Path) : Rat := max p.rEst 2000
def Path.revOver (p : Path) (vds : Int) : Bool := decide (p.revLimit ≤ ((-(p.along vds) : Int) : Rat))

/-- A has reached K (R254): both in (0.5 mA)² × 10 µs / 2500. -/
def Path.i2tOver (p : Path) : Bool := decide (bits p.prot 11 0 * 10000000000000 ≤ p.i2t)

/-- A trip of the port is still to come in the present tick; it cancels the port's grants before they fire (R132, R257). -/
def State.tripComes (s : State) (n : PortId) : Bool :=
  let p := s.port[n].pp
  p.st.live && s.ahead fun c => match c with
    | .portFastTrip m v => m = n && p.fastOver v
    | .portReverseTrip m v => m = n && p.revOver v
    | .i2tTrip m => m = n && p.i2tOver
    | .cpgLost m => m = n
    | .closeFail m => m = n && p.st = .closing
    | _ => false

/-- Entries of an owner and kind whose next grant tick has come and that no core and no WARN_N cancels in the tick. -/
def State.findDue (s : State) (owner : Nat) (k : Kind) : Option (Fin 256) :=
  (List.finRange 256).find? fun i => s.tt.entries[i].any fun e =>
    e.owner = owner && e.kind = k && (e.todo.head?.any fun g => due s.time.ct g.1) && !s.cancelComes i e

/-- The entry of an owner and kind that fires now; a trip of the present tick cancels its port's first (R119, R132, R257). -/
def State.dueEntry (s : State) (owner : Nat) (k : Kind) : Option (Fin 256) :=
  if h : owner < 24 then
    if s.tripComes ⟨owner, h⟩ then none else s.findDue owner k
  else s.findDue owner k

/-- The gates are pulled down: the path leaves CLOSING or CLOSED. `disch` asks for discharge, `trip` names a trip. -/
def Path.opened (p : Path) (disch trip : Bool) : Path :=
  match p.st with
  | .closing | .closed =>
    { p with st := if disch && !p.sink then .discharge else if trip then .tripped else .opn,
             byTrip := trip, byVcp := false, i2t := 0, pulse := none, assist := false }
  | _ => p

/-- An opening; a protection opening sets TRIP in the trace frame in progress (R390). -/
def State.openPath (s : State) (n : PortId) (disch trip prot : Bool) : State :=
  let was := s.port[n].pp.st
  let s := s.modPp n fun p =>
    if p.st.live then { p.opened disch trip with left := some (s.time.ct, p.st, p.sink, p.i2t) } else p
  if prot && was.live then
    s.modMs n fun m => { m with trace := { m.trace with flags := m.trace.flags ||| 0x02 } }
  else s

def Path.setTrip (p : Path) : Cause → Path
  | .fast => { p with ftTrip := true }
  | .reverse => { p with revTrip := true }
  | .i2t => { p with i2tTrip := true }
  | .cpgLost => { p with cpgLost := true }
  | .closeFail => { p with closeFail := true }
  | .therm => { p with thermTrip := true }
  | _ => p

/-- TRIPPED with FT_MAX trips in 60 s is LOCKOFF (R239); its event follows that of a trip in the tick. -/
def State.lockoffCheck (s : State) (n : PortId) : State :=
  let p := s.port[n].pp
  if p.st = .tripped && decide (ftMax (s.ppCfg n) ≤ tripCount p s.time.ct) then
    let s := s.modPp n fun p => { p with st := .lockoff }
    if s.trips.any fun x => x.port = n then
      { s with trips := s.trips.map fun x => if x.port = n then { x with lock := true } else x }
    else s.pathEvent n 2 0
  else s

/-! ### Contracts -/

/-- The contract of a port ends: its transition with its increments, EPR mode, the draw, the commitment (R303, R318,
R319). An attached source is left with its Type-C current. -/
def State.endContract (s : State) (n : PortId) : State :=
  let p := s.port[n]
  let s := match p.ct.plan with
    | some q => s.cancelEntry n q.entry
    | none => s
  let src := p.tc.st.isSource
  let ma := p.tc.rpCurrent src
  let s := s.modPort n fun p =>
    { p with
      ct := { p.ct with kind := if src then .typeC else .none, pos := 0, shed := false, mv := if src then 5000 else 0,
                        i10 := if src then ma / 10 else 0, imax := ma, commit := 0x3C, plan := none,
                        waits := 0, target := none, shedDue := false, shedTimer := false, rdyOut := false, draw := 0, intended := 0, stopFor := none, stopRetry := false }
      pp := ({ p.pp with prot := protFor ma, protPend := none, trimStop := none, code := if p.pp.sink then 0 else p.pp.code }).loadFt
      pd := { p.pd with contract := false, epr := false, eprEntry := false, reqSent := none, rdoEpr := false,
                        gotGetSink := false, partnerDrp := false, sentGetSink := false, period := false } }
  s.shedEnd

/-- V × I in 0.25 W: rounding log entry 8. -/
def units (mv i10 : Nat) : Nat := (roundFree ((mv * i10 : Nat) / (25000 : Nat) : Rat)).toNat

/-- A transition given up before its end: its booking goes, and K_p returns to the contract's (R299). -/
def State.planAbort (s : State) (n : PortId) : State :=
  match s.port[n].ct.plan with
  | none => s
  | some q =>
    let s := s.cancelEntry n q.entry
    (s.modPort n fun p =>
      { p with ct := { p.ct with plan := none,
                                 commit := if p.pd.contract then max 60 (units p.ct.mv p.ct.i10) else 0x3C }
               pp := { p.pp with protPend := none, assist := false } }).shedEnd

/-! ### Points requests (R363-R369) -/

/-- The words of the Points table of the running configuration; a table that failed its check is empty (R364). -/
def State.pointsWords (s : State) : List Word :=
  if s.points.ok then (List.range 256).map fun i => s.cfgW (0xC80 + 4 * i) else []

/-- The scripts of a table: EVENT, PORTS and steps, in order; `fuel` bounds the table. -/
def scripts : Nat → List Word → List (BitVec 4 × Word × List Word)
  | 0, _ => []
  | fuel + 1, ws =>
    match ws with
    | [] => []
    | h :: t =>
      if h = 0 then []
      else
        let len := bits h 27 24
        (BitVec.ofNat 4 (bits h 31 28), h, t.take len) :: scripts fuel (t.drop len)

/-- The first script of a table that serves an event of a port (R365). -/
def State.findScript (s : State) (n : PortId) (ev : BitVec 4) : Option (List Word) :=
  ((scripts 256 s.pointsWords).find? fun x => x.1 = ev && bit x.2.1 n.val).map fun x => x.2.2

/-- A script into a queue in the order of request ticks, ties by port (R366). -/
def scriptInto (x : Script) (l : List Script) : List Script :=
  let before (y : Script) : Bool := !(y.asked = x.asked && decide (x.port < y.port))
  l.takeWhile before ++ [x] ++ l.dropWhile before

/-- A script queued: DETACH ahead of every other but the running one; two HPD scripts of a port collapse (R366, R369). -/
def Points.enqueue (p : Points) (x : Script) : Points :=
  let hd := if p.running then p.queue.take 1 else []
  let tl := if p.running then p.queue.drop 1 else p.queue
  if x.event = 7 then
    { p with queue := hd ++ scriptInto x (tl.filter fun y => y.event = 7) ++ tl.filter (fun y => y.event ≠ 7) }
  else
    let tl := if x.event = 8 || x.event = 9 then tl.filter fun y => !(y.port = x.port && (y.event = 8 || y.event = 9)) else tl
    { p with queue := hd ++ tl.filter (fun y => y.event = 7) ++ scriptInto x (tl.filter fun y => y.event ≠ 7) }

/-- The script of an event of a port, if the table holds one, goes into the queue (R365). -/
def State.queueScript (s : State) (n : PortId) (ev : BitVec 4) : State :=
  match s.findScript n ev with
  | none => s
  | some ws =>
    let x : Script := { port := n, event := ev, steps := ws, num := 1, fails := 0, losses := 0, asked := s.time.ct }
    { s with points := s.points.enqueue x }

/-- A script requested of core SB for an event of a port. In hold-over no script runs but DETACH, which waits for core SB where
that does not run, and EXIT is kept for the end of the hold-over (R365, R369). -/
def State.reqScript (s : State) (n : PortId) (ev : BitVec 4) : State :=
  if ev = 7 then if s.sbUp then s.queueScript n ev else s.modAlt n fun a => { a with detPend := true }
  else if s.port[n].hold then if ev = 6 then s.modAlt n fun a => { a with exitDue := true } else s
  else s.queueScript n ev

/-- An EXIT that is due is requested once no Hard Reset sequence is before its step 4 (R369). -/
def State.exitRun (s : State) (n : PortId) : State :=
  if s.port[n].alt.exitDue && !s.port[n].hold && !s.port[n].pd.hrPend then
    (s.modAlt n fun a => { a with exitDue := false }).reqScript n 6
  else s

/-- A script of the port is queued behind the running one; a DETACH of an earlier attach is kept unless `all`. -/
def dropQueued (n : PortId) (all : Bool) (l : List Script) : List Script :=
  l.filter fun y => y.port ≠ n || !all && y.event = 7

/-- The port's queued scripts dropped; `stop`: a running one stops at its next step boundary too (R369). -/
def Points.drop (p : Points) (n : PortId) (stop all : Bool) : Points :=
  match p.queue with
  | [] => p
  | h :: t =>
    if p.running then
      { p with queue := (if stop && h.port = n then { h with steps := [] } else h) :: dropQueued n all t }
    else { p with queue := dropQueued n all (h :: t) }

def State.dropScripts (s : State) (n : PortId) (stop all : Bool) : State := { s with points := s.points.drop n stop all }

/-- A script of the port runs, or one other than DETACH is queued. -/
def State.hasScript (s : State) (n : PortId) : Bool :=
  (s.points.running && s.points.queue.head?.any fun h => h.port = n) ||
  s.points.queue.any fun x => x.port = n && x.event ≠ 7

/-- ALT_MODE completes with ALT_STAT (R489, R370). -/
def State.altStat (s : State) (n : PortId) : Word :=
  let a := s.port[n].alt
  fld a.mode.code 30 ||| fld a.pin.val 28 ||| flag a.hpd 27 ||| flag (s.points.queue.any fun x => x.port = n) 26 |||
  flag a.ptsFail 25 ||| flag a.noScript 24 ||| flag a.enterFail 23 ||| flag a.detPend 22 ||| fld a.lastEvt.toNat 18 |||
  fld a.failStep.toNat 14

def State.altComplete (s : State) (n : PortId) : State :=
  let r := s.port[n].alt.host
  let s := s.modAlt n fun a => { a with host := none }
  s.completeOpt r stOk (leBytes 4 (s.altStat n).toNat)

/-- A mode ends with the event of R371. -/
def State.modeEnd (s : State) (n : PortId) : State :=
  if s.port[n].alt.mode = .none then s
  else (s.modAlt n fun a => { a with mode := .none, pin := 0, hpd := false, askStatus := false }).altEvent n 1

/-- What a port knows of its partner's modes goes with the partner; a pending DETACH stays. -/
def Alt.detached (a : Alt) : Alt :=
  { a with step := .idle, tried := false, enterSince := false, ptsSince := false, noScript := false, exitDue := false,
           askStatus := false, partnerUsb4 := false, pins := 0, hpd := false }

/-- Detach or ERR_RECOV of a port: its scripts are dropped and, with a mode entered or a script of it on its way, DETACH runs
(R365, R369). -/
def State.altDetach (s : State) (n : PortId) : State :=
  let had := s.port[n].alt.mode ≠ .none || s.hasScript n
  let s := (s.dropScripts n true false).modeEnd n
  let s := if had then s.reqScript n 7 else s
  (s.modAlt n Alt.detached).altComplete n

/-- A Hard Reset ends the mode; the port's queued scripts are dropped, and EXIT waits for step 4 of R282 (R369). -/
def State.altHardReset (s : State) (n : PortId) : State :=
  let had := s.port[n].alt.mode ≠ .none
  let s := (s.dropScripts n false false).modeEnd n
  let s := s.modAlt n fun a => { a with step := .idle, exitDue := a.exitDue || had }
  s.altComplete n

/-! ### Swaps -/

/-- The end of an AMS: from the first explicit contract on, a source at Revision 3.x returns to SinkTxOK (R273). -/
def State.amsEnd (s : State) (n : PortId) : State :=
  s.modPort n fun p =>
    let ok := p.tc.st.isSource && p.pd.contract && p.pd.ctx[0].rev = 0b10
    { p with pd := { p.pd with ams := false, sinkTxOk := ok }, tc := if ok then p.tc.present 3 else p.tc }

/-- The end of a swap: its event and, for a host's, its completion (R355, R490). -/
def State.swapEndWith (s : State) (n : PortId) (result : Nat) (st : BitVec 16) : State :=
  let r := s.port[n].rs
  if r.step = .idle then s
  else
    let s := s.modPort n fun p =>
      { p with rs := { r with code := .none, step := .idle, host := none, kind := none, entry := none, retry := false,
                              cnt := if result = 0 && r.cnt ≠ 0xFF then r.cnt + 1 else r.cnt }
               ms := if result = 0 then { p.ms with swaps := min (2 ^ 32 - 1) (p.ms.swaps + 1) } else p.ms }
    let q := s.port[n].rs
    let s := s.emit 0x0282 (tgtPort n) (leBytes 1 r.code.code ++ leBytes 1 result ++ leBytes 1 q.pr.code ++
      leBytes 1 q.dr.code ++ leBytes 1 (b2n q.vc) ++ [0, 0, 0])
    let s := if s.port[n].pd.ams then s.amsEnd n else s
    s.completeOpt r.host st (if st = stOk then leBytes 1 result ++ [0, 0, 0] ++ leBytes 4 (s.rsStat n).toNat else [])

/-- The end of a swap whose command, if any, completes with OK (R490). -/
def State.swapEnd (s : State) (n : PortId) (result : Nat) : State := s.swapEndWith n result stOk

/-- A swap to source whose ROLE booking WARN_N refuses: the port goes to ERR_RECOV, and the command completes with the refusal
(R122, R478). -/
def State.swapRefused (s : State) (n : PortId) : State :=
  (s.modRs n fun r => { r with fail := true }).swapEndWith n 4 stBudgetRefused

/-- The attach-time roles are the roles in force (R334). -/
def Swap.setBase (r : Swap) : Swap := { r with basePr := r.pr, baseDr := r.dr, baseVc := r.vc, basePartnerVc := r.partnerVc }

/-! ### VCONN (R224, R226, R227) -/

/-- Ports of a Platform that source VCONN, with those a swap is about to make do so (DESIGN CHOICE: R226 does not say whether a
VCONN swap in progress holds a place of the allowance; it does from its start, and a swap that fails serves no waiting port:
log entry 153). -/
def State.vconnCount (s : State) (k : PlatId) : Nat :=
  ((portsOf k).filter fun n => s.port[n].tc.vconnOn || s.port[n].rs.code = .vconnOn).length

def State.vconnApply (s : State) (n : PortId) : State :=
  s.modPort n fun p => { p with tc := { p.tc with vconnOn := true, vconnWait := false }, rs := { p.rs with vc := true } }

/-- VCONN that an attach calls for: the attach-time VCONN role follows it (R224, R334). -/
def State.vconnAttach (s : State) (n : PortId) : State := (s.vconnApply n).modRs n fun r => { r with baseVc := true }

/-- VCONN is gone after an EPR entry was acknowledged: the cable reads as unmarked, and the entry fails with its reason (R287,
R296). -/
def State.eprNoVconn (s : State) (n : PortId) : State :=
  if s.port[n].pd.eprEntry && !s.port[n].tc.vconnOn && s.served n then
    (s.modPd n fun d => { d with eprEntry := false }).sendMsg n .sop (.eprFailed 4) false
  else s

/-- VCONN released; the lowest-index waiting port of the Platform receives it, where the allowance has room (R226; a lowered
VC_MAX turns off none: log entry 138). -/
def State.vconnRelease (s : State) (n : PortId) : State :=
  let was := s.port[n].tc.vconnOn
  let s := s.modPort n fun p =>
    { p with tc := { p.tc with vconnOn := false, vconnWait := false }, rs := { p.rs with vc := false } }
  let s := s.eprNoVconn n
  if was && s.plat[platOf n].vconn && decide (s.vconnCount (platOf n) < s.vcMax (platOf n)) then
    match (portsOf (platOf n)).find? fun m => s.port[m].tc.vconnWait with
    | some m => s.vconnAttach m
    | none => s
  else s

/-! ### PATH bookings of an attach (R220, R221, R613) -/

/-- The 5 V code, without a booking, on a source port whose path is open (R24, R25, R318). -/
def State.load5 (s : State) (n : PortId) : State :=
  s.modPp n fun p => { p with code := s.srcCode n 5000 p.trim.toInt, lim := 0 }

/-- No PATH booking can be made now: the path is in LOCKOFF, RETRY or the VCP fault has not ended, or core SB is down in
hold-over. -/
def State.pathHeld (s : State) (n : PortId) : Bool :=
  let p := s.port[n]
  p.pp.st = .lockoff || p.pp.retryRun || p.pp.vcpWait || p.hold && !s.core[coreSB].up

/-- The PATH booking of an attached port: made now, kept for the end of RETRY or of the VCP fault, or made again every
10 ms after a refusal; in hold-over by core SB, once it runs (R284). While the path is in LOCKOFF none is made. Once it is
made, no Hard Reset sequence is in progress any more (R282, R289). A source closes at vSafe5V (R28, R220, R282). -/
def State.bookPath (s : State) (n : PortId) : State :=
  let s := if s.port[n].tc.st.isSource && !s.port[n].pp.st.live then s.load5 n else s
  let p := s.port[n]
  if s.pathHeld n then s.modTc n fun t => { t with pathRetry := true }
  else
    let src := p.tc.st.isSource
    let r := s.bookPort n .path s.pathDur none (if src then rpUnits (rpLevelOf p.tc.cfg) else 0) 0
    r.1.modPort n fun p => { p with tc := { p.tc with pathRetry := !r.2.ok }, pd := { p.pd with hrPend := p.pd.hrPend && !r.2.ok } }

/-- A ROLE booking is cancelled: one that puts VBUS on or leaves FRS standby is made again, one that enters standby is not
held any more, and a swap to sink that has lost its grant ends as where it did not fit (R137, R339, R340, R342). -/
def State.tellRole (s : State) (n : PortId) : State :=
  let r := s.port[n].rs
  if r.code = .prSrcSnk then if r.entry.isSome then (s.modRs n fun r => { r with entry := none }).askHr n else s
  else s.modRs n fun r => { r with entry := none, retry := r.retry || r.leaving || r.step = .rise }

/-- An owner is told that the Timetable has cancelled its booking (R135, R137): a PATH, the SET of an opening, a ROLE and a
SINK that stops the draw are booked again. What is left of a RAMP, a calibration and a draw follows from the owner's state. -/
def State.tellOwner (s : State) (e : Entry) : State :=
  if h : e.owner < 24 then
    let n : PortId := ⟨e.owner, h⟩
    match e.kind with
    | .path => s.modTc n fun t => { t with pathRetry := t.pathRetry || t.st.attached }
    | .set => s.modTc n fun t => { t with opening := if t.opening = .booked then .retry else t.opening }
    | .role => s.tellRole n
    | .sink => s.modCt n fun c => { c with stopRetry := c.stopRetry || c.stopFor.isSome }
    | _ => s
  else s

def State.tell (s : State) (old : Timetable) (l : List (Fin 256)) : State :=
  l.foldl (fun s i => match old.entries[i] with
    | some e => s.tellOwner e
    | none => s) s

/-- T_RESP of PC_CFG, tk (R330). -/
def tRespTk (w : Word) : Nat := 256 * (bits w 4 2 + 1)

/-- A RAMP of a transition that was moved must still meet the last condition of R312; otherwise it is cancelled, and as where
it was not placed at all a Hard Reset follows (R137, R320). -/
def State.planMoved (s : State) (moved cancelled : List (Fin 256)) : State :=
  s.forPorts fun n s =>
    match s.port[n].ct.plan with
    | none => s
    | some q =>
      match q.entry with
      | none => s
      | some i =>
        if cancelled.contains i then s.askHr n
        else if moved.contains i then
          match s.tt.entries[i] with
          | none => s
          | some e =>
            let first := if q.fired = 0 then (e.todo.head?.map Prod.fst).getD q.first else q.first
            let limit := if q.small then 40960 else 512000
            if 10 * ((e.last - first).toNat + 4 + tRespTk (s.pcCfg n)) + 2048 ≤ 10 * limit then
              s.modCt n fun c => { c with plan := some { q with first := first, last := e.last } }
            else (s.cancelEntry n (some i)).askHr n
        else s

/-- The tick's bookings are placed: the owners of those that a higher-ranked one has moved or left no place for are told
(R132; log entry 25). -/
def State.newsEnd (s : State) : State :=
  let moved := s.tt.moved
  let dropped := s.tt.dropped
  let s := { s with tt := { s.tt with news := [], moved := [], dropped := [] } }
  (dropped.foldl (fun s x => s.tellOwner x.2) s).planMoved moved (dropped.map Prod.fst)

/-- A protection action on a port that stays attached cancels its granted and unfired bookings, and their owner is told
(R25). -/
def State.protCancel (s : State) (n : PortId) : State :=
  (s.cancelPort n).tell s.tt (s.tt.pick fun e => e.owner = n.val)

/-- FRS standby ends: the sink direction, the code given, and the contract's protection again; a Request that waited is sent
(R339, R352). -/
def State.standbyEnd (s : State) (n : PortId) (code : BitVec 12) : State :=
  let s := s.modPort n fun p =>
    { p with pp := ({ p.pp with sink := true, code := code, prot := protFor p.ct.imax } : Path).loadFt
             rs := { p.rs with stby := false, leaving := false, entry := none, retry := false } }
  match s.port[n].ct.stopFor with
  | some b => (s.modCt n fun c => { c with stopFor := none, stopRetry := false }).sendWaited n b
  | none => s

/-! ### Entering states (R211-R223, R334) -/

/-- Entry to an Unattached state, or to DISABLED where ROLE is 0b11: TC_CFG and PD_CFG are read (R203, R212, R241). -/
def State.enterUnatt (s : State) (n : PortId) (dest : TcState) : State :=
  let w := s.tcCfg n
  let was := s.port[n].tc.st
  let st : TcState := if roleOf w = 3 then .disabled else dest
  let s := s.modPort n fun p =>
    { p with
      tc := { p.tc with st := st, cfg := w, pdCfg := s.pdCfg n, orient := .none, rpSeen := 0,
                        rpOffer := if st = .unattSrc then BitVec.ofNat 2 (rpLevelOf w + 1) else 0, partner := .none,
                        raOther := false, debDone := false, tryEnded := false, blank := true, rpPend := none, rpRound := 0,
                        sinkStep := 0, vconnOff := false, holdAttach := false, pathRetry := false, pathLimit := false, opening := if st = .disabled then .closed else p.tc.opening }
      pp := { p.pp with cen := p.pp.cen && st ≠ .disabled } }
  if was.attached then s.typecEvent n else s

/-- One of the two Unattached states of a DRP; a fixed role that is read at the entry has its own (R203, R213, R216). -/
def State.toUnatt (s : State) (n : PortId) (snk : Bool) : State :=
  s.enterUnatt n (match roleOf (s.tcCfg n) with
    | 1 => .unattSrc
    | 2 => .unattSnk
    | _ => if snk then .unattSnk else .unattSrc)

/-- The Unattached state that a port returns to: UNATT_SNK, and UNATT_SRC for ROLE source only (R213). -/
def State.toUnattHome (s : State) (n : PortId) : State := s.toUnatt n true

/-- The orientation the readings give: the pin that reads Rd as source, Rp as sink (R223). -/
def isRp : CcRead → Bool
  | .rpDef | .rp15 | .rp30 => true
  | _ => false

def orientSrc (c1 c2 : CcRead) : Orient := if c1 = .rd then .cc1 else if c2 = .rd then .cc2 else .none
def orientSnk (c1 c2 : CcRead) : Orient := if isRp c1 then .cc1 else if isRp c2 then .cc2 else .none

def rpCode : CcRead → BitVec 2
  | .rpDef => 1 | .rp15 => 2 | .rp30 => 3 | _ => 0

/-- What a new attach finds cleared: figures kept since attach (R289, R356, R370). -/
def Port.freshAttach (p : Port) : Port :=
  { p with pd := { p.pd.clear with hrCnt := 0, retryCnt := 0, cable := 0, cableUsb4 := false, cableAbsent := false,
                                   hrTries := 0, hrPend := false, timers := [], objs := [], partnerObjs := [] }
           alt := p.alt.detached
           rs := { p.rs with cnt := 0, prefPr := false, prefDr := false, prefVc := false, frsCur := 0, stby := false, leaving := false } }

/-- Entry to ATT_SRC, DEBUG_SRC, ATT_SNK or DEBUG_SNK from a state that is not attached: the attach-time roles, ATT_CNT,
the event and the PATH booking (R220-R224, R234, R334); a partner that sources is taken for the VCONN source (log entry
140). In DEBUG_SRC and DEBUG_SNK the engine runs on the pin with the higher reading, CC1 where they are equal (R230; readings
are those of R207: log entry 137). -/
def State.enterAttached (s : State) (n : PortId) (st : TcState) (o : Orient) (pt : Partner) (ra : Bool) : State :=
  let src := st.isSource
  let t := s.port[n].tc
  let hi := decide (rpCode t.cc1 < rpCode t.cc2)
  let seen : BitVec 2 := if src then 0 else rpCode (if o = .cc2 || o = .unoriented && hi then t.cc2 else t.cc1)
  let ma := ({ t with rpSeen := seen } : TypeC).rpCurrent src
  let s := s.modPort n fun p =>
    let p := p.freshAttach
    { p with
      tc := { p.tc with st := st, orient := o, partner := pt, raOther := ra, debDone := false, tryEnded := false,
                        holdAttach := false, attCnt := p.tc.attCnt + 1, blank := true,
                        rpOffer := if src then p.tc.rpLevel else 0, rpSeen := seen, pathLimit := src,
                        dbgCc2 := o = .unoriented && hi }
      rs := (({ p.rs with pr := if src then .source else .sink, dr := if src then .dfp else .ufp, vc := false, partnerVc := !src }) : Swap).setBase
      pp := ({ p.pp with sink := !src, prot := protFor ma }).loadFt
      ct := { p.ct with kind := if src then .typeC else .none, mv := if src then 5000 else 0,
                        i10 := if src then ma / 10 else 0, imax := ma }
      ms := { p.ms with attaches := min (2 ^ 32 - 1) (p.ms.attaches + 1) } }
  (s.typecEvent n).bookPath n

/-- The CC pin that PD runs on (R223, R230). -/
def TypeC.bmcPin (t : TypeC) : Orient :=
  match t.orient with
  | .unoriented => if t.dbgCc2 then .cc2 else .cc1
  | o => o

/-- Detach (R213, R222, R318): the path opens with discharge, the bookings are cancelled, the contract, a swap and a mode
end, and the 5 V code is loaded with no load connected. A detach that VBUS shows leads to UNATT_SNK in every role. -/
def State.detach (s : State) (n : PortId) (vbus : Bool) : State :=
  let s := (s.openPath n true false false).cancelPort n
  let s := s.modPp n fun p => { p with st := if p.st = .tripped || p.st = .lockoff then .opn else p.st }
  let s := (s.swapEnd n 5).altDetach n
  let s := (s.endContract n).vconnRelease n
  let s := s.modPort n fun p =>
    { p with pd := { p.pd.clear with hrPend := false, timers := [] }
             rs := { p.rs with pr := .none, dr := .none, basePr := .none, baseDr := .none, baseVc := false, stby := false,
                               leaving := false, frsCur := 0 }
             pp := { p.pp with sink := false, vcpWait := false }
             ct := { p.ct with kind := .none, mv := 0, i10 := 0 } }
  let s := s.load5 n
  if vbus then s.enterUnatt n .unattSnk else s.toUnattHome n

/-- ERR_RECOV, from an attached state (R214, R267, R365). -/
def State.errRecov (s : State) (n : PortId) : State :=
  if s.port[n].tc.st.attached then
    let s := ((s.openPath n true false false).cancelPort n).altDetach n
    let s := (s.endContract n).vconnRelease n
    let s := s.modPort n fun p =>
      { p with pd := { p.pd.clear with hrPend := false, timers := [] }
               rs := { p.rs with pr := .none, dr := .none, basePr := .none, baseDr := .none, baseVc := false, stby := false,
                                 leaving := false, frsCur := 0 }
               ct := { p.ct with kind := .none, mv := 0, i10 := 0 }
               tc := { p.tc with st := .errRecov, orient := .none, partner := .none, rpOffer := 0, rpSeen := 0, blank := true,
                                 pathRetry := false, pathLimit := false } }
    (s.load5 n).typecEvent n
  else s

/-- A swap that fails under R338. -/
def State.swapFail (s : State) (n : PortId) : State :=
  if s.port[n].rs.step = .idle then s
  else
    let e := s.port[n].rs.entry
    let s := ((s.cancelEntry n e).modRs n fun r => { r with fail := true }).swapEnd n 4
    s.errRecov n

/-- DISABLED, by an all-off or a retirement: the path opens, Pn_CEN falls, the terminations go (R30, R212, R583). -/
def State.disablePort (s : State) (n : PortId) : State :=
  let was := s.port[n].tc.st
  let s := ((s.openPath n true false true).cancelPort n).swapEnd n 5
  let s := (((s.dropScripts n true true).modeEnd n).modAlt n Alt.detached).altComplete n
  let s := (s.endContract n).vconnRelease n
  let s := s.modPort n fun p =>
    { p with pd := { p.pd.clear with hrPend := false, timers := [] }
             rs := { p.rs with pr := .none, dr := .none, basePr := .none, baseDr := .none, baseVc := false, stby := false,
                               leaving := false }
             pp := { p.pp with cen := false, vcpWait := false }
             ct := { p.ct with kind := .none, mv := 0, i10 := 0 }
             tc := { p.tc with st := .disabled, orient := .none, partner := .none, rpOffer := 0, rpSeen := 0,
                               opening := .closed, pathRetry := false, pathLimit := false, holdAttach := false } }
  if was.attached then s.typecEvent n else s

/-! ### Trips (R252-R257, R613) -/

/-- A trip ends the explicit contract, and the core is to send Hard Reset; without one PATH is booked again (R613). -/
def State.tripConsequence (s : State) (n : PortId) : State :=
  let p := s.port[n]
  if p.rs.step ≠ .idle then s.swapFail n
  else if p.pd.contract then (s.endContract n).modPd n fun d => d.arm .tripHardReset
  else if p.tc.st.attached then s.modTc n fun t => { t with pathRetry := true }
  else s

/-- CH(4n + 3) counts RETRY: down from RETRY seconds of 1 µs, once (R104, R256; how it is programmed is the model's: log
entry 142). -/
def State.retryCount (s : State) (n : PortId) : State :=
  s.modChan ⟨4 * n.val + 3, by omega⟩ fun c =>
    let v := BitVec.ofNat 32 (1000000 * max 1 (bits (s.ppCfg n) 15 12))
    { c with down := true, src := 3, buf := 0, phase := v, count := v, run := true, startSf := false, held := false, force := false }

/-- A further cause in the tick of a trip: the one of higher rank is recorded (R257). -/
def State.tripRank (s : State) (n : PortId) (c : Cause) : State :=
  let k := platOf n
  let up (d : Cause) : Cause := if c.code < d.code then c else d
  if s.trips.any fun x => x.port = n then
    { s with trips := s.trips.map fun x => if x.port = n then { x with cause := up x.cause } else x
             sketches := s.sketches.map fun x => if x.port = n then { x with cause := up x.cause } else x
             plat := s.plat.set k { s.plat[k] with holding := s.plat[k].holding.map fun x =>
               if x.port = n && !x.complete && x.recs.length ≤ 1026 then { x with cause := up x.cause } else x } }
  else s

/-- A trip of a path that is CLOSING or CLOSED, or was at the start of the present tick, since its row stands above those of
the other openings (R239); a further cause in the same tick sets its flag too (R257). The event follows at the end of the
tick. The limit of R220 runs again from the end of RETRY. -/
def State.trip (s : State) (n : PortId) (c : Cause) : State :=
  let p := s.port[n].pp
  let q := p.before s.time.ct
  if p.trips.head? = some s.time.ct && !p.st.live then (s.modPp n fun q => q.setTrip c).tripRank n c
  else if q.st.live then
    let s := s.sketchTrigger n c
    let s := ((s.openPath n true true true).cancelPort n).retryCount n
    let s := s.modPort n fun r =>
      { r with pp := { r.pp.setTrip c with trips := (s.time.ct :: r.pp.trips).take 255, retryRun := true,
                                           st := if q.sink then .tripped else .discharge, byTrip := true, byVcp := false }
               tc := { r.tc with pathLimit := r.tc.pathLimit || r.tc.st.isSource }
               ms := { r.ms with tripsLife := min (2 ^ 32 - 1) (r.ms.tripsLife + 1) } }
    (({ s with trips := s.trips ++ [{ port := n, cause := c, lock := false }] } : State).lockoffCheck n).tripConsequence n
  else s

/-- The tick ends: its trips are told, its Sketches take their slots (R257, R261). -/
def State.tripsEnd (s : State) : State :=
  s.trips.foldl (fun s x =>
    let s := s.pathEvent x.port 1 x.cause.code
    if x.lock then s.pathEvent x.port 2 0 else s) { s.takeSlots with trips := [] }

/-! ### Hard Reset (R281-R283, R319, R353) -/

/-- From the end of the Hard Reset signalling: step 1 of R282, and step 2 in sink role. A swap in progress ends first
(R353), and the attach-time roles return (R334). -/
def State.hardReset (s : State) (n : PortId) (sent : Bool) : State :=
  let r := s.port[n].rs
  let s := if r.step ≠ .idle then ((s.cancelEntry n r.entry).openPath n true false true).swapEnd n 6 else s
  let s := (s.altHardReset n).cancelKind n .ramp
  let s := ((s.cancelKind n .set).cancelKind n .role).cancelKind n .sink
  let src := s.port[n].rs.basePr = .source
  let s := s.modPort n fun p =>
    { p with tc := { p.tc with st := match p.tc.st with
                                     | .attSrc | .attSnk => if src then .attSrc else .attSnk
                                     | x => x,
                               rpOffer := if src then p.tc.rpLevel else 0, blank := true, pathRetry := false }
             rs := { p.rs with pr := p.rs.basePr, dr := p.rs.baseDr, partnerVc := p.rs.basePartnerVc, stby := false, leaving := false, frsCur := 0 }
             pp := { p.pp with sink := !src } }
  let s := s.endContract n
  let s := s.modPort n fun p =>
    { p with pd := (let d := ({ p.pd.clear with hrPend := true, hrCnt := if p.pd.hrCnt = 0xFF then 0xFF else p.pd.hrCnt + 1,
                                                hrTries := if sent then p.pd.hrTries + 1 else 0 } : Pd)
                    if src then (d.arm .psHardReset).arm .noResponse else d.arm .sinkVbus)
             ms := { p.ms with hardResets := min (2 ^ 32 - 1) (p.ms.hardResets + 1) } }
  if src then s
  else
    let s := s.openPath n false false false
    if s.port[n].tc.vconnOn && !s.port[n].rs.baseVc then s.vconnRelease n else s

end Sys2Proof.Machine
end

