-- ==== Sys2Proof/Machine/Time.lean ====
section
/-! DEFINITION. Chassis time, FRM markers and counter channels (chapter 04). The CHANNEL_MATCH and SUPERFRAME_START
commands, which act on ports, are in Measure.lean. -/
namespace Sys2Proof.Machine

def CtState.holdover? : CtState → Bool
  | .holdover => true
  | _ => false

/-- TIME_STAT (R93). -/
def State.timeStat (s : State) : Word :=
  let t := s.time
  fld t.mismatch.toNat 16 ||| fld t.cause.toNat 8 ||| flag t.epochSet 7 ||| flag (t.st = .slew) 6 |||
  flag (t.st = .holdover) 5 ||| flag t.sfLock 4 ||| flag t.frameLock 3 ||| flag t.cadOk 2 ||| flag t.xtalOk 1

/-- TIME_STATE at each change of state (R500). -/
def State.timeEvent (s : State) : State := s.emitSt 0x0381 (leBytes 4 s.timeStat.toNat)

/-- The values of the frame in progress move with a set epoch (R390, R400). -/
def Trace.shift (t : Trace) (d : CT) : Trace :=
  { t with groups := t.groups.map fun g => { g with ct := g.ct + d },
           part := if t.held.any fun f => f.waitGroup then t.part else t.part.map fun x => (x.1 + d, x.2) }

/-- Times from which the model counts how long ago something happened: they move with every step of CT, so that no such
count changes (log entry 151). -/
def State.shiftSpans (s : State) (d : CT) : State :=
  let s := { s with
    stamps := s.stamps.map fun (x : CT × Nat) => (x.1 + d, x.2)
    firsts := s.firsts.map fun (x : CT × Nat × List (BitVec 64 × BitVec 64)) => (x.1 + d, x.2)
    inbox := s.inbox.map fun (c : Held) => { c with stamp := c.stamp + d }
    waiting := s.waiting.map fun (c : Held) => { c with stamp := c.stamp + d }
    points := { s.points with queue := s.points.queue.map fun (x : Script) => { x with asked := x.asked + d } }
    sq := { s.sq with rails := s.sq.rails.map fun (r : Rail) =>
              { r with stepAt := r.stepAt + d, qualAt := r.qualAt.map (· + d) } }
    hs := { s.hs with revTrips := s.hs.revTrips.map (· + d),
                      opened := s.hs.opened.map fun (x : CT × HsState × Bool) => (x.1 + d, x.2) } }
  s.forPorts fun n s => s.modPort n fun p =>
    { p with pp := { p.pp with trips := p.pp.trips.map (· + d), calAt := p.pp.calAt.map (· + d),
                               calGot := p.pp.calGot.map (· + d),
                               left := p.pp.left.map fun (x : CT × PathState × Bool × Nat) => (x.1 + d, x.2),
                               trimStop := p.pp.trimStop.map (· + d),
                               pulse := p.pp.pulse.map fun (x : CT × Nat) => (x.1 + d, x.2) }
             ct := { p.ct with capsAt := p.ct.capsAt.map (· + d) } }

/-- Everything held in chassis time moves by the same amount (R88, R90, R138). -/
def State.shiftHeld (s : State) (d : CT) : State :=
  let s := s.shiftSpans d
  let s := { s with
    tt := s.tt.shift d
    time := { s.time with rise := s.time.rise + d, fall := s.time.fall + d,
                          frmRun := s.time.frmRun.map fun (m : Marker) => { m with rise := m.rise + d }
                          frmDone := s.time.frmDone.map fun (m : Marker) => { m with rise := m.rise + d, fall := m.fall + d }
                          lastFrame := s.time.lastFrame.map (· + d) }
    hs := { s.hs with lastSeg := s.hs.lastSeg.map fun f => frameNo (f + d.toNat / 2048) } }
  s.forPorts fun n s => s.modPort n fun p =>
    { p with ct := { p.ct with plan := p.ct.plan.map fun q => { q with first := q.first + d, last := q.last + d } }
             ms := { p.ms with trace := p.ms.trace.shift d } }

/-! ### Ticks -/

/-- CT after a tick, the remaining slew offset and whether 2047 is being held (R98). The superframe number counts on by the
carry out of CT[20:0] (DESIGN CHOICE: R81 counts CT, R89 says the number stays 0 until it is set; log entry 128). -/
def nextCt (t : Time) : CT × BitVec 32 × Bool :=
  let low := t.ct.toNat % 2048
  if t.st = .slew && decide (0 < t.slewOfs.toInt) && low = 2046 then (t.ct + 2, t.slewOfs - 1, false)
  else if t.st = .slew && decide (t.slewOfs.toInt < 0) && low = 2047 && !t.heldTick then (t.ct, t.slewOfs + 1, true)
  else (t.ct + 1, t.slewOfs, false)

/-- One step of a running channel; answers whether it wrapped (R106). -/
def Channel.stepOnce (c : Channel) : Channel × Bool :=
  if c.down then
    if c.count.toNat ≤ 1 then ({ c with count := c.buf, run := c.buf ≠ 0 }, true) else ({ c with count := c.count - 1 }, false)
  else if c.reload ≤ c.count then ({ c with count := 0 }, true)
  else ({ c with count := c.count + 1 }, false)

/-- Steps 2 and 3 of R107 for one channel: `edges` is what its source gives in this edge. A start has no effect on a channel
that runs (R105); a wrap forced by a write comes at this edge also where a value is held (DESIGN CHOICE: R107 holds the
value, R108 wraps at the next tick; log entry 130). -/
def Channel.edge (c : Channel) (edges : Nat) (sf : Bool) : Channel × Bool :=
  let go := c.startSf && sf
  let c := { c with dueM := false, dueW := false, rank := 0, startSf := c.startSf && !sf }
  let fin (c : Channel) (fresh wrapped : Bool) : Channel × Bool :=
    ({ c with dueM := fresh && c.count = c.mtch, dueW := wrapped, edgeCount := c.count, edgeRun := c.run }, wrapped)
  if go && !c.run then fin { c with count := c.phase, run := true, held := false, force := false } true false
  else if !c.run then fin c false false
  else if c.held && !c.force then fin { c with held := false } true false
  else if c.force || edges ≠ 0 then
    let r := c.stepOnce
    let r := if c.force || edges ≤ 1 || !r.1.run then r else let q := r.1.stepOnce; (q.1, q.2 || r.2)
    fin { r.1 with force := false, held := false } true r.2
  else fin c false false

/-- The edges a channel's source gives (R105): tick, frame start, wrap of the channel below, 1 µs. -/
def srcEdges (src : BitVec 2) (frame : Bool) (us : Nat) (below : Bool) : Nat :=
  match src.toNat with
  | 0 => 1
  | 1 => b2n frame
  | 2 => b2n below
  | _ => us

/-- All channels in ascending index; a wrap clocks the next channel in the same edge (R107). -/
def edgeAll (frame sf : Bool) (us : Nat) : List Channel → Bool → List Channel
  | [], _ => []
  | c :: t, below =>
    let r := c.edge (srcEdges c.src frame us below) sf
    r.1 :: edgeAll frame sf us t r.2

theorem edgeAll_length (frame sf : Bool) (us : Nat) (l : List Channel) (b : Bool) :
    (edgeAll frame sf us l b).length = l.length := by
  induction l generalizing b with
  | nil => rfl
  | cons c t ih => simp [edgeAll, ih]

def edgeVec (frame sf : Bool) (us : Nat) (v : Vector Channel 128) : Vector Channel 128 :=
  ⟨(edgeAll frame sf us v.toList false).toArray, by simp [edgeAll_length]⟩

/-- The crystal cycles of a frame in 1/256 cycle: the average of the last 256 locked frames, and the nominal 25 000 before
there are 256, or once the crystal is lost (R92, R95). -/
def Time.frame256 (t : Time) : Nat := if t.xtalOk && t.frames.length = 256 then t.frames.sum else 25000 * 256

/-- What is owed after one more generated tick, 2048 to a frame, in 1/(256 × 2048) cycle of the 200 MHz clock (R95). -/
def Time.owed (t : Time) : Nat := t.genAcc + 8 * t.frame256

/-- A tick edge after so many cycles of the 200 MHz clock, eight to a crystal cycle: the requests of the tick that ends are placed (R132 step 3), then steps 1 to 3 of
R107, the entries whose action has ended, and the ledger (R121, R132). A frame counts as locked where LOCKED held from its
start to its end (R95). The phase counts from the start of the tick, which for a held one is its first edge (R386). -/
def State.tick (s : State) (clk : Nat) : State :=
  let s := s.placeGos.newsEnd.tripsEnd
  let r := nextCt s.time
  let moved := !r.2.2
  let frame := moved && r.1.toNat % 2048 = 0
  let us := s.time.usAcc + clk
  let fx := s.time.frameClk + clk
  let len := s.time.heldClk + clk
  let locked := decide (s.time.st = CtState.locked)
  let s := { s with
    time := { s.time with ct := r.1, slewOfs := r.2.1, heldTick := r.2.2, usAcc := us % 200,
                          frameClk := if frame then fx % 8 else fx, heldClk := if moved then 0 else len,
                          wholeFrame := if frame then locked else s.time.wholeFrame && locked,
                          frames := if frame && locked && s.time.wholeFrame then (fx / 8 :: s.time.frames).take 256
                                    else s.time.frames }
    chan := edgeVec frame (moved && r.1.toNat % 2 ^ 21 = 0) (us / 200) s.chan
    phase := if moved then s.phase - len else s.phase
    tt := s.tt.reap r.1
    loc := { s.loc with cmdFree := true }
    sfHeld := if moved && r.1.toNat % 2 ^ 21 = 0 then some (r.1, s.store.run, s.tt.nlogPend, s.tt.budgetPend) else s.sfHeld
    seqTick := [] }
  s.ledgerClear

/-- FRM at an edge of CAD: a run of high samples begins, grows, or has ended (R82); `rise` is the CT of this edge. -/
def Time.sampleFrm (t : Time) (high : Bool) : Time :=
  match t.frmRun, high with
  | none, false => t
  | none, true => { t with frmRun := some { rise := t.ct, fall := t.ct, width := 1, ofs := t.slewOfs } }
  | some m, true => { t with frmRun := some { m with width := m.width + 1 } }
  | some m, false => { t with frmRun := none, frmDone := some { m with fall := t.ct } }

/-- CAD_TICK: an edge of CAD, which begins a tick where CAD is the tick source, and at which FRM is sampled (R81, R82, R92,
R95, R98, R102-R107, R121, R132). -/
def execCadTick (edge : CadEdge) (s : State) : Host.Outcome State Fault Refusal :=
  .next (if s.sup.hvUp then
    let s := { s with time := { s.time with cadHere := true } }
    let s := if s.fromCad then s.tick edge.clk else s
    let s := { s with time := if s.fromCad then { s.time with genAcc := 0 } else s.time }
    { s with time := s.time.sampleFrm edge.frm }
  else s)

/-- GENERATED_TICK: 2048 to each averaged frame of crystal cycles (R81, R92, R95): it comes `clk` cycles of the 200 MHz clock
after the tick before it, those that are owed. -/
def execGeneratedTick (clk : Nat) (s : State) : Host.Outcome State Fault Refusal :=
  let o := s.time.owed
  .next (if s.sup.hvUp && !s.fromCad && o / 524288 = clk then
    let s := s.tick clk
    { s with time := { s.time with genAcc := o % 524288 } }
  else s)

/-! ### States of chassis time -/

/-- HOLDOVER entered from LOCKED or SLEW (R91). -/
def State.enterHoldover (s : State) (cause : BitVec 4) : State :=
  match s.time.st with
  | .locked | .slew =>
    { s with time := { s.time with st := .holdover, cause := cause, slewOfs := 0, heldTick := false, tickRun := none,
                                   frameRun := none } }.timeEvent
  | _ => s

/-- CAD_ABSENT (R84, R91, R92). -/
def execCadAbsent (s : State) : Host.Outcome State Fault Refusal :=
  .next (if s.sup.hvUp then { s with time := { s.time with cadOk := false, cadHere := false } }.enterHoldover 1 else s)

/-- A frame's crystal count accepted (R84). -/
def cadInside (c : Nat) : Bool := decide (24990 ≤ c) && decide (c ≤ 25010)

/-- CAD_OUT_OF_TOLERANCE: two consecutive frames outside the accepted count (R84, R91). The test does not apply once the
crystal is lost (R92). -/
def execCadOutOfTolerance (c1 c2 : Nat) (s : State) : Host.Outcome State Fault Refusal :=
  .next (if s.sup.hvUp && s.time.xtalOk && !cadInside c1 && !cadInside c2 then
    { s with time := { s.time with cadOk := false } }.enterHoldover 2 else s)

/-- CAD_QUALIFIED: sixteen consecutive frames inside it (R84, R96). -/
def execCadQualified (counts : List Nat) (s : State) : Host.Outcome State Fault Refusal :=
  .next (if s.sup.hvUp && s.time.xtalOk && counts.length = 16 && counts.all cadInside then
    { s with time := { s.time with cadOk := true } } else s)

/-- FRM_ABSENT (R84, R91); it does not apply once the crystal is lost (R92). -/
def execFrmAbsent (s : State) : Host.Outcome State Fault Refusal :=
  .next (if s.sup.hvUp && s.time.xtalOk then s.enterHoldover 5 else s)

/-- CRYSTAL_LOST (R18, R92, R579). TIME_STATE tells of a change of state only (R500). -/
def execCrystalLost (s : State) : Host.Outcome State Fault Refusal :=
  if s.sup.hvUp && s.time.xtalOk then
    let was := s.time.st
    let s := { s with time := { s.time with xtalOk := false, st := .holdover, cause := 4, slewOfs := 0, heldTick := false,
                                            tickRun := none, frameRun := none } }
    let s := if was = .holdover then s else s.timeEvent
    .next (if s.sbUp then s.raiseHealth 6 0xFF 0 0 else s)
  else .next s

/-- SLEW_END: no offset remains (R98). -/
def execSlewEnd (s : State) : Host.Outcome State Fault Refusal :=
  .next (if s.time.st = .slew && s.time.slewOfs = 0 then { s with time := { s.time with st := .locked } }.timeEvent else s)

/-! ### Markers (R83, R86-R88, R97, R614) -/

/-- A run of one nonzero error, continued or begun again; no error ends it (R614). -/
def runOf (old : Option (Nat × Nat)) (e : Nat) : Option (Nat × Nat) :=
  if e = 0 then none
  else match old with
    | some (x, k) => if x = e then some (e, k + 1) else some (e, 1)
    | none => some (e, 1)

def run3 : Option (Nat × Nat) → Bool
  | some (_, k) => decide (3 ≤ k)
  | none => false

def Time.countMismatch (t : Time) : Time := { t with mismatch := if t.mismatch = 0xFF then 0xFF else t.mismatch + 1 }

/-- The capture of a completed marker (R86, R87). -/
def Time.capture (t : Time) (m : Marker) (kind : BitVec 2) : Time :=
  { t with rise := m.rise, fall := m.fall, capOvr := t.capOvr || t.capValid, capValid := true, capKind := kind,
           capWidth := BitVec.ofNat 8 (min 255 (m.fall - m.rise).toNat) }

/-- CT[47:21] as alignment leaves it: 0 until an epoch has been set (R89). -/
def Time.epoch (t : Time) : Nat := if t.epochSet then t.ct.toNat / 2 ^ 21 else 0

/-- ACQUIRE: CT[10:0] aligned at two frame markers 2048 tk apart, CT[20:11] at the first superframe marker after that,
with every held value moved by the same amount (R88, the state table); an epoch that a host has set stays (R89). DESIGN
CHOICE: R614 does not say whether a marker disagrees before its alignment; none is counted before FRAME_LOCK, and between
FRAME_LOCK and SF_LOCK only a tick error counts, so that the frame error that the aligning marker takes away is not one (log
entry 150). -/
def State.acquireMarker (s : State) (rise : CT) (superframe : Bool) : State :=
  let t := s.time
  if !t.frameLock then
    if superframe then s
    else if t.cadOk && t.lastFrame.any fun r => rise - r = 2048 then
      let ct := t.epoch * 2 ^ 21 + t.ct.toNat / 2048 % 1024 * 2048 + (t.ct - rise).toNat % 2048
      let s := s.shiftSpans (BitVec.ofNat 48 ct - t.ct)
      { s with time := { t with ct := BitVec.ofNat 48 ct, frameLock := true, lastFrame := none } }
    else { s with time := { t with lastFrame := some rise } }
  else if superframe then
    if rise.toNat % 2048 = 0 then
      let ct : CT := BitVec.ofNat 48 (t.epoch * 2 ^ 21 + (t.ct - rise).toNat % 2 ^ 21)
      let s := s.shiftHeld (ct - t.ct)
      { s with time := { s.time with ct := ct, sfLock := true, st := .locked } }.timeEvent
    else { s with time := t.countMismatch }
  else if rise.toNat % 2048 = 0 then s
  else { s with time := t.countMismatch }

/-- A valid marker outside ACQUIRE: judged against the CT of its rise plus the offset that remained then; a phase change
enters HOLDOVER; the first superframe marker after CAD has qualified ends it (R91, R97, R98, R614). -/
def State.judgeMarker (s : State) (rise : CT) (ofs : BitVec 32) (superframe : Bool) : State :=
  let t := s.time
  let at' := (rise + ofs.signExtend 48).toNat
  let te := (2048 - at' % 2048) % 2048
  let fe := if superframe && te = 0 then (1024 - at' / 2048 % 1024) % 1024 else 0
  let t := if te ≠ 0 || fe ≠ 0 then t.countMismatch else t
  if t.st = .holdover then
    if superframe && t.cadOk && t.cause ≠ 4 then
      let off := (BitVec.ofNat 21 (2 ^ 21 - rise.toNat % 2 ^ 21)).signExtend 32
      { s with time := { t with st := if off = 0 then .locked else .slew, slewOfs := off, tickRun := none,
                                frameRun := none } }.timeEvent
    else { s with time := t }
  else
    let tr := runOf t.tickRun te
    let fr := if te ≠ 0 then none else if superframe then runOf t.frameRun fe else t.frameRun
    let s := { s with time := { t with tickRun := tr, frameRun := fr } }
    if run3 tr || run3 fr then s.enterHoldover 3 else s

/-- FRM_MARKER: the run of high samples that has ended, named by its rise and width (R83, R86-R88, R97, R614). -/
def execFrmMarker (rise : CT) (width : Nat) (s : State) : Host.Outcome State Fault Refusal :=
  .next (match s.time.frmDone with
  | none => s
  | some m =>
    if m.rise ≠ rise || m.width ≠ width then s else
    let kind : BitVec 2 := if m.width = 1 then 0 else if m.width = 3 then 1 else 2
    let s := { s with time := { s.time with frmDone := none }.capture m kind }
    if kind = 2 then { s with time := s.time.countMismatch }
    else if s.time.st = .acquire then s.acquireMarker m.rise (kind = 1)
    else s.judgeMarker m.rise m.ofs (kind = 1))

/-- FRM_CAP as read, and the read: it clears VALID (R86). -/
def State.frmCap (s : State) : Word :=
  flag s.time.capValid 31 ||| flag s.time.capOvr 30 ||| fld s.time.capKind.toNat 28 ||| fld s.time.capWidth.toNat 0

def execFrmCapRead (s : State) : Host.Outcome State Fault Refusal :=
  .next { s with time := { s.time with capValid := false } }

/-! ### SLOT pins (R46, R47, R113) -/

/-- SLOT_ID at or above N, reported (R113, R501). N is the active one, at a first start that of TT_CFG's reset until the
Palette's becomes active (DESIGN CHOICE; log entry 131). -/
def State.slotCheck (s : State) : State :=
  match s.sup.slotId with
  | some v => if s.sbUp && decide (2 ^ s.tt.nlog.toNat ≤ v.toNat) && !bit s.health.active 2
    then s.raiseHealth 2 0xFF v.toNat (2 ^ s.tt.nlog.toNat) else s
  | none => s

/-- SLOT_LATCH: sixteen consecutive samples agree (R46). -/
def execSlotLatch (samples : List (BitVec 6)) (s : State) : Host.Outcome State Fault Refusal :=
  match samples with
  | v :: t => .next (if s.sup.hvUp && s.sup.slotId.isNone && t.length = 15 && t.all (· = v) then
      { s with sup := { s.sup with slotId := some v, slotPins := some v } }.slotCheck else s)
  | [] => .next s

/-- Each change of the SLOT pins reported, once, when the logic die runs (R47). -/
def State.slotReport (s : State) : State :=
  if s.sbUp && !s.sup.linkSilent then
    s.sup.slotChanged.foldl (fun s v => s.raiseHealth 1 0xFF v.toNat 0) { s with sup := { s.sup with slotChanged := [] } }
  else s

/-- SLOT_CHANGE: a level held for sixteen samples, other than the one held before (R47). -/
def execSlotChange (value : BitVec 6) (s : State) : Host.Outcome State Fault Refusal :=
  .next (if s.sup.slotId.isSome && s.sup.slotPins ≠ some value then
    { s with sup := { s.sup with slotPins := some value, slotChanged := s.sup.slotChanged ++ [value] } }.slotReport else s)

/-! ### Counter channels (R104-R109) -/

/-- The core that owns a channel (R104). -/
def chanOwner (ch : Fin 128) : CoreId :=
  if h : ch.val < 96 then coreOf (platOf ⟨ch.val / 4, by omega⟩)
  else if h : ch.val < 112 then coreOf ⟨(ch.val - 96) / 4, by omega⟩
  else coreSB

/-- Channels in one owner's set (R104, R105): those of one Platform's core, or core SB's. -/
def sameOwner (a b : Fin 128) : Bool := chanOwner a = chanOwner b

/-- An action that reaches a channel in an edge: 1 start, 2 restart, 3 stop; the higher governs (R105, R107). -/
def Channel.act (c : Channel) (r : Nat) : Channel :=
  if r ≤ c.rank then c
  else if r = 3 then { c with run := false, count := c.edgeCount, held := false, force := false, rank := 3 }
  else if r = 2 then { c with run := true, count := c.phase, held := true, force := false, rank := 2 }
  else if c.edgeRun then { c with rank := 1 }
  else { c with run := true, count := c.phase, held := true, force := false, rank := 1 }

/-- The action of a match or wrap (R105). -/
def State.chanAction (s : State) (ch : Fin 128) (code : BitVec 3) : State :=
  let c := s.chan[ch]
  let link : Fin 128 := ⟨c.link.toNat, by have := c.link.isLt; omega⟩
  let onLink (r : Nat) : State := if sameOwner ch link then s.modChan link fun x => x.act r else s
  match code.toNat with
  | 1 => s.modChan ch fun x => x.act 3
  | 2 => s.modChan ch fun x => x.act 2
  | 3 => onLink 1
  | 4 => onLink 3
  | 5 => onLink 2
  | _ => s

/-- CHANNEL_WRAP: the flag and the wrap action (R105-R108). -/
def execChannelWrap (ch : Fin 128) (s : State) : Host.Outcome State Fault Refusal :=
  if s.chan[ch].dueW then
    let s := s.modChan ch fun c => { c with dueW := false, wflag := true }
    .next (s.chanAction ch s.chan[ch].actW)
  else .next s

/-- A channel as R109 programs it for an activity of period `p` tk of port `n`; it starts at a superframe start. -/
def Channel.stagger (c : Channel) (p n : Nat) : Channel :=
  { c with down := false, src := 0, reload := BitVec.ofNat 32 (p - 1), mtch := 0,
           phase := BitVec.ofNat 32 ((p - n * p / 24) % p), startSf := true }

/-- Channel CH(4n + j). -/
def portChan (n : PortId) (j : Fin 4) : Fin 128 := ⟨4 * n.val + j.val, by omega⟩

/-- The periods of a port's channels, tk: DRP toggle (R216), calibration (R245), trace cut (R382). -/
def drpPeriod : Nat := 153600
def calPeriod (ppCfg : Word) : Nat := bits ppCfg 31 28 * 102400
def cutPeriod (trCfg : Word) : Nat := 16 * 2 ^ bits trCfg 19 17

/-- A channel that is not programmed yet is (R109, R110). -/
def State.program (s : State) (ch : Fin 128) (p n : Nat) : State :=
  s.modChan ch fun c => if c.run || c.startSf || p = 0 then c else c.stagger p n

/-- The policy channels CH(96 + 4k) to CH(99 + 4k) of a Platform core, with SRC 1 µs (R104, R288; log entry 144). -/
def State.programPolicy (s : State) (k : PlatId) : State :=
  (List.finRange 4).foldl (fun (s : State) (j : Fin 4) =>
    s.modChan ⟨96 + 4 * k.val + j.val, by omega⟩ fun c => if c.run then c else { c with src := 3 }) s

/-- The activities of a port, programmed by its core: the staggered ones and the policy channels. -/
def State.programPort (s : State) (n : PortId) : State :=
  (((s.programPolicy (platOf n)).program (portChan n 0) drpPeriod n.val).program (portChan n 1) (calPeriod (s.ppCfg n)) n.val).program
    (portChan n 2) (cutPeriod s.port[n].ms.trace.cfg) n.val

/-- Writes that leave a running channel beyond its end make it wrap at the next tick (R108). -/
def Channel.afterWrite (c : Channel) : Channel :=
  { c with force := c.run && if c.down then c.count = 0 else decide (c.reload < c.count) }

/-- CHn_CTRL (R105). -/
def Channel.ctrl (c : Channel) : Word :=
  flag c.run 31 ||| flag c.down 30 ||| fld c.src.toNat 28 ||| flag c.startSf 27 ||| fld c.actM.toNat 24 |||
  fld c.actW.toNat 20 ||| flag c.mflag 17 ||| flag c.wflag 16 ||| fld c.link.toNat 8

/-- A write of CHn_CTRL: RUN starts a stopped channel with COUNT ← PHASE; the flags are cleared by writing 1 (R105). -/
def Channel.writeCtrl (c : Channel) (v : Word) : Channel :=
  let go := bit v 31
  ({ c with run := go, count := if go && !c.run then c.phase else c.count, held := c.held && go, down := bit v 30,
            src := BitVec.ofNat 2 (bits v 29 28), startSf := bit v 27, actM := BitVec.ofNat 3 (bits v 26 24),
            actW := BitVec.ofNat 3 (bits v 22 20), mflag := c.mflag && !bit v 17, wflag := c.wflag && !bit v 16,
            link := BitVec.ofNat 7 (bits v 14 8) } : Channel).afterWrite

/-- CHN_CTRL_WRITE by the owning core (R104, R105, R108, R109). -/
def execChnCtrlWrite (core : CoreId) (ch : Fin 128) (value : Word) (s : State) : Host.Outcome State Fault Refusal :=
  .next (if chanOwner ch = core then s.modChan ch fun c => c.writeCtrl value else s)

/-! ### Registers that a core writes (R7, R8, R86, R93, R104, R143, R526) -/

/-- MISMATCH_CNT cleared by writing 1 to any of its bits (R93); OVR of FRM_CAP by writing 1 (R86). -/
def State.w1cTime (s : State) (v : Word) : State :=
  if bits v 23 16 ≠ 0 then { s with time := { s.time with mismatch := 0 } } else s
def State.w1cCap (s : State) (v : Word) : State :=
  if bit v 30 then { s with time := { s.time with capOvr := false } } else s

def State.modReq (s : State) (c : CoreId) (f : TtReq → TtReq) : State :=
  { s with tt := { s.tt with req := s.tt.req.set c (f s.tt.req[c]) } }

/-- REGISTER_WRITE: a channel's registers by its owner, a core's own request set and event register, TIME_STAT and FRM_CAP
by core SB. Reserved bits keep reading 0. CHn_COUNT is written by no core (DESIGN CHOICE: R104 gives it no access; log
entry 129). -/
def execRegisterWrite (core : CoreId) (r : CoreReg) (value : Word) (s : State) : Host.Outcome State Fault Refusal :=
  let own (ch : Fin 128) (f : Channel → Channel) : State :=
    if chanOwner ch = core then s.modChan ch fun c => (f c).afterWrite else s
  .next (match r with
    | .chReload ch => own ch fun c => { c with reload := value }
    | .chBuf ch => own ch fun c => { c with buf := value }
    | .chMatch ch => own ch fun c => { c with mtch := value }
    | .chPhase ch => own ch fun c => { c with phase := value }
    | .ttReqA => s.modReq core fun q => { q with a := value &&& 0xFF8007FF }
    | .ttReqB => s.modReq core fun q => { q with b := value }
    | .ttReqC => s.modReq core fun q => { q with c := value &&& 0x8000FFFF }
    | .ttReqD => s.modReq core fun q => { q with d := value &&& 0xFFFF0FFF }
    | .timeStat => if core = coreSB then s.w1cTime value else s
    | .frmCap => if core = coreSB then s.w1cCap value else s
    | .eventReg => s.modCore core fun c => { c with event := value, sleeping := c.sleeping && value = 0 })

end Sys2Proof.Machine
end

