-- ==== Sys2Proof/Machine/Gcm.lean ====
section
/-! DEFINITION. AES-256-GCM decryption, the standard of firmware images (R568, R570, R572; chapter 00 names it). The manual leaves
the algorithm to that standard: what stands here is PRESUMED from FIPS 197 and SP 800-38D (log entry 9). -/
namespace Sys2Proof.Machine

/-! ### The field of AES -/

def aesDouble (x : Byte) : Byte := (x <<< 1) ^^^ (if x.getLsbD 7 then 0x1B else 0)

/-- The product of two bytes, over the low `k` bits of the second. -/
def aesMul : Nat → Byte → Byte → Byte
  | 0, _, _ => 0
  | k + 1, a, b => (if b.getLsbD 0 then a else 0) ^^^ aesMul k (aesDouble a) (b >>> 1)

def aesTimes (a b : Byte) : Byte := aesMul 8 a b

/-- The inverse, x²⁵⁴; that of 0 is 0. -/
def aesInv (x : Byte) : Byte :=
  let x2 := aesTimes x x
  let x3 := aesTimes x2 x
  let x6 := aesTimes x3 x3
  let x12 := aesTimes x6 x6
  let x15 := aesTimes x12 x3
  let x30 := aesTimes x15 x15
  let x60 := aesTimes x30 x30
  let x120 := aesTimes x60 x60
  let x240 := aesTimes x120 x120
  aesTimes (aesTimes x240 x12) x2

def aesSub (x : Byte) : Byte :=
  let b := aesInv x
  b ^^^ b.rotateLeft 1 ^^^ b.rotateLeft 2 ^^^ b.rotateLeft 3 ^^^ b.rotateLeft 4 ^^^ 0x63

/-! ### The block cipher -/

def xorBytes (a b : List Byte) : List Byte := List.zipWith (· ^^^ ·) a b

/-- One more word of the key schedule; `i` is its number, and the words before it stand newest first. -/
def keyWord (i : Nat) (rcon : Byte) (ws : List (List Byte)) : List Byte :=
  let last := ws.headD []
  let t := if i % 8 = 0 then xorBytes ((last.drop 1 ++ last.take 1).map aesSub) [rcon, 0, 0, 0]
    else if i % 8 = 4 then last.map aesSub else last
  xorBytes (ws.getD 7 []) t

def keyWords : Nat → Nat → Byte → List (List Byte) → List (List Byte)
  | 0, _, _, ws => ws
  | k + 1, i, rcon, ws => keyWords k (i + 1) (if i % 8 = 0 then aesDouble rcon else rcon) (keyWord i rcon ws :: ws)

/-- Pieces of a list, of so many entries each. -/
def pieces (n : Nat) : Nat → List Byte → List (List Byte)
  | 0, _ => []
  | k + 1, l => l.take n :: pieces n k (l.drop n)

/-- The fifteen round keys of a key of 32 bytes. -/
def roundKeys (key : List Byte) : List (List Byte) :=
  pieces 16 15 (keyWords 52 8 1 (pieces 4 8 key).reverse).reverse.flatten

def shiftRows (b : List Byte) : List Byte :=
  (List.range 16).map fun i => b.getD ((i + 4 * (i % 4)) % 16) 0

def mixColumn (c : List Byte) : List Byte :=
  (List.range 4).map fun i =>
    aesDouble (c.getD i 0) ^^^ (aesDouble (c.getD ((i + 1) % 4) 0) ^^^ c.getD ((i + 1) % 4) 0) ^^^
      c.getD ((i + 2) % 4) 0 ^^^ c.getD ((i + 3) % 4) 0

def aesRounds : List (List Byte) → List Byte → List Byte
  | [], b => b
  | [k], b => xorBytes (shiftRows (b.map aesSub)) k
  | k :: ks, b => aesRounds ks (xorBytes ((pieces 4 4 (shiftRows (b.map aesSub))).flatMap mixColumn) k)

/-- One block under the round keys. -/
def aesBlock (ks : List (List Byte)) (b : List Byte) : List Byte := aesRounds ks.tail (xorBytes b (ks.headD []))

/-! ### GCM -/

/-- Bytes as a block of 128 bits, the first byte highest. -/
def toBlock (bs : List Byte) : BitVec 128 := bs.foldl (fun a b => (a <<< 8) ||| b.setWidth 128) 0

def ghashMul : Nat → BitVec 128 → BitVec 128 → BitVec 128
  | 0, _, _ => 0
  | k + 1, x, v =>
    (if x.getMsbD 0 then v else 0) ^^^
      ghashMul k (x <<< 1) ((v >>> 1) ^^^ (if v.getLsbD 0 then 0xE1000000000000000000000000000000 else 0))

/-- The blocks of a list of bytes, the last filled with zeros. -/
def blocksOf (bs : List Byte) : List (List Byte) :=
  (pieces 16 ((bs.length + 15) / 16) bs).map fun b => b ++ List.replicate (16 - b.length) 0

/-- The hash of the additional data and the ciphertext under a key. -/
def ghash (h : BitVec 128) (aad cipher : List Byte) : BitVec 128 :=
  let len (n : Nat) : List Byte := (leBytes 8 (8 * n)).reverse
  (blocksOf aad ++ blocksOf cipher ++ [len aad.length ++ len cipher.length]).foldl
    (fun y b => ghashMul 128 (y ^^^ toBlock b) h) 0

/-- The ciphertext under the counter blocks from `n` on. -/
def gcmCtr (ks : List (List Byte)) (iv : List Byte) : Nat → List (List Byte) → List Byte
  | _, [] => []
  | n, b :: t => xorBytes b (aesBlock ks (iv ++ (leBytes 4 n).reverse)) ++ gcmCtr ks iv (n + 1) t

/-- Decryption with an initialisation vector of 12 bytes: the plaintext, where the tag verifies. -/
def gcmDecrypt (key : BitVec 256) (iv aad cipher tag : List Byte) : Option (List Byte) :=
  let ks := roundKeys (leBytes 32 key.toNat).reverse
  let h := toBlock (aesBlock ks (List.replicate 16 0))
  let t := ghash h aad cipher ^^^ toBlock (aesBlock ks (iv ++ [0, 0, 0, 1]))
  if tag.length = 16 && t = toBlock tag then some (gcmCtr ks iv 2 (pieces 16 ((cipher.length + 15) / 16) cipher)) else none

end Sys2Proof.Machine
end

