-- ==== Sys2Proof/Machine/StoreOps.lean ====
section
/-! DEFINITION. What several families ask of the store: the hardware save path and its record (R556, R557, R586), pages
and the copies (R547, R550, R551). -/
namespace Sys2Proof.Machine

/-! ### Lifetime counters (R586) -/

def sat32 (n : Nat) : Nat := min (2 ^ 32 - 1) n

/-- Two halves of a slot, bytes 0 to 3 first. -/
def slot64 (lo hi : Nat) : BitVec 64 := BitVec.ofNat 64 (lo % 2 ^ 32 + 2 ^ 32 * hi)

def temp16 : Option Int → Nat
  | none => 0x8000
  | some t => (BitVec.ofInt 16 (max (-32767) (min 32767 t))).toNat

def ofTemp16 (x : BitVec 16) : Option Int := if x = 0x8000 then none else some x.toInt

/-- Sample instants in a second (R372). -/
def samplesPerSecond : Nat := 5000000

/-- The three slots of a port. -/
def portSlots (m : Measure) : List (BitVec 64) :=
  [slot64 (sat32 m.attaches) (sat32 m.tripsLife),
   slot64 (sat32 (m.closedSamples / samplesPerSecond)) (sat32 m.hardResets),
   slot64 (sat32 m.swaps) (temp16 m.tMax + 65536 * m.tests.toNat)]

/-- Slots 121 to 126. -/
def State.stationSlots (s : State) : List (BitVec 64) :=
  let h := s.health
  [slot64 (sat32 ((h.powered + s.sidx) / samplesPerSecond)) (sat32 h.insertions),
   slot64 (sat32 h.warns) (sat32 h.alloffs),
   slot64 (sat32 h.cold) (sat32 h.warm),
   slot64 (sat32 h.sbDogs) (leNat (h.pcDogs.toList.map fun k => BitVec.ofNat 8 (min 255 k))),
   slot64 (sat32 (h.sinceScrub / samplesPerSecond)) h.retired.toNat,
   slot64 (temp16 h.tHv + 65536 * temp16 h.tLogic) (sat32 h.life)]

/-- The 127 slots a save latches (R556). -/
def State.saveSlots (s : State) : List (BitVec 64) :=
  (allPorts.map fun n => [s.port[n].ms.src, s.port[n].ms.snk]).flatten ++
  [(s.ssn - 1 + 0x100000).zeroExtend 64] ++ (allPorts.map fun n => portSlots s.port[n].ms).flatten ++ s.stationSlots

/-! ### The save path (R557) -/

/-- The newest valid record of the ring, by SAVE_NO (R558). -/
def newestRecord (r : Vector (Option Record) 16) : Option Record :=
  r.toList.foldl (fun best x => match best, x with
    | some b, some y => if newer y.saveNo b.saveNo then some y else best
    | none, y => y
    | x, none => x) none

/-- The bytes of a record: its slots, SAVE_NO and the CRC over both. -/
def recordBytes (r : Record) : List Byte :=
  let body := (r.slots.map fun x => leBytes 8 x.toNat).flatten ++ leBytes 4 r.saveNo.toNat
  body ++ leBytes 4 (crc32c body).toNat

/-- Save-path pages have no second attempt, and their bytes are those of the record latched. -/
def savePages (r : Record) (at' : Fin 16) : List PageReq :=
  (List.range 4).map fun k =>
    { job := .save, page := 64 + 4 * at'.val + k,
      data := .bytes (Mem.write zeroByte [] 0 (((recordBytes r).drop (256 * k)).take 256)), retried := false, cmd := none,
      final := false }

/-- Every value of the record latched in one tick, and its pages asked for ahead of every other program; the open Log page
follows them. -/
def State.latchSave (s : State) : State :=
  let no : Word := match newestRecord s.store.ring with
    | some r => r.saveNo + 1
    | none => 1
  let r : Record := { saveNo := no, slots := s.saveSlots, pages := 0 }
  let q := s.store.queue.filter fun x => x.job ≠ .save
  { s with
    sup := { s.sup with retainedKept := true }
    store := { s.store with saving := some r, saveAgain := false, ssnLatch := s.ssn - 1,
                            queue := savePages r s.store.ringAt ++ q } }

/-- A save starts again with a new latch into the next record. A record whose four pages are committed has moved the place
on already. -/
def State.nextRecord (s : State) (r : Record) : State :=
  { s with store := { s.store with ringAt := if r.pages = 4 then s.store.ringAt else s.store.ringAt + 1 } }.latchSave

/-- A trigger of the save path. Any page in progress ends first (R65, R565); while a save runs a trigger is ignored, but
WARN_N makes the save start again after its page in progress (R557). -/
def State.startSave (s : State) (warn : Bool) : State :=
  match s.store.saving with
  | none => if s.store.prog.isSome then { s with store := { s.store with saveAgain := true } } else s.latchSave
  | some r =>
    if !warn then s
    else if s.store.prog.isSome then { s with store := { s.store with saveAgain := true } }
    else s.nextRecord r

/-! ### Pages (R539, R540) -/

/-- What a page is counted by; absent is 0. -/
def countOf (l : List (Nat × Nat)) (page : Nat) : Nat :=
  match l.find? fun x => x.1 = page with
  | some x => x.2
  | none => 0
def setCount (l : List (Nat × Nat)) (page n : Nat) : List (Nat × Nat) := (page, n) :: l.filter fun x => x.1 ≠ page

/-- A page whose marker is older than its latest program: that program did not come to its end. -/
def Store.cutPage (st : Store) (page : Nat) : Bool := countOf st.gens page ≠ countOf st.marks page

/-- A page is torn: its marker is older, or reads uncorrectable. -/
def Store.torn (st : Store) (page : Nat) : Bool := st.cutPage page || st.bad.any fun x => x.1 = page && x.2 = 32

/-- A group of a page, not its marker, reads uncorrectable. -/
def Store.badData (st : Store) (page : Nat) : Bool := st.bad.any fun x => x.1 = page && x.2 ≠ 32

/-- The groups of a list that lie in a range of bytes of a page. -/
def groupsIn (l : List (Nat × Fin 33)) (page off k : Nat) : List (Nat × Fin 33) :=
  l.filter fun x => x.1 = page && x.2 ≠ 32 && decide (8 * x.2.val < off + k) && decide (off < 8 * x.2.val + 8)

/-- The groups of a list that lie in a range of bytes of the User region. -/
def groupsOver (l : List (Nat × Fin 33)) (off k : Nat) : List (Nat × Fin 33) :=
  l.filter fun x => x.2 ≠ 32 && decide (256 ≤ x.1) && decide (x.1 < 512) &&
    decide (256 * (x.1 - 256) + 8 * x.2.val < off + k) && decide (off < 256 * (x.1 - 256) + 8 * x.2.val + 8)

/-- Pages of the User region a range touches, as store pages. -/
def userRange (off k : Nat) : List Nat := (List.range 256).map (· + 256) |>.filter fun pg =>
  decide (off < 256 * (pg - 255)) && decide (256 * (pg - 256) < off + k)

def PageReq.bytes (r : PageReq) : Mem :=
  match r.data with
  | .bytes m => m
  | _ => []

/-- Bytes laid over others from an offset. -/
def overlay (old : List Byte) (off : Nat) (new : List Byte) : List Byte :=
  old.take off ++ new ++ old.drop (off + new.length)

/-- The page programs of a write to the User region, in ascending order; the last is the command's (R541). -/
def userPages (cmd : Option CmdRef) : Nat → Nat → List Byte → List PageReq
  | 0, _, _ => []
  | fuel + 1, off, bs =>
    let room := 256 - off % 256
    let page := 256 + off / 256
    let here := bs.take room
    let r : PageReq := { job := .user, page := page, data := .patch (off % 256) here, retried := false, cmd := cmd,
                         final := decide (bs.length ≤ room) }
    if bs.length ≤ room then [r] else r :: userPages cmd fuel (off + room) (bs.drop room)

/-- Program counts (R540, R566). -/
def countCycle (l : List (Nat × Nat)) (page : Nat) : List (Nat × Nat) := setCount l page (countOf l page + 1)

/-- The worst page and its count; WEAR is a whole percentage of 100 000 cycles (R566). -/
def worstPage (l : List (Nat × Nat)) : Nat × Nat := l.foldl (fun b x => if b.2 < x.2 then x else b) (0, 0)
def wearPercent (l : List (Nat × Nat)) : Nat := (worstPage l).2 / 1000

/-! ### Pages that fail (R540, R544, R564) -/

/-- A page is lost: the record or Log page it belongs to does not count. -/
def Store.spoil (st : Store) (page : Nat) : Store :=
  { st with
    ring := Vector.ofFn fun i => if 64 + 4 * i.val ≤ page && decide (page < 68 + 4 * i.val) then none else st.ring[i]
    log := st.log.filter fun x => x.1 ≠ page }

/-- PROT and generation as a control page's bytes give them (R563): PROT first, then the generation. -/
def protOf (bytes : Mem) : Nat × Word := (leNat (Mem.read zeroByte bytes 0 1) % 4, Mem.word zeroByte bytes 4)

/-- A program that does not come to its end: the page's marker is older. The group of a control page reads its old value, its
new one or uncorrectable; what the groups of any other torn page read is never shown (R554, R558, R560, R561, R564). -/
def Store.tear (st : Store) (r : PageReq) (k : Nat) : Store :=
  let st := { (st.spoil r.page) with gens := setCount st.gens r.page (countOf st.gens r.page + 1) }
  let g (old : Option (Nat × Word)) : Option (Nat × Word) :=
    match (Config.tornGroup k).val with
    | 0 => old
    | 1 => some (protOf r.bytes)
    | _ => none
  { st with prot0 := if r.page = 512 then g st.prot0 else st.prot0
            prot1 := if r.page = 513 then g st.prot1 else st.prot1 }

/-- The block protection in force (R562, R563). -/
def protNow (st : Store) : Nat :=
  let t0 := st.torn 512
  let t1 := st.torn 513
  let v0 := (st.prot0.map Prod.fst).getD 3
  let v1 := (st.prot1.map Prod.fst).getD 3
  if t0 && t1 then 3
  else if t0 || t1 then max v0 v1
  else match st.prot0, st.prot1 with
    | some a, some b => if newer a.2 b.2 then a.1 else if newer b.2 a.2 then b.1 else max a.1 b.1
    | _, _ => max v0 v1

/-! ### The copies (R547, R550) -/

def Copy.bytes (c : Copy) : List Byte := Mem.read zeroByte c.mem 0 8192
def Copy.magic (c : Copy) : Bool := decide (leNat (Mem.read zeroByte c.mem 0 2) = 0x5041)
def Copy.fmt (c : Copy) : Nat := leNat (Mem.read zeroByte c.mem 2 2)
def Copy.seq (c : Copy) : Word := Mem.word zeroByte c.mem 4
def Copy.crcOk (c : Copy) : Bool := decide (crc32c (Mem.read zeroByte c.mem 0 0x1FFC) = Mem.word zeroByte c.mem 0x1FFC)

/-- First page of a copy. -/
def copyPage (i : Fin 2) : Nat := 32 * i.val

/-- A copy is valid (R550). A page of it that was cut short makes its CRC fail (R564). -/
def Store.copyOk (st : Store) (i : Fin 2) : Bool :=
  let c := if i = 0 then st.copyA else st.copyB
  c.magic && c.crcOk && (List.range 32).all fun k => !st.cutPage (copyPage i + k) && !st.badData (copyPage i + k)

/-- The active copy: 0 A, 1 B (R550). One that a commit ended by STORE_FAULT has left complete waits for a recall (R551,
R565). -/
def activeCopy (st : Store) : Option (Fin 2) :=
  match st.copyOk 0 && st.late ≠ some true, st.copyOk 1 && st.late ≠ some false with
  | true, true => if newer st.copyB.seq st.copyA.seq then some 1 else some 0
  | true, false => some 0
  | false, true => some 1
  | false, false => none

def copyOf (st : Store) (i : Fin 2) : Copy := if i = 0 then st.copyA else st.copyB

/-- A page of the active copy. -/
def Store.inActive (st : Store) (page : Nat) : Bool :=
  match activeCopy st with
  | some i => decide (page / 32 = i.val)
  | none => false

/-- The running configuration a copy gives: its words, with bits that are not RW read as 0 (R547, R554). -/
def Copy.cfg (c : Copy) : Mem := Mem.write cfgDefault [] 0x20 (Mem.read zeroByte c.mem 0x20 0x1060)

/-! ### Image headers (R568) -/

def State.bank (s : State) : Bank → ImageBank
  | .a => s.bankA
  | .b => s.bankB

def State.setBank (s : State) (b : Bank) (f : ImageBank → ImageBank) : State :=
  match b with
  | .a => { s with bankA := f s.bankA }
  | .b => { s with bankB := f s.bankB }

def Bank.code : Bank → Nat
  | .a => 0
  | .b => 1

def Bank.other : Bank → Bank
  | .a => .b
  | .b => .a

def ImageBank.hdr (b : ImageBank) (off k : Nat) : Nat := leNat (Mem.read zeroByte b.mem off k)
def ImageBank.version (b : ImageBank) : Nat := b.hdr 4 4
def ImageBank.arbLevel (b : ImageBank) : Nat := b.hdr 8 4
def ImageBank.fmtMin (b : ImageBank) : Nat := b.hdr 12 2
def ImageBank.fmtMax (b : ImageBank) : Nat := b.hdr 14 2

/-- The image running, and the format numbers it understands (R554). -/
def State.running (s : State) : ImageBank := s.bank (s.sup.runBank.getD .a)

/-! ### Commits (R551) -/

/-- The 8 KiB of a new copy: header, configuration and CRC. -/
def copyBytes (fmt : Nat) (seq : Word) (cfg : Mem) : List Byte :=
  let body := leBytes 2 0x5041 ++ leBytes 2 fmt ++ leBytes 4 seq.toNat ++ List.replicate 24 0 ++
    Mem.read cfgDefault cfg 0x20 0x1FDC
  body ++ leBytes 4 (crc32c body).toNat

/-- Step 1 and 2: the copy is built and its pages handed to the controller; the inactive copy takes it. -/
def State.startCommit (s : State) (cfg : Mem) (cmd : Option CmdRef) (w1c : List (BitVec 16 × Word)) : State :=
  let act := activeCopy s.store
  let seq : Word := match act with
    | some i => (copyOf s.store i).seq + 1
    | none => 1
  let toA := act ≠ some 0
  let bs := copyBytes s.running.fmtMax seq cfg
  let pages : List PageReq := (List.range 32).map fun k =>
    { job := .commit, page := (if toA then 0 else 32) + k,
      data := .bytes (Mem.write zeroByte [] 0 ((bs.drop (256 * k)).take 256)), retried := false, cmd := cmd,
      final := decide (k = 31) }
  { s with store := { s.store with commit := some { cfg := cfg, seq := seq, toA := toA, cmd := cmd, w1c := w1c, landed := none },
                                   late := none, queue := s.store.queue ++ pages } }

/-! ### Recall after an uncorrectable read (R553, R555, R565) -/

/-- RECALL (R500). -/
def State.recallEvent (s : State) (copy reset : Nat) (seq : Word) : State :=
  s.emitSt 0x0480 (leBytes 1 copy ++ leBytes 1 reset ++ [0, 0] ++ leBytes 4 seq.toNat)

def copyCode : Option (Fin 2) → Nat
  | some i => i.val
  | none => 0xFF

def activeSeq (st : Store) : Word :=
  match activeCopy st with
  | some i => (copyOf st i).seq
  | none => 0

/-- The recall: both copies are judged, and the running configuration is committed. -/
def State.recallAct (s : State) : State :=
  let s := { s with store := { s.store with recallDue := false, late := none } }
  (s.recallEvent (copyCode (activeCopy s.store)) 0 (activeSeq s.store)).startCommit s.store.run none []

/-- A commit has ended, and with it a recall whose configuration it was; a recall that waited for its pages follows (R565). -/
def State.afterCommit (s : State) : State :=
  let s := { s with store := { s.store with recalling := s.store.recalling && s.store.recallDue } }
  if s.store.recallDue then s.recallAct else s

/-- A read of the active copy has met a group that cannot be read. -/
def State.recallBegin (s : State) : State :=
  let s := { s with store := { s.store with recalling := true, recallDue := true } }
  if s.store.commit.isSome then s else s.recallAct

end Sys2Proof.Machine
end

