-- ==== Sys2Proof/Machine/Verify.lean ====
section
/-! DEFINITION. The checks of a firmware image, the selection stamp and the anti-rollback level (chapter 21). -/
namespace Sys2Proof.Machine

/-- The anti-rollback level: consecutive blown fuses from the first (R574). -/
def arbSealedOf (x : BitVec 64) : Nat → Nat → Nat
  | 0, i => i
  | fuel + 1, i => if x.getLsbD i then arbSealedOf x fuel (i + 1) else i
def State.arbSealed (s : State) : Nat := arbSealedOf s.fuse.arb 64 0

/-! ### Verification (R568, R569, R572) -/

/-- Segment lengths of a decrypted body: SB code, SB data, PC code, PC data. -/
def segLens (body : List Byte) : Nat × Nat × Nat × Nat := (le32 body 0, le32 body 4, le32 body 8, le32 body 12)

def ImageBank.bodyLen (b : ImageBank) : Nat := b.hdr 16 4

/-- Check 1: MAGIC, HFMT, BODY_LEN and the reserved bytes. -/
def ImageBank.format (b : ImageBank) : Bool :=
  decide (b.hdr 0 2 = 0x5649) && decide (b.hdr 2 2 = 1) && decide (b.bodyLen % 16 = 0) && decide (16 ≤ b.bodyLen) &&
  decide (b.bodyLen ≤ 1048512) && decide (b.hdr 48 16 = 0)

/-- Check 4: the lengths of R569. -/
def segOk (bodyLen : Nat) (body : List Byte) : Bool :=
  let (a, b, c, d) := segLens body
  decide (a % 4 = 0) && decide (b % 4 = 0) && decide (c % 4 = 0) && decide (d % 4 = 0) &&
  decide (a + b + c + d = bodyLen - 16) && decide (a ≤ 262144) && decide (b ≤ 196608) && decide (c ≤ 131072) &&
  decide (d ≤ 65536)

/-- The plaintext of a bank's body, where the key is sealed and the tag verifies. -/
def ImageBank.decrypt (b : ImageBank) (keySet : Bool) : Option (List Byte) :=
  if keySet then
    gcmDecrypt Config.firmwareKey (Mem.read zeroByte b.mem 20 12)
      (Mem.read zeroByte b.mem 0 32 ++ Mem.read zeroByte b.mem 48 16) (Mem.read zeroByte b.mem 64 b.bodyLen)
      (Mem.read zeroByte b.mem 32 16)
  else none

/-- The checks of R572 in their order: RESULT of the first that fails, or 0 and the body. -/
def ImageBank.verify (b : ImageBank) (arbSealed : Nat) (keySet : Bool) : Nat × List Byte :=
  if !b.format then (3, [])
  else if b.arbLevel < arbSealed || 64 < b.arbLevel then (2, [])
  else match b.decrypt keySet with
    | none => (1, [])
    | some body => if segOk b.bodyLen body then (0, body) else (3, [])

def State.verifyBank (s : State) (b : Bank) : Nat × List Byte := (s.bank b).verify s.arbSealed s.fuse.keySet

/-! ### SEL and the anti-rollback level (R574, R576, R578) -/

/-- Every image bank's SEL after an update restart whose named bank passes (R576). -/
def State.selWrite (s : State) (b : Bank) : State := s.setBank b fun x => { x with sel := (s.bank b.other).sel + 1 }

/-- The first `k` fuses blown, beside those that are. -/
def blow (x : BitVec 64) (k : Nat) : BitVec 64 := x ||| BitVec.ofNat 64 (2 ^ k - 1)

/-- An advance cut short leaves a level between the old and the new one. -/
def State.advanceCutShort (s : State) : State :=
  match s.advance with
  | [] => s
  | _ :: _ =>
    let k := s.arbSealed + Config.advanceCut s.fresh % (s.running.arbLevel - s.arbSealed + 1)
    { s with advance := [], fresh := s.fresh + 1, fuse := { s.fuse with arb := blow s.fuse.arb k } }

end Sys2Proof.Machine
end

