-- ==== Sys2Proof/Machine/HotSwap.lean ====
section
/-! DEFINITION. Backplane insertion and the card feed (chapter 06). Voltages are in mV, V_sns in µV. -/
namespace Sys2Proof.Machine

/-! ### The sealed hot-swap set (R166, R168); reserved bits read 0 (R8) -/

def State.hsValid (s : State) : Bool := bit s.fuse.hs3 0
def State.hsW0 (s : State) : Word := if s.hsValid then s.fuse.hs0 else 0x908AF28E
def State.hsW1 (s : State) : Word := if s.hsValid then s.fuse.hs1 else 0x9632140A
def State.hsW2 (s : State) : Word :=
  if s.hsValid then s.fuse.hs2 &&& 0xFFFFFFFC else fld 3 28 ||| fld 10 22 ||| fld 7 18 ||| fld 4 14 ||| fld 7 10 ||| fld 3 6 ||| fld 1 5 |||
    fld 4 2
def State.hsW3 (s : State) : Word :=
  if s.hsValid then s.fuse.hs3 &&& 0xFFFFFFF1 else fld 150 22 ||| fld 0x0C 16 ||| fld 3 12 ||| fld 3 8 ||| fld 7 4

def State.uvR (s : State) : Nat := 250 * bits s.hsW0 31 24
def State.uvF (s : State) : Nat := 250 * bits s.hsW0 23 16
def State.ovV (s : State) : Nat := 250 * bits s.hsW0 15 8
def State.warnLvl (s : State) : Nat := 250 * bits s.hsW0 7 0
def State.ftV (s : State) : Int := 500 * bits s.hsW1 31 24
def State.cbV (s : State) : Int := 500 * bits s.hsW1 23 16
def State.rcV (s : State) : Int := 500 * bits s.hsW1 7 0
def State.retryMax (s : State) : Nat := bits s.hsW2 21 18
def State.nocadGo (s : State) : Bool := bit s.hsW2 5
def State.hvNlog (s : State) : BitVec 3 := if bits s.hsW2 4 2 = 7 then 4 else BitVec.ofNat 3 (bits s.hsW2 4 2)
def State.hsStep (s : State) : Nat := bits s.hsW3 31 22
def State.sagDv (s : State) : Nat := 250 * bits s.hsW3 21 16
def State.pgDv (s : State) : Nat := 125 * (bits s.hsW3 11 8 + 1)

/-- The checks of R166. -/
def State.hsSetOk (s : State) : Bool :=
  decide (s.uvF < s.warnLvl) && decide (s.warnLvl < s.uvR) && decide (s.uvR + 4000 ≤ s.ovV) &&
  decide (50 * bits s.hsW1 15 8 < 500 * bits s.hsW1 23 16) && decide (s.cbV < s.ftV) && decide (20 ≤ s.hsStep)

/-! ### State, history and pins (R148, R167, R169, R170) -/

/-- BP_PGOOD is high only in ON. -/
def State.pgood (s : State) : Bool := s.hs.st = .on

def pushHist {α : Type} (l : List α) (x : α) : List α := if l.length < 16 then l ++ [x] else l.drop 1 ++ [x]

/-- An entry of the hot-swap history; the oldest is overwritten where all 16 are waiting, and the count for LOST stays at
0xFFFF (DESIGN CHOICE: R170 counts on, R500 gives LOST 16 bits; log entry 132). -/
def State.hsRecord (s : State) (selfPlaced : Bool) : State :=
  let e : HsHist := { ct := s.time.ct, st := s.hs.st, cause := s.hs.cause, retry := s.hs.retry, warn := s.hs.warn,
                      pgood := s.pgood, selfPlaced := selfPlaced }
  { s with hs := { s.hs with hist := pushHist s.hs.hist e,
                             lost := if s.hs.hist.length < 16 then s.hs.lost else min 0xFFFF (s.hs.lost + 1) } }

def State.hsGoto (s : State) (st : HsState) : State := { s with hs := { s.hs with st := st } }.hsRecord false

def hsStat (h : HotSwap) : Word :=
  fld h.st.code 28 ||| fld h.cause.code 25 ||| fld h.retry 21 ||| flag (h.st = .on) 20 ||| flag h.warn 19 |||
  flag h.wLevel 18 ||| flag h.wSag 17 ||| flag h.wOpen 16 ||| flag h.ovAct 15 ||| flag h.nocad 14 |||
  flag h.derate 13 ||| flag h.regulating 12 ||| fld h.segCnt 0

/-- OV_ACT follows BP_VIN (R149). -/
def State.seeVin (s : State) (vin : Nat) : State :=
  { s with hs := { s.hs with ovAct := decide (s.ovV < vin) || s.hs.ovAct && decide (s.ovV ≤ vin + 1000) } }

/-- BP_VIN is inside [UV_R, OV] (R149). -/
def State.vinInside (s : State) (vin : Nat) : Bool :=
  decide (s.uvR ≤ vin) && decide (vin ≤ if s.hs.ovAct then s.ovV - 1000 else s.ovV)

/-- States with the path regulated or full. -/
def HsState.closedPath : HsState → Bool
  | .inrush | .settle | .on => true
  | _ => false

/-- INRUSH ends: the unfired increments are cancelled, the reductions of R155 end, and regulation with it. -/
def State.inrushEnd (s : State) : State :=
  { s with tt := s.tt.cancelWhere fun e => e.owner = ownHs
           hs := { s.hs with halved := 0, selfAll := false, selfNext := false, suspended := false, inrTo := false,
                             regulating := false } }

/-! ### A new insertion (R57, R157) -/

/-- What a program cut short leaves: its page is torn, and the copy or record it belongs to does not count (R564); `k` is the
index of the free value. -/
def Store.cut (st : Store) (k : Nat) : Store :=
  match st.prog with
  | none => st
  | some r => st.tear r k

/-- The place after the newest valid record (R557, R558). -/
def nextPlace (v : Vector (Option Record) 16) : Fin 16 :=
  match newestRecord v with
  | none => 0
  | some r => (((List.finRange 16).find? fun i => v[i].any fun x => x.saveNo = r.saveNo).getD 0) + 1

/-- What the Store keeps without its supply: the store array. -/
def Store.kept (st : Store) (k : Nat) : Store :=
  let c := st.cut k
  { Store.reset with copyA := c.copyA, copyB := c.copyB, gens := c.gens, marks := c.marks, bad := c.bad, weak := c.weak,
                     cycles := c.cycles, user := c.user, prot0 := c.prot0, prot1 := c.prot1, ring := c.ring,
                     ringAt := nextPlace c.ring, log := c.log }

/-- The whole Station reset: Varnish, the store array and the image banks stay, and the level on SERVICE (the table of
reset sources). An advance of the anti-rollback level is cut short (R574). -/
def State.wipe (s : State) : State :=
  let s := s.advanceCutShort
  { State.reset with fuse := s.fuse, store := s.store.kept s.fresh, bankA := s.bankA, bankB := s.bankB,
                     sup := { Supplies.reset with servicePin := s.sup.servicePin },
                     pending := s.pending, fresh := s.fresh + 1 }

/-- The first state of the hot-swap block (R149). -/
def State.hsFirst (s : State) : State :=
  if s.sup.hvUncorr || !s.hsSetOk then s.hsGoto .lockout else s

/-- A removal that reaches HOLD_T: the Station is reset, the HV die runs on with its Varnish as read, and the sequencer's
inputs at their last levels (R157, R158). -/
def State.newInsertion (s : State) : State :=
  let w := s.wipe
  let w := { w with
    sup := { w.sup with hvUp := s.sup.hvUp, hvUncorr := s.sup.hvUncorr, hvMargin := s.sup.hvMargin }
    sq := { w.sq with cin := s.sq.cin, cinQual := s.sq.cinQual, reti := s.sq.reti, faultN := s.sq.faultN,
                      rails := w.sq.rails.zipWith (fun (x y : Rail) => { x with pg := y.pg }) s.sq.rails }
    health := { w.health with insertions := 1 } }
  w.hsFirst

/-! ### WARN_N (R32, R79, R135, R164, R321, R346, R352, R354, R557, R565, R578) -/

/-- A program of a commit or of a write to the User region. -/
def PageReq.cuts (r : PageReq) : Bool := r.job = .commit || r.job = .user

/-- Every commit and every write of the User region ends; the page in progress finishes. A copy of which it is the last page
stays out of use until the next recall (R551, R565). -/
def Store.warnCut (st : Store) : Store :=
  { st with queue := st.queue.filter fun r => !r.cuts,
            late := match st.commit with
              | some c => if st.prog.any fun r => r.job = .commit && r.final then some c.toA else st.late
              | none => st.late
            commit := none,
            prog := st.prog.map fun r => if r.cuts then { r with cmd := none, final := false } else r }

/-- The commands those operations belong to, each once. -/
def Store.cutCmds (st : Store) : List CmdRef :=
  ((st.commit.toList.filterMap fun c => c.cmd) ++ ((st.prog.toList ++ st.queue).filter PageReq.cuts).filterMap
    fun r => r.cmd).dedup

def State.warnStore (s : State) : State :=
  let l := s.store.cutCmds
  let had := s.store.commit.isSome
  let s := { s with store := s.store.warnCut }
  let s := l.foldl (fun s r => s.complete r stStoreFault []) s
  if had then s.afterCommit else s

/-- Every IMAGE_VERIFY ends with STORE_FAULT, its bank's STATE unchanged (R578). -/
def State.warnVerify (s : State) : State :=
  s.verify.foldl (fun s x => s.complete x.2 stStoreFault []) { s with verify := [] }

/-- Primer stops at once (R79). Where its step 4 had passed, which no row tells, the SEL of the bank named is written
(R578). -/
def State.primerStop (s : State) : State :=
  match s.sup.primer with
  | .running w b =>
    let s := { s with sup := { s.sup with primer := .stopped w b } }
    match b with
    | none => s
    | some x =>
      let past := Config.primerPast s.fresh && (s.verifyBank x).1 = 0
      let s := { s with fresh := s.fresh + 1 }
      if past then s.selWrite x else s
  | _ => s

/-- The FRS signal begins on an eligible port: its unfired bookings are cancelled, and another swap is overtaken; a
PR_Swap from source to sink goes on (R346, R347, R354, R490). -/
def State.frsBegin (s : State) (n : PortId) : State :=
  let r := s.port[n].rs
  if !s.frsTxOk n || r.code = .prSrcSnk then s
  else
    let s := (s.swapEnd n 7).cancelPort n
    s.modRs n fun r => { r with code := .frsSource, step := .signal }

/-- FRS standby ends at sink code 0, with no grant: a protection action, which cancels what the port has booked (R25, R352). -/
def State.standbyZero (s : State) (n : PortId) : State :=
  if s.port[n].rs.stby then (s.protCancel n).standbyEnd n 0 else s

/-- The Station on WARN_N at one port: a PR_Swap to source whose ROLE has not fired fails; standby ends; FRS is sent. -/
def State.warnPort (n : PortId) (s : State) : State :=
  let r := s.port[n].rs
  let s := if r.code = .prSnkSrc && r.step = .rise && (r.entry.isSome || r.retry) then
    (if r.retry then s.swapRefused n else (s.modRs n fun r => { r with fail := true }).swapEnd n 4).errRecov n
    else if r.code = .prSnkSrc && r.step = .asked && s.port[n].ct.stopRetry then
      (s.modCt n fun c => { c with stopFor := none, stopRetry := false }).swapEndWith n 4 stBudgetRefused
    else s
  (s.standbyZero n).frsBegin n

/-- WARN_N asserted. -/
def State.warnOn (s : State) (lvl sag opn : Bool) : State :=
  if s.hs.warn then s
  else
    let s := { s with hs := { s.hs with warn := true, wLevel := lvl, wSag := sag, wOpen := opn }
                      health := { s.health with warns := sat32 (s.health.warns + 1) } }.hsRecord false
    let l := s.tt.pick fun e => e.owner ≠ ownHs && e.rises
    let s := ((s.primerStop).warnCancel).tell s.tt l
    ((s.forPorts State.warnPort).warnStore).warnVerify.startSave true

/-- WARN_N released; Primer restarts where the logic die's supplies stayed good (R79, R165). -/
def State.warnOff (s : State) : State :=
  if s.hs.warn then
    let s := { s with hs := { s.hs with warn := false, wLevel := false, wSag := false, wOpen := false } }.hsRecord false
    match s.sup.primer with
    | .stopped w b => if s.sup.logicUp then { s with sup := { s.sup with primer := .running w b } } else s
    | _ => s
  else s

/-! ### Faults and openings (R149, R161-R163) -/

/-- The state in which the rows of this tick are judged, and whether it was regulating: the one a lower row has left in this
tick, else the present one (R149). -/
def State.hsFrom (s : State) : HsState × Bool :=
  match s.hs.opened with
  | some (t, f, r) => if t = s.time.ct then (f, r) else (s.hs.st, s.hs.regulating)
  | none => (s.hs.st, s.hs.regulating)

/-- A row is taken: the state that the tick began in is kept, against a row nearer the top (R149). -/
def State.hsMark (s : State) : State := { s with hs := { s.hs with opened := some (s.time.ct, s.hsFrom.1, s.hsFrom.2) } }

/-- The path opens: the state left ends, and from ON WARN_N is asserted in the same tick (R163, R164). A lower row that has
already been taken in the tick gives way, and its entry leaves the history (R149). -/
def State.hsOpen (s : State) (st : HsState) : State :=
  let wasOn := decide (s.hsFrom.1 = .on)
  let gone := decide (s.hsFrom.1 ≠ s.hs.st)
  let s := s.hsMark
  let s := { s with hs := { s.hs with hist := s.hs.hist.filter fun e => !(gone && e.ct = s.time.ct && e.st = s.hs.st) } }
  let s := (s.inrushEnd).hsGoto st
  if wasOn then s.warnOn false false true else s

/-- Faults by the place of their rows in R149. -/
def HsCause.row : HsCause → Nat
  | .fast => 1 | .vcp => 2 | .breaker => 3 | .inrushTime => 4 | .reverse => 5 | .none => 6

/-- LATCHED on the fault that reaches RETRY_MAX (R149, R162). -/
def State.hsLatch (s : State) : State :=
  if s.retryMax ≠ 0 && s.hs.retry = s.retryMax then (s.hsGoto .latched).warnOff else s

/-- A fault. Where a lower row has already opened the path in this tick, the fault's row is the one taken: FEED_LOST becomes
FAULT_WAIT, and a fault of a lower row gives its cause up (R149, R162). -/
def State.hsFault (s : State) (c : HsCause) : State :=
  if s.hs.st.closedPath then
    ({ s with hs := { s.hs with cause := c, retry := min 15 (s.hs.retry + 1) } }.hsOpen .faultWait).hsLatch
  else if s.hs.st = .feedLost then
    let retry := min 15 (s.hs.retry + 1)
    let hist : List HsHist := s.hs.hist.map fun (e : HsHist) =>
      if e.ct = s.time.ct && e.st = .feedLost then { e with st := .faultWait, cause := c, retry := retry } else e
    { s with hs := { s.hs with st := .faultWait, cause := c, retry := retry, hist := hist } }.hsLatch
  else if c.row < s.hs.cause.row then
    let hist : List HsHist := s.hs.hist.map fun (e : HsHist) => if e.ct = s.time.ct then { e with cause := c } else e
    { s with hs := { s.hs with cause := c, hist := hist } }
  else s

/-! ### Segments (R152-R155) -/

/-- The block places its segments itself (R153, R155). -/
def State.selfPlacing (s : State) : Bool := !s.sup.primerEver || s.sup.linkSilent || s.hs.selfAll || s.hs.selfNext

/-- Window of self-placement, by HV_NLOG (R152). -/
def State.selfStart (s : State) : Nat := winStart s.slotNum s.hvNlog
def State.selfLen (s : State) : Nat := winLen s.hvNlog

/-- A tick lies in the window of self-placement of this frame. -/
def State.inSelfWindow (s : State) (t : CT) : Bool :=
  t.toNat / 2048 = s.time.ct.toNat / 2048 && decide (s.selfStart ≤ t.toNat % 2048) &&
  decide (t.toNat % 2048 < s.selfStart + s.selfLen)

/-- A grant of any owner stands in the window of this frame, or has fired in it (R153). -/
def State.windowTaken (s : State) : Bool :=
  s.tt.firedAt.any s.inSelfWindow || s.tt.entries.toList.any fun o => o.any fun e => e.todo.any fun x => s.inSelfWindow x.1

/-- A segment; no gate driver turns its FET on before VCP has reached 11 V (R60). -/
def State.segmentFired (s : State) (selfPlaced : Bool) : State :=
  if !s.sup.vcpOk then s else
  { s with hs := { s.hs with segCnt := min 0xFFF (s.hs.segCnt + 1), lastSeg := some (s.time.ct.toNat / 2048) } }
    |> fun s => if selfPlaced then ({ s with hs := { s.hs with selfNext := false } }).hsRecord true else s

/-- INRUSH_SEGMENT: a self-placed segment at its tick, or a grant (R152, R153, R155, R156). -/
def execInrushSegment (s : State) : Host.Outcome State Fault Refusal :=
  if s.hs.st ≠ .inrush then .next s
  else match s.dueEntry ownHs .inrush with
    | some i =>
      let s := s.fireEntry i
      .next (if s.hs.suspended then s else s.segmentFired false)
    | none =>
      .next (if s.selfPlacing && !s.hs.suspended && s.time.ct.toNat % 2048 = s.selfStart + s.selfLen / 4 &&
          !s.windowTaken && s.hs.lastSeg ≠ some (s.time.ct.toNat / 2048)
        then s.segmentFired s.hs.selfNext else s)

/-- NOCAD_START or DERATE is reported, or kept until core SB runs and can be told (R151, R155). -/
def State.hsReport (s : State) : State :=
  if s.sbUp && !s.sup.linkSilent then
    let s := if s.hs.nocadDue then { s with hs := { s.hs with nocadDue := false } }.raiseHealth 4 0xFF 0 0 else s
    if s.hs.derateDue then { s with hs := { s.hs with derateDue := false } }.raiseHealth 5 0xFF 3 0 else s
  else s

/-- A health cause that core SB finds in force and has not reported. -/
def State.healthIf (s : State) (c : Bool) (cause detail value : Nat) : State :=
  if c && !bit s.health.active cause then s.raiseHealth cause 0xFF detail value else s

/-- The Palette's N differs from the one sealed in HV Varnish (R115). -/
def State.nlogReport (s : State) : State :=
  s.healthIf (s.sbUp && s.hvNlog ≠ s.tt.nlogPend) 3 s.hvNlog.toNat s.tt.nlogPend.toNat

/-- One step of the current in force, 0.25 W (R154, R155). -/
def State.hsUnits (s : State) : Nat := (roundFree ((4 * s.hsStep : Nat) / (2 ^ s.hs.halved : Nat) : Rat)).toNat

/-- K_hs (R154). -/
def kHs (units : Nat) : Nat := min 255 (32767 / max 1 units)

def State.hsBook (s : State) (k : Nat) : State × Booked :=
  s.book .hotSwap { owner := ownHs, kind := .inrush, dur := winLen s.tt.nlog / 2, req := none,
                    step := k * s.hsUnits, inc := s.hsUnits }

/-- Booking, halving the current or the number of segments, or self-placing (R155). -/
def State.hsBooking : Nat → Nat → State → State
  | 0, _, s => { s with hs := { s.hs with selfNext := true } }
  | fuel + 1, k, s =>
    match s.hsBook k with
    | (s', .granted ..) => s'
    | (_, .refused st) =>
      if st = stBudgetRefused && decide (s.hs.halved < 3) then
        let s := { s with hs := { s.hs with halved := s.hs.halved + 1 } }
        State.hsBooking fuel (kHs s.hsUnits) s
      else if st = stBudgetRefused then
        { s with hs := { s.hs with selfAll := true, derate := true, halved := 0, derateDue := true } }.hsReport
      else if st = stTimetableFull && decide (1 < k) then State.hsBooking fuel (k / 2) s
      else { s with hs := { s.hs with selfNext := true } }

/-- HS_BOOKING_REQUEST (R154, R155): at most two bookings stand. -/
def execHsBookingRequest (s : State) : Host.Outcome State Fault Refusal :=
  .next (if s.hs.st = .inrush && !s.selfPlacing &&
      decide ((s.tt.pick fun e => e.owner = ownHs).length < 2) then State.hsBooking 16 (kHs s.hsUnits) s else s)

/-! ### State changes -/

/-- QUALIFY_TIME (R149). -/
def execQualifyTime (vin : Nat) (s : State) : Host.Outcome State Fault Refusal :=
  let s := s.seeVin vin
  .next (if s.hs.st = .qualify && s.vinInside vin && s.sup.hvUp then
    { s with hs := { s.hs with phTo := false } }.hsGoto .phase else s)

/-- PHASE is left for INRUSH (R150, R151). DERATE, like NOCAD_START, stays set from here to a new insertion, although the
fallback itself ends with its INRUSH (DESIGN CHOICE: R155 says only what sets the bit; log entry 155). -/
def State.toInrush (s : State) (noLock : Bool) : State :=
  let s := { s with hs := { s.hs with segCnt := 0, halved := 0, selfAll := false, selfNext := false, suspended := false,
                                      inrTo := true, lastSeg := none, nocad := s.hs.nocad || noLock
                                      nocadDue := s.hs.nocadDue || noLock } }.hsGoto .inrush
  s.hsReport

/-- PHASE_EXIT (R150): SLOT_ID latched, and frame lock or PH_TO elapsed with NOCAD_GO. -/
def State.phaseOk (s : State) : Bool :=
  s.hs.st = .phase && s.sup.slotId.isSome && (s.time.frameLock || s.hs.phTo && s.nocadGo)

def execPhaseExit (s : State) : Host.Outcome State Fault Refusal :=
  .next (if s.phaseOk then s.toInrush (!s.time.frameLock) else s)

/-- PH_TO (R150). -/
def execPhTo (s : State) : Host.Outcome State Fault Refusal :=
  if s.hs.st = .phase then
    let s := { s with hs := { s.hs with phTo := true } }
    .next (if s.phaseOk then s.toInrush (!s.time.frameLock) else s)
  else .next s

/-- INRUSH_DONE (R149, R154). -/
def execInrushDone (vin vout : Nat) (s : State) : Host.Outcome State Fault Refusal :=
  .next (if s.hs.st = .inrush && decide (vin < vout + s.pgDv) then s.hsMark.inrushEnd.hsGoto .settle else s)

/-- PG_Q (R149, R167). -/
def execPgQ (vin vout gate : Nat) (s : State) : Host.Outcome State Fault Refusal :=
  .next (if s.hs.st = .settle && decide (vin < vout + s.pgDv) && decide (vout + 8000 ≤ gate) then s.hsMark.hsGoto .on else s)

/-- BP_FAST_TRIP (R149, R161). -/
def execBpFastTrip (vsns : Int) (s : State) : Host.Outcome State Fault Refusal :=
  .next (if s.hsFrom.1.closedPath && decide (s.ftV ≤ vsns) then s.hsFault .fast else s)

/-- BREAKER_REGULATION (R160). -/
def execBreakerRegulation (vsns : Int) (s : State) : Host.Outcome State Fault Refusal :=
  .next (if s.hs.st = .settle || s.hs.st = .on then
    { s with hs := { s.hs with regulating := decide (s.cbV ≤ vsns) } } else s)

/-- BREAKER_FAULT: FLT_T of regulation without a break (R149, R160). -/
def execBreakerFault (vsns : Int) (s : State) : Host.Outcome State Fault Refusal :=
  .next (if (s.hsFrom.1 = .settle || s.hsFrom.1 = .on) && s.hsFrom.2 && decide (s.cbV ≤ vsns) then s.hsFault .breaker else s)

/-- INR_TO (R149). -/
def execInrTo (s : State) : Host.Outcome State Fault Refusal :=
  .next (if s.hsFrom.1 = .inrush then s.hsFault .inrushTime else s)

/-- BP_REVERSE_TRIP: the third within 1 s is a fault (R149). -/
def execBpReverseTrip (vsns : Int) (s : State) : Host.Outcome State Fault Refusal :=
  if s.hsFrom.1.closedPath && decide (vsns < -s.rcV) then
    let recent := s.hs.revTrips.filter fun t => (s.time.ct - t).toNat < 2048000
    let s := { s with hs := { s.hs with revTrips := s.time.ct :: recent } }
    .next (if 2 ≤ recent.length then { s with hs := { s.hs with revTrips := [] } }.hsFault .reverse
      else if s.hs.st.closedPath then s.hsOpen .feedLost else s)
  else .next s

/-- FEED_LOST (R149, R158): BP_VIN below UV_F for 2 µs begins a removal in every state. -/
def execFeedLost (vin : Nat) (s : State) : Host.Outcome State Fault Refusal :=
  let s := s.seeVin vin
  let low := decide (vin < s.uvF)
  let s := { s with hs := { s.hs with removal := s.hs.removal || low } }
  .next (if s.hs.st.closedPath && (low || decide (s.ovV < vin)) then s.hsOpen .feedLost else s)

/-- FEED_RETURN (R149, R158). -/
def execFeedReturn (vin : Nat) (s : State) : Host.Outcome State Fault Refusal :=
  let s := s.seeVin vin
  let s := { s with hs := { s.hs with removal := s.hs.removal && decide (vin ≤ s.uvR) } }
  .next (if s.hs.st = .feedLost && s.vinInside vin then
    { s with hs := { s.hs with long := false } }.hsGoto .qualify else s)

/-- HOLD_T_EXPIRY: a new insertion (R149, R157, R158). -/
def execHoldTExpiry (s : State) : Host.Outcome State Fault Refusal :=
  .next (if s.hs.st = .feedLost || s.hs.removal then s.newInsertion else s)

/-- RETRY_T_EXPIRY (R149). -/
def execRetryTExpiry (s : State) : Host.Outcome State Fault Refusal :=
  .next (if s.hs.st = .faultWait then { s with hs := { s.hs with long := true } }.hsGoto .qualify else s)

/-- RETRY_CNT_CLEAR: 60 s in ON (R162). -/
def execRetryCntClear (s : State) : Host.Outcome State Fault Refusal :=
  .next (if s.hs.st = .on then { s with hs := { s.hs with retry := 0 } } else s)

/-- WARN_N_ASSERT: the level or the sag rule in ON (R164). -/
def execWarnNAssert (cause : WarnCause) (s : State) : Host.Outcome State Fault Refusal :=
  .next (if s.hs.st ≠ .on then s
    else match cause with
      | .level vin => if vin < s.warnLvl then s.warnOn true false false else s
      | .sag fall => if s.sagDv ≤ fall then s.warnOn false true false else s)

/-- SAG_SUSPEND and SAG_CLEAR (R156). -/
def execSagSuspend (fall : Nat) (s : State) : Host.Outcome State Fault Refusal :=
  .next (if s.hs.st = .inrush && decide (s.sagDv ≤ fall) then { s with hs := { s.hs with suspended := true } } else s)

def execSagClear (s : State) : Host.Outcome State Fault Refusal :=
  .next { s with hs := { s.hs with suspended := false } }

/-! ### Histories into events (R170, R174, R500) -/

def State.hsEvent (s : State) (h : HsHist) : State :=
  let l := s.hs.lost
  let s := { s with hs := { s.hs with lost := 0 } }
  s.emitFull 0x0680 tgtStation (leBytes 1 h.st.code ++ leBytes 1 h.cause.code ++ leBytes 1 h.retry ++
    leBytes 1 (b2n h.warn + 2 * b2n h.pgood) ++ leBytes 2 l ++ [0, 0]) h.ct true

def State.sqEvent (s : State) (h : SqHist) : State :=
  let l := s.sq.lost
  let s := { s with sq := { s.sq with lost := 0 } }
  s.emitFull 0x0681 tgtStation (leBytes 1 h.st.code ++ leBytes 1 h.cause.code ++ leBytes 1 h.rail ++
    leBytes 1 h.flag.code ++ leBytes 2 l ++ [0, 0]) h.ct true

/-- Both histories into events, oldest first. -/
def State.historyCopy (s : State) : State :=
  if s.sbUp && !s.sup.linkSilent then
    let hs := s.hs.hist
    let sq := s.sq.hist
    let s := { s with hs := { s.hs with hist := [] }, sq := { s.sq with hist := [] } }
    sq.foldl State.sqEvent (hs.foldl State.hsEvent s)
  else s

/-- HISTORY_COPY. -/
def execHistoryCopy (s : State) : Host.Outcome State Fault Refusal := .next s.historyCopy

end Sys2Proof.Machine
end

