-- ==== Sys2Proof/Machine/Sequencer.lean ====
section
/-! DEFINITION. Card rail sequencing (chapter 07). -/
namespace Sys2Proof.Machine

/-! ### The sealed sequencer set (R184, R196, R198) -/

def State.sqValid (s : State) : Bool := bit s.fuse.sqCfg 31
/-- SQ_CFG and SQ_RAILx as they are read: their reserved bits read 0 (R8). -/
def State.sqCfgW (s : State) : Word :=
  if s.sqValid then s.fuse.sqCfg &&& 0xFFFC0000 else fld 1 28 ||| fld 9 22 ||| fld 4 18
def State.sqRailW (s : State) (x : RailId) : Word :=
  if s.sqValid then s.fuse.sqRail[x] &&& 0xFFFFFF80
  else (if x.val ≤ 1 then fld 1 31 ||| fld x.val 27 else 0) ||| fld 3 20 ||| fld 3 16 ||| fld 3 12 ||| fld 3 8 ||| fld 1 7

def State.casc (s : State) : Nat := bits s.sqCfgW 30 29
def State.usesCin (s : State) : Bool := decide (2 ≤ s.casc)
def State.usesCout (s : State) : Bool := s.casc = 1 || s.casc = 2
def State.usesReti (s : State) : Bool := s.usesCout
def State.usesReto (s : State) : Bool := s.usesCin
def State.sqWin (s : State) : Bool := bit s.sqCfgW 28
def State.aoRetry (s : State) : Nat := bits s.sqCfgW 27 26

def allRails : List RailId := List.finRange 12
def State.used (s : State) (x : RailId) : Bool := bit (s.sqRailW x) 31
def State.stepOf (s : State) (x : RailId) : Nat := bits (s.sqRailW x) 30 27
def State.disWait (s : State) (x : RailId) : Bool := bit (s.sqRailW x) 7
def State.usedRails (s : State) : List RailId := allRails.filter s.used

/-- The checks of R198. -/
def State.sqSetOk (s : State) : Bool :=
  s.used 0 && s.used 1 && s.usedRails.all fun x =>
    decide (s.stepOf x ≤ 11) &&
    decide (bits (s.sqRailW x) 19 16 + 1 < 10 * (bits (s.sqRailW x) 15 12 + 1))

/-! ### History and pins (R174, R175, R185) -/

/-- An entry of the sequencer's history; the count of overwritten entries stays at 0xFFFF (DESIGN CHOICE: R174 counts on, R500
gives LOST 16 bits; log entry 132). -/
def State.sqRecord (s : State) (rail : Nat) (f : SqFlag) : State :=
  let e : SqHist := { ct := s.time.ct, st := s.sq.st, cause := s.sq.cause, rail := rail, flag := f }
  { s with sq := { s.sq with hist := pushHist s.sq.hist e,
                             lost := if s.sq.hist.length < 16 then s.sq.lost else min 0xFFFF (s.sq.lost + 1) } }

/-- LOCK and LATCHED are reported by core SB, where it runs (R179, R501). -/
def State.sqGoto (s : State) (st : SqState) : State :=
  let s := { s with sq := { s.sq with st := st } }.sqRecord s.sq.faultRail .none
  if (st = .lock || st = .latched) && s.sbUp then s.raiseHealth 17 0xFF s.sq.cause.code 0 else s

def State.sqCout (s : State) : Bool := s.usesCout && s.sq.st = .run

def SqState.retoBy185 : SqState → Bool
  | .waitCin | .shutdown | .alloff | .retryWait | .down | .latched => true
  | _ => false

/-- A used rail is discharged, or its DIS_TO has ended. -/
def State.railGone (s : State) (x : RailId) : Bool := s.sq.rails[x].discharged || s.sq.rails[x].disEnded

def State.sqReto (s : State) : Bool :=
  s.usesReto && s.sq.st.retoBy185 && (s.usedRails.all fun x => !s.sq.rails[x].en && s.railGone x) &&
  (!s.usesReti || s.sq.reti || s.sq.retEnded)

/-- Word of one bit per rail. -/
def State.railBits (s : State) (f : Rail → Bool) : Nat := (allRails.map fun x => b2n (f s.sq.rails[x]) <<< x.val).sum

/-- SQ_STAT (R199). STEP_NOW keeps the last step raised or shut down outside RAISE and SHUTDOWN (DESIGN CHOICE: R199 gives it a
meaning in those two states only; log entry 156). -/
def State.sqStat (s : State) : Word :=
  fld s.sq.st.code 28 ||| fld s.sq.cause.code 25 ||| fld s.sq.faultRail 21 ||| fld s.sq.aoCnt 19 |||
  flag s.sq.armed 18 ||| flag s.sq.retLate 17 ||| fld s.sq.stepNow 12 ||| fld s.sq.undetC.toNat 8 |||
  flag s.sq.cin 3 ||| flag s.sqCout 2 ||| flag s.sq.reti 1 ||| flag s.sqReto 0
def State.sqRailsReg (s : State) : Word := fld (s.railBits Rail.en) 16 ||| fld (s.railBits Rail.pg) 0
def State.sqFlagA (s : State) : Word := fld (s.railBits Rail.undet) 16 ||| fld (s.railBits Rail.prebias) 0
def State.sqFlagB (s : State) : Word := fld (s.railBits Rail.disLate) 16 ||| fld (s.railBits Rail.downFail) 0

/-! ### Front ends and the logic die (R30, R71, R74, R189, R557) -/

/-- Every Front end opens its path, deasserts Pn_CEN and removes Rp and Rd; hold-over ends or is not entered, and the
next start is cold. The save path runs. -/
def State.allOffPorts (s : State) : State :=
  let s := s.forPorts fun n s => (s.disablePort n).modPort n fun p => { p with hold := false }
  { s with sup := { s.sup with runFlag := false } }.startSave false

/-! ### Shutting down (R186-R188) -/

/-- No rail that has fallen is waited for. -/
def State.stepDown (s : State) : Bool :=
  s.usedRails.all fun x => s.sq.rails[x].en || !s.disWait x || s.railGone x || s.sq.rails[x].fell

/-- The highest step that still has a rail enabled. -/
def State.topStep (s : State) : Option Nat :=
  (s.usedRails.filter fun x => s.sq.rails[x].en).foldl (fun m x => some (max (m.getD 0) (s.stepOf x))) none

/-- The enable of one rail falls. A rail whose filtered level fell in SHUTDOWN before, and is low, ends its wait at once
(R188). -/
def Rail.fall (r : Rail) : Rail :=
  if r.en then { r with en := false, waiting := false, upTo := false, disTo := !(r.fell && !r.pg), disEnded := false,
                        discharged := false, fell := r.fell && !r.pg }
  else { r with waiting := false, upTo := false }

/-- SHUTDOWN goes on as far as no rail is waited for; `fuel` bounds the steps. -/
def State.shutdownStep : Nat → State → State
  | 0, s => s
  | fuel + 1, s =>
    if s.sq.st = .shutdown && !s.sq.retTo && s.stepDown then
      match s.topStep with
      | some k =>
        let s := (s.usedRails.filter fun x => s.stepOf x = k).foldl (fun s x => s.modRail x Rail.fall) s
        State.shutdownStep fuel { s with sq := { s.sq with stepNow := k } }
      | none => if s.sq.cause = .start then s.sqGoto .latched
                else { s with sq := { s.sq with restartUp := false } }.sqGoto .down
    else s

/-- SHUTDOWN entered: SQ_COUT drops with the state, and a role with SQ_RETI waits for it (R186, R189). -/
def State.sqShutdown (s : State) (c : SqCause) (rail : Nat) : State :=
  let s := { s with sq := { s.sq with cause := c, faultRail := rail, retEnded := false, hostPend := false,
                                      retTo := s.usesReti && !s.sq.reti } }.sqGoto .shutdown
  let s := s.allOffPorts
  let s := { s with sq := { s.sq with stepNow := s.topStep.getD s.sq.stepNow,
                                      rails := s.sq.rails.map fun r => { r with waiting := false, upTo := false, fell := false } } }
  State.shutdownStep 14 s

/-! ### All-off (R176, R190-R193) -/

/-- ALLOFF ends once every used rail is discharged or its DIS_TO has ended. -/
def State.alloffDone (s : State) : State :=
  if s.sq.st = .alloff && s.usedRails.all s.railGone then
    if s.sq.cause = .feed then { s with sq := { s.sq with restartUp := false } }.sqGoto .down
    else if s.sq.fromStart || s.sq.aoCnt = s.aoRetry then s.sqGoto .latched
    else { s with sq := { s.sq with aoCnt := s.sq.aoCnt + 1, aoDelay := false } }.sqGoto .retryWait
  else s

def Rail.allOff (r : Rail) : Rail :=
  { r with en := false, waiting := false, upTo := false, disEnded := r.disEnded && !r.en, discharged := r.discharged && !r.en,
           disTo := r.en || !r.discharged && !r.disEnded }

def SqState.live : SqState → Bool
  | .raise | .run | .shutdown => true
  | _ => false

/-- Every enable falls in the evaluation; SQ_FAULT_N is driven low for 1 ms. What the Sketch slots hold is lost (R261). -/
def State.sqAlloff (s : State) (c : SqCause) (rail : Nat) : State :=
  let s := { s with
    sq := { s.sq with fromStart := decide (s.sq.st = SqState.shutdown) && decide (s.sq.cause = SqCause.start), cause := c, faultRail := rail,
                      faultDriven := true, faultN := false, armed := false, hostPend := false, retTo := false,
                      rails := s.sq.rails.map Rail.allOff }
    health := { s.health with alloffs := sat32 (s.health.alloffs + 1) } }.sqGoto .alloff
  let s := s.allOffPorts.alloffDone
  { s with sketches := [], plat := s.plat.map fun (k : Platform) => { k with slots := Vector.replicate 8 none, pushCut := k.push.isSome } }

/-- The top row of R176 first: BP_PGOOD low in RAISE, RUN or SHUTDOWN is an all-off with cause FEED, whichever lower row
applies in the same evaluation. -/
def State.feedFirst (s : State) (lower : State → State) : State :=
  if s.sq.st.live && !s.pgood then s.sqAlloff .feed 0xF else lower s

/-- What a discharged rail, or one whose DIS_TO ends, lets go on: the next step of SHUTDOWN, or the end of ALLOFF (R187,
R192). -/
def State.wentDown (s : State) : State := s.feedFirst fun s => (State.shutdownStep 14 s).alloffDone

/-! ### Raising (R172, R177, R181-R183) -/

/-- The lowest step from `k` on that a used rail has. -/
def State.nextStep (s : State) (k : Nat) : Option Nat :=
  (List.range 12).find? fun i => decide (k ≤ i) && s.usedRails.any fun x => s.stepOf x = i

/-- A step begins: its rails wait for DLY and their window start. -/
def State.beginStep (s : State) (k : Nat) : State :=
  (s.usedRails.filter fun x => s.stepOf x = k).foldl
    (fun s x => s.modRail x fun r =>
      { r with waiting := true, qualified := false, upTo := false, stepAt := s.time.ct, qualAt := none })
    { s with sq := { s.sq with stepNow := k } }

/-- Start is allowed (R177). -/
def State.startAllowed (s : State) : Bool :=
  match s.sq.st with
  | .waitCin => !s.usesCin || s.sq.cinQual
  | .retryWait => s.sq.aoDelay && (!s.usesCin || s.sq.cin)
  | .down => match s.sq.cause with
    | .feed | .peer => !s.usesCin || s.sq.cinQual
    | .cascade => s.sq.cinQual
    | .host => s.sq.restartUp
    | _ => false
  | _ => false

/-- DLY in ticks; 0.1 ms is 204.8 tk, and no window start lies between 204.8 and 205 (R196). -/
def dlyTicks (code : Nat) : Nat := [0, 205, 512, 1024, 2048, 4096, 10240, 20480].getD code 0

/-- An enable rise at a window start: the start latched at its tick lies within the 1 µs (2.05 tk) before this evaluation,
and DLY had ended at it (R112, R130, R174, R182). The window is that of the Timetable's active N at all times (DESIGN
CHOICE: before the logic die has run the spec names two; log entry 135). -/
def State.atWindowStart (s : State) (x : RailId) : Bool :=
  let len := winLen s.tt.nlog
  let t := winStart s.slotNum s.tt.nlog + if s.narrow then len / 4 else 0
  let ago := (s.time.ct.toNat + 2048 - t) % 2048
  decide (ago ≤ 2) && decide ((s.sq.rails[x].stepAt + BitVec.ofNat 48 (dlyTicks (bits (s.sqRailW x) 26 24))).toNat + ago ≤ s.time.ct.toNat)

/-! ### Commands -/

/-- SQ_START (R176, R179, R198). -/
def execSqStart (s : State) : Host.Outcome State Fault Refusal :=
  .next (if s.sq.st ≠ .idle || !s.sup.hvUp then s
    else if !s.sqSetOk then { s with sq := { s.sq with faultDriven := false } }.sqGoto .lock
    else if s.pgood then { s with sq := { s.sq with faultDriven := false } }.sqGoto .waitCin
    else s)

/-- SQ_RAISE (R176, R177). -/
def execSqRaise (s : State) : Host.Outcome State Fault Refusal :=
  .next (if s.pgood && s.startAllowed then
    match s.nextStep 0 with
    | some k => ({ s with sq := { s.sq with retEnded := false } }.sqGoto .raise).beginStep k
    | none => s
  else s)

/-- SQ_ENABLE_RISE (R181-R183). -/
def execSqEnableRise (x : RailId) (s : State) : Host.Outcome State Fault Refusal :=
  let r := s.sq.rails[x]
  if s.sq.st = .raise && r.waiting && (!s.sqWin || s.atWindowStart x) then
    let s := s.modRail x fun r => { r with en := true, waiting := false, upTo := true, qualified := false, disTo := false,
                                           disEnded := false, discharged := false, fell := false, prebias := r.prebias || r.pg }
    .next (if r.pg then s.sqRecord x.val .prebias else s)
  else .next s

/-- A qualified rail's filtered level has fallen: a running-rail fault (R190). -/
def State.railFault (s : State) (x : RailId) : State := s.sqAlloff .rail x.val

/-- SQ_PG_FILTER: the filtered level changes (R180, R185, R188, R190). -/
def execSqPgFilter (x : RailId) (level : Bool) (s : State) : Host.Outcome State Fault Refusal :=
  let r := s.sq.rails[x]
  let s := s.modRail x fun r => { r with pg := level }
  .next (if level || !s.used x then s
    else if r.en && r.qualified && (s.sq.st = .raise || s.sq.st = .run) then s.feedFirst (·.railFault x)
    else if r.en && s.sq.st = .shutdown && r.pg then
      s.feedFirst fun s => (s.modRail x fun r => { r with downFail := true, fell := true }).sqRecord x.val .downFail
    else s)

/-- RAIL_QUALIFY: QUAL of a good level; a complete step begins the next, or RUN with SQ_COUT rising (R172, R176, R181). -/
def execRailQualify (x : RailId) (s : State) : Host.Outcome State Fault Refusal :=
  let r := s.sq.rails[x]
  if s.sq.st = .raise && s.used x && r.en && r.pg && !r.qualified then
    .next (s.feedFirst fun s =>
      let s := s.modRail x fun r => { r with qualified := true, qualAt := some s.time.ct }
      if s.usedRails.all fun y => s.stepOf y ≠ s.sq.stepNow || s.sq.rails[y].qualified then
        match s.nextStep (s.sq.stepNow + 1) with
        | some k => s.beginStep k
        | none => s.sqGoto .run
      else s)
  else .next s

/-- UP_TO ends before its rail has qualified, or in the evaluation in which it qualifies (R181). -/
def State.upLate (s : State) (x : RailId) : Bool :=
  let r := s.sq.rails[x]
  r.upTo && ((s.sq.st = .raise && !r.qualified) ||
    ((s.sq.st = .raise || s.sq.st = .run) && decide (r.qualAt = some s.time.ct)))

/-- UP_TO_EXPIRY (R176, R181). -/
def execUpToExpiry (x : RailId) (s : State) : Host.Outcome State Fault Refusal :=
  .next (if s.upLate x then s.feedFirst (·.sqShutdown .start x.val) else s)

/-- SQ_FEED_ALLOFF (R176). -/
def execSqFeedAlloff (s : State) : Host.Outcome State Fault Refusal := .next (s.feedFirst id)

/-- SQ_PEER_ALLOFF (R176, R191). -/
def execSqPeerAlloff (s : State) : Host.Outcome State Fault Refusal :=
  .next (if s.sq.st.live && s.sq.armed then s.feedFirst (·.sqAlloff .peer 0xF) else s)

/-- SQ_RAIL_FAULT (R190). -/
def execSqRailFault (x : RailId) (s : State) : Host.Outcome State Fault Refusal :=
  let r := s.sq.rails[x]
  .next (if (s.sq.st = .raise || s.sq.st = .run) && s.used x && r.en && r.qualified then
    (s.modRail x fun r => { r with pg := false }).feedFirst (·.railFault x) else s)

/-- SQ_CIN_FALL (R176). -/
def execSqCinFall (s : State) : Host.Outcome State Fault Refusal :=
  let s := { s with sq := { s.sq with cin := false, cinQual := false } }
  .next (if s.usesCin && (s.sq.st = .raise || s.sq.st = .run) then s.feedFirst (·.sqShutdown .cascade 0xF) else s)

/-- SQ_CIN_RISE: high for 16 µs (R177). -/
def execSqCinRise (s : State) : Host.Outcome State Fault Refusal :=
  .next { s with sq := { s.sq with cin := true, cinQual := true } }

/-- SQ_RETI_RISE: an edge of SQ_RETI. A low pin rises, which lets a waiting shut-down turn off its first step; a high one
falls (R185, R186; the table has no row for the fall: log entry 12). -/
def execSqRetiRise (s : State) : Host.Outcome State Fault Refusal :=
  let s := { s with sq := { s.sq with reti := !s.sq.reti } }
  .next (if s.sq.reti && s.sq.st = .shutdown && s.sq.retTo then
    s.feedFirst fun s => State.shutdownStep 14 { s with sq := { s.sq with retTo := false } } else s)

/-- RET_TO_EXPIRY (R186). -/
def execRetToExpiry (s : State) : Host.Outcome State Fault Refusal :=
  .next (if s.sq.st = .shutdown && s.sq.retTo then s.feedFirst fun s =>
    State.shutdownStep 14 ({ s with sq := { s.sq with retTo := false, retEnded := true, retLate := true } }.sqRecord 0xF .retLate)
  else s)

/-- DIS_TO_EXPIRY (R185, R187, R192). -/
def execDisToExpiry (x : RailId) (s : State) : Host.Outcome State Fault Refusal :=
  let r := s.sq.rails[x]
  .next (if s.used x && r.disTo && !r.discharged then
    ((s.modRail x fun r => { r with disTo := false, disEnded := true, disLate := true }).sqRecord x.val .disLate).wentDown
  else s)

/-- RAIL_DISCHARGED: the filtered level low for DGL after the enable fell (R185). -/
def execRailDischarged (x : RailId) (s : State) : Host.Outcome State Fault Refusal :=
  let r := s.sq.rails[x]
  .next (if s.used x && !r.en && !r.pg && !r.discharged then
    (s.modRail x fun r => { r with discharged := true, disTo := false }).wentDown
  else s)

/-- ALLOFF_PULSE_END (R175, R194). -/
def execAlloffPulseEnd (s : State) : Host.Outcome State Fault Refusal :=
  .next (if s.sq.st = .idle then s else { s with sq := { s.sq with faultDriven := false } })

/-- AO_DELAY_EXPIRY (R177). -/
def execAoDelayExpiry (s : State) : Host.Outcome State Fault Refusal :=
  .next (if s.sq.st = .retryWait then { s with sq := { s.sq with aoDelay := true } } else s)

/-- DOWN_RESTART: the restart time of cause HOST elapses, 0 never (R177). -/
def execDownRestart (s : State) : Host.Outcome State Fault Refusal :=
  .next (if s.sq.st = .down && s.sq.cause = .host && s.sq.restart ≠ 0 then
    { s with sq := { s.sq with restartUp := true } } else s)

/-- AO_CNT_CLEAR: 60 s in RUN (R178). -/
def execAoCntClear (s : State) : Host.Outcome State Fault Refusal :=
  .next (if s.sq.st = .run then { s with sq := { s.sq with aoCnt := 0 } } else s)

/-- SQ_FAULT_N_ARM: high for 16 µs after the device released it (R191). -/
def execSqFaultNArm (s : State) : Host.Outcome State Fault Refusal :=
  .next (if s.sq.faultDriven then s else { s with sq := { s.sq with faultN := true, armed := true } })

/-- SQ_HOST_SHUTDOWN (R176, R495). -/
def execSqHostShutdown (s : State) : Host.Outcome State Fault Refusal :=
  .next (if s.sq.st = .run && s.sq.hostPend then s.feedFirst (·.sqShutdown .host 0xF) else s)

end Sys2Proof.Machine
end

