-- ==== Sys2Proof/Machine/HealthOps.lean ====
section
/-! DEFINITION. Retirement of a Port and the end of a claim (R416, R418, R582-R585), as several families use them. -/
namespace Sys2Proof.Machine

def HostPort.code (h : HostPort) : Nat := h.ix.val
def claimCode : Option HostPort → Nat
  | some h => HostPort.code h
  | none => 7

/-- A claim changes, with its event (R418, R500). -/
def State.claimSet (s : State) (n : PortId) (new : Option HostPort) (cause : Nat) : State :=
  if s.claim[n] = new then s
  else ({ s with claim := s.claim.set n new } : State).emitSt 0x0181
    (leBytes 1 n.val ++ leBytes 1 (claimCode s.claim[n]) ++ leBytes 1 (claimCode new) ++ leBytes 1 cause)

/-- HEALTH of a failed test, with the CT of the failure (R501, R585). -/
def State.testHealth (s : State) (n : PortId) (test : Nat) (ct : CT) : State :=
  let s := { s with health := { s.health with active := s.health.active ||| BitVec.ofNat 32 (1 <<< 10) }
                    sup := { s.sup with replaceReq := true } }
  s.emitFull 0x0880 tgtStation (leBytes 1 10 ++ leBytes 1 n.val ++ leBytes 2 test ++ leBytes 4 0) ct false

/-- The accepted commands to a Port that is retired complete with PORT_RETIRED (R478); a SELFTEST runs to its own end. -/
def State.retireCmds (s : State) (n : PortId) : State :=
  (s.active.filter fun c => c.p.target = tgtPort n && c.op ≠ 0x0803).foldl
    (fun s c => s.complete (CmdRef.of c) stPortRetired []) s

/-- A Port retired in one tick, as a protection action (R53, R583). -/
def State.retire (s : State) (n : PortId) (test : Nat) (ct : CT) : State :=
  let s := (s.retireCmds n).disablePort n
  let s := { s with health := { s.health with retired := s.health.retired ||| BitVec.ofNat 24 (1 <<< n.val) } }
  ((s.claimSet n none 3).shedEnd).testHealth n test ct

/-- A failed self-test found in hardware; in hold-over the port is held in DISABLED until core SB runs (R582, R585). -/
def State.testFail (s : State) (n : PortId) (test : Fin 6) : State :=
  let s := s.modMs n fun m => { m with tests := m.tests ||| BitVec.ofNat 16 (1 <<< test.val) }
  if s.sup.linkSilent || s.port[n].hold then
    (s.disablePort n).modPort n fun p => { p with failDue := p.failDue.or (some (test, s.time.ct)) }
  else s.retire n test.val s.time.ct

/-- What core SB completes once it runs. -/
def State.failsDue (s : State) : State :=
  s.forPorts fun n s =>
    match s.port[n].failDue with
    | some (t, ct) => (s.modPort n fun p => { p with failDue := none }).retire n t.val ct
    | none => s

end Sys2Proof.Machine
end

