-- ==== Sys2Proof/Machine/Attach.lean ====
section
/-! DEFINITION. Attach, orientation and the unattached port (chapter 08), and the opening of a port (R241). -/
namespace Sys2Proof.Machine

def audioEn (w : Word) : Bool := bit w 25
def debugEn (w : Word) : Bool := bit w 24
def vconnEn (w : Word) : Bool := bit w 23

/-- CABLE_ABSENT: no answer in nDiscoverIdentityCount requests, or VCONN absent, disabled or limited off (R287, R289). -/
def State.cableAbsentNow (s : State) (n : PortId) : Bool :=
  let t := s.port[n].tc
  s.port[n].pd.cableAbsent || t.st.attached && (t.vconnOff || !vconnEn t.cfg || !s.plat[platOf n].vconn)

/-- TC_STAT (R236). -/
def State.tcStat (s : State) (n : PortId) : Word :=
  let t := s.port[n].tc
  fld t.st.code 28 ||| fld t.orient.code 26 ||| fld t.rpSeen.toNat 24 ||| fld t.rpOffer.toNat 22 |||
  fld t.partner.code 19 ||| flag t.vconnOn 18 ||| flag t.vconnWait 17 ||| flag t.vconnOc 16 ||| flag t.ccUndet 15 |||
  flag t.holdAttach 14 ||| flag (!s.plat[platOf n].vconn) 13 ||| flag t.cmpFail 12 ||| fld t.attCnt.toNat 0

/-- Rd on exactly one pin and open or Ra on the other (R213). -/
def rdSeen (a b : CcRead) : Bool := (a = .rd && (b = .opn || b = .ra)) || (b = .rd && (a = .opn || a = .ra))
def rpOne (a b : CcRead) : Bool := isRp a != isRp b
def rpAny (a b : CcRead) : Bool := isRp a || isRp b

/-- The comparator modes, named after train services (R204). -/
inductive CompMode where
  | express | localMode | freight
  deriving DecidableEq, Repr

/-- Freight in DISABLED and the Unattached states, Local in every other (R205). -/
def TcState.compMode : TcState → CompMode
  | .disabled | .unattSnk | .unattSrc => .freight
  | _ => .localMode

/-- What both CC pins present (R201, R202, R211). -/
inductive Term where
  | opn | rd | rp (level : BitVec 2)
  deriving DecidableEq, Repr

/-- The termination in force: Rp where the port offers it, Rd in every other state but DISABLED and ERR_RECOV. -/
def TypeC.term (t : TypeC) : Term :=
  if t.rpOffer ≠ 0 then .rp t.rpOffer else if t.st = .disabled || t.st = .errRecov then .opn else .rd

/-- The source thresholds by Rp level, mV: Ra below, open above (R207). -/
def raBelow (rp : BitVec 2) : Nat := match rp.toNat with | 2 => 399 | 3 => 801 | _ => 201
def openAbove (rp : BitVec 2) : Nat := if rp = 3 then 2601 else 1599

/-- The reading of a CC pin at a voltage in mV (R207). -/
def TypeC.readCc (t : TypeC) (mv : Nat) : CcRead :=
  match t.term with
  | .opn => .opn
  | .rp l => if mv < raBelow l then .ra else if openAbove l < mv then .opn else .rd
  | .rd => if 1230 < mv then .rp30 else if 660 < mv then .rp15 else if 201 < mv then .rpDef else .opn

/-- The readings of both pins; while the outputs are ignored they are those of before (R206). -/
def TypeC.readPins (t : TypeC) (cc1 cc2 : Nat) : CcRead × CcRead :=
  if t.blank then (t.cc1, t.cc2) else (t.readCc cc1, t.readCc cc2)

def vbusPresentMv : Nat := 4000
def vSafe0vMv : Nat := 800

/-! ### Opening (R20, R109, R210, R217, R241, R243) -/

/-- The SET booking of an opening. -/
def State.openBook (s : State) (n : PortId) : State :=
  let r := s.bookPort n .set 4 none (cenUnits (s.ppCfg n)) 0
  r.1.modTc n fun t => { t with opening := if r.2.ok then .booked else .retry }

/-- The port may be opened now: unopened, in service, its role not disabled, and its core running. -/
def State.mayOpen (s : State) (n : PortId) : Bool :=
  s.port[n].tc.opening = .closed && s.port[n].tc.st = .disabled && s.inService n && roleOf (s.tcCfg n) ≠ 3 &&
  s.port[n].test.isNone && (s.core[s.portCore n]).up && s.sbUp

/-- Ports open in ascending order (R20). -/
def State.openTurn (s : State) (n : PortId) : Bool := allPorts.all fun m => decide (n.val ≤ m.val) || !s.mayOpen m

/-- PORT_OPEN: the LFSR is seeded, R_pair takes its value before the first calibration, the staggered channels are
programmed, and the SET is booked. -/
def State.portOpen (s : State) (n : PortId) : State :=
  let ref := s.portU16 n 0x2E
  let s := s.modPort n fun p =>
    { p with tc := { p.tc with lfsr := 0x8000 ||| BitVec.ofNat 16 (s.slotNum <<< 5) ||| BitVec.ofNat 16 n.val }
             pp := if p.pp.rKnown then p.pp
                   else { p.pp with rEst := if ref = 0 then 2000 else ref, rc := if ref = 0 then 2000 else ref } }
  (s.programPort n).openBook n

def execPortOpen (n : PortId) (s : State) : Host.Outcome State Fault Refusal :=
  .next (if s.mayOpen n && s.openTurn n then s.portOpen n else s)

/-- CONVERTER_POWER_GOOD: Pn_CPG rises, and an opening port is opened (R210, R213, R241). -/
def execConverterPowerGood (n : PortId) (undet : Bool) (s : State) : Host.Outcome State Fault Refusal :=
  let s := s.modPp n fun p => { p with cpg := p.cen }
  .next (if s.port[n].tc.opening = .starting && s.port[n].pp.cen then
    (s.modTc n fun t => { t with opening := .opened, ccUndet := t.ccUndet || undet, cc1 := .opn, cc2 := .opn }).toUnatt n
      true
  else s)

/-- CONVERTER_START_CHECK: 20 ms after the grant (R241, R582). -/
def execConverterStartCheck (n : PortId) (s : State) : Host.Outcome State Fault Refusal :=
  .next (if s.port[n].tc.opening = .starting then s.testFail n 1 else s)

/-! ### Transitions of R213 -/

/-- A Try state or TRYWAIT state entered, with its terminations (R202, R211). -/
def State.enterTry (s : State) (n : PortId) (st : TcState) (o : Orient) : State :=
  let rp := st = .trySrc || st = .trywaitSrc
  s.modTc n fun t => { t with st := st, orient := o, debDone := false, tryEnded := false, blank := true,
                              rpOffer := if rp then t.rpLevel else 0 }

/-- ATT_SRC, with the partner the readings give (R223, R224). -/
def State.toAttSrc (s : State) (n : PortId) (a b : CcRead) : State :=
  let ra := a = .ra || b = .ra
  s.enterAttached n .attSrc (orientSrc a b) (if ra then .sinkRa else .sink) ra

def State.toAttSnk (s : State) (n : PortId) (a b : CcRead) : State :=
  s.enterAttached n .attSnk (orientSnk a b) .source false

/-- AUDIO (R229, R234). -/
def State.toAudio (s : State) (n : PortId) : State :=
  (s.modTc n fun t => { t with st := .audio, partner := .audio, orient := .none, blank := true }).typecEvent n

/-- The port waits with its debounce complete. -/
def State.waitVbus (s : State) (n : PortId) : State := s.modTc n fun t => { t with debDone := true }

/-- The end of tCCDebounce on the readings and VBUS (R213). -/
def State.ccDecide (s : State) (n : PortId) (a b : CcRead) (vbus : Nat) : State :=
  let t := s.port[n].tc
  match t.st with
  | .attwaitSrc =>
    if rdSeen a b then
      if vbus ≤ vSafe0vMv then
        if tryOf t.cfg = 2 then s.enterTry n .trySnk (orientSrc a b) else s.toAttSrc n a b
      else s.waitVbus n
    else if a = .rd && b = .rd && debugEn t.cfg then s.enterAttached n .debugSrc .unoriented .debugSrc false
    else if a = .ra && b = .ra && audioEn t.cfg then s.toAudio n
    else s.toUnattHome n
  | .attwaitSnk =>
    if rpAny a b then
      if vbus < vbusPresentMv then s.waitVbus n
      else if rpOne a b then
        if tryOf t.cfg = 1 then s.enterTry n .trySrc (orientSnk a b) else s.toAttSnk n a b
      else if debugEn t.cfg then s.enterAttached n .debugSnk .unoriented .debugSnk false
      else s.toUnattHome n
    else s.toUnattHome n
  | .trywaitSnk =>
    if rpOne a b then (if vbus < vbusPresentMv then s.waitVbus n else s.toAttSnk n a b) else s.toUnattHome n
  | .audio => if a = .opn && b = .opn then s.toUnattHome n else s
  | _ => s

/-- The end of tTryCCDebounce (R213); readings without the termination lead on once tDRPTry has ended. -/
def State.tryDecide (s : State) (n : PortId) (a b : CcRead) (vbus : Nat) : State :=
  let t := s.port[n].tc
  match t.st with
  | .trySrc => if rdSeen a b then s.toAttSrc n a b else if t.tryEnded then s.enterTry n .trywaitSnk t.orient else s
  | .trywaitSrc => if rdSeen a b then s.toAttSrc n a b else s
  | .trySnk =>
    if rpOne a b then (if vbus < vbusPresentMv then s.waitVbus n else s.toAttSnk n a b)
    else if t.tryEnded then s.enterTry n .trywaitSrc t.orient else s
  | _ => s

/-- The states R231 holds in hold-over. -/
def TcState.holdsAttach : TcState → Bool
  | .attwaitSrc | .attwaitSnk | .trySrc | .trySnk | .trywaitSnk | .trywaitSrc => true
  | _ => false

def State.setCc (s : State) (n : PortId) (a b : CcRead) : State := s.modTc n fun t => { t with cc1 := a, cc2 := b }

/-- CC_DETECT: a sample taken while the comparator output is ignored is discarded (R206, R213, R219). A change of the
terminations ends a completed debounce. -/
def execCcDetect (n : PortId) (mv1 mv2 : Nat) (s : State) : Host.Outcome State Fault Refusal :=
  let t := s.port[n].tc
  if t.blank then .next s
  else
    let cc1 := t.readCc mv1
    let cc2 := t.readCc mv2
    let changed := t.cc1 ≠ cc1 || t.cc2 ≠ cc2
    let s := s.setCc n cc1 cc2
    let wait (st : TcState) : State :=
      s.modTc n fun t => { t with st := st, debDone := false, blank := true }
    .next (match t.st with
      | .unattSrc => if cc1 = .rd || cc1 = .ra || cc2 = .rd || cc2 = .ra then wait .attwaitSrc else s
      | .unattSnk => if rpAny cc1 cc2 then wait .attwaitSnk else s
      | .trywaitSrc => if t.tryEnded && !rdSeen cc1 cc2 then s.toUnatt n true else s
      | _ => if changed then s.modTc n fun t => { t with debDone := false, holdAttach := false } else s)

/-- The port is held in its state by R231: in hold-over, and not taken back. -/
def State.heldHere (s : State) (n : PortId) : Bool := s.notBack n && s.port[n].tc.st.holdsAttach

def State.holdIt (s : State) (n : PortId) : State := s.modTc n fun t => { t with holdAttach := true }

/-- TCCDEBOUNCE (R206, R213, R231). -/
def execTccdebounce (n : PortId) (cc1 cc2 : Nat) (vbus : Nat) (s : State) : Host.Outcome State Fault Refusal :=
  let r := s.port[n].tc.readPins cc1 cc2
  let s := s.setCc n r.1 r.2
  .next (if s.heldHere n then s.holdIt n else s.ccDecide n r.1 r.2 vbus)

/-- TTRYCCDEBOUNCE (R206, R213, R231). -/
def execTtryccdebounce (n : PortId) (cc1 cc2 : Nat) (vbus : Nat) (s : State) : Host.Outcome State Fault Refusal :=
  let r := s.port[n].tc.readPins cc1 cc2
  let s := s.setCc n r.1 r.2
  .next (if s.heldHere n then s.holdIt n else s.tryDecide n r.1 r.2 vbus)

/-- TPDDEBOUNCE: both CC open for tPDDebounce (R213). -/
def execTpddebounce (n : PortId) (s : State) : Host.Outcome State Fault Refusal :=
  .next (match s.port[n].tc.st with
    | .attwaitSrc | .attwaitSnk | .trywaitSnk => (s.setCc n .opn .opn).toUnattHome n
    | _ => s)

/-- The end of tDRPTry (R213): while the termination is seen the port stays, and leaves once it is not. -/
def State.tryEnd (s : State) (n : PortId) : State :=
  let t := s.port[n].tc
  let stay := s.modTc n fun t => { t with tryEnded := true }
  match t.st with
  | .trySrc => if rdSeen t.cc1 t.cc2 then stay else s.enterTry n .trywaitSnk t.orient
  | .trySnk => if rpOne t.cc1 t.cc2 then stay else s.enterTry n .trywaitSrc t.orient
  | .trywaitSrc => if rdSeen t.cc1 t.cc2 then stay else s.toUnatt n true
  | _ => s

/-- TDRPTRY (R213, R231): a port that hold-over holds stays, and the end counts at its take-back. -/
def execTdrptry (n : PortId) (s : State) : Host.Outcome State Fault Refusal :=
  .next (if s.port[n].tc.holdAttach && s.heldHere n then s.modTc n fun t => { t with tryEnded := true } else s.tryEnd n)

/-- TTRYTIMEOUT (R215, R231). -/
def execTtrytimeout (n : PortId) (s : State) : Host.Outcome State Fault Refusal :=
  .next (if s.port[n].tc.holdAttach && s.heldHere n then s
    else match s.port[n].tc.st with
      | .trySnk | .trywaitSrc => s.toUnatt n true
      | _ => s)

/-- What the readings and VBUS of a take-back decide for a port that R231 has held. -/
def State.heldDecide (s : State) (n : PortId) (cc1 cc2 vbus : Nat) : State :=
  if !s.port[n].tc.holdAttach then s
  else
    let r := s.port[n].tc.readPins cc1 cc2
    let ended := s.port[n].tc.tryEnded
    let s := (s.modTc n fun t => { t with holdAttach := false, tryEnded := false }).setCc n r.1 r.2
    match s.port[n].tc.st with
    | .attwaitSrc | .attwaitSnk | .trywaitSnk => s.ccDecide n r.1 r.2 vbus
    | .trySrc | .trySnk | .trywaitSrc =>
      let t := s.tryDecide n r.1 r.2 vbus
      if ended && t.port[n].tc.st.holdsAttach then t.tryEnd n else t
    | _ => s

/-- No row of R213 applies while a swap is in progress (R214). -/
def State.swapping (s : State) (n : PortId) : Bool := s.port[n].rs.step ≠ .idle

/-- TSRCDISCONNECT (R213, R222, R232); while a swap runs a detach is seen where the Station presents Rp (R338). -/
def execTsrcdisconnect (n : PortId) (s : State) : Host.Outcome State Fault Refusal :=
  let t := s.port[n].tc
  .next (if (if s.swapping n then t.st.attached && t.rpOffer ≠ 0 else t.st.isSource) then s.detach n false else s)

/-- VBUS_LOSS: below 3.67 V for tPDDebounce outside a transition of the PD engine (R213, R351). -/
def execVbusLoss (n : PortId) (mv : Nat) (s : State) : Host.Outcome State Fault Refusal :=
  let p := s.port[n]
  .next (if (p.tc.st = .attSnk || p.tc.st = .debugSnk) && decide (mv < 3670) && !s.swapping n && !p.rs.stby &&
      !p.pd.hrPend then s.detach n true else s)

/-- VBUS_SAFE0V: VBUS reaches vSafe0V with the debounce complete (R213). -/
def execVbusSafe0v (n : PortId) (mv : Nat) (s : State) : Host.Outcome State Fault Refusal :=
  let t := s.port[n].tc
  .next (if t.st = .attwaitSrc && t.debDone && decide (mv ≤ vSafe0vMv) then
    if s.heldHere n then s.holdIt n else s.ccDecide n t.cc1 t.cc2 mv
  else s)

/-- TERRORRECOVERY (R213). -/
def execTerrorrecovery (n : PortId) (s : State) : Host.Outcome State Fault Refusal :=
  .next (if s.port[n].tc.st = .errRecov then s.toUnattHome n else s)

/-- T_SRC_END (R216). -/
def execTSrcEnd (n : PortId) (s : State) : Host.Outcome State Fault Refusal :=
  .next (if s.port[n].tc.st = .unattSrc && roleOf s.port[n].tc.cfg = 0 then s.toUnatt n true else s)

/-- COMPARATOR_BLANK_END (R206). -/
def execComparatorBlankEnd (n : PortId) (s : State) : Host.Outcome State Fault Refusal :=
  .next (s.modTc n fun t => { t with blank := false })

/-- DAC_READBACK (R209, R582). -/
def execDacReadback (n : PortId) (diff : Nat) (s : State) : Host.Outcome State Fault Refusal :=
  .next (if s.port[n].tc.opening = .opened && decide (4 < diff) then
    (s.modTc n fun t => { t with cmpFail := true }).testFail n 0 else s)

def TcState.sinkPins : TcState → Bool
  | .unattSnk | .attwaitSnk | .attSnk | .trywaitSnk | .trySnk | .debugSnk => true
  | _ => false

def sinkThreshold : Fin 3 → Nat
  | 0 => 201 | 1 => 660 | 2 => 1230

/-- SINK_THRESHOLD_STEP: one of the three steps; the third ends the round (R206, R208). The engine pauses the stepping while
it samples for SinkTxOK (R273). -/
def execSinkThresholdStep (n : PortId) (mv : Nat) (s : State) : Host.Outcome State Fault Refusal :=
  .next (if s.port[n].tc.st.sinkPins && s.port[n].tc.rpOffer = 0 && !s.port[n].pd.armed .sinkSample then
    s.modTc n fun t =>
      let seen : BitVec 2 := if !t.blank && decide (sinkThreshold t.sinkStep < mv) then BitVec.ofNat 2 (t.sinkStep.val + 1)
        else t.rpRound
      if t.sinkStep = 2 then
        { t with sinkStep := 0, rpRound := 0, blank := true, rpPend := if seen = t.rpSeen then none else some seen }
      else { t with sinkStep := t.sinkStep + 1, rpRound := seen, blank := true }
  else s)

/-- RP_LEVEL_CHANGE: the change has held for tPDDebounce (R208); without a contract PP_PROT follows the current it gives
(R329). -/
def execRpLevelChange (n : PortId) (s : State) : Host.Outcome State Fault Refusal :=
  .next (s.modPort n fun p =>
    match p.tc.rpPend with
    | some l =>
      if p.tc.st.sinkPins then
        let t := { p.tc with rpSeen := l, rpPend := none }
        let p := { p with tc := t }
        if (p.tc.st = .attSnk || p.tc.st = .debugSnk) && p.pp.sink && !p.pd.contract then
          { p with ct := { p.ct with imax := t.rpCurrent false }
                   pp := ({ p.pp with prot := protFor (t.rpCurrent false) } : Path).loadFt }
        else p
      else p
    | none => p)

/-- PATH_BOOKING_RETRY: the PATH booking made again (R220, R221). -/
def execPathBookingRetry (n : PortId) (s : State) : Host.Outcome State Fault Refusal :=
  .next (if s.port[n].tc.st.attached && s.port[n].tc.pathRetry then s.bookPath n else s)

/-- PATH_GRANT_LIMIT: 250 ms from entry, or from the end of RETRY where that is later (R214, R220). -/
def execPathGrantLimit (n : PortId) (s : State) : Host.Outcome State Fault Refusal :=
  let p := s.port[n]
  .next (if p.tc.st.isSource && p.tc.pathLimit && !p.pp.retryRun && p.pp.st ≠ .lockoff then
    (s.cancelKind n .path).errRecov n else s)

/-- VCONN_OC (R226, R227, R287); during a VCONN swap it counts as failing to reach 4.75 V (R344). -/
def execVconnOc (n : PortId) (s : State) : Host.Outcome State Fault Refusal :=
  .next (if s.port[n].tc.vconnOn then
    let r := s.port[n].rs
    let s := (s.vconnRelease n).modTc n fun t => { t with vconnOc := true, vconnOff := true }
    if r.code = .vconnOn && (r.step = .rise || r.step = .psRdy) then (s.modRs n fun r => { r with fail := true }).askHr n else s
  else s)

end Sys2Proof.Machine
end

