-- ==== Sys2Proof/Machine/PowerPath.lean ====
section
/-! DEFINITION. The port power path (chapter 09): closing, trips, pulses, discharge, trim. The estimate, the calibration
result and the trim loop, which act on contracts, are in Thermal.lean. V_ds is in µV, currents of samples in 0.5 mA. -/
namespace Sys2Proof.Machine

/-! ### Samples (R372-R374) -/

/-- The current of a sample, 0.5 mA, positive from bus to connector. -/
def Sample.cur (x : Sample) : Int := x.i.toInt

def sumAbs (l : List Sample) : Nat := (l.map fun x => x.cur.natAbs).sum

/-- Mean |I| over the last `k` samples, mA. -/
def Path.meanAbs (p : Path) (k : Nat) : Rat := (sumAbs (p.hist.take k) : Rat) / (2 * k)

/-- Mean Pn_VC over the last `k` samples, mV. -/
def Path.meanVc (p : Path) (k : Nat) : Rat := (((p.hist.take k).map fun x => x.vc.toNat).sum : Rat) / k

/-! ### Registers (R262) -/

def calPer (w : Word) : Nat := bits w 31 28
def calPmW (w : Word) : Nat := 2000 * (bits w 27 24 + 1)
def retrySec (w : Word) : Nat := max 1 (bits w 15 12)
def trimDb (w : Word) : Nat := bits w 5 0

/-- R_REF µΩ and T_REF in 1/16 °C: the Palette's, or those learned (R251). -/
def State.thermRef (s : State) (n : PortId) : Option (Rat × Int) :=
  let r := s.portU16 n 0x2E
  if r ≠ 0 then some (r, s.portS16 n 0x30) else s.port[n].pp.learned

/-- T_FET, 1/16 °C (R251); rounding log entry 8. -/
def State.tFet (s : State) (n : PortId) : Option Int :=
  match s.thermRef n with
  | none => none
  | some (r, t) =>
    let a := s.portU16 n 0x28
    if r = 0 || a = 0 then none
    else some (t + roundFree (16 * (s.port[n].pp.rEst / r - 1) * 1000000 / a))

/-- PP_RPAIR, at its reset value until the port opens and R_est is written (R243, R262). -/
def State.ppRpair (s : State) (n : PortId) : Word :=
  if s.port[n].pp.rEst = 0 then 0 else fld (rEst16 s.port[n].pp).toNat 16 ||| fld (temp16 (s.tFet n)) 0
def ppCal (p : Path) : Word := fld p.rCal.toNat 16 ||| fld p.iCal.toNat 0
def ppVset (p : Path) : Word := fld p.code.toNat 20 ||| fld p.ftCode.toNat 10 ||| fld p.trim.toNat 0

/-! ### Trim (R258, R259) -/

/-- Trim, less the codes of current limiting: what the setpoint adds to the code of its voltage (R258, R259, R316). -/
def Path.adj (p : Path) : Int := p.trim.toInt - p.lim

/-- A pending trim applied at a grant: upward it first takes back what current limiting has lowered (R316); beyond ±256 codes
TRIM_LIM is set. -/
def Path.applyTrim (p : Path) : Path :=
  let back := min p.lim p.trimPend.toNat
  let t := max (-512) (min 511 (p.trim.toInt + (p.trimPend - back)))
  { p with trim := BitVec.ofInt 10 t, lim := p.lim - back, code := code12 (p.code.toNat + (t - p.trim.toInt) + back),
           trimPend := 0 }

/-- Trim stops from the first grant of a transition until 20 ms after its last, and in a swap from source to sink from Accept
on (R259, R341). -/
def State.trimStopped (s : State) (n : PortId) : Bool :=
  s.port[n].rs.code = .prSrcSnk && s.port[n].rs.step ≠ .idle && s.port[n].rs.step ≠ .asked ||
  (s.port[n].ct.plan.any fun q => q.fired ≠ 0) || s.port[n].pp.trimStop.any fun t => !due s.time.ct t

def State.trimGrant (s : State) (n : PortId) : State :=
  if s.port[n].pp.trimPend = 0 || s.trimStopped n then s
  else
    let s := s.modPp n Path.applyTrim
    let lim := decide (256 < s.port[n].pp.trim.toInt.natAbs)
    let was := s.port[n].pp.trimLim
    let s := s.modPp n fun p => { p with trimLim := lim }
    if lim && !was then s.pathEvent n 5 0 else s

/-- The port's core, or core SB for a Platform in fallback, keeps its estimate and trim (R249, R588). -/
def State.coreRuns (s : State) (n : PortId) : Bool :=
  (s.core[s.portCore n]).up && (!s.port[n].hold || s.plat[platOf n].fallback)

/-- STEP of a SET that moves the setpoint by `dv` volts: |ΔV| × |I|, at least 1 unit (R259). -/
def Path.voltUnits (p : Path) (dv : Rat) : Int := max 1 (dv * p.meanAbs 5000 / 250).ceil

/-- TRIM_SET: no grant came within 250 ms (R259); DUR 4 tk as for every SET. The core books it, so none is made while it does
not run. -/
def execTrimSet (n : PortId) (s : State) : Host.Outcome State Fault Refusal :=
  let p := s.port[n].pp
  .next (if s.coreRuns n && p.trimPend ≠ 0 && p.st = .closed && !p.sink && !s.trimStopped n then
    (s.bookPort n .set 4 none (p.voltUnits ((p.trimPend.natAbs * 256 : Rat) / (max 1 (s.portU16 n 0x22) : Nat))) 0).1
  else s)

/-! ### Grants of SET and PATH (R24, R224, R226, R239-R242, R256) -/

/-- The code of a voltage that need not be whole millivolts (R258). -/
def State.srcCodeQ (s : State) (n : PortId) (mv : Rat) (trim : Int) : BitVec 12 :=
  code12 (s.portS16 n 0x20 + roundHalfUp ((s.portU16 n 0x22 : Rat) * mv / 256000) + trim)

/-- One increment of a transition: the setpoint, at the first the new PP_PROT, and at a lower voltage the discharge assist
(R311, R314, R329). -/
def State.planStep (s : State) (n : PortId) : State :=
  match s.port[n].ct.plan with
  | none => s
  | some q =>
    let q' := { q with fired := q.fired + 1 }
    let mv : Rat := q.v0 + (q'.fired : Rat) * ((q.v1 : Int) - q.v0) / (max 1 q.k : Nat)
    s.modPort n fun p =>
      let pp := match p.pp.protPend with
        | some w => ({ p.pp with prot := w, protPend := none }).loadFt
        | none => p.pp
      { p with ct := { p.ct with plan := some q' }
               pp := { pp with code := s.srcCodeQ n mv p.pp.adj, assist := decide (q.v1 < q.v0),
                               trimStop := some (s.time.ct + 40960) } }

/-- SET_GRANT: an opening loads the 5 V code and asserts Pn_CEN; on a port that is open it brings the code to the contract
voltage, a pending trim with it (R241, R258, R259, R350). -/
def execSetGrant (n : PortId) (s : State) : Host.Outcome State Fault Refusal :=
  match s.dueEntry n.val .set with
  | none => .next s
  | some i =>
    let s := s.fireEntry i
    .next (if s.port[n].ct.plan.any fun q => q.entry = some i then (s.trimGrant n).planStep n
    else if s.port[n].tc.opening = .booked then
      s.modPort n fun p => { p with pp := { p.pp with code := s.srcCode n 5000 p.pp.trim.toInt, lim := 0, cen := true, cpg := false },
                                    tc := { p.tc with opening := .starting } }
    else
      let s := s.trimGrant n
      if s.port[n].pp.sink || s.port[n].ct.mv = 0 then s
      else s.modPp n fun p => { p with code := s.srcCode n s.port[n].ct.mv p.adj })

/-- BOOKING_RETRY: the SET of an opening made again every 10 ms by the core that opens the port, while it runs (R241); the
ROLE of a swap is in Swap.lean. -/
def State.openRetry (s : State) (n : PortId) : State :=
  if s.port[n].tc.opening = .retry && s.coreRuns n then s.openBook n else s

/-- VCONN in the tick of the PATH grant (R224, R226), or its return after a Hard Reset (R282). -/
def State.vconnTry (s : State) (n : PortId) : State :=
  let t := s.port[n].tc
  let k := platOf n
  if (t.st = .attSrc && (t.raOther || s.port[n].rs.baseVc) || t.st = .attSnk && s.port[n].rs.baseVc) && vconnEn t.cfg &&
      s.plat[k].vconn && !t.vconnOff && !t.vconnOn then
    if s.vconnCount k < s.vcMax k then s.vconnAttach n
    else s.modTc n fun t => { t with vconnWait := true }
  else s

/-- The path may close at a grant: VCP has reached 11 V, and RETRY has passed (R60, R239, R256, R613). -/
def State.mayClose (s : State) (n : PortId) : Bool :=
  !s.port[n].pp.retryRun && !s.port[n].pp.vcpWait && s.sup.vcpOk

/-- A path that is OPEN closes at a grant; without Pn_CPG it stays open and CLOSE_FAIL is set (R239, R240). -/
def State.closePath (s : State) (n : PortId) : State :=
  if s.port[n].pp.st ≠ .opn || !s.mayClose n then s
  else if !s.port[n].pp.cpg then s.modPp n fun p => { p with closeFail := true }
  else s.modPp n fun p => { p with st := .closing, i2t := 0 }

/-- PATH_GRANT: the row asks for a path that is OPEN, whatever the port's attach state (R239). -/
def execPathGrant (n : PortId) (s : State) : Host.Outcome State Fault Refusal :=
  match s.dueEntry n.val .path with
  | none => .next s
  | some i =>
    let s := (s.fireEntry i).trimGrant n
    let p := s.port[n].pp
    .next (if p.st ≠ .opn then s
      else if !s.mayClose n then s.modTc n fun t => { t with pathRetry := t.st.attached }
      else if !p.cpg then s.closePath n
      else ((s.closePath n).modTc n fun t => { t with pathRetry := false, pathLimit := false }).vconnTry n)

/-- CLOSING_DONE: the far side within 0.1 V of the near side (R239, R240). -/
def execClosingDone (n : PortId) (near far : Nat) (s : State) : Host.Outcome State Fault Refusal :=
  .next (if s.port[n].pp.st = .closing && decide (near ≤ far + 100) && decide (far ≤ near + 100) then
    s.modPp n fun p => { p with st := .closed } else s)

/-! ### Trips (R242, R252-R254, R257, R261) -/

/-- CLOSE_FAIL: not closed by t + DUR (R240). -/
def execCloseFail (n : PortId) (s : State) : Host.Outcome State Fault Refusal :=
  .next (if (s.port[n].pp.before s.time.ct).st = .closing then s.trip n .closeFail else s)

/-- CPG_LOST (R242). -/
def execCpgLost (n : PortId) (s : State) : Host.Outcome State Fault Refusal :=
  .next ((s.modPp n fun p => { p with cpg := false }).trip n .cpgLost)

/-- PORT_FAST_TRIP: V_ds at or above the code in force (R252). -/
def execPortFastTrip (n : PortId) (vds : Int) (s : State) : Host.Outcome State Fault Refusal :=
  .next (if (s.port[n].pp.before s.time.ct).fastOver vds then s.trip n .fast else s)

/-- PORT_REVERSE_TRIP (R254). -/
def execPortReverseTrip (n : PortId) (vds : Int) (s : State) : Host.Outcome State Fault Refusal :=
  .next (if (s.port[n].pp.before s.time.ct).revOver vds then s.trip n .reverse else s)

/-- I2T_TRIP (R254). -/
def execI2tTrip (n : PortId) (s : State) : Host.Outcome State Fault Refusal :=
  .next (if (s.port[n].pp.before s.time.ct).i2tOver then s.trip n .i2t else s)

/-- A code held for a pulse is in the standby comparator from 24 ticks after its grant on, or from the end of the pulse
(R257). -/
def Path.ftSettle (p : Path) (now : CT) : Path :=
  if p.ftHold.isSome && !(p.pulse.any fun x => decide ((now - x.1).toNat < 24)) then { p with ftPend := p.ftHold, ftHold := none } else p

/-- FT_CODE_TAKEOVER (R253, R257). -/
def execFtCodeTakeover (n : PortId) (s : State) : Host.Outcome State Fault Refusal :=
  .next (s.modPp n fun p =>
    let p := p.ftSettle s.time.ct
    match p.ftPend with
    | some c => { p with ftCode := c, ftPend := none }
    | none => p)

/-! ### Calibration (R245-R247) -/

/-- Pn_DSG is high for a pulse: from one tick after its grant to 22 ticks after it (R247). -/
def Path.pulseOn (p : Path) (now : CT) : Bool :=
  p.pulse.any fun x => decide (1 ≤ (now - x.1).toNat) && decide ((now - x.1).toNat < 22)

/-- The pulse current aimed at, mA: rounding log entry 8. -/
def State.calMa (s : State) (n : PortId) : Rat :=
  max 250 (min 1000 ((1000 * calPmW (s.ppCfg n) : Nat) / (max 1 s.port[n].ct.mv : Nat) : Rat))

/-- The booking of one pulse at a match of CH(4n + 1): none in sink role, which FRS standby is too (R348), or with the path not
CLOSED (R245), and none in a transition or swap (R313, R341). -/
def State.calBook (s : State) (n : PortId) : State :=
  let p := s.port[n]
  if p.pp.st = .closed && !p.pp.sink && p.rs.pr ≠ .sink && p.ct.plan.isNone && p.rs.step = .idle && s.coreRuns n &&
      calPer (s.ppCfg n) ≠ 0 then
    (s.bookPort n .cal 24 none ((p.ct.mv : Rat) * s.calMa n / 250000).ceil 0).1
  else s

/-- CAL_GRANT (R246, R247). -/
def execCalGrant (n : PortId) (s : State) : Host.Outcome State Fault Refusal :=
  match s.dueEntry n.val .cal with
  | none => .next s
  | some i =>
    let s := (s.fireEntry i).trimGrant n
    let p := s.port[n].pp
    .next (if p.st = .closed && !p.sink && s.port[n].rs.pr ≠ .sink && decide (p.meanAbs 20 ≤ 4000) && !p.i2tOver then
      s.modPp n fun p => { p with calSkip := false, pulse := some (s.time.ct, (s.calMa n).floor.toNat) }
    else s.modPp n fun p => { p with calSkip := true })

/-! ### Discharge and retry (R239, R255, R256, R613) -/

/-- DISCHARGE ends: TRIPPED if a trip caused it, otherwise OPEN. -/
def State.dischargeDone (s : State) (n : PortId) : State :=
  (s.modPp n fun p => { p with st := if p.byTrip then .tripped else .opn, byTrip := false, byVcp := false }).lockoffCheck n

/-- DISCHARGE_TIMEOUT: 600 ms (R255, R260); after a VCP fault it is no failed self-test (R60). -/
def execDischargeTimeout (n : PortId) (s : State) : Host.Outcome State Fault Refusal :=
  if s.port[n].pp.st = .discharge then
    let byVcp := s.port[n].pp.byVcp
    let s := s.sketchTrigger n .dsgFail
    let s := (s.modPp n fun p => { p with dsgFail := true }).dischargeDone n
    .next (if byVcp then s else s.testFail n 2)
  else .next s

/-- RETRY_EXPIRY: once CH(4n + 3) has counted RETRY, TRIPPED opens, and a PATH that waits is booked (R220, R221, R239, R256,
R613). -/
def execRetryExpiry (n : PortId) (s : State) : Host.Outcome State Fault Refusal :=
  if s.chan[(⟨4 * n.val + 3, by omega⟩ : Fin 128)].run then .next s
  else
    let s := s.modPp n fun p => { p with retryRun := false, st := if p.st = .tripped then .opn else p.st }
    .next (if s.port[n].tc.st.attached && s.port[n].tc.pathRetry then s.bookPath n else s)

/-- HARDWARE_TEST_FAIL (R582, R585). -/
def execHardwareTestFail (n : PortId) (test : Fin 6) (s : State) : Host.Outcome State Fault Refusal :=
  .next (if s.inService n then s.testFail n test else s)

/-- VCONN_PRESENT_CHANGE: 4.80 V rising, 50 mV of hysteresis; where it is absent no cable answers, as CABLE_ABSENT shows
(R225, R228, R287). -/
def execVconnPresentChange (k : PlatId) (mv : Nat) (s : State) : Host.Outcome State Fault Refusal :=
  .next (s.modPlat k fun p => { p with vconn := decide (4800 ≤ mv) || p.vconn && decide (4750 ≤ mv) })

end Sys2Proof.Machine
end

