-- ==== Sys2Proof/Machine/Contract.lean ====
section
/-! DEFINITION. Contracts and the card power budget (chapter 11). Powers are in 0.25 W unless named otherwise. -/
namespace Sys2Proof.Machine

/-! ### Messages at hand (R270, R274, R278) -/

/-- The Turntable acts on the queued message without waiting for the core: FR_Swap after the signal, Accept and PS_RDY in a
swap (R341-R350). -/
def State.turns (s : State) (n : PortId) (m : PdMsg) : Bool :=
  m.sop = .sop && match m.body with
    | .frSwap => s.port[n].rs.code = .frsSource
    | .accept | .psRdy => s.port[n].rs.step ≠ .idle
    | _ => false

/-- The message a row acts on: one that the Turntable takes, whose copy keeps its place in the queue until a core reads it; or
the oldest the engine is to answer itself (true); or else the oldest in the receive queue where its core runs. -/
def State.takeMsg (s : State) (n : PortId) (ok : PdBody → Bool) : Option (PdMsg × Bool × State) :=
  let d := s.port[n].pd
  match d.rxq.find? fun m => s.turns n m && ok m.body with
  | some m => some (m, true, s.modPd n fun d => { d with rxq := d.rxq.erase m, rxDone := d.rxDone + b2n (!s.served n) })
  | none => match d.eng with
  | m :: t => if ok m.body then some (m, true, s.modPd n fun d => { d with eng := t }) else none
  | [] =>
    match d.rxq with
    | m :: t => if s.served n && ok m.body then some (m, false, s.modPd n fun d => { d with rxq := t }) else none
    | [] => none

/-- Reject, to a Revision 2.0 partner in place of Not_Supported (R274, R275). -/
def State.notSup (s : State) (n : PortId) (ty : Sop) : PdBody :=
  let c : Fin 3 := match ty with | .sop => 0 | .sop1 => 1 | .sop2 => 2
  if s.port[n].pd.ctx[c].rev = 0b01 then .reject else .notSupported

/-! ### PC_CFG (R330) -/

def eprEn (w : Word) : Bool := bit w 23
def ppsEn (w : Word) : Bool := bit w 22
def avsEn (w : Word) : Bool := bit w 21
def sinkMaxW (w : Word) : Nat := min 100 (bits w 20 14)
def vStepMv (w : Word) : Nat := 500 * (bits w 13 11 + 1)

/-! ### Offers (R287, R290-R294, R323) -/

/-- The cable reading in force: a cable not answered, or VCONN not sourced, reads as unmarked (R287, R292). -/
def State.cableMarked (s : State) (n : PortId) : Bool :=
  bit s.port[n].pd.cable 24 && s.port[n].tc.vconnOn && s.plat[platOf n].vconn
def State.cable5A (s : State) (n : PortId) : Bool := s.cableMarked n && bits s.port[n].pd.cable 31 30 = 2
def State.cableEpr (s : State) (n : PortId) : Bool :=
  s.cable5A n && bit s.port[n].pd.cable 27 && bits s.port[n].pd.cable 29 28 = 3
def State.cableI10 (s : State) (n : PortId) : Nat := if s.cable5A n then 500 else 300

/-- The current of a fixed object, 10 mA (R293). -/
def offerI10 (cable op mv : Nat) : Nat := min 500 (min cable (op * 25000 / mv))

/-- A fixed object offered, where its mask bit is set and its current reaches 1.00 A. -/
def fixedObj (w : Word) (maskBit cable op mv : Nat) : List Pdo :=
  let i := offerI10 cable op mv
  if bit w maskBit && decide (100 ≤ i) then [.fixed mv i] else []

def ppsObj (w : Word) (cable op : Nat) : List Pdo :=
  let i50 := min 100 (min (cable / 5) (op * 5000 / 21000))
  if ppsEn w && decide (20 ≤ i50) then [.pps 3300 21000 i50] else []

def sprObjs (w : Word) (cable op : Nat) (rev2 : Bool) : List Pdo :=
  [.fixed 5000 (max 300 (offerI10 cable op 5000))] ++ fixedObj w 5 cable op 9000 ++ fixedObj w 6 cable op 15000 ++
  fixedObj w 7 cable op 20000 ++ (if rev2 then [] else ppsObj w cable op)

/-- PD_CFG.REV_MAX (R289) as latched. -/
def revMax (w : Word) : BitVec 2 := if bits w 31 30 = 1 then 0b01 else 0b10

/-- The port is at Revision 2.0: no PPS, no EPR (R264). -/
def State.rev2 (s : State) (n : PortId) : Bool :=
  s.port[n].pd.ctx[0].rev = 0b01 || revMax s.port[n].tc.pdCfg = 0b01

/-- The objects of Source_Capabilities or EPR_Source_Capabilities; EPR objects in EPR mode only (R264, R290, R292, R293). -/
def State.sourceObjs (s : State) (n : PortId) (op : Nat) (epr : Bool) : List Pdo :=
  let w := s.pcCfg n
  let cable := s.cableI10 n
  let spr := sprObjs w cable op (s.rev2 n)
  if !epr then spr
  else
    let pad := spr ++ List.replicate (7 - spr.length) .zero
    if s.cableEpr n && s.port[n].pd.epr then
      pad ++ fixedObj w 8 cable op 28000 ++ fixedObj w 9 cable op 36000 ++ fixedObj w 10 cable op 48000 ++
      (if avsEn w && decide (28 ≤ min 240 (op / 4)) then [.avs 15000 48000 (min 240 (op / 4))] else [])
    else pad

/-- The flags of the first object (R291). -/
def State.capFlags (s : State) (n : PortId) : CapFlags :=
  let drp := roleOf s.port[n].tc.cfg ≠ 1
  { dualPower := drp, unconstrained := true, dualData := drp, unchunked := false,
    eprCapable := eprEn (s.pcCfg n) && decide (400 < s.portMax n) && !s.rev2 n }

/-- Sink_Capabilities (R323). -/
def sinkObj (w : Word) (maskBit : Option Nat) (mv : Nat) : List Pdo :=
  if maskBit.all fun b => bit w b then [.fixed mv (min 300 (sinkMaxW w * 100000 / mv))] else []
def State.sinkObjs (s : State) (n : PortId) : List Pdo :=
  let w := s.pcCfg n
  sinkObj w none 5000 ++ sinkObj w (some 5) 9000 ++ sinkObj w (some 6) 15000 ++ sinkObj w (some 7) 20000

def pdEn (w : Word) : Bool := bit w 29

/-- The target that a port's offers are built with: while SHEDDING is set, or until its capabilities are sent (R306, R308). -/
def State.underTarget (s : State) (n : PortId) : Option Nat :=
  if s.bg.shedding || s.port[n].ct.shedDue then s.port[n].ct.target else none

/-- The offer ceiling of capabilities built now, without a kernel (R301, R306, R308). -/
def State.offerFor (s : State) (n : PortId) : Nat := (s.underTarget n).getD (s.offerCeil n)

/-- Capabilities built with an offer ceiling, copied and handed to the engine (R275, R290, R330). -/
def State.capsSend (s : State) (n : PortId) (op : Nat) : State :=
  let epr := s.port[n].pd.epr
  let objs := s.sourceObjs n op epr
  let body : PdBody := if epr then .eprSourceCaps (s.capFlags n) objs else .sourceCaps (s.capFlags n) objs
  let s := s.modPort n fun p =>
    { p with ct := { p.ct with offer := op, waits := 0, shedDue := false, shed := (s.underTarget n).isSome || p.ct.shed }
             pd := { p.pd with objs := objs, capsCnt := if p.pd.contract then p.pd.capsCnt else p.pd.capsCnt + 1,
                               cacheSrc := if epr then p.pd.cacheSrc else some body,
                               cacheEprSrc := if epr then some body else p.pd.cacheEprSrc } }
  ({ s with bg := { s.bg with shedQueue := s.bg.shedQueue.filter fun m => m ≠ n } }).sendMsg n .sop body true

/-- Capabilities can be sent: an attached source with PD, its path closed, no transition, swap or Hard Reset (R294). -/
def State.maySendCaps (s : State) (n : PortId) : Bool :=
  let p := s.port[n]
  s.served n && p.tc.st.isSource && pdEn p.tc.pdCfg && p.pp.st = .closed && p.ct.plan.isNone && p.rs.step = .idle &&
  !p.pd.hrPend && !p.pd.armed .swapSourceStart && !s.plat[platOf n].fallback

/-! ### The policy kernel (R305, R537, R538) -/

def State.policySlot (s : State) : KSlot := s.core[coreSB].slot

/-- P_meas: mean V × I over the last 10 ms in 0.25 W, not below 0 (R339, R537). -/
def State.pMeasQ (s : State) (n : PortId) : Rat :=
  let l := s.port[n].pp.hist.take 50000
  ((max 0 (l.map fun x => (x.vc.toNat : Int) * x.cur).sum : Int) : Rat) / (max 1 l.length * 500000 : Nat)

/-- The same as a whole number, for the policy kernel: rounding log entry 8. -/
def State.pMeas (s : State) (n : PortId) : Nat := (roundFree (s.pMeasQ n)).toNat

/-- The IN window of an invocation (R537). -/
def PolicyAsk.port : PolicyAsk → Option PortId
  | .offer n | .rise n | .answer n _ => some n
  | .shed => none

def State.policyIn (s : State) (ask : PolicyAsk) : List Byte :=
  let what := ask.port
  let hd := leBytes 4 (if what.isSome then 1 else 2) ++ leBytes 4 (match what with | some n => n.val | none => 0xFF) ++
    leBytes 4 s.cardBudget ++ leBytes 4 s.committed ++ leBytes 4 (BitVec.ofInt 32 s.headroom).toNat
  let entry (n : PortId) : List Byte :=
    let p := s.port[n]
    leBytes 2 (s.kp n) ++ leBytes 2 (s.portMax n) ++ leBytes 2 (s.pMeas n) ++ leBytes 2 (temp16 (s.tFet n)) ++
    leBytes 1 p.ct.kind.code ++ leBytes 1 p.ct.waits ++
    leBytes 1 (b2n p.tc.st.attached + 2 * b2n (p.rs.pr = .source) + 4 * b2n p.ct.therm.isSome + 8 * b2n p.ct.plan.isSome) ++
    [0, 0, 0, 0, 0]
  hd ++ List.replicate 44 0 ++ (allPorts.map entry).flatten

/-- An invocation of a core's kernel begins at an entry: the switch takes 4 cycles, and CYC counts from here (R504, R527). -/
def VCore.enter (c : VCore) (entry : Nat) : VCore :=
  { c with slot := { c.slot with busy := true, spent := false }
           fw := { c.fw with cyc := c.fw.cyc + 4 }
           kn := { c.kn with pc := BitVec.ofNat 32 entry, cyc := 0, prods := [], accAt := Vector.replicate 2 0, loaded := none } }

/-- The invocation at the head begins: its IN window is filled and the kernel context enters RUN. -/
def State.policyBegin (s : State) : State :=
  match s.bg.policy with
  | [] => s
  | what :: _ =>
    s.modCore coreSB fun c =>
      ({ c with slot := { c.slot with inw := Mem.write zeroByte c.slot.inw 0 (s.policyIn what) } } : VCore).enter c.slot.run

/-- Core SB asks the policy kernel, or goes on with the value of its own rules where none runs (R538). -/
def State.policyRuns (s : State) : Bool := s.policySlot.st = .running
def State.policyAsk (s : State) (what : PolicyAsk) : State :=
  let s' := { s with bg := { s.bg with policy := s.bg.policy ++ [what] } }
  if s.bg.policy.isEmpty then s'.policyBegin else s'

/-- An offer recomputed and sent (R301, R305). -/
def State.offerSend (s : State) (n : PortId) : State :=
  if (s.underTarget n).isNone && s.policyRuns then s.policyAsk (.offer n) else s.capsSend n (s.offerFor n)

/-- No more Source_Capabilities are sent to a partner that has left nCapsCount of them unanswered (R288). -/
def State.capsLeft (s : State) (n : PortId) : Bool := s.port[n].pd.contract || decide (s.port[n].pd.capsCnt < 50)

/-- The ports that a shedding sends capabilities first, in its order, as far as they can be sent (R306 step 3). -/
def State.shedAhead (s : State) (n : PortId) : List PortId :=
  if s.bg.shedQueue.contains n then (s.bg.shedQueue.takeWhile fun m => m ≠ n).filter s.maySendCaps else []

/-- CAPABILITIES_SEND (R290-R294, R301, R305, R306): the first capabilities, new ones, and those a shedding calls for, in its
order. -/
def execCapabilitiesSend (n : PortId) (s : State) : Host.Outcome State Fault Refusal :=
  .next (if s.maySendCaps n && s.capsLeft n then ((s.shedAhead n).foldl (fun s m => s.offerSend m) s).offerSend n else s)

/-- Capabilities for a risen offer may be sent: an offer below M_p, at most once every 10 s (R304). -/
def State.riseDue (s : State) (n : PortId) : Bool :=
  let c := s.port[n].ct
  c.target.isNone && decide (c.offer < s.portMax n) && s.port[n].pd.objs ≠ [] && c.capsAt.all fun t => due s.time.ct (t + 20480000)

/-- They are sent where O_p has risen by 10 W or more (R304). -/
def State.riseSend (s : State) (n : PortId) (op : Nat) : State :=
  if s.maySendCaps n && s.riseDue n && decide (s.port[n].ct.offer + 40 ≤ op) then
    (s.modCt n fun c => { c with capsAt := some s.time.ct }).capsSend n op
  else s

/-- OFFER_RISE_CAPS: three budget Waits in a row, or a risen offer, which the policy kernel judges where one runs (R304,
R305). -/
def execOfferRiseCaps (n : PortId) (s : State) : Host.Outcome State Fault Refusal :=
  .next (if !s.maySendCaps n then s
  else if 3 ≤ s.port[n].ct.waits then s.offerSend n
  else if s.riseDue n && s.policyRuns then s.policyAsk (.rise n)
  else s.riseSend n (s.offerCeil n))

/-! ### Shedding (R306-R308) -/

/-- Targets T_p of R306, rounded down. -/
def State.shedTarget (s : State) (n : PortId) : Nat :=
  let floor := 60 * (allPorts.filter s.inService).length
  let k := s.kp n
  60 + (k - 60) * (s.cardBudget - floor) / max 1 (s.committed - floor)

def insertPort (f : PortId → Nat) (n : PortId) : List PortId → List PortId
  | [] => [n]
  | m :: t => if f m < f n || (f m = f n && n < m) then n :: m :: t else m :: insertPort f n t

/-- Steps 2 and 3 with the targets given: the ports to be sent new capabilities, by K_p − T_p. -/
def State.shedWith (s : State) (target : PortId → Nat) : State :=
  let l := (allPorts.filter fun n => decide (target n < s.kp n)).foldr (insertPort fun n => s.kp n - target n) []
  let s := l.foldl (fun s n => s.modCt n fun c => { c with target := some (target n), shedDue := true }) s
  { s with bg := { s.bg with shedQueue := l } }

/-- C has fallen below COMMITTED (R306). -/
def State.shedStart (s : State) : State :=
  if decide (s.cardBudget < s.committed) && s.sbUp then
    let s := if s.bg.shedding then s else { s with bg := { s.bg with shedding := true } }.shedEvent 1
    if s.policyRuns then s.policyAsk .shed else s.shedWith s.shedTarget
  else s.shedEnd

/-- The copy R275 keeps of a message the core sends; the objects last sent are those of R302. -/
def Pd.keep (d : Pd) (b : PdBody) (src : Bool) : Pd :=
  match b with
  | .sourceCaps _ o => { d with cacheSrc := some b, objs := if src && !d.epr then o else d.objs }
  | .eprSourceCaps _ o => { d with cacheEprSrc := some b, objs := if src && d.epr then o else d.objs }
  | .sinkCaps .. => { d with cacheSnk := some b }
  | .eprSinkCaps _ => { d with cacheEprSnk := some b }
  | _ => d

/-- The core's answer to a request for source capabilities, built with an offer ceiling (R275, R290, R330). -/
def State.capsReply (s : State) (n : PortId) (epr : Bool) (op : Nat) : State :=
  let objs := s.sourceObjs n op epr
  let b : PdBody := if epr then .eprSourceCaps (s.capFlags n) objs else .sourceCaps (s.capFlags n) objs
  let src := s.port[n].tc.st.isSource
  ((s.modPd n fun d => d.keep b src).modCt n fun c => { c with offer := op }).sendMsg n .sop b false

/-- An answer of the policy kernel taken; core SB's own values where it gave none (R538). -/
def State.policyTake (s : State) (what : PolicyAsk) (ok : Bool) : State :=
  let out (off : Nat) : Nat := leNat (Mem.read zeroByte s.policySlot.outw off 2)
  let op (n : PortId) : Nat := if ok then max 60 (min (s.offerCeil n) (out 0)) else s.offerCeil n
  match what with
  | .offer n => if s.maySendCaps n then s.capsSend n (op n) else s
  | .rise n => s.riseSend n (op n)
  | .answer n epr => if s.served n && s.port[n].tc.st.attached then s.capsReply n epr (op n) else s
  | .shed =>
    let t (n : PortId) : Nat := max 60 (min (s.kp n) (out (0x40 + 2 * n.val)))
    let sum := ((allPorts.filter s.inService).map t).sum
    s.shedWith (if ok && decide (sum ≤ s.cardBudget) then t else s.shedTarget)

/-- The end of an invocation of the policy kernel, with its answer or none. The invocations that wait follow, without the
kernel where it no longer runs. -/
def State.policyAnswer (s : State) (ok : Bool) : State :=
  match s.bg.policy with
  | [] => s
  | what :: rest =>
    let s := ({ s with bg := { s.bg with policy := rest } } : State).policyTake what ok
    if s.policyRuns then s.policyBegin
    else rest.foldl (fun s w => s.policyTake w false) { s with bg := { s.bg with policy := [] } }

/-- SHED_TIMEOUT: 500 ms from the GoodCRC to the new capabilities, with no contract at or below T_p (R307, R333). -/
def execShedTimeout (n : PortId) (s : State) : Host.Outcome State Fault Refusal :=
  let c := s.port[n].ct
  .next (if c.shed && c.shedTimer && c.plan.isNone && c.target.any fun t => decide (t < c.commit) then (s.contractEvent n 2).askHr n else s)

/-- P_c: V × I of the explicit contract in source role (R299). -/
def State.contractPower (s : State) (n : PortId) : Nat :=
  if s.port[n].pd.contract && s.port[n].tc.st.isSource then units s.port[n].ct.mv s.port[n].ct.i10 else 0

/-- The thermal limit set (R308): 75 % of the present P_c, and no less than 15 W; the port alone is shed, after the PS_RDY of
a transition (R307), and CT_STAT.SHED follows its capabilities. DESIGN CHOICE: R308 gives no rounding of the 75 %; the model
rounds down to 0.25 W (log entry 160). -/
def State.thermalSet (s : State) (n : PortId) : State :=
  let c := s.port[n].ct
  if c.therm.isSome then s
  else
    let lim := max 60 (3 * s.contractPower n / 4)
    let s := (s.modCt n fun c => { c with therm := some lim }).contractEvent n 4
    if lim < c.commit then
      let s := s.modCt n fun c => { c with target := some lim, shedDue := true }
      if s.maySendCaps n then s.capsSend n lim else s
    else s

/-- THERMAL_LIMIT_REMOVE: T_FET below T_WARN − 10 °C for 60 s (R308, R333). -/
def execThermalLimitRemove (n : PortId) (s : State) : Host.Outcome State Fault Refusal :=
  .next (if s.port[n].ct.therm.isSome && (s.tFet n).any fun t => decide (t < s.portS16 n 0x32 - 160) then
    ((s.modCt n fun c =>
      { c with therm := none, target := if s.bg.shedding then c.target else none, shed := c.shed && s.bg.shedding,
               shedDue := c.shedDue && s.bg.shedding }).modPp n fun p => { p with tWarn := false }).contractEvent n 4
  else s)

/-! ### Requests (R299, R302, R309-R313) -/

/-- What a valid request asks for: the kind, V in mV, I of R299 in 10 mA, and I_max of R329 in mA. -/
def askOf (o : Pdo) (r : Rdo) : Option (CtKind × Nat × Nat × Nat) :=
  match o with
  | .fixed mv i10 =>
    if r.opI ≤ i10 && decide (r.maxI ≤ i10) then
      some (if 20000 < mv then .eprFixed else .sprFixed, mv, max r.opI r.maxI, 10 * i10) else none
  | .pps lo hi i50 =>
    if lo ≤ r.mv && decide (r.mv ≤ hi) && decide (r.opI ≤ 5 * i50) then some (.pps, r.mv, r.opI, 10 * r.opI + 250) else none
  | .avs lo hi w =>
    if lo ≤ r.mv && decide (r.mv ≤ hi) && decide (r.opI ≤ 500) && decide (r.mv * r.opI ≤ 100000 * w) then some (.avs, r.mv, r.opI, 10 * r.opI + 250)
    else none
  | .zero => none

def isApdo : Pdo → Bool
  | .pps .. | .avs .. => true
  | _ => false

/-- The request judged against the objects last sent (R302); at Revision 2.0 there is no PPS and no AVS (R264). -/
def Pd.asked (d : Pd) (b : PdBody) : Option (Rdo × CtKind × Nat × Nat × Nat) :=
  let go (r : Rdo) : Option (Rdo × CtKind × Nat × Nat × Nat) :=
    match d.objs[r.pos - 1]? with
    | some o => if r.pos = 0 || d.ctx[0].rev = 0b01 && isApdo o then none else (askOf o r).map fun x => (r, x)
    | none => none
  match b with
  | .request r => if d.epr then none else go r
  | .eprRequest r => if d.epr then go r else none
  | _ => none

def isEprRequest : PdBody → Bool
  | .eprRequest _ => true
  | _ => false

def isRequest : PdBody → Bool
  | .request _ | .eprRequest _ => true
  | _ => false

/-- An answer to a request that is no budget Wait ends a row of those (R304). -/
def State.answerReq (s : State) (n : PortId) (b : PdBody) : State :=
  (s.modCt n fun c => { c with waits := 0 }).sendMsg n .sop b false

/-- Wait to a request; a budget Wait counts and is told (R302, R304, R333). -/
def State.waitReq (s : State) (n : PortId) (budget : Bool) : State :=
  if budget then ((s.modCt n fun c => { c with waits := c.waits + 1 }).sendMsg n .sop .wait false).contractEvent n 1
  else s.answerReq n .wait

/-- The plan of R311 and R312: what is booked, and the plan limit in tk. -/
structure Shape where
  k : Nat
  inc : Nat
  step : Int
  isSet : Bool
  limit : Nat
  deriving DecidableEq, Repr

def planShape (b vstep v0 v1 p0 p1 : Nat) (apdo : Bool) : Shape :=
  let dv := (v1 : Int) - v0
  let raw := ((p1 : Int) - p0).natAbs
  let small := apdo && decide (dv.natAbs ≤ 500)
  let isSet := small && decide (4 * raw ≤ b)
  let k := if isSet then 1 else max (max (ceilDiv dv.natAbs vstep) (ceilDiv (4 * raw) (max 1 b))) 1
  let inc := max 1 (ceilDiv raw k)
  let sign := if p1 = p0 then dv.sign else ((p1 : Int) - p0).sign
  { k := k, inc := if isSet then 0 else inc, step := if isSet then (p1 : Int) - p0 else sign * (k * inc : Nat), isSet := isSet,
    limit := if small then 40960 else 512000 }

/-- FIRST and LAST inside the limits of R312, in tk; T_RESP and 0.1 ms after the last. -/
def planFits (now first last : CT) (limit tresp : Nat) : Bool :=
  decide ((first - now).toNat ≤ 73728) && decide (10 * ((last - first).toNat + 4 + tresp) + 2048 ≤ 10 * limit)

/-- An admitted request: K_p at the higher of old and new, CAL grants cancelled, Accept (R303, R311, R313, R329). -/
def State.planTake (s : State) (n : PortId) (q : Plan) : State :=
  let s := s.cancelKind n .cal
  let s := s.modPort n fun p =>
    { p with ct := { p.ct with plan := some q, commit := max p.ct.commit q.newK, waits := 0 }
             pp := { p.pp with protPend := some (protFor q.imax) } }
  s.sendMsg n .sop .accept false

/-- A valid request evaluated (R302, R311, R312). -/
def State.evaluate (s : State) (n : PortId) (r : Rdo) (kind : CtKind) (v1 i10 imax : Nat) : State :=
  let c := s.port[n].ct
  let p1 := units v1 i10
  let newK := max 60 p1
  -- without an explicit contract the Type-C current offered at 5 V
  let p0 := units c.mv c.i10
  let v0 := c.mv
  let q : Plan := { kind := kind, pos := r.pos, v0 := v0, v1 := v1, i10 := i10, k := 0, fired := 0, entry := none,
                    small := false, first := s.time.ct, last := s.time.ct, newK := newK, imax := imax, accepted := false, inc := 0,
                    eprCap := r.eprCapable }
  if decide (s.headroom < (newK : Int) - s.kp n) || s.bg.shedding && decide (s.kp n < newK) ||
      c.therm.any fun t => decide (t < newK) then s.waitReq n true
  else if v0 = v1 && decide (newK = s.kp n) then s.planTake n q
  else
    let apdo := (kind = .pps || kind = .avs) && c.kind = kind
    let w := s.pcCfg n
    let sh := planShape s.stepBudget (vStepMv w) v0 v1 p0 p1 apdo
    match s.bookPort n (if sh.isSet then .set else .ramp) 4 (some (s.time.ct + 61440)) sh.step sh.inc with
    | (s', .granted i f l) =>
      if planFits s.time.ct f l sh.limit (tRespTk w) then
        s'.planTake n { q with k := sh.k, inc := sh.inc, entry := some i, small := sh.limit = 40960, first := f, last := l }
      else (s'.cancelEntry n (some i)).waitReq n false
    | (_, .refused _) => s.waitReq n false

/-- The held contract's own object, with no change: core SB answers it for a Platform in fallback (R312, R588). -/
def State.sameAsHeld (s : State) (n : PortId) (b : PdBody) : Bool :=
  (s.port[n].pd.asked b).any fun x => x.1.pos = s.port[n].ct.pos && x.2.2.1 = s.port[n].ct.mv && x.2.2.2.1 = s.port[n].ct.i10

/-- A port's Request is at hand for core SB. -/
def State.requestHere (s : State) (n : PortId) : Bool := (s.takeMsg n isRequest).any fun x => !x.2.1

/-- A Request answered: by the engine with Wait in hold-over, otherwise by evaluation; one that comes while a transition is
admitted or a swap runs is valid and is not admitted (R274, R302, R588). -/
def State.requestOne (s : State) (n : PortId) : State :=
  match s.takeMsg n isRequest with
  | none => s
  | some (m, eng, s) =>
    let ask := s.port[n].pd.asked m.body
    if eng then
      if s.plat[platOf n].fallback && s.sbUp && s.port[n].pd.contract && s.sameAsHeld n m.body then
        match ask with
        | some (r, k, v, i, im) => s.evaluate n r k v i im
        | none => s
      else s.answerReq n (if s.port[n].pd.ctx[0].rev = 0b01 && isEprRequest m.body then .reject else .wait)
    else if s.port[n].tc.st.isSource then
      match ask with
      | none => s.answerReq n .reject
      | some (r, k, v, i, im) =>
        if s.port[n].ct.plan.isNone && s.port[n].rs.step = .idle then
          (s.modPd n fun d => d.disarm .senderResponse).evaluate n r k v i im
        else s.waitReq n false
    else s

/-- REQUEST: those at hand of lower-indexed ports are evaluated first (R302). -/
def execRequest (n : PortId) (s : State) : Host.Outcome State Fault Refusal :=
  .next (((allPorts.filter fun m => decide (m < n) && s.requestHere m).foldl (fun s m => s.requestOne m) s).requestOne n)

/-! ### EPR entry (R295, R296) -/

/-- Reasons of EPR_Mode (Enter Failed), by the rows of R295. -/
def State.eprReason (s : State) (n : PortId) : Option Nat :=
  let p := s.port[n]
  if !(p.pd.contract && (p.ct.kind = .sprFixed || p.ct.kind = .pps) && p.pd.ctx[0].rev = 0b10) then some 1
  else if !p.pd.rdoEpr then some 2
  else if !p.tc.vconnOn then some 3
  else if !s.cableEpr n then some 4
  else if !(eprEn (s.pcCfg n) && decide (560 ≤ s.offerCeil n)) then some 5
  else none

/-- EPR_MODE_ENTER (R295); at Revision 2.0 the engine answers it (R264). Where nDiscoverIdentityCount leaves no request for the
cable, it gives no answer that allows EPR (R286, R296). -/
def execEprModeEnter (n : PortId) (s : State) : Host.Outcome State Fault Refusal :=
  match s.takeMsg n (fun b => b = .eprEnter) with
  | none => .next s
  | some (_, eng, s) =>
    .next (if eng then s.sendMsg n .sop (s.notSup n .sop) false
    else match s.eprReason n with
      | some r => s.sendMsg n .sop (.eprFailed r) false
      | none =>
      let s := s.sendMsg n .sop .eprAck false
      -- no request is left to ask the cable again
      if 20 ≤ bits s.port[n].pd.cable 23 16 then s.sendMsg n .sop (.eprFailed 4) false
      else s.modPd n fun d => { d with eprEntry := true })

/-- The cable answered again after the acknowledgement: EPR mode is entered, or failed with the cable's reason (R296). -/
def State.eprFinish (s : State) (n : PortId) : State :=
  if !s.port[n].pd.eprEntry then s
  else
    let s := s.modPd n fun d => { d with eprEntry := false }
    if s.cableEpr n then
      ((s.modPd n fun d => { d with epr := true }).sendMsg n .sop .eprSucceeded false).offerSend n
    else s.sendMsg n .sop (.eprFailed 4) false

/-! ### The end of a transition (R303, R315, R333) -/

/-- Every action has fired and the Accept was acknowledged; a request that needs no booking has none to wait for (R312). -/
def Plan.ended (q : Plan) : Bool := q.accepted && decide (q.k ≤ q.fired) && q.k ≠ 0

/-- PS_RDY: the contract is in force (R303, R346). In hold-over the engine sends it (R27). A transition is a change of contract
voltage, and has its event (R333). -/
def State.planDone (s : State) (n : PortId) (q : Plan) : State :=
  let s := s.modPort n fun p =>
    let pp := match p.pp.protPend with
      | some w => ({ p.pp with prot := w, protPend := none }).loadFt
      | none => p.pp
    let ok := p.ct.target.all fun t => decide (q.newK ≤ t)
    { p with ct := { p.ct with kind := q.kind, pos := q.pos, mv := q.v1, i10 := q.i10, imax := q.imax, commit := q.newK,
                               plan := none, rdyOut := true, shed := p.ct.shed && !ok, shedTimer := p.ct.shedTimer && !ok,
                               shedDue := p.ct.shedDue && !ok, target := if ok then none else p.ct.target }
             pd := { p.pd with contract := true, period := true, ams := false, rdoEpr := q.eprCap }
             pp := { pp with assist := false } }
  let s := s.sendMsg n .sop .psRdy false
  (if q.v0 = q.v1 then s else s.contractEvent n 0).shedEnd

/-- The mean of Pn_VC is within the limits of R315, µV-free: ±3 %, or ±0.1 V for PPS and AVS. -/
def settled (q : Plan) (mv : Nat) : Bool :=
  let d := ((mv : Int) - q.v1).natAbs
  if q.kind = .pps || q.kind = .avs then decide (d ≤ 100) else decide (100 * d ≤ 3 * q.v1)

/-- TRANSITION_CHECK (R27, R315). -/
def execTransitionCheck (n : PortId) (meanVc : Nat) (s : State) : Host.Outcome State Fault Refusal :=
  .next (match s.port[n].ct.plan with
    | some q => if q.ended && settled q meanVc then s.planDone n q else s
    | none => s)

/-- CONV_FAIL: the check has not passed 5 ms after the last action (R315, R333). -/
def execConvFail (n : PortId) (s : State) : Host.Outcome State Fault Refusal :=
  .next (if s.port[n].ct.plan.any Plan.ended then
    ((s.modCt n fun c => { c with convFail := true }).contractEvent n 3).askHr n else s)

/-- RAMP_GRANT (R258, R311, R314, R329). -/
def execRampGrant (n : PortId) (s : State) : Host.Outcome State Fault Refusal :=
  match s.dueEntry n.val .ramp with
  | none => .next s
  | some i => .next (((s.fireEntry i).trimGrant n).planStep n)

/-- DISCHARGE_ASSIST_END: Pn_VC at the target + 0.2 V, or T_RESP has passed (R314); that of a swap runs until vSafe0V
(R341). -/
def execDischargeAssistEnd (n : PortId) (_mv : Nat) (s : State) : Host.Outcome State Fault Refusal :=
  .next (if s.port[n].rs.step = .fall then s else s.modPp n fun p => { p with assist := false })

/-! ### Sink role (R324-R328) -/

/-- The partner's best fixed object of 20 V or less: position from 1, mV, and 10 mA (R324). -/
def bestObj (sinkW : Nat) : List Pdo → Nat → Option (Nat × Nat × Nat × Nat) → Option (Nat × Nat × Nat × Nat)
  | [], _, b => b
  | .fixed mv i10 :: t, k, b =>
    let p := min (mv * i10) (sinkW * 100000)
    let here := if mv ≤ 20000 && decide (0 < mv) then
        match b with
        | none => some (k, mv, i10, p)
        | some (_, mv', _, p') => if p' < p || (p' = p && mv < mv') then some (k, mv, i10, p) else b
      else b
    bestObj sinkW t (k + 1) here
  | _ :: t, k, b => bestObj sinkW t (k + 1) b

/-- The Request for it: its operating current is the power over V, rounded down to 10 mA. -/
def State.sinkAsk (s : State) (n : PortId) (objs : List Pdo) : Option Rdo :=
  (bestObj (sinkMaxW (s.pcCfg n)) objs 1 none).map fun (k, mv, _, p) =>
    { pos := k, opI := p / mv, maxI := p / mv, mv := mv, eprCapable := false }

/-- Total sink draw granted: fired, and standing to fire (R326). -/
def State.sinkTotal (s : State) : Nat :=
  (allPorts.map fun n => s.port[n].ct.draw).sum +
  (s.tt.entries.toList.map fun o => match o with
    | some e => if e.kind = .sink then (e.todo.map fun x => (-x.2).toNat).sum else 0
    | none => 0).sum

/-- The card's input power, 0.25 W, over the last 10 ms of HS_MEAS (R326); VSNS is in 4 µV. -/
def State.inputUnits (s : State) : Rat :=
  let r := if bits s.bgShunt 15 0 = 0 then 500 else bits s.bgShunt 15 0
  (s.hs.power.sum : Rat) / (max 1 s.hs.power.length : Nat) * 16 / (1000 * r)

/-- What more sink draw fits (R326). -/
def State.sinkRoom (s : State) : Nat :=
  (s.inputUnits - 4 * bits s.bgRegen 15 8 - s.sinkTotal).floor.toNat

/-- Unfired draw of one port. -/
def State.sinkPending (s : State) (n : PortId) : Nat :=
  (s.tt.entries.toList.map fun o => match o with
    | some e => if e.owner = n.val && e.kind = .sink then (e.todo.map fun x => (-x.2).toNat).sum else 0
    | none => 0).sum

/-- The rest of the intended draw, booked as far as it fits (R325, R326); none in FRS standby, while its ROLE stands to fire, or
with the path open (R348). -/
def State.sinkBook (s : State) (n : PortId) : State :=
  let p := s.port[n]
  let want := p.ct.intended - (p.ct.draw + s.sinkPending n)
  let k := min want s.sinkRoom
  if p.ct.kind = .sinkFixed && p.pp.st = .closed && p.pp.sink && !p.rs.stby && !p.rs.leaving && p.rs.entry.isNone && !p.ct.regenHold &&
      p.rs.step = .idle && p.ct.stopFor.isNone && p.pd.reqSent.isNone && decide (0 < k) then
    (s.bookPort n .sink 4 none (-(k : Int)) 200).1
  else s

/-- The draw taken to code 0 before a message is sent (R325, R342). -/
def State.stopBook (s : State) (n : PortId) (then' : PdBody) : State :=
  let d := s.port[n].ct.draw
  let s := s.cancelKind n .sink
  if d = 0 then
    (s.modCt n fun c => { c with stopFor := none, stopRetry := false, intended := 0 }).sendWaited n then'
  else
    let r := s.bookPort n .sink 4 none d (if d ≤ s.stepBudget then 0 else 200)
    r.1.modCt n fun c => { c with stopFor := some then', stopRetry := !r.2.ok, intended := 0 }

/-- A stop that has ended sends what waited for it, once no other Request is out (R325). -/
def State.stopSend (s : State) (n : PortId) : State :=
  match s.port[n].ct.stopFor with
  | some b =>
    if s.port[n].ct.draw = 0 && !s.port[n].ct.stopRetry && s.sinkPending n = 0 && s.port[n].pd.reqSent.isNone && !s.port[n].rs.leaving
    then (s.modCt n fun c => { c with stopFor := none }).sendWaited n b else s
  | none => s

/-- SINK_GRANT: the draw follows the increment's code; a stop that has ended sends what waited (R325). -/
def execSinkGrant (n : PortId) (s : State) : Host.Outcome State Fault Refusal :=
  match s.dueEntry n.val .sink with
  | none => .next s
  | some i =>
    let p := ((s.tt.entries[i].bind fun e => e.todo.head?).map Prod.snd).getD 0
    let s := s.fireEntry i
    let d := ((s.port[n].ct.draw : Int) - p).toNat
    let s := s.modPort n fun q => { q with ct := { q.ct with draw := d },
                                           pp := { q.pp with code := if d = 0 then 0 else s.snkCode n d } }
    .next (s.stopSend n)

/-- SINK_STOP_RETRY: every 10 ms (R325). -/
def execSinkStopRetry (n : PortId) (s : State) : Host.Outcome State Fault Refusal :=
  .next (match s.port[n].ct.stopFor with
    | some b => if s.port[n].ct.stopRetry then s.stopBook n b else s
    | none => s)

/-- SINK_PARTIAL_REBOOK: every 1 s (R326). -/
def execSinkPartialRebook (n : PortId) (s : State) : Host.Outcome State Fault Refusal :=
  .next (if s.sbUp then s.sinkBook n else s)

/-- REGEN_STOP: V_sns at or below 0 for 5 µs: code 0 on every port in sink direction, as a protection action; a message that
waited for the draw to stop follows (R25, R325, R327; a port in FRS standby has no draw: log entry 136). -/
def execRegenStop (vsns : Int) (s : State) : Host.Outcome State Fault Refusal :=
  if vsns ≤ 0 && s.sup.hvUp then
    let s := s.forPorts fun n s =>
      if s.port[n].pp.sink then
        let s := (s.protCancel n).modPort n fun p =>
          { p with ct := { p.ct with draw := 0, regenHold := true }, pp := { p.pp with code := 0 } }
        match s.port[n].ct.stopFor with
        | some b => if s.served n then s.stopBook n b else s
        | none => s
      else s
    .next { s with bg := { s.bg with regenStop := true } }
  else .next s

/-- REGEN_REBOOK: no sooner than 1 s later (R327). -/
def execRegenRebook (s : State) : Host.Outcome State Fault Refusal :=
  .next (if s.sbUp then
    s.forPorts fun n s => (s.modCt n fun c => { c with regenHold := false }).sinkBook n
  else s)

/-- The held object's answer in hold-over (R276). -/
def State.heldOk (s : State) (n : PortId) (objs : List Pdo) : Bool :=
  let c := s.port[n].ct
  match objs[c.pos - 1]? with
  | some (.fixed mv i10) => c.kind = .sinkFixed && c.pos ≠ 0 && mv = c.mv && decide (c.i10 ≤ i10)
  | _ => false

def isCaps : PdBody → Bool
  | .sourceCaps .. | .eprSourceCaps .. => true
  | _ => false

def isEprCaps : PdBody → Bool
  | .eprSourceCaps .. => true
  | _ => false

def capsObjs : PdBody → List Pdo
  | .sourceCaps _ o | .eprSourceCaps _ o => o
  | _ => []

/-- A Request sent, its answer awaited. -/
def State.sinkRequest (s : State) (n : PortId) (r : Rdo) : State :=
  (s.modPd n fun d => ({ d with reqSent := some r }).arm .senderResponse).sendMsg n .sop (.request r) false

/-- FRS standby is left before a Request that changes the voltage: the negative ROLE step, and then the Request
(R339). -/
def State.standbyLeave (s : State) (n : PortId) (then' : PdBody) : State :=
  let r := s.bookPort n .role 4 none (-(rpUnits (s.port[n].rs.frsCur.toNat - 1) : Int)) 0
  let i := match r.2 with | .granted i .. => some i | .refused _ => none
  (r.1.modRs n fun q => { q with leaving := true, entry := i, retry := i.isNone }).modCt n fun c =>
    { c with stopFor := some then' }

/-- The Request that the partner's objects call for (R324). One that changes the voltage waits until FRS standby has been left,
which a ROLE still to fire never enters, and the draw has been taken to code 0; `answer`: while that is refused, the partner's
capabilities are answered with the object of the present contract (R325, R339). -/
def State.sinkDecide (s : State) (n : PortId) (answer : Bool) : State :=
  let objs := s.port[n].pd.partnerObjs
  let c := s.port[n].ct
  match s.sinkAsk n objs with
  | none => s
  | some r =>
    if !s.port[n].pd.contract || r.mv = c.mv then s.sinkRequest n r
    else if s.port[n].rs.leaving then s.modCt n fun c => { c with stopFor := some (.request r) }
    else if s.port[n].rs.stby then s.standbyLeave n (.request r)
    else
      let s := (s.cancelEntry n s.port[n].rs.entry).modRs n fun q => { q with entry := none }
      if c.draw + s.sinkPending n = 0 then s.sinkRequest n r
      else
        let s := s.stopBook n (.request r)
        if answer && s.port[n].ct.stopRetry && s.heldOk n objs then
          s.sinkRequest n { pos := c.pos, opI := c.i10, maxI := c.i10, mv := c.mv, eprCapable := false }
        else s

/-- SOURCE_CAPABILITIES (R264, R276, R324, R325). -/
def execSourceCapabilities (n : PortId) (s : State) : Host.Outcome State Fault Refusal :=
  match s.takeMsg n isCaps with
  | none => .next s
  | some (m, eng, s) =>
    let objs := capsObjs m.body
    let c := s.port[n].ct
    let held : Rdo := { pos := c.pos, opI := c.i10, maxI := c.i10, mv := c.mv, eprCapable := false }
    .next (if s.port[n].pd.ctx[0].rev = 0b01 && isEprCaps m.body then s.sendMsg n .sop .reject false
    else if s.port[n].tc.st.isSource then s
    else if eng then
      if s.heldOk n objs then s.sendMsg n .sop (.request held) false else s.askHr n
    else (s.modPd n fun d => { (d.disarm .sinkRequest) with partnerObjs := objs }).sinkDecide n true)

/-- The partner's PS_RDY to a Request: the sink contract is in force, and draw is booked, or what waits for the draw to stop is
sent (R325, R329). -/
def State.sinkReady (s : State) (n : PortId) : State :=
  match s.port[n].pd.reqSent with
  | none => s
  | some r =>
    let s := s.modPort n fun p =>
      { p with ct := { p.ct with kind := .sinkFixed, pos := r.pos, mv := r.mv, i10 := r.opI, imax := 10 * r.opI,
                                 intended := r.mv * r.opI / 25000 }
               pd := { p.pd with contract := true, reqSent := none, ams := false }
               pp := ({ p.pp with prot := protFor (10 * r.opI) }).loadFt }
    (s.sinkBook n).stopSend n

end Sys2Proof.Machine
end

