-- ==== Sys2Proof/Machine/Thermal.lean ====
section
/-! DEFINITION. The estimate of R_pair, the calibration result and the trim loop (R244, R248-R251, R259, R316). -/
namespace Sys2Proof.Machine

/-- T_FET judged against T_WARN and T_TRIP (R251, R308, R586). -/
def State.thermJudge (s : State) (n : PortId) : State :=
  match s.tFet n with
  | none => s
  | some t =>
    let s := s.modMs n fun m => { m with tMax := some (max t (m.tMax.getD t)) }
    let s := if decide (s.portS16 n 0x32 ≤ t) && !s.port[n].pp.tWarn then
        ((s.modPp n fun p => { p with tWarn := true }).pathEvent n 4 0).thermalSet n else s
    if s.portS16 n 0x34 ≤ t then s.trip n .therm else s

/-- Mean I² over the last 10 ms, A². -/
def Path.meanSq (p : Path) : Rat :=
  let l := p.hist.take 50000
  (((l.map fun x => x.cur.natAbs * x.cur.natAbs).sum : Nat) : Rat) / (4000000 * max 1 l.length : Nat)

/-- RPAIR_ESTIMATE, every 10 ms (R250, R251). -/
def execRpairEstimate (n : PortId) (s : State) : Host.Outcome State Fault Refusal :=
  .next (if s.coreRuns n then
    let al : Rat := (s.portU16 n 0x28 : Rat) / 1000000
    let th : Rat := (s.portU16 n 0x2A : Rat) / 100
    let ta : Rat := (s.portU16 n 0x2C : Rat) / 10
    let s := s.modPp n fun p =>
      let dT := p.dT + (th * (p.meanSq * p.rEst / 1000000) - p.dT) * (1 / 100) / ta
      { p with dT := dT, rEst := p.rc * (1 + al * (dT - p.dTc)) }
    s.thermJudge n
  else s)

/-- Seconds at |I| below 0.1 A that let a calibration be taken as the reference, in samples (R251). -/
def quietSamples : Nat := 60 * samplesPerSecond

/-- An accepted R_CAL applied by the core: G_PAIR, the estimate, the fast-trip code, the reference (R249, R251, R252). -/
def State.calApply (s : State) (n : PortId) (r : Rat) : State :=
  let learn := (s.thermRef n).isNone && decide (quietSamples ≤ s.port[n].pp.quiet)
  let t := s.hk.tHv.toInt
  (s.modPp n fun p =>
    ({ p with rEst := r, rc := r, dTc := p.dT, rHeld := false, calAt := p.calGot,
              learned := if learn then some (r, t) else p.learned } : Path).loadFt).thermJudge n

/-- A sample instant lies 2 µs or more after Pn_DSG fell, 22 ticks after the grant at `t`: 4 ticks and 10 cycles of 5 ns
(R247, R386). -/
def afterPulse (t : CT) (x : CT × Nat) : Bool := decide (26 < (x.1 - t).toNat) || (x.1 - t).toNat = 26 && decide (10 ≤ x.2)

/-- The means over the sample sets of R247, once all are complete: V_ds before, in and after the pulse, µV, and Pn_DSS in it,
µV. A sample before the grant lies up to 2⁴⁷ ticks behind it. -/
def State.calSets (s : State) (n : PortId) (t : CT) : Option (Rat × Rat × Rat × Rat) :=
  let l := s.port[n].pp.hist.zip s.stamps
  let off (x : Sample × CT × Nat) : Nat := (x.2.1 - t).toNat
  let old (x : Sample × CT × Nat) : Bool := decide (2 ^ 47 ≤ off x)
  let pre := (l.filter old).take 20
  let dsg := (l.filter fun x => old x || decide (off x < 22)).take 30
  let post := (l.reverse.filter fun x => !old x && afterPulse t x.2).take 20
  if pre.length = 20 && dsg.length = 30 && post.length = 20 then
    let vds (l : List (Sample × CT × Nat)) : Rat := ((l.map fun x => x.1.vds.toInt).sum : Rat) * 78125 / 16000 / l.length
    some (vds pre, vds dsg, vds post, ((dsg.map fun x => x.1.dss.toNat).sum : Rat) * 20 / 30)
  else none

/-- The result of R248, in µΩ, or none where it is rejected; v in µV. Without a measured pulse current r is no number in the
range, and is rejected (log entry 141). -/
def calValue (p : Path) (pre pulse post dss : Rat) : Option Rat :=
  let ical : Rat := dss * 4 / 1000
  let ipre : Rat := pre * 1000 / p.rEst
  let ipost : Rat := post * 1000 / p.rEst
  if 50 < (ipost - ipre) || 50 < (ipre - ipost) then none
  else
    let r : Rat := (pulse - (pre + post) / 2) * 1000 / ical
    if r < 2000 || 16000 < r || p.rKnown && (p.rEst / 4 < r - p.rEst || p.rEst / 4 < p.rEst - r) then none else some r

/-- The ratio of the drops of the two FETs lies within 0.5 to 2.0; the manual gives none for two drops of 0 (R244). -/
def balanced (a b : Int) (open_ : Bool) : Bool :=
  if a = 0 && b = 0 then open_
  else decide (0 ≤ a * b) && decide (b.natAbs ≤ 2 * a.natAbs) && decide (a.natAbs ≤ 2 * b.natAbs)

/-- What the core tells of calibrations once it runs: eight rejections in a row, and FET_IMB (R244, R248). -/
def State.calReports (s : State) (n : PortId) : State :=
  let s := if 8 ≤ s.port[n].pp.rejRun then
      (s.modPp n fun p => { p with rejRun := 0 }).raiseHealth 11 n.val 0 s.port[n].pp.rCal.toNat else s
  if s.port[n].pp.imbDue then (s.modPp n fun p => { p with imbDue := false }).pathEvent n 3 0 else s

/-- CAL_RESULT: the result of a pulse whose samples are complete (R244, R247-R249); a pulse that ended with the opening gives
none (R257). -/
def execCalResult (n : PortId) (pre pulse post dss : Rat) (dropBus dropConn : Int) (s : State) :
    Host.Outcome State Fault Refusal :=
  .next (if (s.port[n].pp.pulse.bind fun x => s.calSets n x.1) ≠ some (pre, pulse, post, dss) then s
  else
    let core := s.coreRuns n
    let s := match calValue s.port[n].pp pre pulse post dss with
      | none => s.modPp n fun p => { p with pulse := none, calRej := true, rejRun := p.rejRun + 1 }
      | some r =>
        let ok := balanced dropBus dropConn (Config.zeroRatio s.fresh)
        let s := { s with fresh := s.fresh + 1 }.modPp n fun p =>
          { p with pulse := none, rejRun := 0, rKnown := true, rCalQ := r, calGot := some s.time.ct, rHeld := true,
                   rCal := BitVec.ofInt 16 (roundFree r), iCal := BitVec.ofInt 16 (roundFree (dss * 4 / 100)),
                   fetImb := p.fetImb || !ok, imbDue := p.imbDue || !ok }
        if core then s.calApply n r else s
    if core then s.calReports n else s)

/-- TRIM_LOOP, every 1 ms: current limiting of a PPS or AVS contract, otherwise the pending trim (R259, R316). DESIGN CHOICE: R259
names no role and no path state for the comparison, nor what becomes of a pending trim that a later comparison does not bear
out; it runs with the path CLOSED in source direction, and such a trim is dropped (log entry 154). -/
def execTrimLoop (n : PortId) (s : State) : Host.Outcome State Fault Refusal :=
  let p := s.port[n]
  .next (if !s.coreRuns n || p.pp.st ≠ .closed || p.pp.sink || p.ct.mv = 0 || s.trimStopped n then s
  else if (p.ct.kind = .pps || p.ct.kind = .avs) && decide ((102 * p.ct.i10 : Nat) ≤ 10 * p.pp.meanAbs 5000) then
    let k := (Config.limitCodes s.fresh).val + 1
    { s with fresh := s.fresh + 1 }.modPp n fun p =>
      { p with code := code12 ((p.code.toNat : Int) - k), lim := p.lim + min k p.code.toNat }
  else
    let err : Rat := p.ct.mv - p.pp.meanVc 5000
    if (trimDb (s.ppCfg n) : Rat) < err || err < -(trimDb (s.ppCfg n) : Rat) then
      let k := roundHalfUp ((s.portU16 n 0x22 : Rat) * err / 256000)
      s.modPp n fun p => { p with trimPend := max (-8) (min 8 k) }
    else s.modPp n fun p => { p with trimPend := 0 })

end Sys2Proof.Machine
end

