-- ==== Sys2Proof/Machine/Swap.lean ====
section
/-! DEFINITION. Role swaps and the Turntable (chapter 12), with the release of WARN_N, which books again what it cut. -/
namespace Sys2Proof.Machine

/-! ### RS_CFG (R356) -/

def prsAcc (w : Word) : Bool := bit w 31
def drsAcc (w : Word) : Bool := bit w 30
def vcsAcc (w : Word) : Bool := bit w 29
def frsTxEn (w : Word) : Bool := bit w 28
def frsRxEn (w : Word) : Bool := bit w 27
def prefPrOf (w : Word) : PRole := match bits w 26 25 with | 1 => .source | 2 => .sink | _ => .none
def prefDrOf (w : Word) : DRole := match bits w 24 23 with | 1 => .dfp | 2 => .ufp | _ => .none

/-! ### Shared steps -/

def State.swapGo (s : State) (n : PortId) (c : SwapCode) (st : SwapStep) : State :=
  s.modRs n fun r => { r with code := c, step := st }

def State.swapStep (s : State) (n : PortId) (st : SwapStep) : State := s.modRs n fun r => { r with step := st }

/-- An FRS signal that no FR_Swap answers: no swap took place, and SWAP returns to 0 (R347). -/
def State.swapQuiet (s : State) (n : PortId) : State :=
  s.modRs n fun r => { r with code := .none, step := .idle, kind := none, entry := none }

/-- A swap request may be taken up: attached, no Hard Reset, no swap, no transition (R335). -/
def State.swapFree (s : State) (n : PortId) : Bool :=
  let p := s.port[n]
  (p.tc.st = .attSrc || p.tc.st = .attSnk) && p.rs.step = .idle && p.ct.plan.isNone && !p.pd.hrPend

/-- VCONN may be taken over: VCONN_EN, PLk_VCONN present, and room in the allowance (R226, R344). -/
def State.vconnRoom (s : State) (n : PortId) : Bool :=
  vconnEn s.port[n].tc.cfg && s.plat[platOf n].vconn && decide (s.vconnCount (platOf n) < s.vcMax (platOf n)) &&
  !s.port[n].tc.vconnOff

/-- The ROLE booking from source to sink, `ahead` tk after now, kept where it begins by `limit` (R339, R340). -/
def State.bookRoleOff (s : State) (n : PortId) (ahead : CT) (limit : Nat) : Option State :=
  let s := s.cancelKind n .cal
  match s.bookPort n .role 4 (some (s.time.ct + ahead)) (-(s.pMeasQ n).ceil) 0 with
  | (t, .granted i f _) =>
    if (f - s.time.ct).toNat ≤ limit then some (t.modRs n fun r => { r with entry := some i }) else none
  | (_, .refused _) => none

/-- P_meas is at most B (R340). -/
def State.pMeasFits (s : State) (n : PortId) : Bool := decide (s.pMeasQ n ≤ s.stepBudget)

/-- The Type-C contract of a source with no explicit one, with the protection of its Rp current (R329, R342). -/
def State.typeCSource (s : State) (n : PortId) (lvl : Nat) : State :=
  s.modPort n fun p =>
    { p with ct := { p.ct with kind := .typeC, mv := 5000, i10 := rpMa lvl / 10, imax := rpMa lvl }
             pp := ({ p.pp with prot := protFor (rpMa lvl), protPend := none } : Path).loadFt }

/-- The new roles of a port that has become sink: ATT_SNK, the attach-time roles, PATH booked (R221, R334, R341, R347). -/
def State.becomeSink (s : State) (n : PortId) : State :=
  let s := s.modPort n fun p =>
    { p with tc := { p.tc with st := .attSnk, partner := .source, rpOffer := 0, rpSeen := 0, sinkStep := 0, blank := true, vconnWait := false,
                               raOther := false }
             rs := ({ p.rs with pr := .sink } : Swap).setBase
             pd := { p.pd with sinkTxOk := false, ams := false, gotGetSink := false, sentGetSink := false } }
  s.typecEvent n

/-- Those of a port that has become source (R342, R350). -/
def State.becomeSource (s : State) (n : PortId) (lvl : Nat) : State :=
  let s := s.modPort n fun p =>
    { p with tc := { p.tc with st := .attSrc, partner := .sink, rpSeen := 0, pathLimit := false, raOther := false }
             rs := ({ p.rs with pr := .source } : Swap).setBase
             pd := ({ p.pd with ams := false } : Pd).arm .swapSourceStart }
  (s.typeCSource n lvl).typecEvent n

/-- The explicit contract ends with the power role (R303); the commitment returns to 15 W. -/
def State.swapContractEnd (s : State) (n : PortId) : State :=
  (s.endContract n).modCt n fun c => { c with kind := .none, mv := 0, i10 := 0 }

/-! ### Requests received (R335, R340-R344, R354) -/

/-- PR_SWAP. -/
def execPrSwap (n : PortId) (s : State) : Host.Outcome State Fault Refusal :=
  match s.takeMsg n (fun b => b = .prSwap) with
  | none => .next s
  | some (_, eng, s) =>
    .next (if eng || !s.swapFree n then s.sendMsg n .sop .wait false
    else if !prsAcc (s.rsCfg n) then s.sendMsg n .sop .reject false
    else if s.port[n].tc.st = .attSrc then
      if !s.pMeasFits n then s.sendMsg n .sop .wait false
      else match s.bookRoleOff n 61440 73728 with
        | some s => (s.swapGo n .prSrcSnk .accepting).sendMsg n .sop .accept false
        | none => s.sendMsg n .sop .wait false
    else
      (s.swapGo n .prSnkSrc .accepting).stopBook n .accept)

/-- DR_SWAP. -/
def execDrSwap (n : PortId) (s : State) : Host.Outcome State Fault Refusal :=
  match s.takeMsg n (fun b => b = .drSwap) with
  | none => .next s
  | some (_, eng, s) =>
    .next (if eng || !s.swapFree n then s.sendMsg n .sop .wait false
    else if s.port[n].alt.mode ≠ .none then s.askHr n
    else if drsAcc (s.rsCfg n) then (s.swapGo n .dr .accepting).sendMsg n .sop .accept false
    else s.sendMsg n .sop .reject false)

/-- VCONN_SWAP. -/
def execVconnSwap (n : PortId) (s : State) : Host.Outcome State Fault Refusal :=
  match s.takeMsg n (fun b => b = .vconnSwap) with
  | none => .next s
  | some (_, eng, s) =>
    .next (if eng || !s.swapFree n then s.sendMsg n .sop .wait false
    else if !vcsAcc (s.rsCfg n) then s.sendMsg n .sop .reject false
    else if s.port[n].tc.vconnOn then (s.swapGo n .vconnOff .accepting).sendMsg n .sop .accept false
    else if s.vconnRoom n then (s.swapGo n .vconnOn .accepting).sendMsg n .sop .accept false
    else s.sendMsg n .sop .wait false)

/-- FR_SWAP, answered by the Turntable (R347); one that no signal called for is a swap request the port cannot take. -/
def execFrSwap (n : PortId) (s : State) : Host.Outcome State Fault Refusal :=
  match s.takeMsg n (fun b => b = .frSwap) with
  | none => .next s
  | some (_, _, s) =>
    let r := s.port[n].rs
    .next (if s.port[n].pd.ctx[0].rev = 0b01 then s.sendMsg n .sop .reject false
    else if r.code = .frsSource && (r.step = .frWait || r.step = .signal) then
      (s.swapStep n .accepting).sendMsg n .sop .accept false
    else if r.step ≠ .idle then s.sendMsg n .sop .wait false
    else s.sendMsg n .sop (s.notSup n .sop) false)

/-! ### The Station's own requests (R336, R340, R342, R489) -/

/-- The request itself; a sink takes its draw to code 0 first. -/
def State.swapAsk (s : State) (n : PortId) (k : SwapKind) (cmd : Option CmdRef) : State :=
  let s := s.modRs n fun r => { r with kind := some k, host := cmd }
  match k with
  | .power =>
    if s.port[n].tc.st = .attSrc then (s.swapGo n .prSrcSnk .asked).sendMsg n .sop .prSwap true
    else (s.swapGo n .prSnkSrc .asked).stopBook n .prSwap
  | .data => (s.swapGo n .dr .asked).sendMsg n .sop .drSwap true
  | .vconn => (s.swapGo n (if s.port[n].tc.vconnOn then .vconnOff else .vconnOn) .asked).sendMsg n .sop .vconnSwap true

/-- A preferred power or data role that differs and has not been tried since attach; VCONN before cable discovery, from a
partner that sources it (R336). -/
def State.swapWanted (s : State) (n : PortId) (k : SwapKind) : Bool :=
  let r := s.port[n].rs
  let w := s.rsCfg n
  match k with
  | .power => prefPrOf w ≠ .none && prefPrOf w ≠ r.pr && !r.prefPr && (r.pr = .sink || s.pMeasFits n)
  | .data => prefDrOf w ≠ .none && prefDrOf w ≠ r.dr && !r.prefDr && s.port[n].alt.mode = .none
  | .vconn => vcsAcc w && !s.port[n].tc.vconnOn && r.partnerVc && s.vconnRoom n && bit s.port[n].tc.pdCfg 28 &&
              !bit s.port[n].pd.cable 24

/-- A swap of R336 is still to be started. -/
def State.swapPending (s : State) (n : PortId) : Bool :=
  s.swapWanted n .power || s.swapWanted n .data || s.swapWanted n .vconn && !s.port[n].rs.prefVc

/-- SWAP_START. -/
def execSwapStart (n : PortId) (k : SwapKind) (s : State) : Host.Outcome State Fault Refusal :=
  .next (if s.served n && s.swapFree n && (k = .vconn || s.port[n].pd.contract) && !s.plat[platOf n].fallback && s.swapWanted n k then
    (s.modRs n fun r => { r with prefPr := r.prefPr || k = .power, prefDr := r.prefDr || k = .data,
                                 prefVc := r.prefVc || k = .vconn }).swapAsk n k none
  else s)

/-! ### Accept and PS_RDY -/

/-- The data roles exchanged, which ends a DR_Swap (R343). -/
def DRole.other : DRole → DRole
  | .dfp => .ufp
  | .ufp => .dfp
  | .none => .none

def State.drDone (s : State) (n : PortId) : State := (s.modRs n fun r => { r with dr := r.dr.other }).swapEnd n 0

/-- VCONN switched on for a swap; PS_RDY follows once it has reached 4.75 V (R344). -/
def State.vconnSwapOn (s : State) (n : PortId) : State := (s.vconnApply n).swapStep n .rise

/-- The ROLE booking of a swap to source, made again every 10 ms on refusal; by core SB in hold-over (R339, R342). -/
def State.bookRoleOn (s : State) (n : PortId) : State :=
  let core := if s.port[n].hold then coreSB else s.portCore n
  if s.port[n].hold && !s.sbUp then s.modRs n fun r => { r with retry := true }
  else
    let b := s.book (.core core) { owner := n.val, kind := .role, dur := s.pathDur, req := none,
                                   step := rpUnits (rpLevelOf s.port[n].tc.cfg), inc := 0 }
    let i := match b.2 with | .granted i .. => some i | .refused _ => none
    if i.isNone && s.hs.warn then (b.1.swapRefused n).errRecov n
    else b.1.modRs n fun r => { r with entry := i, retry := i.isNone }

/-! ### ROLE grants (R341, R342, R348) -/

/-- The conditions of R348 for FRS standby, as its ROLE grant finds them; a Request that may change the voltage is not out. -/
def State.standbyFits (s : State) (n : PortId) : Bool :=
  let p := s.port[n]
  frsRxEn (s.rsCfg n) && p.tc.st = .attSnk && p.pd.contract && !p.pd.epr && decide (p.ct.mv ≤ 20000) &&
  p.pd.ctx[0].rev = 0b10 && p.rs.frsCur ≠ 0 && p.ct.draw = 0 && decide (s.sinkPending n = 0) && p.rs.step = .idle &&
  !p.rs.stby && !p.rs.leaving && p.pp.st = .closed && p.pp.sink && p.pd.reqSent.isNone && p.ct.stopFor.isNone && !s.hs.warn

/-- FRS standby may be booked (R348). -/
def State.standbyOk (s : State) (n : PortId) : Bool := s.served n && s.standbyFits n && s.port[n].rs.entry.isNone

def State.standbyTry (s : State) (n : PortId) : State :=
  if s.standbyOk n then
    match s.bookPort n .role 4 none (rpUnits (s.port[n].rs.frsCur.toNat - 1)) 0 with
    | (t, .granted i ..) => t.modRs n fun r => { r with entry := some i }
    | (_, .refused _) => s
  else s

/-- ROLE_GRANT. -/
def execRoleGrant (n : PortId) (s : State) : Host.Outcome State Fault Refusal :=
  match s.dueEntry n.val .role with
  | none => .next s
  | some i =>
    let s := s.fireEntry i
    let r := s.port[n].rs
    .next (if r.entry ≠ some i then s
    else if r.leaving then s.standbyEnd n 0
    else match r.code with
      | .prSrcSnk =>
        let s := s.swapContractEnd n
        (s.modPp n fun p => { p with code := 0, assist := true, trimStop := some (s.time.ct + 40960) }).modRs n fun r =>
          { r with step := .fall, entry := none }
      | .prSnkSrc =>
        (s.modPort n fun p =>
          { p with pp := { p.pp with code := s.srcCode n 5000 p.pp.trim.toInt, lim := 0 }
                   rs := { p.rs with entry := none } }).closePath n
      | .none =>
        let lvl := r.frsCur.toNat - 1
        if !s.standbyFits n then s.modRs n fun r => { r with entry := none }
        else s.modPort n fun p =>
          { p with pp := ({ p.pp with sink := false, code := s.srcCode n 4750 p.pp.trim.toInt, lim := 0, prot := protFor (rpMa lvl) } : Path).loadFt
                   rs := { p.rs with stby := true, entry := none } }
      | _ => s)

/-- PS_RDY (R324, R341, R342, R344, R347, R350). -/
def execPsRdy (n : PortId) (s : State) : Host.Outcome State Fault Refusal :=
  match s.takeMsg n (fun b => b = .psRdy) with
  | none => .next s
  | some (_, _, s) =>
    let r := s.port[n].rs
    .next (if r.step = .partnerRdy then
      match r.code with
      | .prSrcSnk => ((s.becomeSink n).swapEnd n 0).bookPath n
      | .frsSource =>
        (((s.becomeSink n).modRs n fun r => { r with frsDone := true }).swapEnd n 0).bookPath n
      | .prSnkSrc =>
        let s := (s.openPath n false false false).swapContractEnd n
        let s := s.typeCSource n (rpLevelOf s.port[n].tc.cfg)
        let s := s.modPort n fun p =>
          { p with pp := { p.pp with sink := false }
                   tc := p.tc.present p.tc.rpLevel }
        (s.swapStep n .rise).bookRoleOn n
      | .frsSink =>
        (s.modTc n fun t => t.present s.port[n].rs.frsCur).swapStep n .rise
      | .vconnOff => ((s.vconnRelease n).modRs n fun r => { r with partnerVc := true }).swapEnd n 0
      | _ => s
    else if r.step = .idle && s.port[n].pd.reqSent.isSome then (s.sinkReady n).standbyTry n
    else s)

/-! ### The Turntable's timers (R337, R338, R341, R342, R344) -/

/-- vSafe0V reached after a ROLE grant to sink: the path opens, Rd is presented, PS_RDY is handed over (R341). -/
def State.fellToSafe (s : State) (n : PortId) : State :=
  let s := s.openPath n false false false
  let s := s.modPort n fun p =>
    { p with pp := { p.pp with assist := false, sink := true }, tc := p.tc.present 0 }
  (s.swapStep n .partnerRdy).sendMsg n .sop .psRdy false

/-- TURNTABLE_TIMEOUT: the swap fails; a fall that has not reached 0.8 V is a failed self-test (R341); the VCONN swap that
waits for PS_RDY ends in Hard Reset (R344). -/
def execTurntableTimeout (n : PortId) (s : State) : Host.Outcome State Fault Refusal :=
  let r := s.port[n].rs
  .next (match r.step with
    | .fall => (((s.sketchTrigger n .dsgFail).modPp n fun p => { p with dsgFail := true, assist := false }).swapFail n).testFail n 2
    | .partnerRdy => if r.code = .vconnOff then (s.modRs n fun r => { r with fail := true }).askHr n else s.swapFail n
    | .frAccept => s.swapFail n
    | _ => s)

/-- PR_SWAP_ROLE_TIMEOUT (R342, R354). -/
def execPrSwapRoleTimeout (n : PortId) (s : State) : Host.Outcome State Fault Refusal :=
  .next (if s.port[n].rs.code = .prSnkSrc && s.port[n].rs.step = .rise then s.swapFail n else s)

/-- NEW_SOURCE_VBUS_READY: Pn_VC within 4.75-5.50 V for 100 µs (R342, R350); from standby a SET toward 5.00 V follows, whose STEP
is that of R259 for the 0.25 V from the standby code. -/
def execNewSourceVbusReady (n : PortId) (mv : Nat) (s : State) : Host.Outcome State Fault Refusal :=
  let p := s.port[n]
  .next (if p.rs.step = .rise && decide (4750 ≤ mv) && decide (mv ≤ 5500) then
    if p.rs.code = .prSnkSrc && (p.pp.st = .closing || p.pp.st = .closed) && p.rs.entry.isNone && !p.rs.retry then
      ((s.sendMsg n .sop .psRdy false).becomeSource n (rpLevelOf p.tc.cfg)).swapEnd n 0
    else if p.rs.code = .frsSink then
      let lvl := p.rs.frsCur.toNat - 1
      let s := (((s.sendMsg n .sop .psRdy false).swapContractEnd n).becomeSource n lvl).modRs n fun r => { r with frsDone := true }
      let s := s.swapEnd n 0
      (s.bookPort n .set 4 none (s.port[n].pp.voltUnits (1 / 4)) 0).1
    else s
  else s)

/-- VCONN_SOURCE_REACHED (R344). -/
def execVconnSourceReached (n : PortId) (mv : Nat) (s : State) : Host.Outcome State Fault Refusal :=
  let r := s.port[n].rs
  .next (if r.code = .vconnOn && r.step = .rise && decide (4750 ≤ mv) then
    (s.swapStep n .psRdy).sendMsg n .sop .psRdy false else s)

/-- VCONN_SWAP_FAIL (R344). -/
def execVconnSwapFail (n : PortId) (s : State) : Host.Outcome State Fault Refusal :=
  .next (if s.port[n].rs.code = .vconnOn && s.port[n].rs.step = .rise then (s.modRs n fun r => { r with fail := true }).askHr n else s)

/-- The plan's entry still stands. -/
def State.planStands (s : State) (n : PortId) (q : Plan) : Bool :=
  match q.entry with
  | some i => s.tt.entries[i].any fun e => e.owner = n.val && (e.kind = .ramp || e.kind = .set) && !e.todo.isEmpty
  | none => true

/-- The increments that WARN_N cut are booked again under the limit of R312 with the original FIRST; Hard Reset where they
do not fit (R354). A signalled port waits for the end of its Fast Role Swap. -/
def State.rampRebook (s : State) (n : PortId) : State :=
  match s.port[n].ct.plan with
  | none => s
  | some q =>
    if q.k ≤ q.fired || s.planStands n q || s.hs.warn || s.port[n].rs.step ≠ .idle then s
    else
      let limit := if q.small then 40960 else 512000
      match s.bookPort n .ramp 4 none (((q.k - q.fired) * q.inc : Nat) : Int) q.inc with
      | (t, .granted i _ l) =>
        if 10 * ((l - q.first).toNat + 4 + tRespTk (s.pcCfg n)) + 2048 ≤ 10 * limit then
          t.modCt n fun c => { c with plan := some { q with entry := some i, last := l } }
        else s.askHr n
      | (_, .refused _) => s.askHr n

/-! ### Fast Role Swap (R345-R352) -/

/-- FRS_SIGNAL_END (R345, R347). -/
def execFrsSignalEnd (n : PortId) (s : State) : Host.Outcome State Fault Refusal :=
  .next (if s.port[n].rs.code = .frsSource && s.port[n].rs.step = .signal then s.swapStep n .frWait else s)

/-- FR_SWAP_WAIT (R347). -/
def execFrSwapWait (n : PortId) (s : State) : Host.Outcome State Fault Refusal :=
  .next (if s.port[n].rs.code = .frsSource && s.port[n].rs.step = .frWait then (s.swapQuiet n).rampRebook n else s)

/-- FRS_SIGNAL recognised in standby (R350). -/
def execFrsSignal (n : PortId) (s : State) : Host.Outcome State Fault Refusal :=
  .next (if s.port[n].rs.stby && s.port[n].rs.step = .idle then
    let s := s.cancelPort n
    let s := s.modRs n fun r => { r with stby := false, leaving := false, entry := none, code := .frsSink, step := .frAccept }
    s.sendMsg n .sop .frSwap false
  else s)

/-- FRS_NOSIG (R351). -/
def execFrsNosig (n : PortId) (s : State) : Host.Outcome State Fault Refusal :=
  .next (if s.port[n].rs.stby then (s.modRs n fun r => { r with nosig := true }).askHr n else s)

/-- FRS_STANDBY_DETACH, in place of a row of R213: none applies while a swap runs (R335, R351). -/
def execFrsStandbyDetach (n : PortId) (mv : Nat) (s : State) : Host.Outcome State Fault Refusal :=
  .next (if s.port[n].rs.stby && !s.swapping n && decide (mv < 201) then s.detach n true else s)

/-! ### Bookings made again (R241, R342, R354) -/

/-- BOOKING_RETRY. -/
def execBookingRetry (n : PortId) (s : State) : Host.Outcome State Fault Refusal :=
  let s := s.openRetry n
  let r := s.port[n].rs
  .next (if r.code = .prSnkSrc && r.step = .rise && r.retry then s.bookRoleOn n
    else if r.leaving && r.retry then
      match s.port[n].ct.stopFor with
      | some b => s.standbyLeave n b
      | none => s
    else s)

/-- WARN_N_RELEASE: what it cut is booked again, and FRS standby (R165, R321, R352, R354). -/
def execWarnNRelease (vin : Nat) (sagClear : Bool) (s : State) : Host.Outcome State Fault Refusal :=
  .next (if s.hs.warn && s.hs.st = .on && sagClear && decide (s.warnLvl + 1000 ≤ vin) then
    (s.warnOff).forPorts fun n s => (s.rampRebook n).standbyTry n
  else s)

end Sys2Proof.Machine
end

