-- ==== Sys2Proof/Machine/Alt.lean ====
section
/-! DEFINITION. Alternate modes and Points (chapter 13), with the AUX bus as Points uses it (R445, R446). -/
namespace Sys2Proof.Machine

/-! ### ALT_CFG (R370) -/

def altAuto (w : Word) : Bool := bit w 31
def dpEn (w : Word) : Bool := bit w 30
def usb4En (w : Word) : Bool := bit w 29
def prefUsb4 (w : Word) : Bool := bit w 28
def pinMask (w : Word) : BitVec 3 := BitVec.ofNat 3 (bits w 27 25)

/-- The lowest-lettered assignment in both (R361): 0 none, 1 C, 2 D, 3 E. -/
def pinOf (common : BitVec 3) : Fin 4 :=
  if bit common 0 then 1 else if bit common 1 then 2 else if bit common 2 then 3 else 0

/-! ### The check of the table (R364) -/

/-- A step passes: OP and ORI valid, and a write's address allowed. -/
def stepOk (own : Nat) (w : Word) : Bool :=
  let op := bits w 31 30
  let ad := bits w 23 17
  op ≠ 3 && bits w 29 28 ≠ 3 && (op ≠ 1 || decide (8 ≤ ad) && decide (ad < 0x78) && ad ≠ own)

/-- The index of the first word that fails, or none. -/
def pointsFail (own : Nat) : Nat → Nat → List Word → Option Nat
  | 0, _, _ => none
  | _ + 1, _, [] => none
  | fuel + 1, i, h :: t =>
    let len := bits h 27 24
    if h = 0 then none
    else if len = 0 || decide (t.length < len) then some i
    else match (t.take len).findIdx? fun w => !stepOk own w with
      | some k => some (i + 1 + k)
      | none => pointsFail own fuel (i + 1 + len) (t.drop len)

/-- The check at a Palette load; a failing table is treated as empty, and core SB raises HEALTH cause 9. -/
def State.pointsLoad (s : State) : State :=
  let ws := (List.range 256).map fun i => s.cfgW (0xC80 + 4 * i)
  match pointsFail (bits (s.twCfgWord 2) 22 16) 257 0 ws with
  | none => { s with points := { s.points with ok := true } }
  | some i => { s with points := { s.points with ok := false } }.raiseHealth 9 0xFF i 0

/-! ### Discovery and entry (R357-R362) -/

def State.vdmSend (s : State) (n : PortId) (step : AltStep) (c : VdmCmd) (svid : BitVec 16) (arg : Nat) : State :=
  (s.modAlt n fun a => { a with step := step }).sendMsg n .sop (.vdm c svid arg) true

/-- Entry is allowed at all (R357, R361, R368). -/
def State.modesAllowed (s : State) (n : PortId) : Bool :=
  let p := s.port[n]
  p.rs.dr = .dfp && p.pd.ctx[0].rev = 0b10 && !bit p.pd.cable 26 && p.alt.mode = .none && !p.alt.enterSince &&
  !p.alt.ptsSince

/-- Every event the mode can raise has its script for the port (R360, R365). -/
def State.haveScripts (s : State) (n : PortId) (evs : List (BitVec 4)) : Bool :=
  evs.all fun e => (s.findScript n e).isSome

/-- Discovery ends. -/
def State.altIdle (s : State) (n : PortId) : State := (s.modAlt n fun a => { a with step := .idle }).altComplete n

/-- The scripts a DisplayPort mode needs: those of every assignment in both the partner's mode VDO and PIN_MASK (R365). -/
def dpEvents (common : BitVec 3) : List (BitVec 4) :=
  [1] ++ (if bit common 0 then [2] else []) ++ (if bit common 1 then [3] else []) ++ (if bit common 2 then [4] else []) ++
  [6, 7, 8, 9]

/-- What the configuration and the partner allow to be entered now (R359): USB4, and DisplayPort with its common assignments. -/
def State.usb4Fits (s : State) (n : PortId) : Bool :=
  let p := s.port[n]
  usb4En (s.altCfg n) && p.alt.partnerUsb4 && bit p.pd.cable 24 && p.pd.cableUsb4
def State.dpCommon (s : State) (n : PortId) : BitVec 3 :=
  if dpEn (s.altCfg n) then s.port[n].alt.pins &&& pinMask (s.altCfg n) else 0

/-- A mode may be entered: allowed, and with every script it can call for (R357, R360). -/
def State.mayEnterUsb4 (s : State) (n : PortId) : Bool :=
  s.modesAllowed n && s.usb4Fits n && s.haveScripts n [5, 6, 7]
def State.mayEnterDp (s : State) (n : PortId) : Bool :=
  s.modesAllowed n && s.dpCommon n ≠ 0 && s.haveScripts n (dpEvents (s.dpCommon n))

/-- Step 4 of R359. -/
def State.entryDecide (s : State) (n : PortId) : State :=
  let usb := s.usb4Fits n
  let dp := s.dpCommon n ≠ 0
  let none' (s : State) : State := (s.modAlt n fun a => { a with noScript := true }).altIdle n
  if !s.modesAllowed n || !(usb || dp) then s.altIdle n
  else if usb && (prefUsb4 (s.altCfg n) || !dp) then
    if s.mayEnterUsb4 n then (s.modAlt n fun a => { a with step := .enterUsb }).sendMsg n .sop .enterUsb true else none' s
  else if s.mayEnterDp n then s.vdmSend n .enterMode .enterMode 0xFF01 0
  else none' s

/-- Discover Identity is sent. -/
def State.discoveryGo (s : State) (n : PortId) : State :=
  (s.modAlt n fun a => { a with tried := true, pins := 0, partnerUsb4 := false, noScript := false }).vdmSend n .identity
    .discoverIdentity 0xFF00 0

/-- Discovery may begin: after the first explicit contract and any swap of R336. -/
def State.mayDiscover (s : State) (n : PortId) : Bool :=
  s.served n && s.swapFree n && s.port[n].pd.contract && !s.plat[platOf n].fallback && s.port[n].alt.step = .idle &&
  s.modesAllowed n && !s.swapPending n

/-- DISCOVERY_START: once per attach with AUTO, or for a host that asks (R359). -/
def execDiscoveryStart (n : PortId) (s : State) : Host.Outcome State Fault Refusal :=
  let a := s.port[n].alt
  .next (if s.mayDiscover n && (altAuto (s.altCfg n) && !a.tried || a.host.isSome) then s.discoveryGo n else s)

/-- ENTER_FAIL: no further entry until detach (R361, R371). -/
def State.enterFailed (s : State) (n : PortId) : State :=
  ((s.modAlt n fun a => { a with enterFail := true, enterSince := true, step := .idle }).altEvent n 2).altComplete n

/-- A mode entered, with its event. -/
def State.modeEntered (s : State) (n : PortId) (m : AltMode) (pin : Fin 4) (step : AltStep) : State :=
  ((s.modAlt n fun a => { a with mode := m, pin := pin, step := step }).altEvent n 0).altComplete n

/-! ### Leaving a mode (R368) -/

/-- The mode has ended: EXIT runs, where one was entered. -/
def State.modeExit (s : State) (n : PortId) : State :=
  let had := s.port[n].alt.mode ≠ .none
  let s := (s.modeEnd n).modAlt n fun a => { a with step := .idle }
  (if had then s.reqScript n 6 else s).altComplete n

/-- DisplayPort: SAFE first. USB4: EXIT at once. -/
def State.altLeave (s : State) (n : PortId) : State :=
  match s.port[n].alt.mode with
  | .none => s
  | .usb4 => s.modeExit n
  | .displayPort =>
    if (s.findScript n 1).isSome then (s.modAlt n fun a => { a with step := .exitSafe }).reqScript n 1
    else s.vdmSend n .exiting .exitMode 0xFF01 0

/-- ALT_CFG may have changed so that the mode entered is no longer allowed; in hold-over the returning core looks. -/
def State.altRecheck (s : State) (n : PortId) : State :=
  let a := s.port[n].alt
  let w := s.altCfg n
  let ok := match a.mode with
    | .none => true
    | .usb4 => usb4En w
    | .displayPort => dpEn w && (a.pin = 0 || bit (pinMask w) (a.pin.val - 1))
  if ok || s.port[n].hold || a.step = .exitSafe || a.step = .exiting then s else s.altLeave n

/-! ### Answers to VDMs (R361, R365, R369) -/

/-- HPD as reported: a change requests its script; after a hold-over the state read does (R365, R369). -/
def State.hpdSee (s : State) (n : PortId) (high : Bool) : State :=
  let a := s.port[n].alt
  if a.hpd = high && !a.askStatus then s
  else (s.modAlt n fun a => { a with hpd := high, askStatus := false }).reqScript n (if high then 8 else 9)

/-- The HPD state of a DisplayPort status object. -/
def hpdOf (status : Nat) : Bool := status.testBit 7

/-- An answer that is no ACK, or none in time (R361, R368). -/
def State.vdmNone (s : State) (n : PortId) : State :=
  match s.port[n].alt.step with
  | .identity | .svids | .modes => s.entryDecide n
  | .enterMode | .enterUsb => s.enterFailed n
  | .status | .configure => ((s.modAlt n fun a => { a with enterFail := true, enterSince := true }).altEvent n 2).altLeave n
  | .exiting => s.modeExit n
  | _ => s

def isVdmAnswer : PdBody → Bool
  | .vdmAck .. | .vdmNak _ | .vdmBusy _ | .svidsAck _ | .partnerIdentity _ => true
  | _ => false

/-- VDM_ACK: an answer to the Station's structured VDM on SOP. The ACK to Enter Mode enters the mode only where it is still
allowed then; otherwise the partner is told to leave it (R357, R358, R360, R361, R368). -/
def State.vdmAnswer (s : State) (n : PortId) (b : PdBody) : State :=
  let a := s.port[n].alt
  match b with
  | .partnerIdentity u =>
    if a.step = .identity then (s.modAlt n fun a => { a with partnerUsb4 := u }).vdmSend n .svids .discoverSvids 0xFF00 0 else s
  | .svidsAck l =>
    if a.step = .svids then
      if l.contains 0xFF01 then s.vdmSend n .modes .discoverModes 0xFF01 0 else s.entryDecide n
    else s
  | .vdmAck .discoverModes pins =>
    if a.step = .modes then (s.modAlt n fun a => { a with pins := BitVec.ofNat 3 pins }).entryDecide n else s
  | .vdmAck .enterMode _ =>
    if a.step ≠ .enterMode then s
    else if s.mayEnterDp n then (s.modeEntered n .displayPort (pinOf (s.dpCommon n)) .safe).reqScript n 1
    else if s.port[n].rs.dr = .dfp then s.vdmSend n .exiting .exitMode 0xFF01 0
    else s.altIdle n
  | .vdmAck .dpStatus st =>
    let s := if a.mode = .displayPort then s.hpdSee n (hpdOf st) else s
    if a.step = .status then s.vdmSend n .configure .dpConfigure 0xFF01 a.pin.val else s
  | .vdmAck .dpConfigure _ =>
    if a.step = .configure then
      (s.modAlt n fun a => { a with step := .mounted }).reqScript n (BitVec.ofNat 4 (1 + a.pin.val)) else s
  | .vdmAck .exitMode _ => if a.step = .exiting then s.modeExit n else s
  | .vdmNak _ | .vdmBusy _ => s.vdmNone n
  | _ => s

def execVdmAck (n : PortId) (s : State) : Host.Outcome State Fault Refusal :=
  match s.takeMsg n isVdmAnswer with
  | none => .next s
  | some (m, _, s) =>
    .next (if m.sop = .sop then ((s.modPd n fun d => d.disarm .vdm).amsEnd n).vdmAnswer n m.body else s.amsEnd n)

/-- VDM_TIMEOUT: the timer runs from the GoodCRC to a structured VDM (R361, R362, R368). -/
def execVdmTimeout (n : PortId) (s : State) : Host.Outcome State Fault Refusal :=
  .next (if s.served n && s.port[n].pd.armed .vdm then ((s.modPd n fun d => d.disarm .vdm).amsEnd n).vdmNone n else s)

/-- Accept to Enter_USB: the script USB4, where the mode is still allowed (R357, R358, R361). -/
def State.usbAccepted (s : State) (n : PortId) : State :=
  if s.mayEnterUsb4 n then (s.modeEntered n .usb4 0 .mounted).reqScript n 5 else s.altIdle n

def isAttention : PdBody → Bool
  | .vdm .attention _ _ => true
  | _ => false

/-- ATTENTION: BUSY in hold-over, and its content is lost (R274, R365, R369). -/
def execAttention (n : PortId) (s : State) : Host.Outcome State Fault Refusal :=
  match s.takeMsg n isAttention with
  | none => .next s
  | some (m, eng, s) =>
    .next (if eng then s.sendMsg n .sop (.vdmBusy .attention) false
    else match m.body with
      | .vdm _ _ arg => if s.port[n].alt.mode = .displayPort then s.hpdSee n (hpdOf arg) else s
      | _ => s)

/-! ### Running a script (R366, R367) -/

/-- The step is skipped for its ORI (R367). -/
def oriSkips (o : Orient) (w : Word) : Bool :=
  (bits w 29 28 = 1 && o ≠ .cc1) || (bits w 29 28 = 2 && o ≠ .cc2)

/-- The steps from the next one that is carried out, with its number: a step is skipped for its ORI without bus time, and an end
step that is not skipped ends the script (R364, R367). -/
def nextSteps (o : Orient) : List Word → Nat → List Word × Nat
  | [], k => ([], k)
  | w :: t, k => if oriSkips o w then nextSteps o t (k + 1) else if bits w 31 30 = 0 then ([], k) else (w :: t, k)

/-- The script stands at its next step. -/
def State.settleScript (s : State) (h : Script) : Script :=
  let r := nextSteps s.port[h.port].tc.orient h.steps h.num
  { h with steps := r.1, num := r.2 }

/-- The script at the head has ended. -/
def State.scriptEnded (s : State) : State :=
  match s.points.queue with
  | [] => s
  | h :: t =>
    let s := { s with points := { s.points with queue := t, running := false, delay := false } }
    let a := s.port[h.port].alt
    if h.event = 1 && a.step = .safe then s.vdmSend h.port .status .dpStatus 0xFF01 0
    else if h.event = 1 && a.step = .exitSafe then s.vdmSend h.port .exiting .exitMode 0xFF01 0
    else s

/-- The next step of the running script, or its end. -/
def State.scriptNext (s : State) : State :=
  match s.points.queue with
  | [] => s
  | h :: t =>
    let h' := s.settleScript { h with steps := h.steps.tail, num := h.num + 1, fails := 0, losses := 0 }
    let s := { s with points := { s.points with queue := h' :: t, delay := false } }
    if h'.steps.isEmpty then s.scriptEnded else s

/-- PTS_FAIL (R367-R369, R371); a mode that is already being left goes on being left. -/
def State.ptsFailed (s : State) (h : Script) : State :=
  let n := h.port
  let s := (s.modAlt n fun a => { a with ptsFail := true, ptsSince := true, failStep := BitVec.ofNat 4 h.num }).altEvent n 3
  let exit := h.event = 6 || h.event = 7
  let s := if exit then s.raiseHealth 16 n.val h.num 0 else s
  let leaving := s.port[n].alt.step = .exitSafe || s.port[n].alt.step = .exiting
  if exit || leaving then s.scriptEnded
  else ({ s with points := { s.points with queue := s.points.queue.tail, running := false, delay := false } }).altLeave n

/-- A failed attempt; the fourth stops the script. -/
def State.attemptFailed (s : State) : State :=
  match s.points.queue with
  | [] => s
  | h :: t =>
    let h' := { h with fails := h.fails + 1, losses := 0 }
    let s := { s with points := { s.points with queue := h' :: t, delay := true } }
    if 4 ≤ h'.fails then s.ptsFailed h' else s

/-- A script may run: core SB runs, and its port is not in hold-over, but for DETACH (R369). -/
def State.scriptReady (s : State) (h : Script) : Bool := s.sbUp && (!s.port[h.port].hold || h.event = 7)

/-- The running script, while it may run. -/
def State.curScript (s : State) : Option Script :=
  match s.points.queue with
  | h :: _ => if s.points.running && s.scriptReady h then some h else none
  | [] => none

/-- The step it stands at; its port may have been dropped from it (R369). -/
def State.curStep (s : State) : Option (Script × Word) := s.curScript.bind fun h => h.steps.head?.map fun w => (h, w)

/-- SCRIPT_START: the first script of the queue that may run, where none does; one that a hold-over has stopped goes on from its
step (R366, R369). -/
def execScriptStart (s : State) : Host.Outcome State Fault Refusal :=
  .next (if s.curScript.isSome then s
  else match s.points.queue.find? s.scriptReady with
    | none => s
    | some x =>
      let h := s.settleScript x
      let s := { s with points := { s.points with queue := h :: s.points.queue.erase x, running := true, delay := false } }
      let s := s.modAlt h.port fun a => { a with lastEvt := h.event }
      if h.steps.isEmpty then s.scriptEnded else s)

/-- A step boundary reached by a script that a detach has stopped: it ends. -/
def State.scriptStopped (s : State) : State := if s.curScript.any fun h => h.steps.isEmpty then s.scriptEnded else s

/-- ADDR, REG and DATA of a write step (R363). -/
def writeOf (w : Word) : BitVec 7 × Byte × Byte :=
  (BitVec.ofNat 7 (bits w 23 17), BitVec.ofNat 8 (bits w 15 8), BitVec.ofNat 8 (bits w 7 0))

/-- A write of the present step, sent on a free bus. -/
def State.scriptWrite (s : State) (acked : Bool) : State :=
  match s.curStep with
  | some (_, w) =>
    if bits w 31 30 ≠ 1 || !s.points.busFree || s.points.sclStuck then s
    else
      let s := { s with points := { s.points with out := some (writeOf w) } }
      if acked then s.scriptNext else s.attemptFailed
  | none => s.scriptStopped

/-- SCRIPT_WRITE. -/
def execScriptWrite (acked : Bool) (s : State) : Host.Outcome State Fault Refusal :=
  .next (if s.points.delay then s else s.scriptWrite acked)

/-- SCRIPT_WRITE_RETRY: 1 ms later. -/
def execScriptWriteRetry (acked : Bool) (s : State) : Host.Outcome State Fault Refusal :=
  .next (if s.points.delay then ({ s with points := { s.points with delay := false } }).scriptWrite acked else s)

/-- SCRIPT_DELAY: a delay step ends. -/
def execScriptDelay (s : State) : Host.Outcome State Fault Refusal :=
  .next (match s.curStep with
    | some (_, w) => if bits w 31 30 = 2 then s.scriptNext else s
    | none => s.scriptStopped)

/-! ### The AUX bus as controller (R445, R446) -/

/-- The present step is a write; in hold-over the controller is idle (R450). -/
def State.writing (s : State) : Bool := s.curStep.any fun x => bits x.2 31 30 = 1

/-- ARBITRATION_LOSS of a transfer begun on a free bus: it is tried again at the next free bus without the 1 ms of R367, and the
32nd in a row on a step is a failed attempt. A transfer to the Station's own address is the target's, in TWO_WIRE_WRITE and
TWO_WIRE_READ. -/
def execArbitrationLoss (_ownAddress : Bool) (s : State) : Host.Outcome State Fault Refusal :=
  let free := s.points.busFree
  let s := { s with points := { s.points with busFree := false } }
  .next (if s.writing && free && !s.points.sclStuck then
    match s.points.queue with
    | h :: t =>
      if 31 ≤ h.losses then s.attemptFailed
      else { s with points := { s.points with queue := { h with losses := h.losses + 1 } :: t, delay := false } }
    | [] => s
  else s)

/-- AUX_BUS_STUCK: nine clocks and a STOP, or nothing driven until SCL is released; the bus is not free (R445, R446). -/
def execAuxBusStuck (sclLow sdaStillLow : Bool) (s : State) : Host.Outcome State Fault Refusal :=
  .next (if sclLow then
    let s := { s with points := { s.points with sclStuck := true, busFree := false } }
    if s.writing then s.attemptFailed else s
  else if sdaStillLow then
    let s := { s with points := { s.points with busFree := false } }
    let s := if s.writing then s.attemptFailed else s
    if s.sbUp then s.raiseHealth 15 0xFF 0 0 else s
  else { s with points := { s.points with busFree := false } })

end Sys2Proof.Machine
end

