-- ==== Sys2Proof/Machine/Measure.lean ====
section
/-! DEFINITION. Measurement, energy and trace (chapter 14): the sample instant, trace frames, snapshots, the NET lane's
frames, and the acts of the periodic channels and of a superframe start. -/
namespace Sys2Proof.Machine

/-! ### The channel values (R373, R374, R383) -/

/-- The current of a sample, 0.5 mA before saturation (R374), with what Pn_DSG draws taken off. Codes of V_ds are 78125/16000 µV; a code of Pn_DSS is 20 µV
on 0.250 Ω. -/
def currentOf (p : Port) (x : PortSample) (now : CT) : Int :=
  if p.pp.st = .closed then
    let dss : Rat := if p.pp.assist || p.pp.pulseOn now then (x.dss.toNat * 4 : Rat) / 25 else 0
    roundHalfUp ((x.vds.toInt : Rat) * 78125 / 8 / p.pp.rEst - dss)
  else 0

def satI (i : Int) : BitVec 16 := BitVec.ofInt 16 (max (-32768) (min 32767 i))

/-- A value of VC or of I at the end of its range (R374, R381). -/
def saturated (x : PortSample) (i : Int) : Bool := x.vc = 0xFFFF || decide (32767 < i) || decide (i < -32768)

def dec (w : Word) : Nat := bits w 23 20
def groupLen (w : Word) : Nat := 2 ^ dec w
def chMask (w : Word) : Nat := bits w 27 24
def traceOn (w : Word) : Bool := bit w 31
def traceFilt (w : Word) : Bool := bit w 29

/-- The code of channel c of a sample; SEL3 chooses channel 3 (R373). -/
def chanCode (w : Word) (x : Sample) : Nat → Int
  | 0 => x.vc.toNat
  | 1 => x.vb.toNat
  | 2 => x.i.toInt
  | _ => if bit w 30 then x.dss.toNat else x.vds.toInt

/-- The boxcar mean of a group (R383). -/
def boxcar (w : Word) (l : List Sample) (c : Nat) : BitVec 16 :=
  let r := groupLen w
  BitVec.ofInt 16 ((((l.map fun x => chanCode w x c).sum) + (r / 2 : Nat)) / (r : Nat))

/-! ### Energy (R377) -/

/-- Ten million units of 10⁻⁷ µJ. -/
def addEnergy (cnt : BitVec 64) (res units : Nat) : BitVec 64 × Nat :=
  (cnt + BitVec.ofNat 64 ((res + units) / 10000000), (res + units) % 10000000)

def Measure.energy (m : Measure) (p : Int) : Measure :=
  if 0 ≤ p then
    let r := addEnergy m.src m.srcRes p.natAbs
    { m with src := r.1, srcRes := r.2 }
  else
    let r := addEnergy m.snk m.snkRes p.natAbs
    { m with snk := r.1, snkRes := r.2 }

/-! ### One sample instant of a port (R254, R374, R377, R383, R390, R396) -/

/-- A value of a channel the trace carries lies at the end of its range (R373, R390). Channel 3 is V_ds or Pn_DSS, whose
codes end at ±2¹⁵ and at 0xFFFF. -/
def traceSat (w : Word) (x : PortSample) (i : Int) : Bool :=
  let vds := decide (x.vds.toInt = 32767) || decide (x.vds.toInt = -32768)
  let ends := [decide (x.vc = 0xFFFF), decide (x.vb = 0xFFFF), decide (32767 < i) || decide (i < -32768),
    if bit w 30 then decide (x.dss = 0xFFFF) else vds]
  (List.range 4).any fun c => chMask w / 2 ^ c % 2 = 1 && ends.getD c false

/-- FLAGS bits of R390 that an instant shows: CAL, HOLDOVER, HELD, SAT. -/
def flagsNow (p : Port) (narrow sat : Bool) (now : CT) : Byte :=
  BitVec.ofNat 8 (b2n (p.pp.pulseOn now) + 4 * b2n narrow + 16 * b2n p.hold + 32 * b2n sat)

/-- A completed group goes to the frame that holds its first sample. -/
def Trace.addGroup (t : Trace) (g : TrGroup) : Trace :=
  if t.held.any fun f => f.waitGroup then
    { t with held := t.held.map fun f => if f.waitGroup then { f with groups := f.groups ++ [g], waitGroup := false } else f }
  else { t with groups := t.groups ++ [g] }

/-- The trace at a sample instant; `hist` has the new sample first. -/
def Trace.sample (t : Trace) (hist : List Sample) (ct : CT) (ph sidx : Nat) (flags : Byte) : Trace :=
  if !traceOn t.cfg then t
  else
    let r := groupLen t.cfg
    let t := { t with flags := t.flags ||| flags, part := if sidx % r = 0 then some (ct, ph, sidx) else t.part }
    if (sidx + 1) % r = 0 then
      match t.part with
      | some (c, h, i) =>
        ({ t with part := none } : Trace).addGroup
          { ct := c, ph := h, sidx := i, box := (List.range 4).map (boxcar t.cfg (hist.take r)), kern := none }
      | none => t
    else t

/-- The I²t sum, every 10 µs while the path is CLOSED (R254), in (0.5 mA)² × 10 µs / 2500; I_LIM has 0.005 A units. -/
def Path.i2tStep (p : Path) (sidx : Nat) : Nat :=
  if p.st ≠ .closed then 0
  else if (sidx + 1) % 50 = 0 then
    let m := sumAbs (p.hist.take 50)
    let lim := 500 * bits p.prot 23 12
    p.i2t + m * m - lim * lim
  else p.i2t

/-- What an instant does to one port. -/
def Port.sampled (p : Port) (x : PortSample) (ct : CT) (ph sidx : Nat) (narrow : Bool) : Port :=
  let i := currentOf p x ct
  let y : Sample := { vc := x.vc, vb := x.vb, i := satI i, vds := x.vds, dss := x.dss }
  let sat := saturated x i
  let hist := (y :: p.pp.hist).take 50000
  let m := p.ms.energy ((x.vc.toNat : Int) * y.i.toInt)
  let pp := { p.pp with hist := hist, quiet := if y.i.toInt.natAbs < 200 then p.pp.quiet + 1 else 0 }
  { p with pp := { pp with i2t := pp.i2tStep sidx }
           ms := { m with sat := m.sat || sat, closedSamples := m.closedSamples + b2n (decide (p.pp.st = .closed))
                          trace := m.trace.sample hist ct ph sidx (flagsNow p narrow (traceSat m.trace.cfg x i) ct) } }

/-- A Sketch that fills takes the sample of its port; the first it takes is its trigger sample (R396, R397). -/
def Sketch.sample (k : Sketch) (y : Sample) (ct : CT) (ph sidx : Nat) : Sketch :=
  if 4096 ≤ k.recs.length then k
  else
    let k := if k.recs.length = 1024 then { k with trigCt := ct, trigPh := ph, trigIdx := sidx } else k
    { k with recs := k.recs ++ [y], stamps := k.stamps ++ [(ct, ph)] }

/-! ### Trace frames (R387-R391, R535) -/

/-- The 32 bytes of a Hexpo header (R388). -/
def hexpoHdr (ty port mask dec : Nat) (flags : Byte) (seq : Word) (nsamp ph : Nat) (ct : Nat) (rEst tFet sidx : Nat) :
    List Byte :=
  leBytes 2 0xC4E1 ++ [1] ++ leBytes 1 ty ++ leBytes 1 port ++ leBytes 1 mask ++ leBytes 1 dec ++ [flags] ++
  leBytes 4 seq.toNat ++ leBytes 2 nsamp ++ leBytes 2 ph ++ leBytes 6 ct ++ [0, 0] ++ leBytes 2 rEst ++ leBytes 2 tFet ++
  leBytes 4 sidx

/-- A frame's bytes on the lane from its MAC header on, without the FCS (R385). -/
def traceBytes : LaneFrame → Nat
  | .trace _ _ _ recs => 74 + (recs.map fun r => 2 * r.length).sum
  | _ => 0

/-- The trace queue holds 48 KiB (R391). -/
def traceRoom : Nat := 49152

/-- A frame on the lane has somewhere to go (R391). -/
def State.laneDest (s : State) : Bool := s.net.link && s.netDmac ≠ 0 && s.netDip ≠ 0

def Net.lose (n : Net) (k : Nat) : Net := { n with lost := min 0xFFFF (n.lost + k) }

/-- The next frame of a port carries GAP (R390). -/
def Trace.setGap (t : Trace) : Trace :=
  match t.held with
  | f :: r => { t with held := { f with flags := f.flags ||| 0x08 } :: r }
  | [] => { t with gap := true }

/-- The values of a frame: a kernel's where it made them and one exists, the boxcar's otherwise (R535). -/
def TrFrame.vals (f : TrFrame) (g : TrGroup) : List (BitVec 16) :=
  let all := if f.kernel then g.kern.getD g.box else g.box
  ((List.range 4).filter fun c => chMask f.cfg / 2 ^ c % 2 = 1).map fun c => all.getD c 0

/-- FLAGS.FILT: every value came from the kernel. -/
def TrFrame.filt (f : TrFrame) : Bool := f.kernel && !f.groups.isEmpty && f.groups.all fun g => g.kern.isSome

/-- Trace frames stand in cut order, whatever frame completes first (R393). -/
def traceInsert (x : LaneFrame) (cut : Nat) : List LaneFrame → List LaneFrame
  | [] => [x]
  | y :: r => match y with
    | .trace _ c _ _ => if cut < c then x :: y :: r else y :: traceInsert x cut r
    | _ => y :: traceInsert x cut r

/-- A frame that is complete goes to the queue, or is lost (R391). -/
def State.queueTrace (s : State) (n : PortId) (f : TrFrame) : State :=
  let k := s.fresh
  let s := if f.groups.isEmpty then { s with fresh := k + 1 } else s
  let (ct, ph, sidx) := match f.groups with
    | g :: _ => (g.ct.toNat, g.ph, g.sidx)
    | [] => (Config.openHeader k 16, Config.openHeader k 14, Config.openHeader k 28)
  let fl := f.flags ||| (if f.filt then 0x40 else 0)
  let x : LaneFrame := .trace n f.cut
    (hexpoHdr 1 n.val (chMask f.cfg) (dec f.cfg) fl f.seq f.groups.length ph ct f.rEst.toNat f.tFet sidx)
    (f.groups.map f.vals)
  if s.laneDest && bit s.netCtl 31 && decide ((s.net.traces.map traceBytes).sum + traceBytes x ≤ traceRoom) then
    { s with net := { s.net with traces := traceInsert x f.cut s.net.traces } }
  else ({ s with net := s.net.lose 1 }).modMs n fun m => { m with trace := m.trace.setGap }

/-- The frames of a port that wait for nothing are queued, in cut order; `fuel` bounds their number. -/
def State.flushTrace (n : PortId) : Nat → State → State
  | 0, s => s
  | fuel + 1, s =>
    match s.port[n].ms.trace.held with
    | f :: r =>
      if f.waitGroup || f.waitAsm then s
      else State.flushTrace n fuel
        ((s.modMs n fun m => { m with trace := { m.trace with held := r } }).queueTrace n f)
    | [] => s

/-- The kernel of the port's Platform makes values now (R384, R534). -/
def State.kernelMakes (s : State) (n : PortId) : Bool :=
  let c := s.core[coreOf (platOf n)]
  c.up && c.slot.st = .running && !s.port[n].hold

/-- A cut at a match of CH(4n + 2) (R382, R384, R390, R391). A group that has begun belongs to the frame cut, unless an
earlier frame still waits for it. -/
def State.traceCut (s : State) (n : PortId) : State :=
  let t := s.port[n].ms.trace
  if !traceOn t.cfg || !bit s.fuse.present n then s
  else
    let f : TrFrame :=
      { cfg := t.cfg, seq := t.seq, flags := t.flags ||| (if t.gap then 0x08 else 0), cut := s.net.cuts, rEst := rEst16 s.port[n].pp,
        tFet := temp16 (s.tFet n), groups := t.groups, kernel := t.kernel && traceFilt t.cfg,
        waitGroup := t.part.isSome && !(t.held.any fun f => f.waitGroup), waitAsm := traceFilt t.cfg }
    let t' : Trace := { t with seq := t.seq + 1, groups := [], flags := 0, gap := false,
                               kernel := traceFilt t.cfg && s.kernelMakes n, held := t.held ++ [f] }
    State.flushTrace n 8 ({ s with net := { s.net with cuts := s.net.cuts + 1 } }.modMs n fun m => { m with trace := t' })

/-- The oldest frame that waits for its assembly. -/
def markAsm : List TrFrame → List TrFrame
  | [] => []
  | f :: r => if f.waitAsm then { f with waitAsm := false } :: r else f :: markAsm r

/-- FRAME_ASSEMBLY: 1.5 µs after a cut of a FILT = 1 port (R384, R535). -/
def execFrameAssembly (n : PortId) (s : State) : Host.Outcome State Fault Refusal :=
  .next (State.flushTrace n 8 (s.modMs n fun m => { m with trace := { m.trace with held := markAsm m.trace.held } }))

/-! ### SAMPLE_INSTANT (R22, R169, R243, R254, R326, R372-R374, R377, R383, R396) -/

/-- HS_MEAS, every 1 µs, and the window of R326. -/
def State.hsMeas (s : State) (vin vsns : BitVec 16) : State :=
  let s := s.seeVin vin.toNat
  if s.sidx % 5 = 0 then
    { s with hs := { s.hs with vin := vin, vsns := vsns, power := ((vin.toNat * vsns.toInt : Int) :: s.hs.power).take 10000 } }
  else s

/-- The Sketches that fill: those of the tick, those in slots and those in the holding buffers. -/
def Sketch.fill (v : Vector Port 24) (ct : CT) (ph sidx : Nat) (x : Sketch) : Sketch :=
  if x.complete then x
  else match v[x.port].pp.hist with
    | y :: _ => x.sample y ct ph sidx
    | [] => x

def Platform.sampled (k : Platform) (v : Vector Port 24) (ct : CT) (ph sidx : Nat) : Platform :=
  let take := Sketch.fill v ct ph sidx
  let done (x : Sketch) : Sketch := { x with complete := decide (4096 ≤ x.recs.length) }
  { k with slots := k.slots.map fun o => o.map take, holding := k.holding.map fun x => done (take x) }

/-- The counters at the first sample instant of a tick are kept, and those of a tick in which a measurement command arrived
that is still held; a sample that comes counts from here on (R379). -/
def State.keepFirst (s : State) : State :=
  if s.stamps.head?.any fun x => x.1 = s.time.ct then s
  else
    let held (c : CT) : Bool := (s.inbox ++ s.waiting).any fun h => h.op = 0x0500 && h.stamp = c
    { s with firsts := (s.time.ct, s.phase, allPorts.map fun n => (s.port[n].ms.src, s.port[n].ms.snk)) ::
                       s.firsts.filter fun x => held x.1 }

/-- SAMPLE_INSTANT. The Front end of an unpopulated port is powered down: nothing of it is sampled (R52). -/
def execSampleInstant (samples : Vector PortSample 24) (vin vsns : BitVec 16) (s : State) :
    Host.Outcome State Fault Refusal :=
  if !s.sup.hvUp then .next s
  else
    let v : Vector Port 24 := Vector.ofFn fun n =>
      if bit s.fuse.present n then s.port[n].sampled samples[n] s.time.ct s.phase s.sidx s.narrow else s.port[n]
    let s := s.keepFirst
    let s := { s with port := v, sketches := s.sketches.map (Sketch.fill v s.time.ct s.phase s.sidx)
                      plat := s.plat.map fun (k : Platform) => k.sampled v s.time.ct s.phase s.sidx,
                      health := { s.health with sinceScrub := s.health.sinceScrub + 1 } }
    let s := s.hsMeas vin vsns
    let s := { s with stamps := ((s.time.ct, s.phase) :: s.stamps).take 1024, sidx := s.sidx + 1, phase := s.phase + 40 }
    .next (s.forPorts fun n s => State.flushTrace n 8 s)

/-- SKETCH_COMPLETE: 614.4 µs after the trigger (R396). -/
def execSketchComplete (k : PlatId) (slot : Fin 8) (s : State) : Host.Outcome State Fault Refusal :=
  .next (s.modPlat k fun p => { p with slots := p.slots.set slot (p.slots[slot].map fun x =>
    { x with complete := x.complete || decide (4096 ≤ x.recs.length) }) })

/-- HOUSEKEEPING_SCAN (R376), with the highest temperatures of R586. -/
def execHousekeepingScan (hk : HkScan) (s : State) : Host.Outcome State Fault Refusal :=
  let high (o : Option Int) (t : BitVec 16) : Option Int := some (max t.toInt (o.getD t.toInt))
  .next (if s.sup.hvUp then
    { s with hk := hk, health := { s.health with tHv := high s.health.tHv hk.tHv, tLogic := high s.health.tLogic hk.tLogic } }
  else s)

/-! ### Snapshots and energy reports (R379, R392) -/

/-- Every port's counters latched at the sample instant that comes, with its CT and phase. -/
def State.snapshot (s : State) : State :=
  { s with port := s.port.map fun p => { p with ms := { p.ms with snapSrc := p.ms.src, snapSnk := p.ms.snk } },
           snapCt := s.time.ct, snapPh := BitVec.ofNat 16 s.phase }

/-- EN_SNAP: core SB's write of EN_SNAP.GO. -/
def execEnSnap (core : CoreId) (s : State) : Host.Outcome State Fault Refusal :=
  .next (if core = coreSB then s.snapshot else s)

/-- A host snapshot: the first sample instant of the tick in which the command arrived, that to come where it has not been
yet: its CT, its phase and the counters of every port (R379). -/
def State.hostSnapshot (s : State) (arrived : CT) : CT × Nat × List (BitVec 64 × BitVec 64) :=
  (s.firsts.find? fun x => x.1 = arrived).getD
    (s.time.ct, s.phase, allPorts.map fun n => (s.port[n].ms.src, s.port[n].ms.snk))

/-- The counters of a port as an energy report gives them; a port not in service reads 0 (R392). -/
def State.energyPair (s : State) (n : PortId) : BitVec 64 × BitVec 64 :=
  if s.inService n then (s.port[n].ms.src, s.port[n].ms.snk) else (0, 0)

/-- The TYPE 0x03 frame of a superframe start. The lane drops it where it has nowhere to go. -/
def State.energyReport (s : State) : State :=
  if bit s.netCtl 30 then
    let k := s.fresh
    let h := hexpoHdr 3 0xFF (Config.openHeader k 5 % 16) (Config.openHeader k 6) (BitVec.ofNat 8 (Config.openHeader k 7))
      s.net.repSeq 24 s.phase s.time.ct.toNat 0 0 0
    { s with fresh := k + 1,
             net := { s.net with repSeq := s.net.repSeq + 1,
                                 reports := if s.laneDest then s.net.reports ++ [.report h (allPorts.map s.energyPair)]
                                            else s.net.reports } }
  else s

/-! ### CHANNEL_MATCH (R20, R107, R109, R129, R202, R216, R217, R245, R382) -/

/-- One step of a port's LFSR, and eight (R217). -/
def lfsrStep (x : BitVec 16) : BitVec 16 :=
  let b := x ^^^ (x >>> 2) ^^^ (x >>> 3) ^^^ (x >>> 5)
  (x >>> 1) ||| (if b.getLsbD 0 then 0x8000 else 0)

def lfsr8 (x : BitVec 16) : BitVec 16 :=
  lfsrStep (lfsrStep (lfsrStep (lfsrStep (lfsrStep (lfsrStep (lfsrStep (lfsrStep x)))))))

/-- The DRP toggle: UNATT_SRC for T_src, whose end is T_SRC_END, by the ROLE in force (R203, R216, R217). The LFSR steps at the
matches that toggle a port, and not at those that fall while it is attached or waits (DESIGN CHOICE: R217 says only that it
steps at each match; log entry 157). -/
def State.drpMatch (s : State) (n : PortId) : State :=
  let t := s.port[n].tc
  if t.st.unatt && roleOf t.cfg = 0 then
    (s.modTc n fun t => { t with lfsr := lfsr8 t.lfsr }).toUnatt n false
  else s

/-- What a match of a channel of a port does beside its action. -/
def State.portMatch (s : State) (n : PortId) (j : Nat) : State :=
  match j with
  | 0 => s.drpMatch n
  | 1 => s.calBook n
  | 2 => s.traceCut n
  | _ => s

/-- CHANNEL_MATCH: the flag, the match action, and the activity of the channel. -/
def execChannelMatch (ch : Fin 128) (s : State) : Host.Outcome State Fault Refusal :=
  if s.chan[ch].dueM then
    let s := (s.modChan ch fun c => { c with dueM := false, mflag := true }).chanAction ch s.chan[ch].actM
    .next (if h : ch.val < 96 then s.portMatch ⟨ch.val / 4, by omega⟩ (ch.val % 4) else s)
  else .next s

/-! ### SUPERFRAME_START (R90, R112, R113, R137, R138, R379, R385, R392) -/

/-- A set epoch takes effect: CT[47:21] takes the value, everything held moves with it, the EPOCH event is issued and the
command completes (R90, R491). -/
def State.epochApply (s : State) : State :=
  match s.time.epochPend with
  | none => s
  | some (v, cmd) =>
    let before := s.time.ct
    let after : CT := v ++ before.extractLsb' 0 21
    let s := s.shiftHeld (after - before)
    let s := { s with time := { s.time with ct := after, epochSet := true, epochPend := none } }
    let s := s.forPorts fun n s => s.modMs n fun m =>
      { m with trace := { m.trace with flags := if traceOn m.trace.cfg then m.trace.flags ||| 0x80 else m.trace.flags } }
    let cts := leBytes 8 before.toNat ++ leBytes 8 after.toNat
    (s.emitSt 0x0380 cts).completeOpt cmd stOk cts

/-- TR_CFG committed since takes effect, and the Platform core starts CH(4n + 2) again at this B, where MATCH is tested
(R107, R109, R385). Frames that have been cut go on; a group in progress is given up, and no frame waits for it. -/
def State.trTake (s : State) (n : PortId) (w : Word) : State :=
  if s.port[n].ms.trace.cfg = w || !(s.core[s.portCore n]).up then s
  else
    let p := cutPeriod w
    let s := s.modChan (portChan n 2) fun c =>
      let c := c.stagger p n.val
      { c with startSf := false, run := true, count := c.phase, held := false, force := false, dueM := c.phase = c.mtch }
    State.flushTrace n 8 (s.modMs n fun m =>
      { m with trace := { m.trace with cfg := w, groups := [], part := none, flags := 0, gap := true,
                                       kernel := traceFilt w && s.kernelMakes n,
                                       held := m.trace.held.map fun (f : TrFrame) => { f with waitGroup := false } } })

/-- The configuration and the pending N and B that this superframe start takes: those its tick began with (R137, R502). -/
def State.sfTakes (s : State) : Mem × BitVec 3 × BitVec 10 :=
  match s.sfHeld with
  | some (c, x) => if c = s.time.ct then x else (s.store.run, s.tt.nlogPend, s.tt.budgetPend)
  | none => (s.store.run, s.tt.nlogPend, s.tt.budgetPend)

/-- The state with another configuration in force. -/
def State.withRun (s : State) (m : Mem) : State := { s with store := { s.store with run := m } }

def execSuperframeStart (s : State) : Host.Outcome State Fault Refusal :=
  if s.sup.hvUp && s.time.ct.toNat % 2 ^ 21 = 0 then
    let x := s.sfTakes
    let s := s.epochApply
    let r := s.applyTtCfg x.2.1 x.2.2
    let s := ((r.1.ttCancelEvent 1 r.2.1 r.2.2).tell s.tt r.2.2).planMoved r.2.1 r.2.2
    let s := s.snapshot.energyReport
    .next (s.forPorts fun n s => s.trTake n ((s.withRun x.1).trCfg n)).slotCheck
  else .next s

/-! ### The link and ARP (R391, R393, R394, R395) -/

/-- LINK_UP. A NET port at NONE ignores its lane (R404). -/
def execLinkUp (s : State) : Host.Outcome State Fault Refusal :=
  .next (if s.hostOn .net then { s with net := { s.net with link := true, lock := true } } else s)

/-- Trace frames lost with the link: those queued and the one in transmission. -/
def State.laneLost (s : State) : State :=
  let l := s.net.traces ++ (s.net.sending.toList.filter fun f => traceBytes f ≠ 0)
  let s := { s with net := { (s.net.lose l.length) with traces := [], sending := none } }
  l.foldl (fun s f => match f with
    | .trace n _ _ _ => s.modMs n fun m => { m with trace := m.trace.setGap }
    | _ => s) s

/-- LINK_DOWN. Block lock goes with the link, or stays where a local or remote fault has taken the link down: the row does
not say which (log entry 146). -/
def execLinkDown (s : State) : Host.Outcome State Fault Refusal :=
  .next ({ s with fresh := s.fresh + 1
                  net := { s.net with link := false, lock := s.net.lock && Config.lockKept s.fresh } } : State).laneLost

/-- ARP_REQUEST: answered for NET_SIP. -/
def execArpRequest (senderMac : BitVec 48) (senderIp targetIp : BitVec 32) (s : State) :
    Host.Outcome State Fault Refusal :=
  .next (if s.hostOn .net && s.net.link && targetIp = s.netSip then
    { s with net := { s.net with urgent := s.net.urgent ++ [.arp senderMac senderIp] } }
  else s)

/-- FRAME_DISCARD: a frame that neither ARP nor the command path claims is discarded (R393, R472). -/
def execFrameDiscard (_f : NetFrame) (s : State) : Host.Outcome State Fault Refusal := .next s

end Sys2Proof.Machine
end

