-- ==== Sys2Proof/Machine/Pd.lean ====
section
/-! DEFINITION. The PD engine (chapter 10), and the messages of chapters 11 to 13 that more than one of them answers. -/
namespace Sys2Proof.Machine

/-! ### Contexts (R264, R267, R268) -/

def sopIx : Sop → Fin 3
  | .sop => 0
  | .sop1 => 1
  | .sop2 => 2

def Pd.modCtx (d : Pd) (ty : Sop) (f : Context → Context) : Pd :=
  { d with ctx := d.ctx.set (sopIx ty) (f d.ctx[sopIx ty]) }
def State.modCtx (s : State) (n : PortId) (ty : Sop) (f : Context → Context) : State :=
  s.modPd n fun d => d.modCtx ty f
def State.ctx (s : State) (n : PortId) (ty : Sop) : Context := s.port[n].pd.ctx[sopIx ty]

/-- PD_CFG (R289) as latched. -/
def cableDisc (w : Word) : Bool := bit w 28
def sopppEn (w : Word) : Bool := bit w 27

/-- The context is active (R268). -/
def State.ctxActive (s : State) (n : PortId) (ty : Sop) : Bool :=
  let t := s.port[n].tc
  t.st.attached && match ty with
    | .sop => pdEn t.pdCfg
    | .sop1 => t.vconnOn
    | .sop2 => t.vconnOn && sopppEn t.pdCfg

/-- PD_STAT (R289). -/
def State.pdStat (s : State) (n : PortId) : Word :=
  let d := s.port[n].pd
  fld (s.ctx n .sop).rev.toNat 30 ||| flag d.contract 29 ||| flag d.epr 28 ||| flag d.ams 27 ||| flag d.sinkTxOk 26 |||
  flag (s.ctxActive n .sop1) 25 ||| flag s.port[n].hold 24 ||| flag d.hrPend 23 ||| flag d.hrFail 22 ||| flag d.rxFull 21 |||
  flag d.chunkAbort 20 ||| flag (s.cableAbsentNow n) 19 ||| fld (d.rxq.length + d.rxDone) 16 ||| fld d.hrCnt.toNat 8 ||| fld d.retryCnt.toNat 0

/-- A Soft_Reset clears a context; the negotiated revision holds (R264, R267). -/
def Context.soft (c : Context) : Context := { Context.reset with rev := c.rev }

/-! ### Chunks (R279, R280) -/

/-- Data bytes of an extended message the Station sends. -/
def extLen : PdBody → Nat
  | .eprSourceCaps _ o | .eprSinkCaps o => 4 * o.length
  | _ => 0

def chunksOf (b : PdBody) : Nat := max 1 (ceilDiv (extLen b) 26)

/-! ### What a transmission's end does (R271, R288, R303, R341-R350, R490) -/

/-- PS_RDY of a transition has been sent (R317). -/
def State.rdySent (s : State) (n : PortId) : State := s.modCt n fun c => { c with rdyOut := false }

/-- A VCONN swap that has made the Station VCONN source ends (R344). -/
def State.vconnSwapDone (s : State) (n : PortId) : State := (s.modRs n fun r => { r with partnerVc := false }).swapEnd n 0

/-- The partner's answer is awaited for tSenderResponse; `snk`: that to a Get_Sink_Cap (R288). -/
def Pd.await (d : Pd) (snk : Bool) : Pd := { d.arm .senderResponse with askedSnk := snk }

/-- GoodCRC to a message of the Station. The 500 ms of a shed port run from that to its new capabilities (R307). A request that
needs no booking has its PS_RDY after the Accept (R312). -/
def State.onSent (s : State) (n : PortId) (m : OutMsg) : State :=
  let r := s.port[n].rs
  match m.body with
  | .accept =>
    if r.step = .accepting then
      match r.code with
      | .prSrcSnk => s.swapStep n .role
      | .prSnkSrc | .vconnOff => s.swapStep n .partnerRdy
      | .vconnOn => s.vconnSwapOn n
      | .dr => s.drDone n
      | .frsSource =>
        let s := (s.openPath n false false true).swapContractEnd n
        let s := s.modPort n fun p => { p with pp := { p.pp with sink := true }, tc := p.tc.present 0 }
        (s.swapStep n .partnerRdy).sendMsg n .sop .psRdy false
      | _ => s
    else
      let s := s.modCt n fun c => { c with plan := c.plan.map fun q => { q with accepted := true } }
      match s.port[n].ct.plan with
      | some q => if q.k = 0 then s.planDone n q else s
      | none => s
  | .psRdy => if r.code = .vconnOn && r.step = .psRdy then s.vconnSwapDone n else if r.step = .idle then s.amsEnd n else s
  | .reject | .wait | .notSupported => if r.step = .idle then s.amsEnd n else s
  | .prSwap | .drSwap | .vconnSwap | .enterUsb | .request _ | .softReset => s.modPd n fun d => d.await false
  | .getSinkCap => s.modPd n fun d => d.await true
  | .vdm c _ _ => if m.sop = .sop && c ≠ .attention then s.modPd n fun d => d.arm .vdm else s
  | .sourceCaps .. | .eprSourceCaps .. =>
    (s.modPd n fun d => ({ d with capsCnt := 0 } : Pd).await false).modCt n fun c => { c with shedTimer := c.shed }
  | .eprSucceeded | .eprKeepAliveAck => s.modPd n fun d => d.arm .srcEprKeepAlive
  | _ => s

def isSwapReq : PdBody → Bool
  | .prSwap | .drSwap | .vconnSwap => true
  | _ => false

/-- A message that was not acknowledged, or that another displaced (`failed` false). A swap request ends its swap (R490);
an Accept not acknowledged leaves no transition and no swap; the standard's Soft_Reset follows a failed transmission. -/
def State.notSent (s : State) (n : PortId) (m : OutMsg) (failed : Bool) : State :=
  let r := s.port[n].rs
  let soft (s : State) : State := if failed then s.sendMsg n .sop .softReset true else s
  match m.sop with
  | .sop1 | .sop2 => s
  | .sop =>
    if isSwapReq m.body && r.step = .asked then soft (s.swapEnd n 8)
    else match m.body with
      | .accept =>
        if r.step = .accepting then soft ((s.cancelEntry n r.entry).swapEnd n 8)
        else soft (s.planAbort n)
      | .sourceCaps .. | .eprSourceCaps .. =>
        let s := s.modCt n fun c => { c with shedDue := c.shedDue || c.shed && !c.shedTimer, shed := c.shed && c.shedTimer }
        if s.port[n].pd.contract then soft s else s.modPd n fun d => d.arm .typeCSendSourceCap
      | .request _ => soft (s.modPd n fun d => ({ d with reqSent := none } : Pd).arm .sinkRequest)
      | .softReset => if failed then s.askHr n else s
      | .enterUsb => soft (s.vdmNone n)
      | .vdm c _ _ => if c = .attention then s else soft (s.vdmNone n)
      | _ => soft s

/-- The end of a transmission: in hold-over what the hardware does happens at once, and the report waits; an answer of the
hardware leaves none, and its failure has no effect (R278). A Chunk Request is no message of a core. -/
def State.txDone (s : State) (n : PortId) (ty : Sop) (m : OutMsg) (r : Report) : State :=
  let s := if s.port[n].hold && !m.hw then s.modCtx n ty fun c => { c with report := some (r, m.body) } else s
  let s := if r ≠ .sent && m.ams then s.amsEnd n else s
  if r = .sent then s.onSent n m else if s.port[n].hold || m.hw then s else s.notSent n m (r = .failed)

/-! ### Receiving (R263, R264, R269, R270, R272, R274, R280, R317, R615) -/

/-- A message of Revision 3.x only. -/
def rev3Only : PdBody → Bool
  | .notSupported | .eprGetSourceCap | .eprGetSinkCap | .frSwap | .eprRequest _ | .eprSourceCaps .. | .eprSinkCaps _
  | .eprEnter | .eprAck | .eprSucceeded | .eprFailed _ | .eprKeepAlive | .eprKeepAliveAck | .firmwareUpdateRequest
  | .securityRequest | .getBatteryCap | .getBatteryStatus => true
  | _ => false

def unsupported : PdBody → Bool
  | .firmwareUpdateRequest | .securityRequest | .getBatteryCap | .getBatteryStatus => true
  | _ => false

/-- The engine answers the message itself: R274 in the column in force. -/
def State.engTakes (s : State) (n : PortId) (m : PdMsg) : Bool :=
  let p := s.port[n]
  let src := p.rs.pr = .source
  (s.ctx n m.sop).rev = 0b01 && rev3Only m.body || unsupported m.body ||
  match m.body with
  | .softReset => true
  | .eprKeepAlive => src && p.pd.epr
  | .vdm c _ _ => p.hold || m.sop = .sop && c = .discoverIdentity && p.rs.dr = .ufp
  | .request _ | .eprRequest _ => p.hold && src
  | .prSwap | .drSwap | .vconnSwap | .getSourceCap | .getSinkCap | .eprGetSourceCap | .eprGetSinkCap => p.hold
  | .sourceCaps .. | .eprSourceCaps .. => p.hold && !src
  | _ => false

/-- Messages no row of the table takes from the queue: the core deals with them as they arrive. -/
def rowless : PdBody → Bool
  | .sinkCaps .. | .eprSinkCaps _ | .identityAck _ | .eprAck | .eprSucceeded | .eprFailed _ | .eprKeepAliveAck
  | .eprKeepAlive | .enterUsb | .chunkRequest _ | .other _ => true
  | _ => false

/-- A cable's answer in PD_CABLE (R289). -/
def cableWord (old : Word) (v : CableVdo) : Word :=
  fld v.cblI.toNat 30 ||| fld v.cblV.toNat 28 ||| flag v.eprCap 27 ||| flag v.active 26 ||| flag v.soppp 25 ||| flag true 24 |||
  (old &&& 0x00FF0000) ||| fld v.vid.toNat 0

def State.coreTakes (s : State) (n : PortId) (m : PdMsg) : State :=
  match m.body with
  | .sinkCaps drp frs _ =>
    let s := s.modPort n fun p =>
      { p with pd := { (if p.pd.askedSnk then p.pd.disarm .senderResponse else p.pd) with partnerDrp := drp, askedSnk := false }
               rs := { p.rs with frsCur := frs } }
    (s.amsEnd n).standbyTry n
  | .identityAck v =>
    if m.sop = .sop1 then
      ((s.amsEnd n).modPd n fun d => ({ d with cable := cableWord d.cable v, cableUsb4 := v.usb4, cableAbsent := false } : Pd).disarm
        .discoverIdentity).eprFinish n
    else s
  | .enterUsb | .eprKeepAlive | .other _ => if m.sop = .sop then s.sendMsg n .sop (s.notSup n .sop) false else s
  | _ => s

/-- Where an accepted message goes. Between Accept and PS_RDY of a transition the core sends Hard Reset for it (R317), but not
once WARN_N has begun a Fast Role Swap from it (R354). -/
def State.deliver (s : State) (n : PortId) (m : PdMsg) (eng : Bool) : State :=
  if eng then s.modPd n fun d => { d with eng := d.eng ++ [m] }
  else if s.served n && s.port[n].rs.code ≠ .frsSource && (s.port[n].ct.plan.any (·.accepted) || s.port[n].ct.rdyOut) then s.askHr n
  else if s.served n && rowless m.body then s.coreTakes n m
  else s.modPd n fun d => { d with rxq := d.rxq ++ [m] }

/-- The sample for SinkTxOK is over: the comparator goes back to the threshold of its step, which R206 blanks (R208, R273). -/
def State.unsample (s : State) (n : PortId) : State :=
  if s.port[n].pd.armed .sinkSample then
    s.modPort n fun p =>
      { p with pd := p.pd.disarm .sinkSample, tc := { p.tc with blank := p.tc.blank || decide (p.tc.sinkStep ≠ 2) } }
  else s

/-- A waiting transmission is displaced (R272). -/
def State.displace (s : State) (n : PortId) (ty : Sop) : State :=
  let c := s.ctx n ty
  match c.cur with
  | some m =>
    if c.tx = .waitIdle then
      let s := s.modCtx n ty fun c => { c with tx := .idle, cur := none }
      ((s.unsample n).modPd n fun d => d.disarm .tSinkTx).txDone n ty m .discarded
    else s
  | none => s

/-- A message received takes precedence over whatever the port has waiting to be sent, on any context (R272). -/
def State.displaceAll (s : State) (n : PortId) : State := ((s.displace n .sop).displace n .sop1).displace n .sop2

def isChunkReq : PdBody → Bool
  | .chunkRequest _ => true
  | _ => false

/-- The Station's own message of a context, beside the Chunk Requests of its receiver. -/
def Context.own (c : Context) : Option OutMsg := c.cur.filter fun m => !isChunkReq m.body

/-- A chunked message in progress on the context is abandoned: one received is never queued, one sent is reported FAILED
(R280). -/
def State.chunkAbort (s : State) (n : PortId) (ty : Sop) : State :=
  let c := s.ctx n ty
  let s := (s.modPd n fun d => { d with chunkAbort := true }).modCtx n ty fun c =>
    { c with tx := .idle, chunk := 0, rxPart := none, cur := none }
  match c.own with
  | some m => s.txDone n ty m .failed
  | none => s

/-- The next chunk asked for (R279): a Chunk Request goes out on the context. -/
def Context.ask (c : Context) (ty : Sop) : Context :=
  { c with tx := .waitGoodcrc, retry := 0, cur := some { sop := ty, body := .chunkRequest c.chunk.toNat, ams := false, hw := true } }

/-- A GoodCRC sent (R269). -/
def State.ack (s : State) (n : PortId) (ty : Sop) (id : BitVec 3) : State := s.modPd n fun d => { d with lastAck := some (ty, id) }

/-- The context takes the message: MessageID, revision; a partner that answers on SOP has answered a Hard Reset (R264, R269,
R283). -/
def State.seen (s : State) (n : PortId) (m : PdMsg) : State :=
  let mx := revMax s.port[n].tc.pdCfg
  (s.ack n m.sop m.id).modPd n fun d =>
    let d := if m.sop = .sop then { (d.disarm .noResponse) with hrTries := 0 } else d
    d.modCtx m.sop fun c =>
      { c with rxId := m.id, rxValid := true,
               rev := if c.rev ≠ 0 then c.rev else if mx = 0b01 || m.rev = 0b01 then 0b01 else 0b10 }

/-- A chunk timer runs: the next chunk, or the request for it, is awaited (R279). -/
def Context.chunkWait (c : Context) : Bool := c.tx = .chunking || c.rxPart.isSome

/-- A chunked message is in progress on the context, in either direction, whether a chunk of it is out or awaited. -/
def Context.chunked (c : Context) : Bool := c.chunkWait || c.tx ≠ .waitIdle && c.own.any fun m => decide (1 < chunksOf m.body)

/-- A chunk of a message that is being received: the last completes it, and each other has the next one asked for, after the
Station's own message where one is out (R279). -/
def State.chunkIn (s : State) (n : PortId) (m : PdMsg) (k : Nat) (last eng : Bool) : State :=
  if last then
    (s.modCtx n m.sop fun c =>
      { c with tx := if c.own.isSome then c.tx else .idle, cur := c.own, chunk := 0, rxPart := none }).deliver n m eng
  else s.modCtx n m.sop fun c =>
    let c := { c with chunk := BitVec.ofNat 4 (k + 1), rxPart := some m.body }
    if c.own.isSome then c else c.ask m.sop

/-- PD_MESSAGE. The message is accepted where the queue has room or it needs none; a repeat is then acknowledged and discarded
(R269, R270). DESIGN CHOICE: a chunk number 0 that arrives while a later chunk is awaited is taken for a chunk out of order, and
not for the interrupting message of R280's third case: it is dropped with the message in progress (log entry 159). -/
def execPdMessage (n : PortId) (m : PdMsg) (s : State) : Host.Outcome State Fault Refusal :=
  let c := s.ctx n m.sop
  .next (if !m.valid then s.modPd n fun d => { d with rxErr := d.rxErr + 1 }
  else if !s.ctxActive n m.sop then s
  else
    let s1 := s.seen n m
    let eng := s1.engTakes n m
    if !eng && m.body ≠ .softReset && decide (4 ≤ s.port[n].pd.rxq.length + s.port[n].pd.rxDone) then
      s.modPd n fun d => { d with rxFull := true }
    else if c.rxValid && c.rxId = m.id then (s.ack n m.sop m.id).displaceAll n
    else
      let s := s1.displaceAll n
      match m.chunk with
      | some (k, last) =>
        let c := s.ctx n m.sop
        if c.rxPart.isSome then if k ≠ c.chunk.toNat then s.chunkAbort n m.sop else s.chunkIn n m k last eng
        else
          -- a first chunk interrupts a chunked message that the Station is sending
          let s := if c.chunked then s.chunkAbort n m.sop else s
          if k ≠ 0 then s.chunkAbort n m.sop else s.chunkIn n m k last eng
      | none =>
        let s := if (s.ctx n m.sop).chunked then s.chunkAbort n m.sop else s
        s.deliver n m eng)

/-! ### Transmitting (R271-R273, R277-R280) -/

/-- A message that may begin: its context active and idle; in hold-over no AMS (R277). -/
def State.mayBegin (s : State) (n : PortId) (m : OutMsg) : Bool :=
  (s.ctx n m.sop).tx = .idle && (s.ctx n m.sop).cur.isNone && !(s.port[n].hold && m.ams)

/-- TRANSMIT_REQUEST: the engine takes the next message, one per context. -/
def execTransmitRequest (n : PortId) (s : State) : Host.Outcome State Fault Refusal :=
  let s := s.modPd n fun d => { d with outbox := d.outbox.filter fun m => s.ctxActive n m.sop }
  .next (match s.port[n].pd.outbox.find? fun m => s.mayBegin n m with
    | none => s
    | some m =>
      (s.modPd n fun d => { d with outbox := d.outbox.erase m }).modCtx n m.sop fun c =>
        { c with tx := .waitIdle, cur := some m, retry := 0, chunk := 0 })

/-- The Station's Discover Identity to the cable. -/
def isCableAsk (m : OutMsg) : Bool :=
  m.sop = .sop1 && match m.body with
    | .vdm .discoverIdentity _ _ => true
    | _ => false

/-- Step 3 of R271; a Soft_Reset sent clears its context (R267). PS_RDY ends its transition (R317), and a Discover Identity on
SOP′ is counted, and its answer awaited (R286, R289). -/
def State.txGo (s : State) (n : PortId) (m : OutMsg) : State :=
  let s := s.modPd n fun d => { d with ams := d.ams || m.ams }
  let s := if m.body = .psRdy then s.rdySent n else s
  let s := if isCableAsk m then s.modPd n fun d => ({ d with cable := d.cable + 0x10000 } : Pd).arm .discoverIdentity else s
  s.modCtx n m.sop fun c =>
    if m.body = .softReset then { c.soft with tx := .waitGoodcrc, cur := some m } else { c with tx := .waitGoodcrc }

/-- Collision avoidance applies: an AMS at Revision 3.x, as source from the first explicit contract on (R273). -/
def State.avoids (s : State) (n : PortId) (m : OutMsg) : Bool :=
  m.ams && (s.port[n].pd.contract || !s.port[n].tc.st.isSource) && (s.ctx n .sop).rev = 0b10

def State.waiting1 (s : State) (n : PortId) : Option OutMsg :=
  ([.sop, .sop1, .sop2].filterMap fun ty =>
    if (s.ctx n ty).tx = .waitIdle then (s.ctx n ty).cur else none).head?

/-- LINE_IDLE: steps 1 and 2 of R271; no AMS begins in hold-over (R277). -/
def execLineIdle (n : PortId) (s : State) : Host.Outcome State Fault Refusal :=
  .next (match s.waiting1 n with
    | none => s
    | some m =>
      if s.port[n].hold && m.ams then s
      else if !s.avoids n m then s.txGo n m
      else if s.port[n].pd.armed .tSinkTx || s.port[n].pd.armed .sinkSample then s
      else if s.port[n].tc.st.isSource then
        s.modPort n fun p => { p with pd := ({ p.pd with sinkTxOk := false } : Pd).arm .tSinkTx, tc := p.tc.present 2 }
      else s.modPort n fun p => { p with pd := p.pd.arm .sinkSample, tc := { p.tc with blank := true } })

/-- TSINKTX: sending goes on. -/
def execTsinktx (n : PortId) (s : State) : Host.Outcome State Fault Refusal :=
  .next (if s.port[n].pd.armed .tSinkTx then
    let s := s.modPd n fun d => d.disarm .tSinkTx
    match s.waiting1 n with
    | some m => s.txGo n m
    | none => s
  else s)

/-- SINKTXOK_SAMPLE: SinkTxOK reads above the 1.230 V threshold, once the 50 µs from its setting are over (R206, R273). -/
def execSinktxokSample (n : PortId) (mv : Nat) (s : State) : Host.Outcome State Fault Refusal :=
  .next (if s.port[n].pd.armed .sinkSample && !s.port[n].tc.blank && decide (1230 < mv) then
    let s := s.unsample n
    match s.waiting1 n with
    | some m => s.txGo n m
    | none => s
  else s)

/-- SINKTX_DISCARD: 30 ms without SinkTxOK. -/
def execSinktxDiscard (n : PortId) (s : State) : Host.Outcome State Fault Refusal :=
  .next (if s.port[n].pd.armed .sinkSample then
    match s.waiting1 n with
    | some m => s.displace n m.sop
    | none => s
  else s)

/-- A transmission is over: the receiver's next Chunk Request goes out where one has waited for it. -/
def State.txEnd (s : State) (n : PortId) (ty : Sop) (m : OutMsg) (r : Report) : State :=
  if isChunkReq m.body then s.modCtx n ty fun c => { c with tx := .chunking, cur := none, retry := 0 }
  else
    (s.modCtx n ty fun c =>
      let c := { c with tx := .idle, cur := none, retry := 0, chunk := if c.rxPart.isSome then c.chunk else 0 }
      if c.rxPart.isSome then c.ask ty else c).txDone n ty m r

/-- GOODCRC (R268, R271, R279). -/
def execGoodcrc (n : PortId) (ty : Sop) (id : BitVec 3) (s : State) : Host.Outcome State Fault Refusal :=
  let c := s.ctx n ty
  .next (match c.cur with
    | none => s
    | some m =>
      if c.tx ≠ .waitGoodcrc || c.txId ≠ id || !s.ctxActive n ty then s
      else
        let s := s.modCtx n ty fun c => { c with txId := c.txId + 1, retry := 0 }
        if c.rxPart.isNone && decide (c.chunk.toNat + 1 < chunksOf m.body) then
          s.modCtx n ty fun c => { c with tx := .chunking, chunk := c.chunk + 1 }
        else s.txEnd n ty m .sent)

/-- nRetryCount: that of Revision 2.0 where the partner has it, or REV_MAX allows no other (R264, R288). -/
def nRetry (rev mx : BitVec 2) : Nat := if rev = 0b01 || mx = 0b01 then 3 else 2

/-- TRECEIVE (R271). -/
def execTreceive (n : PortId) (ty : Sop) (s : State) : Host.Outcome State Fault Refusal :=
  let c := s.ctx n ty
  .next (match c.cur with
    | none => s
    | some m =>
      if c.tx ≠ .waitGoodcrc then s
      else if c.retry.toNat < nRetry c.rev (revMax s.port[n].tc.pdCfg) then
        (s.modCtx n ty fun c => { c with retry := c.retry + 1 }).modPd n fun d =>
          { d with retryCnt := if d.retryCnt = 0xFF then 0xFF else d.retryCnt + 1 }
      else (s.modCtx n ty fun c => { c with txId := c.txId + 1 }).txEnd n ty m .failed)

/-- CHUNK_REQUEST: the partner asks for the next chunk; any other number is out of order. It is a message of its context, with
a MessageID of its own (R268, R269, R272, R279, R280). -/
def execChunkRequest (n : PortId) (ty : Sop) (k : ChunkAsk) (s : State) : Host.Outcome State Fault Refusal :=
  let c := s.ctx n ty
  .next (if !s.ctxActive n ty then s
  else if c.rxValid && c.rxId = k.id then (s.ack n ty k.id).displaceAll n
  else
    let s := ((s.ack n ty k.id).modCtx n ty fun c => { c with rxId := k.id, rxValid := true }).displaceAll n
    if c.tx = .chunking && c.cur.isSome then
      if c.chunk.toNat = k.num then s.modCtx n ty fun c => { c with tx := .waitGoodcrc } else s.chunkAbort n ty
    else s)

/-- CHUNK_TIMER (R280). -/
def execChunkTimer (n : PortId) (ty : Sop) (s : State) : Host.Outcome State Fault Refusal :=
  .next (if (s.ctx n ty).chunkWait then s.chunkAbort n ty else s)

/-! ### Hard Reset and Cable Reset (R281-R285) -/

/-- HARD_RESET_SEND. -/
def execHardResetSend (n : PortId) (s : State) : Host.Outcome State Fault Refusal :=
  .next (if s.port[n].pd.hrReq && s.port[n].tc.st.attached then s.hardReset n true else s)

/-- HARD_RESET_RECEIVED: one that meets the Station's own counts once. -/
def execHardResetReceived (n : PortId) (s : State) : Host.Outcome State Fault Refusal :=
  .next (if s.ctxActive n .sop then s.hardReset n s.port[n].pd.hrReq else s)

/-- Step 3 in source role begins once the path has discharged. -/
def State.atSafe0v (s : State) (n : PortId) : State :=
  if s.port[n].pd.hrPend && s.port[n].rs.pr = .source && !s.port[n].pd.armed .psHardReset then
    s.modPd n fun d => d.arm .srcRecover
  else s

/-- TPSHARDRESET: step 2 of R282 in source role. -/
def execTpshardreset (n : PortId) (s : State) : Host.Outcome State Fault Refusal :=
  .next (if s.port[n].pd.armed .psHardReset then
    let s := s.modPd n fun d => d.disarm .psHardReset
    let s := (s.openPath n true false false).vconnRelease n
    if s.port[n].pp.st = .discharge then s else s.atSafe0v n
  else s)

/-- Step 4: EXIT of a mode that the Hard Reset ended, and PATH, whose booking clears HR_PEND (R282, R284, R369). -/
def State.hrStep4 (s : State) (n : PortId) : State :=
  (if s.port[n].alt.exitDue then (s.modAlt n fun a => { a with exitDue := false }).reqScript n 6 else s).bookPath n

/-- TSRCRECOVER. -/
def execTsrcrecover (n : PortId) (s : State) : Host.Outcome State Fault Refusal :=
  .next (if s.port[n].pd.armed .srcRecover then (s.modPd n fun d => d.disarm .srcRecover).hrStep4 n else s)

/-- SINK_VBUS_WAIT: VBUS did not return (R282). -/
def execSinkVbusWait (n : PortId) (s : State) : Host.Outcome State Fault Refusal :=
  .next (if s.port[n].pd.armed .sinkVbus then
    (s.modPd n fun d => { (d.disarm .sinkVbus) with hrPend := false }).errRecov n else s)

/-- VBUS_PRESENT (R213, R282). -/
def execVbusPresent (n : PortId) (mv : Nat) (s : State) : Host.Outcome State Fault Refusal :=
  let t := s.port[n].tc
  .next (if mv < vbusPresentMv then s
  else if s.port[n].pd.armed .sinkVbus then (s.modPd n fun d => d.disarm .sinkVbus).hrStep4 n
  else if t.debDone then
    match t.st with
    | .attwaitSnk | .trywaitSnk => if s.heldHere n then s.holdIt n else s.ccDecide n t.cc1 t.cc2 mv
    | .trySnk => if s.heldHere n then s.holdIt n else s.tryDecide n t.cc1 t.cc2 mv
    | _ => s
  else s)

/-- TNORESPONSE (R283); a policy timer has no effect in hold-over (R288). -/
def execTnoresponse (n : PortId) (s : State) : Host.Outcome State Fault Refusal :=
  .next (if s.port[n].pd.armed .noResponse && s.served n && s.port[n].pp.st ≠ .lockoff then
    let s := s.modPd n fun d => d.disarm .noResponse
    if s.port[n].pd.hrTries < 2 then s.askHr n else (s.modPd n fun d => { d with hrFail := true }).errRecov n
  else s)

/-- DISCHARGE_END (R255, R282, R341). -/
def execDischargeEnd (n : PortId) (mv : Nat) (s : State) : Host.Outcome State Fault Refusal :=
  .next (if vSafe0vMv < mv then s
  else if s.port[n].rs.step = .fall then s.fellToSafe n
  else if s.port[n].pp.st = .discharge then (s.dischargeDone n).atSafe0v n
  else s)

/-- CABLE_RESET: sent by a DFP that sources VCONN; only the SOP′ and SOP″ contexts are cleared (R267, R285). DESIGN CHOICE: REV
is cleared with them, as R267's table has it, though R264 does not name a Cable Reset among what ends a revision (log entry
158). -/
def execCableReset (n : PortId) (s : State) : Host.Outcome State Fault Refusal :=
  .next (if s.served n && s.port[n].rs.dr = .dfp && s.port[n].tc.vconnOn then
    (s.modCtx n .sop1 fun _ => Context.reset).modCtx n .sop2 fun _ => Context.reset else s)

/-- CABLE_RESET_RECEIVED: ignored, because the Station is never a cable (R285). -/
def execCableResetReceived (_n : PortId) (s : State) : Host.Outcome State Fault Refusal := .next s

/-! ### Answers (R263, R264, R274, R275, R323, R346, R358, R615) -/

/-- The core proceeds after a Soft_Reset on SOP: as source, capabilities again; as sink it waits for the partner's. -/
def State.softCore (s : State) (n : PortId) : State :=
  let s := s.modPd n fun d => { d with notice := false, reqSent := none }
  if s.maySendCaps n then s.offerSend n else s

/-- SOFT_RESET. -/
def execSoftReset (n : PortId) (s : State) : Host.Outcome State Fault Refusal :=
  match s.takeMsg n (fun b => b = .softReset) with
  | none => .next s
  | some (m, _, s) =>
    let s := s.modCtx n m.sop Context.soft
    let s := s.sendMsg n m.sop .accept false
    .next (if m.sop ≠ .sop then s
    else
      let s := (s.planAbort n).modCt n fun c => { c with rdyOut := false }
      let s := if s.port[n].rs.step = .idle then s.amsEnd n else s
      let s := s.modPd n fun d =>
        { (if s.port[n].rs.step = .idle then (d.disarm .senderResponse).disarm .vdm else d) with notice := true, rxq := d.rxq.filter fun x => x.sop ≠ .sop, rxDone := 0, outbox := d.outbox.filter fun x =>
            x.sop ≠ .sop || x.body = .accept }
      if s.served n then s.softCore n
      else
        let d := s.port[n].pd
        if s.port[n].tc.st.isSource then
          match (if d.epr then d.cacheEprSrc else d.cacheSrc) with
          | some b => s.sendMsg n .sop b false
          | none => s
        else s)

/-- EPR_KEEPALIVE (R274). -/
def execEprKeepalive (n : PortId) (s : State) : Host.Outcome State Fault Refusal :=
  match s.takeMsg n (fun b => b = .eprKeepAlive) with
  | none => .next s
  | some (m, _, s) =>
    .next (if (s.ctx n m.sop).rev = 0b01 then s.sendMsg n m.sop .reject false
    else (s.modPd n fun d => d.disarm .srcEprKeepAlive).sendMsg n .sop .eprKeepAliveAck false)

/-- EPR_KEEPALIVE_SEND: as a sink in EPR mode, every 375 ms, in and outside hold-over (R277). -/
def execEprKeepaliveSend (n : PortId) (s : State) : Host.Outcome State Fault Refusal :=
  .next (if s.port[n].pd.epr && s.port[n].rs.pr = .sink then s.sendMsg n .sop .eprKeepAlive false else s)

/-- NOT_SUPPORTED_REQUEST: to a Revision 2.0 partner, Reject. -/
def execNotSupportedRequest (n : PortId) (s : State) : Host.Outcome State Fault Refusal :=
  match s.takeMsg n (fun b => unsupported b || rev3Only b && (s.ctx n .sop).rev = 0b01) with
  | none => .next s
  | some (m, _, s) => .next (s.sendMsg n m.sop (s.notSup n m.sop) false)

/-- The FRS field of the Station's Sink_Capabilities (R346). -/
def State.frsField (s : State) (n : PortId) : BitVec 2 := if frsTxEn (s.rsCfg n) then 1 else 0

def frsOf : PdBody → BitVec 2
  | .sinkCaps _ f _ => f
  | _ => 0

/-- The role gives the capabilities asked for; a DRP gives both (R290, R323). -/
def State.capsGiven (s : State) (n : PortId) (b : PdBody) : Bool :=
  let drp := roleOf s.port[n].tc.cfg = 0
  match b with
  | .getSourceCap | .eprGetSourceCap => drp || s.port[n].tc.st.isSource
  | _ => drp || !s.port[n].tc.st.isSource

/-- The core's answer: source capabilities by the offer ceiling, which the policy kernel gives where one runs (R305); sink
capabilities, whose FRS field is noted (R346). -/
def State.capsAnswer (s : State) (n : PortId) (b : PdBody) : State :=
  let ask (epr : Bool) : State :=
    if (s.underTarget n).isNone && s.policyRuns then s.policyAsk (.answer n epr) else s.capsReply n epr (s.offerFor n)
  let snk (x : PdBody) : State :=
    (s.modPd n fun d => { d.keep x s.port[n].tc.st.isSource with gotGetSink := d.gotGetSink || d.contract && frsOf x ≠ 0 }).sendMsg n
      .sop x false
  match b with
  | .getSourceCap => ask false
  | .eprGetSourceCap => ask true
  | .getSinkCap => snk (.sinkCaps (roleOf s.port[n].tc.cfg = 0) (s.frsField n) (s.sinkObjs n))
  | _ => snk (.eprSinkCaps (s.sinkObjs n))

def Pd.cached (d : Pd) : PdBody → Option PdBody
  | .getSourceCap => d.cacheSrc
  | .eprGetSourceCap => d.cacheEprSrc
  | .getSinkCap => d.cacheSnk
  | .eprGetSinkCap => d.cacheEprSnk
  | _ => none

def isGetCap : PdBody → Bool
  | .getSourceCap | .getSinkCap | .eprGetSourceCap | .eprGetSinkCap => true
  | _ => false

/-- GET_CAPABILITIES: the cached copy in hold-over (R274, R275). -/
def execGetCapabilities (n : PortId) (s : State) : Host.Outcome State Fault Refusal :=
  match s.takeMsg n isGetCap with
  | none => .next s
  | some (m, eng, s) =>
    let rev2 := (s.ctx n .sop).rev = 0b01 && rev3Only m.body
    .next (if !rev2 && !eng && s.capsGiven n m.body then s.capsAnswer n m.body
    else match (if rev2 || !eng then none else s.port[n].pd.cached m.body) with
      | none => s.sendMsg n .sop (s.notSup n .sop) false
      | some b => (s.modPd n fun d => { d with gotGetSink := d.gotGetSink || d.contract && frsOf b ≠ 0 }).sendMsg n .sop b false)

/-- GET_SINK_CAP_SEND: once in each contract period as source with FRS_TX_EN (R346); as sink with FRS_RX_EN, whose standby
needs them (R348). -/
def execGetSinkCapSend (n : PortId) (s : State) : Host.Outcome State Fault Refusal :=
  let p := s.port[n]
  let w := s.rsCfg n
  .next (if s.served n && p.pd.contract && !p.pd.sentGetSink && p.rs.step = .idle && p.ct.plan.isNone &&
      (if p.tc.st.isSource then frsTxEn w else frsRxEn w) && (s.ctx n .sop).rev = 0b10 then
    (s.modPd n fun d => { d with sentGetSink := true }).sendMsg n .sop .getSinkCap true
  else s)

/-- DISCOVER_IDENTITY_UFP: NAK; BUSY in hold-over to the commands the engine does not NAK (R274, R358). -/
def isUfpVdm : PdBody → Bool
  | .vdm .attention _ _ => false
  | .vdm .. => true
  | _ => false

def execDiscoverIdentityUfp (n : PortId) (s : State) : Host.Outcome State Fault Refusal :=
  match s.takeMsg n isUfpVdm with
  | none => .next s
  | some (m, eng, s) =>
    .next (match m.body with
      | .vdm c _ _ =>
        if eng && !(m.sop = .sop && c = .discoverIdentity && s.port[n].rs.dr = .ufp) then s.sendMsg n m.sop (.vdmBusy c) false
        else s.sendMsg n m.sop (.vdmNak c) false
      | _ => s)

/-! ### Cable discovery (R286, R287, R296) -/

def State.diCnt (s : State) (n : PortId) : Nat := bits s.port[n].pd.cable 23 16

/-- DISCOVER_IDENTITY_CABLE: from the PATH grant on, with VCONN applied. -/
def execDiscoverIdentityCable (n : PortId) (s : State) : Host.Outcome State Fault Refusal :=
  let p := s.port[n]
  .next (if s.served n && s.ctxActive n .sop1 && cableDisc p.tc.pdCfg && p.pp.st.live && decide (s.diCnt n < 20) &&
      (!bit p.pd.cable 24 || p.pd.eprEntry) && !p.pd.armed .discoverIdentity && !p.pd.outbox.any isCableAsk &&
      (s.ctx n .sop1).cur.isNone then s.sendMsg n .sop1 (.vdm .discoverIdentity 0xFF00 0) true
  else s.eprNoVconn n)

/-- No answer in tDiscoverIdentity, which ends the AMS: the twentieth request without one leaves the cable unmarked. -/
def State.noIdentity (s : State) (n : PortId) : State :=
  let s := (s.amsEnd n).eprNoVconn n
  if s.diCnt n < 20 then s
  else
    let s := if bit s.port[n].pd.cable 24 then s else s.modPd n fun d => { d with cableAbsent := true }
    if s.port[n].pd.eprEntry then
      (s.modPd n fun d => { d with eprEntry := false }).sendMsg n .sop (.eprFailed 4) false else s

/-! ### Accept, refusals and policy timers -/

/-- ACCEPT: the partner's, to the Station's own swap, request, mode entry or Soft_Reset (R324, R340-R344, R350, R361). -/
def execAccept (n : PortId) (s : State) : Host.Outcome State Fault Refusal :=
  match s.takeMsg n (fun b => b = .accept) with
  | none => .next s
  | some (_, _, s) =>
    let s := s.modPd n fun d => d.disarm .senderResponse
    let r := s.port[n].rs
    .next (if r.step = .frAccept then s.swapStep n .partnerRdy
    else if r.step = .asked then
      match r.code with
      | .prSrcSnk => match s.bookRoleOff n 53248 69632 with
        | some s => s.swapStep n .role
        | none => s.askHr n
      | .prSnkSrc | .vconnOff => s.swapStep n .partnerRdy
      | .vconnOn => s.vconnSwapOn n
      | .dr => s.drDone n
      | _ => s
    else if s.port[n].alt.step = .enterUsb then (s.amsEnd n).usbAccepted n
    else if s.port[n].pd.reqSent.isSome then s
    else
      -- the answer to a Soft_Reset ends its AMS
      let s := s.amsEnd n
      if s.maySendCaps n then s.offerSend n else s)

/-- SWAP_ANSWER: Reject, Wait or Not_Supported, to a swap request (R490), to Enter_USB (R361), to Get_Sink_Cap (R273), or to a
Request of the port as sink (R288). -/
def swapNo : PdBody → Option Nat
  | .reject => some 1
  | .wait => some 2
  | .notSupported => some 3
  | _ => none

def execSwapAnswer (n : PortId) (s : State) : Host.Outcome State Fault Refusal :=
  match s.takeMsg n (fun b => (swapNo b).isSome) with
  | none => .next s
  | some (m, _, s) =>
    let snk := s.port[n].pd.askedSnk
    let s := (s.modPd n fun d => { (d.disarm .senderResponse).disarm .vdm with askedSnk := false }).amsEnd n
    .next (if snk then s
    else if s.port[n].rs.step = .asked then s.swapEnd n ((swapNo m.body).getD 1)
    else if s.port[n].alt.step = .enterUsb then s.enterFailed n
    else if s.port[n].pd.reqSent.isSome then
      s.modPd n fun d => ({ d with reqSent := none } : Pd).arm .sinkRequest
    else s.vdmNone n)

/-- The timer a policy timer of the table is. -/
def policyPd : PolicyTimer → PdTimer
  | .senderResponse => .senderResponse
  | .sinkRequest => .sinkRequest
  | .typeCSendSourceCap => .typeCSendSourceCap
  | .sourceEprKeepAlive => .srcEprKeepAlive
  | .discoverIdentity => .discoverIdentity
  | .swapSourceStart => .swapSourceStart
  | .tripHardReset => .tripHardReset

/-- POLICY_TIMER: what the core does at the expiry; in hold-over the expiry has no effect, but that core SB sends the Hard
Reset of a trip in fallback (R286, R288, R337, R490, R613). -/
def execPolicyTimer (n : PortId) (t : PolicyTimer) (s : State) : Host.Outcome State Fault Refusal :=
  let sb := t = .tripHardReset && s.sbUp && s.plat[platOf n].fallback && s.port[n].hold && !s.notBack n
  if !(s.served n || sb) || !s.port[n].pd.armed (policyPd t) then .next s
  else
    let s := s.modPd n fun d => d.disarm (policyPd t)
    .next (match t with
      | .senderResponse =>
        if s.port[n].rs.step = .asked then s.swapEnd n 8
        else if s.port[n].alt.step = .enterUsb then (s.amsEnd n).enterFailed n
        else if s.port[n].pd.askedSnk then (s.modPd n fun d => { d with askedSnk := false }).amsEnd n
        else s.askHr n
      | .sinkRequest =>
        if s.port[n].rs.pr = .sink && s.port[n].pd.reqSent.isNone && s.port[n].ct.stopFor.isNone then s.sinkDecide n false else s
      | .typeCSendSourceCap =>
        if !s.port[n].pd.contract && s.capsLeft n && s.maySendCaps n then s.offerSend n else s
      | .sourceEprKeepAlive => if s.port[n].pd.epr then s.askHr n else s
      | .discoverIdentity => s.noIdentity n
      | .swapSourceStart => if s.maySendCaps n then s.offerSend n else s
      | .tripHardReset => s.askHr n)

end Sys2Proof.Machine
end

