-- ==== Sys2Proof/Machine/Registers.lean ====
section
/-! DEFINITION. The registers a host reaches by a RID (R481): where each is, what it reads as, and what a host may write. -/
namespace Sys2Proof.Machine

/-- A kind of object (R453). -/
inductive Obj where
  | station
  | plat (k : PlatId)
  | port (n : PortId)
  deriving DecidableEq, Repr

/-- The object TARGET names (R453). -/
def Obj.ofTarget (t : BitVec 16) : Option Obj :=
  if h : t.toNat < 24 then some (.port ⟨t.toNat, h⟩)
  else if h : 0x100 ≤ t.toNat ∧ t.toNat < 0x104 then some (.plat ⟨t.toNat - 0x100, by omega⟩)
  else if t = 0xFFFF then some .station
  else none

/-- 0 Station, 1 Platform, 2 Port. -/
def Obj.kind : Obj → Nat
  | .station => 0
  | .plat _ => 1
  | .port _ => 2

/-! ### What a register reads as -/

/-- CT_STAT (R330). -/
def ctStat (c : Contract) : Word :=
  fld c.kind.code 29 ||| fld c.pos 25 ||| flag c.plan.isSome 24 ||| flag c.shed 23 ||| flag c.therm.isSome 22 |||
  flag c.convFail 21 ||| fld (ctVolt c) 10 ||| fld c.i10 0

/-- CT_POWER (R330). -/
def State.ctPower (s : State) (n : PortId) : Word := fld (s.kp n) 16 ||| fld s.port[n].ct.offer 0

/-- EN_STAT (R380, R381): STALE outside the conditions of R380, HELD while G_PAIR is held for want of a core that keeps it.
Before a core has written any G_PAIR, STALE keeps its reset value 0 (log entry 161). -/
def State.enStat (s : State) (n : PortId) : Word :=
  let p := s.port[n]
  let fresh := p.pp.calAt.any fun c =>
    let d := (s.time.ct - c).toNat
    decide (d ≤ tkMs 60000) || s.coreRuns n && decide (d ≤ tkMs 900000)
  flag (p.pp.rEst ≠ 0 && !fresh) 2 ||| flag (p.hold && !s.coreRuns n) 1 ||| flag p.ms.sat 0

def lo32 (x : BitVec 64) : Word := x.extractLsb' 0 32
def hi32 (x : BitVec 64) : Word := x.extractLsb' 32 32

/-- BG_CFG, BG_STAT, BG_REGEN (R331). -/
def State.bgCfgReg (s : State) : Word := fld s.fuse.cardCeil.toNat 16 ||| fld (bits s.bgCfg 12 0) 0
def State.bgStat (s : State) : Word :=
  fld (ceilDiv s.committed 4) 19 ||| fld (s.headroom.toNat / 4) 6 ||| flag s.bg.shedding 5
def State.bgRegenReg (s : State) : Word :=
  fld (s.sinkTotal / 4) 16 ||| fld (bits s.bgRegen 15 8) 8 ||| flag s.bg.regenStop 0

/-- HP_STAT, HP_TAGS, HP_CLAIMm, HP_SUBk, HP_EVQk (R428). -/
def State.hpStat (s : State) : Word :=
  flag s.sup.service 31 ||| flag s.setFail 30 ||| BitVec.ofNat 32 ((allHosts.map fun h => s.eff h <<< (3 * h.ix.val)).sum)
def State.hpTags (s : State) : Word :=
  BitVec.ofNat 32 ((allHosts.map fun h => s.host[h.ix].held.length <<< (24 - 6 * h.ix.val)).sum)
def State.hpClaim (s : State) (m : Fin 3) : Word :=
  BitVec.ofNat 32 (((List.finRange 8).map fun j =>
    claimCode (s.claim[8 * m.val + j.val]'(by omega)) <<< (3 * j.val)).sum)
def State.hpEvq (s : State) (h : HostPort) : Word :=
  fld s.host[h.ix].dropped 16 ||| fld s.host[h.ix].events.length 0

/-- FW_FUSE0 (R570). -/
def State.fwFuse0 (s : State) : Word := flag s.fuse.keySet 31 ||| fld s.arbSealed 0

/-- NET_STAT (R394). -/
def State.netStat (s : State) : Word := flag s.net.link 31 ||| flag s.net.lock 30 ||| fld s.net.lost 0

/-- A register of the Station. -/
def State.stationReg (s : State) (rid : Nat) : Word :=
  if rid = 0x100 then s.bgCfgReg
  else if rid = 0x101 then s.bgStat
  else if rid = 0x102 then s.bgRegenReg
  else if rid = 0x103 then s.bgShunt
  else if rid = 0x110 then s.hpStat
  else if rid = 0x111 then s.hpTags
  else if rid = 0x112 then s.hpClaim 0
  else if rid = 0x113 then s.hpClaim 1
  else if rid = 0x114 then s.hpClaim 2
  else if 0x118 ≤ rid && decide (rid < 0x11D) then
    match HostPort.ofCode (rid - 0x118) with
    | some h => fld s.host[h.ix].sub.toNat 0
    | none => 0
  else if 0x120 ≤ rid && decide (rid < 0x125) then
    match HostPort.ofCode (rid - 0x120) with
    | some h => s.hpEvq h
    | none => 0
  else if rid = 0x130 then s.twCfgWord 0
  else if rid = 0x131 then s.twCfgWord 1
  else if rid = 0x133 then s.twCfgWord 2
  else if rid = 0x134 then s.twTimWord 0
  else if rid = 0x135 then s.twTimWord 1
  else if rid = 0x137 then s.twTimWord 2
  else if rid = 0x138 then s.netCmd
  else if rid = 0x140 then s.hpFuse0
  else if rid = 0x141 then s.hpFuse1
  else if rid = 0x142 then s.fwFuse0
  else if h : 0x148 ≤ rid ∧ rid < 0x14E then s.fuse.pmax[rid - 0x148]'(by omega)
  else if rid = 0x300 then s.timeStat
  else if rid = 0x301 then s.time.slewOfs
  else if rid = 0x302 then BitVec.ofNat 32 s.time.rise.toNat
  else if rid = 0x303 then fld (s.time.rise.toNat / 2 ^ 32) 0
  else if rid = 0x304 then BitVec.ofNat 32 s.time.fall.toNat
  else if rid = 0x305 then s.frmCap
  else if rid = 0x310 then s.ttCfgReg
  else if rid = 0x311 then s.ttStat
  else if rid = 0x312 then s.ttWin
  else if rid = 0x313 then s.ttUsed
  else if rid = 0x520 then BitVec.ofNat 32 s.snapCt.toNat
  else if rid = 0x521 then fld (s.snapCt.toNat / 2 ^ 32) 16 ||| fld s.snapPh.toNat 0
  else if 0x530 ≤ rid && decide (rid < 0x538) then s.cfgW (0x4C + 4 * (rid - 0x530))
  else if rid = 0x538 then s.netStat
  else if rid = 0x600 then hsStat s.hs
  else if rid = 0x601 then fld s.hs.vin.toNat 16 ||| fld s.hs.vsns.toNat 0
  else if rid = 0x604 then s.hsW0
  else if rid = 0x605 then s.hsW1
  else if rid = 0x606 then s.hsW2
  else if rid = 0x607 then s.hsW3
  else if rid = 0x610 then s.sqStat
  else if rid = 0x611 then s.sqRailsReg
  else if rid = 0x612 then s.sqFlagA
  else if rid = 0x613 then s.sqFlagB
  else if rid = 0x614 then s.sqCfgW
  else if h : 0x620 ≤ rid ∧ rid < 0x62C then s.sqRailW ⟨rid - 0x620, by omega⟩
  else 0

/-- A register of a Port. -/
def State.portReg (s : State) (n : PortId) (rid : Nat) : Word :=
  let p := s.port[n]
  match rid with
  | 0x200 => s.tcStat n
  | 0x201 => s.tcCfg n
  | 0x208 => s.ppCfg n
  | 0x209 => p.pp.prot
  | 0x20A => ppStat p.pp s.time.ct
  | 0x20B => s.ppRpair n
  | 0x20C => ppCal p.pp
  | 0x20D => ppVset p.pp
  | 0x210 => s.pdCfg n
  | 0x211 => s.pdStat n
  | 0x212 => p.pd.cable
  | 0x218 => s.pcCfg n
  | 0x219 => ctStat p.ct
  | 0x21A => s.ctPower n
  | 0x220 => s.rsCfg n
  | 0x221 => s.rsStat n
  | 0x228 => s.altCfg n
  | 0x229 => s.altStat n
  | 0x500 => lo32 p.ms.snapSrc
  | 0x501 => hi32 p.ms.snapSrc
  | 0x502 => lo32 p.ms.snapSnk
  | 0x503 => hi32 p.ms.snapSnk
  | 0x504 => s.enStat n
  | 0x508 => s.trCfg n
  | _ => 0

/-- A register of an object. -/
def State.readReg (s : State) (o : Obj) (rid : Nat) : Word :=
  match o with
  | .station => s.stationReg rid
  | .plat k => s.cfgW (0x6C + 4 * k.val)
  | .port n => s.portReg n rid

/-! ### The map of R481 -/

/-- A register's kind of object, its word in the Palette, its W1C bits and the class they need (0 OBSERVE, 1 OPERATE and the
claim, 2 CONFIGURE). -/
structure RegInfo where
  kind : Nat
  pal : Option Nat
  w1c : Word
  cls : Nat

def regInfo (rid : Nat) : Option RegInfo :=
  let ro (k : Nat) : Option RegInfo := some { kind := k, pal := none, w1c := 0, cls := 0 }
  let pal (k off : Nat) : Option RegInfo := some { kind := k, pal := some off, w1c := 0, cls := 0 }
  let w1c (k : Nat) (m : Word) (c : Nat) : Option RegInfo := some { kind := k, pal := none, w1c := m, cls := c }
  if rid = 0x100 then pal 0 0x24
  else if rid = 0x101 then ro 0
  else if rid = 0x102 then some { kind := 0, pal := some 0x28, w1c := 1, cls := 2 }
  else if rid = 0x103 then pal 0 0x2C
  else if 0x110 ≤ rid && decide (rid ≤ 0x114) then ro 0
  else if 0x118 ≤ rid && decide (rid ≤ 0x11C) then ro 0
  else if 0x120 ≤ rid && decide (rid ≤ 0x124) then w1c 0 0xFFFF0000 0
  else if rid = 0x130 then pal 0 0x30
  else if rid = 0x131 then pal 0 0x34
  else if rid = 0x133 then pal 0 0x38
  else if rid = 0x134 then pal 0 0x3C
  else if rid = 0x135 then pal 0 0x40
  else if rid = 0x137 then pal 0 0x44
  else if rid = 0x138 then pal 0 0x48
  else if 0x140 ≤ rid && decide (rid ≤ 0x142) then ro 0
  else if 0x148 ≤ rid && decide (rid ≤ 0x14D) then ro 0
  else if rid = 0x200 then w1c 2 0x00018000 1
  else if rid = 0x201 then pal 2 0x00
  else if rid = 0x208 then pal 2 0x08
  else if rid = 0x209 then ro 2
  else if rid = 0x20A then w1c 2 0x0FC4A000 1
  else if 0x20B ≤ rid && decide (rid ≤ 0x20D) then ro 2
  else if rid = 0x210 then pal 2 0x04
  else if rid = 0x211 then w1c 2 0x00700000 1
  else if rid = 0x212 then ro 2
  else if rid = 0x218 then pal 2 0x0C
  else if rid = 0x219 then w1c 2 0x00200000 1
  else if rid = 0x21A then ro 2
  else if rid = 0x220 then pal 2 0x10
  else if rid = 0x221 then w1c 2 0x00003800 1
  else if rid = 0x228 then pal 2 0x14
  else if rid = 0x229 then w1c 2 0x02800000 1
  else if rid = 0x240 then pal 1 0x6C
  else if rid = 0x300 then w1c 0 0x00FF0000 2
  else if 0x301 ≤ rid && decide (rid ≤ 0x304) then ro 0
  else if rid = 0x305 then w1c 0 0x40000000 2
  else if rid = 0x310 then pal 0 0x20
  else if 0x311 ≤ rid && decide (rid ≤ 0x313) then ro 0
  else if 0x500 ≤ rid && decide (rid ≤ 0x503) then ro 2
  else if rid = 0x504 then w1c 2 1 1
  else if rid = 0x508 then pal 2 0x18
  else if rid = 0x520 || rid = 0x521 then ro 0
  else if 0x530 ≤ rid && decide (rid ≤ 0x537) then pal 0 (0x4C + 4 * (rid - 0x530))
  else if rid = 0x538 then w1c 0 0x0000FFFF 2
  else if rid = 0x600 || rid = 0x601 || 0x604 ≤ rid && decide (rid ≤ 0x607) then ro 0
  else if rid = 0x610 then w1c 0 0x00020000 2
  else if rid = 0x611 then ro 0
  else if rid = 0x612 then w1c 0 0x00000FFF 2
  else if rid = 0x613 then w1c 0 0x0FFF0FFF 2
  else if rid = 0x614 || 0x620 ≤ rid && decide (rid ≤ 0x62B) then ro 0
  else none

/-- The offset in the Palette of a register of an object (R547, R548). -/
def palOffset (o : Obj) (off : Nat) : Nat :=
  match o with
  | .station => off
  | .plat k => off + 4 * k.val
  | .port n => portOff n off

/-! ### W1C bits (R483) -/

def Path.w1c (p : Path) (v : Word) : Path :=
  { p with ftTrip := p.ftTrip && !bit v 27, revTrip := p.revTrip && !bit v 26, i2tTrip := p.i2tTrip && !bit v 25,
           thermTrip := p.thermTrip && !bit v 24, closeFail := p.closeFail && !bit v 23, cpgLost := p.cpgLost && !bit v 22,
           calRej := p.calRej && !bit v 18, noSketch := p.noSketch && !bit v 15, fetImb := p.fetImb && !bit v 13 }

def Port.w1c (p : Port) (rid : Nat) (v : Word) : Port :=
  match rid with
  | 0x200 => { p with tc := { p.tc with vconnOc := p.tc.vconnOc && !bit v 16, ccUndet := p.tc.ccUndet && !bit v 15 } }
  | 0x20A => { p with pp := p.pp.w1c v }
  | 0x211 => { p with pd := { p.pd with hrFail := p.pd.hrFail && !bit v 22, rxFull := p.pd.rxFull && !bit v 21,
                                        chunkAbort := p.pd.chunkAbort && !bit v 20 } }
  | 0x219 => { p with ct := { p.ct with convFail := p.ct.convFail && !bit v 21 } }
  | 0x221 => { p with rs := { p.rs with fail := p.rs.fail && !bit v 13, frsDone := p.rs.frsDone && !bit v 12,
                                        nosig := p.rs.nosig && !bit v 11 } }
  | 0x229 => { p with alt := { p.alt with ptsFail := p.alt.ptsFail && !bit v 25,
                                          enterFail := p.alt.enterFail && !bit v 23 } }
  | 0x504 => { p with ms := { p.ms with sat := p.ms.sat && !bit v 0 } }
  | _ => p

/-- The flags of the rails that a write of SQ_FLAG_A or SQ_FLAG_B clears. -/
def State.w1cRails (s : State) (a : Bool) (v : Word) : State :=
  allRails.foldl (fun s x => s.modRail x fun r =>
    if a then { r with prebias := r.prebias && !bit v x.val }
    else { r with downFail := r.downFail && !bit v x.val, disLate := r.disLate && !bit v (16 + x.val) }) s

/-- The W1C bits `v` of a register cleared. -/
def State.w1c (s : State) (o : Obj) (rid : Nat) (v : Word) : State :=
  match o with
  | .port n => s.modPort n fun p => p.w1c rid v
  | .plat _ => s
  | .station =>
    if rid = 0x102 then if bit v 0 then { s with bg := { s.bg with regenStop := false } } else s
    else if 0x120 ≤ rid && decide (rid ≤ 0x124) then
      match HostPort.ofCode (rid - 0x120) with
      | some h => if v = 0 then s else s.modHost h fun x => { x with dropped := 0 }
      | none => s
    else if rid = 0x300 then s.w1cTime v
    else if rid = 0x305 then s.w1cCap v
    else if rid = 0x538 then if v = 0 then s else { s with net := { s.net with lost := 0 } }
    else if rid = 0x610 then if bit v 17 then { s with sq := { s.sq with retLate := false } } else s
    else if rid = 0x612 then s.w1cRails true v
    else if rid = 0x613 then s.w1cRails false v
    else s

end Sys2Proof.Machine
end

