-- ==== Sys2Proof/Machine/Store.lean ====
section
/-! DEFINITION. The Palette store (chapter 20): page programs, commits, recall, the save record, scrubs. -/
namespace Sys2Proof.Machine

/-! ### The effect of a commit (R115, R137, R203, R385, R447, R474, R484) -/

/-- TW_CFG and TW_TIM of a bus taken over; a change of PTR_MODE returns WINSEL and the pointer to 0x00 (R447). -/
def State.twTake (s : State) (i : Fin 3) : State :=
  let w := s.twCfgWord i
  let t := s.tw[i]
  let t := if bit w 31 = bit t.cfg 31 then t else { t with winsel := 0, ptr := 0 }
  { s with tw := s.tw.set i { t with cfg := w, tim := s.twTimWord i, due := false } }

/-- A bus is free. -/
def State.twFree (s : State) (i : Fin 3) : Bool := if i = 2 then s.points.busFree else s.tw[i].free

/-- The words of a bus taken over now, or once it is free. -/
def State.twTakeOne (s : State) (i : Fin 3) : State :=
  if s.twFree i then s.twTake i else { s with tw := s.tw.set i { s.tw[i] with due := true } }

/-- The buses that are free take their words over, the others once they are (R447). -/
def State.twTakeFree (s : State) : State := ((s.twTakeOne 0).twTakeOne 1).twTakeOne 2

/-- A reply or an event is in transmission on the lane. -/
def Net.packetOut (n : Net) : Bool :=
  match n.sending with
  | some (.reply ..) | some (.event _) => true
  | _ => false

/-- A changed CPORT, once the replies of the host port that made it have been sent (R474). -/
def State.cportTake (s : State) : State :=
  match s.net.cportAfter with
  | none => s
  | some h =>
    if s.host[h.ix].replies.isEmpty && !s.net.packetOut then
      { s with net := { s.net with cport := BitVec.ofNat 16 (bits s.netCmd 15 0), cportAfter := none } }
    else s

/-- A calibration period that has changed (R109, R245). -/
def State.calPeriodSet (s : State) (n : PortId) : State :=
  let p := calPeriod (s.ppCfg n)
  s.modChan (portChan n 1) fun c =>
    if p = 0 then { c with run := false, startSf := false } else { c.stagger p n.val with run := false }

/-- What the running configuration just loaded changes; `old` is the state before it, `by'` the host port that asked. -/
def State.cfgApply (s old : State) (by' : Option HostPort) : State :=
  let s := if s.cfgW 0x20 = old.cfgW 0x20 then s else (s.ttCfgSet (s.cfgW 0x20)).nlogReport
  let s := if s.cardBudget = old.cardBudget then s else s.shedStart
  let s := s.twTakeFree
  let s := if s.netCmd = old.netCmd then s else { s with net := { s.net with cportAfter := by' } }.cportTake
  let s := s.forPorts fun n s =>
    let s := if calPeriod (s.ppCfg n) = calPeriod (old.ppCfg n) then s else s.calPeriodSet n
    if s.altCfg n = old.altCfg n then s else s.altRecheck n
  s.pointsLoad

/-! ### The end of a commit (R484, R551, R555) -/

/-- Step 5: the copy is active, and what core SB does with it. -/
def State.commitDone (s : State) : State :=
  match s.store.commit with
  | none => s
  | some c =>
    let old := s
    let s := { s with store := { s.store with run := c.cfg, newer := false, commit := none } }
    let s := s.emitSt 0x0481 (leBytes 4 c.seq.toNat ++ leBytes 1 (if c.toA then 0 else 1) ++ [0, 0, 0])
    let s := s.cfgApply old (c.cmd.map fun r => r.host)
    let o := (c.cmd.bind fun r => Obj.ofTarget r.target).getD .station
    let s := c.w1c.foldl (fun s x => s.w1c o x.1.toNat x.2) s
    (s.completeOpt c.cmd stOk (leBytes 4 c.seq.toNat)).afterCommit

/-- A commit whose programs have ended. The controller reads the copy back (step 4); core SB takes the result, and while it is
down finds it when it restarts (R551, R552). -/
def State.commitEnd (s : State) (ok : Bool) : State :=
  match s.store.commit with
  | none => s
  | some c =>
    let ok := ok && s.store.copyOk (if c.toA then 0 else 1)
    if !s.sbUp then { s with store := { s.store with commit := some { c with landed := some ok } } }
    else if ok then s.commitDone
    else (({ s with store := { s.store with commit := none } } : State).completeOpt c.cmd stStoreFault []).afterCommit

/-- The result of a commit that ended while core SB was down (R552). -/
def State.commitFound (s : State) : State :=
  match s.store.commit.bind fun c => c.landed with
  | none => s
  | some ok => s.commitEnd ok

/-! ### Programs (R540-R544, R565, R566) -/

/-- Requests of one operation: the pages of a commit, or of one command. -/
def PageReq.sameOp (a b : PageReq) : Bool :=
  a.job = b.job &&
  (match a.job with
   | .commit => true
   | .save => false
   | _ => if a.cmd.isSome then a.cmd = b.cmd else a.page = b.page && b.cmd.isNone)

/-- An operation ends with STORE_FAULT; no further page of it is programmed. -/
def State.opFails (s : State) (r : PageReq) : State :=
  let s := { s with store := { s.store with
    queue := s.store.queue.filter fun x => !r.sameOp x
    filled := if r.data = PageData.filled || r.job = PageJob.log && r.cmd.isNone then s.store.filled.filter fun x => x.1 ≠ r.page
              else s.store.filled } }
  if r.job = .commit then s.commitEnd false else s.completeOpt r.cmd stStoreFault []

/-- Entries of a Log page's bytes (R560, R589); no event has CODE 0. -/
def logEntries : Nat → List Byte → List LogEntry
  | 0, _ => []
  | fuel + 1, bs =>
    if le16 bs 16 = 0 then []
    else
      { index := BitVec.ofNat 32 (le32 bs 0), ssn := BitVec.ofNat 32 (le32 bs 4),
        ct := BitVec.ofNat 48 (leNat ((bs.drop 8).take 6)), code := BitVec.ofNat 16 (le16 bs 16),
        source := BitVec.ofNat 16 (le16 bs 18), first4 := (bs.drop 20).take 4 } :: logEntries fuel (bs.drop 24)

/-- A Log page as it now stands in the ring; PAGE_NO 0 holds none. -/
def Store.setLog (st : Store) (page : Nat) (bytes : Mem) : Store :=
  let no := Mem.word zeroByte bytes 0
  let es := logEntries 10 (Mem.read zeroByte bytes 8 248)
  let l := st.log.filter fun x => x.1 ≠ page
  { st with log := if no = 0 then l else l ++ [(page, no, es)]
            filled := st.filled.filter fun x => x.1 ≠ page
            pageDirty := st.pageDirty && !(no = st.pageNo && es.length = st.page.length) }

/-- A committed page: its bytes are in the store and its marker with them. -/
def Store.land (st : Store) (r : PageReq) : Store :=
  let g := countOf st.gens r.page + 1
  let st := { st with gens := setCount st.gens r.page g, marks := setCount st.marks r.page g,
                      bad := st.bad.filter fun x => x.1 ≠ r.page, weak := st.weak.filter fun x => x.1 ≠ r.page }
  let bs := Mem.read zeroByte r.bytes 0 256
  if r.page < 32 then { st with copyA := { mem := Mem.write zeroByte st.copyA.mem (256 * r.page) bs } }
  else if r.page < 64 then { st with copyB := { mem := Mem.write zeroByte st.copyB.mem (256 * (r.page - 32)) bs } }
  else if r.page < 128 then st
  else if r.page < 256 then st.setLog r.page r.bytes
  else if r.page < 512 then { st with user := Mem.write zeroByte st.user (256 * (r.page - 256)) bs }
  else if r.page = 512 then { st with prot0 := some (protOf r.bytes) }
  else { st with prot1 := some (protOf r.bytes) }

/-- No page of the save path waits. -/
def Store.saveDone (st : Store) : Bool := !st.queue.any fun r => r.job = .save

/-- The save path has run. -/
def Store.saveEnd (st : Store) : Store :=
  { st with saving := none, ringAt := if st.saving.any fun r => r.pages ≠ 4 then st.ringAt + 1 else st.ringAt }

/-- A page of the save path has ended: a record page counts, and the fourth makes the record valid; after the record comes the
open Log page, where it then holds unwritten entries (R557, R558). -/
def Store.savePage (st : Store) (page : Nat) (ok : Bool) : Store :=
  match st.saving with
  | none => st
  | some r =>
    let rec' := decide (page < 128)
    let st :=
      if rec' then
        let r := { r with pages := if ok then r.pages + 1 else r.pages }
        if r.pages = 4 then { st with ring := st.ring.set st.ringAt (some r), ringAt := st.ringAt + 1, saving := some r }
        else { st with ring := st.ring.set st.ringAt none, saving := some r }
      else st
    if !st.saveDone then st
    else if rec' && st.pageDirty then
      { st with queue := { job := .save, page := logPage st.pageNo, data := .openLog, retried := false, cmd := none,
                           final := false } :: st.queue }
    else st.saveEnd

/-- After any page: a save whose trigger came during it starts, or starts again (R557, R565). -/
def State.saveNext (s : State) : State :=
  if s.store.saveAgain then
    match s.store.saving with
    | some r => s.nextRecord r
    | none => s.latchSave
  else s

/-- Store wear past 90 %, and after a WEAR_RESET a further 1 % of the rated cycles on (R492, R501, R566, R580). -/
def State.wearCheck (s : State) : State :=
  let w := worstPage s.store.cycles
  if s.sbUp && decide (90 < wearPercent s.store.cycles) && decide (s.store.wearMark ≤ w.2) && !bit s.health.active 13 then
    s.raiseHealth 13 0xFF w.1 w.2
  else s

/-- The completion of the operation whose last page is committed. -/
def State.opDone (s : State) (r : PageReq) : State :=
  if !r.final then s
  else match r.job with
    | .commit => s.commitEnd true
    | .save | .scrub => s
    | _ =>
      match r.cmd with
      | some c => s.complete c stOk (if c.op = 0x0432 then [0, 0, 0, 0] else [])
      | none => s

/-- PAGE_PROGRAM_DONE: the end of one attempt, verified or not. A page that fails its first attempt is programmed once more before
anything else, but in the save path (R544). A page of the active copy that fails is a read of it that cannot be corrected
(R553). -/
def execPageProgramDone (verified : Bool) (s : State) : Host.Outcome State Fault Refusal :=
  match s.store.prog with
  | none => .next s
  | some r =>
    let s := { s with store := { s.store with cycles := countCycle s.store.cycles r.page } }
    .next (if verified then
      let s := { s with store := { s.store.land r with prog := none } }
      let s := if r.job = .save then { s with store := s.store.savePage r.page true } else s.opDone r
      s.saveNext.wearCheck
    else if r.job ≠ .save && !r.retried then
      ({ s with store := { s.store with prog := some { r with retried := true } } } : State).wearCheck
    else
      let active := s.store.inActive r.page
      let s := { s with store := { s.store.tear r s.fresh with prog := none, fails := s.store.fails + 1 }
                        fresh := s.fresh + 1 }
      let s := if r.job = .save then { s with store := s.store.savePage r.page false } else s.opFails r
      let s := if active && !s.store.recallDue then s.recallBegin else s
      s.saveNext.wearCheck)

/-! ### The bytes of a program (R541, R545, R546, R560, R561, R563) -/

/-- The bytes of a page as it stands. -/
def Store.pageNow (st : Store) (page : Nat) : List Byte :=
  if page < 32 then Mem.read zeroByte st.copyA.mem (256 * page) 256
  else if page < 64 then Mem.read zeroByte st.copyB.mem (256 * (page - 32)) 256
  else if h : 64 ≤ page ∧ page < 128 then
    match st.ring[(page - 64) / 4]'(by omega) with
    | some r => ((recordBytes r).drop (256 * (page % 4))).take 256
    | none => []
  else if page < 256 then
    match st.log.find? fun x => x.1 = page with
    | some x => logPageBytes x.2.1 x.2.2
    | none => []
  else if page < 512 then Mem.read zeroByte st.user (256 * (page - 256)) 256
  else
    let c := (if page = 512 then st.prot0 else st.prot1).getD (0, 0)
    leBytes 4 c.1 ++ leBytes 4 c.2.toNat

/-- The control page USER_PROTECT programs, and its generation (R563). -/
def nextControl (st : Store) : Nat × Word :=
  let a := if st.torn 512 then none else st.prot0.map Prod.snd
  let b := if st.torn 513 then none else st.prot1.map Prod.snd
  match a, b with
  | some x, some y => if newer x y then (513, x + 1) else (512, y + 1)
  | some x, none => (513, x + 1)
  | none, some y => (512, y + 1)
  | none, none => (512, 1)

/-- A write of part of a page can be merged: the page is not torn, and every group it keeps a byte of reads. -/
def Store.mergeOk (st : Store) (page off k : Nat) : Bool :=
  decide (k = 256) || !st.torn page && (st.bad.filter fun x => x.1 = page && x.2 ≠ 32).all fun x =>
    decide (off ≤ 8 * x.2.val) && decide (8 * x.2.val + 8 ≤ off + k)

/-- The groups that its merge reads corrected. -/
def Store.mergeFixes (st : Store) (r : PageReq) : Nat :=
  match r.data with
  | .patch _ bs => if bs.length = 256 then 0 else (groupsIn st.weak r.page 0 256).length
  | _ => 0

/-- A program as it begins: its page and its bytes; none where there is nothing to program, or the merge cannot be made. -/
def Store.resolve (st : Store) (r : PageReq) : Option PageReq :=
  let put (page : Nat) (bs : List Byte) : Option PageReq :=
    some { r with page := page, data := .bytes (Mem.write zeroByte [] 0 bs) }
  match r.data with
  | .bytes _ => some r
  | .patch off bs =>
    if st.mergeOk r.page off bs.length then put r.page (overlay (st.pageNow r.page) off bs) else none
  | .refresh => if st.badData r.page || st.torn r.page then none else put r.page (st.pageNow r.page)
  | .control prot =>
    let g := nextControl st
    put g.1 (prot :: [0, 0, 0] ++ leBytes 4 g.2.toNat)
  | .filled => (st.filled.find? fun x => x.1 = r.page).bind fun x => put r.page (logPageBytes x.2.1 x.2.2)
  | .openLog => if st.pageDirty then put (logPage st.pageNo) (logPageBytes st.pageNo st.page) else none

/-- The program taken next (R542). -/
def nextProg (q : List PageReq) (open' : Bool) : Option PageReq :=
  let first (p : PageReq → Bool) : Option PageReq := q.find? p
  (first fun r => r.job = .save).or
    (if open' then
      ((first fun r => r.job = .commit).or (first fun r => r.job = .user || r.job = .log || r.job = .control)).or q.head?
    else none)

/-- STORE_PROGRAM_START: VHOLD of 30 V, and no WARN_N, but for the save path (R64, R65, R542, R543). A page of the commit that
a recall makes ends the recall. What it writes is settled now; a write that cannot be merged ends with STORE_FAULT. -/
def execStoreProgramStart (vhold : Nat) (s : State) : Host.Outcome State Fault Refusal :=
  .next (if s.sup.hvUp && s.store.prog.isNone then
    match nextProg s.store.queue (!s.hs.warn && decide (30000 ≤ vhold)) with
    | some r =>
      let s := { s with store := { s.store with
        queue := s.store.queue.erase r
        recalling := s.store.recalling && (r.job ≠ PageJob.commit || s.store.recallDue) } }
      match s.store.resolve r with
      | some q => { s with store := { s.store with prog := some q, fixes := s.store.fixes + s.store.mergeFixes r } }
      | none => if r.job = .save then { s with store := s.store.saveEnd } else s.opFails r
    | none => s
  else s)

/-- PROGRAM_ABANDON: the oldest program that waits, 200 ms after its request; its operation ends (R543). -/
def execProgramAbandon (s : State) : Host.Outcome State Fault Refusal :=
  .next (match s.store.queue.find? fun r => r.job ≠ .save with
    | some r => s.opFails r
    | none => s)

/-! ### Recall (R553-R555, R559) -/

/-- UNCORRECTABLE_RECALL (R553, R555, R565). The row names no group: the first of the copy stands for it (log entry 166). -/
def execUncorrectableRecall (s : State) : Host.Outcome State Fault Refusal :=
  .next (if s.sbUp && !s.store.recallDue then
    match activeCopy s.store with
    | some i => ({ s with store := { s.store with bad := (copyPage i, 0) :: s.store.bad } } : State).recallBegin
    | none => s
  else s)

/-- The running configuration at a cold start, by FMT of the active copy (R554, R589). -/
def State.coldRecall (s : State) : State :=
  let s := { s with store := { s.store with
    late := none, commit := s.store.commit.filter fun c => c.landed.isNone } }
  let st := s.store
  match activeCopy st with
  | none => { s with store := { st with run := [], newer := false } }.recallEvent 0xFF 0 0
  | some i =>
    let c := copyOf st i
    if c.fmt < s.running.fmtMin then
      let s := { s with store := { st with run := [], newer := false } }
      (s.recallEvent (if i = 0 then 1 else 0) 1 (c.seq + 1)).startCommit [] none []
    else if s.running.fmtMax < c.fmt then
      let e : Event := { code := 0x0480, ssn := s.ssn, ct := s.time.ct, source := tgtStation, flags := 0, tag := 0xFF,
                         payload := [0xFF, 0, 0, 0] }
      (({ s with store := { st with run := [], newer := true } } : State).recallEvent 0xFF 0 c.seq).logAdd e
    else { s with store := { st with run := c.cfg, newer := false } }.recallEvent i.val 0 c.seq

/-- A counter slot's halves. -/
def slotLo (x : BitVec 64) : Nat := x.toNat % 2 ^ 32
def slotHi (x : BitVec 64) : Nat := x.toNat / 2 ^ 32

/-- Counters of one port from a record (R556, R586). -/
def Measure.load (m : Measure) (g : Nat → BitVec 64) (n : Nat) : Measure :=
  let c := g (51 + 3 * n)
  { m with src := g (2 * n), snk := g (2 * n + 1), srcRes := 0, snkRes := 0,
           attaches := slotLo (g (49 + 3 * n)), tripsLife := slotHi (g (49 + 3 * n)),
           closedSamples := slotLo (g (50 + 3 * n)) * samplesPerSecond, hardResets := slotHi (g (50 + 3 * n)),
           swaps := slotLo c, tMax := ofTemp16 (c.extractLsb' 32 16), tests := c.extractLsb' 48 16 }

/-- Every counter and the SSN loaded from the newest valid record; where there is none they start at 0 (R424, R559). The Log
goes on after its newest page. -/
def State.loadCounters (s : State) : State :=
  match newestRecord s.store.ring with
  | none => s
  | some r =>
    let g (i : Nat) : BitVec 64 := r.slots.getD i 0
    let s := s.forPorts fun n s => s.modMs n fun m => m.load g n.val
    let pc := slotHi (g 124)
    let at' : Option (Fin 16) := (List.finRange 16).find? fun i => s.store.ring[i].any fun x => x.saveNo = r.saveNo
    { s with ssn := BitVec.ofNat 32 (slotLo (g 48) + 1), resume := true
             store := { s.store with ringAt := at'.getD 0 + 1, ssnLatch := BitVec.ofNat 32 (slotLo (g 48)) }
             health := { s.health with
               powered := slotLo (g 121) * samplesPerSecond, insertions := slotHi (g 121) + s.health.insertions,
               warns := slotLo (g 122) + s.health.warns, alloffs := slotHi (g 122) + s.health.alloffs,
               cold := slotLo (g 123) + s.health.cold, warm := slotHi (g 123) + s.health.warm,
               sbDogs := slotLo (g 124), pcDogs := Vector.ofFn fun k => pc / 256 ^ k.val % 256,
               sinceScrub := slotLo (g 125) * samplesPerSecond + s.health.sinceScrub,
               retired := BitVec.ofNat 24 (slotHi (g 125)),
               tHv := (ofTemp16 ((g 126).extractLsb' 0 16)).or s.health.tHv,
               tLogic := (ofTemp16 ((g 126).extractLsb' 16 16)).or s.health.tLogic, life := slotHi (g 126) } }

/-- The newest page of the Log, by PAGE_NO (R560). -/
def newestLog (l : List (Nat × Word × List LogEntry)) : Option (Nat × Word × List LogEntry) :=
  l.foldl (fun b x => match b with
    | none => some x
    | some y => if newer x.2.1 y.2.1 then some x else some y) none

def State.logResume (s : State) : State :=
  match newestLog s.store.log with
  | none => s
  | some x =>
    { s with store := { s.store with pageNo := x.2.1 + 1
                                     logIndex := (x.2.2.getLast?.map fun e => e.index + 1).getD s.store.logIndex } }

/-! ### Scrubs (R545, R546) -/

/-- A scrub begins, and its period again (R546). -/
def State.scrubStart (s : State) (cmd : Option CmdRef) : State :=
  { s with store := { s.store with scrub := some (0, 0, 0, cmd) }, health := { s.health with sinceScrub := 0 } }

/-- A scrub ends (R492, R546, R580). -/
def State.scrubEnd (s : State) (c u : Nat) (cmd : Option CmdRef) : State :=
  let k := c + s.store.fails + s.store.fixes
  let s := { s with store := { s.store with scrub := none, fails := 0, fixes := 0 } }
  let s := if 16 < k then s.raiseHealth 12 0xFF 0 k else if u = 0 then s.healthClear 12 else s
  s.completeOpt cmd stOk (leBytes 4 c ++ leBytes 4 u)

/-- SCRUB_DUE: 30 days of powered time. -/
def execScrubDue (s : State) : Host.Outcome State Fault Refusal :=
  .next (if s.sbUp && s.store.scrub.isNone && decide (30 * 86400 * samplesPerSecond ≤ s.health.sinceScrub) then
    s.scrubStart none else s)

/-- The groups of a page that its read has found uncorrectable: a record with one is not valid, a control page with one in its
PROT counts as PROT 3, and the active copy is recalled (R545, R550, R553, R558, R563). -/
def State.badPage (s : State) (page : Nat) (gs : List (Fin 33)) : State :=
  let active := s.store.inActive page && gs.any fun g => g ≠ 32
  let st := { s.store with bad := gs.map (fun g => (page, g)) ++ s.store.bad.filter fun (x : Nat × Fin 33) => x.1 ≠ page }
  let st := if 64 ≤ page && decide (page < 128) then st.spoil page else st
  let s := { s with store := { st with prot0 := if page = 512 && gs.contains 0 then none else st.prot0
                                       prot1 := if page = 513 && gs.contains 0 then none else st.prot1 } }
  if active && !s.store.recallDue then s.recallBegin else s

/-- SCRUB_PAGE: one page read, with the groups corrected and those not correctable. It gives way to a program in progress: the
page is read at the next SCRUB_PAGE (R546, R565). The programs of R542 that wait come first at each STORE_PROGRAM_START. -/
def execScrubPage (corrected uncorrectable : List (Fin 33)) (s : State) : Host.Outcome State Fault Refusal :=
  .next (match s.store.scrub, s.store.prog with
  | some (p, c, u, cmd), none =>
    let lost := uncorrectable.dedup
    let fixed := corrected.dedup.filter fun g => !lost.contains g
    let s := { s with store := { s.store with weak := fixed.map (fun g => (p, g)) ++ s.store.weak.filter fun (x : Nat × Fin 33) => x.1 ≠ p } }
    let s := if !lost.isEmpty then s.badPage p lost
      else if !fixed.isEmpty then
        s.requestPage { job := .scrub, page := p, data := .refresh, retried := false, cmd := none, final := true }
      else s
    let c := c + fixed.length
    let u := u + (if lost.isEmpty then 0 else 1)
    if p + 1 < 514 then { s with store := { s.store with scrub := some (p + 1, c, u, cmd) } } else s.scrubEnd c u cmd
  | _, _ => s)

/-! ### Triggers of the save path (R557) -/

/-- HOURLY_SAVE: every 60 min of powered time. -/
def execHourlySave (s : State) : Host.Outcome State Fault Refusal :=
  .next (if s.sup.hvUp then s.startSave false else s)

/-- SSN_SAVE: the SSN has reached the last latched value + 2¹⁹. -/
def execSsnSave (s : State) : Host.Outcome State Fault Refusal :=
  .next (if s.sup.hvUp && decide (2 ^ 19 ≤ (s.ssn - 1 - s.store.ssnLatch).toNat) then s.startSave false else s)

end Sys2Proof.Machine
end

