-- ==== Sys2Proof/Machine/Image.lean ====
section
/-! DEFINITION. Firmware images (chapter 21): the choice of a bank, the loading of the cores, and the ends of a verify and of
an advance. -/
namespace Sys2Proof.Machine

/-! ### The choice of a bank (R77, R575) -/

/-- The banks Primer tries, in order. -/
def State.bankOrder (s : State) (warm : Bool) (named : Option Bank) : Bank × Bank :=
  let first : Bank := match named with
    | some b => b
    | none => if warm then s.sup.lastBank.getD .a else if newer s.bankB.sel s.bankA.sel then .b else .a
  (first, first.other)

/-- The bank that passes, its body, and the bank that failed before it. -/
def State.chooseBank (s : State) (warm : Bool) (named : Option Bank) : Option (Bank × List Byte × Option Bank) :=
  let (x, y) := s.bankOrder warm named
  let r := s.verifyBank x
  if r.1 = 0 then some (x, r.2, none)
  else
    let r := s.verifyBank y
    if r.1 = 0 then some (y, r.2, some x) else none

/-! ### Loading (R75, R569) -/

/-- A segment as memory, from offset 0; the rest reads 0. -/
def segMem (bs : List Byte) : Mem := Mem.write zeroByte [] 0 bs

/-- A core as Primer loads it from a body. -/
def loadCore (body : List Byte) (c : CoreId) : VCore :=
  let (a, b, cc, d) := segLens body
  let bs := body.drop 16
  let sb := c = coreSB
  let off := if sb then 0 else a + b
  let code := (bs.drop off).take (if sb then a else cc)
  let data := (bs.drop (off + if sb then a else cc)).take (if sb then b else d)
  { VCore.reset with up := true, code := segMem code, data := segMem data }

/-- KERNEL: the state of a core's slot (R500, R530). -/
def State.kernelEvent (s : State) (c : CoreId) : State :=
  let k := s.core[c].slot
  s.emit 0x0780 (if h : c.val < 4 then tgtPlat ⟨c.val, h⟩ else tgtStation) (leBytes 1 k.st.code ++ [0, 0, 0] ++
    leBytes 4 k.kid.toNat)

/-- A core stops; its kernel slot reads empty from then on (R532). -/
def State.coreStop (s : State) (c : CoreId) : State :=
  let had := s.core[c].slot.st ≠ .empty
  let s := s.modCore c fun _ => VCore.reset
  if had then s.kernelEvent c else s

/-! ### VERIFY_DONE, ROLLBACK_ADVANCE_DONE (R573, R574) -/

def execVerifyDone (s : State) : Host.Outcome State Fault Refusal :=
  .next (match s.verify with
  | [] => s
  | (b, cmd) :: rest =>
    let r := (s.verifyBank b).1
    let s := ({ s with verify := rest } : State).setBank b fun x => { x with st := if r = 0 then 2 else 3 }
    s.complete cmd stOk (leBytes 1 r ++ [0, 0, 0] ++ leBytes 4 (s.bank b).version))

def execRollbackAdvanceDone (s : State) : Host.Outcome State Fault Refusal :=
  .next (match s.advance with
  | [] => s
  | cmd :: rest =>
    let s := { s with advance := rest, fuse := { s.fuse with arb := blow s.fuse.arb s.running.arbLevel } }
    s.complete cmd stOk (leBytes 4 s.arbSealed))

end Sys2Proof.Machine
end

