-- ==== Sys2Proof/Machine/Supply.lean ====
section
/-! DEFINITION. Supplies, reset sources, hold-over and Primer (chapters 01, 02, 03), with what ends a restart (chapter 22). -/
namespace Sys2Proof.Machine

/-! ### Insertion (R57, R72, R195) -/

def State.undetAt (s : State) (rail : Nat) (x : Schmitt) : State := if x = .band then s.sqRecord rail .undet else s

/-- The sequencer's first sample (R195): each level is taken at once, before DGL has passed, and an SQ_PGx that R171 ignores
shows in PG, UNDET and the history as every other does (DESIGN CHOICE: R171 and R180 do not say; log entries 133 and 134). -/
def State.firstSample (s : State) (pg : Vector Schmitt 12) (cin reti faultN : Schmitt) : State :=
  let s := allRails.foldl (fun s x =>
    (s.modRail x fun r => { r with pg := decide (pg[x] = .high), undet := decide (pg[x] = .band) }).undetAt x.val pg[x]) s
  let u : BitVec 3 := BitVec.ofNat 3 (4 * b2n (faultN = .band) + 2 * b2n (reti = .band) + b2n (cin = .band))
  let s := { s with sq := { s.sq with cin := decide (cin = Schmitt.high), reti := decide (reti = Schmitt.high),
                                      faultN := decide (faultN ≠ Schmitt.low), undetC := u } }
  ((s.undetAt 0xF cin).undetAt 0xF reti).undetAt 0xF faultN

/-- PRE_REGULATOR_START: VBP has risen through 30 V (R57, R72, R195). -/
def execPreRegulatorStart (uncorr marginUncorr differ : Bool) (pg : Vector Schmitt 12) (cin reti faultN : Schmitt)
    (s : State) : Host.Outcome State Fault Refusal :=
  if s.sup.hvUp then .next s
  else
    let s := { s with sup := { s.sup with hvUp := true, hvUncorr := uncorr || marginUncorr,
                                          hvMargin := differ && !uncorr && !marginUncorr }
                      health := { s.health with insertions := sat32 (s.health.insertions + 1) } }
    .next (s.firstSample pg cin reti faultN).hsFirst

/-- PRE_REGULATOR_RESET: the input below 7.5 V (R57). -/
def execPreRegulatorReset (s : State) : Host.Outcome State Fault Refusal := .next s.wipe

/-- HV_SUPPLY_LOSS: every gate off (R31), and with the HV die's supply the Station is reset (R57). -/
def execHvSupplyLoss (s : State) : Host.Outcome State Fault Refusal := .next s.wipe

/-! ### The charge pump (R60, R149, R613) -/

/-- VCP_READY. The PATH bookings that waited for VCP are made. -/
def execVcpReady (mv : Nat) (s : State) : Host.Outcome State Fault Refusal :=
  .next (if s.sup.hvUp && decide (11000 ≤ mv) then
    ({ s with sup := { s.sup with vcpOk := true } } : State).forPorts fun n s =>
      if s.port[n].pp.vcpWait then
        let s := s.modPp n fun p => { p with vcpWait := false }
        if s.port[n].tc.st.attached && s.port[n].tc.pathRetry then s.bookPath n else s
      else s
  else s)

/-- A port's path is opened by a VCP fault: no trip, no RETRY; its bookings are cancelled (R25, R60). -/
def State.vcpOpen (s : State) (n : PortId) : State :=
  let st := s.port[n].pp.st
  if st = .closing || st = .closed then
    let s := ((s.openPath n true false true).cancelPort n).modPp n fun p => { p with vcpWait := true, byVcp := true }
    s.tripConsequence n
  else s

/-- VCP_FAULT: below 10.0 V for 2 µs while a path is closed, which none is before VCP has reached 11 V. -/
def execVcpFault (mv : Nat) (s : State) : Host.Outcome State Fault Refusal :=
  let any := s.hsFrom.1.closedPath || allPorts.any fun n => s.port[n].pp.st = .closing || s.port[n].pp.st = .closed
  .next (if s.sup.hvUp && s.sup.vcpOk && decide (mv < 10000) && any then
    let s := { s with sup := { s.sup with vcpOk := false } }
    let s := s.forPorts fun n s => s.vcpOpen n
    if s.hsFrom.1.closedPath then s.hsFault .vcp else s
  else s)

/-! ### Commands in progress at a restart (R413, R488) -/

/-- The work of these commands is no longer theirs: it completes nothing. -/
def State.forget (s : State) (p : CmdRef → Bool) : State :=
  let f (o : Option CmdRef) : Option CmdRef := o.filter fun r => !p r
  let g (r : PageReq) : PageReq := { r with cmd := f r.cmd }
  { s with
    store := { s.store with queue := s.store.queue.map g, prog := s.store.prog.map g
                            commit := s.store.commit.map fun (c : Commit) => { c with cmd := f c.cmd }
                            scrub := s.store.scrub.map fun x => (x.1, x.2.1, x.2.2.1, f x.2.2.2) }
    port := s.port.map fun (q : Port) =>
      { q with alt := { q.alt with host := f q.alt.host }, rs := { q.rs with host := f q.rs.host } }
    plat := s.plat.map fun (k : Platform) => { k with push := k.push.filter fun x => !p x.2.2 }
    core := s.core.map fun (c : VCore) => { c with slot := { c.slot with host := f c.slot.host } }
    verify := s.verify.filter fun (x : Bank × CmdRef) => !p x.2
    time := { s.time with epochPend := s.time.epochPend.map fun x => (x.1, f x.2) }
    sup := { s.sup with restartReq := s.sup.restartReq.filter fun x => !p x.cmd } }

/-- RESTART and BANK_SELECT are never answered HOLDOVER (R488); a restart that overtakes one leaves it abandoned. -/
def restartOp (op : BitVec 16) : Bool := op = 0x0120 || op = 0x0713

/-- The front end answers the commands a stopped core holds, and completes those it had accepted (R413). -/
def State.answerHeld (s : State) (p : Held → Bool) : State :=
  let l := (s.inbox ++ s.waiting).filter p
  let a := s.active.filter p
  let s := { s with inbox := s.inbox.filter fun c => !p c, waiting := s.waiting.filter fun c => !p c }
  let s := l.foldl (fun s c => s.replyTag c.p c.op stHoldover []) s
  let s := a.foldl (fun s c =>
    if restartOp c.op then s.complete (CmdRef.of c) stOk [1] else s.complete (CmdRef.of c) stHoldover []) s
  s.forget fun r => a.any fun c => decide (CmdRef.of c = r)

/-! ### Cores that stop -/

/-- Where an entry or an exit stands once its core has restarted (R369): the mode stays entered. -/
def AltStep.restarted : AltStep → AltStep
  | .safe | .status | .configure => .status
  | .mounted => .mounted
  | .exitSafe | .exiting => .exitSafe
  | _ => .idle

/-- A self-test whose core has stopped leaves its Port to be opened again; Pn_CEN stays as it is (R241). -/
def Port.coreLost (p : Port) : Port :=
  { p with alt := { p.alt with step := p.alt.step.restarted }
           tc := if p.test.isSome then { p.tc with opening := .closed } else p.tc
           test := none }

/-- All five cores stop. Queued DETACH scripts stay pending, and an EXIT that has not run is due again (R61, R369); kernels end
(R532). -/
def State.coresDown (s : State) : State :=
  let l := s.points.queue.filter fun x => x.event = 7
  let s := l.foldl (fun s x => s.modAlt x.port fun a => { a with detPend := true }) s
  let s := (s.points.queue.filter fun x => x.event = 6).foldl (fun s x => s.modAlt x.port fun a => { a with exitDue := true }) s
  let s := { s with points := { s.points with queue := [], running := false, delay := false }
                    bg := { s.bg with policy := [], shedQueue := [] }
                    verify := []
                    sup := { s.sup with reload := [] }
                    port := s.port.map Port.coreLost }
  ((List.finRange 5).foldl (fun s c => s.coreStop c) s).advanceCutShort

/-! ### Hold-over (R13, R26-R29) -/

/-- An AMS that waits to begin stays queued through hold-over (R277, R278). -/
def Pd.amsBack (d : Pd) : Pd :=
  let l := d.ctx.toList.filterMap fun c => if c.tx = .waitIdle then c.cur.filter fun m => m.ams else none
  let d := if l.isEmpty then d else (d.disarm .tSinkTx).disarm .sinkSample
  { d with outbox := l ++ d.outbox
           ctx := d.ctx.map fun c => if c.tx = .waitIdle && c.cur.any fun m => m.ams then { c with tx := .idle, cur := none } else c }

/-- A Front end enters hold-over: a source at Revision 3.x keeps Rp at SinkTxOK (R277), and the core that returns asks for the
DisplayPort status (R369). -/
def Port.enterHold (p : Port) : Port :=
  if p.hold then p
  else
    let p := { p with pd := p.pd.amsBack }
    let ok := p.tc.st.isSource && p.pd.contract && p.pd.ctx[0].rev = 0b10
    { p with hold := true
             pd := if ok then { p.pd with sinkTxOk := true } else p.pd
             tc := if ok then p.tc.present 3 else p.tc
             alt := { p.alt with askStatus := p.alt.askStatus || p.alt.mode = .displayPort } }

/-- The Front ends of the populated ports named enter hold-over; while R11 holds them they do not. -/
def State.holdEnter (s : State) (ks : PlatId → Bool) : State :=
  if !s.sup.runFlag then s
  else
    let s := s.forPorts fun n s => if bit s.fuse.present n && ks (platOf n) then s.modPort n Port.enterHold else s
    (List.finRange 4).foldl (fun s k => if ks k && s.plat[k].fallback then
      s.modPlat k fun p => { p with takeBack := some 0 } else s) s

/-- Primer runs from its first step; WARN_N stops it (R73, R74, R79). -/
def State.primerStart (s : State) (warm : Bool) (named : Option Bank) : State :=
  { s with sup := { s.sup with primer := if s.hs.warn then .stopped warm named else .running warm named
                               serviceReplace := false } }

/-! ### The logic die's supplies (R68-R70) -/

/-- A host-port front end restarted: its tags, replies and events are lost, its subscription stays (R50, R61, R70). -/
def HostFe.restart (h : HostFe) : HostFe := { HostFe.reset with sub := h.sub }

def TwoWire.flush (t : TwoWire) : TwoWire := { TwoWire.reset t.cfg with tim := t.tim }

/-- Commands in flight are lost without a reply (R50, R70). -/
def State.frontEnds (s : State) : State :=
  let s := { s with
    host := s.host.map HostFe.restart, inbox := [], waiting := [], active := []
    tw := s.tw.map TwoWire.flush
    loc := { lastErr := false, cmdFree := true, out := [] }
    net := { s.net with urgent := [], origin := [], cportAfter := none } }
  s.forget fun _ => true

/-- LOGIC_DIE_RELEASE: the supplies have qualified, and RESET_N is high (R48, R68, R69). Primer begins. -/
def execLogicDieRelease (vdd33 vdd09 vddnt : Nat) (resetN : Bool) (s : State) : Host.Outcome State Fault Refusal :=
  .next (if s.sup.hvUp && !s.sup.logicUp && resetN && decide (3050 < vdd33) && decide (840 < vdd09) && decide (840 < vddnt)
    then
      let s := { s with
        sup := { s.sup with logicUp := true, service := s.sup.servicePin, serviceDue := [] }
        tw := #v[TwoWire.reset 0x2C000000, TwoWire.reset 0x2C000000, TwoWire.reset 0x2C3A0000]
        port := s.port.map fun (p : Port) =>
          { p with ms := { p.ms with trace := { p.ms.trace with seq := 0, sketchSeq := 0, gap := true } } }
        net := { s.net with repSeq := 0 } }
      s.primerStart s.sup.runFlag none
    else s)

/-- A port's measurement registers outside the retained domain. -/
def Port.logicLost (p : Port) : Port :=
  { p with ms := { p.ms with snapSrc := 0, snapSnk := 0, sat := false
                             trace := { Trace.reset with cfg := p.ms.trace.cfg, seq := p.ms.trace.seq
                                                         sketchSeq := p.ms.trace.sketchSeq } } }

/-- The logic die outside its retained domain is reset (R61, R70, R261). -/
def State.logicReset (s : State) : State :=
  let s := (s.coresDown).frontEnds
  { s with
    sup := { s.sup with logicUp := false, linkSilent := true, primer := .off }
    tt := { s.tt with req := Vector.replicate 5 TtReq.reset, gos := [] }
    plat := s.plat.map fun (k : Platform) => { k with slots := Vector.replicate 8 none, push := none, pushCut := false }
    port := s.port.map Port.logicLost
    snapCt := 0, snapPh := 0, sketches := []
    net := { s.net with link := false, lock := false, lost := 0, reports := [], traces := [], sending := none, cport := 0 }
    bg := { shedding := false, regenStop := false, shedQueue := [], policy := [] }
    points := { Points.reset with ok := s.points.ok }
    tw := #v[TwoWire.reset 0x2C000000, TwoWire.reset 0x2C000000, TwoWire.reset 0x2C3A0000] }

/-- The falling threshold of a supply, mV (R68). -/
def fallsBelow : Supply → Nat
  | .vdd33 => 2950
  | .vdd09 | .vddnt => 810

/-- LOGIC_SUPPLY_RESET. -/
def execLogicSupplyReset (which : Supply) (mv : Nat) (s : State) : Host.Outcome State Fault Refusal :=
  .next (if s.sup.logicUp && decide (mv < fallsBelow which) then s.logicReset.holdEnter fun _ => true else s)

/-- RESET_N restarts the cores and the host-port front ends; the link falls silent (R50, R51). -/
def State.resetPin (s : State) : State :=
  let s := (s.coresDown).frontEnds
  let s := { s with sup := { s.sup with linkSilent := true } }
  (s.holdEnter fun _ => true).primerStart s.sup.runFlag none

/-- RESET_N: a low pulse of so many ns (R49). -/
def execResetN (lowNs : Nat) (s : State) : Host.Outcome State Fault Refusal :=
  .next (if !s.sup.logicUp || decide (lowNs < 960) then s
  else if 1040 ≤ lowNs then s.resetPin
  else
    let acts := Config.resetActs s.fresh
    let s := { s with fresh := s.fresh + 1 }
    if acts then s.resetPin else s)

/-! ### Watchdogs and restarts (R26, R74, R76, R413, R526, R587) -/

/-- Core SB stops with the other four, the Front ends enter hold-over and Primer runs. -/
def State.restartAll (s : State) (named : Option Bank) : State :=
  ((s.answerHeld fun _ => true).coresDown.holdEnter fun _ => true).primerStart s.sup.runFlag named

/-- Core SB's watchdog has expired. -/
def State.sbDog (s : State) : State :=
  if s.sbUp then
    ({ s with health := { s.health with sbDogs := sat32 (s.health.sbDogs + 1) } } : State).restartAll none
  else s

def execSbWatchdog (s : State) : Host.Outcome State Fault Refusal := .next s.sbDog

/-- Powered time now, in sample instants. -/
def State.poweredNow (s : State) : Nat := s.health.powered + s.sidx

/-- TARGET is a Platform or a Port of it. -/
def targets (k : PlatId) (t : BitVec 16) : Bool :=
  match Obj.ofTarget t with
  | some (.plat j) => j = k
  | some (.port n) => platOf n = k
  | _ => false

/-- A Platform core's watchdog has expired: its ports enter hold-over, and Primer reloads it, or at the third expiry within
24 h leaves it unloaded (R76, R587). -/
def State.platDog (s : State) (k : PlatId) : State :=
  if (s.core[coreOf k]).up then
    let now := s.poweredNow
    let dogs := now :: s.plat[k].dogs.filter fun t => decide (now ≤ t + 24 * 3600 * samplesPerSecond)
    let s := { s with health := { s.health with pcDogs := s.health.pcDogs.set k (min 255 (s.health.pcDogs[k] + 1)) } }
    let s := (s.answerHeld fun c => targets k c.p.target).coreStop (coreOf k)
    let s := (portsOf k).foldl (fun s n => s.modPort n Port.coreLost) s
    let s := s.modPlat k fun p => { p with dogs := dogs }
    if 3 ≤ dogs.length then
      let s := (s.modPlat k fun p => { p with fallback := true }).holdEnter fun j => j = k
      s.raiseHealth 14 k.val k.val 0
    else
      let s := s.holdEnter fun j => j = k
      { s with sup := { s.sup with reload := s.sup.reload ++ [k] } }
  else s

def execPlatformWatchdog (k : PlatId) (s : State) : Host.Outcome State Fault Refusal := .next (s.platDog k)

/-- A voltage transition, role swap or Hard Reset of the port is in progress (R26). -/
def State.portBusy (s : State) (n : PortId) : Bool :=
  let p := s.port[n]
  p.ct.plan.isSome || p.rs.step ≠ .idle || p.pd.hrPend || p.pd.hrReq

/-- RESTART_BEGIN: the completion is queued before hold-over begins, and an advance of the anti-rollback level completes before
that (R26, R488, R578). -/
def execRestartBegin (s : State) : Host.Outcome State Fault Refusal :=
  .next (match s.sup.restartReq with
  | none => s
  | some r =>
    if s.sbUp && s.advance.isEmpty && !allPorts.any s.portBusy then
      (({ s with sup := { s.sup with restartReq := none } } : State).complete r.cmd stOk [0]).restartAll r.bank
    else s)

/-- RESTART_ABANDONED: 50 ms have passed (R26, R488, R500). -/
def execRestartAbandoned (s : State) : Host.Outcome State Fault Refusal :=
  .next (match s.sup.restartReq, allPorts.find? s.portBusy with
  | some r, some n =>
    (({ s with sup := { s.sup with restartReq := none } } : State).emitSt 0x0183 (leBytes 1 n.val ++ [0, 0, 0])).complete
      r.cmd stOk [1]
  | _, _ => s)

/-! ### The die-to-die link (R13, R22, R261, R585) -/

/-- LINK_SILENCE: 100 µs without a valid transfer. -/
def execLinkSilence (s : State) : Host.Outcome State Fault Refusal :=
  .next (if s.sup.hvUp && !s.sup.linkSilent then
    ({ s with sup := { s.sup with linkSilent := true } } : State).holdEnter fun _ => true
  else s)

/-- A Sketch held in the HV die goes to the Platform's next free slot, or is dropped (R261). -/
def State.heldCopy (s : State) (k : PlatId) : State :=
  match s.plat[k].holding with
  | none => s
  | some h =>
    let s := s.modPlat k fun p => { p with holding := none }
    (s.sketchPlace { h with held := true }).1

/-- A DETACH script kept pending runs once core SB runs (R369). -/
def State.detachRun (s : State) (n : PortId) : State :=
  if s.sbUp && !s.sup.linkSilent && s.port[n].alt.detPend then
    (s.modAlt n fun a => { a with detPend := false }).queueScript n 7
  else s

/-- The link carries transfers again: held Sketches pass, and core SB completes what it could not learn before. -/
def State.linkBack (s : State) : State :=
  if !s.sup.linkSilent then s
  else
    let s := { s with sup := { s.sup with linkSilent := false } }
    let s := (List.finRange 4).foldl (fun s k => s.heldCopy k) s
    if s.sbUp then ((s.slotReport).hsReport.failsDue).forPorts fun n s => s.detachRun n else s

def execLinkReturn (s : State) : Host.Outcome State Fault Refusal := .next (if s.sup.logicUp then s.linkBack else s)

/-! ### The limit of hold-over and the take-back (R28, R29, R78, R231, R249, R278, R615) -/

/-- HOLD_OVER_LIMIT: 400 ms. In Primer's service state the ports are then held as R11 lays down. -/
def execHoldOverLimit (n : PortId) (s : State) : Host.Outcome State Fault Refusal :=
  .next (if !s.notBack n then s
  else
    let at' := s.port[n].tc.st.attached
    if s.sup.primer = .service then
      ((if at' then s.hardReset n true else s).disablePort n).modPort n fun p => { p with hold := false }
    else if at' then s.askHr n
    else s)

/-- The port a Platform's take-back has come to. -/
def State.nextBack (s : State) (k : PlatId) : Option PortId :=
  if s.plat[k].fallback then s.plat[k].takeBack.bind fun i => (portsOf k)[i]?
  else (portsOf k).find? fun n => s.port[n].hold

/-- A report that has waited for the core (R278). -/
def State.readReport (n : PortId) (s : State) (ty : Sop) : State :=
  match (s.ctx n ty).report with
  | none => s
  | some (r, b) =>
    let s := s.modCtx n ty fun c => { c with report := none }
    if r = .sent then s else s.notSent n { sop := ty, body := b, ams := false } (r = .failed)

/-- Queued messages that no command takes. -/
def State.readQueue (n : PortId) (s : State) : State :=
  let l := s.port[n].pd.rxq.filter fun m => rowless m.body
  let s := s.modPd n fun d => { d with rxq := d.rxq.filter fun m => !rowless m.body, rxDone := 0 }
  l.foldl (fun s m => s.coreTakes n m) s

/-- What core SB or the Platform core does for every port taken back: the terminations, the calibration, a Hard Reset due. -/
def State.backCommon (s : State) (n : PortId) (c1 c2 vbus : Nat) : State :=
  let s := s.detachRun n
  let s := match s.port[n].tc.opening with
    | .closed => if s.mayOpen n then s.portOpen n else s
    | .retry => s.openRetry n
    | _ => s
  let s := s.heldDecide n c1 c2 vbus
  let s := (if s.port[n].pp.rHeld then s.calApply n s.port[n].pp.rCalQ else s).calReports n
  if s.port[n].pd.armed .tripHardReset then s.askHr n else s

/-- What the Platform core does beside (R278, R352, R368, R369, R615). -/
def State.backCore (s : State) (n : PortId) : State :=
  let s := [Sop.sop, .sop1, .sop2].foldl (State.readReport n) s
  let s := State.readQueue n s
  let s := if s.port[n].pd.notice then s.softCore n else s
  let s := ((s.exitRun n).altRecheck n).standbyTry n
  let a := s.port[n].alt
  if a.step = .exitSafe && !s.hasScript n then s.altLeave n
  else if a.askStatus && a.mode = .displayPort then s.vdmSend n a.step .dpStatus 0xFF01 0
  else s

/-- TAKE_BACK: the next port of a Platform, with its pins and VBUS in mV. -/
def execTakeBack (k : PlatId) (cc1 cc2 vbus : Nat) (s : State) : Host.Outcome State Fault Refusal :=
  .next (match s.nextBack k with
  | none => s
  | some n =>
    if !s.sbUp || s.sup.linkSilent then s
    else if s.plat[k].fallback then
      let s := s.modPlat k fun p => { p with takeBack := p.takeBack.bind fun i => if i < 5 then some (i + 1) else none }
      if s.inService n then s.backCommon n cc1 cc2 vbus else s
    else if !(s.core[coreOf k]).up then s
    else
      let s := s.modPort n fun p => { p with hold := false }
      if s.inService n then (s.backCommon n cc1 cc2 vbus).backCore n else s)

/-! ### Primer ends (R74-R80, R115, R416, R580, R588) -/

/-- START (R80, R500). -/
def State.startEvent (s : State) (kind : Nat) (failed : Option Bank) (pl : Nat) : State :=
  let b := s.sup.runBank.getD .a
  s.emitSt 0x0180 (leBytes 1 kind ++ leBytes 1 b.code ++ leBytes 1 ((failed.map Bank.code).getD 0xFF) ++ leBytes 1 pl ++
    leBytes 4 s.running.version)

/-- SERVICE_LEVEL for each change of the pin since the release (R48, R500), once core SB runs. -/
def State.serviceReport (s : State) : State :=
  if s.sbUp then
    s.sup.serviceDue.foldl (fun s l => s.emitSt 0x0185 (leBytes 1 (b2n l) ++ [0, 0, 0]))
      { s with sup := { s.sup with serviceDue := [] } }
  else s

/-- What core SB reports as it starts. -/
def State.startReports (s : State) (mainDiffer : Bool) : State :=
  let had7 := bit s.health.active 7
  let s := if !had7 && s.sup.hvMargin then s.raiseHealth 7 0xFF 0 0 else s
  let s := if !had7 && mainDiffer then s.raiseHealth 7 0xFF 1 0 else s
  let s := (s.healthIf s.setFail 8 0 0).healthIf (!s.time.xtalOk) 6 0 0
  let s := (s.slotReport).slotCheck
  let s := s.nlogReport.hsReport.serviceReport
  let s := s.healthIf (s.sq.st = .lock || s.sq.st = .latched) 17 s.sq.cause.code 0
  if s.health.retired = 0 then s
  else { s with health := { s.health with active := s.health.active ||| 0x400 }
                sup := { s.sup with replaceReq := true } }

/-- The configuration at a warm start: no recall, but the image's formats judge the active copy (R554, R577). -/
def State.warmRecall (s : State) : State :=
  match activeCopy s.store with
  | none => { s with store := { s.store with run := [], newer := false } }
  | some i =>
    let c := copyOf s.store i
    if s.running.fmtMin ≤ c.fmt && decide (c.fmt ≤ s.running.fmtMax) then
      { s with store := { s.store with run := c.cfg, newer := false } }
    else s.coldRecall

/-- CPORT as core SB finds it at its start. -/
def State.cportNow (s : State) : State :=
  { s with net := { s.net with cport := BitVec.ofNat 16 (bits s.netCmd 15 0), cportAfter := none } }

/-- What a Port counts or has learned since the cold start (R236, R243, R248, R250, R251, R308). -/
def Port.coldStart (p : Port) : Port :=
  { p with hold := false, test := none
           tc := { p.tc with attCnt := 0 }
           ct := { p.ct with therm := none }
           pp := { p.pp with rKnown := false, learned := none, calAt := none, calGot := none, imbDue := false, quiet := 0, dT := 0, dTc := 0, rejRun := 0, tWarn := false } }

/-- What a cold start does beside: claims end, causes that do not ask for replacement are released, fallback ends, the ports
are unopened, and the Palette is taken as recalled. -/
def State.coldStart (s : State) : State :=
  let s := s.forPorts fun n s => s.claimSet n none 4
  let s := { s with health := { s.health with active := s.health.active &&& replaceCauses } }.healthClear 14
  let s := s.forPorts fun n s =>
    (s.disablePort n).modPort n Port.coldStart
  let s := s.coldRecall
  let s := (s.ttCfgSet (s.cfgW 0x20)).cportNow
  s.twTakeFree.pointsLoad.shedStart

/-- Core SB starts from a bank (R74). -/
def State.startSb (s : State) (warm : Bool) (b' : Bank) (body : List Byte) (failed : Option Bank) (differ : Bool) : State :=
  let old := s
  let s := { s with
    core := Vector.ofFn fun c =>
      if h : c.val < 4 then (if warm && s.plat[(⟨c.val, h⟩ : PlatId)].fallback then VCore.reset else loadCore body c)
      else loadCore body c
    sup := { s.sup with primer := .done, runFlag := true, primerEver := true, runBank := some b', lastBank := some b' }
    setFail := !s.hostSetOk
    plat := if warm then s.plat
            else s.plat.map fun (k : Platform) => { k with fallback := false, dogs := [], takeBack := none }
    health := if warm then { s.health with warm := sat32 (s.health.warm + 1) } else s.health }
  let s := if warm then s
    else
      let s := if s.sup.retainedKept then s else s.loadCounters.logResume
      { s with health := { s.health with cold := sat32 (s.health.cold + 1) }, sup := { s.sup with retainedKept := true } }
  let s := (s.startEvent (b2n warm) failed 0xFF).linkBack
  let s := if warm then ((s.commitFound.warmRecall).cfgApply old none).cportNow else s.coldStart
  let s := (s.startReports differ).failsDue
  (s.forPorts fun n s => s.detachRun n).wearCheck

/-- Primer's service state (R78). -/
def State.toService (s : State) : State :=
  { s with sup := { s.sup with primer := .service, serviceReplace := true, runBank := none }
           setFail := !s.hostSetOk }

/-- A Platform core reloaded from the bank that runs (R76), unless WARN_N has stopped Primer (R79). Where that bank no longer
verifies the core stays down and its reload stays due; no other bank is tried (DESIGN CHOICE: R76 is silent; log entry
127). -/
def State.reloadOne (s : State) : State :=
  match s.sup.reload, s.hs.warn with
  | [], _ | _, true => s
  | k :: rest, false =>
    let r := s.verifyBank (s.sup.runBank.getD .a)
    if r.1 = 0 then
      let s := { s with sup := { s.sup with reload := rest } }
      (s.modCore (coreOf k) fun _ => loadCore r.2 (coreOf k)).startEvent 2 none k.val
    else s

/-- A fuse of the thermometer that reads blown at either reference counts as blown (R574). -/
def State.readThermo (s : State) (oneRef : BitVec 64) : State := { s with fuse := { s.fuse with arb := s.fuse.arb ||| oneRef } }

/-- A difference between the two reads of the main bank (R78, R574). -/
def mainDiffer (r : MainReads) : Bool := r.other || r.oneRef ≠ 0

/-- PRIMER_COMPLETION: Primer's last step, with what its reads of the main bank gave (R74-R80, R574). -/
def execPrimerCompletion (uncorr : Bool) (differ : MainReads) (s : State) : Host.Outcome State Fault Refusal :=
  .next (match s.sup.primer with
  | .running warm named =>
    if uncorr then s.toService
    else
      let s := s.readThermo differ.oneRef
      match s.chooseBank warm named with
      | none => s.toService
      | some (x, body, failed) =>
        let s := if named = some x then s.selWrite x else s
        s.startSb warm x body failed (mainDiffer differ)
  | .done => s.reloadOne
  | _ => s)

/-! ### SERVICE, the life-used counter, the end of a self-test -/

/-- SERVICE_LEVEL_CHANGE (R48, R500): after the release, a change of level is reported. -/
def execServiceLevelChange (level : Bool) (s : State) : Host.Outcome State Fault Refusal :=
  let due := if level ≠ s.sup.servicePin && s.sup.logicUp then s.sup.serviceDue ++ [level] else s.sup.serviceDue
  .next ({ s with sup := { s.sup with servicePin := level, serviceDue := due } } : State).serviceReport

/-- eˣ by its series, for |x| to 16: 24 terms at x / 16 (log entry 11). -/
def expQ (x : Rat) : Rat :=
  ((List.range 24).foldl (fun (a : Rat × Rat) i => (a.1 + a.2 * (x / 16) / (i + 1), a.2 * (x / 16) / (i + 1))) (1, 1)).1 ^ 16

/-- The hourly addition to the life-used counter at a die temperature in 1/16 °C, in 2⁻³² h (R592): exp((0.7 eV / k) ×
(1/368.15 K − 1/T)). -/
def lifeRate (t : Int) : Nat :=
  (roundFree (2 ^ 32 * expQ (7 / 10 / Config.boltzmann * (100 / 36815 - 1 / (t / 16 + 27315 / 100))))).toNat

/-- LIFE_HOUR (R586, R592). -/
def execLifeHour (t : Int) (s : State) : Host.Outcome State Fault Refusal :=
  .next (if s.sbUp then
    let x := s.health.lifePart + lifeRate t
    { s with health := { s.health with life := sat32 (s.health.life + x / 2 ^ 32), lifePart := x % 2 ^ 32 } }
  else s)

/-- A Port that passes is returned to the state it started from; a retired one returns to service (R583, R584). -/
def State.testPass (s : State) (n : PortId) (st : TcState) : State :=
  if bit s.health.retired n then
    let s := { s with health := { s.health with retired := s.health.retired &&& ~~~ BitVec.ofNat 24 (1 <<< n.val) } }
    let s := if s.health.retired = 0 then s.healthClear 10 else s
    (s.modTc n fun t => { t with opening := .closed }).shedStart
  else if st.unatt then s.toUnatt n (st = .unattSnk)
  else s.modTc n fun t => { t with opening := .closed }

/-- SELFTEST_DONE (R478, R496, R582-R584). -/
def execSelftestDone (n : PortId) (failed : BitVec 6) (s : State) : Host.Outcome State Fault Refusal :=
  .next (match s.port[n].test with
  | none => s
  | some (cmd, st) =>
    let s := s.modPort n fun p => { p with test := none, ms := { p.ms with tests := p.ms.tests ||| failed.zeroExtend 16 } }
    let s := match (List.range 6).find? fun i => bit failed i with
      | some t => s.retire n t s.time.ct
      | none => s.testPass n st
    s.complete cmd stOk (leBytes 4 failed.toNat))

end Sys2Proof.Machine
end

