-- ==== Sys2Proof/Machine/Protocol.lean ====
section
/-! DEFINITION. Command packets (chapters 15 and 17): the frames, the checks of R458, tags, and the order in which commands
are taken and begin. -/
namespace Sys2Proof.Machine

/-! ### Frames (R451, R455, R456) -/

/-- What a packet's bytes say; a field that is missing reads 0. -/
def parseOp (bs : List Byte) : BitVec 16 := if 2 ≤ bs.length then BitVec.ofNat 16 (le16 bs 0) else 0

def parsePacket (h : HostPort) (bs : List Byte) : Packet :=
  { host := h, tag := bs.getD 2 0, flags := bs.getD 3 0, target := BitVec.ofNat 16 (le16 bs 4),
    payload := (bs.drop 8).take (bs.length - 12) }

/-- The bytes of a packet. -/
def packetBytes (op : BitVec 16) (p : Packet) : List Byte :=
  let b := leBytes 2 op.toNat ++ [p.tag, p.flags] ++ leBytes 2 p.target.toNat ++ leBytes 2 p.payload.length ++ p.payload
  b ++ leBytes 4 (crc32c b).toNat

def replyBytes (r : Reply) : List Byte :=
  let b := [0x01, r.tag] ++ leBytes 2 r.status.toNat ++ leBytes 2 r.opcode.toNat ++ leBytes 2 r.payload.length ++ r.payload
  b ++ leBytes 4 (crc32c b).toNat

def eventBytes (e : Event) : List Byte :=
  let b := [0x02] ++ leBytes 1 (bits e.code 15 8) ++ leBytes 2 e.code.toNat ++ leBytes 4 e.ssn.toNat ++
    leBytes 8 e.ct.toNat ++ leBytes 2 e.source.toNat ++ [e.flags, e.tag] ++ leBytes 2 e.payload.length ++ e.payload
  b ++ leBytes 4 (crc32c b).toNat

/-! ### Steps 1 to 6 (R458, R475-R477, R497) -/

/-- Steps 1 and 2, on the bytes of a frame. -/
def frameCheck (bs : List Byte) : Option (BitVec 16) :=
  if bs.length < 12 || decide (1024 < le16 bs 6) || decide (bs.length ≠ 12 + le16 bs 6) then some stBadLength
  else if (crc32c (bs.take (8 + le16 bs 6))).toNat ≠ le32 bs (8 + le16 bs 6) then some stBadCrc
  else none

/-- Step 3: VER, the reserved FLAGS bits and TAG bit 7. -/
def headerOk (p : Packet) : Bool := p.flags &&& 0xFE = 0x40 && !bit p.tag 7

/-- CHECK (R452, R461). -/
def checkOnly (p : Packet) : Bool := bit p.flags 0

/-- The opcodes Primer's service state answers (R78, R497). -/
def serviceOp (op : BitVec 16) : Bool := op = 0x0100 || (0x0710 ≤ op.toNat && decide (op.toNat ≤ 0x0714))

/-- Step 4: the cores that serve TARGET run. -/
def State.coresServe (s : State) (op target : BitVec 16) : Bool :=
  if s.sup.primer = .service then serviceOp op
  else if !s.sbUp || s.sup.linkSilent then false
  else match Obj.ofTarget target with
    | none | some .station => true
    | some (.plat k) => (s.core[coreOf k]).up || s.plat[k].fallback
    | some (.port n) => ((s.core[coreOf (platOf n)]).up || s.plat[platOf n].fallback) && !s.notBack n

/-- Steps 3 to 6. -/
def State.frontCheck (s : State) (op : BitVec 16) (p : Packet) : Option (BitVec 16) :=
  if !headerOk p then some stBadParam
  else if !s.coresServe op p.target then some stHoldover
  else if s.quota p.host ≤ s.host[p.host.ix].held.length then some stNoTag
  else if s.host[p.host.ix].held.contains p.tag then some stBadParam
  else none

/-! ### The opcodes (R480, R482-R498) -/

/-- What steps 7 to 12 need of an opcode: kinds of target (0 Station, 1 Platform, 2 Port), class (3 MAINTAIN), whether it
needs the claim, and the lengths it takes. -/
structure OpInfo where
  kinds : List Nat
  cls : Nat
  claim : Bool
  len : Nat → Bool

def lenIs (k : Nat) : Nat → Bool := fun n => n = k
def lenIn (a b : Nat) : Nat → Bool := fun n => a ≤ n && decide (n ≤ b)

def opInfo (op : BitVec 16) : Option OpInfo :=
  let row (kinds : List Nat) (cls : Nat) (claim : Bool) (len : Nat → Bool) : Option OpInfo :=
    some { kinds := kinds, cls := cls, claim := claim, len := len }
  match op.toNat with
  | 0x0100 => row [0] 0 false (lenIs 0)
  | 0x0110 | 0x0111 => row [0] 1 false (lenIs 4)
  | 0x0112 => row [0] 2 false (lenIs 4)
  | 0x0118 => row [0] 0 false (lenIs 1)
  | 0x0120 => row [0] 2 false (lenIs 0)
  | 0x0101 | 0x0201 | 0x0301 | 0x0501 | 0x0601 =>
    row [0, 1, 2] 0 false fun n => 2 ≤ n && decide (n ≤ 128) && n % 2 = 0
  | 0x0102 | 0x0202 | 0x0302 | 0x0502 | 0x0602 =>
    row [0, 1, 2] 0 false fun n => 12 ≤ n && decide (n ≤ 192) && n % 12 = 0
  | 0x0210 | 0x0220 => row [2] 1 true (lenIs 1)
  | 0x0230 => row [2] 2 true (lenIs 0)
  | 0x0300 => row [0] 0 false (lenIs 0)
  | 0x0303 => row [0] 2 false (lenIs 4)
  | 0x0304 => row [0] 0 false (lenIs 1)
  | 0x0305 => row [0] 0 false (lenIs 2)
  | 0x0400 => row [0] 0 false (lenIs 0)
  | 0x0410 => row [0] 0 false (lenIs 4)
  | 0x0411 => row [0] 2 false (lenIn 5 1020)
  | 0x0420 => row [0] 0 false (lenIs 6)
  | 0x0421 => row [0] 1 false (lenIn 5 1020)
  | 0x0422 => row [0] 2 false (lenIs 1)
  | 0x0430 | 0x0431 => row [0] 3 false (lenIs 0)
  | 0x0432 => row [0] 3 false (lenIs 1)
  | 0x0500 | 0x0503 | 0x0510 => row [0] 0 false (lenIs 0)
  | 0x0511 => row [1] 0 false (lenIs 8)
  | 0x0512 => row [1] 1 false (lenIs 2)
  | 0x0513 => row [2] 1 true (lenIs 0)
  | 0x0514 => row [1] 1 true (lenIs 2)
  | 0x0610 => row [0] 2 false (lenIs 0)
  | 0x0611 => row [0] 2 false (lenIs 2)
  | 0x0700 => row [0] 0 false (lenIs 0)
  | 0x0701 => row [0, 1] 2 false (lenIn 5 1020)
  | 0x0702 => row [0, 1] 2 false (lenIs 4)
  | 0x0703 => row [0, 1] 2 false (lenIs 0)
  | 0x0710 => row [0] 0 false (lenIs 0)
  | 0x0711 => row [0] 3 false (lenIn 7 1020)
  | 0x0712 | 0x0713 => row [0] 3 false (lenIs 2)
  | 0x0714 => row [0] 3 false (lenIs 0)
  | 0x0800 => row [0] 0 false (lenIs 0)
  | 0x0801 => row [0] 0 false (lenIs 4)
  | 0x0802 => row [0] 3 false (lenIs 0)
  | 0x0803 => row [0, 2] 3 false (lenIs 0)
  | 0x0804 => row [0, 2] 0 false (lenIs 0)
  | _ => none

/-- WRITE_REGS of any group. -/
def isWriteRegs (op : BitVec 16) : Bool :=
  op = 0x0102 || op = 0x0202 || op = 0x0302 || op = 0x0502 || op = 0x0602

/-! ### The entries of WRITE_REGS (R483) -/

structure RegWrite where
  rid : Nat
  zero : Nat
  value : Word
  mask : Word
  deriving DecidableEq

/-- The whole entries of a payload. -/
def entriesOf (bs : List Byte) : List RegWrite :=
  (List.range (bs.length / 12)).map fun i =>
    { rid := le16 bs (12 * i), zero := le16 bs (12 * i + 2), value := BitVec.ofNat 32 (le32 bs (12 * i + 4)),
      mask := BitVec.ofNat 32 (le32 bs (12 * i + 8)) }

/-- The RW bits of a register that has P fields. -/
def RegInfo.rw (r : RegInfo) : Word :=
  match r.pal with
  | none => 0
  | some off => if r.kind = 2 then (portWords.getD (off / 4) (0, 0)).2 else (cfgWordInfo off).2

/-- The entry writes a P field; it clears W1C bits. -/
def RegWrite.pal (e : RegWrite) : Bool := (regInfo e.rid).any fun r => e.mask &&& r.rw ≠ 0
def RegWrite.clears (e : RegWrite) : Word := ((regInfo e.rid).map fun r => r.w1c &&& e.mask &&& e.value).getD 0

/-- The class the entry needs, and whether it needs the claim. -/
def RegWrite.cls (e : RegWrite) : Nat :=
  match regInfo e.rid with
  | none => 0
  | some r => if e.mask &&& r.rw ≠ 0 then 2 else if e.mask &&& r.w1c ≠ 0 then r.cls else 0
def RegWrite.claim (e : RegWrite) : Bool := (regInfo e.rid).any fun r => e.mask &&& r.w1c ≠ 0 && r.cls = 1

/-! ### Steps 7 to 12 -/

/-- The class of a command, its highest entry's for WRITE_REGS. -/
def cmdClass (op : BitVec 16) (i : OpInfo) (p : Packet) : Nat :=
  if isWriteRegs op then (entriesOf p.payload).foldl (fun c e => max c e.cls) 0 else i.cls

/-- The port whose claim a command needs: the one TARGET names, or the one a Sketch slot holds (R494). -/
def State.claimPort (s : State) (op : BitVec 16) (i : OpInfo) (p : Packet) : Option PortId :=
  if isWriteRegs op && !(entriesOf p.payload).any RegWrite.claim then none
  else match Obj.ofTarget p.target with
    | some (.port n) => if i.claim || isWriteRegs op then some n else none
    | some (.plat k) =>
      if i.claim then
        match p.payload with
        | b :: _ => if h : b.toNat < 8 then (s.plat[k].slots[b.toNat]).map Sketch.port else none
        | [] => none
      else none
    | _ => none

/-- The host port has the class (R402, R403). -/
def State.hasClass (s : State) (h : HostPort) (c : Nat) : Bool :=
  if c = 3 then s.maintain h else decide (c ≤ s.classOf h)

/-- Steps 7 to 12: the status of the first that fails. -/
def State.coreCheck (s : State) (op : BitVec 16) (p : Packet) : Option (BitVec 16) :=
  match opInfo op with
  | none => some stBadOpcode
  | some i =>
    match Obj.ofTarget p.target with
    | none => some stBadParam
    | some o =>
      let served := match o with
        | .port n => bit s.fuse.present n && (op = 0x0803 || !bit s.health.retired n)
        | _ => true
      if !i.kinds.contains o.kind then some stBadOpcode
      else if !served then some stPortRetired
      else if !s.hasClass p.host (cmdClass op i p) then some stDenied
      else if (s.claimPort op i p).any fun n => s.claim[n] ≠ some p.host then some stOwned
      else if !i.len p.payload.length then some stBadLength
      else none

/-! ### Arrival (R410-R412, R419, R458, R460) -/

/-- The order of R419: by tick, then by rank, then as they came. -/
def State.inboxAdd (s : State) (c : Held) : List Held → List Held
  | [] => [c]
  | x :: t => if x.stamp = c.stamp && decide (s.rank c.p.host < s.rank x.p.host) then c :: x :: t else x :: s.inboxAdd c t

/-- Where the reply to a NET frame goes (R473). -/
abbrev Origin := BitVec 48 × BitVec 32 × BitVec 16

/-- The reply to a command that takes no tag (R460); TAG bit 7 is 0 (R455). -/
def State.refuseFront (s : State) (op : BitVec 16) (p : Packet) (from' : Option Origin) (st : BitVec 16) : State :=
  let r : Reply := { tag := p.tag &&& 0x7F, status := st, opcode := op, payload := [] }
  match from' with
  | none => s.queueReply p.host r
  | some o => { s with net := { s.net with urgent := s.net.urgent ++ [.reply r o.1 o.2.1 o.2.2] } }

/-- A command that has passed steps 1 and 2 arrives. One whose opcode does not exist is answered at once. -/
def State.arrive (s : State) (op : BitVec 16) (p : Packet) (from' : Option Origin) : State :=
  match s.frontCheck op p with
  | some st => s.refuseFront op p from' st
  | none =>
    let s := match from' with
      | none => s
      | some o => { s with net := { s.net with origin := s.net.origin ++ [(p.tag, o.1, o.2.1, o.2.2)] } }
    let s := s.modHost p.host fun x => { x with held := x.held ++ [p.tag] }
    if (opInfo op).isNone then s.replyTag p op stBadOpcode []
    else { s with inbox := s.inboxAdd { op := op, p := p, stamp := s.time.ct } s.inbox }

/-- The bytes a transport has carried. -/
def State.receive (s : State) (h : HostPort) (bs : List Byte) (from' : Option Origin) : State :=
  if !s.hostOn h then s
  else
    let p := parsePacket h bs
    match frameCheck bs with
    | some st => s.refuseFront (parseOp bs) p from' st
    | none => s.arrive (parseOp bs) p from'

/-! ### Commands that wait (R461, R465, R493) -/

/-- The command writes to or acts on its TARGET, rather than reads it. -/
def Held.acts (c : Held) : Bool :=
  !checkOnly c.p && (isWriteRegs c.op || (opInfo c.op).any fun i => i.cls ≠ 0) &&
  match Obj.ofTarget c.p.target with
  | some (.port _) | some (.plat _) => true
  | _ => false

/-- The command changes the Palette (R493). -/
def Held.palette (c : Held) : Bool :=
  !checkOnly c.p &&
  (c.op = 0x0411 || (c.op = 0x0432 && c.p.payload = [2]) || (isWriteRegs c.op && (entriesOf c.p.payload).any RegWrite.pal))

/-- One Port, or a Port and the Platform that holds it. -/
def sameObject (a b : BitVec 16) : Bool :=
  match Obj.ofTarget a, Obj.ofTarget b with
  | some (.port n), some (.port m) => n = m
  | some (.port n), some (.plat k) | some (.plat k), some (.port n) => platOf n = k
  | _, _ => false

/-- `c` waits for `d`, which was there before it. -/
def Held.behind (c d : Held) : Bool :=
  (c.acts && d.acts && sameObject c.p.target d.p.target) || (c.palette && d.palette)

/-- The command reads a page that is being programmed, and waits until the program ends (R542). -/
def State.readsProg (s : State) (c : Held) : Bool :=
  !checkOnly c.p && s.store.prog.any fun r =>
    (c.op = 0x0420 && (userRange (le32 c.p.payload 0) (le16 c.p.payload 4)).contains r.page) ||
    (c.op = 0x0410 && s.store.inActive r.page) || (c.op = 0x0801 && 128 ≤ r.page && decide (r.page < 256))

/-- A command waits for those accepted and for those that wait before it. -/
def State.mustWait (s : State) (before : List Held) (c : Held) : Bool :=
  (s.active ++ before).any (c.behind ·) || (c.palette && s.store.commit.isSome) || s.readsProg c

/-! ### A command is taken -/

/-- Steps 13 and 14 of an opcode, as the status of the first that fails. -/
abbrev Judge := State → Packet → Option (BitVec 16)

/-- The effect of a command that has passed its checks, its reply included. -/
abbrev Effect := State → Held → State

/-- Steps 7 to 14, and the effect. -/
def State.begin' (s : State) (c : Held) (judge : Judge) (effect : Effect) : State :=
  match (s.coreCheck c.op c.p).or (judge s c.p) with
  | some st => s.replyTag c.p c.op st []
  | none => effect s c

/-- The command at the front of the inbox. -/
def State.takeFront (s : State) (c : Held) (judge : Judge) (effect : Effect) : State :=
  let s := { s with inbox := s.inbox.tail }
  if checkOnly c.p then s.replyTag c.p c.op (((s.coreCheck c.op c.p).or (judge s c.p)).getD stOk) []
  else if s.mustWait s.waiting c then { s with waiting := s.waiting ++ [c] }
  else s.begin' c judge effect

/-- The host port by which a row brings a command, if it does. -/
def arrivalHost : Instr → Option HostPort
  | .identity p | .claim p | .release p | .claimBreak p | .subscribe p | .restart p | .readRegs _ p | .writeRegs _ p 
  | .swap p | .altMode p | .pathClear p | .readTime p | .setEpoch p | .readChannel p | .readEntries p | .storeInfo p 
  | .paletteRead p | .paletteWrite p | .userRead p | .userWrite p | .userProtect p | .scrub p | .wearReset p | .format p 
  | .energySnapshot p | .hkRead p | .sketchList p | .sketchRead p | .sketchPush p | .sketchTrigger p | .sketchRelease p 
  | .seqClear p | .seqShutdown p | .kernelList p | .kernelWrite p | .kernelStart p | .kernelUnload p | .imageInfo p 
  | .imageWrite p | .imageVerify p | .bankSelect p | .rollbackAdvance p | .healthStatus p | .logRead p | .logClear p 
  | .odometerRead p | .selftest p _ _ _ => some p.host
  | .send bus => some bus.host
  | .localSend _ _ => some .ls
  | .netFrame _ => some .net
  | _ => none

/-- A command waits within its tick of arrival for those of higher-ranked host ports that are still to arrive in it (R419,
R427; log entry 79). -/
def State.outranked (s : State) (c : Held) : Bool :=
  c.stamp = s.time.ct && s.ahead fun i => (arrivalHost i).any fun h => decide (s.rank h < s.rank c.p.host)

/-- An opcode's row: the command arrives now, unless a transport has brought it, and is taken when its turn has come, here or
at COMMAND_BEGIN. A NET command comes by NET_FRAME alone. -/
def opcodeRow (op : BitVec 16) (judge : Judge) (effect : Effect) (p : Packet) (s : State) :
    Host.Outcome State Fault Refusal :=
  let s :=
    if (s.inbox.any fun c => c.op = op && c.p = p) || p.host = .net || !s.hostOn p.host then s
    else if 1024 < p.payload.length then s.refuseFront op p none stBadLength
    else s.arrive op p none
  .next (match s.inbox with
    | c :: _ => if c.op = op && c.p = p && !s.outranked c then s.takeFront c judge effect else s
    | [] => s)

/-- The reply OK with its result. -/
def State.ok (s : State) (c : Held) (result : List Byte) : State := s.replyTag c.p c.op stOk result

/-- A parameter that fails step 13. -/
def badIf (b : Bool) : Option (BitVec 16) := if b then some stBadParam else none

end Sys2Proof.Machine
end

