-- ==== Sys2Proof/Machine/Transport.lean ====
section
/-! DEFINITION. The transports: the two-wire windows (chapter 16), LOCAL and NET (chapter 17), the lane's frames (R393), and
OVERFLOW (R425). -/
namespace Sys2Proof.Machine

/-! ### What waits (R437, R440, R468) -/

/-- The events of a host port that can be read: those of ticks that have ended, whose SSNs stand (R422, R423; log entry 25). -/
def State.settled (s : State) (h : HostPort) : List Event :=
  s.host[h.ix].events.takeWhile fun e => decide (s.seqTick.length < (s.ssn - e.ssn).toNat)

/-- A reply, an event waits beyond the one whose DONE has been written. -/
def State.rplRdy (s : State) (h : HostPort) (done : Bool) : Bool := b2n done < s.host[h.ix].replies.length
def State.evtRdy (s : State) (h : HostPort) (done : Bool) : Bool := b2n done < (s.settled h).length

/-- HOLD: Front ends are in hold-over. -/
def State.holdFlag (s : State) : Bool := s.port.any fun p => p.hold

/-- The oldest reply and event of a host port. -/
def State.rplFrame (s : State) (h : HostPort) : List Byte := (s.host[h.ix].replies.head?.map replyBytes).getD []
def State.evtFrame (s : State) (h : HostPort) : List Byte := ((s.settled h).head?.map eventBytes).getD []

/-- What the buffers of a two-wire port show: past an entry whose DONE has been written, the next one (R440). -/
def State.rplShown (s : State) (bus : TwBus) : List Byte :=
  ((s.host[bus.host.ix].replies.drop (b2n s.tw[bus.ix].rplDone)).head?.map replyBytes).getD []
def State.evtShown (s : State) (bus : TwBus) : List Byte :=
  (((s.settled bus.host).drop (b2n s.tw[bus.ix].evtDone)).head?.map eventBytes).getD []

/-- The reply, the event shown has been read. -/
def State.popReply (s : State) (h : HostPort) : State :=
  (s.modHost h fun x => { x with replies := x.replies.tail }).cportTake
def State.popEvent (s : State) (h : HostPort) : State :=
  if (s.settled h).isEmpty then s else s.modHost h fun x => { x with events := x.events.tail }

/-! ### Two-wire: addresses, pins, windows (R430-R437, R441) -/

def ptrMode (t : TwoWire) : Bool := bit t.cfg 31
def pecOn (t : TwoWire) : Bool := bit t.cfg 28
def tmoOn (t : TwoWire) : Bool := bit t.cfg 27
def araEn (t : TwoWire) : Bool := bit t.cfg 26

/-- The 7-bit target address (R430, R431); none before SLOT_ID is latched. -/
def State.twAddr (s : State) : TwBus → Option Nat
  | .aux => some (bits s.tw[2].cfg 22 16)
  | _ => s.sup.slotId.map fun i => if i.toNat < 56 then 0x40 + i.toNat else 0x38 + (i.toNat - 56)

/-- ALERT_N is asserted (R441, R442). -/
def State.alertN (s : State) (bus : TwBus) : Bool :=
  let t := s.tw[bus.ix]
  s.hostOn bus.host && araEn t && !t.ara &&
  ((s.rplRdy bus.host t.rplDone && t.alrtRpl) || (s.evtRdy bus.host t.evtDone && t.alrtEvt))

/-- The windows of R433. -/
def listedWindow (w : Nat) : Bool :=
  w = 0 || (0x10 ≤ w && decide (w ≤ 0x14)) || (0x20 ≤ w && decide (w ≤ 0x24)) || w = 0x30 || w = 0x31

/-- Byte `off` of the control window. -/
def State.twControl (s : State) (bus : TwBus) (off : Nat) : Nat :=
  let t := s.tw[bus.ix]
  let h := bus.host
  match off with
  | 0x00 => 0x48
  | 0x01 => 0x24
  | 0x02 => 0x10
  | 0x03 => h.ix.val
  | 0x04 => 64 * b2n t.tmo + 32 * b2n t.pecErr + 16 * b2n t.cmdErr + 8 * b2n s.holdFlag + 4 * b2n (s.evtRdy h t.evtDone) +
      2 * b2n (s.rplRdy h t.rplDone) + b2n t.cmdFree
  | 0x06 => t.cmdLen.toNat % 256
  | 0x07 => t.cmdLen.toNat / 256
  | 0x0A => (s.rplShown bus).length % 256
  | 0x0B => (s.rplShown bus).length / 256
  | 0x0C => (s.evtShown bus).length % 256
  | 0x0D => (s.evtShown bus).length / 256
  | 0x0E => 2 * b2n t.alrtEvt + b2n t.alrtRpl
  | _ => 0

/-- A byte of a window. Frames lie 255 bytes to a window (R466). -/
def State.twByte (s : State) (bus : TwBus) (win off : Nat) : Byte :=
  let t := s.tw[bus.ix]
  if off = 0xFF then BitVec.ofNat 8 (if ptrMode t then win else t.winsel.toNat)
  else if win = 0 then BitVec.ofNat 8 (s.twControl bus off)
  else if 0x10 ≤ win && decide (win ≤ 0x14) then Mem.get zeroByte t.buf (255 * (win - 0x10) + off)
  else if 0x20 ≤ win && decide (win ≤ 0x24) then (s.rplShown bus).getD (255 * (win - 0x20) + off) 0
  else if win = 0x30 || win = 0x31 then (s.evtShown bus).getD (255 * (win - 0x30) + off) 0
  else 0xFF

/-! ### The pointer (R434, R435) -/

def nextNative (p : Nat) : Nat := if p = 0xFF then 0xFF else if p = 0xFE then 0 else p + 1
def nextWrite (compat : Bool) (p : Nat) : Nat := if compat then p / 32 * 32 + (p + 1) % 32 else nextNative p
def nextRead (compat : Bool) (p : Nat) : Nat := if compat then (p + 1) % 65536 else nextNative p

/-- The window a pointer reaches. -/
def TwoWire.win (t : TwoWire) (p : Nat) : Nat := if ptrMode t then p / 256 else t.winsel.toNat

/-! ### Writes (R433-R439, R443) -/

/-- A doorbell byte: DONE bits act where there is something unread; SEND needs CMD_FREE and a CMD_LEN of 1 to 1275. -/
def TwoWire.ring (t : TwoWire) (b : Byte) (rpl evt : Bool) : TwoWire :=
  let t := { t with rplDone := t.rplDone || (bit b 1 && rpl), evtDone := t.evtDone || (bit b 2 && evt) }
  if bit b 0 then
    if t.cmdFree && decide (1 ≤ t.cmdLen.toNat) && decide (t.cmdLen.toNat ≤ 1275) then
      { t with send := true, cmdFree := false }
    else { t with cmdErr := true }
  else t

/-- One written byte; `rpl` and `evt`: a reply, an event is unread. -/
def TwoWire.put (t : TwoWire) (p : Nat) (b : Byte) (rpl evt : Bool) : TwoWire :=
  let win := t.win p
  let off := p % 256
  if off = 0xFF then (if ptrMode t || !listedWindow b.toNat then t else { t with winsel := b })
  else if win = 0 then
    match off with
    | 0x04 => { t with tmo := t.tmo && !bit b 6, pecErr := t.pecErr && !bit b 5, cmdErr := t.cmdErr && !bit b 4 }
    | 0x06 => { t with cmdLen := BitVec.ofNat 11 (t.cmdLen.toNat / 256 * 256 + b.toNat) }
    | 0x07 => { t with cmdLen := BitVec.ofNat 11 (b.toNat % 8 * 256 + t.cmdLen.toNat % 256) }
    | 0x08 => t.ring b rpl evt
    | 0x0E => { t with alrtEvt := bit b 1, alrtRpl := bit b 0 }
    | _ => t
  else if 0x10 ≤ win && decide (win ≤ 0x14) then
    if t.cmdFree then { t with buf := Mem.set zeroByte t.buf (255 * (win - 0x10) + off) b } else { t with cmdErr := true }
  else t

def TwoWire.putAll (rpl evt : Bool) : TwoWire → Nat → List Byte → TwoWire × Nat
  | t, p, [] => (t, p)
  | t, p, b :: bs => TwoWire.putAll rpl evt (t.put p b rpl evt) (nextWrite (ptrMode t) p) bs

def State.modTw (s : State) (bus : TwBus) (f : TwoWire → TwoWire) : State := { s with tw := s.tw.set bus.ix (f s.tw[bus.ix]) }

/-- A bus in use is not free (R445). -/
def State.twBusy (s : State) (bus : TwBus) : State :=
  let s := if bus = .aux then { s with points := { s.points with busFree := false } } else s
  s.modTw bus fun t => { t with free := false }

/-- A transfer that the port answers: its bus is not free, and at its STOP a port that has won the ARA may alert again (R442). -/
def State.twUsed (s : State) (bus : TwBus) (stop : Bool) : State :=
  (s.twBusy bus).modTw bus fun t => { t with ara := t.ara && !stop, pre := [] }

/-- The bytes of a write that take effect: pointer and data. -/
def State.twEffect (s : State) (bus : TwBus) (bs : List Byte) : State :=
  let h := bus.host
  let rpl := !s.host[h.ix].replies.isEmpty
  let evt := !(s.settled h).isEmpty
  s.modTw bus fun t =>
    match ptrMode t, bs with
    | false, p :: d =>
      let r := TwoWire.putAll rpl evt t p.toNat d
      { r.1 with ptr := BitVec.ofNat 16 r.2 }
    | true, hi :: lo :: d =>
      let r := TwoWire.putAll rpl evt t (256 * hi.toNat + lo.toNat) d
      { r.1 with ptr := BitVec.ofNat 16 r.2 }
    | _, _ => t

/-- TWO_WIRE_WRITE: 256 bytes at most after the pointer; a transfer that ends in the middle of a byte, and one whose PEC fails,
has no effect. -/
def execTwoWireWrite (bus : TwBus) (bytes : List Byte) (fin : TwEnd) (s : State) : Host.Outcome State Fault Refusal :=
  match s.twAddr bus with
  | none => .next s
  | some a =>
    if !s.hostOn bus.host then .next s
    else
      let t := s.tw[bus.ix]
      let got := bytes.take ((if ptrMode t then 2 else 1) + 256)
      let addr : Byte := BitVec.ofNat 8 (2 * a)
      let s := s.twUsed bus (fin ≠ .restart)
      .next (match fin with
      | .midByte => s
      | .restart => (s.twEffect bus got).modTw bus fun x => { x with pre := t.pre ++ addr :: got }
      | .stop =>
        if pecOn t && !got.isEmpty then
          if crc8 (t.pre ++ addr :: got.dropLast) = got.getLastD 0 then s.twEffect bus got.dropLast
          else s.modTw bus fun x => { x with pecErr := true }
        else s.twEffect bus got)

/-! ### Reads (R434, R435, R443) -/

/-- So many bytes from the pointer, and the pointer after them. -/
def State.twRun (s : State) (bus : TwBus) : Nat → Nat → List Byte × Nat
  | 0, p => ([], p)
  | k + 1, p =>
    let t := s.tw[bus.ix]
    let r := s.twRun bus k (nextRead (ptrMode t) p)
    (s.twByte bus (t.win p) (p % 256) :: r.1, r.2)

/-- The count of a block read. -/
def blockCount (compat : Bool) (p : Nat) : Nat := min 32 (if compat then 32 - p % 32 else 0xFF - p % 256)

/-- TWO_WIRE_READ: with PEC, a count, the data and the PEC, and 0xFF after it. -/
def execTwoWireRead (bus : TwBus) (count : Nat) (s : State) : Host.Outcome State Fault Refusal :=
  match s.twAddr bus with
  | none => .next s
  | some a =>
    if !s.hostOn bus.host then .next s
    else
      let t := s.tw[bus.ix]
      let p := t.ptr.toNat
      let k := if pecOn t then blockCount (ptrMode t) p else count
      let r := s.twRun bus k p
      let body : List Byte := BitVec.ofNat 8 k :: r.1
      let sent := if pecOn t then
          (body ++ [crc8 (t.pre ++ BitVec.ofNat 8 (2 * a + 1) :: body)] ++ List.replicate count 0xFF).take count
        else r.1
      .next ((s.twUsed bus true).modTw bus fun x => { x with ptr := BitVec.ofNat 16 r.2, out := sent })

/-- ALERT_RESPONSE: a read from 0x0C (R442). -/
def execAlertResponse (bus : TwBus) (won : Bool) (s : State) : Host.Outcome State Fault Refusal :=
  match s.twAddr bus with
  | none => .next s
  | some a =>
    let b : Byte := BitVec.ofNat 8 (2 * a)
    .next (if s.alertN bus && won then
      (s.twBusy bus).modTw bus fun t => { t with ara := true, out := b :: (if pecOn t then [crc8 [0x19, b]] else []) }
    else s)

/-- TWO_WIRE_TIMEOUT: SCL has been low for 28 ms (R444), so the bus is not free. -/
def execTwoWireTimeout (bus : TwBus) (s : State) : Host.Outcome State Fault Refusal :=
  let s := s.twBusy bus
  .next (if s.hostOn bus.host && tmoOn s.tw[bus.ix] then
    s.modTw bus fun t => { t with tmo := true, pre := [] }
  else s)

/-- BUS_FREE: changed words take effect, whether or not core SB runs (R445-R447). -/
def execBusFree (bus : TwBus) (s : State) : Host.Outcome State Fault Refusal :=
  .next (if s.sup.logicUp then
    let s := s.modTw bus fun t => { t with pre := [], free := true }
    let s := if bus = .aux then { s with points := { s.points with busFree := true, sclStuck := false } } else s
    if s.tw[bus.ix].due then s.twTake bus.ix else s
  else s)

/-! ### The doorbells (R438-R440) -/

def execRplDone (bus : TwBus) (s : State) : Host.Outcome State Fault Refusal :=
  .next (if s.tw[bus.ix].rplDone then (s.modTw bus fun t => { t with rplDone := false }).popReply bus.host else s)

/-- EVT_DONE, after an RPL_DONE of the same write. -/
def execEvtDone (bus : TwBus) (s : State) : Host.Outcome State Fault Refusal :=
  .next (if s.tw[bus.ix].evtDone && !s.tw[bus.ix].rplDone then
    (s.modTw bus fun t => { t with evtDone := false }).popEvent bus.host
  else s)

/-- SEND, after the DONE bits: the packet is copied, and the command buffer is free again. -/
def execSend (bus : TwBus) (s : State) : Host.Outcome State Fault Refusal :=
  let t := s.tw[bus.ix]
  .next (if t.send && !t.rplDone && !t.evtDone then
    (s.modTw bus fun t => { t with send := false, cmdFree := true }).receive bus.host
      (Mem.read zeroByte t.buf 0 t.cmdLen.toNat) none
  else s)

/-! ### LOCAL (R467-R471) -/

/-- LS_IRQ_N is asserted: a reply or an event waits (R471). The 5 µs within which the pin follows are left out; a port
sealed at NONE drives nothing (R404). -/
def State.lsIrqN (s : State) : Bool := s.hostOn .ls && (s.rplRdy .ls false || s.evtRdy .ls false)

/-- The status byte. -/
def State.localStatus (s : State) : Byte :=
  BitVec.ofNat 8 (0x40 + 32 * b2n s.loc.lastErr + 16 * b2n s.holdFlag + 8 * b2n (s.evtRdy .ls false) +
    4 * b2n (s.rplRdy .ls false) + 2 * b2n s.loc.cmdFree)

/-- What the Station sends in a transaction that is not discarded. -/
def State.localOut (s : State) (bs : List Byte) : State :=
  { s with loc := { s.loc with lastErr := false, out := s.localStatus :: bs } }

/-- STATUS. -/
def execStatus (s : State) : Host.Outcome State Fault Refusal :=
  .next (if s.hostOn .ls then s.localOut [] else s)

/-- LOCAL_SEND. CMD_FREE returns with the next tick. Any other transaction that is discarded stands here as one whose last byte
was not whole: it has the same effect (R469; log entry 162). -/
def execLocalSend (bytes : List Byte) (clean : Bool) (s : State) : Host.Outcome State Fault Refusal :=
  .next (if !s.hostOn .ls then s
  else
    let sent := List.replicate bytes.length 0xFF
    if !clean || !s.loc.cmdFree || decide (1036 < bytes.length) then
      { s with loc := { s.loc with lastErr := true, out := s.localStatus :: sent } }
    else
      let s := s.localOut sent
      ({ s with loc := { s.loc with cmdFree := false } } : State).receive .ls bytes none)

/-- N, the entry, and 0xFF after it, as far as they are clocked. -/
def entryOut (frame : List Byte) (clocked : Nat) : List Byte :=
  (leBytes 2 frame.length ++ frame ++ List.replicate clocked 0xFF).take clocked

/-- A read of an entry, with so many bits clocked after the instruction: its bytes, and whether it has been consumed. One that
ends inside a byte is discarded (R469, R470). -/
def State.localRead (s : State) (frame : List Byte) (clocked : Nat) : State × Bool :=
  let out := entryOut frame (clocked / 8)
  if clocked % 8 ≠ 0 then ({ s with loc := { s.loc with lastErr := true, out := s.localStatus :: out } }, false)
  else (s.localOut out, !frame.isEmpty && decide (2 + frame.length ≤ clocked / 8))

/-- READ_REPLY. -/
def execReadReply (clocked : Nat) (s : State) : Host.Outcome State Fault Refusal :=
  .next (if !s.hostOn .ls then s
  else
    let r := s.localRead (s.rplFrame .ls) clocked
    if r.2 then r.1.popReply .ls else r.1)

/-- READ_EVENT. -/
def execReadEvent (clocked : Nat) (s : State) : Host.Outcome State Fault Refusal :=
  .next (if !s.hostOn .ls then s
  else
    let r := s.localRead (s.evtFrame .ls) clocked
    if r.2 then r.1.popEvent .ls else r.1)

/-! ### NET (R472, R473) -/

/-- NET_FRAME: a command in a datagram. -/
def execNetFrame (f : NetFrame) (s : State) : Host.Outcome State Fault Refusal :=
  .next (if s.net.link && s.net.cport ≠ 0 && f.fcsOk && f.dstMac = s.netSmac && !f.options && !f.fragment &&
      f.dstIp = s.netSip && f.dstPort = s.net.cport && f.udpSumOk then
    s.receive .net f.payload (some (f.srcMac, f.srcIp, f.srcPort))
  else s)

/-- The oldest entry of a tag, and the list without it. -/
def takeOrigin (tag : Byte) : List (Byte × Origin) → Option Origin × List (Byte × Origin)
  | [] => (none, [])
  | x :: t => if x.1 = tag then (some x.2, t) else
    let r := takeOrigin tag t
    (r.1, x :: r.2)

/-! ### Frames on the lane (R393, R399) -/

/-- A push has ended: its command completes with the frames sent. -/
def State.pushEnd (s : State) (k : PlatId) : State :=
  match s.plat[k].push with
  | none => s
  | some (_, sent, cmd) =>
    (s.modPlat k fun p => { p with push := none, pushCut := false }).complete cmd stOk (leBytes 1 sent)

/-! ### The bytes of a frame on the lane (R9, R387, R389, R392, R397, R472, R473) -/

/-- Bytes in network order, as the headers of Ethernet II, IPv4 and UDP have them (R9). -/
def beBytes (k x : Nat) : List Byte := (leBytes k x).reverse

/-- The sum of the 16-bit words of a header, in network order. -/
def headerSum : List Byte → Nat
  | a :: b :: r => 256 * a.toNat + b.toNat + headerSum r
  | [a] => 256 * a.toNat
  | [] => 0

/-- The header checksum of IPv4: the complement of the sum, its carries added back in. -/
def headerCheck (bs : List Byte) : Nat :=
  let x := headerSum bs
  let y := x % 65536 + x / 65536
  65535 - (y % 65536 + y / 65536)

/-- An IPv4 header without options: DSCP, ECN 0, identification 0, DF, TTL, protocol 17, checksum, addresses (R387). -/
def ipHeader (ctl src dst : Word) (len : Nat) : List Byte :=
  let a := [0x45, BitVec.ofNat 8 (4 * bits ctl 29 24)] ++ beBytes 2 len ++ [0, 0, 0x40, 0, BitVec.ofNat 8 (bits ctl 23 16), 17]
  let z := beBytes 4 src.toNat ++ beBytes 4 dst.toNat
  a ++ beBytes 2 (headerCheck (a ++ z)) ++ z

/-- A UDP datagram in its Ethernet II frame, from the destination's address to the end of the payload (R387). -/
def udpFrame (ctl src dst : Word) (smac dmac : BitVec 48) (sport dport : Nat) (p : List Byte) : List Byte :=
  beBytes 6 dmac.toNat ++ beBytes 6 smac.toNat ++ [0x08, 0x00] ++ ipHeader ctl src dst (28 + p.length) ++
  beBytes 2 sport ++ beBytes 2 dport ++ beBytes 2 (8 + p.length) ++ [0, 0] ++ p

/-- The four converter values of a record of a Sketch (R397). -/
def Sample.bytes (y : Sample) : List Byte :=
  leBytes 2 y.vc.toNat ++ leBytes 2 y.vb.toNat ++ leBytes 2 y.i.toNat ++ leBytes 2 y.vds.toNat

/-- A frame's payload above UDP: packets as R455 and R456 lay them out, Hexpo headers and payloads little-endian (R389,
R392, R397); of an ARP answer, nothing. -/
def LaneFrame.payload : LaneFrame → List Byte
  | .arp _ _ => []
  | .reply r _ _ _ => replyBytes r
  | .event e => eventBytes e
  | .report h ps => h ++ ps.flatMap fun x => leBytes 8 x.1.toNat ++ leBytes 8 x.2.toNat
  | .trace _ _ h rs => h ++ rs.flatMap fun r => r.flatMap fun v => leBytes 2 v.toNat
  | .push _ h rs => h ++ rs.flatMap Sample.bytes

/-- One bit, and one byte, of the CRC of an Ethernet frame, least significant bit first. -/
def fcsBit (c : Word) : Word := if c.getLsbD 0 then (c >>> 1) ^^^ 0xEDB88320 else c >>> 1
def fcsByte (c : Word) (b : Byte) : Word :=
  fcsBit (fcsBit (fcsBit (fcsBit (fcsBit (fcsBit (fcsBit (fcsBit (c ^^^ b.setWidth 32))))))))

/-- A frame with its FCS: the CRC-32 of Ethernet over the frame, padded with zeros to the 60 bytes of the shortest one
(PRESUMED: R387 names Ethernet II and the FCS; their making is Ethernet's own; log entry 143). -/
def withFcs (bs : List Byte) : List Byte :=
  let p := bs ++ List.replicate (60 - bs.length) 0
  p ++ leBytes 4 (~~~(p.foldl fcsByte 0xFFFFFFFF)).toNat

/-- A frame's bytes on the lane, without padding and FCS. Hexpo frames go to NET_DMAC, NET_DIP and NET_UDP (R387); a reply
goes from NET_SIP and CPORT to where its command came from, an event to the last subscriber (R473); both with the DSCP and
TTL of NET_CTL and UDP checksum 0 (log entry 143). -/
def State.frameBytes (s : State) (f : LaneFrame) : List Byte :=
  let host (mac : BitVec 48) (ip : Word) (port : BitVec 16) : List Byte :=
    udpFrame s.netCtl s.netSip ip s.netSmac mac s.net.cport.toNat port.toNat f.payload
  match f with
  | .arp mac ip =>
    beBytes 6 mac.toNat ++ beBytes 6 s.netSmac.toNat ++ [0x08, 0x06, 0, 1, 0x08, 0x00, 6, 4, 0, 2] ++
    beBytes 6 s.netSmac.toNat ++ beBytes 4 s.netSip.toNat ++ beBytes 6 mac.toNat ++ beBytes 4 ip.toNat
  | .reply _ mac ip port => host mac ip port
  | .event _ => match s.net.dest with
    | some (mac, ip, port) => host mac ip port
    | none => []
  | _ => udpFrame s.netCtl s.netSip s.netDip s.netSmac s.netDmac (bits s.netUdp 15 0) (bits s.netUdp 31 16) f.payload

/-- What the lane carries now. -/
def State.laneBytes (s : State) : List Byte := (s.net.sending.map fun f => withFcs (s.frameBytes f)).getD []

/-! ### The lane's transmitter (R393) -/

/-- The frame in transmission has been sent. -/
def State.laneSent (s : State) : State :=
  let s := match s.net.sending with
    | some (.push k _ _) =>
      let s := s.modPlat k fun (p : Platform) => { p with push := p.push.map fun (x : Fin 8 × Nat × CmdRef) => (x.1, x.2.1 + 1, x.2.2) }
      if s.plat[k].push.any fun (x : Fin 8 × Nat × CmdRef) => 33 ≤ x.2.1 then s.pushEnd k else s
    | _ => s
  let s := { s with net := { s.net with sending := none } }.cportTake
  (List.finRange 4).foldl (fun (s : State) k => if s.plat[k].pushCut then s.pushEnd k else s) s

/-- Rank 1: ARP answers and replies without a tag, replies, events. -/
def State.rankOne (s : State) : Option State :=
  let put (s : State) (f : LaneFrame) : State := { s with net := { s.net with sending := some f } }
  match s.net.urgent with
  | f :: r => some (put { s with net := { s.net with urgent := r } } f)
  | [] =>
    match s.host[HostPort.net.ix].replies with
    | r :: _ =>
      let o := takeOrigin r.tag s.net.origin
      match o.1 with
      | some x =>
        some ((put { s with net := { s.net with origin := o.2 } } (.reply r x.1 x.2.1 x.2.2)).popReply .net)
      | none => some (s.popReply .net)
    | [] =>
      match s.settled .net, s.net.dest with
      | e :: _, some _ => some (put (s.popEvent .net) (.event e))
      | _, _ => none

/-- The bytes of a Sketch's header (R397). -/
def Sketch.header (x : Sketch) (slot : Nat) : List Byte :=
  let first := x.stamps.headD (0, 0)
  leBytes 1 slot ++ leBytes 1 (platOf x.port).val ++ leBytes 1 x.port.val ++ leBytes 1 x.cause.code ++
  leBytes 1 (b2n x.second.isSome + 2 * b2n x.complete + 4 * b2n x.held + 8 * b2n x.holdover) ++ leBytes 1 x.pstate.code ++
  leBytes 2 x.trigPh ++ leBytes 8 x.trigCt.toNat ++ leBytes 2 x.rEst.toNat ++ leBytes 2 x.ftCode.toNat ++
  leBytes 2 first.2 ++ leBytes 2 ((x.second.map Prod.fst).getD 0xFFFF) ++ leBytes 8 first.1.toNat ++
  leBytes 4 x.dropped ++ leBytes 1 ((x.second.map fun c => c.2.code).getD 0) ++ [0] ++ leBytes 2 x.volt ++
  leBytes 2 x.curr ++ leBytes 2 (bits x.prot 23 12) ++ leBytes 2 (bits x.prot 11 0) ++ List.replicate 18 0

/-- Frame `m` of a push of the Sketch in a slot. -/
def State.pushFrame (s : State) (k : PlatId) (slot : Fin 8) (x : Sketch) (m : Nat) : State :=
  let f := s.fresh
  let o (off : Nat) : Nat := Config.openHeader f off
  let seq := s.port[x.port].ms.trace.sketchSeq
  let fl : Byte := BitVec.ofNat 8 (o 7)
  let (hdr, recs) :=
    if m = 0 then
      (hexpoHdr 2 x.port.val (o 5 % 16) (o 6) fl seq 0 (o 14) (o 16) (o 24) (o 26) 0 ++ x.header slot.val, [])
    else
      let i := 128 * (m - 1)
      let st := x.stamps.getD i (0, 0)
      (hexpoHdr 2 x.port.val 0x0F (o 6) fl seq 128 st.2 st.1.toNat (o 24) (o 26) i, (x.recs.drop i).take 128)
  let s := s.modMs x.port fun q => { q with trace := { q.trace with sketchSeq := q.trace.sketchSeq + 1 } }
  { s with fresh := f + 1, net := { s.net with sending := some (.push k hdr recs) } }

/-- Rank 4: the first Platform that pushes. -/
def State.rankFour (s : State) : Option State :=
  (List.finRange 4).findSome? fun k =>
    match s.plat[k].push with
    | none => none
    | some (slot, m, _) => s.plat[k].slots[slot].map fun x => s.pushFrame k slot x m

/-- The highest-ranked frame waiting goes into transmission. -/
def State.laneNext (s : State) : State :=
  match s.rankOne with
  | some s => s
  | none =>
    match s.net.reports, s.net.traces with
    | f :: r, _ => { s with net := { s.net with reports := r, sending := some f } }
    | [], f :: r => { s with net := { s.net with traces := r, sending := some f } }
    | [], [] => if s.laneDest then (s.rankFour).getD s else s

/-- LANE_FRAME_BOUNDARY. -/
def execLaneFrameBoundary (s : State) : Host.Outcome State Fault Refusal :=
  let s := s.laneSent
  .next (if s.hostOn .net && s.net.link then s.laneNext else s)

/-! ### OVERFLOW (R425, R499, R500) -/

/-- OVERFLOW: room has appeared in the queue of a host port that dropped events. -/
def execOverflow (h : HostPort) (s : State) : Host.Outcome State Fault Refusal :=
  let x := s.host[h.ix]
  .next (match x.lost with
  | none => s
  | some (a, b, k) =>
    if x.events.length + x.reserved < 64 then
      let e : Event := { code := 0x0182, ssn := s.ssn, ct := s.time.ct, source := tgtStation,
                         flags := BitVec.ofNat 8 (b2n s.resume), tag := 0xFF,
                         payload := leBytes 4 k ++ leBytes 4 a.toNat ++ leBytes 4 b.toNat }
      s.seqEnd.modHost h fun x =>
        { x with events := x.events ++ [e], lost := none }
    else s)

end Sys2Proof.Machine
end

