-- ==== Sys2Proof/Machine/HostStation.lean ====
section
/-! DEFINITION. The opcodes of the Station group, of the Port group and of the Timetable-and-time group (R482-R491), with
READ_REGS and WRITE_REGS of every group. -/
namespace Sys2Proof.Machine

def noJudge : Judge := fun _ _ => none

/-! ### IDENTITY (R485, R487, R497) -/

/-- The identity block. RETIRED has the retired Ports; the bit of an unpopulated port stays 0 (DESIGN CHOICE: R53 speaks of
the Port object only; log entry 126). -/
def effIdentity : Effect := fun s c =>
  let service := s.sup.primer = .service
  s.ok c (leBytes 2 0x2448 ++ [0x10] ++ leBytes 1 (s.sup.slotId.getD 0).toNat ++ leBytes 4 s.fuse.present.toNat ++
    leBytes 4 s.health.retired.toNat ++ leBytes 4 (if service then 0 else s.running.version) ++
    leBytes 1 ((s.sup.runBank.map Bank.code).getD 0xFF) ++ leBytes 1 (b2n service) ++ leBytes 1 (HostPort.code c.p.host) ++
    leBytes 1 (s.eff c.p.host))
def execIdentity (p : Packet) (s : State) : Host.Outcome State Fault Refusal := opcodeRow 0x0100 noJudge effIdentity p s

/-! ### Claims (R414-R418, R485, R486) -/

/-- The mask of a claim command. -/
def claimMask (p : Packet) : Nat := le32 p.payload 0
def maskBad (m : Nat) : Bool := m = 0 || decide (2 ^ 24 ≤ m)
def maskPorts (m : Nat) : List PortId := allPorts.filter fun n => m.testBit n.val

/-- The ports a host port holds, as a mask. -/
def State.heldMask (s : State) (h : HostPort) : Nat :=
  ((allPorts.filter fun n => s.claim[n] = some h).map fun n => 2 ^ n.val).sum

def judgeClaim : Judge := fun s p =>
  let ports := maskPorts (claimMask p)
  if maskBad (claimMask p) then some stBadParam
  else if ports.any fun n => !s.inService n then some stPortRetired
  else if ports.any fun n => s.claim[n] ≠ none && s.claim[n] ≠ some p.host then some stOwned
  else none
def effClaim : Effect := fun s c =>
  let s := (maskPorts (claimMask c.p)).foldl (fun s n => s.claimSet n (some c.p.host) 0) s
  s.ok c (leBytes 4 (s.heldMask c.p.host))
def execClaim (p : Packet) (s : State) : Host.Outcome State Fault Refusal := opcodeRow 0x0110 judgeClaim effClaim p s

def judgeMask : Judge := fun _ p => badIf (maskBad (claimMask p))
def effRelease : Effect := fun s c =>
  let s := (maskPorts (claimMask c.p)).foldl
    (fun s n => if s.claim[n] = some c.p.host then s.claimSet n none 1 else s) s
  s.ok c (leBytes 4 (s.heldMask c.p.host))
def execRelease (p : Packet) (s : State) : Host.Outcome State Fault Refusal := opcodeRow 0x0111 judgeMask effRelease p s

def effClaimBreak : Effect := fun s c =>
  let l := (maskPorts (claimMask c.p)).filter fun n => s.claim[n] ≠ none
  let s := l.foldl (fun s n => s.claimSet n none 2) s
  s.ok c (leBytes 4 ((l.map fun n => 2 ^ n.val).sum))
def execClaimBreak (p : Packet) (s : State) : Host.Outcome State Fault Refusal := opcodeRow 0x0112 judgeMask effClaimBreak p s

/-! ### SUBSCRIBE (R421, R473, R486) -/

def effSubscribe : Effect := fun s c =>
  let g := c.p.payload.headD 0
  let s := if c.p.host = .net then
      { s with net := { s.net with dest := (s.net.origin.reverse.find? fun x => x.1 = c.p.tag).map Prod.snd } }
    else s
  (s.modHost c.p.host fun x => { x with sub := g }).ok c [g]
def execSubscribe (p : Packet) (s : State) : Host.Outcome State Fault Refusal := opcodeRow 0x0118 noJudge effSubscribe p s

/-! ### RESTART (R26, R485, R488, R502) -/

/-- The refusals of RESTART. -/
def State.restartBars (s : State) : Bool :=
  s.sup.restartReq.isSome || s.store.commit.isSome || s.waiting.any Held.palette ||
  s.active.any fun c => c.op = 0x0712 || c.op = 0x0714 || c.op = 0x0430 || c.op = 0x0432

def judgeRestart : Judge := fun s _ => badIf s.restartBars
def effRestart : Effect := fun s c =>
  let s := s.accept c
  { s with sup := { s.sup with restartReq := some { bank := none, cmd := CmdRef.of c } } }
def execRestart (p : Packet) (s : State) : Host.Outcome State Fault Refusal := opcodeRow 0x0120 judgeRestart effRestart p s

/-! ### READ_REGS (R482) -/

/-- The RIDs of a request. -/
def ridsOf (bs : List Byte) : List Nat := (List.range (bs.length / 2)).map fun i => le16 bs (2 * i)

/-- The RID belongs to the group and to the kind of object. -/
def ridOk (gg kind rid : Nat) : Bool := rid / 256 = gg && (regInfo rid).any fun r => r.kind = kind

def judgeReadRegs (gg : Byte) : Judge := fun _ p =>
  badIf (match Obj.ofTarget p.target with
    | some o => !(ridsOf p.payload).all fun r => ridOk gg.toNat o.kind r
    | none => true)
def effReadRegs : Effect := fun s c =>
  match Obj.ofTarget c.p.target with
  | some o => s.ok c (((ridsOf c.p.payload).map fun r => leBytes 4 (s.readReg o r).toNat).flatten)
  | none => s
def execReadRegs (gg : Byte) (p : Packet) (s : State) : Host.Outcome State Fault Refusal :=
  opcodeRow (BitVec.ofNat 16 (256 * gg.toNat + 1)) (judgeReadRegs gg) effReadRegs p s

/-! ### The content of a configuration (R139, R298, R364, R385, R448, R484, R536) -/

def cfgAt (m : Mem) (off : Nat) : Word := Mem.word cfgDefault m off
def cfgPut (m : Mem) (off : Nat) (w : Word) : Mem := Mem.write cfgDefault m off (leBytes 4 w.toNat)

/-- A write of NLOG = 0b111 is refused. -/
def nlogOk (m : Mem) : Bool := bits (cfgAt m 0x20) 26 24 ≠ 7

/-- The most values of one channel in a frame: S_max of R385. -/
def sMax (w : Word) : Nat := cutPeriod w * 48828125 * 10004 / (200 * groupLen w * 1000000000) + 1
def channels (w : Word) : Nat := ((List.range 4).filter fun i => bit w (24 + i)).length

/-- The checks of one TR_CFG. -/
def trOk (w : Word) : Bool :=
  decide (dec w ≤ 10) && decide (sMax w * channels w * 2 ≤ 1408) && !(traceFilt w && decide (dec w < 4))

/-- The load of one port on the lane in bit/s, times 2048. -/
def laneLoad (w : Word) : Nat :=
  if traceOn w then 5000000 * (2048 / groupLen w) * channels w * 16 + 2048000 * 784 * (2048 / cutPeriod w) else 0
def laneOk (m : Mem) : Bool :=
  decide ((allPorts.map fun n => laneLoad (cfgAt m (portOff n 0x18))).sum ≤ 9000000000 * 2048)

/-- The least SCL_LO and SCL_HI by SPEED. -/
def sclMin (speed : Nat) : Nat × Nat := if speed = 0 then (235, 200) else if speed = 2 then (25, 13) else (65, 30)

/-- The checks of TW_TIM of a bus, for the SPEED in force: that of the configuration `old` to be replaced (R448, R493). -/
def timOk (old m : Mem) (i : Fin 3) : Bool :=
  let t := cfgAt m (0x3C + 4 * i.val)
  let lim := sclMin (bits (cfgAt old (0x30 + 4 * i.val)) 30 29)
  decide (lim.1 ≤ bits t 21 14) && decide (lim.2 ≤ bits t 13 6) && decide (bits t 31 27 + bits t 26 22 < bits t 21 14)

/-- The content checks of the words touched, of a configuration that replaces `old`. -/
def contentOk (old m : Mem) (touched : Nat → Bool) : Bool :=
  (!touched 0x20 || nlogOk m) &&
  (allPorts.all fun n => !touched (portOff n 0x18) || trOk (cfgAt m (portOff n 0x18))) &&
  (!(allPorts.any fun n => touched (portOff n 0x18)) || laneOk m) &&
  (List.finRange 3).all fun i => !touched (0x3C + 4 * i.val) || timOk old m i

/-- BUDGET and CARD_BUDGET stored clamped. -/
def State.clampCfg (s : State) (m : Mem) : Mem :=
  let t := cfgAt m 0x20
  let b := cfgAt m 0x24
  let m := cfgPut m 0x20 (t &&& 0xFFFFFC00 ||| fld (max 20 (min s.budgetCeil (bits t 9 0))) 0)
  cfgPut m 0x24 (b &&& 0xFFFFE000 ||| fld (clampBudget s.cardCeil (bits b 12 0)) 0)

/-! ### WRITE_REGS (R428, R483, R484, R554) -/

/-- The Palette offset of an entry's register. -/
def RegWrite.off (e : RegWrite) (o : Obj) : Option Nat := (regInfo e.rid).bind fun r => r.pal.map (palOffset o)

/-- An entry names a register of the group and the object, its mask covers only what a host may write, and HP_EVQ is the
writer's own. -/
def RegWrite.ok (e : RegWrite) (gg kind : Nat) (h : HostPort) : Bool :=
  match regInfo e.rid with
  | none => false
  | some r =>
    let own := !(0x120 ≤ e.rid && decide (e.rid ≤ 0x124)) || e.rid = 0x120 + HostPort.code h
    e.zero = 0 && ridOk gg kind e.rid && (e.mask &&& ~~~(r.rw ||| if own then r.w1c else 0)) = 0

/-- The running configuration with the entries' P fields. -/
def putEntries (o : Obj) (m : Mem) (es : List RegWrite) : Mem :=
  es.foldl (fun m e =>
    match e.off o, regInfo e.rid with
    | some off, some r =>
      let w := cfgAt m off
      cfgPut m off ((w &&& ~~~(e.mask &&& r.rw)) ||| (e.value &&& e.mask &&& r.rw))
    | _, _ => m) m

def judgeWriteRegs (gg : Byte) : Judge := fun s p =>
  let es := entriesOf p.payload
  match Obj.ofTarget p.target with
  | none => some stBadParam
  | some o =>
    let rids := es.map fun e => e.rid
    if !(es.all fun e => e.ok gg.toNat o.kind p.host) || !decide rids.Nodup then some stBadParam
    else
      let ps := es.filter RegWrite.pal
      if ps.isEmpty then none
      else if !contentOk s.store.run (s.clampCfg (putEntries o s.store.run ps)) (fun a => ps.any fun e => e.off o = some a) then
        some stBadParam
      else if s.store.newer then some stStoreFault
      else none

/-- W1C entries that clear anything. -/
def clearsOf (es : List RegWrite) : List (BitVec 16 × Word) :=
  (es.filter fun e => e.clears ≠ 0).map fun e => (BitVec.ofNat 16 e.rid, e.clears)

def effWriteRegs : Effect := fun s c =>
  let es := entriesOf c.p.payload
  match Obj.ofTarget c.p.target with
  | none => s
  | some o =>
    let ps := es.filter RegWrite.pal
    if ps.isEmpty then ((clearsOf es).foldl (fun s x => s.w1c o x.1.toNat x.2) s).ok c []
    else (s.accept c).startCommit (s.clampCfg (putEntries o s.store.run ps)) (some (CmdRef.of c)) (clearsOf es)
def execWriteRegs (gg : Byte) (p : Packet) (s : State) : Host.Outcome State Fault Refusal :=
  opcodeRow (BitVec.ofNat 16 (256 * gg.toNat + 2)) (judgeWriteRegs gg) effWriteRegs p s

/-! ### SWAP (R336, R340, R343, R344, R489, R588) -/

/-- The port TARGET names. -/
def portOfTarget (t : BitVec 16) : Option PortId :=
  match Obj.ofTarget t with
  | some (.port n) => some n
  | _ => none

def swapKind : Nat → Option SwapKind
  | 1 => some .power
  | 2 => some .data
  | 3 => some .vconn
  | _ => none

/-- A swap request of the partner that waits is handled first (R502). -/
def judgeSwap : Judge := fun s p =>
  match portOfTarget p.target, swapKind (p.payload.headD 0).toNat with
  | some n, some k =>
    let q := s.port[n]
    if !s.swapFree n || !q.pd.contract || s.plat[platOf n].fallback || (q.pd.rxq ++ q.pd.eng).any (isSwapReq ·.body) then
      some stBadParam
    else match k with
      | .power =>
        if q.tc.st = .attSrc then (if s.pMeasFits n then none else some stBudgetRefused)
        else if s.hs.warn then some stBudgetRefused else none
      | .data => badIf (q.alt.mode ≠ .none)
      | .vconn => badIf (!q.tc.vconnOn && !s.vconnRoom n)
  | _, _ => some stBadParam
def effSwap : Effect := fun s c =>
  match portOfTarget c.p.target, swapKind (c.p.payload.headD 0).toNat with
  | some n, some k => (s.accept c).swapAsk n k (some (CmdRef.of c))
  | _, _ => s
def execSwap (p : Packet) (s : State) : Host.Outcome State Fault Refusal := opcodeRow 0x0210 judgeSwap effSwap p s

/-! ### ALT_MODE (R357, R359, R368, R489, R588) -/

def judgeAltMode : Judge := fun s p =>
  match portOfTarget p.target with
  | none => some stBadParam
  | some n =>
    let act := (p.payload.headD 0).toNat
    badIf (s.plat[platOf n].fallback ||
      !(act = 0 && s.modesAllowed n || act = 1 && s.port[n].alt.mode ≠ .none))

/-- A discovery, or an exit, in progress is joined; a discovery that R359 does not allow yet begins when it does. -/
def effAltMode : Effect := fun s c =>
  match portOfTarget c.p.target with
  | none => s
  | some n =>
    let s := (s.accept c).modAlt n fun a => { a with host := some (CmdRef.of c) }
    let a := s.port[n].alt
    if c.p.payload.headD 0 = 0 then (if s.mayDiscover n then s.discoveryGo n else s)
    else if a.step = .exitSafe || a.step = .exiting then s
    else s.altLeave n
def execAltMode (p : Packet) (s : State) : Host.Outcome State Fault Refusal := opcodeRow 0x0220 judgeAltMode effAltMode p s

/-! ### PATH_CLEAR (R239, R489, R613) -/

def judgePathClear : Judge := fun s p =>
  badIf (match portOfTarget p.target with
    | some n => s.port[n].pp.st ≠ .lockoff
    | none => true)
/-- The PATH booking that waited is made at once; where WARN_N refuses it, the reply carries the refusal (R122, R478), and it is
made again every 10 ms as before. -/
def effPathClear : Effect := fun s c =>
  match portOfTarget c.p.target with
  | none => s
  | some n =>
    let s := s.modPp n fun p => { p with st := .opn }
    if s.port[n].tc.st.attached && s.port[n].tc.pathRetry then
      let t := s.bookPath n
      t.replyTag c.p c.op (if s.hs.warn && !s.pathHeld n && t.port[n].tc.pathRetry then stBudgetRefused else stOk) []
    else s.ok c []
def execPathClear (p : Packet) (s : State) : Host.Outcome State Fault Refusal := opcodeRow 0x0230 judgePathClear effPathClear p s

/-! ### READ_TIME, SET_EPOCH, READ_CHANNEL, READ_ENTRIES (R89, R101, R491) -/

def effReadTime : Effect := fun s c => s.ok c (leBytes 8 s.time.ct.toNat)
def execReadTime (p : Packet) (s : State) : Host.Outcome State Fault Refusal := opcodeRow 0x0300 noJudge effReadTime p s

def judgeSetEpoch : Judge := fun s p => badIf (decide (2 ^ 27 ≤ le32 p.payload 0) || s.time.epochPend.isSome)
def effSetEpoch : Effect := fun s c =>
  let s := s.accept c
  { s with time := { s.time with epochPend := some (BitVec.ofNat 27 (le32 c.p.payload 0), some (CmdRef.of c)) } }
def execSetEpoch (p : Packet) (s : State) : Host.Outcome State Fault Refusal := opcodeRow 0x0303 judgeSetEpoch effSetEpoch p s

def judgeReadChannel : Judge := fun _ p => badIf (decide (128 ≤ (p.payload.headD 0).toNat))
def effReadChannel : Effect := fun s c =>
  let k := s.chan[(c.p.payload.headD 0).toNat % 128]'(by omega)
  s.ok c (([k.ctrl, k.count, k.reload, k.buf, k.mtch, k.phase].map fun w => leBytes 4 w.toNat).flatten)
def execReadChannel (p : Packet) (s : State) : Host.Outcome State Fault Refusal :=
  opcodeRow 0x0304 judgeReadChannel effReadChannel p s

def judgeReadEntries : Judge := fun _ p =>
  let first := (p.payload.getD 0 0).toNat
  let k := (p.payload.getD 1 0).toNat
  badIf (k = 0 || decide (64 < k) || decide (256 < first + k))
def effReadEntries : Effect := fun s c =>
  let first := (c.p.payload.getD 0 0).toNat
  let k := (c.p.payload.getD 1 0).toNat
  let es := (s.tt.entries.toList.drop first).take k
  s.ok c ((es.map fun e => ((entryWords e).map fun w => leBytes 4 w.toNat).flatten).flatten)
def execReadEntries (p : Packet) (s : State) : Host.Outcome State Fault Refusal :=
  opcodeRow 0x0305 judgeReadEntries effReadEntries p s

end Sys2Proof.Machine
end

