-- ==== Sys2Proof/Machine/Operands.lean ====
section
/-! DEFINITION. The operand forms of the Vavis instructions (R504, R507, R511-R513): ranges and modes, rounding, shifts,
quotients, and the words of the instruction set (R507, R508). -/
namespace Sys2Proof.Machine

/-! ### Ranges and modes (R511) -/

/-- The exact value lies outside a signed range of so many bits. -/
def outside (w : Nat) (x : Int) : Bool := decide (x < -(2 : Int) ^ (w - 1)) || decide ((2 : Int) ^ (w - 1) ≤ x)

/-- The nearest limit of a signed range. -/
def clampTo (w : Nat) (x : Int) : Int := max (-(2 : Int) ^ (w - 1)) (min ((2 : Int) ^ (w - 1) - 1) x)

/-- An exact result brought into its destination: the nearest limit, or the low bits. -/
def reduce (w : Nat) (sat : Bool) (x : Int) : BitVec w := BitVec.ofInt w (if sat then clampTo w x else x)

/-- The arithmetic mode in force: M, or MD.SAT. -/
def satMode (m : MMode) (mdSat : Bool) : Bool :=
  match m with
  | .follow => mdSat
  | .modular => false
  | .saturating => true

/-! ### Rounding (R506, R512) -/

/-- The rounding in force: RM, or MD.RND, whose code 0b00 acts as truncate. -/
def roundMode (r : RMode) (rnd : BitVec 2) : RMode :=
  match r with
  | .follow => if rnd = 2 then .halfUp else if rnd = 3 then .halfEven else .truncate
  | r => r

/-- x / 2ⁿ brought to a whole number. -/
def roundShift (r : RMode) (x : Int) (n : Nat) : Int :=
  let d : Int := 2 ^ n
  let q := x / d
  let t := 2 * (x % d)
  match r with
  | .truncate | .follow => q
  | .halfUp => if d ≤ t then q + 1 else q
  | .halfEven => if d < t || (t = d && q % 2 ≠ 0) then q + 1 else q

/-! ### Quotients (R513, R514) -/

/-- A / B toward zero as a Q1.31 value, exact. -/
def quotFrac (a b : Int) : Int := (a * 2 ^ 31).tdiv b

/-- The limit that a division by zero writes. -/
def quotZero (a : Int) : Word := if 0 < a then 0x7FFFFFFF else if a < 0 then 0x80000000 else 0

/-! ### Immediates and addresses -/

def sext18 (x : BitVec 18) : Word := x.signExtend 32
def zext18 (x : BitVec 18) : Word := x.zeroExtend 32
def wordOff18 (x : BitVec 18) : Word := x.signExtend 32 <<< 2
def wordOff26 (x : BitVec 26) : Word := x.signExtend 32 <<< 2

/-- The count of LOOP, and of REP. -/
def loopCount (v : Vector Word 16) : Count → Word
  | .imm n => BitVec.ofNat 32 n
  | .reg r => v[r]
def repCount (v : Vector Word 16) : Count → Nat
  | .imm n => n
  | .reg r => bits v[r] 15 0

/-- The registers a count reads. -/
def countReads : Count → List Reg
  | .imm _ => []
  | .reg r => [r]

/-! ### Instruction words (R507-R509) -/

/-- Fields of a word as bits: D, A, B, M, RM, SH, K. -/
def fD : Word := 0x03C00000
def fA : Word := 0x003C0000
def fB : Word := 0x0003C000
def fM : Word := 0x00003000
def fRM : Word := 0x00000C00
def fSH : Word := 0x000003E0
def fK : Word := 0x00000010
def fAll : Word := 0x03FFFFFF

/-- The fields an opcode uses; none where it is not listed. -/
def usedFields (op : Nat) : Option Word :=
  match op with
  | 0x00 => some 0
  | 0x01 | 0x02 | 0x0B | 0x13 => some (fD ||| fA ||| fB ||| fM)
  | 0x03 | 0x04 => some (fD ||| fA ||| fM)
  | 0x05 | 0x06 | 0x08 | 0x09 | 0x0A | 0x0D | 0x12 => some (fD ||| fA ||| fB)
  | 0x07 | 0x1C => some (fA ||| fB)
  | 0x0C => some (fD ||| fA ||| fB ||| fRM)
  | 0x0E => some (fD ||| fA ||| fM ||| fSH)
  | 0x0F => some (fD ||| fA ||| fRM ||| fSH)
  | 0x10 => some (fD ||| fA ||| fSH)
  | 0x11 | 0x25 | 0x26 => some (fD ||| fA)
  | 0x14 | 0x15 | 0x16 | 0x17 | 0x18 | 0x19 | 0x1A | 0x1B | 0x28 | 0x29 | 0x33 => some fAll
  | 0x1D => some (fA ||| fB ||| fM)
  | 0x1E | 0x1F | 0x27 => some (fA ||| fB ||| fM ||| fRM ||| fK)
  | 0x20 => some fK
  | 0x21 => some (fA ||| fK)
  | 0x22 => some (fD ||| fM ||| fRM ||| fSH ||| fK)
  | 0x23 => some (fD ||| fK)
  | 0x24 => some (fRM ||| fSH ||| fK)
  | 0x2A | 0x31 | 0x32 => some 0
  | 0x2B => some 0x03C3FFFF
  | 0x2C => some fAll
  | 0x2D => some fAll
  | 0x30 => some 0x0000FFFF
  | _ => none

/-- A BC condition that exists. -/
def condOk (c : Nat) : Bool := decide (c ≤ 11) || c = 15

/-- A legal instruction (R508). -/
def legalWord (w : Word) : Bool :=
  let op := bits w 31 26
  match usedFields op with
  | none => false
  | some u =>
    (w &&& 0x03FFFFFF &&& ~~~u) = 0 &&
    !((u &&& fM) ≠ 0 && u ≠ fAll && op ≠ 0x2B && op ≠ 0x30 && bits w 13 12 = 3) &&
    (match op with
     | 0x2B => condOk (bits w 25 22)
     | 0x2C => bits w 25 24 ≠ 3 && bits w 10 0 ≠ 0 && !(bit w 23 && bits w 18 11 ≠ 0)
     | 0x2D => if bit w 25 then bits w 20 0 = 0 else bits w 24 16 = 0
     | _ => true)

/-- An instruction that may stand neither at a loop end nor after REP (R522, R525). -/
def controlWord (w : Word) : Bool :=
  let op := bits w 31 26
  (0x28 ≤ op && decide (op ≤ 0x2D)) || (0x30 ≤ op && decide (op ≤ 0x32))

/-- The fields of a word that name registers, modes and indices. -/
def fieldD (w : Word) : Fin 16 := ⟨bits w 25 22 % 16, by omega⟩
def fieldA (w : Word) : Fin 16 := ⟨bits w 21 18 % 16, by omega⟩
def fieldB (w : Word) : Fin 16 := ⟨bits w 17 14 % 16, by omega⟩
def fieldM (w : Word) : MMode := if bits w 13 12 = 1 then .modular else if bits w 13 12 = 2 then .saturating else .follow
def fieldRM (w : Word) : RMode :=
  match bits w 11 10 with
  | 0 => .follow
  | 1 => .truncate
  | 2 => .halfUp
  | _ => .halfEven
def fieldSH (w : Word) : BitVec 5 := BitVec.ofNat 5 (bits w 9 5)
def imm18 (w : Word) : BitVec 18 := BitVec.ofNat 18 (bits w 17 0)
def off26 (w : Word) : BitVec 26 := BitVec.ofNat 26 (bits w 25 0)

/-- LOOP's level and count, and REP's count (R507). -/
def fieldLevel (w : Word) : Fin 3 := ⟨bits w 25 24 % 3, by omega⟩
def loopField (w : Word) : Count :=
  if bit w 23 then .reg ⟨bits w 22 19 % 16, by omega⟩ else .imm (bits w 22 11)
def repField (w : Word) : Count :=
  if bit w 25 then .reg ⟨bits w 24 21 % 16, by omega⟩ else .imm (bits w 15 0)

/-- Where a word at an address sends control: the target of B, BC and CALL, the end of LOOP (R529). -/
def wordTarget (pc : Nat) (w : Word) : Option Int :=
  match bits w 31 26 with
  | 0x28 | 0x29 => some (pc + 4 * (BitVec.ofNat 26 (bits w 25 0)).toInt)
  | 0x2B => some (pc + 4 * (BitVec.ofNat 18 (bits w 17 0)).toInt)
  | 0x2C => some (pc + 4 * (bits w 10 0 : Nat))
  | _ => none

end Sys2Proof.Machine
end

