-- ==== Sys2Proof/Machine/Flags.lean ====
section
/-! DEFINITION. The flags of a Vavis context (R505, R510): FL bit 7 DZ, 6 AV1, 5 AV0, 4 SV, 3 V, 2 C, 1 N, 0 Z. -/
namespace Sys2Proof.Machine

/-- A bit of FL given a value. -/
def flPut (fl : Byte) (i : Nat) (b : Bool) : Byte :=
  if b then fl ||| BitVec.ofNat 8 (2 ^ i) else fl &&& ~~~ BitVec.ofNat 8 (2 ^ i)

/-- Z and N of the value written. -/
def flZN (fl : Byte) (r : Word) : Byte := flPut (flPut fl 0 (r = 0)) 1 (bit r 31)

/-- V, and with it the sticky SV. -/
def flV (fl : Byte) (v : Bool) : Byte :=
  let fl := flPut fl 3 v
  if v then flPut fl 4 true else fl

def flC (fl : Byte) (c : Bool) : Byte := flPut fl 2 c

/-- DZ, sticky. -/
def flDZ (fl : Byte) (d : Bool) : Byte := if d then flPut fl 7 true else fl

/-- AVk, sticky. -/
def flAV (fl : Byte) (k : Bool) (o : Bool) : Byte := if o then flPut fl (if k then 6 else 5) true else fl

/-- Carry out of an unsigned sum. -/
def carryOut (a b : Word) : Bool := decide (2 ^ 32 ≤ a.toNat + b.toNat)

/-- A condition of BC (R509). -/
def condHolds (fl : Byte) (c : Nat) : Bool :=
  let z := bit fl 0
  let n := bit fl 1
  let cc := bit fl 2
  let v := bit fl 3
  match c with
  | 0x0 => z
  | 0x1 => !z
  | 0x2 => n ≠ v
  | 0x3 => n = v
  | 0x4 => !z && n = v
  | 0x5 => z || n ≠ v
  | 0x6 => !cc
  | 0x7 => cc
  | 0x8 => v
  | 0x9 => !v
  | 0xA => n
  | 0xB => !n
  | _ => c = 0xF

end Sys2Proof.Machine
end

