-- ==== Sys2Proof/Machine/HostStore.lean ====
section
/-! DEFINITION. The opcodes of the Palette store group (R477, R492, R493) and of the health and maintenance group (R498). -/
namespace Sys2Proof.Machine

/-- A command of the Palette store group taken while a recall is in progress (R477); its parameters are judged first. -/
def storeJudge (j : Judge) : Judge := fun s p =>
  (j s p).or (if s.store.recalling then some stStoreRecall else none)

/-- `a`, and where it passes `b`. -/
def bothJudge (a b : Judge) : Judge := fun s p => (a s p).or (b s p)

/-! ### STORE_INFO, PALETTE_READ, PALETTE_WRITE (R492, R549) -/

def effStoreInfo : Effect := fun s c =>
  let st := s.store
  s.ok c (leBytes 4 st.copyA.seq.toNat ++ leBytes 4 st.copyB.seq.toNat ++ leBytes 1 (copyCode (activeCopy st)) ++
    leBytes 1 (protNow st) ++ leBytes 1 (min 255 (wearPercent st.cycles)) ++ [0])
def execStoreInfo (p : Packet) (s : State) : Host.Outcome State Fault Refusal :=
  opcodeRow 0x0400 (storeJudge noJudge) effStoreInfo p s

/-- A range of COUNT 1 to 1024 inside a region. -/
def rangeBad (off k size : Nat) : Bool := k = 0 || decide (1024 < k) || decide (size < off + k)

/-- Core SB's running configuration: it holds what a commit writes from the commit's start, and the values take effect at its
end (R484, R551). -/
def Store.written (st : Store) : Mem := (st.commit.map fun c => c.cfg).getD st.run

/-- The bytes PALETTE_READ shows. -/
def State.paletteBytes (s : State) : List Byte :=
  match activeCopy s.store with
  | some i => (copyOf s.store i).bytes
  | none => copyBytes s.running.fmtMax 0 s.store.written

def judgePaletteRead : Judge := fun _ p => badIf (rangeBad (le16 p.payload 0) (le16 p.payload 2) 8192)
def effPaletteRead : Effect := fun s c =>
  s.ok c ((s.paletteBytes.drop (le16 c.p.payload 0)).take (le16 c.p.payload 2))
def execPaletteRead (p : Packet) (s : State) : Host.Outcome State Fault Refusal :=
  opcodeRow 0x0410 (storeJudge judgePaletteRead) effPaletteRead p s

/-- A byte of the data sets a bit that is not RW. -/
def setsReserved : Nat → List Byte → Bool
  | _, [] => false
  | a, b :: t => (b &&& ~~~ cfgRw a) ≠ 0 || setsReserved (a + 1) t

/-- The reserved bits of the step words of a Points table read 0 (R363). -/
def stepsClean : Nat → List Word → Bool
  | 0, _ => true
  | _, [] => true
  | fuel + 1, h :: t =>
    let len := bits h 27 24
    h = 0 || ((t.take len).all fun w => (w &&& 0x0F010000) = 0) && stepsClean fuel (t.drop len)

/-- The Points table of a configuration passes (R363, R364). -/
def pointsOk (m : Mem) : Bool :=
  let ws := (List.range 256).map fun i => cfgAt m (0xC80 + 4 * i)
  (pointsFail (bits (cfgAt m 0x38) 22 16) 257 0 ws).isNone && stepsClean 257 ws

/-- The configuration a PALETTE_WRITE asks for. -/
def State.paletteNew (s : State) (p : Packet) : Mem :=
  s.clampCfg (Mem.write cfgDefault s.store.run (le16 p.payload 0) (p.payload.drop 4))

def judgePaletteWrite : Judge := fun s p =>
  let off := le16 p.payload 0
  let k := p.payload.length - 4
  if le16 p.payload 2 ≠ 0 || decide (8192 < off + k) || decide (off < 0x20) || decide (0x1FFC < off + k) ||
      setsReserved off (p.payload.drop 4) then some stBadParam
  else
    let m := s.paletteNew p
    badIf (!contentOk s.store.run m (fun _ => true) || !pointsOk m)
def judgeNewer : Judge := fun s _ => if s.store.newer then some stStoreFault else none
def effPaletteWrite : Effect := fun s c => (s.accept c).startCommit (s.paletteNew c.p) (some (CmdRef.of c)) []
def execPaletteWrite (p : Packet) (s : State) : Host.Outcome State Fault Refusal :=
  opcodeRow 0x0411 (bothJudge (storeJudge judgePaletteWrite) judgeNewer) effPaletteWrite p s

/-! ### USER_READ, USER_WRITE, USER_PROTECT (R492, R561-R563) -/

def judgeUserRead : Judge := fun _ p => badIf (rangeBad (le32 p.payload 0) (le16 p.payload 4) 65536)
def judgeTornRead : Judge := fun s p =>
  let off := le32 p.payload 0
  let k := le16 p.payload 4
  if (userRange off k).any s.store.torn || !(groupsOver s.store.bad off k).isEmpty then some stStoreFault else none

/-- The groups a read corrects are counted (R545). -/
def State.readFixes (s : State) (k : Nat) : State := { s with store := { s.store with fixes := s.store.fixes + k } }
def effUserRead : Effect := fun s c =>
  (s.readFixes (groupsOver s.store.weak (le32 c.p.payload 0) (le16 c.p.payload 4)).length).ok c (Mem.read zeroByte s.store.user (le32 c.p.payload 0) (le16 c.p.payload 4))
def execUserRead (p : Packet) (s : State) : Host.Outcome State Fault Refusal :=
  opcodeRow 0x0420 (bothJudge (storeJudge judgeUserRead) judgeTornRead) effUserRead p s

/-- The first protected offset of the User region (R562). -/
def protStart (prot : Nat) : Nat :=
  match prot with
  | 0 => 65536
  | 1 => 0xC000
  | 2 => 0x8000
  | _ => 0

def judgeUserWrite : Judge := fun _ p => badIf (decide (65536 < le32 p.payload 0 + (p.payload.length - 4)))
def judgeUserPages : Judge := fun s p =>
  let off := le32 p.payload 0
  let k := p.payload.length - 4
  if protStart (protNow s.store) < off + k then some stStoreProtected
  else if (userRange off k).any fun pg => s.store.torn pg &&
      !(decide (off ≤ 256 * (pg - 256)) && decide (256 * (pg - 255) ≤ off + k)) then some stStoreFault
  else none
def effUserWrite : Effect := fun s c =>
  let s := s.accept c
  let rs := userPages (some (CmdRef.of c)) 6 (le32 c.p.payload 0) (c.p.payload.drop 4)
  rs.foldl (fun s r => s.requestPage r) s
def execUserWrite (p : Packet) (s : State) : Host.Outcome State Fault Refusal :=
  opcodeRow 0x0421 (bothJudge (storeJudge judgeUserWrite) judgeUserPages) effUserWrite p s

def judgeUserProtect : Judge := fun _ p => badIf (decide (3 < (p.payload.headD 0).toNat))
def effUserProtect : Effect := fun s c =>
  (s.accept c).requestPage
    { job := .control, page := 512, data := .control (c.p.payload.headD 0), retried := false, cmd := some (CmdRef.of c),
      final := true }
def execUserProtect (p : Packet) (s : State) : Host.Outcome State Fault Refusal :=
  opcodeRow 0x0422 (storeJudge judgeUserProtect) effUserProtect p s

/-! ### SCRUB, WEAR_RESET, FORMAT (R492, R546, R560, R562, R566) -/

def judgeScrub : Judge := fun s _ => badIf s.store.scrub.isSome
def effScrub : Effect := fun s c => (s.accept c).scrubStart (some (CmdRef.of c))
def execScrub (p : Packet) (s : State) : Host.Outcome State Fault Refusal := opcodeRow 0x0430 (storeJudge judgeScrub) effScrub p s

def effWearReset : Effect := fun s c =>
  (({ s with store := { s.store with wearMark := (worstPage s.store.cycles).2 + 1000 } } : State).healthClear 13).ok c []
def execWearReset (p : Packet) (s : State) : Host.Outcome State Fault Refusal :=
  opcodeRow 0x0431 (storeJudge noJudge) effWearReset p s

/-- A page of fill bytes for each store page named; the last completes the command, at once where there is none. -/
def State.fillPages (s : State) (job : PageJob) (fill : Byte) (c : CmdRef) (result : List Byte) : List Nat → State
  | [] => s.complete c stOk result
  | [pg] => s.requestPage { job := job, page := pg, data := .bytes (Mem.write zeroByte [] 0 (List.replicate 256 fill)),
                            retried := false, cmd := some c, final := true }
  | pg :: t =>
    (s.requestPage { job := job, page := pg, data := .bytes (Mem.write zeroByte [] 0 (List.replicate 256 fill)), retried := false,
                     cmd := some c, final := false }).fillPages job fill c result t

/-- Every Log page programmed empty, the open page with them. -/
def State.logEmpty (s : State) (c : CmdRef) : State :=
  ({ s with store := { s.store with page := [], pageDirty := false } } : State).fillPages .log 0 c []
    ((List.range 128).map (· + 128))

def judgeFormat : Judge := fun _ p => badIf (decide (2 < (p.payload.headD 0).toNat))
def effFormat : Effect := fun s c =>
  let s := s.accept c
  let r := CmdRef.of c
  match (c.p.payload.headD 0).toNat with
  | 0 => s.fillPages .user 0xFF r [0, 0, 0, 0] ((List.range (protStart (protNow s.store) / 256)).map (· + 256))
  | 1 => s.logEmpty r
  | _ => s.startCommit [] (some r) []
def execFormat (p : Packet) (s : State) : Host.Outcome State Fault Refusal :=
  opcodeRow 0x0432 (storeJudge judgeFormat) effFormat p s

/-! ### HEALTH_STATUS, LOG_READ, LOG_CLEAR, ODOMETER_READ (R498, R586, R589) -/

/-- RETIRED has the retired Ports; the bit of an unpopulated port stays 0 (DESIGN CHOICE: R53 speaks of the Port object only;
log entry 126). -/
def effHealthStatus : Effect := fun s c =>
  let fb := ((List.finRange 4).map fun k => if s.plat[k].fallback then 2 ^ k.val else 0).sum
  s.ok c (leBytes 4 s.health.active.toNat ++ leBytes 4 s.health.retired.toNat ++ leBytes 1 fb ++
    leBytes 1 (b2n s.replaceN) ++ [0, 0])
def execHealthStatus (p : Packet) (s : State) : Host.Outcome State Fault Refusal :=
  opcodeRow 0x0800 noJudge effHealthStatus p s

/-- Log pages by PAGE_NO, oldest first. -/
def logInsert (x : Nat × Word × List LogEntry) : List (Nat × Word × List LogEntry) → List (Nat × Word × List LogEntry)
  | [] => [x]
  | y :: t => if newer y.2.1 x.2.1 then x :: y :: t else y :: logInsert x t

/-- The Log pages that are not torn, and those that have filled, in order of PAGE_NO. The open page stands for its last program. -/
def State.logPages (s : State) : List (Nat × Word × List LogEntry) :=
  ((s.store.log.filter fun x => !s.store.torn x.1 && x.2.1 ≠ s.store.pageNo) ++ s.store.filled).foldl (fun l x => logInsert x l) []

/-- Every Log entry held, oldest first. -/
def State.logAll (s : State) : List LogEntry := (s.logPages.map fun x => x.2.2).flatten ++ s.store.page

/-- The entry is FROM or younger. -/
def fromIndex (f : Word) (e : LogEntry) : Bool := e.index = f || newer e.index f

/-- The entries of a LOG_READ from an index on. -/
def State.logFrom (s : State) (f : Word) : List LogEntry := (s.logAll.filter (fromIndex f)).take 42

/-- Ring pages with an entry that a LOG_READ returns. -/
def State.logReads (s : State) (p : Packet) : List Nat :=
  let es := s.logFrom (BitVec.ofNat 32 (le32 p.payload 0))
  (s.logPages.filter fun x => s.store.log.contains x && x.2.2.any es.contains).map fun x => x.1

/-- A page it needs has a group that cannot be read (R545; log entry 165). -/
def judgeLogRead : Judge := fun s p => if (s.logReads p).any s.store.badData then some stStoreFault else none
def effLogRead : Effect := fun s c =>
  let s := s.readFixes ((s.logReads c.p).flatMap fun pg => groupsIn s.store.weak pg 0 256).length
  let f : Word := BitVec.ofNat 32 (le32 c.p.payload 0)
  let es := s.logFrom f
  let first := (es.head?.map fun e => e.index).getD s.store.logIndex
  let next := (es.getLast?.map fun e => e.index + 1).getD s.store.logIndex
  s.ok c (leBytes 4 first.toNat ++ leBytes 4 next.toNat ++ (es.map logEntryBytes).flatten)
def execLogRead (p : Packet) (s : State) : Host.Outcome State Fault Refusal := opcodeRow 0x0801 judgeLogRead effLogRead p s

def effLogClear : Effect := fun s c => (s.accept c).logEmpty (CmdRef.of c)
def execLogClear (p : Packet) (s : State) : Host.Outcome State Fault Refusal := opcodeRow 0x0802 noJudge effLogClear p s

def effOdometerRead : Effect := fun s c =>
  let slots := match portOfTarget c.p.target with
    | some n => portSlots s.port[n].ms
    | none => s.stationSlots
  s.ok c ((slots.map fun x => leBytes 8 x.toNat).flatten)
def execOdometerRead (p : Packet) (s : State) : Host.Outcome State Fault Refusal :=
  opcodeRow 0x0804 noJudge effOdometerRead p s

/-! ### SELFTEST (R478, R498, R582-R584) -/

def judgeSelftest : Judge := fun s p =>
  match portOfTarget p.target with
  | none => none
  | some n => badIf (s.port[n].tc.st ≠ .disabled && !s.port[n].tc.st.unatt)

/-- The HEALTH cause of each Station test that has failed (R501, R582): the margin of the bank named; the corrections of the
store's pages; the NET loop and the ADC reference have none. -/
def stationFaults (s : State) (failed : BitVec 4) (bank : Fin 2) (count : Nat) : State :=
  let s := if bit failed 0 then s.raiseHealth 7 0xFF bank.val 0 else s
  if bit failed 1 then s.raiseHealth 12 0xFF 0 count else s

/-- A Port is held in DISABLED while its tests run; the Station's tests end at once with their outcome. -/
def effSelftest (station : BitVec 4) (bank : Fin 2) (count : Nat) : Effect := fun s c =>
  let s := s.accept c
  match portOfTarget c.p.target with
  | some n =>
    s.modPort n fun q =>
      { q with test := some (CmdRef.of c, q.tc.st), tc := { q.tc with st := .disabled, opening := .opened } }
  | none =>
    (stationFaults { s with health := { s.health with station := station } } station bank count).complete (CmdRef.of c) stOk
      (leBytes 4 station.toNat)
def execSelftest (p : Packet) (station : BitVec 4) (bank : Fin 2) (count : Nat) (s : State) :
    Host.Outcome State Fault Refusal :=
  opcodeRow 0x0803 judgeSelftest (effSelftest station bank count) p s

end Sys2Proof.Machine
end

