-- ==== Sys2Proof/Machine/HostTrace.lean ====
section
/-! DEFINITION. The opcodes of the trace and measurement group (R494) and of the hot-swap and sequencer group (R495). -/
namespace Sys2Proof.Machine

/-! ### ENERGY_SNAPSHOT, HK_READ (R376, R379, R494) -/

def effEnergySnapshot : Effect := fun s c =>
  let x := s.hostSnapshot c.stamp
  s.ok c (leBytes 8 x.1.toNat ++ leBytes 2 x.2.1 ++ List.replicate 6 0 ++
    x.2.2.flatMap fun p => leBytes 8 p.1.toNat ++ leBytes 8 p.2.toNat)
def execEnergySnapshot (p : Packet) (s : State) : Host.Outcome State Fault Refusal :=
  opcodeRow 0x0500 noJudge effEnergySnapshot p s

def hkList (h : HkScan) : List (BitVec 16) :=
  [h.vbp, h.vhold, h.vcp, h.vdd33, h.vdd09, h.vddnt, h.int33, h.vconn0, h.vconn1, h.vconn2, h.vconn3, h.tHv, h.tLogic]
def effHkRead : Effect := fun s c => s.ok c (((hkList s.hk).map fun x => leBytes 2 x.toNat).flatten)
def execHkRead (p : Packet) (s : State) : Host.Outcome State Fault Refusal := opcodeRow 0x0503 noJudge effHkRead p s

/-! ### Sketches (R261, R397-R399, R494) -/

/-- The Platform TARGET names. -/
def platOfTarget (t : BitVec 16) : Option PlatId :=
  match Obj.ofTarget t with
  | some (.plat k) => some k
  | _ => none

/-- A line of SKETCH_LIST. -/
def sketchLine : Option Sketch → List Byte
  | none => List.replicate 12 0
  | some x => leBytes 1 (if x.complete then 2 else 1) ++ leBytes 1 x.port.val ++ leBytes 1 x.cause.code ++ [0] ++
      leBytes 8 x.trigCt.toNat
def effSketchList : Effect := fun s c =>
  s.ok c ((s.plat.toList.map fun (k : Platform) => (k.slots.toList.map sketchLine).flatten).flatten)
def execSketchList (p : Packet) (s : State) : Host.Outcome State Fault Refusal := opcodeRow 0x0510 noJudge effSketchList p s

/-- The slot a payload names, and what it holds. -/
def State.slotNamed (s : State) (p : Packet) : Option (PlatId × Fin 8 × Sketch) :=
  match platOfTarget p.target with
  | none => none
  | some k =>
    if h : (p.payload.headD 0).toNat < 8 then
      let i : Fin 8 := ⟨_, h⟩
      s.plat[k].slots[i].map fun x => (k, i, x)
    else none

/-- Bytes of a Sketch; records not yet captured read 0. -/
def Sketch.bytes (x : Sketch) (slot off k : Nat) : List Byte :=
  (((x.header slot ++ x.recs.flatMap Sample.bytes).drop off).take k ++ List.replicate k 0).take k

def judgeSketchRead : Judge := fun s p =>
  let off := le32 p.payload 2
  let k := le16 p.payload 6
  badIf ((s.slotNamed p).isNone || p.payload.getD 1 0 ≠ 0 || rangeBad off k 32832)
def effSketchRead : Effect := fun s c =>
  match s.slotNamed c.p with
  | none => s
  | some (_, i, x) => s.ok c (x.bytes i.val (le32 c.p.payload 2) (le16 c.p.payload 6))
def execSketchRead (p : Packet) (s : State) : Host.Outcome State Fault Refusal :=
  opcodeRow 0x0511 judgeSketchRead effSketchRead p s

/-- A complete Sketch is named. -/
def State.slotComplete (s : State) (p : Packet) : Bool :=
  p.payload.getD 1 0 = 0 && (s.slotNamed p).any fun x => x.2.2.complete

def judgeSketchPush : Judge := fun s p =>
  badIf (!s.slotComplete p || (platOfTarget p.target).any fun k => s.plat[k].push.isSome)
def effSketchPush : Effect := fun s c =>
  match s.slotNamed c.p with
  | none => s
  | some (k, i, _) =>
    (s.accept c).modPlat k fun q => { q with push := some (i, 0, CmdRef.of c), pushCut := false }
def execSketchPush (p : Packet) (s : State) : Host.Outcome State Fault Refusal :=
  opcodeRow 0x0512 judgeSketchPush effSketchPush p s

def effSketchTrigger : Effect := fun s c =>
  match portOfTarget c.p.target with
  | none => s
  | some n =>
    let r := s.sketchNow n .command
    r.1.ok c (leBytes 1 r.2)
def execSketchTrigger (p : Packet) (s : State) : Host.Outcome State Fault Refusal :=
  opcodeRow 0x0513 noJudge effSketchTrigger p s

/-- A frame of a Platform's push is in transmission. -/
def State.pushing (s : State) (k : PlatId) : Bool :=
  match s.net.sending with
  | some (.push j _ _) => j = k
  | _ => false

def judgeSketchRelease : Judge := fun s p => badIf (!s.slotComplete p)
def effSketchRelease : Effect := fun s c =>
  match s.slotNamed c.p with
  | none => s
  | some (k, i, _) =>
    let mine := s.plat[k].push.any fun (x : Fin 8 × Nat × CmdRef) => x.1 = i
    let s := s.modPlat k fun q => { q with slots := q.slots.set i none, pushCut := q.pushCut || mine }
    (if mine && !s.pushing k then s.pushEnd k else s).ok c []
def execSketchRelease (p : Packet) (s : State) : Host.Outcome State Fault Refusal :=
  opcodeRow 0x0514 judgeSketchRelease effSketchRelease p s

/-! ### SEQ_CLEAR, SEQ_SHUTDOWN (R177, R178, R495, R580) -/

def judgeSeqClear : Judge := fun s _ => badIf (s.sq.st ≠ .latched)
def effSeqClear : Effect := fun s c =>
  let s := { s with sq := { s.sq with cause := .host, faultRail := 0xF, restart := 1, restartUp := false } }.sqGoto .down
  (s.healthClear 17).historyCopy.ok c []
def execSeqClear (p : Packet) (s : State) : Host.Outcome State Fault Refusal := opcodeRow 0x0610 judgeSeqClear effSeqClear p s

def judgeSeqShutdown : Judge := fun s _ => badIf (s.sq.st ≠ .run)
def effSeqShutdown : Effect := fun s c =>
  ({ s with sq := { s.sq with hostPend := true, restart := le16 c.p.payload 0 } } : State).ok c []
def execSeqShutdown (p : Packet) (s : State) : Host.Outcome State Fault Refusal :=
  opcodeRow 0x0611 judgeSeqShutdown effSeqShutdown p s

end Sys2Proof.Machine
end

