-- ==== Sys2Proof/Machine/Kernel.lean ====
section
/-! DEFINITION. The contexts of the Vavis cores and their memory, traps, and the kernel slots (R503, R515-R538). -/
namespace Sys2Proof.Machine

/-! ### Contexts (R503, R515-R517) -/

def State.vctx (s : State) (c : Ctx) : VCtx := if c.kernel then s.core[c.core].kn else s.core[c.core].fw

def State.modV (s : State) (c : Ctx) (f : VCtx → VCtx) : State :=
  s.modCore c.core fun v => if c.kernel then { v with kn := f v.kn } else { v with fw := f v.fw }

/-- A product written to mph and mpl. -/
def VCtx.putProd (x : VCtx) (p : BitVec 64) : VCtx := { x with mph := p.extractLsb' 32 32, mpl := p.extractLsb' 0 32 }

/-- The products that can be read in the present cycle are written, in issue order. -/
def VCtx.settle (x : VCtx) : VCtx :=
  let done := x.prods.filter fun q => decide (q.1 ≤ x.cyc)
  let x := { x with prods := x.prods.filter fun q => !decide (q.1 ≤ x.cyc) }
  match done.getLast? with
  | some q => x.putProd q.2
  | none => x

/-- Every pending product is written. -/
def VCtx.finish (x : VCtx) : VCtx :=
  match x.prods.getLast? with
  | some q => ({ x with prods := [] } : VCtx).putProd q.2
  | none => x

/-- An instruction issues: one cycle later where it reads the register just loaded, and once an accumulator it needs is
complete. -/
def VCtx.issue (x : VCtx) (reads : List Reg) (acc : Option (Fin 2)) : VCtx :=
  let c := if x.loaded.any reads.contains then x.cyc + 1 else x.cyc
  let c := match acc with
    | some k => max c x.accAt[k]
    | none => c
  ({ x with cyc := c, loaded := none } : VCtx).settle

/-! ### Loops and REP (R519-R523) -/

/-- The end tests at the present address, highest level first. -/
def loopTest : List (Fin 3) → VCtx → VCtx
  | [], x => { x with pc := x.pc + 4 }
  | k :: t, x =>
    let l := x.loops[k]
    if l.active && l.stop = x.pc then
      if 1 < l.count.toNat then { x with loops := x.loops.set k { l with count := l.count - 1 }, pc := l.start }
      else loopTest t { x with loops := x.loops.set k { l with count := 0, active := false } }
    else loopTest t x

/-- Control after an instruction that does not transfer it. -/
def VCtx.next (x : VCtx) : VCtx :=
  if 1 < x.rpt then { x with rpt := x.rpt - 1 } else loopTest [2, 1, 0] { x with rpt := 0 }

/-- The instruction stands at the end of an active level. -/
def VCtx.atEnd (x : VCtx) : Bool := x.loops.any fun l => l.active && decide (l.stop = x.pc)

/-- A target inside a level. -/
def Loop.holds (l : Loop) (t : Word) : Bool := decide (l.start.toNat ≤ t.toNat) && decide (t.toNat ≤ l.stop.toNat)

/-- A taken B or BC: the lowest active level it leaves ends, and every level above (R521). -/
def VCtx.branch (x : VCtx) (t : Word) : VCtx :=
  let k := (List.finRange 3).find? fun k => x.loops[k].active && !x.loops[k].holds t
  match k with
  | none => { x with pc := t, rpt := 0 }
  | some k =>
    { x with pc := t, rpt := 0, loops := Vector.ofFn fun i =>
        if k ≤ i then { x.loops[i] with count := 0, active := false } else x.loops[i] }

/-- Every level and any REP inactive (R532). -/
def VCtx.idle (x : VCtx) : VCtx :=
  { x.finish with rpt := 0, loops := x.loops.map fun (l : Loop) => { l with active := false } }

/-! ### Kernel cycles (R531) -/

/-- The frame a charge belongs to. -/
def State.frameNo (s : State) : Nat := s.time.ct.toNat / 2048

def initBudget : Nat := 1000000
def frameBudget (c : CoreId) : Nat := if c = coreSB then 25000 else 100000

/-- Cycles charged in the present frame. -/
def KSlot.charged (k : KSlot) (frame : Nat) : Nat := if k.frame = frame then k.charge else 0

/-- Cycles left to the invocation. -/
def KSlot.room (k : KSlot) (c : CoreId) (frame : Nat) : Nat :=
  if k.st = .staged then initBudget - k.initCharge else frameBudget c - k.charged frame

/-- Cycles charged; an invocation whose charge reaches its budget has stopped, whatever frame comes next. -/
def KSlot.spend (k : KSlot) (c : CoreId) (frame n : Nat) : KSlot :=
  if !k.busy then k
  else
    let o := k.spent || decide (k.room c frame ≤ n)
    if k.st = .staged then { k with initCharge := k.initCharge + n, spent := o }
    else
      let q := k.charged frame + n
      { k with charge := q, frame := frame, cycMax := max k.cycMax q, spent := o }

/-- Cycles of an instruction: charged to the kernel, and passed by the firmware context that it pauses. -/
def State.spend (s : State) (c : Ctx) (n : Nat) : State :=
  if c.kernel then
    s.modCore c.core fun v => { v with fw := { v.fw with cyc := v.fw.cyc + n }, slot := v.slot.spend c.core s.frameNo n }
  else s

/-- The context has so many cycles: a kernel's budget does not end before them. -/
def State.within (s : State) (c : Ctx) (n : Nat) : Bool :=
  !c.kernel || decide (n ≤ s.core[c.core].slot.room c.core s.frameNo)

/-- The invocation stops in the cycle in which its charge reaches its budget: the cycles left pass, and the instruction in
progress has no effect (R531). -/
def State.cutOff (s : State) (c : Ctx) : State :=
  let n := s.core[c.core].slot.room c.core s.frameNo
  (s.modV c fun x => { x with cyc := x.cyc + n }).spend c n

/-- The context runs nothing now. A kernel context runs in its invocation alone, and stops at its budget until KERNEL_BUDGET
comes (R527, R531); a firmware context runs while its core runs, and pauses in WAIT and while a kernel runs (R526, R527). -/
def State.halted (s : State) (c : Ctx) : Bool :=
  let v := s.core[c.core]
  if c.kernel then !v.slot.busy || v.slot.spent else !v.up || v.sleeping || v.slot.busy

/-! ### Memory (chapter 19 table, R518, R527) -/

def fwDataSize (c : CoreId) : Nat := if c = coreSB then 196608 else 65536

/-- CT_LO, CT_HI and TIME_STAT as a kernel sees them (R100, R527). -/
def State.ctWindow (s : State) : List Byte :=
  leBytes 4 s.time.ct.toNat ++ leBytes 4 (s.time.ct.toNat / 2 ^ 32) ++ leBytes 4 s.timeStat.toNat

/-- A whole access of `k` bytes inside a window. -/
def inside (a k base size : Nat) : Bool := decide (base ≤ a) && decide (a + k ≤ base + size)

/-- A load of 2 or 4 bytes; none where it traps. -/
def State.vLoad (s : State) (c : Ctx) (addr : Word) (k : Nat) : Option Nat :=
  let a := addr.toNat
  let v := s.core[c.core]
  if a % k ≠ 0 then none
  else if c.kernel then
    if inside a k 0x10000 8192 then some (leNat (Mem.read zeroByte v.slot.data (a - 0x10000) k))
    else if inside a k 0x20000 1024 then some (leNat (Mem.read zeroByte v.slot.inw (a - 0x20000) k))
    else if inside a k 0x21000 1024 then some (leNat (Mem.read zeroByte v.slot.outw (a - 0x21000) k))
    else if inside a k 0x22000 12 then some (leNat ((s.ctWindow.drop (a - 0x22000)).take k))
    else none
  else
    let b := Config.dataBase c.core
    if inside a k b (fwDataSize c.core) then some (leNat (Mem.read zeroByte v.data (a - b) k)) else none

/-- A store of bytes; none where it traps. -/
def State.vStore (s : State) (c : Ctx) (addr : Word) (bs : List Byte) : Option State :=
  let a := addr.toNat
  let k := bs.length
  if a % k ≠ 0 then none
  else if c.kernel then
    if inside a k 0x10000 8192 then
      some (s.modCore c.core fun v => { v with slot := { v.slot with data := Mem.write zeroByte v.slot.data (a - 0x10000) bs } })
    else if inside a k 0x21000 1024 then
      some (s.modCore c.core fun v => { v with slot := { v.slot with outw := Mem.write zeroByte v.slot.outw (a - 0x21000) bs } })
    else none
  else
    let b := Config.dataBase c.core
    if inside a k b (fwDataSize c.core) then
      some (s.modCore c.core fun v => { v with data := Mem.write zeroByte v.data (a - b) bs })
    else none

/-- The word of code at an address. -/
def State.codeWord (s : State) (c : Ctx) (a : Word) : Word :=
  let v := s.core[c.core]
  Mem.word zeroByte (if c.kernel then v.slot.code else v.code) a.toNat

/-! ### The end of an invocation (R526, R529-R532, R538) -/

/-- The kernel context leaves its invocation. -/
def VCore.leave (v : VCore) : VCore :=
  { v with kn := v.kn.idle, fw := { v.fw with cyc := v.fw.cyc + 4 }, slot := { v.slot with busy := false, spent := false } }

/-- An invocation ends by trap or budget: its outputs are discarded and the slot takes a new state. -/
def State.kernelEnd (s : State) (c : CoreId) (st : KState) : State :=
  let k := s.core[c].slot
  if !k.busy then s
  else
    let s := s.modCore c fun v => { v.leave with slot := { v.leave.slot with st := st, due := none, host := none } }
    let s := (s.kernelEvent c).completeOpt k.host stOk (leBytes 4 k.kid.toNat)
    if c = coreSB && decide (k.st = .running) then s.policyAnswer false else s

/-- A trap: pending products complete; a kernel is faulted, and in a firmware context the core's watchdog expires. -/
def State.trap' (s : State) (c : Ctx) : State :=
  let s := s.modV c VCtx.finish
  if c.kernel then s.kernelEnd c.core .faulted
  else if h : c.core.val < 4 then s.platDog ⟨c.core.val, h⟩
  else s.sbDog

/-- KERNEL_BUDGET. -/
def execKernelBudget (core : CoreId) (s : State) : Host.Outcome State Fault Refusal :=
  .next (if s.core[core].slot.busy && s.core[core].slot.spent then s.kernelEnd core .stopped else s)

/-! ### Filter invocations (R534, R535) -/

/-- Port j of a Platform. -/
def portAt (k : PlatId) (j : Fin 6) : PortId := ⟨6 * k.val + j.val, by omega⟩

/-- A set of the six ports as bits. -/
def portBits (k : PlatId) (p : PortId → Bool) : Nat := ((List.finRange 6).map fun j => b2n (p (portAt k j)) * 2 ^ j.val).sum

/-- The port traces with FILT = 1. -/
def State.filters (s : State) (n : PortId) : Bool :=
  let w := s.port[n].ms.trace.cfg
  traceOn w && traceFilt w

/-- The port completes a group with the block that begins at `blk`. -/
def State.groupDone (s : State) (blk : Nat) (n : PortId) : Bool :=
  let w := s.port[n].ms.trace.cfg
  traceOn w && decide ((blk + 16) % groupLen w = 0)

/-- The sum of the last complete block's codes of a channel. -/
def State.blockSum (s : State) (n : PortId) (c : Nat) : Int :=
  let w := s.port[n].ms.trace.cfg
  if s.filters n && bit w (24 + c) then
    (((s.port[n].pp.hist.drop (s.sidx % 16)).take 16).map fun x => chanCode w x c).sum
  else 0

/-- Every SUM of the IN window, port by port. -/
def State.blockSums (s : State) (k : PlatId) : List Int :=
  ((List.finRange 6).map fun j => (List.range 4).map fun c => s.blockSum (portAt k j) c).flatten

/-- The filter kernel is invoked for a block. SEQ counts the invocations since the kernel started. -/
def State.filterBegin (s : State) (k : PlatId) (grp blk : Nat) (sums : List Int) : State :=
  let c := coreOf k
  let q := s.core[c].slot
  let left := frameBudget c - q.charged s.frameNo
  let inb := leBytes 4 (q.seq + Config.firstSeq.val) ++ leBytes 4 grp ++ leBytes 4 (portBits k s.filters) ++
    leBytes 4 q.missed ++ leBytes 4 blk ++ leBytes 4 left ++ List.replicate 8 0 ++
    (sums.map fun x => leBytes 4 (BitVec.ofInt 32 x).toNat).flatten
  s.modCore c fun v =>
    ({ v with slot := { v.slot with inw := Mem.write zeroByte v.slot.inw 0 inb, grp := grp, blk := blk, seq := v.slot.seq + 1,
                                    due := none } } : VCore).enter v.slot.run

/-- FILTER_INVOCATION: 0.4 µs after the last sample of a block. -/
def execFilterInvocation (k : PlatId) (s : State) : Host.Outcome State Fault Refusal :=
  let c := coreOf k
  let q := s.core[c].slot
  let blk := s.sidx / 16 * 16 - 16
  let grp := portBits k (s.groupDone blk)
  .next (if s.core[c].up && q.st = .running && (List.finRange 6).any (fun j => s.filters (portAt k j)) && decide (16 ≤ s.sidx) then
    if q.busy then
      s.modCore c fun v => { v with slot := { v.slot with due := some (grp, blk, s.blockSums k),
                                                          missed := v.slot.missed + b2n v.slot.due.isSome } }
    else s.filterBegin k grp blk (s.blockSums k)
  else s)

/-- An OUT word in the coding of its channel (R373, R535), and whether it was saturated. -/
def outCode (w : Word) (ch : Nat) (x : Int) : BitVec 16 × Bool :=
  let signed := ch = 2 || (ch = 3 && !bit w 30)
  let (lo, hi) : Int × Int := if signed then (-32768, 32767) else (0, 65535)
  (BitVec.ofInt 16 (max lo (min hi x)), decide (x < lo) || decide (hi < x))

/-- The values a kernel commits for a group. -/
def Trace.commit (t : Trace) (sidx : Nat) (vals : List (BitVec 16)) (sat : Bool) : Trace :=
  let put (g : TrGroup) : TrGroup := if g.sidx = sidx then { g with kern := some vals } else g
  let mark (fl : Byte) (gs : List TrGroup) : Byte :=
    if sat && traceFilt t.cfg && gs.any fun g => g.sidx = sidx then fl ||| 0x20 else fl
  { t with groups := t.groups.map put, flags := mark t.flags t.groups,
           held := t.held.map fun (f : TrFrame) => { f with groups := f.groups.map put, flags := mark f.flags f.groups } }

/-- The OUT window committed for every port whose group the block completes. -/
def State.commitOut (s : State) (k : PlatId) : State :=
  let q := s.core[coreOf k].slot
  (List.finRange 6).foldl (fun s j =>
    if q.grp.testBit j.val then
      s.modMs (portAt k j) fun m =>
        let w := m.trace.cfg
        let r := (List.range 4).map fun c =>
          outCode w c (Mem.word zeroByte q.outw (4 * (4 * j.val + c))).toInt
        { m with trace := m.trace.commit (q.blk + 16 - groupLen w) (r.map Prod.fst) (r.any fun x => x.2) }
    else s) s

/-- YIELD ends an invocation: INIT makes the slot running; RUN commits its answer, and an invocation that is due starts. -/
def State.yieldEnd (s : State) (c : CoreId) : State :=
  let q := s.core[c].slot
  let s := s.modCore c VCore.leave
  if !q.busy then s
  else if q.st = .staged then
    let s := s.modCore c fun v => { v with slot := { v.slot with st := .running, host := none } }
    (s.kernelEvent c).completeOpt q.host stOk (leBytes 4 q.kid.toNat)
  else if h : c.val < 4 then
    let k : PlatId := ⟨c.val, h⟩
    let s := s.commitOut k
    match q.due with
    | some (g, b, l) => s.filterBegin k g b l
    | none => s
  else s.policyAnswer true

end Sys2Proof.Machine
end

