-- ==== Sys2Proof/Machine/Vavis.lean ====
section
/-! DEFINITION. The Vavis instructions (chapter 19, R509-R525, R533), each run in a context. A context that
does not run executes nothing (R526, R527, R531). -/
namespace Sys2Proof.Machine

abbrev Out := Host.Outcome State Fault Refusal

/-! ### Running an instruction (R515-R518) -/

/-- A trap, its stalls and the cycle it is raised in charged (log entry 163); where that cycle reaches the budget the invocation
has stopped instead (R518, R531). -/
def State.trapIn (s : State) (c : Ctx) (stall : Nat) (x : VCtx) : State :=
  if !s.within c (stall + 1) then s.cutOff c
  else
    let t := (s.modV c fun _ => { x with cyc := x.cyc + 1 }).spend c (stall + 1)
    if t.halted c then t else t.trap' c

/-- The context runs an instruction of `n` cycles, with its stalls, to its end (R526, R527, R531). -/
def State.canRun (s : State) (c : Ctx) (reads : List Reg) (acc : Option (Fin 2)) (n : Nat) : Bool :=
  !s.halted c && s.within c (((s.vctx c).issue reads acc).cyc - (s.vctx c).cyc + n)

/-- An instruction with its registers read and the accumulator it waits for, its cycles, and its effect after issue; an effect of
none is a trap. The effect leaves the program counter where the next instruction stands. A kernel whose budget ends before the
instruction does stops within it. -/
def State.issueRun (s : State) (c : Ctx) (reads : List Reg) (acc : Option (Fin 2)) (g : State → VCtx → Option (State × VCtx × Nat)) :
    Out :=
  .next (if s.halted c then s
  else
    let x := (s.vctx c).issue reads acc
    let stall := x.cyc - (s.vctx c).cyc
    match g s x with
    | none => s.trapIn c stall x
    | some (s', y, n) =>
      if s.within c (stall + n) then (s'.modV c fun _ => { y with cyc := x.cyc + n }).spend c (stall + n) else s.cutOff c)

/-- An instruction without memory access: one effect on its context, and then the next instruction. -/
def State.vRun (s : State) (c : Ctx) (reads : List Reg) (acc : Option (Fin 2)) (n : Nat) (f : VCtx → VCtx) : Out :=
  s.issueRun c reads acc fun s x => some (s, (f x).next, n)

/-- Control instructions trap at the end address of an active level (R522). -/
def State.ctlRun (s : State) (c : Ctx) (reads : List Reg) (g : VCtx → Option (VCtx × Nat)) : Out :=
  s.issueRun c reads none fun s x => if x.atEnd then none else (g x).map fun y => (s, y)

/-! ### Register results (R509-R514) -/

def VCtx.set (x : VCtx) (d : Reg) (r : Word) : VCtx := { x with v := x.v.set d r }

/-- D ← r with Z and N. -/
def VCtx.putZN (x : VCtx) (d : Reg) (r : Word) : VCtx := { x.set d r with fl := flZN x.fl r }

/-- D ← the exact result reduced to 32 bits, with Z, N and V. -/
def VCtx.putV (x : VCtx) (d : Reg) (m : MMode) (e : Int) : VCtx :=
  let r : Word := reduce 32 (satMode m x.sat) e
  { x.set d r with fl := flV (flZN x.fl r) (outside 32 e) }

/-- As putV, with C. -/
def VCtx.putC (x : VCtx) (d : Reg) (m : MMode) (e : Int) (carry : Bool) : VCtx :=
  let y := x.putV d m e
  { y with fl := flC y.fl carry }

/-- D ← the limit of a division by zero, with Z, N, V and DZ. -/
def VCtx.putDZ (x : VCtx) (d : Reg) (a : Int) : VCtx :=
  let r := quotZero a
  { x.set d r with fl := flDZ (flV (flZN x.fl r) true) true }

/-- The shift amount of the register forms. -/
def shAmount (b : Word) : Nat := bits b 7 0

def VCtx.shiftL (x : VCtx) (d a : Reg) (m : MMode) (n : Nat) : VCtx := x.putV d m (x.v[a].toInt * 2 ^ n)
def VCtx.shiftR (x : VCtx) (d a : Reg) (r : RMode) (n : Nat) : VCtx :=
  x.putZN d (BitVec.ofInt 32 (roundShift (roundMode r x.rnd) x.v[a].toInt n))
def VCtx.shiftRL (x : VCtx) (d a : Reg) (n : Nat) : VCtx := x.putZN d (x.v[a] >>> n)

/-! ### No operation, sums, logic, moves -/

def execNop (c : Ctx) (s : State) : Out := s.vRun c [] none 1 id

def execAdd (c : Ctx) (d a b : Reg) (m : MMode) (s : State) : Out :=
  s.vRun c [a, b] none 1 fun x => x.putC d m (x.v[a].toInt + x.v[b].toInt) (carryOut x.v[a] x.v[b])
def execSub (c : Ctx) (d a b : Reg) (m : MMode) (s : State) : Out :=
  s.vRun c [a, b] none 1 fun x => x.putC d m (x.v[a].toInt - x.v[b].toInt) (decide (x.v[b].toNat ≤ x.v[a].toNat))
def execNeg (c : Ctx) (d a : Reg) (m : MMode) (s : State) : Out := s.vRun c [a] none 1 fun x => x.putV d m (-x.v[a].toInt)
def execAbs (c : Ctx) (d a : Reg) (m : MMode) (s : State) : Out :=
  s.vRun c [a] none 1 fun x => x.putV d m x.v[a].toInt.natAbs
def execMin (c : Ctx) (d a b : Reg) (s : State) : Out :=
  s.vRun c [a, b] none 1 fun x => x.putZN d (if x.v[a].slt x.v[b] then x.v[a] else x.v[b])
def execMax (c : Ctx) (d a b : Reg) (s : State) : Out :=
  s.vRun c [a, b] none 1 fun x => x.putZN d (if x.v[a].slt x.v[b] then x.v[b] else x.v[a])

/-- CMP: Z and N of the modular difference (log entry 40, DEDUCED), C and V as SUB. -/
def execCmp (c : Ctx) (a b : Reg) (s : State) : Out :=
  s.vRun c [a, b] none 1 fun x =>
    { x with fl := flC (flV (flZN x.fl (x.v[a] - x.v[b])) (outside 32 (x.v[a].toInt - x.v[b].toInt)))
                       (decide (x.v[b].toNat ≤ x.v[a].toNat)) }

def execAnd (c : Ctx) (d a b : Reg) (s : State) : Out := s.vRun c [a, b] none 1 fun x => x.putZN d (x.v[a] &&& x.v[b])
def execOr (c : Ctx) (d a b : Reg) (s : State) : Out := s.vRun c [a, b] none 1 fun x => x.putZN d (x.v[a] ||| x.v[b])
def execXor (c : Ctx) (d a b : Reg) (s : State) : Out := s.vRun c [a, b] none 1 fun x => x.putZN d (x.v[a] ^^^ x.v[b])

def execShl (c : Ctx) (d a b : Reg) (m : MMode) (s : State) : Out :=
  s.vRun c [a, b] none 1 fun x => x.shiftL d a m (shAmount x.v[b])
def execShr (c : Ctx) (d a b : Reg) (r : RMode) (s : State) : Out :=
  s.vRun c [a, b] none 1 fun x => x.shiftR d a r (shAmount x.v[b])
def execShrl (c : Ctx) (d a b : Reg) (s : State) : Out := s.vRun c [a, b] none 1 fun x => x.shiftRL d a (shAmount x.v[b])
def execShli (c : Ctx) (d a : Reg) (m : MMode) (sh : BitVec 5) (s : State) : Out :=
  s.vRun c [a] none 1 fun x => x.shiftL d a m sh.toNat
def execShri (c : Ctx) (d a : Reg) (r : RMode) (sh : BitVec 5) (s : State) : Out :=
  s.vRun c [a] none 1 fun x => x.shiftR d a r sh.toNat
def execShrli (c : Ctx) (d a : Reg) (sh : BitVec 5) (s : State) : Out := s.vRun c [a] none 1 fun x => x.shiftRL d a sh.toNat

def execMov (c : Ctx) (d a : Reg) (s : State) : Out := s.vRun c [a] none 1 fun x => x.putZN d x.v[a]

/-- DIV: the limit where the quotient lies outside Q1.31, in either mode. -/
def execDiv (c : Ctx) (d a b : Reg) (s : State) : Out :=
  s.vRun c [a, b] none 18 fun x =>
    if x.v[b] = 0 then x.putDZ d x.v[a].toInt else x.putV d .saturating (quotFrac x.v[a].toInt x.v[b].toInt)
def execIdiv (c : Ctx) (d a b : Reg) (m : MMode) (s : State) : Out :=
  s.vRun c [a, b] none 18 fun x =>
    if x.v[b] = 0 then x.putDZ d x.v[a].toInt else x.putV d m (x.v[a].toInt.tdiv x.v[b].toInt)

def execAddi (c : Ctx) (d a : Reg) (imm : BitVec 18) (s : State) : Out :=
  s.vRun c [a] none 1 fun x => x.putC d .follow (x.v[a].toInt + imm.toInt) (carryOut x.v[a] (sext18 imm))
def execAndi (c : Ctx) (d a : Reg) (imm : BitVec 18) (s : State) : Out :=
  s.vRun c [a] none 1 fun x => x.putZN d (x.v[a] &&& zext18 imm)
def execOri (c : Ctx) (d a : Reg) (imm : BitVec 18) (s : State) : Out :=
  s.vRun c [a] none 1 fun x => x.putZN d (x.v[a] ||| zext18 imm)
def execLui (c : Ctx) (d : Reg) (imm : BitVec 22) (s : State) : Out :=
  s.vRun c [] none 1 fun x => x.set d (imm.zeroExtend 32 <<< 10)

/-! ### Memory -/

/-- A load of D: 2 or 4 bytes at an address. -/
def VCtx.load (x : VCtx) (d : Reg) (r : Word) : VCtx := { x.set d r with loaded := some d }

def execLd (c : Ctx) (d a : Reg) (imm : BitVec 18) (s : State) : Out :=
  s.issueRun c [a] none fun s x =>
    (s.vLoad c (x.v[a] + sext18 imm) 4).map fun w => (s, (x.load d (BitVec.ofNat 32 w)).next, 1)
def execLdh (c : Ctx) (d a : Reg) (imm : BitVec 18) (s : State) : Out :=
  s.issueRun c [a] none fun s x =>
    (s.vLoad c (x.v[a] + sext18 imm) 2).map fun w => (s, (x.load d ((BitVec.ofNat 16 w).signExtend 32)).next, 1)
def execSt (c : Ctx) (d a : Reg) (imm : BitVec 18) (s : State) : Out :=
  s.issueRun c [d, a] none fun s x =>
    (s.vStore c (x.v[a] + sext18 imm) (leBytes 4 x.v[d].toNat)).map fun s' => (s', x.next, 1)
def execSth (c : Ctx) (d a : Reg) (imm : BitVec 18) (s : State) : Out :=
  s.issueRun c [d, a] none fun s x =>
    (s.vStore c (x.v[a] + sext18 imm) (leBytes 2 x.v[d].toNat)).map fun s' => (s', x.next, 1)

/-- LDP: D is loaded before A moves (log entry 41). -/
def execLdp (c : Ctx) (d a : Reg) (imm : BitVec 18) (s : State) : Out :=
  s.issueRun c [a] none fun s x =>
    (s.vLoad c x.v[a] 4).map fun w =>
      let y := x.load d (BitVec.ofNat 32 w)
      (s, (y.set a (y.v[a] + sext18 imm)).next, 1)

/-! ### Products (R513, R516) -/

/-- A product that can be read three cycles on. -/
def VCtx.product (x : VCtx) (p : BitVec 64) : VCtx := { x with prods := x.prods ++ [(x.cyc + 3, p)] }

def execMul (c : Ctx) (a b : Reg) (s : State) : Out :=
  s.vRun c [a, b] none 1 fun x => x.product (BitVec.ofInt 64 (x.v[a].toInt * x.v[b].toInt))

def execFmul (c : Ctx) (a b : Reg) (m : MMode) (s : State) : Out :=
  s.vRun c [a, b] none 1 fun x =>
    let e := 2 * x.v[a].toInt * x.v[b].toInt
    { x.product (reduce 64 (satMode m x.sat) e) with fl := flV x.fl (outside 64 e) }

/-- PRODUCT_WRITE: the products whose cycle has come stand in mph and mpl. -/
def execProductWrite (c : Ctx) (s : State) : Out := .next (s.modV c VCtx.settle)

/-! ### Accumulators (R513, R517) -/

/-- acck ← the exact value reduced to 40 bits, with AVk; complete two cycles after the one that follows the issue. -/
def VCtx.accPut (x : VCtx) (k : Bool) (m : MMode) (e : Int) : VCtx :=
  let i : Fin 2 := if k then 1 else 0
  { x with acc := x.acc.set i (reduce 40 (satMode m x.sat) e), accAt := x.accAt.set i (x.cyc + 3),
           fl := flAV x.fl k (outside 40 e) }

def accIdx (k : Bool) : Fin 2 := if k then 1 else 0

/-- The product term of MAC, MSU and MACM. -/
def VCtx.term (x : VCtx) (r : RMode) (a b : Word) : Int := roundShift (roundMode r x.rnd) (a.toInt * b.toInt) 31

def execMac (c : Ctx) (k : Bool) (a b : Reg) (m : MMode) (r : RMode) (s : State) : Out :=
  s.vRun c [a, b] none 1 fun x => x.accPut k m (x.acc[accIdx k].toInt + x.term r x.v[a] x.v[b])
def execMsu (c : Ctx) (k : Bool) (a b : Reg) (m : MMode) (r : RMode) (s : State) : Out :=
  s.vRun c [a, b] none 1 fun x => x.accPut k m (x.acc[accIdx k].toInt - x.term r x.v[a] x.v[b])

/-- MACM: both pointers move by 4, once each: one register named twice moves by 8 (log entry 42). -/
def execMacm (c : Ctx) (k : Bool) (a b : Reg) (m : MMode) (r : RMode) (s : State) : Out :=
  s.issueRun c [a, b] none fun s x =>
    match s.vLoad c x.v[a] 4, s.vLoad c x.v[b] 4 with
    | some p, some q =>
      let y := x.accPut k m (x.acc[accIdx k].toInt + x.term r (BitVec.ofNat 32 p) (BitVec.ofNat 32 q))
      let y := y.set a (y.v[a] + 4)
      some (s, (y.set b (y.v[b] + 4)).next, 1)
    | _, _ => none

def VCtx.accSet (x : VCtx) (k : Bool) (r : Acc) : VCtx := { x with acc := x.acc.set (accIdx k) r }

def execAclr (c : Ctx) (k : Bool) (s : State) : Out := s.vRun c [] (some (accIdx k)) 1 fun x => x.accSet k 0
def execAccl (c : Ctx) (k : Bool) (a : Reg) (s : State) : Out :=
  s.vRun c [a] (some (accIdx k)) 1 fun x => x.accSet k (x.v[a].signExtend 40)
def execAccs (c : Ctx) (k : Bool) (d : Reg) (m : MMode) (r : RMode) (sh : BitVec 5) (s : State) : Out :=
  s.vRun c [] (some (accIdx k)) 1 fun x => x.putV d m (roundShift (roundMode r x.rnd) x.acc[accIdx k].toInt sh.toNat)
def execAccx (c : Ctx) (k : Bool) (d : Reg) (s : State) : Out :=
  s.vRun c [] (some (accIdx k)) 1 fun x => x.putZN d ((x.acc[accIdx k].extractLsb' 31 9).signExtend 32)
def execAccsh (c : Ctx) (k : Bool) (r : RMode) (sh : BitVec 5) (s : State) : Out :=
  s.vRun c [] (some (accIdx k)) 1 fun x =>
    x.accSet k (BitVec.ofInt 40 (roundShift (roundMode r x.rnd) x.acc[accIdx k].toInt sh.toNat))

/-! ### Special registers (R504) -/

/-- A special register read. -/
def VCtx.special (x : VCtx) (c : Ctx) (i : Fin 16) : Word :=
  match i.val with
  | 0 => x.fl.zeroExtend 32
  | 1 => BitVec.ofNat 32 (2 * x.rnd.toNat + b2n x.sat)
  | 2 => x.mph
  | 3 => x.mpl
  | 4 => x.loops[0].start
  | 5 => x.loops[0].stop
  | 6 => x.loops[0].count
  | 7 => x.loops[1].start
  | 8 => x.loops[1].stop
  | 9 => x.loops[1].count
  | 10 => x.loops[2].start
  | 11 => x.loops[2].stop
  | 12 => x.loops[2].count
  | 13 => BitVec.ofNat 32 x.rpt
  | 14 => BitVec.ofNat 32 x.cyc
  | _ => BitVec.ofNat 32 (c.core.val + 256 * b2n c.kernel)

/-- A special register written; a write to one that only reads is ignored. -/
def VCtx.putSpecial (x : VCtx) (i : Fin 16) (w : Word) : VCtx :=
  let lp (k : Fin 3) (f : Loop → Loop) : VCtx := { x with loops := x.loops.set k (f x.loops[k]) }
  match i.val with
  | 0 => { x with fl := w.setWidth 8 }
  | 1 => { x with sat := bit w 0, rnd := w.extractLsb' 1 2 }
  | 4 => lp 0 fun l => { l with start := w }
  | 5 => lp 0 fun l => { l with stop := w }
  | 6 => lp 0 fun l => { l with count := w }
  | 7 => lp 1 fun l => { l with start := w }
  | 8 => lp 1 fun l => { l with stop := w }
  | 9 => lp 1 fun l => { l with count := w }
  | 10 => lp 2 fun l => { l with start := w }
  | 11 => lp 2 fun l => { l with stop := w }
  | 12 => lp 2 fun l => { l with count := w }
  | _ => x

def execMvs (c : Ctx) (d : Reg) (index : Fin 16) (s : State) : Out := s.vRun c [] none 1 fun x => x.set d (x.special c index)
def execSmv (c : Ctx) (index : Fin 16) (a : Reg) (s : State) : Out := s.vRun c [a] none 1 fun x => x.putSpecial index x.v[a]

/-! ### Control (R509, R519-R525) -/

def execB (c : Ctx) (off : BitVec 26) (s : State) : Out := s.ctlRun c [] fun x => some (x.branch (x.pc + wordOff26 off), 3)

def execCall (c : Ctx) (off : BitVec 26) (s : State) : Out :=
  s.ctlRun c [] fun x => some ({ x.set 15 (x.pc + 4) with pc := x.pc + wordOff26 off }, 3)

def execRet (c : Ctx) (s : State) : Out := s.ctlRun c [15] fun x => some ({ x with pc := x.v[(15 : Reg)] }, 3)

/-- BC. A condition that is not defined is an illegal instruction (R508). -/
def execBc (c : Ctx) (cond : Fin 16) (off : BitVec 18) (s : State) : Out :=
  s.ctlRun c [] fun x =>
    if !condOk cond.val then none
    else if condHolds x.fl cond.val then some (x.branch (x.pc + wordOff18 off), 3)
    else some (x.next, 1)

/-- The level may open: no level above it is active, and it ends within every active lower level (R520). -/
def VCtx.loopOk (x : VCtx) (k : Fin 3) (stop : Word) : Bool :=
  (List.finRange 3).all fun j =>
    !x.loops[j].active || (if k < j then false else if j < k then decide (stop.toNat ≤ x.loops[j].stop.toNat) else true)

/-- LOOP (R519). -/
def execLoop (c : Ctx) (k : Fin 3) (count : Count) (endOff : BitVec 11) (s : State) : Out :=
  s.ctlRun c (countReads count) fun x =>
    let stop := x.pc + BitVec.ofNat 32 (4 * endOff.toNat)
    let n := loopCount x.v count
    if endOff = 0 || !x.loopOk k stop then none
    else
      let y := { x with loops := x.loops.set k { start := x.pc + 4, stop := stop, count := n, active := n ≠ 0 } }
      some (if n = 0 then ({ y with pc := stop + 4 }, 3) else ({ y with pc := x.pc + 4 }, 1))

/-- REP (R523-R525). -/
def execRep (c : Ctx) (count : Count) (s : State) : Out :=
  s.ctlRun c (countReads count) fun x =>
    if controlWord (s.codeWord c (x.pc + 4)) then none
    else
      let n := repCount x.v count
      some (if n = 0 then ({ x with pc := x.pc + 8, rpt := 0 }, 1) else ({ x with pc := x.pc + 4, rpt := n }, 1))

/-! ### SYS, YIELD, WAIT (R526, R533) -/

/-- TT_READ. -/
def execTtRead (c : Ctx) (s : State) : Out :=
  s.ctlRun c [] fun x => some (((x.set 1 s.ttStat).set 2 s.ttUsed).next, 4)

/-- BUDGET: the cycles charged before this call (log entry 43). -/
def execBudget (c : Ctx) (s : State) : Out :=
  s.ctlRun c [] fun x =>
    let k := s.core[c.core].slot
    let init := k.busy && k.st = .staged
    let used := if init then k.initCharge else k.charged s.frameNo
    let left := (if init then initBudget else frameBudget c.core) - used
    some (((x.set 1 (BitVec.ofNat 32 used)).set 2 (BitVec.ofNat 32 left)).next, 4)

/-- YIELD: one cycle, and the invocation ends unless that cycle reaches its budget. -/
def execYield (c : Ctx) (s : State) : Out :=
  .next (if s.halted c then s
  else
    let x := (s.vctx c).issue [] none
    if !c.kernel || x.atEnd then s.trapIn c 0 x
    else
      let s := (s.modV c fun _ => { x with cyc := x.cyc + 1 }).spend c 1
      if s.halted c then s else s.yieldEnd c.core)

/-- WAIT: firmware sleeps until a bit is set in the event register. -/
def execWait (c : Ctx) (s : State) : Out :=
  if c.kernel then s.ctlRun c [] fun _ => none
  else
    s.issueRun c [] none fun s x =>
      if x.atEnd then none
      else some (s.modCore c.core fun v => { v with sleeping := decide (v.event = 0) }, { x with pc := x.pc + 4 }, 1)

/-- The command a word of code spells in a context, its operands taken from its fields, as the meaning it runs (R507-R509, R533);
none for an illegal instruction. -/
def vavisDecode (c : Ctx) (w : Word) : Option (State → Out) :=
  let d := fieldD w
  let a := fieldA w
  let b := fieldB w
  let m := fieldM w
  let r := fieldRM w
  let sh := fieldSH w
  let k := bit w 4
  if !legalWord w then none
  else match bits w 31 26 with
    | 0x00 => some (execNop c)
    | 0x01 => some (execAdd c d a b m)
    | 0x02 => some (execSub c d a b m)
    | 0x03 => some (execNeg c d a m)
    | 0x04 => some (execAbs c d a m)
    | 0x05 => some (execMin c d a b)
    | 0x06 => some (execMax c d a b)
    | 0x07 => some (execCmp c a b)
    | 0x08 => some (execAnd c d a b)
    | 0x09 => some (execOr c d a b)
    | 0x0A => some (execXor c d a b)
    | 0x0B => some (execShl c d a b m)
    | 0x0C => some (execShr c d a b r)
    | 0x0D => some (execShrl c d a b)
    | 0x0E => some (execShli c d a m sh)
    | 0x0F => some (execShri c d a r sh)
    | 0x10 => some (execShrli c d a sh)
    | 0x11 => some (execMov c d a)
    | 0x12 => some (execDiv c d a b)
    | 0x13 => some (execIdiv c d a b m)
    | 0x14 => some (execAddi c d a (imm18 w))
    | 0x15 => some (execAndi c d a (imm18 w))
    | 0x16 => some (execOri c d a (imm18 w))
    | 0x17 => some (execLui c d (BitVec.ofNat 22 (bits w 21 0)))
    | 0x18 => some (execLd c d a (imm18 w))
    | 0x19 => some (execSt c d a (imm18 w))
    | 0x1A => some (execLdh c d a (imm18 w))
    | 0x1B => some (execSth c d a (imm18 w))
    | 0x1C => some (execMul c a b)
    | 0x1D => some (execFmul c a b m)
    | 0x1E => some (execMac c k a b m r)
    | 0x1F => some (execMsu c k a b m r)
    | 0x20 => some (execAclr c k)
    | 0x21 => some (execAccl c k a)
    | 0x22 => some (execAccs c k d m r sh)
    | 0x23 => some (execAccx c k d)
    | 0x24 => some (execAccsh c k r sh)
    | 0x25 => some (execMvs c d a)
    | 0x26 => some (execSmv c d a)
    | 0x27 => some (execMacm c k a b m r)
    | 0x28 => some (execB c (off26 w))
    | 0x29 => some (execCall c (off26 w))
    | 0x2A => some (execRet c)
    | 0x2B => some (execBc c d (imm18 w))
    | 0x2C => some (execLoop c (fieldLevel w) (loopField w) (BitVec.ofNat 11 (bits w 10 0)))
    | 0x2D => some (execRep c (repField w))
    | 0x30 => if bits w 15 0 = 0 then some (execTtRead c) else if bits w 15 0 = 1 then some (execBudget c) else none
    | 0x31 => if c.kernel then some (execYield c) else none
    | 0x32 => if c.kernel then none else some (execWait c)
    | 0x33 => some (execLdp c d a (imm18 w))
    | _ => none

/-- A word that the context cannot execute: it spells no command (R508, R509, R533). -/
def illegalIn (c : Ctx) (w : Word) : Bool := (vavisDecode c w).isNone

/-- ILLEGAL_INSTRUCTION (R508, R518). -/
def execIllegalInstruction (c : Ctx) (word : Word) (s : State) : Out :=
  .next (if !illegalIn c word || s.halted c then s else s.trapIn c 0 ((s.vctx c).issue [] none))

end Sys2Proof.Machine
end

