-- ==== Sys2Proof/Machine/HostCores.lean ====
section
/-! DEFINITION. The opcodes of the kernels-and-firmware group (R496, R497, R528-R530, R567-R577). -/
namespace Sys2Proof.Machine

/-! ### Slots (R528-R530) -/

/-- The core whose slot TARGET names. -/
def slotOfTarget (t : BitVec 16) : CoreId :=
  match Obj.ofTarget t with
  | some (.plat k) => coreOf k
  | _ => coreSB

def stagingSize : Nat := 24608

/-- Fields of a package. -/
structure Pkg where
  kid : Nat
  codeSize : Nat
  dataSize : Nat
  bss : Nat
  init : Nat
  run : Nat
  /-- Code words and initial data. -/
  code : List Byte
  data : List Byte
  deriving DecidableEq, Repr

def pkgOf (bs : List Byte) : Pkg :=
  let c := le32 bs 8
  { kid := le32 bs 4, codeSize := c, dataSize := le32 bs 12, bss := le32 bs 16, init := le32 bs 20, run := le32 bs 24,
    code := (bs.drop 32).take c, data := (bs.drop (32 + c)).take (le32 bs 12) }

/-- A word of kernel code at an offset passes: legal, not WAIT, its target within the code, its SYS INDEX listed (R529). -/
def wordPasses (codeSize pc : Nat) (w : Word) : Bool :=
  legalWord w && bits w 31 26 ≠ 0x32 &&
  ((wordTarget pc w).all fun (t : Int) => decide (0 ≤ t) && decide (t < codeSize)) &&
  (bits w 31 26 ≠ 0x30 || decide (bits w 15 0 ≤ 1))

/-- The checks of R529 on a staged package of so many bytes. -/
def pkgOk (kind : Nat) (bs : List Byte) : Bool :=
  let k := pkgOf bs
  decide (le16 bs 0 = 0x564B) && bs.getD 2 0 = 1 && decide ((bs.getD 3 0).toNat = kind) &&
  k.codeSize % 4 = 0 && decide (4 ≤ k.codeSize) && decide (k.codeSize ≤ 16384) && decide (k.dataSize + k.bss ≤ 8192) &&
  decide (bs.length = 32 + k.codeSize + k.dataSize) &&
  k.init % 4 = 0 && decide (k.init < k.codeSize) && k.run % 4 = 0 && decide (k.run < k.codeSize) &&
  decide ((crc32c (bs.take 28 ++ bs.drop 32)).toNat = le32 bs 28) &&
  (List.range (k.codeSize / 4)).all fun i => wordPasses k.codeSize (4 * i) (BitVec.ofNat 32 (le32 k.code (4 * i)))

/-- The slot with a package copied into it. -/
def KSlot.loadPkg (q : KSlot) (bs : List Byte) (c : CmdRef) : KSlot :=
  let k := pkgOf bs
  { q with st := .staged, kid := BitVec.ofNat 32 k.kid, size := bs.length, cycMax := 0,
           code := Mem.write zeroByte [] 0 k.code, codeSize := k.codeSize, data := Mem.write zeroByte [] 0 k.data,
           init := k.init, run := k.run, initCharge := 0, busy := false, due := none, seq := 0, missed := 0,
           host := some c }

/-- A slot emptied: its staging area stays. -/
def KSlot.unload (q : KSlot) : KSlot := { KSlot.reset with staging := q.staging }

/-- A slot takes new contents; an invocation in progress ends at once, its output discarded (R530). -/
def State.slotReplace (s : State) (c : CoreId) (f : KSlot → KSlot) : State :=
  let old := s.core[c].slot
  let s := s.modCore c fun v =>
    let v := if v.slot.busy then v.leave else v
    { v with slot := f v.slot }
  let s := if old.st ≠ s.core[c].slot.st then s.kernelEvent c else s
  let s := s.completeOpt old.host stOk (leBytes 4 old.kid.toNat)
  if old.busy && c = coreSB && decide (old.st = .running) then s.policyAnswer false else s

/-! ### KERNEL_LIST, KERNEL_WRITE, KERNEL_START, KERNEL_UNLOAD (R496) -/

def effKernelList : Effect := fun s c =>
  s.ok c ((List.finRange 5).map fun i =>
    let q := s.core[i].slot
    leBytes 1 q.st.code ++ [0, 0, 0] ++ leBytes 4 q.kid.toNat ++ leBytes 4 q.size ++ leBytes 4 q.cycMax).flatten
def execKernelList (p : Packet) (s : State) : Out := opcodeRow 0x0700 noJudge effKernelList p s

def judgeKernelWrite : Judge := fun _ p => badIf (decide (stagingSize < le32 p.payload 0 + (p.payload.length - 4)))
def effKernelWrite : Effect := fun s c =>
  let s := s.modCore (slotOfTarget c.p.target) fun v =>
    { v with slot := { v.slot with staging := Mem.write zeroByte v.slot.staging (le32 c.p.payload 0) (c.p.payload.drop 4) } }
  s.ok c []
def execKernelWrite (p : Packet) (s : State) : Out := opcodeRow 0x0701 judgeKernelWrite effKernelWrite p s

/-- KERNEL_START runs INIT once. A Platform in fallback has no core to run it (R588). -/
def judgeKernelStart : Judge := fun s p =>
  let c := slotOfTarget p.target
  let size := le32 p.payload 0
  badIf (size = 0 || decide (stagingSize < size) || !s.core[c].up ||
    !pkgOk (if c = coreSB then 2 else 1) (Mem.read zeroByte s.core[c].slot.staging 0 size))
def effKernelStart : Effect := fun s c =>
  let i := slotOfTarget c.p.target
  let bs := Mem.read zeroByte s.core[i].slot.staging 0 (le32 c.p.payload 0)
  let s := (s.accept c).slotReplace i fun q => q.loadPkg bs (CmdRef.of c)
  s.modCore i fun v => v.enter v.slot.init
def execKernelStart (p : Packet) (s : State) : Out := opcodeRow 0x0702 judgeKernelStart effKernelStart p s

def judgeKernelUnload : Judge := fun s p => badIf (decide (s.core[slotOfTarget p.target].slot.st = .empty))
def effKernelUnload : Effect := fun s c => (s.slotReplace (slotOfTarget c.p.target) KSlot.unload).ok c []
def execKernelUnload (p : Packet) (s : State) : Out := opcodeRow 0x0703 judgeKernelUnload effKernelUnload p s

/-! ### The image banks (R496, R497, R567-R576) -/

def effImageInfo : Effect := fun s c =>
  let one (b : Bank) : List Byte :=
    leBytes 1 (s.bank b).st.val ++ leBytes 1 (b2n (decide (s.sup.runBank = some b))) ++ [0, 0] ++
    leBytes 4 (s.bank b).version ++ leBytes 4 (s.bank b).arbLevel
  s.ok c (one .a ++ one .b ++ leBytes 4 s.arbSealed ++ leBytes 1 (b2n s.fuse.keySet) ++ [0, 0, 0])
def execImageInfo (p : Packet) (s : State) : Out := opcodeRow 0x0710 noJudge effImageInfo p s

/-- The bank a byte names. -/
def bankOf (b : Byte) : Option Bank := if b = 0 then some .a else if b = 1 then some .b else none

/-- BANK and its reserved byte, where the bank is not the one running. -/
def State.bankArg (s : State) (p : Packet) : Option Bank :=
  match p.payload with
  | b :: z :: _ => if z = 0 then (bankOf b).filter fun b => s.sup.runBank ≠ some b else none
  | _ => none

def judgeImageWrite : Judge := fun s p =>
  badIf (match s.bankArg p with
    | none => true
    | some b => s.verify.any (fun v => decide (v.1 = b)) || decide (0x100000 < le32 p.payload 2 + (p.payload.length - 6)))
def effImageWrite : Effect := fun s c =>
  match bankOf (c.p.payload.headD 0) with
  | none => s
  | some b =>
    (s.setBank b fun x => { x with st := 1, mem := Mem.write zeroByte x.mem (le32 c.p.payload 2) (c.p.payload.drop 6) }).ok c []
def execImageWrite (p : Packet) (s : State) : Out := opcodeRow 0x0711 judgeImageWrite effImageWrite p s

def judgeImageVerify : Judge := fun s p => badIf (s.bankArg p).isNone
def effImageVerify : Effect := fun s c =>
  match bankOf (c.p.payload.headD 0) with
  | none => s
  | some b =>
    let s := s.accept c
    { s with verify := s.verify ++ [(b, CmdRef.of c)] }
def execImageVerify (p : Packet) (s : State) : Out := opcodeRow 0x0712 judgeImageVerify effImageVerify p s

def judgeBankSelect : Judge := fun s p =>
  badIf (match s.bankArg p with
    | none => true
    | some b => (s.bank b).st ≠ 2 || s.restartBars)
/-- BANK_SELECT: an update restart; in Primer's service state Primer starts again, cold, with the named bank first. -/
def effBankSelect : Effect := fun s c =>
  match bankOf (c.p.payload.headD 0) with
  | none => s
  | some b =>
    let s := s.accept c
    if s.sup.primer = .service then
      ((s.complete (CmdRef.of c) stOk [0]).answerHeld fun _ => true).primerStart false (some b)
    else { s with sup := { s.sup with restartReq := some { bank := some b, cmd := CmdRef.of c } } }
def execBankSelect (p : Packet) (s : State) : Out := opcodeRow 0x0713 judgeBankSelect effBankSelect p s

def judgeRollbackAdvance : Judge := fun s _ =>
  badIf (s.sup.runBank.isNone || decide (s.running.arbLevel ≤ s.arbSealed))
def effRollbackAdvance : Effect := fun s c =>
  let s := s.accept c
  { s with advance := s.advance ++ [CmdRef.of c] }
def execRollbackAdvance (p : Packet) (s : State) : Out := opcodeRow 0x0714 judgeRollbackAdvance effRollbackAdvance p s

end Sys2Proof.Machine
end

