-- ==== Sys2Proof/Machine/Begin.lean ====
section
/-! DEFINITION. COMMAND_BEGIN (R419, R462, R465, R493): a command that waited is checked and carried out once those it waited
for have completed, or the oldest of those that have arrived is taken. -/
namespace Sys2Proof.Machine

/-- Steps 13 and 14, and the effect, of each opcode. -/
def opBody (op : BitVec 16) : Judge × Effect :=
  match op.toNat with
  | 0x0100 => (noJudge, effIdentity)
  | 0x0118 => (noJudge, effSubscribe)
  | 0x0101 => (judgeReadRegs 1, effReadRegs)
  | 0x0201 => (judgeReadRegs 2, effReadRegs)
  | 0x0301 => (judgeReadRegs 3, effReadRegs)
  | 0x0501 => (judgeReadRegs 5, effReadRegs)
  | 0x0601 => (judgeReadRegs 6, effReadRegs)
  | 0x0300 => (noJudge, effReadTime)
  | 0x0304 => (judgeReadChannel, effReadChannel)
  | 0x0305 => (judgeReadEntries, effReadEntries)
  | 0x0400 => (storeJudge noJudge, effStoreInfo)
  | 0x0410 => (storeJudge judgePaletteRead, effPaletteRead)
  | 0x0420 => (bothJudge (storeJudge judgeUserRead) judgeTornRead, effUserRead)
  | 0x0500 => (noJudge, effEnergySnapshot)
  | 0x0503 => (noJudge, effHkRead)
  | 0x0510 => (noJudge, effSketchList)
  | 0x0511 => (judgeSketchRead, effSketchRead)
  | 0x0700 => (noJudge, effKernelList)
  | 0x0710 => (noJudge, effImageInfo)
  | 0x0800 => (noJudge, effHealthStatus)
  | 0x0801 => (judgeLogRead, effLogRead)
  | 0x0804 => (noJudge, effOdometerRead)
  | 0x0110 => (judgeClaim, effClaim)
  | 0x0111 => (judgeMask, effRelease)
  | 0x0112 => (judgeMask, effClaimBreak)
  | 0x0120 => (judgeRestart, effRestart)
  | 0x0102 => (judgeWriteRegs 1, effWriteRegs)
  | 0x0202 => (judgeWriteRegs 2, effWriteRegs)
  | 0x0302 => (judgeWriteRegs 3, effWriteRegs)
  | 0x0502 => (judgeWriteRegs 5, effWriteRegs)
  | 0x0602 => (judgeWriteRegs 6, effWriteRegs)
  | 0x0210 => (judgeSwap, effSwap)
  | 0x0220 => (judgeAltMode, effAltMode)
  | 0x0230 => (judgePathClear, effPathClear)
  | 0x0303 => (judgeSetEpoch, effSetEpoch)
  | 0x0411 => (bothJudge (storeJudge judgePaletteWrite) judgeNewer, effPaletteWrite)
  | 0x0421 => (bothJudge (storeJudge judgeUserWrite) judgeUserPages, effUserWrite)
  | 0x0422 => (storeJudge judgeUserProtect, effUserProtect)
  | 0x0430 => (storeJudge judgeScrub, effScrub)
  | 0x0431 => (storeJudge noJudge, effWearReset)
  | 0x0432 => (storeJudge judgeFormat, effFormat)
  | 0x0512 => (judgeSketchPush, effSketchPush)
  | 0x0513 => (noJudge, effSketchTrigger)
  | 0x0514 => (judgeSketchRelease, effSketchRelease)
  | 0x0610 => (judgeSeqClear, effSeqClear)
  | 0x0611 => (judgeSeqShutdown, effSeqShutdown)
  | 0x0701 => (judgeKernelWrite, effKernelWrite)
  | 0x0702 => (judgeKernelStart, effKernelStart)
  | 0x0703 => (judgeKernelUnload, effKernelUnload)
  | 0x0711 => (judgeImageWrite, effImageWrite)
  | 0x0712 => (judgeImageVerify, effImageVerify)
  | 0x0713 => (judgeBankSelect, effBankSelect)
  | 0x0714 => (judgeRollbackAdvance, effRollbackAdvance)
  | 0x0802 => (noJudge, effLogClear)
  | 0x0803 => (judgeSelftest, effSelftest 0 0 0)
  | _ => (noJudge, fun s c => s.ok c [])

/-- The first waiting command that waits for none, with those before it and after it. -/
def State.readyAt (s : State) : List Held → List Held → Option (List Held × Held × List Held)
  | _, [] => none
  | before, c :: rest => if s.mustWait before c then s.readyAt (before ++ [c]) rest else some (before, c, rest)

/-- COMMAND_BEGIN: a command whose wait is over, or the one next in the order of R419. -/
def execCommandBegin (s : State) : Out :=
  .next (match s.readyAt [] s.waiting with
  | none =>
    match s.inbox with
    | c :: _ => if s.outranked c then s else s.takeFront c (opBody c.op).1 (opBody c.op).2
    | [] => s
  | some (before, c, rest) =>
    let b := opBody c.op
    ({ s with waiting := before ++ rest } : State).begin' c b.1 b.2)

end Sys2Proof.Machine
end

