-- ==== Sys2Proof/Machine/Dispatch.lean ====
section
/-! DEFINITION. One arm per command. -/
namespace Sys2Proof.Machine

def exec (i : Instr) (s : State) : Host.Outcome State Fault Refusal :=
  match i with
  | .preRegulatorStart uncorr marginUncorr differ pg cin reti faultN => Sys2Proof.Machine.execPreRegulatorStart uncorr marginUncorr differ pg cin reti faultN s
  | .preRegulatorReset => Sys2Proof.Machine.execPreRegulatorReset s
  | .hvSupplyLoss => Sys2Proof.Machine.execHvSupplyLoss s
  | .vcpReady mv => Sys2Proof.Machine.execVcpReady mv s
  | .vcpFault mv => Sys2Proof.Machine.execVcpFault mv s
  | .logicDieRelease vdd33 vdd09 vddnt resetN => Sys2Proof.Machine.execLogicDieRelease vdd33 vdd09 vddnt resetN s
  | .logicSupplyReset which mv => Sys2Proof.Machine.execLogicSupplyReset which mv s
  | .resetN lowNs => Sys2Proof.Machine.execResetN lowNs s
  | .sbWatchdog => Sys2Proof.Machine.execSbWatchdog s
  | .platformWatchdog k => Sys2Proof.Machine.execPlatformWatchdog k s
  | .linkSilence => Sys2Proof.Machine.execLinkSilence s
  | .linkReturn => Sys2Proof.Machine.execLinkReturn s
  | .holdOverLimit n => Sys2Proof.Machine.execHoldOverLimit n s
  | .takeBack k cc1 cc2 vbus => Sys2Proof.Machine.execTakeBack k cc1 cc2 vbus s
  | .restartBegin => Sys2Proof.Machine.execRestartBegin s
  | .restartAbandoned => Sys2Proof.Machine.execRestartAbandoned s
  | .cadTick edge => Sys2Proof.Machine.execCadTick edge s
  | .generatedTick xtal => Sys2Proof.Machine.execGeneratedTick xtal s
  | .frmMarker rise width => Sys2Proof.Machine.execFrmMarker rise width s
  | .slewEnd => Sys2Proof.Machine.execSlewEnd s
  | .cadAbsent => Sys2Proof.Machine.execCadAbsent s
  | .cadOutOfTolerance c1 c2 => Sys2Proof.Machine.execCadOutOfTolerance c1 c2 s
  | .cadQualified counts => Sys2Proof.Machine.execCadQualified counts s
  | .frmAbsent => Sys2Proof.Machine.execFrmAbsent s
  | .crystalLost => Sys2Proof.Machine.execCrystalLost s
  | .superframeStart => Sys2Proof.Machine.execSuperframeStart s
  | .frmCapRead => Sys2Proof.Machine.execFrmCapRead s
  | .slotLatch samples => Sys2Proof.Machine.execSlotLatch samples s
  | .slotChange value => Sys2Proof.Machine.execSlotChange value s
  | .channelMatch ch => Sys2Proof.Machine.execChannelMatch ch s
  | .channelWrap ch => Sys2Proof.Machine.execChannelWrap ch s
  | .chnCtrlWrite core ch value => Sys2Proof.Machine.execChnCtrlWrite core ch value s
  | .ttGo core => Sys2Proof.Machine.execTtGo core s
  | .ttCancel core index => Sys2Proof.Machine.execTtCancel core index s
  | .hsBookingRequest => Sys2Proof.Machine.execHsBookingRequest s
  | .ttCfgWrite core value => Sys2Proof.Machine.execTtCfgWrite core value s
  | .pathGrant n => Sys2Proof.Machine.execPathGrant n s
  | .setGrant n => Sys2Proof.Machine.execSetGrant n s
  | .rampGrant n => Sys2Proof.Machine.execRampGrant n s
  | .roleGrant n => Sys2Proof.Machine.execRoleGrant n s
  | .calGrant n => Sys2Proof.Machine.execCalGrant n s
  | .sinkGrant n => Sys2Proof.Machine.execSinkGrant n s
  | .reserveGrant index => Sys2Proof.Machine.execReserveGrant index s
  | .inrushSegment => Sys2Proof.Machine.execInrushSegment s
  | .qualifyTime vin => Sys2Proof.Machine.execQualifyTime vin s
  | .phaseExit => Sys2Proof.Machine.execPhaseExit s
  | .phTo => Sys2Proof.Machine.execPhTo s
  | .inrushDone vin vout => Sys2Proof.Machine.execInrushDone vin vout s
  | .pgQ vin vout gate => Sys2Proof.Machine.execPgQ vin vout gate s
  | .bpFastTrip vsns => Sys2Proof.Machine.execBpFastTrip vsns s
  | .breakerFault vsns => Sys2Proof.Machine.execBreakerFault vsns s
  | .inrTo => Sys2Proof.Machine.execInrTo s
  | .bpReverseTrip vsns => Sys2Proof.Machine.execBpReverseTrip vsns s
  | .feedLost vin => Sys2Proof.Machine.execFeedLost vin s
  | .feedReturn vin => Sys2Proof.Machine.execFeedReturn vin s
  | .holdTExpiry => Sys2Proof.Machine.execHoldTExpiry s
  | .retryTExpiry => Sys2Proof.Machine.execRetryTExpiry s
  | .retryCntClear => Sys2Proof.Machine.execRetryCntClear s
  | .warnNAssert cause => Sys2Proof.Machine.execWarnNAssert cause s
  | .warnNRelease vin sagClear => Sys2Proof.Machine.execWarnNRelease vin sagClear s
  | .sagSuspend fall => Sys2Proof.Machine.execSagSuspend fall s
  | .sagClear => Sys2Proof.Machine.execSagClear s
  | .historyCopy => Sys2Proof.Machine.execHistoryCopy s
  | .sqStart => Sys2Proof.Machine.execSqStart s
  | .sqRaise => Sys2Proof.Machine.execSqRaise s
  | .sqEnableRise x => Sys2Proof.Machine.execSqEnableRise x s
  | .sqPgFilter x level => Sys2Proof.Machine.execSqPgFilter x level s
  | .railQualify x => Sys2Proof.Machine.execRailQualify x s
  | .upToExpiry x => Sys2Proof.Machine.execUpToExpiry x s
  | .sqFeedAlloff => Sys2Proof.Machine.execSqFeedAlloff s
  | .sqPeerAlloff => Sys2Proof.Machine.execSqPeerAlloff s
  | .sqRailFault x => Sys2Proof.Machine.execSqRailFault x s
  | .sqCinFall => Sys2Proof.Machine.execSqCinFall s
  | .sqCinRise => Sys2Proof.Machine.execSqCinRise s
  | .sqRetiRise => Sys2Proof.Machine.execSqRetiRise s
  | .retToExpiry => Sys2Proof.Machine.execRetToExpiry s
  | .disToExpiry x => Sys2Proof.Machine.execDisToExpiry x s
  | .alloffPulseEnd => Sys2Proof.Machine.execAlloffPulseEnd s
  | .aoDelayExpiry => Sys2Proof.Machine.execAoDelayExpiry s
  | .downRestart => Sys2Proof.Machine.execDownRestart s
  | .aoCntClear => Sys2Proof.Machine.execAoCntClear s
  | .sqFaultNArm => Sys2Proof.Machine.execSqFaultNArm s
  | .sqHostShutdown => Sys2Proof.Machine.execSqHostShutdown s
  | .portOpen n => Sys2Proof.Machine.execPortOpen n s
  | .converterStartCheck n => Sys2Proof.Machine.execConverterStartCheck n s
  | .ccDetect n cc1 cc2 => Sys2Proof.Machine.execCcDetect n cc1 cc2 s
  | .tccdebounce n cc1 cc2 vbus => Sys2Proof.Machine.execTccdebounce n cc1 cc2 vbus s
  | .tpddebounce n => Sys2Proof.Machine.execTpddebounce n s
  | .ttryccdebounce n cc1 cc2 vbus => Sys2Proof.Machine.execTtryccdebounce n cc1 cc2 vbus s
  | .tdrptry n => Sys2Proof.Machine.execTdrptry n s
  | .ttrytimeout n => Sys2Proof.Machine.execTtrytimeout n s
  | .tsrcdisconnect n => Sys2Proof.Machine.execTsrcdisconnect n s
  | .vbusLoss n mv => Sys2Proof.Machine.execVbusLoss n mv s
  | .vbusPresent n mv => Sys2Proof.Machine.execVbusPresent n mv s
  | .vbusSafe0v n mv => Sys2Proof.Machine.execVbusSafe0v n mv s
  | .terrorrecovery n => Sys2Proof.Machine.execTerrorrecovery n s
  | .tSrcEnd n => Sys2Proof.Machine.execTSrcEnd n s
  | .comparatorBlankEnd n => Sys2Proof.Machine.execComparatorBlankEnd n s
  | .dacReadback n diff => Sys2Proof.Machine.execDacReadback n diff s
  | .sinkThresholdStep n mv => Sys2Proof.Machine.execSinkThresholdStep n mv s
  | .rpLevelChange n => Sys2Proof.Machine.execRpLevelChange n s
  | .pathBookingRetry n => Sys2Proof.Machine.execPathBookingRetry n s
  | .pathGrantLimit n => Sys2Proof.Machine.execPathGrantLimit n s
  | .vconnOc n => Sys2Proof.Machine.execVconnOc n s
  | .closingDone n near far => Sys2Proof.Machine.execClosingDone n near far s
  | .closeFail n => Sys2Proof.Machine.execCloseFail n s
  | .cpgLost n => Sys2Proof.Machine.execCpgLost n s
  | .portFastTrip n vds => Sys2Proof.Machine.execPortFastTrip n vds s
  | .portReverseTrip n vds => Sys2Proof.Machine.execPortReverseTrip n vds s
  | .i2tTrip n => Sys2Proof.Machine.execI2tTrip n s
  | .sketchComplete k slot => Sys2Proof.Machine.execSketchComplete k slot s
  | .rpairEstimate n => Sys2Proof.Machine.execRpairEstimate n s
  | .thermalLimitRemove n => Sys2Proof.Machine.execThermalLimitRemove n s
  | .calResult n pre pulse post dss dropBus dropConn => Sys2Proof.Machine.execCalResult n pre pulse post dss dropBus dropConn s
  | .ftCodeTakeover n => Sys2Proof.Machine.execFtCodeTakeover n s
  | .dischargeEnd n mv => Sys2Proof.Machine.execDischargeEnd n mv s
  | .dischargeTimeout n => Sys2Proof.Machine.execDischargeTimeout n s
  | .retryExpiry n => Sys2Proof.Machine.execRetryExpiry n s
  | .trimLoop n => Sys2Proof.Machine.execTrimLoop n s
  | .trimSet n => Sys2Proof.Machine.execTrimSet n s
  | .hardwareTestFail n test => Sys2Proof.Machine.execHardwareTestFail n test s
  | .pdMessage n m => Sys2Proof.Machine.execPdMessage n m s
  | .goodcrc n ty id => Sys2Proof.Machine.execGoodcrc n ty id s
  | .transmitRequest n => Sys2Proof.Machine.execTransmitRequest n s
  | .lineIdle n => Sys2Proof.Machine.execLineIdle n s
  | .treceive n ty => Sys2Proof.Machine.execTreceive n ty s
  | .tsinktx n => Sys2Proof.Machine.execTsinktx n s
  | .sinktxokSample n mv => Sys2Proof.Machine.execSinktxokSample n mv s
  | .sinktxDiscard n => Sys2Proof.Machine.execSinktxDiscard n s
  | .chunkRequest n ty k => Sys2Proof.Machine.execChunkRequest n ty k s
  | .chunkTimer n ty => Sys2Proof.Machine.execChunkTimer n ty s
  | .hardResetSend n => Sys2Proof.Machine.execHardResetSend n s
  | .hardResetReceived n => Sys2Proof.Machine.execHardResetReceived n s
  | .tpshardreset n => Sys2Proof.Machine.execTpshardreset n s
  | .tsrcrecover n => Sys2Proof.Machine.execTsrcrecover n s
  | .sinkVbusWait n => Sys2Proof.Machine.execSinkVbusWait n s
  | .tnoresponse n => Sys2Proof.Machine.execTnoresponse n s
  | .cableReset n => Sys2Proof.Machine.execCableReset n s
  | .cableResetReceived n => Sys2Proof.Machine.execCableResetReceived n s
  | .softReset n => Sys2Proof.Machine.execSoftReset n s
  | .eprKeepalive n => Sys2Proof.Machine.execEprKeepalive n s
  | .eprKeepaliveSend n => Sys2Proof.Machine.execEprKeepaliveSend n s
  | .notSupportedRequest n => Sys2Proof.Machine.execNotSupportedRequest n s
  | .getCapabilities n => Sys2Proof.Machine.execGetCapabilities n s
  | .getSinkCapSend n => Sys2Proof.Machine.execGetSinkCapSend n s
  | .discoverIdentityUfp n => Sys2Proof.Machine.execDiscoverIdentityUfp n s
  | .discoverIdentityCable n => Sys2Proof.Machine.execDiscoverIdentityCable n s
  | .request n => Sys2Proof.Machine.execRequest n s
  | .eprModeEnter n => Sys2Proof.Machine.execEprModeEnter n s
  | .sourceCapabilities n => Sys2Proof.Machine.execSourceCapabilities n s
  | .capabilitiesSend n => Sys2Proof.Machine.execCapabilitiesSend n s
  | .offerRiseCaps n => Sys2Proof.Machine.execOfferRiseCaps n s
  | .psRdy n => Sys2Proof.Machine.execPsRdy n s
  | .accept n => Sys2Proof.Machine.execAccept n s
  | .swapAnswer n => Sys2Proof.Machine.execSwapAnswer n s
  | .prSwap n => Sys2Proof.Machine.execPrSwap n s
  | .drSwap n => Sys2Proof.Machine.execDrSwap n s
  | .vconnSwap n => Sys2Proof.Machine.execVconnSwap n s
  | .frSwap n => Sys2Proof.Machine.execFrSwap n s
  | .attention n => Sys2Proof.Machine.execAttention n s
  | .vdmAck n => Sys2Proof.Machine.execVdmAck n s
  | .policyTimer n t => Sys2Proof.Machine.execPolicyTimer n t s
  | .transitionCheck n meanVc => Sys2Proof.Machine.execTransitionCheck n meanVc s
  | .convFail n => Sys2Proof.Machine.execConvFail n s
  | .shedTimeout n => Sys2Proof.Machine.execShedTimeout n s
  | .regenStop vsns => Sys2Proof.Machine.execRegenStop vsns s
  | .regenRebook => Sys2Proof.Machine.execRegenRebook s
  | .sinkPartialRebook n => Sys2Proof.Machine.execSinkPartialRebook n s
  | .sinkStopRetry n => Sys2Proof.Machine.execSinkStopRetry n s
  | .swapStart n k => Sys2Proof.Machine.execSwapStart n k s
  | .turntableTimeout n => Sys2Proof.Machine.execTurntableTimeout n s
  | .prSwapRoleTimeout n => Sys2Proof.Machine.execPrSwapRoleTimeout n s
  | .vconnSourceReached n mv => Sys2Proof.Machine.execVconnSourceReached n mv s
  | .vconnSwapFail n => Sys2Proof.Machine.execVconnSwapFail n s
  | .frSwapWait n => Sys2Proof.Machine.execFrSwapWait n s
  | .frsSignal n => Sys2Proof.Machine.execFrsSignal n s
  | .frsNosig n => Sys2Proof.Machine.execFrsNosig n s
  | .frsStandbyDetach n mv => Sys2Proof.Machine.execFrsStandbyDetach n mv s
  | .discoveryStart n => Sys2Proof.Machine.execDiscoveryStart n s
  | .scriptStart => Sys2Proof.Machine.execScriptStart s
  | .scriptWrite acked => Sys2Proof.Machine.execScriptWrite acked s
  | .scriptDelay => Sys2Proof.Machine.execScriptDelay s
  | .scriptWriteRetry acked => Sys2Proof.Machine.execScriptWriteRetry acked s
  | .arbitrationLoss ownAddress => Sys2Proof.Machine.execArbitrationLoss ownAddress s
  | .auxBusStuck sclLow sdaStillLow => Sys2Proof.Machine.execAuxBusStuck sclLow sdaStillLow s
  | .vdmTimeout n => Sys2Proof.Machine.execVdmTimeout n s
  | .housekeepingScan hk => Sys2Proof.Machine.execHousekeepingScan hk s
  | .enSnap core => Sys2Proof.Machine.execEnSnap core s
  | .frameAssembly n => Sys2Proof.Machine.execFrameAssembly n s
  | .laneFrameBoundary => Sys2Proof.Machine.execLaneFrameBoundary s
  | .linkUp => Sys2Proof.Machine.execLinkUp s
  | .linkDown => Sys2Proof.Machine.execLinkDown s
  | .arpRequest senderMac senderIp targetIp => Sys2Proof.Machine.execArpRequest senderMac senderIp targetIp s
  | .netFrame f => Sys2Proof.Machine.execNetFrame f s
  | .frameDiscard f => Sys2Proof.Machine.execFrameDiscard f s
  | .filterInvocation k => Sys2Proof.Machine.execFilterInvocation k s
  | .kernelBudget core => Sys2Proof.Machine.execKernelBudget core s
  | .twoWireWrite bus bytes fin => Sys2Proof.Machine.execTwoWireWrite bus bytes fin s
  | .twoWireRead bus count => Sys2Proof.Machine.execTwoWireRead bus count s
  | .alertResponse bus won => Sys2Proof.Machine.execAlertResponse bus won s
  | .twoWireTimeout bus => Sys2Proof.Machine.execTwoWireTimeout bus s
  | .send bus => Sys2Proof.Machine.execSend bus s
  | .rplDone bus => Sys2Proof.Machine.execRplDone bus s
  | .evtDone bus => Sys2Proof.Machine.execEvtDone bus s
  | .status => Sys2Proof.Machine.execStatus s
  | .localSend bytes clean => Sys2Proof.Machine.execLocalSend bytes clean s
  | .readReply clocked => Sys2Proof.Machine.execReadReply clocked s
  | .readEvent clocked => Sys2Proof.Machine.execReadEvent clocked s
  | .commandBegin => Sys2Proof.Machine.execCommandBegin s
  | .overflow h => Sys2Proof.Machine.execOverflow h s
  | .storeProgramStart vhold => Sys2Proof.Machine.execStoreProgramStart vhold s
  | .pageProgramDone verified => Sys2Proof.Machine.execPageProgramDone verified s
  | .programAbandon => Sys2Proof.Machine.execProgramAbandon s
  | .uncorrectableRecall => Sys2Proof.Machine.execUncorrectableRecall s
  | .scrubPage corrected uncorrectable => Sys2Proof.Machine.execScrubPage corrected uncorrectable s
  | .scrubDue => Sys2Proof.Machine.execScrubDue s
  | .hourlySave => Sys2Proof.Machine.execHourlySave s
  | .ssnSave => Sys2Proof.Machine.execSsnSave s
  | .lifeHour t => Sys2Proof.Machine.execLifeHour t s
  | .verifyDone => Sys2Proof.Machine.execVerifyDone s
  | .registerWrite core r value => Sys2Proof.Machine.execRegisterWrite core r value s
  | .identity p => Sys2Proof.Machine.execIdentity p s
  | .claim p => Sys2Proof.Machine.execClaim p s
  | .release p => Sys2Proof.Machine.execRelease p s
  | .claimBreak p => Sys2Proof.Machine.execClaimBreak p s
  | .subscribe p => Sys2Proof.Machine.execSubscribe p s
  | .restart p => Sys2Proof.Machine.execRestart p s
  | .readRegs gg p => Sys2Proof.Machine.execReadRegs gg p s
  | .writeRegs gg p => Sys2Proof.Machine.execWriteRegs gg p s
  | .swap p => Sys2Proof.Machine.execSwap p s
  | .altMode p => Sys2Proof.Machine.execAltMode p s
  | .pathClear p => Sys2Proof.Machine.execPathClear p s
  | .readTime p => Sys2Proof.Machine.execReadTime p s
  | .setEpoch p => Sys2Proof.Machine.execSetEpoch p s
  | .readChannel p => Sys2Proof.Machine.execReadChannel p s
  | .readEntries p => Sys2Proof.Machine.execReadEntries p s
  | .storeInfo p => Sys2Proof.Machine.execStoreInfo p s
  | .paletteRead p => Sys2Proof.Machine.execPaletteRead p s
  | .paletteWrite p => Sys2Proof.Machine.execPaletteWrite p s
  | .userRead p => Sys2Proof.Machine.execUserRead p s
  | .userWrite p => Sys2Proof.Machine.execUserWrite p s
  | .userProtect p => Sys2Proof.Machine.execUserProtect p s
  | .scrub p => Sys2Proof.Machine.execScrub p s
  | .wearReset p => Sys2Proof.Machine.execWearReset p s
  | .format p => Sys2Proof.Machine.execFormat p s
  | .energySnapshot p => Sys2Proof.Machine.execEnergySnapshot p s
  | .hkRead p => Sys2Proof.Machine.execHkRead p s
  | .sketchList p => Sys2Proof.Machine.execSketchList p s
  | .sketchRead p => Sys2Proof.Machine.execSketchRead p s
  | .sketchPush p => Sys2Proof.Machine.execSketchPush p s
  | .sketchTrigger p => Sys2Proof.Machine.execSketchTrigger p s
  | .sketchRelease p => Sys2Proof.Machine.execSketchRelease p s
  | .seqClear p => Sys2Proof.Machine.execSeqClear p s
  | .seqShutdown p => Sys2Proof.Machine.execSeqShutdown p s
  | .kernelList p => Sys2Proof.Machine.execKernelList p s
  | .kernelWrite p => Sys2Proof.Machine.execKernelWrite p s
  | .kernelStart p => Sys2Proof.Machine.execKernelStart p s
  | .kernelUnload p => Sys2Proof.Machine.execKernelUnload p s
  | .imageInfo p => Sys2Proof.Machine.execImageInfo p s
  | .imageWrite p => Sys2Proof.Machine.execImageWrite p s
  | .imageVerify p => Sys2Proof.Machine.execImageVerify p s
  | .bankSelect p => Sys2Proof.Machine.execBankSelect p s
  | .rollbackAdvance p => Sys2Proof.Machine.execRollbackAdvance p s
  | .healthStatus p => Sys2Proof.Machine.execHealthStatus p s
  | .logRead p => Sys2Proof.Machine.execLogRead p s
  | .logClear p => Sys2Proof.Machine.execLogClear p s
  | .selftest p station bank count => Sys2Proof.Machine.execSelftest p station bank count s
  | .odometerRead p => Sys2Proof.Machine.execOdometerRead p s
  | .nop c => Sys2Proof.Machine.execNop c s
  | .add c d a b m => Sys2Proof.Machine.execAdd c d a b m s
  | .sub c d a b m => Sys2Proof.Machine.execSub c d a b m s
  | .neg c d a m => Sys2Proof.Machine.execNeg c d a m s
  | .abs c d a m => Sys2Proof.Machine.execAbs c d a m s
  | .min c d a b => Sys2Proof.Machine.execMin c d a b s
  | .max c d a b => Sys2Proof.Machine.execMax c d a b s
  | .cmp c a b => Sys2Proof.Machine.execCmp c a b s
  | .and c d a b => Sys2Proof.Machine.execAnd c d a b s
  | .or c d a b => Sys2Proof.Machine.execOr c d a b s
  | .xor c d a b => Sys2Proof.Machine.execXor c d a b s
  | .shl c d a b m => Sys2Proof.Machine.execShl c d a b m s
  | .shr c d a b r => Sys2Proof.Machine.execShr c d a b r s
  | .shrl c d a b => Sys2Proof.Machine.execShrl c d a b s
  | .shli c d a m sh => Sys2Proof.Machine.execShli c d a m sh s
  | .shri c d a r sh => Sys2Proof.Machine.execShri c d a r sh s
  | .shrli c d a sh => Sys2Proof.Machine.execShrli c d a sh s
  | .mov c d a => Sys2Proof.Machine.execMov c d a s
  | .div c d a b => Sys2Proof.Machine.execDiv c d a b s
  | .idiv c d a b m => Sys2Proof.Machine.execIdiv c d a b m s
  | .addi c d a imm => Sys2Proof.Machine.execAddi c d a imm s
  | .andi c d a imm => Sys2Proof.Machine.execAndi c d a imm s
  | .ori c d a imm => Sys2Proof.Machine.execOri c d a imm s
  | .lui c d imm => Sys2Proof.Machine.execLui c d imm s
  | .ld c d a imm => Sys2Proof.Machine.execLd c d a imm s
  | .st c d a imm => Sys2Proof.Machine.execSt c d a imm s
  | .ldh c d a imm => Sys2Proof.Machine.execLdh c d a imm s
  | .sth c d a imm => Sys2Proof.Machine.execSth c d a imm s
  | .mul c a b => Sys2Proof.Machine.execMul c a b s
  | .fmul c a b m => Sys2Proof.Machine.execFmul c a b m s
  | .productWrite c => Sys2Proof.Machine.execProductWrite c s
  | .mac c k a b m r => Sys2Proof.Machine.execMac c k a b m r s
  | .msu c k a b m r => Sys2Proof.Machine.execMsu c k a b m r s
  | .aclr c k => Sys2Proof.Machine.execAclr c k s
  | .accl c k a => Sys2Proof.Machine.execAccl c k a s
  | .accs c k d m r sh => Sys2Proof.Machine.execAccs c k d m r sh s
  | .accx c k d => Sys2Proof.Machine.execAccx c k d s
  | .accsh c k r sh => Sys2Proof.Machine.execAccsh c k r sh s
  | .mvs c d index => Sys2Proof.Machine.execMvs c d index s
  | .smv c index a => Sys2Proof.Machine.execSmv c index a s
  | .macm c k a b m r => Sys2Proof.Machine.execMacm c k a b m r s
  | .b c off => Sys2Proof.Machine.execB c off s
  | .call c off => Sys2Proof.Machine.execCall c off s
  | .ret c => Sys2Proof.Machine.execRet c s
  | .bc c cond off => Sys2Proof.Machine.execBc c cond off s
  | .loop c k count endOff => Sys2Proof.Machine.execLoop c k count endOff s
  | .rep c count => Sys2Proof.Machine.execRep c count s
  | .ttRead c => Sys2Proof.Machine.execTtRead c s
  | .budget c => Sys2Proof.Machine.execBudget c s
  | .yield c => Sys2Proof.Machine.execYield c s
  | .wait c => Sys2Proof.Machine.execWait c s
  | .ldp c d a imm => Sys2Proof.Machine.execLdp c d a imm s
  | .primerCompletion uncorr differ => Sys2Proof.Machine.execPrimerCompletion uncorr differ s
  | .serviceLevelChange level => Sys2Proof.Machine.execServiceLevelChange level s
  | .vconnPresentChange k mv => Sys2Proof.Machine.execVconnPresentChange k mv s
  | .converterPowerGood n undet => Sys2Proof.Machine.execConverterPowerGood n undet s
  | .dischargeAssistEnd n mv => Sys2Proof.Machine.execDischargeAssistEnd n mv s
  | .breakerRegulation vsns => Sys2Proof.Machine.execBreakerRegulation vsns s
  | .railDischarged x => Sys2Proof.Machine.execRailDischarged x s
  | .newSourceVbusReady n mv => Sys2Proof.Machine.execNewSourceVbusReady n mv s
  | .frsSignalEnd n => Sys2Proof.Machine.execFrsSignalEnd n s
  | .busFree bus => Sys2Proof.Machine.execBusFree bus s
  | .bookingRetry n => Sys2Proof.Machine.execBookingRetry n s
  | .selftestDone n failed => Sys2Proof.Machine.execSelftestDone n failed s
  | .rollbackAdvanceDone => Sys2Proof.Machine.execRollbackAdvanceDone s
  | .sampleInstant samples vin vsns => Sys2Proof.Machine.execSampleInstant samples vin vsns s
  | .illegalInstruction c word => Sys2Proof.Machine.execIllegalInstruction c word s

end Sys2Proof.Machine
end

