-- ==== Sys2Proof/Safety.lean ====
section
/-! DEFINITION. What a safe run is: every step answers a next state, and what no command may touch stays as it is. -/
namespace Sys2Proof.Machine

/-- The step answers a next state: no fault and no refusal. -/
def State.goesOn (s : State) : Bool :=
  match step s with
  | .next _ => true
  | _ => false

/-- Varnish but for the thermometer of R574, the one set of fuses a command blows. -/
def Varnish.noArb (v : Varnish) : Varnish := { v with arb := 0 }
def State.sealed (s : State) : Varnish := s.fuse.noArb

/-- The memories that power-down keeps: the Palette copies, the User region, the image banks. -/
def State.nvMems (s : State) : List Mem :=
  [s.store.copyA.mem, s.store.copyB.mem, s.store.user, s.bankA.mem, s.bankB.mem]

/-- Each of them is in canonical form. -/
def State.nvOk (s : State) : Bool := s.nvMems.all (Mem.wf zeroByte)

/-- What most operations leave alone: sealed Varnish, the queue of commands, the memories that power-down keeps. -/
def State.fixed (s : State) : Varnish × List Instr × List Mem := (s.sealed, s.pending, s.nvMems)

/-- The outcome is a next state with the same fixed part. -/
def Goes (s : State) (o : Host.Outcome State Fault Refusal) : Prop := ∃ t, o = .next t ∧ t.fixed = s.fixed

/-- The Unattached state that R213 gives a port on its return, toward sink where `snk`; DISABLED where its role is. -/
def State.unattState (s : State) (n : PortId) (snk : Bool) : TcState :=
  if roleOf (s.tcCfg n) = 3 then .disabled else if snk && roleOf (s.tcCfg n) ≠ 1 then .unattSnk else .unattSrc
def State.homeState (s : State) (n : PortId) : TcState := s.unattState n (roleOf s.port[n].tc.cfg ≠ 1)

/-- A running up-counter that every tick steps: its value is not held and no write has put it beyond its end. -/
def Channel.upCounts (c : Channel) : Bool := c.run && c.src = 0 && !c.held && !c.force && !c.down

/-- From `s` to `t` port `n` hands its engine one message and no other (R271); in hold-over it may be one of the hardware
(R278). -/
abbrev State.handedOn (s t : State) (n : PortId) (ty : Sop) (b : PdBody) (ams : Bool) : Prop :=
  ∃ hw, t.port[n].pd.outbox = s.port[n].pd.outbox ++ [{ sop := ty, body := b, ams := ams, hw := hw }]
abbrev State.handed (s t : State) (n : PortId) (b : PdBody) (ams : Bool) : Prop := s.handedOn t n .sop b ams

/-- No message is handed to the engine. -/
abbrev State.handedNone (s t : State) (n : PortId) : Prop := t.port[n].pd.outbox = s.port[n].pd.outbox

/-- No Request of a port below `n` is at hand. -/
def State.firstRequest (s : State) (n : PortId) : Bool := allPorts.all fun m => !(decide (m < n) && s.requestHere m)

/-! ### What a Vavis instruction may change -/

/-- Between the two states an instruction has run in the context `c`: nothing outside its core differs, and there neither
the firmware's code, the kernel's package nor the other context, but for the cycles that pass. -/
def State.onlyCore (s t : State) (c : Ctx) : Prop :=
  t = { s with core := t.core } ∧ (∀ k, k ≠ c.core → t.core[k] = s.core[k]) ∧
  t.core[c.core].up = s.core[c.core].up ∧ t.core[c.core].code = s.core[c.core].code ∧
  t.core[c.core].event = s.core[c.core].event ∧ t.core[c.core].slot.st = s.core[c.core].slot.st ∧
  t.core[c.core].slot.code = s.core[c.core].slot.code ∧ t.core[c.core].slot.inw = s.core[c.core].slot.inw ∧
  (if c.kernel then t.core[c.core].fw = { s.core[c.core].fw with cyc := t.core[c.core].fw.cyc }
   else t.core[c.core].kn = s.core[c.core].kn ∧ t.core[c.core].slot = s.core[c.core].slot)

/-- The memories an instruction can store to are unchanged. -/
def State.sameMem (s t : State) (c : Ctx) : Prop :=
  t.core[c.core].data = s.core[c.core].data ∧ t.core[c.core].slot.data = s.core[c.core].slot.data ∧
  t.core[c.core].slot.outw = s.core[c.core].slot.outw ∧ t.core[c.core].sleeping = s.core[c.core].sleeping

/-- The context's registers, flags and accumulators after an instruction; MD keeps its modes. -/
def State.regsAre (s t : State) (c : Ctx) (v : Vector Word 16) (fl : Byte) (acc : Vector Acc 2) : Prop :=
  (t.vctx c).v = v ∧ (t.vctx c).fl = fl ∧ (t.vctx c).acc = acc ∧ (t.vctx c).rnd = (s.vctx c).rnd ∧
  (t.vctx c).sat = (s.vctx c).sat

/-- An instruction that stores nothing has run. -/
def State.ran (s t : State) (c : Ctx) (v : Vector Word 16) (fl : Byte) (acc : Vector Acc 2) : Prop :=
  s.onlyCore t c ∧ s.sameMem t c ∧ s.regsAre t c v fl acc

/-! ### A host's command whose turn has come -/

/-- The state without the command at the front of the inbox. -/
def State.rest (s : State) : State := { s with inbox := s.inbox.tail }

/-- The command `op`, `p` stands at the front of the inbox, is no CHECK and waits for none, and no command of a higher rank
is still to arrive in its tick (R419). -/
def State.turn (s : State) (op : BitVec 16) (p : Packet) : Prop :=
  match s.inbox with
  | c :: _ => c.op = op ∧ c.p = p ∧ checkOnly p = false ∧ s.rest.mustWait s.waiting c = false ∧ s.outranked c = false
  | [] => False

/-- The reply to `p` stands last in its host port's queue, and the tag is free. -/
def State.answered (s t : State) (p : Packet) (op st : BitVec 16) (result : List Byte) : Prop :=
  t.host[p.host.ix].replies = s.host[p.host.ix].replies ++ [{ tag := p.tag, status := st, opcode := op, payload := result }] ∧
  t.host[p.host.ix].held = s.host[p.host.ix].held.erase p.tag

/-- A command that only reads has been answered OK: the reply, its tag and the inbox apart, nothing differs. -/
def State.reads (s t : State) (p : Packet) (op : BitVec 16) (result : List Byte) : Prop :=
  s.answered t p op stOk result ∧ t = { s with inbox := s.inbox.tail, host := t.host } ∧
  (∀ i, i ≠ p.host.ix → t.host[i] = s.host[i]) ∧ t.host[p.host.ix].events = s.host[p.host.ix].events

/-- ACCEPTED stands last in the queue of `p`'s host port, and a command with its host port and tag is in progress. -/
def State.accepted (s t : State) (p : Packet) (op : BitVec 16) : Prop :=
  t.host[p.host.ix].replies =
    s.host[p.host.ix].replies ++ [{ tag := p.tag, status := stAccepted, opcode := op, payload := [] }] ∧
  t.active.map CmdRef.of = s.active.map CmdRef.of ++ [{ host := p.host, tag := p.tag, op := op, target := p.target }]

end Sys2Proof.Machine
end

