-- ==== Sys2Proof/Certificates/Slice0/Obligations.lean ====
section
/-! DEFINITION. The statements for the provers. -/

open Sys2Proof Sys2Proof.Machine

/-- At reset the block is unpowered: no supply is up, no core and no kernel runs, no slot number is latched, no port is
claimed, no command, reply or event is held, every path is open, every event queue is empty, no booking is placed and no
memory lists a byte. The power state at reset is the model's reading (log entry 2). Where the manual leaves a point open
this rests on the model's own reading: log entries 2, 4, 5. -/
def Obligations.ResetState : Prop :=
  State.reset.pending = [] ∧ State.reset.inbox = [] ∧ State.reset.waiting = [] ∧ State.reset.active = [] ∧
  State.reset.sup.hvUp = false ∧ State.reset.sup.logicUp = false ∧ State.reset.sup.primer = .off ∧
      State.reset.sup.runFlag = false ∧
  State.reset.sup.slotId = none ∧ State.reset.sup.runBank = none ∧ State.reset.ssn = 0 ∧
  (∀ c : CoreId, State.reset.core[c].up = false ∧ State.reset.core[c].slot.st = .empty ∧ State.reset.core[c].slot.busy =
      false) ∧
  (∀ n : PortId, State.reset.claim[n] = none ∧ State.reset.port[n].pp.st = .opn ∧ State.reset.port[n].tc.st = .disabled) ∧
  (∀ i : Fin 5, State.reset.host[i].held = [] ∧ State.reset.host[i].replies = [] ∧ State.reset.host[i].events = [] ∧
      State.reset.host[i].sub = 0) ∧
  (∀ e : Fin 256, State.reset.tt.entries[e] = none) ∧
  State.reset.net.link = false ∧ State.reset.store.commit = none ∧ State.reset.store.run = [] ∧ State.reset.store.user =
      []

/-- At reset every memory that power-down keeps is in canonical form. -/
def Obligations.ResetKeepsForm : Prop :=
  State.reset.nvOk = true

/-- From every state whose memories that power-down keeps (the Palette copies, the User region, the image banks) are in
canonical form, a step gives a state where they are again; it leaves every fuse but the thermometer of ROLLBACK_ADVANCE
as it was and takes exactly the front of the queue; and only a page program's end, IMAGE_WRITE and the beginning of a
command that waited can change one of those memories. -/
def Obligations.EveryStepKeepsForm : Prop :=
  ∀ s t : State, s.nvOk = true → step s = .next t →
  t.nvOk = true ∧ t.sealed = s.sealed ∧ t.pending = s.pending.tail ∧
  ((∀ c q, s.pending = c :: q → (∀ v, c ≠ .pageProgramDone v) ∧ (∀ p, c ≠ .imageWrite p) ∧ c ≠ .commandBegin) →
      t.nvMems = s.nvMems)

/-- Every command answers a next state, in every state: no fault and no refusal stops the block, and a step goes on from
every state. Where the manual leaves a point open this rests on the model's own reading: log entry 18. -/
def Obligations.EveryCommandCompletes : Prop :=
  (∀ (c : Instr) (s : State), ∃ t, exec c s = .next t) ∧ ∀ s : State, s.goesOn = true

/-- PRE_REGULATOR_START of a die that is down brings the HV die up, keeps what its fuse reads gave, counts the insertion,
takes the sequencer's first sample of every pin, and locks the hot-swap block out where the HV set cannot be used; ports
and store stay. Of a die that is up it changes nothing. PRE_REGULATOR_RESET returns the whole Station to reset but for
the fuses, the image banks, the SERVICE level and what the store array holds: the copies' and the User region's bytes,
the markers and the counts stay and the waiting programs go; with no program in progress the save records, the Log and
the control pages stay as well, and a page being programmed is left with its marker older; an advance of the
anti-rollback level is cut short at a level up to the new one. HV_SUPPLY_LOSS does the same. Where the manual leaves a
point open this rests on the model's own reading: log entries 2, 4, 5, 113, 133, 134. -/
def Obligations.SuppliesAndInsertion : Prop :=
  (∀ (s : State) (u m d : Bool) (pg : Vector Schmitt 12) (cin reti fn : Schmitt), s.sup.hvUp = false → ∃ t,
      exec (.preRegulatorStart u m d pg cin reti fn) s = .next t ∧ t.sup.hvUp = true ∧ t.sup.hvUncorr = (u || m) ∧
      t.sup.hvMargin = (d && !u && !m) ∧ t.health.insertions = sat32 (s.health.insertions + 1) ∧ (∀ x : RailId,
      t.sq.rails[x].pg = decide (pg[x] = .high) ∧ t.sq.rails[x].undet = decide (pg[x] = .band)) ∧ t.sq.cin =
      decide (cin = .high) ∧ t.sq.reti = decide (reti = .high) ∧ t.sq.faultN = decide (fn ≠ .low) ∧ t.hs.st =
      (if u || m || !s.hsSetOk then .lockout else s.hs.st) ∧ t.store = s.store ∧ t.port = s.port ∧ t.pending =
      s.pending) ∧
  (∀ (s : State) (u m d : Bool) (pg : Vector Schmitt 12) (cin reti fn : Schmitt), s.sup.hvUp = true → ∃ t,
      exec (.preRegulatorStart u m d pg cin reti fn) s = .next t ∧ t = s) ∧
  (∀ (s : State), ∃ t, exec (.preRegulatorReset) s = .next t ∧ t =
      { State.reset with fuse := { s.fuse with arb := t.fuse.arb }, bankA := s.bankA, bankB := s.bankB, pending := s.pending, fresh := t.fresh, sup := { Supplies.reset with servicePin := s.sup.servicePin }, store := t.store } ∧
      (s.advance = [] → t.fuse = s.fuse) ∧ (∃ k, t.fuse.arb = blow s.fuse.arb k ∧
      k ≤ max s.arbSealed s.running.arbLevel) ∧ t.store.run = [] ∧ t.store.queue = [] ∧ t.store.prog = none ∧
      t.store.commit = none ∧ t.store.user = s.store.user ∧ t.store.copyA = s.store.copyA ∧ t.store.copyB =
      s.store.copyB ∧ t.store.marks = s.store.marks ∧ t.store.bad = s.store.bad ∧ t.store.cycles = s.store.cycles ∧
      (s.store.prog = none → t.store.ring = s.store.ring ∧ t.store.log = s.store.log ∧ t.store.gens = s.store.gens ∧
      t.store.prot0 = s.store.prot0 ∧ t.store.prot1 = s.store.prot1) ∧ ∀ r : PageReq, s.store.prog = some r →
      t.store.gens = setCount s.store.gens r.page (countOf s.store.gens r.page + 1)) ∧
  (∀ (s : State), ∃ t, exec (.hvSupplyLoss) s = .next t ∧ t =
      { State.reset with fuse := { s.fuse with arb := t.fuse.arb }, bankA := s.bankA, bankB := s.bankB, pending := s.pending, fresh := t.fresh, sup := { Supplies.reset with servicePin := s.sup.servicePin }, store := t.store } ∧
      (s.advance = [] → t.fuse = s.fuse) ∧ (∃ k, t.fuse.arb = blow s.fuse.arb k ∧
      k ≤ max s.arbSealed s.running.arbLevel) ∧ t.store.run = [] ∧ t.store.queue = [] ∧ t.store.prog = none ∧
      t.store.commit = none ∧ t.store.user = s.store.user ∧ t.store.copyA = s.store.copyA ∧ t.store.copyB =
      s.store.copyB ∧ t.store.marks = s.store.marks ∧ t.store.bad = s.store.bad ∧ t.store.cycles = s.store.cycles ∧
      (s.store.prog = none → t.store.ring = s.store.ring ∧ t.store.log = s.store.log ∧ t.store.gens = s.store.gens ∧
      t.store.prot0 = s.store.prot0 ∧ t.store.prot1 = s.store.prot1) ∧ ∀ r : PageReq, s.store.prog = some r →
      t.store.gens = setCount s.store.gens r.page (countOf s.store.gens r.page + 1))

/-- VCP_READY at 11 V or more sets VCP; no PATH booking waits for it any more, and a port whose booking did not wait is
untouched. Below that, or with the die down, VCP_READY changes nothing. VCP_FAULT below 10 V while a path is closed
clears VCP, opens every port's path that was closing or closed and no other, and is the hot-swap block's fault where the
backplane path is closed. With no path closed, at 10 V or more, or with VCP not good, it changes nothing. Where the
manual leaves a point open this rests on the model's own reading: log entry 79. -/
def Obligations.ChargePump : Prop :=
  (∀ (s : State) (mv : Nat), s.sup.hvUp = true → 11000 ≤ mv → ∃ t, exec (.vcpReady mv) s = .next t ∧ t.sup =
      { s.sup with vcpOk := true } ∧ (∀ n : PortId, t.port[n].pp.vcpWait = false) ∧ ∀ n : PortId, s.port[n].pp.vcpWait =
      false → t.port[n] = s.port[n]) ∧
  (∀ (s : State) (mv : Nat), s.sup.hvUp = false ∨ mv < 11000 → ∃ t, exec (.vcpReady mv) s = .next t ∧ t = s) ∧
  (∀ (s : State) (mv : Nat), s.sup.hvUp = true → s.sup.vcpOk = true → mv < 10000 → (s.hsFrom.1.closedPath = true ∨
      ∃ n : PortId, s.port[n].pp.st = .closing ∨ s.port[n].pp.st = .closed) → ∃ t, exec (.vcpFault mv) s = .next t ∧
      t.sup.vcpOk = false ∧ (∀ n : PortId, t.port[n].pp.st ≠ .closing ∧ t.port[n].pp.st ≠ .closed) ∧ (∀ n : PortId,
      s.port[n].pp.st ≠ .closing → s.port[n].pp.st ≠ .closed → t.port[n].pp.st = s.port[n].pp.st) ∧
      (if s.hsFrom.1.closedPath then t.hs.cause = .vcp ∧ t.hs.st.closedPath = false else t.hs = s.hs)) ∧
  (∀ (s : State) (mv : Nat), (s.sup.hvUp = false ∨ s.sup.vcpOk = false ∨ 10000 ≤ mv ∨ (s.hsFrom.1.closedPath = false ∧
      ∀ n : PortId, s.port[n].pp.st ≠ .closing ∧ s.port[n].pp.st ≠ .closed)) → ∃ t, exec (.vcpFault mv) s = .next t ∧ t =
      s)

/-- LOGIC_DIE_RELEASE of a die that is down with every supply qualified and RESET_N high reads SERVICE and starts Primer,
warm where the run flag is set, or leaves it stopped while WARN_N is asserted; no path, attachment or contract changes.
Otherwise it changes nothing. LOGIC_SUPPLY_RESET below its threshold takes the logic die down: Primer and every core
stop, the link is silent, and no command, reply, event or tag is left in a front end, whose subscription stays; every
contract, role, path, claim and booking stays, and every populated port of a Station that ran enters hold-over. At or
above its threshold, or of a die that is down, it changes nothing. A RESET_N pulse of 1040 ns or more does the same to
cores, front ends and ports, leaves the die up and starts Primer. A pulse under 960 ns, or of a die that is down, changes
nothing; one between 960 and 1040 ns changes nothing or acts as a longer one (free). Core SB's watchdog is counted, stops
all five cores, answers and completes every command in progress, keeps contracts, roles, paths, claims and bookings
through hold-over and starts Primer; with core SB down it changes nothing. A Platform core's watchdog is counted, stops
that core and no other, and puts its Platform's ports into hold-over; the core is to be reloaded, or at the third expiry
within 24 h of powered time its Platform is in fallback with health cause 14; with the core down it changes nothing.
Where the manual leaves a point open this rests on the model's own reading: log entries 7, 74. -/
def Obligations.LogicDieResets : Prop :=
  (∀ (s : State) (a b c : Nat), s.sup.hvUp = true → s.sup.logicUp = false → 3050 < a → 840 < b → 840 < c → ∃ t,
      exec (.logicDieRelease a b c true) s = .next t ∧ t.sup.logicUp = true ∧ t.sup.service = s.sup.servicePin ∧
      t.sup.primer = (if s.hs.warn then .stopped s.sup.runFlag none else .running s.sup.runFlag none) ∧ t.core = s.core ∧
      t.store = s.store ∧ ∀ n : PortId, t.port[n].pp = s.port[n].pp ∧ t.port[n].tc = s.port[n].tc ∧ t.port[n].ct =
      s.port[n].ct) ∧
  (∀ (s : State) (a b c : Nat) (r : Bool), s.sup.hvUp = false ∨ s.sup.logicUp = true ∨ r = false ∨ a ≤ 3050 ∨ b ≤ 840 ∨
      c ≤ 840 → ∃ t, exec (.logicDieRelease a b c r) s = .next t ∧ t = s) ∧
  (∀ (s : State) (w : Supply) (mv : Nat), s.sup.logicUp = true → mv < fallsBelow w → ∃ t,
      exec (.logicSupplyReset w mv) s = .next t ∧ t.sup.logicUp = false ∧ t.sup.linkSilent = true ∧ t.sup.primer = .off ∧
      t.inbox = [] ∧ t.waiting = [] ∧ t.active = [] ∧ (∀ i : Fin 5, t.host[i].replies = [] ∧ t.host[i].events = [] ∧
      t.host[i].held = [] ∧ t.host[i].sub = s.host[i].sub) ∧ (∀ c : CoreId, t.core[c].up = false ∧ t.core[c].slot.st =
      .empty) ∧ (∀ n : PortId, t.port[n].ct = s.port[n].ct ∧ t.port[n].rs.pr = s.port[n].rs.pr ∧ t.port[n].pp.st =
      s.port[n].pp.st ∧ t.port[n].tc.st = s.port[n].tc.st ∧ (s.sup.runFlag = true → bit s.fuse.present n = true →
      t.port[n].hold = true)) ∧ t.claim = s.claim ∧ t.tt.entries = s.tt.entries) ∧
  (∀ (s : State) (w : Supply) (mv : Nat), s.sup.logicUp = false ∨ fallsBelow w ≤ mv → ∃ t,
      exec (.logicSupplyReset w mv) s = .next t ∧ t = s) ∧
  (∀ (s : State) (ns : Nat), s.sup.logicUp = true → 1040 ≤ ns → ∃ t, exec (.resetN ns) s = .next t ∧ t.sup.linkSilent =
      true ∧ t.sup.logicUp = true ∧ t.sup.primer =
      (if s.hs.warn then .stopped s.sup.runFlag none else .running s.sup.runFlag none) ∧ t.inbox = [] ∧ t.waiting = [] ∧
      t.active = [] ∧ (∀ i : Fin 5, t.host[i].replies = [] ∧ t.host[i].events = [] ∧ t.host[i].held = [] ∧
      t.host[i].sub = s.host[i].sub) ∧ (∀ c : CoreId, t.core[c].up = false ∧ t.core[c].slot.st = .empty) ∧ (∀ n : PortId,
      t.port[n].ct = s.port[n].ct ∧ t.port[n].rs.pr = s.port[n].rs.pr ∧ t.port[n].pp.st = s.port[n].pp.st ∧
      t.port[n].tc.st = s.port[n].tc.st ∧ (s.sup.runFlag = true → bit s.fuse.present n = true → t.port[n].hold = true)) ∧
      t.claim = s.claim ∧ t.tt.entries = s.tt.entries) ∧
  (∀ (s : State) (ns : Nat), s.sup.logicUp = false ∨ ns < 960 → ∃ t, exec (.resetN ns) s = .next t ∧ t = s) ∧
  (∀ (s : State) (ns : Nat), s.sup.logicUp = true → 960 ≤ ns → ns < 1040 → ∃ t, exec (.resetN ns) s = .next t ∧ t =
      { s with fresh := s.fresh + 1 } ∨ (t.sup.linkSilent = true ∧ t.sup.primer =
      (if s.hs.warn then .stopped s.sup.runFlag none else .running s.sup.runFlag none) ∧ t.inbox = [] ∧ t.waiting = [] ∧
      t.active = [] ∧ (∀ i : Fin 5, t.host[i].replies = [] ∧ t.host[i].events = [] ∧ t.host[i].held = [] ∧
      t.host[i].sub = s.host[i].sub) ∧ (∀ c : CoreId, t.core[c].up = false ∧ t.core[c].slot.st = .empty))) ∧
  (∀ (s : State), s.sbUp = true → ∃ t, exec (.sbWatchdog) s = .next t ∧ t.sup.primer =
      (if s.hs.warn then .stopped s.sup.runFlag none else .running s.sup.runFlag none) ∧ t.health.sbDogs =
      sat32 (s.health.sbDogs + 1) ∧ t.inbox = [] ∧ t.waiting = [] ∧ t.active = [] ∧ (∀ c : CoreId, t.core[c].up = false ∧
      t.core[c].slot.st = .empty) ∧ (∀ n : PortId, t.port[n].ct = s.port[n].ct ∧ t.port[n].rs.pr = s.port[n].rs.pr ∧
      t.port[n].pp.st = s.port[n].pp.st ∧ t.port[n].tc.st = s.port[n].tc.st ∧ (s.sup.runFlag = true →
      bit s.fuse.present n = true → t.port[n].hold = true)) ∧ t.claim = s.claim ∧ t.tt.entries = s.tt.entries) ∧
  (∀ (s : State), s.sbUp = false → ∃ t, exec (.sbWatchdog) s = .next t ∧ t = s) ∧
  (∀ (s : State) (k : PlatId), (s.core[coreOf k]).up = true → ∃ t, exec (.platformWatchdog k) s = .next t ∧
      (t.core[coreOf k]).up = false ∧ t.core[coreOf k].slot.st = .empty ∧ (∀ c : CoreId, c ≠ coreOf k → t.core[c].up =
      s.core[c].up) ∧ t.health.pcDogs[k] = min 255 (s.health.pcDogs[k] + 1) ∧ t.plat[k].dogs = (s.poweredNow ::
      s.plat[k].dogs.filter fun t => decide (s.poweredNow ≤ t + 24 * 3600 * samplesPerSecond)) ∧ (if 3 ≤ (s.poweredNow ::
      s.plat[k].dogs.filter fun t =>
      decide (s.poweredNow ≤ t + 24 * 3600 * samplesPerSecond)).length then t.plat[k].fallback = true ∧ t.sup.reload =
      s.sup.reload ∧ bit t.health.active 14 = true else t.plat[k].fallback = s.plat[k].fallback ∧ t.sup.reload =
      s.sup.reload ++ [k]) ∧ (∀ n : PortId, platOf n ≠ k → t.port[n].hold = s.port[n].hold) ∧ (∀ n : PortId, platOf n =
      k → s.sup.runFlag = true → bit s.fuse.present n = true → t.port[n].hold = true)) ∧
  (∀ (s : State) (k : PlatId), (s.core[coreOf k]).up = false → ∃ t, exec (.platformWatchdog k) s = .next t ∧ t = s)

/-- LINK_SILENCE marks the link silent and puts every populated port of a running Station into hold-over, its contract,
path and attachment kept; with the die down or the link silent it changes nothing. LINK_RETURN carries transfers again,
hold-over goes on, and core SB, where it runs, completes every test failure found meanwhile; with the die down or the
link alive it changes nothing. At the limit of hold-over an attached port that has not been taken back is to send Hard
Reset, and nothing else of it changes; in Primer's service state the port is instead disabled, with its path open and no
contract; a port that has been taken back, or is not attached, is left as it is. TAKE_BACK by a Platform core that runs
ends the hold-over of the Platform's next port; of a Platform in fallback core SB takes the next port back and hold-over
stays; with no port left, core SB or that core down, or the link silent, nothing is taken back. Where the manual leaves a
point open this rests on the model's own reading: log entry 82. -/
def Obligations.HoldOverAndLink : Prop :=
  (∀ (s : State), s.sup.hvUp = true → s.sup.linkSilent = false → ∃ t, exec (.linkSilence) s = .next t ∧ t.sup =
      { s.sup with linkSilent := true } ∧ (∀ n : PortId, s.sup.runFlag = true → bit s.fuse.present n = true →
      t.port[n].hold = true) ∧ ∀ n : PortId, t.port[n].ct = s.port[n].ct ∧ t.port[n].pp = s.port[n].pp ∧
      t.port[n].tc.st = s.port[n].tc.st) ∧
  (∀ (s : State), s.sup.hvUp = false ∨ s.sup.linkSilent = true → ∃ t, exec (.linkSilence) s = .next t ∧ t = s) ∧
  (∀ (s : State), s.sup.logicUp = true → s.sup.linkSilent = true → ∃ t, exec (.linkReturn) s = .next t ∧
      t.sup.linkSilent = false ∧ (∀ n : PortId, t.port[n].hold = s.port[n].hold ∧ (s.sbUp = true → t.port[n].failDue =
      none))) ∧
  (∀ (s : State), s.sup.logicUp = false ∨ s.sup.linkSilent = false → ∃ t, exec (.linkReturn) s = .next t ∧ t = s) ∧
  (∀ (s : State) (n : PortId), s.notBack n = true → s.sup.primer ≠ .service → s.port[n].tc.st.attached = true → ∃ t,
      exec (.holdOverLimit n) s = .next t ∧ t.port[n] = { s.port[n] with pd := { s.port[n].pd with hrReq := true } } ∧
      ∀ m : PortId, m ≠ n → t.port[m] = s.port[m]) ∧
  (∀ (s : State) (n : PortId), s.notBack n = true → s.sup.primer = .service → ∃ t, exec (.holdOverLimit n) s = .next t ∧
      t.port[n].tc.st = .disabled ∧ t.port[n].hold = false ∧ t.port[n].pp.st ≠ .closed ∧ t.port[n].pd.contract = false) ∧
  (∀ (s : State) (n : PortId), s.notBack n = false ∨ (s.sup.primer ≠ .service ∧ s.port[n].tc.st.attached = false) → ∃ t,
      exec (.holdOverLimit n) s = .next t ∧ t = s) ∧
  (∀ (s : State) (k : PlatId) (n : PortId) (c1 c2 : Nat) (v : Nat), s.nextBack k = some n → s.sbUp = true →
      s.sup.linkSilent = false → s.plat[k].fallback = false → (s.core[coreOf k]).up = true → ∃ t,
      exec (.takeBack k c1 c2 v) s = .next t ∧ t.port[n].hold = false ∧ ∀ m : PortId, m ≠ n → t.port[m].hold =
      s.port[m].hold) ∧
  (∀ (s : State) (k : PlatId) (n : PortId) (c1 c2 : Nat) (v : Nat), s.nextBack k = some n → s.sbUp = true →
      s.sup.linkSilent = false → s.plat[k].fallback = true → ∃ t, exec (.takeBack k c1 c2 v) s = .next t ∧
      t.plat[k].takeBack = (s.plat[k].takeBack.bind fun i => if i < 5 then some (i + 1) else none) ∧ t.port[n].hold =
      s.port[n].hold) ∧
  (∀ (s : State) (k : PlatId) (c1 c2 : Nat) (v : Nat), s.nextBack k = none ∨ s.sbUp = false ∨ s.sup.linkSilent = true ∨
      (s.plat[k].fallback = false ∧ s.core[coreOf k].up = false) → ∃ t, exec (.takeBack k c1 c2 v) s = .next t ∧ t = s)

/-- Primer that finds the main bank uncorrectable enters its service state with REPLACE_N asserted and no image running.
Otherwise it takes a fuse of the thermometer that read blown at either reference as blown and runs the first bank of its
order that passes: it is done, every core it loads is up (a warm start leaves a fallback Platform's core down), the start
is counted, and where the passing bank is the one named its SEL becomes the other's plus one; with neither bank passing
it enters the service state. A Platform core whose reload is due is loaded from the running bank where that still passes
(else nothing changes, log entry 127), and no other core changes; with Primer off, in service, stopped by WARN_N or with
no reload due it changes nothing. RESTART_BEGIN with no transition, swap, Hard Reset or ROLLBACK_ADVANCE in progress
completes the restart's command, stops every core, leaves no command in the front ends and starts Primer on the bank
asked for, contracts, paths and attachments kept; with none asked, core SB down, a port busy or an advance running it
changes nothing. RESTART_ABANDONED while a port is busy drops the restart, and no port or core changes; otherwise it
changes nothing. SERVICE_LEVEL_CHANGE takes the pin's level and leaves the level read at the release; a change is kept
for the event until core SB runs. LIFE_HOUR adds the hour's factor at that temperature to the life-used counter, in hours
and 2⁻³² h; with core SB down it counts nothing. SELFTEST_DONE ends a Port's test and keeps the tests that failed; a Port
that fails any is retired and disabled with its path open, one that passes is in service; with no test running it changes
nothing. Where the manual leaves a point open this rests on the model's own reading: log entries 9, 11, 75, 76, 78, 80,
127, 167. -/
def Obligations.PrimerAndRestarts : Prop :=
  (∀ (s : State) (w : Bool) (b : Option Bank) (d : MainReads), s.sup.primer = .running w b → ∃ t,
      exec (.primerCompletion true d) s = .next t ∧ t.sup.primer = .service ∧ t.sup.serviceReplace = true ∧
      t.sup.runBank = none ∧ t.core = s.core ∧ t.port = s.port) ∧
  (∀ (s : State) (w : Bool) (b : Option Bank) (d : MainReads), s.sup.primer = .running w b → ∃ t,
      exec (.primerCompletion false d) s = .next t ∧
      (match (s.readThermo d.oneRef).chooseBank w b with | some (x, _, _) => t.sup.primer = .done ∧ t.sup.runBank = some x ∧ t.sup.runFlag = true ∧ t.sup.primerEver = true ∧ (∀ c : CoreId, (w = false ∨ c = coreSB) → t.core[c].up = true) ∧ (b = some x → (t.bank x).sel = (s.bank x.other).sel + 1) ∧ (b ≠ some x → (t.bank x).sel = (s.bank x).sel) ∧ (w = true → t.health.warm = sat32 (s.health.warm + 1)) | none => t.sup.primer = .service ∧ t.sup.serviceReplace = true ∧ t.sup.runBank = none ∧ t.core = s.core) ∧
      t.fuse = { s.fuse with arb := s.fuse.arb ||| d.oneRef }) ∧
  (∀ (s : State) (u : Bool) (d : MainReads) (k : PlatId) (l : List PlatId), s.sup.primer = .done → s.sup.reload = k ::
      l → s.hs.warn = false → ∃ t, exec (.primerCompletion u d) s = .next t ∧
      if (s.verifyBank (s.sup.runBank.getD .a)).1 = 0 then t.core[coreOf k].up = true ∧ t.sup.reload = l ∧ t.port =
      s.port ∧ ∀ c : CoreId, c ≠ coreOf k → t.core[c] = s.core[c] else t = s) ∧
  (∀ (s : State) (u : Bool) (d : MainReads), s.sup.primer = .off ∨ s.sup.primer = .service ∨ (s.sup.primer = .done ∧
      (s.sup.reload = [] ∨ s.hs.warn = true)) → ∃ t, exec (.primerCompletion u d) s = .next t ∧ t = s) ∧
  (∀ (s : State) (r : RestartReq), s.sup.restartReq = some r → s.sbUp = true → (allPorts.any s.portBusy) = false →
      s.advance = [] → ∃ t, exec (.restartBegin) s = .next t ∧ t.sup.primer =
      (if s.hs.warn then .stopped s.sup.runFlag r.bank else .running s.sup.runFlag r.bank) ∧ t.sup.restartReq = none ∧
      t.inbox = [] ∧ t.waiting = [] ∧ t.active = [] ∧ (∀ c : CoreId, t.core[c].up = false) ∧ ∀ n : PortId, t.port[n].ct =
      s.port[n].ct ∧ t.port[n].pp.st = s.port[n].pp.st ∧ t.port[n].tc.st = s.port[n].tc.st) ∧
  (∀ (s : State), s.sup.restartReq = none ∨ s.sbUp = false ∨ (allPorts.any s.portBusy) = true ∨ s.advance ≠ [] → ∃ t,
      exec (.restartBegin) s = .next t ∧ t = s) ∧
  (∀ (s : State) (r : RestartReq) (n : PortId), s.sup.restartReq = some r → allPorts.find? s.portBusy = some n → ∃ t,
      exec (.restartAbandoned) s = .next t ∧ t.sup = { s.sup with restartReq := none } ∧ t.port = s.port ∧ t.core =
      s.core) ∧
  (∀ (s : State), s.sup.restartReq = none ∨ allPorts.find? s.portBusy = none → ∃ t, exec (.restartAbandoned) s =
      .next t ∧ t = s) ∧
  (∀ (s : State) (l : Bool), ∃ t, exec (.serviceLevelChange l) s = .next t ∧ t.sup.servicePin = l ∧ t.sup.service =
      s.sup.service ∧ t.port = s.port ∧ (s.sbUp = true → t.sup.serviceDue = []) ∧ (s.sbUp = false → t.sup.serviceDue =
      if l ≠ s.sup.servicePin && s.sup.logicUp then s.sup.serviceDue ++ [l] else s.sup.serviceDue)) ∧
  (∀ (s : State) (x : Int), s.sbUp = true → ∃ t, exec (.lifeHour x) s = .next t ∧ t =
      { s with health := { s.health with life := sat32 (s.health.life + (s.health.lifePart + lifeRate x) / 2 ^ 32), lifePart := (s.health.lifePart + lifeRate x) % 2 ^ 32 } }) ∧
  (∀ (s : State) (x : Int), s.sbUp = false → ∃ t, exec (.lifeHour x) s = .next t ∧ t = s) ∧
  (∀ (s : State) (n : PortId) (f : BitVec 6) (c : CmdRef) (st : TcState), s.port[n].test = some (c, st) → ∃ t,
      exec (.selftestDone n f) s = .next t ∧ t.port[n].test = none ∧ t.port[n].ms.tests =
      s.port[n].ms.tests ||| f.zeroExtend 16 ∧ (if f = 0 then bit t.health.retired n =
      false else bit t.health.retired n = true ∧ t.port[n].tc.st = .disabled ∧ t.port[n].pp.st ≠ .closed ∧ t.claim[n] =
      none ∧ t.kp n = 0)) ∧
  (∀ (s : State) (n : PortId) (f : BitVec 6), s.port[n].test = none → ∃ t, exec (.selftestDone n f) s = .next t ∧ t = s)

/-- A CAD tick in LOCKED advances CT by one and every running, free up-counter of source tick by one step, from its
RELOAD to 0; the state of chassis time, the cores, claims, hot-swap block and sequencer stay, and so do ports and store
where no trip waits for the end of its tick. A generated tick does the same where CAD is not the source of ticks, after
the crystal cycles that the average over the last 256 locked frames owes it; where CAD is, or after any other number of
cycles, it changes nothing. In SLEW a positive offset skips 2047 of each frame, a negative one holds it for a second
tick, and each such frame takes one from the offset. A CAD edge while CAD is not the source counts nothing; and at every
CAD edge FRM is sampled: a high sample begins a run or lengthens it, a low one ends it. With the HV die down neither does
anything. Where the manual leaves a point open this rests on the model's own reading: log entries 26, 128. -/
def Obligations.ChassisTicks : Prop :=
  (∀ (s : State) (x : Nat) (b : Bool), s.sup.hvUp = true → s.time.st = .locked → ∃ t, exec (.cadTick ⟨x, b⟩) s =
      .next t ∧ t.time.ct = s.time.ct + 1 ∧ t.time.st = s.time.st ∧ (∀ ch : Fin 128, s.chan[ch].upCounts = true →
      t.chan[ch].run = true ∧ t.chan[ch].count =
      if s.chan[ch].reload ≤ s.chan[ch].count then 0 else s.chan[ch].count + 1) ∧ t.loc.cmdFree = true ∧ t.core =
      s.core ∧ t.claim = s.claim ∧ t.hs = s.hs ∧ t.sq = s.sq ∧ (s.trips = [] → t.port = s.port ∧ t.store = s.store)) ∧
  (∀ (s : State), s.sup.hvUp = true → s.fromCad = false → s.time.st ≠ .slew → ∃ t,
      exec (.generatedTick (s.time.owed / 524288)) s = .next t ∧ t.time.ct = s.time.ct + 1 ∧ t.time.st = s.time.st ∧
      (∀ ch : Fin 128, s.chan[ch].upCounts = true → t.chan[ch].run = true ∧ t.chan[ch].count =
      if s.chan[ch].reload ≤ s.chan[ch].count then 0 else s.chan[ch].count + 1) ∧ t.loc.cmdFree = true ∧ t.core =
      s.core ∧ t.claim = s.claim ∧ t.hs = s.hs ∧ t.sq = s.sq ∧ (s.trips = [] → t.port = s.port ∧ t.store = s.store)) ∧
  (∀ (s : State) (x : Nat), s.sup.hvUp = false ∨ s.fromCad = true ∨ s.time.owed / 524288 ≠ x → ∃ t,
      exec (.generatedTick x) s = .next t ∧ t = s) ∧
  (∀ (s : State) (x : Nat) (b : Bool), s.sup.hvUp = true → s.time.st = .slew → ∃ t, exec (.cadTick ⟨x, b⟩) s = .next t ∧
      (if 0 < s.time.slewOfs.toInt ∧ s.time.ct.toNat % 2048 = 2046 then t.time.ct = s.time.ct + 2 ∧ t.time.slewOfs =
      s.time.slewOfs - 1 else if s.time.slewOfs.toInt < 0 ∧ s.time.ct.toNat % 2048 = 2047 ∧ s.time.heldTick =
      false then t.time.ct = s.time.ct ∧ t.time.slewOfs = s.time.slewOfs + 1 else t.time.ct = s.time.ct + 1 ∧
      t.time.slewOfs = s.time.slewOfs) ∧ t.time.st = .slew) ∧
  (∀ (s : State) (x : Nat) (b : Bool), s.sup.hvUp = true → s.fromCad = false → (s.time.st = .holdover → s.time.cause ≠
      4) → ∃ t, exec (.cadTick ⟨x, b⟩) s = .next t ∧ t.time.ct = s.time.ct ∧ t.time.cadHere = true ∧ t.port = s.port ∧
      t.chan = s.chan ∧ t.tt = s.tt ∧ t.store = s.store) ∧
  (∀ (s : State) (x : Nat) (b : Bool), s.sup.hvUp = true → ∃ t, exec (.cadTick ⟨x, b⟩) s = .next t ∧
      if b then t.time.frmRun =
      some (match s.time.frmRun with | some m => { m with width := m.width + 1 } | none => { rise := t.time.ct, fall := t.time.ct, width := 1, ofs := t.time.slewOfs }) ∧
      t.time.frmDone = s.time.frmDone else t.time.frmRun = none ∧ t.time.frmDone =
      (match s.time.frmRun with | some m => some { m with fall := t.time.ct } | none => s.time.frmDone)) ∧
  (∀ (s : State) (x : Nat) (b : Bool), s.sup.hvUp = false → ∃ t, exec (.cadTick ⟨x, b⟩) s = .next t ∧ t = s)

/-- From LOCKED or SLEW the loss of CAD enters HOLDOVER with cause 1, drops what is left of a slew and issues one event;
in ACQUIRE or HOLDOVER it leaves the state; two frames outside the accepted count enter it with cause 2; one frame inside
it, or a lost crystal, leaves all as it was; sixteen frames inside it qualify CAD, and nothing else; a frame outside it,
or a lost crystal, does not; the loss of markers enters HOLDOVER with cause 5, but not in ACQUIRE, HOLDOVER or with the
crystal lost; the loss of the crystal enters it with cause 4 from every other state, with health cause 6 where core SB
runs; in HOLDOVER it changes the cause alone and tells of no change of state, once. A slew with no offset left ends in
LOCKED, and not before. FRM_MARKER captures the run that has ended, its rise and fall, its kind by width and its width
limited to 255, with OVR where the capture before was not read. A run that is neither marker adds to MISMATCH_CNT, which
saturates, and has no other effect on chassis time. In LOCKED a frame marker at tick 0 of a frame is no mismatch; one at
another tick is, and the third in a row with one same error enters HOLDOVER with cause 3. The first superframe marker
with CAD qualified ends HOLDOVER (but that of cause 4), in LOCKED where it stands at a superframe's start and else in
SLEW with the offset to it. In ACQUIRE two frame markers 2048 tk apart with CAD qualified align the ticks of the frame to
the second, with frame lock; then a superframe marker at tick 0 aligns the superframe and enters LOCKED. Where no such
run has ended FRM_MARKER changes nothing. A read of FRM_CAP clears VALID and nothing else. Where the manual leaves a
point open this rests on the model's own reading: log entries 26, 150, 151. -/
def Obligations.ChassisStates : Prop :=
  (∀ (s : State), s.sup.hvUp = true → s.time.st = .locked ∨ s.time.st = .slew → ∃ t, exec (.cadAbsent) s = .next t ∧
      t.time.st = .holdover ∧ t.time.cause = 1 ∧ t.time.slewOfs = 0 ∧ t.time.ct = s.time.ct ∧ t.ssn = s.ssn + 1 ∧
      t.time.cadOk = false ∧ t.time.cadHere = false) ∧
  (∀ (s : State), s.sup.hvUp = true → s.time.st = .acquire ∨ s.time.st = .holdover → ∃ t, exec (.cadAbsent) s = .next t ∧
      t = { s with time := { s.time with cadOk := false, cadHere := false } }) ∧
  (∀ (s : State) (a b : Nat), s.sup.hvUp = true → s.time.st = .locked ∨ s.time.st = .slew → s.time.xtalOk = true →
      cadInside a = false → cadInside b = false → ∃ t, exec (.cadOutOfTolerance a b) s = .next t ∧ t.time.st =
      .holdover ∧ t.time.cause = 2 ∧ t.time.slewOfs = 0 ∧ t.time.ct = s.time.ct ∧ t.ssn = s.ssn + 1 ∧ t.time.cadOk =
      false) ∧
  (∀ (s : State) (a b : Nat), s.sup.hvUp = false ∨ s.time.xtalOk = false ∨ cadInside a = true ∨ cadInside b = true → ∃ t,
      exec (.cadOutOfTolerance a b) s = .next t ∧ t = s) ∧
  (∀ (s : State) (l : List Nat), s.sup.hvUp = true → s.time.xtalOk = true → l.length = 16 → l.all cadInside = true → ∃ t,
      exec (.cadQualified l) s = .next t ∧ t = { s with time := { s.time with cadOk := true } }) ∧
  (∀ (s : State) (l : List Nat), s.sup.hvUp = false ∨ s.time.xtalOk = false ∨ l.all cadInside = false → ∃ t,
      exec (.cadQualified l) s = .next t ∧ t = s) ∧
  (∀ (s : State), s.sup.hvUp = true → s.time.st = .locked ∨ s.time.st = .slew → s.time.xtalOk = true → ∃ t,
      exec (.frmAbsent) s = .next t ∧ t.time.st = .holdover ∧ t.time.cause = 5 ∧ t.time.slewOfs = 0 ∧ t.time.ct =
      s.time.ct ∧ t.ssn = s.ssn + 1) ∧
  (∀ (s : State), s.sup.hvUp = false ∨ s.time.xtalOk = false ∨ s.time.st = .acquire ∨ s.time.st = .holdover → ∃ t,
      exec (.frmAbsent) s = .next t ∧ t = s) ∧
  (∀ (s : State), s.sup.hvUp = true → s.time.xtalOk = true → s.time.st ≠ .holdover → ∃ t, exec (.crystalLost) s =
      .next t ∧ t.time.st = .holdover ∧ t.time.cause = 4 ∧ t.time.slewOfs = 0 ∧ t.time.ct = s.time.ct ∧ t.time.xtalOk =
      false ∧ (if s.sbUp then t.ssn = s.ssn + 2 ∧ bit t.health.active 6 = true else t.ssn = s.ssn + 1)) ∧
  (∀ (s : State), s.sup.hvUp = true → s.time.xtalOk = true → s.time.st = .holdover → ∃ t, exec (.crystalLost) s =
      .next t ∧ t.time.st = .holdover ∧ t.time.cause = 4 ∧ t.time.slewOfs = 0 ∧ t.time.ct = s.time.ct ∧ t.time.xtalOk =
      false ∧ (if s.sbUp then t.ssn = s.ssn + 1 ∧ bit t.health.active 6 = true else t.ssn = s.ssn)) ∧
  (∀ (s : State), s.sup.hvUp = false ∨ s.time.xtalOk = false → ∃ t, exec (.crystalLost) s = .next t ∧ t = s) ∧
  (∀ (s : State), s.time.st = .slew → s.time.slewOfs = 0 → ∃ t, exec (.slewEnd) s = .next t ∧ t.time =
      { s.time with st := .locked } ∧ t.ssn = s.ssn + 1) ∧
  (∀ (s : State), s.time.st ≠ .slew ∨ s.time.slewOfs ≠ 0 → ∃ t, exec (.slewEnd) s = .next t ∧ t = s) ∧
  (∀ (s : State) (m : Marker), s.time.frmDone = some m → s.time.st ≠ .acquire → ∃ t, exec (.frmMarker m.rise m.width) s =
      .next t ∧ t.time.capValid = true ∧ t.time.capOvr = (s.time.capOvr || s.time.capValid) ∧ t.time.rise = m.rise ∧
      t.time.fall = m.fall ∧ t.time.capKind = (if m.width = 1 then 0 else if m.width = 3 then 1 else 2) ∧
      t.time.capWidth = BitVec.ofNat 8 (min 255 (m.fall - m.rise).toNat) ∧ t.time.frmDone = none ∧ t.time.ct =
      s.time.ct) ∧
  (∀ (s : State) (m : Marker), s.time.frmDone = some m → m.width ≠ 1 → m.width ≠ 3 → ∃ t,
      exec (.frmMarker m.rise m.width) s = .next t ∧ t.time.st = s.time.st ∧
      t.time.mismatch = (if s.time.mismatch = 0xFF then 0xFF else s.time.mismatch + 1) ∧ t.time.frameLock = s.time.frameLock ∧ t.port = s.port) ∧
  (∀ (s : State) (m : Marker), s.time.frmDone = some m → m.width = 1 → s.time.st = .locked → m.ofs = 0 →
      m.rise.toNat % 2048 = 0 → ∃ t, exec (.frmMarker m.rise m.width) s = .next t ∧ t.time.st = .locked ∧
      t.time.mismatch = s.time.mismatch ∧ t.time.tickRun = none ∧ t.ssn = s.ssn ∧ t.port = s.port) ∧
  (∀ (s : State) (m : Marker), s.time.frmDone = some m → m.width = 1 → s.time.st = .locked → m.ofs = 0 →
      m.rise.toNat % 2048 ≠ 0 → ∃ t, exec (.frmMarker m.rise m.width) s = .next t ∧
      t.time.mismatch = (if s.time.mismatch = 0xFF then 0xFF else s.time.mismatch + 1) ∧ (if s.time.tickRun.any (fun x => x.1 = 2048 - m.rise.toNat % 2048 && 2 ≤ x.2) then t.time.st = .holdover ∧ t.time.cause = 3 else t.time.st = .locked)) ∧
  (∀ (s : State) (m : Marker), s.time.frmDone = some m → m.width = 3 → s.time.st = .holdover → s.time.cadOk = true →
      s.time.cause ≠ 4 → ∃ t, exec (.frmMarker m.rise m.width) s = .next t ∧ (if m.rise.toNat % 2 ^ 21 =
      0 then t.time.st = .locked else t.time.st = .slew) ∧ t.time.slewOfs =
      (BitVec.ofNat 21 (2 ^ 21 - m.rise.toNat % 2 ^ 21)).signExtend 32 ∧ t.time.ct = s.time.ct) ∧
  (∀ (s : State) (m : Marker), s.time.frmDone = some m → m.width = 1 → s.time.st = .acquire → s.time.frameLock = false →
      ∃ t, exec (.frmMarker m.rise m.width) s = .next t ∧ (if s.time.cadOk = true ∧ s.time.lastFrame =
      some (m.rise - 2048) then t.time.frameLock = true ∧ t.time.ct.toNat % 2048 = (s.time.ct - m.rise).toNat % 2048 ∧
      t.time.ct.toNat / 2048 % 1024 = s.time.ct.toNat / 2048 % 1024 else t.time.frameLock = false ∧ t.time.lastFrame =
      some m.rise ∧ t.time.ct = s.time.ct) ∧ t.time.st = .acquire) ∧
  (∀ (s : State) (m : Marker), s.time.frmDone = some m → m.width = 3 → s.time.st = .acquire → s.time.frameLock = true →
      m.rise.toNat % 2048 = 0 → ∃ t, exec (.frmMarker m.rise m.width) s = .next t ∧ t.time.st = .locked ∧ t.time.sfLock =
      true ∧ t.time.ct.toNat % 2 ^ 21 = (s.time.ct - m.rise).toNat % 2 ^ 21 ∧ t.time.ct.toNat / 2 ^ 21 =
      (if s.time.epochSet then s.time.ct.toNat / 2 ^ 21 else 0)) ∧
  (∀ (s : State) (r : CT) (w : Nat), (s.time.frmDone.all fun m => m.rise ≠ r || m.width ≠ w) = true → ∃ t,
      exec (.frmMarker r w) s = .next t ∧ t = s) ∧
  (∀ (s : State), ∃ t, exec (.frmCapRead) s = .next t ∧ t = { s with time := { s.time with capValid := false } })

/-- Sixteen equal samples latch SLOT_ID, and a slot at or above N is health cause 2 where core SB runs; samples that
differ, or a slot latched before, leave it. A later change of the pins leaves SLOT_ID and is reported as health cause 1
at once, or kept for the report until core SB runs; with no slot latched, or no change, nothing is. A superframe start
latches every port's energy counters with the chassis time and puts the pending N and budget in force; a pending epoch
first sets CT[47:21]; at another tick, or with the die down, it does nothing. EN_SNAP by core SB latches the same
counters of every port with the chassis time and changes nothing else of a port; by another core it changes nothing.
Where the manual leaves a point open this rests on the model's own reading: log entry 131. -/
def Obligations.SlotsAndSuperframes : Prop :=
  (∀ (s : State) (v : BitVec 6), s.sup.hvUp = true → s.sup.slotId = none → ∃ t,
      exec (.slotLatch (List.replicate 16 v)) s = .next t ∧ t.sup.slotId = some v ∧ t.sup.slotPins = some v ∧ (s.sbUp =
      true → 2 ^ s.tt.nlog.toNat ≤ v.toNat → bit t.health.active 2 = true) ∧ t.port = s.port) ∧
  (∀ (s : State) (l : List (BitVec 6)), (s.sup.hvUp = false ∨ s.sup.slotId ≠ none ∨ l.length ≠ 16 ∨ (∃ x ∈ l, x ≠
      l.headD 0)) → ∃ t, exec (.slotLatch l) s = .next t ∧ t = s) ∧
  (∀ (s : State) (v w : BitVec 6), s.sup.slotId = some v → s.sup.slotPins ≠ some w → ∃ t, exec (.slotChange w) s =
      .next t ∧ t.sup.slotId = some v ∧ t.sup.slotPins = some w ∧ (if s.sbUp = true ∧ s.sup.linkSilent =
      false then t.sup.slotChanged = [] ∧ bit t.health.active 1 = true else t.sup.slotChanged = s.sup.slotChanged ++
      [w]) ∧ t.port = s.port) ∧
  (∀ (s : State) (w : BitVec 6), s.sup.slotId = none ∨ some w = s.sup.slotPins → ∃ t, exec (.slotChange w) s = .next t ∧
      t = s) ∧
  (∀ (s : State), s.sup.hvUp = true → s.time.ct.toNat % 2 ^ 21 = 0 → s.time.epochPend = none → ∃ t,
      exec (.superframeStart) s = .next t ∧ t.snapCt = s.time.ct ∧ t.time = s.time ∧ (∀ n : PortId,
      t.port[n].ms.snapSrc = s.port[n].ms.src ∧ t.port[n].ms.snapSnk = s.port[n].ms.snk) ∧ t.tt.nlog = s.tt.nlogPend ∧
      t.tt.budget = s.tt.budgetPend ∧ t.claim = s.claim) ∧
  (∀ (s : State) (v : BitVec 27) (c : Option CmdRef), s.sup.hvUp = true → s.time.ct.toNat % 2 ^ 21 = 0 →
      s.time.epochPend = some (v, c) → ∃ t, exec (.superframeStart) s = .next t ∧ t.time.ct = v ++
      s.time.ct.extractLsb' 0 21 ∧ t.time.epochSet = true ∧ t.time.epochPend = none ∧ t.snapCt = t.time.ct) ∧
  (∀ (s : State), s.sup.hvUp = false ∨ s.time.ct.toNat % 2 ^ 21 ≠ 0 → ∃ t, exec (.superframeStart) s = .next t ∧ t = s) ∧
  (∀ (s : State) (n : PortId), ∃ t, exec (.enSnap coreSB) s = .next t ∧ t.snapCt = s.time.ct ∧ (∀ m : PortId, t.port[m] =
      { s.port[m] with ms := { s.port[m].ms with snapSrc := s.port[m].ms.src, snapSnk := s.port[m].ms.snk } })) ∧
  (∀ (s : State) (c : CoreId), c ≠ coreSB → ∃ t, exec (.enSnap c) s = .next t ∧ t = s)

/-- A match that is due on a channel of no port sets MFLAG and acts on that channel or the linked one alone; action stop
stops the channel at its count, and action restart begins it again at PHASE. A match of a port's channel acts on no other
port; one that is not due does nothing. A wrap that is due sets WFLAG likewise and acts on no port; one that is not due
does nothing. The owner's write of CHn_CTRL takes its fields, starts a stopped channel at PHASE, clears the flags it
names and leaves every other channel and register; another core's write changes nothing. The owner's write of CHn_RELOAD
takes the word; a running channel it leaves beyond its end is to wrap at the next tick. CHn_BUF is written alike.
CHn_MATCH is written alike. CHn_PHASE is written alike. No core writes another's channel. A core's write of its event
register sets it and wakes the core where it is not 0. TT_REQ_A of a core's own set takes the written word without its
reserved bits. TT_REQ_B of a core's own set takes the written word without its reserved bits. TT_REQ_C of a core's own
set takes the written word without its reserved bits. TT_REQ_D of a core's own set takes the written word without its
reserved bits. Core SB's write of a 1 to MISMATCH_CNT clears it; a 1 to OVR of FRM_CAP clears that; another core's write
of either changes nothing. Where the manual leaves a point open this rests on the model's own reading: log entries 23,
24, 130. -/
def Obligations.CounterChannels : Prop :=
  (∀ (s : State) (ch : Fin 128), s.chan[ch].dueM = true → 96 ≤ ch.val → ∃ t, exec (.channelMatch ch) s = .next t ∧
      t.chan[ch].mflag = true ∧ t.chan[ch].dueM = false ∧ t.port = s.port ∧ (∀ k : Fin 128, k ≠ ch → k.val ≠
      s.chan[ch].link.toNat → t.chan[k] = s.chan[k]) ∧ (s.chan[ch].actM = 1 → s.chan[ch].rank < 3 → t.chan[ch].run =
      false ∧ t.chan[ch].count = s.chan[ch].edgeCount) ∧ (s.chan[ch].actM = 2 → s.chan[ch].rank < 2 → t.chan[ch].run =
      true ∧ t.chan[ch].count = s.chan[ch].phase)) ∧
  (∀ (s : State) (ch : Fin 128), s.chan[ch].dueM = true → ch.val < 96 → ∃ t, exec (.channelMatch ch) s = .next t ∧
      ∀ m : PortId, m.val ≠ ch.val / 4 → t.port[m].tc = s.port[m].tc ∧ t.port[m].pp = s.port[m].pp ∧ t.port[m].ms =
      s.port[m].ms) ∧
  (∀ (s : State) (ch : Fin 128), s.chan[ch].dueM = false → ∃ t, exec (.channelMatch ch) s = .next t ∧ t = s) ∧
  (∀ (s : State) (ch : Fin 128), s.chan[ch].dueW = true → ∃ t, exec (.channelWrap ch) s = .next t ∧ t.chan[ch].wflag =
      true ∧ t.chan[ch].dueW = false ∧ t.port = s.port ∧ (∀ k : Fin 128, k ≠ ch → k.val ≠ s.chan[ch].link.toNat →
      t.chan[k] = s.chan[k]) ∧ (s.chan[ch].actW = 1 → s.chan[ch].rank < 3 → t.chan[ch].run = false)) ∧
  (∀ (s : State) (ch : Fin 128), s.chan[ch].dueW = false → ∃ t, exec (.channelWrap ch) s = .next t ∧ t = s) ∧
  (∀ (s : State) (ch : Fin 128) (v : Word), ∃ t, exec (.chnCtrlWrite (chanOwner ch) ch v) s = .next t ∧ (∀ k : Fin 128,
      k ≠ ch → t.chan[k] = s.chan[k]) ∧ t.chan[ch].run = bit v 31 ∧ t.chan[ch].count =
      (if bit v 31 && !s.chan[ch].run then s.chan[ch].phase else s.chan[ch].count) ∧ t.chan[ch].down = bit v 30 ∧
      t.chan[ch].src = BitVec.ofNat 2 (bits v 29 28) ∧ t.chan[ch].startSf = bit v 27 ∧ t.chan[ch].mflag =
      (s.chan[ch].mflag && !bit v 17) ∧ t.chan[ch].wflag = (s.chan[ch].wflag && !bit v 16) ∧ t.chan[ch].link =
      BitVec.ofNat 7 (bits v 14 8) ∧ t.chan[ch].reload = s.chan[ch].reload) ∧
  (∀ (s : State) (c : CoreId) (ch : Fin 128) (v : Word), chanOwner ch ≠ c → ∃ t, exec (.chnCtrlWrite c ch v) s =
      .next t ∧ t = s) ∧
  (∀ (s : State) (ch : Fin 128) (v : Word), ∃ t, exec (.registerWrite (chanOwner ch) (.chReload ch) v) s = .next t ∧
      t.chan[ch].reload = v ∧ t.chan[ch].force = (s.chan[ch].run && if s.chan[ch].down then decide (s.chan[ch].count =
      0) else decide (v < s.chan[ch].count)) ∧ t.chan[ch].count = s.chan[ch].count ∧ ∀ k : Fin 128, k ≠ ch → t.chan[k] =
      s.chan[k]) ∧
  (∀ (s : State) (ch : Fin 128) (v : Word), ∃ t, exec (.registerWrite (chanOwner ch) (.chBuf ch) v) s = .next t ∧
      t.chan[ch].buf = v ∧ t.chan[ch].count = s.chan[ch].count ∧ ∀ k : Fin 128, k ≠ ch → t.chan[k] = s.chan[k]) ∧
  (∀ (s : State) (ch : Fin 128) (v : Word), ∃ t, exec (.registerWrite (chanOwner ch) (.chMatch ch) v) s = .next t ∧
      t.chan[ch].mtch = v ∧ t.chan[ch].count = s.chan[ch].count ∧ ∀ k : Fin 128, k ≠ ch → t.chan[k] = s.chan[k]) ∧
  (∀ (s : State) (ch : Fin 128) (v : Word), ∃ t, exec (.registerWrite (chanOwner ch) (.chPhase ch) v) s = .next t ∧
      t.chan[ch].phase = v ∧ t.chan[ch].count = s.chan[ch].count ∧ ∀ k : Fin 128, k ≠ ch → t.chan[k] = s.chan[k]) ∧
  (∀ (s : State) (c : CoreId) (ch : Fin 128) (v : Word) (r : CoreReg), chanOwner ch ≠ c → r ∈ [.chReload ch, .chBuf ch,
      .chMatch ch, .chPhase ch] → ∃ t, exec (.registerWrite c r v) s = .next t ∧ t = s) ∧
  (∀ (s : State) (c : CoreId) (v : Word), ∃ t, exec (.registerWrite c .eventReg v) s = .next t ∧ t.core[c] =
      { s.core[c] with event := v, sleeping := s.core[c].sleeping && v = 0 } ∧ ∀ k : CoreId, k ≠ c → t.core[k] =
      s.core[k]) ∧
  (∀ (s : State) (c : CoreId) (v : Word), ∃ t, exec (.registerWrite c .ttReqA v) s = .next t ∧ t.tt.req[c] =
      { s.tt.req[c] with a := v &&& 0xFF8007FF } ∧ ∀ k : CoreId, k ≠ c → t.tt.req[k] = s.tt.req[k]) ∧
  (∀ (s : State) (c : CoreId) (v : Word), ∃ t, exec (.registerWrite c .ttReqB v) s = .next t ∧ t.tt.req[c] =
      { s.tt.req[c] with b := v &&& 0xFFFFFFFF } ∧ ∀ k : CoreId, k ≠ c → t.tt.req[k] = s.tt.req[k]) ∧
  (∀ (s : State) (c : CoreId) (v : Word), ∃ t, exec (.registerWrite c .ttReqC v) s = .next t ∧ t.tt.req[c] =
      { s.tt.req[c] with c := v &&& 0x8000FFFF } ∧ ∀ k : CoreId, k ≠ c → t.tt.req[k] = s.tt.req[k]) ∧
  (∀ (s : State) (c : CoreId) (v : Word), ∃ t, exec (.registerWrite c .ttReqD v) s = .next t ∧ t.tt.req[c] =
      { s.tt.req[c] with d := v &&& 0xFFFF0FFF } ∧ ∀ k : CoreId, k ≠ c → t.tt.req[k] = s.tt.req[k]) ∧
  (∀ (s : State) (v : Word), ∃ t, exec (.registerWrite coreSB .timeStat v) s = .next t ∧ t = if bits v 23 16 ≠
      0 then { s with time := { s.time with mismatch := 0 } } else s) ∧
  (∀ (s : State) (v : Word), ∃ t, exec (.registerWrite coreSB .frmCap v) s = .next t ∧ t =
      if bit v 30 then { s with time := { s.time with capOvr := false } } else s) ∧
  (∀ (s : State) (c : CoreId) (v : Word) (r : CoreReg), c ≠ coreSB → r ∈ [.timeStat, .frmCap] → ∃ t,
      exec (.registerWrite c r v) s = .next t ∧ t = s)

/-- A core's GO clears DONE and waits for the end of its tick; a GO while one waits is ignored. At the tick that follows
every waiting request is answered with DONE. A cancel by core SB empties the entry it names and no other; a Platform
core's cancel does so for an entry of a port of its own, and changes nothing for another's; so does a cancel of an empty
entry. A write of TT_CFG by core SB sets the pending N, but for 0b111, and the pending budget, limited to 20 W and to the
sealed ceiling, and nothing in force; another core's changes nothing. A RESERVE grant that is due is fired: its step is
done, and no port and no other entry changes; where a cancellation of the same tick is still to come, it fires nothing.
one that is not due does nothing. Where the manual leaves a point open this rests on the model's own reading: log entries
25, 124, 125, 152. -/
def Obligations.TimetableRequests : Prop :=
  (∀ (s : State) (c : CoreId), s.tt.gos.contains c = false → ∃ t, exec (.ttGo c) s = .next t ∧ t =
      { s with tt := { s.tt with gos := s.tt.gos ++ [c], req := s.tt.req.set c { s.tt.req[c] with done := false } } }) ∧
  (∀ (s : State) (c : CoreId), s.tt.gos.contains c = true → ∃ t, exec (.ttGo c) s = .next t ∧ t = s) ∧
  (∀ (s : State) (x : Nat) (b : Bool) (c : CoreId), s.sup.hvUp = true → s.time.st = .locked → s.tt.gos.contains c =
      true → ∃ t, exec (.cadTick ⟨x, b⟩) s = .next t ∧ t.tt.gos = [] ∧ t.tt.req[c].done = true) ∧
  (∀ (s : State) (i : Fin 256) (e : Entry), s.tt.entries[i] = some e → ∃ t,
      exec (.ttCancel coreSB (BitVec.ofNat 8 i.val)) s = .next t ∧ t.tt.entries[i] = none ∧ (∀ k : Fin 256, k ≠ i →
      t.tt.entries[k] = s.tt.entries[k]) ∧ t.port = s.port) ∧
  (∀ (s : State) (i : Fin 256) (e : Entry) (p : PortId), s.tt.entries[i] = some e → e.owner = p.val → ∃ t,
      exec (.ttCancel (coreOf (platOf p)) (BitVec.ofNat 8 i.val)) s = .next t ∧ t.tt.entries[i] = none ∧ (∀ k : Fin 256,
      k ≠ i → t.tt.entries[k] = s.tt.entries[k]) ∧ t.port = s.port) ∧
  (∀ (s : State) (i : Fin 256) (e : Entry) (c : CoreId), s.tt.entries[i] = some e → c ≠ coreSB → (allPorts.all fun p =>
      e.owner ≠ p.val || coreOf (platOf p) ≠ c) = true → ∃ t, exec (.ttCancel c (BitVec.ofNat 8 i.val)) s = .next t ∧ t =
      s) ∧
  (∀ (s : State) (c : CoreId) (i : Fin 256), s.tt.entries[i] = none → ∃ t, exec (.ttCancel c (BitVec.ofNat 8 i.val)) s =
      .next t ∧ t = s) ∧
  (∀ (s : State) (v : Word), ∃ t, exec (.ttCfgWrite coreSB v) s = .next t ∧ t =
      { s with tt := { s.tt with nlogPend := if bits v 26 24 = 7 then s.tt.nlogPend else BitVec.ofNat 3 (bits v 26 24), budgetPend := BitVec.ofNat 10 (max 20 (min s.budgetCeil (bits v 9 0))) } }) ∧
  (∀ (s : State) (c : CoreId) (v : Word), c ≠ coreSB → ∃ t, exec (.ttCfgWrite c v) s = .next t ∧ t = s) ∧
  (∀ (s : State) (i : Fin 256) (e : Entry) (g : CT × Int), s.tt.entries[i] = some e → e.kind = .reserve → e.todo.head? =
      some g → due s.time.ct g.1 = true → s.cancelComes i e = false → ∃ t, exec (.reserveGrant i) s = .next t ∧ t.port =
      s.port ∧ t.bg = s.bg ∧ (∀ k : Fin 256, k ≠ i → t.tt.entries[k] = s.tt.entries[k]) ∧ (t.tt.entries[i].any fun x =>
      x.todo = e.todo.tail && x.fired = e.fired + 1 && x.owner = e.owner && x.dur = e.dur) = true) ∧
  (∀ (s : State) (i : Fin 256) (e : Entry), s.tt.entries[i] = some e → s.cancelComes i e = true → ∃ t,
      exec (.reserveGrant i) s = .next t ∧ t = s) ∧
  (∀ (s : State) (i : Fin 256), (s.tt.entries[i].any fun e => e.kind = .reserve && e.todo.head?.any fun g =>
      due s.time.ct g.1) = false → ∃ t, exec (.reserveGrant i) s = .next t ∧ t = s)

/-- QUALIFY leaves for PHASE with the input inside its window; outside it, or in another state, it stays. PHASE leaves
for INRUSH, with its counts at 0, with a latched slot and frame lock, or after PH_TO without frame lock where the sealed
set allows it, which is kept as NOCAD; else it stays. PH_TO in PHASE with a latched slot begins INRUSH where frame lock
or NOCAD_GO allows, and else is only kept; in another state it does nothing. INRUSH leaves for SETTLE once the output is
within PG_DV of the input, and its bookings are cancelled; before, it stays. SETTLE leaves for ON, with BP_PGOOD high,
once the output and the gate are up; before, it stays. FAULT_WAIT leaves for QUALIFY with its long time, and no other
state does; FEED_LOST leaves for QUALIFY with its short time when the feed is inside the window again, and a removal ends
above UV_R; a removal ends so in every state. 60 s in ON clear the retry count, in no other state. A fall of SAG_DV in
INRUSH suspends segments, a smaller one, or another state, does not, and SAG_CLEAR resumes them. In SETTLE and ON the
breaker regulates at CB_V or more and no lower, and in no other state. Where the manual leaves a point open this rests on
the model's own reading: log entries 132, 155. -/
def Obligations.HotSwapStates : Prop :=
  (∀ (s : State) (vin : Nat), s.hs.st = .qualify → s.sup.hvUp = true → s.vinInside vin = true → ∃ t,
      exec (.qualifyTime vin) s = .next t ∧ t.hs.st = .phase ∧ t.hs.phTo = false ∧ t.hs.retry = s.hs.retry ∧ t.port =
      s.port ∧ t.core = s.core) ∧
  (∀ (s : State) (vin : Nat), s.hs.st ≠ .qualify ∨ s.sup.hvUp = false ∨ s.vinInside vin = false → ∃ t,
      exec (.qualifyTime vin) s = .next t ∧ t = s.seeVin vin ∧ t.hs.st = s.hs.st) ∧
  (∀ (s : State), s.hs.st = .phase → s.sup.slotId ≠ none → s.time.frameLock = true → ∃ t, exec (.phaseExit) s = .next t ∧
      t.hs.st = .inrush ∧ t.hs.segCnt = 0 ∧ t.hs.halved = 0 ∧ t.hs.nocad = s.hs.nocad ∧ t.hs.inrTo = true ∧ t.port =
      s.port ∧ t.core = s.core) ∧
  (∀ (s : State), s.hs.st = .phase → s.sup.slotId ≠ none → s.time.frameLock = false → s.hs.phTo = true → s.nocadGo =
      true → ∃ t, exec (.phaseExit) s = .next t ∧ t.hs.st = .inrush ∧ t.hs.nocad = true ∧ t.port = s.port ∧ t.core =
      s.core) ∧
  (∀ (s : State), s.hs.st ≠ .phase ∨ s.sup.slotId = none ∨ (s.time.frameLock = false ∧ (s.hs.phTo = false ∨ s.nocadGo =
      false)) → ∃ t, exec (.phaseExit) s = .next t ∧ t = s) ∧
  (∀ (s : State), s.hs.st = .phase → s.sup.slotId ≠ none → s.time.frameLock = true ∨ s.nocadGo = true → ∃ t,
      exec (.phTo) s = .next t ∧ t.hs.st = .inrush ∧ t.hs.nocad = (s.hs.nocad || !s.time.frameLock) ∧ t.port = s.port ∧
      t.core = s.core) ∧
  (∀ (s : State), s.hs.st = .phase → s.sup.slotId = none ∨ (s.time.frameLock = false ∧ s.nocadGo = false) → ∃ t,
      exec (.phTo) s = .next t ∧ t = { s with hs := { s.hs with phTo := true } }) ∧
  (∀ (s : State), s.hs.st ≠ .phase → ∃ t, exec (.phTo) s = .next t ∧ t = s) ∧
  (∀ (s : State) (vin vout : Nat), s.hs.st = .inrush → vin < vout + s.pgDv → ∃ t, exec (.inrushDone vin vout) s =
      .next t ∧ t.hs.st = .settle ∧ t.hs.regulating = false ∧ t.hs.suspended = false ∧ t.hs.halved = 0 ∧ (∀ i : Fin 256,
      (t.tt.entries[i].any fun e => e.owner = ownHs) = false) ∧ t.port = s.port ∧ t.core = s.core) ∧
  (∀ (s : State) (vin vout : Nat), s.hs.st ≠ .inrush ∨ vout + s.pgDv ≤ vin → ∃ t, exec (.inrushDone vin vout) s =
      .next t ∧ t = s) ∧
  (∀ (s : State) (vin vout gate : Nat), s.hs.st = .settle → vin < vout + s.pgDv → vout + 8000 ≤ gate → ∃ t,
      exec (.pgQ vin vout gate) s = .next t ∧ t.hs.st = .on ∧ t.pgood = true ∧ t.hs.cause = s.hs.cause ∧ t.port =
      s.port ∧ t.core = s.core) ∧
  (∀ (s : State) (vin vout gate : Nat), s.hs.st ≠ .settle ∨ vout + s.pgDv ≤ vin ∨ gate < vout + 8000 → ∃ t,
      exec (.pgQ vin vout gate) s = .next t ∧ t = s) ∧
  (∀ (s : State), s.hs.st = .faultWait → ∃ t, exec (.retryTExpiry) s = .next t ∧ t.hs.st = .qualify ∧ t.hs.long = true ∧
      t.hs.retry = s.hs.retry ∧ t.port = s.port ∧ t.core = s.core) ∧
  (∀ (s : State), s.hs.st ≠ .faultWait → ∃ t, exec (.retryTExpiry) s = .next t ∧ t = s) ∧
  (∀ (s : State) (vin : Nat), s.hs.st = .feedLost → s.vinInside vin = true → ∃ t, exec (.feedReturn vin) s = .next t ∧
      t.hs.st = .qualify ∧ t.hs.long = false ∧ t.hs.retry = s.hs.retry ∧ t.hs.removal =
      (s.hs.removal && decide (vin ≤ s.uvR)) ∧ t.port = s.port ∧ t.core = s.core) ∧
  (∀ (s : State) (vin : Nat), s.hs.st ≠ .feedLost ∨ s.vinInside vin = false → ∃ t, exec (.feedReturn vin) s = .next t ∧
      t.hs.st = s.hs.st ∧ t.hs.removal = (s.hs.removal && decide (vin ≤ s.uvR)) ∧ t.port = s.port ∧ t.core = s.core) ∧
  (∀ (s : State), s.hs.st = .on → ∃ t, exec (.retryCntClear) s = .next t ∧ t =
      { s with hs := { s.hs with retry := 0 } }) ∧
  (∀ (s : State), s.hs.st ≠ .on → ∃ t, exec (.retryCntClear) s = .next t ∧ t = s) ∧
  (∀ (s : State) (fall : Nat), s.hs.st = .inrush → s.sagDv ≤ fall → ∃ t, exec (.sagSuspend fall) s = .next t ∧ t =
      { s with hs := { s.hs with suspended := true } }) ∧
  (∀ (s : State) (fall : Nat), s.hs.st ≠ .inrush ∨ fall < s.sagDv → ∃ t, exec (.sagSuspend fall) s = .next t ∧ t = s) ∧
  (∀ (s : State), ∃ t, exec (.sagClear) s = .next t ∧ t = { s with hs := { s.hs with suspended := false } }) ∧
  (∀ (s : State) (v : Int), s.hs.st = .settle ∨ s.hs.st = .on → ∃ t, exec (.breakerRegulation v) s = .next t ∧ t =
      { s with hs := { s.hs with regulating := decide (s.cbV ≤ v) } }) ∧
  (∀ (s : State) (v : Int), s.hs.st ≠ .settle → s.hs.st ≠ .on → ∃ t, exec (.breakerRegulation v) s = .next t ∧ t = s)

/-- A fast trip with the path closed opens it: the cause is kept, the retry count goes up by one, the block's bookings
are cancelled, the state is FAULT_WAIT, or LATCHED where the count reaches RETRY_MAX, and from ON WARN_N is asserted
unless it latches. Below FT_V, or with the path open, there is none. A breaker fault, after FLT_T of regulation, (without
regulation there is none), INR_TO in INRUSH (in no other state) and the third reverse trip within 1 s do the same; one
before it is kept and enters FEED_LOST with neither cause nor count. Above −RC_V, or with the path open, there is none.
The input below UV_F or above OV with the path closed enters FEED_LOST, with WARN_N from ON, and below UV_F a removal
begins, which begins in every state. HOLD_T of a removal is a new insertion: the Station is reset, and the fuse words
with what their reads gave, the SERVICE level, the image banks, the User region, the sequencer's inputs and the waiting
commands stay. With no removal it does nothing. -/
def Obligations.HotSwapFaults : Prop :=
  (∀ (s : State) (v : Int), s.hs.st.closedPath = true → s.ftV ≤ v → ∃ t, exec (.bpFastTrip v) s = .next t ∧ t.hs.cause =
      .fast ∧ t.hs.retry = min 15 (s.hs.retry + 1) ∧ t.hs.st = (if s.retryMax ≠ 0 ∧ min 15 (s.hs.retry + 1) =
      s.retryMax then .latched else .faultWait) ∧ t.hs.inrTo = false ∧ (s.hs.st = .on → t.hs.warn = true ∨ t.hs.st =
      .latched) ∧ (∀ i : Fin 256, (t.tt.entries[i].any fun e => e.owner = ownHs) = false)) ∧
  (∀ (s : State) (v : Int), v < s.ftV ∨ s.hsFrom.1.closedPath = false → ∃ t, exec (.bpFastTrip v) s = .next t ∧ t = s) ∧
  (∀ (s : State) (v : Int), s.hs.st = .settle ∨ s.hs.st = .on → s.hs.regulating = true → s.cbV ≤ v → ∃ t,
      exec (.breakerFault v) s = .next t ∧ t.hs.cause = .breaker ∧ t.hs.retry = min 15 (s.hs.retry + 1) ∧ t.hs.st =
      (if s.retryMax ≠ 0 ∧ min 15 (s.hs.retry + 1) = s.retryMax then .latched else .faultWait) ∧ t.hs.inrTo = false ∧
      (s.hs.st = .on → t.hs.warn = true ∨ t.hs.st = .latched) ∧ (∀ i : Fin 256, (t.tt.entries[i].any fun e => e.owner =
      ownHs) = false)) ∧
  (∀ (s : State) (v : Int), v < s.cbV ∨ s.hsFrom.2 = false ∨ (s.hsFrom.1 ≠ .settle ∧ s.hsFrom.1 ≠ .on) → ∃ t,
      exec (.breakerFault v) s = .next t ∧ t = s) ∧
  (∀ (s : State), s.hs.st = .inrush → ∃ t, exec (.inrTo) s = .next t ∧ t.hs.cause = .inrushTime ∧ t.hs.retry =
      min 15 (s.hs.retry + 1) ∧ t.hs.st = (if s.retryMax ≠ 0 ∧ min 15 (s.hs.retry + 1) =
      s.retryMax then .latched else .faultWait) ∧ t.hs.inrTo = false ∧ (s.hs.st = .on → t.hs.warn = true ∨ t.hs.st =
      .latched) ∧ (∀ i : Fin 256, (t.tt.entries[i].any fun e => e.owner = ownHs) = false)) ∧
  (∀ (s : State), s.hsFrom.1 ≠ .inrush → ∃ t, exec (.inrTo) s = .next t ∧ t = s) ∧
  (∀ (s : State) (v : Int), s.hs.st.closedPath = true → v < -s.rcV → 2 ≤ (s.hs.revTrips.filter fun x =>
      (s.time.ct - x).toNat < 2048000).length → ∃ t, exec (.bpReverseTrip v) s = .next t ∧ t.hs.cause = .reverse ∧
      t.hs.retry = min 15 (s.hs.retry + 1) ∧ t.hs.st = (if s.retryMax ≠ 0 ∧ min 15 (s.hs.retry + 1) =
      s.retryMax then .latched else .faultWait) ∧ t.hs.inrTo = false ∧ (s.hs.st = .on → t.hs.warn = true ∨ t.hs.st =
      .latched) ∧ (∀ i : Fin 256, (t.tt.entries[i].any fun e => e.owner = ownHs) = false) ∧ t.hs.revTrips = []) ∧
  (∀ (s : State) (v : Int), s.hs.st.closedPath = true → v < -s.rcV → (s.hs.revTrips.filter fun x =>
      (s.time.ct - x).toNat < 2048000).length < 2 → ∃ t, exec (.bpReverseTrip v) s = .next t ∧ t.hs.st = .feedLost ∧
      t.hs.retry = s.hs.retry ∧ t.hs.cause = s.hs.cause ∧ t.hs.revTrips = s.time.ct :: (s.hs.revTrips.filter fun x =>
      (s.time.ct - x).toNat < 2048000) ∧ (s.hs.st = .on → t.hs.warn = true)) ∧
  (∀ (s : State) (v : Int), -s.rcV ≤ v ∨ s.hsFrom.1.closedPath = false → ∃ t, exec (.bpReverseTrip v) s = .next t ∧ t =
      s) ∧
  (∀ (s : State) (vin : Nat), s.hs.st.closedPath = true → vin < s.uvF ∨ s.ovV < vin → ∃ t, exec (.feedLost vin) s =
      .next t ∧ t.hs.st = .feedLost ∧ t.hs.retry = s.hs.retry ∧ t.hs.cause = s.hs.cause ∧ t.hs.removal =
      (s.hs.removal || decide (vin < s.uvF)) ∧ (s.hs.st = .on → t.hs.warn = true)) ∧
  (∀ (s : State) (vin : Nat), s.hs.st.closedPath = false ∨ (s.uvF ≤ vin ∧ vin ≤ s.ovV) → ∃ t, exec (.feedLost vin) s =
      .next t ∧ t.hs.st = s.hs.st ∧ t.hs.removal = (s.hs.removal || decide (vin < s.uvF)) ∧ t.hs.retry = s.hs.retry ∧
      t.port = s.port ∧ t.core = s.core) ∧
  (∀ (s : State), s.hs.st = .feedLost ∨ s.hs.removal = true → ∃ t, exec (.holdTExpiry) s = .next t ∧ t.fuse = s.fuse ∧
      t.pending = s.pending ∧ t.sup =
      { Supplies.reset with servicePin := s.sup.servicePin, hvUp := s.sup.hvUp, hvUncorr := s.sup.hvUncorr, hvMargin := s.sup.hvMargin } ∧
      t.hs.retry = 0 ∧ t.hs.st = (if s.sup.hvUncorr || !s.hsSetOk then .lockout else .qualify) ∧ t.health.insertions =
      1 ∧ t.inbox = [] ∧ t.waiting = [] ∧ t.active = [] ∧ (∀ n : PortId, t.port[n] = State.reset.port[n]) ∧
      (∀ c : CoreId, t.core[c].up = false) ∧ (∀ x : RailId, t.sq.rails[x].pg = s.sq.rails[x].pg ∧ t.sq.rails[x].en =
      false) ∧ t.bankA = s.bankA ∧ t.bankB = s.bankB ∧ t.store.user = s.store.user) ∧
  (∀ (s : State), s.hs.st ≠ .feedLost → s.hs.removal = false → ∃ t, exec (.holdTExpiry) s = .next t ∧ t = s)

/-- In ON an input below WARN asserts WARN_N with its cause and counts it: every unfired rise of the Timetable is
cancelled, a commit and every write of the User region end, the page in progress going on, every image verification ends,
and Primer stops; a fall of SAG_DV does the same with its own cause. In another state, with WARN_N asserted, or short of
the level or fall, nothing happens. In ON an input 1 V above WARN, with SAG_CLEAR, releases WARN_N and clears its causes,
and a stopped Primer goes on; short of any of these nothing happens. A granted segment fires at its tick in INRUSH and is
counted; while segments are suspended, or the charge pump is not up, its action is spent and no segment is driven; a
segment the block places itself is driven a quarter into its window, once in a frame, where no grant stands in the
window; and in no other case is there a segment. A booking request in INRUSH, with fewer than two of the block's bookings
standing, books its segments; refused for the budget at an eighth of the current it places all segments itself, at the
full current, with DERATE; refused for it before, it is made again with half of the current, or half again; in another
state, while the block places its segments itself, and with two bookings standing, none is made. HISTORY_COPY, with core
SB running and the link alive, empties both histories into events; else they stay. Where the manual leaves a point open
this rests on the model's own reading: log entry 73. -/
def Obligations.WarningAndSegments : Prop :=
  (∀ (s : State) (vin : Nat), s.hs.st = .on → s.hs.warn = false → vin < s.warnLvl → ∃ t,
      exec (.warnNAssert (.level vin)) s = .next t ∧ t.hs.warn = true ∧ t.hs.wLevel = true ∧ t.hs.wSag = false ∧
      t.hs.st = .on ∧ t.health.warns = sat32 (s.health.warns + 1) ∧ (s.store.recallDue = false → t.store.commit = none) ∧
      (∀ r ∈ t.store.queue, s.store.recallDue = false → s.store.saving.isSome → r.job ≠ .commit ∧ r.job ≠ .user) ∧
      t.store.prog.map PageReq.page = s.store.prog.map PageReq.page ∧ (∀ i : Fin 256, (t.tt.entries[i].any fun e =>
      e.owner ≠ ownHs && e.rises) = false) ∧ t.sup.primer =
      (match s.sup.primer with | .running w b => .stopped w b | p => p) ∧ t.verify = [] ∧ t.claim = s.claim ∧ t.core =
      s.core) ∧
  (∀ (s : State) (fall : Nat), s.hs.st = .on → s.hs.warn = false → s.sagDv ≤ fall → ∃ t,
      exec (.warnNAssert (.sag fall)) s = .next t ∧ t.hs.warn = true ∧ t.hs.wLevel = false ∧ t.hs.wSag = true ∧ t.hs.st =
      .on ∧ t.health.warns = sat32 (s.health.warns + 1) ∧ (s.store.recallDue = false → t.store.commit = none) ∧
      (∀ r ∈ t.store.queue, s.store.recallDue = false → s.store.saving.isSome → r.job ≠ .commit ∧ r.job ≠ .user) ∧
      t.store.prog.map PageReq.page = s.store.prog.map PageReq.page ∧ (∀ i : Fin 256, (t.tt.entries[i].any fun e =>
      e.owner ≠ ownHs && e.rises) = false) ∧ t.sup.primer =
      (match s.sup.primer with | .running w b => .stopped w b | p => p) ∧ t.verify = [] ∧ t.claim = s.claim ∧ t.core =
      s.core) ∧
  (∀ (s : State) (c : WarnCause), s.hs.st ≠ .on ∨ s.hs.warn = true ∨
      (match c with | .level vin => s.warnLvl ≤ vin | .sag fall => fall < s.sagDv) → ∃ t, exec (.warnNAssert c) s =
      .next t ∧ t = s) ∧
  (∀ (s : State) (vin : Nat), s.hs.warn = true → s.hs.st = .on → s.warnLvl + 1000 ≤ vin → ∃ t,
      exec (.warnNRelease vin true) s = .next t ∧ t.hs.warn = false ∧ t.hs.wLevel = false ∧ t.hs.wSag = false ∧ t.hs.st =
      .on ∧ t.claim = s.claim ∧ t.core = s.core ∧ t.sup.primer =
      (match s.sup.primer with | .stopped w b => if s.sup.logicUp then .running w b else .stopped w b | p => p)) ∧
  (∀ (s : State) (vin : Nat) (b : Bool), s.hs.warn = false ∨ s.hs.st ≠ .on ∨ b = false ∨ vin < s.warnLvl + 1000 → ∃ t,
      exec (.warnNRelease vin b) s = .next t ∧ t = s) ∧
  (∀ (s : State) (i : Fin 256), s.hs.st = .inrush → s.dueEntry ownHs .inrush = some i → s.hs.suspended = false →
      s.sup.vcpOk = true → ∃ t, exec (.inrushSegment) s = .next t ∧ t.tt = (s.fireEntry i).tt ∧ t.hs.segCnt =
      min 0xFFF (s.hs.segCnt + 1) ∧ t.hs.lastSeg = some (s.time.ct.toNat / 2048) ∧ t.hs.st = .inrush ∧ t.port = s.port) ∧
  (∀ (s : State) (i : Fin 256), s.hs.st = .inrush → s.dueEntry ownHs .inrush = some i → s.hs.suspended = true ∨
      s.sup.vcpOk = false → ∃ t, exec (.inrushSegment) s = .next t ∧ t.tt = (s.fireEntry i).tt ∧ t.hs = s.hs ∧ t.port =
      s.port) ∧
  (∀ (s : State), s.hs.st = .inrush → s.dueEntry ownHs .inrush = none → s.selfPlacing = true → s.hs.suspended = false →
      s.sup.vcpOk = true → s.time.ct.toNat % 2048 = s.selfStart + s.selfLen / 4 → s.windowTaken = false → s.hs.lastSeg ≠
      some (s.time.ct.toNat / 2048) → ∃ t, exec (.inrushSegment) s = .next t ∧ t.tt = s.tt ∧ t.hs.segCnt =
      min 0xFFF (s.hs.segCnt + 1) ∧ t.hs.lastSeg = some (s.time.ct.toNat / 2048) ∧ t.hs.selfNext = false ∧ t.port =
      s.port) ∧
  (∀ (s : State), s.hs.st ≠ .inrush ∨ (s.dueEntry ownHs .inrush = none ∧ (s.selfPlacing = false ∨ s.hs.suspended = true ∨
      s.sup.vcpOk = false ∨ s.windowTaken = true ∨ s.hs.lastSeg = some (s.time.ct.toNat / 2048) ∨
      s.time.ct.toNat % 2048 ≠ s.selfStart + s.selfLen / 4)) → ∃ t, exec (.inrushSegment) s = .next t ∧ t = s) ∧
  (∀ (s : State), s.hs.st = .inrush → s.selfPlacing = false → (s.tt.pick fun e => e.owner = ownHs).length < 2 →
      (s.hsBook (kHs s.hsUnits)).2.ok = true → ∃ t, exec (.hsBookingRequest) s = .next t ∧ t =
      (s.hsBook (kHs s.hsUnits)).1) ∧
  (∀ (s : State), s.hs.st = .inrush → s.selfPlacing = false → (s.tt.pick fun e => e.owner = ownHs).length < 2 →
      (s.hsBook (kHs s.hsUnits)).2 = .refused stBudgetRefused → s.hs.halved = 3 → ∃ t, exec (.hsBookingRequest) s =
      .next t ∧ t.hs.derate = true ∧ t.hs.selfAll = true ∧ t.hs.halved = 0 ∧ t.hs.st = .inrush ∧ t.tt = s.tt ∧ t.port =
      s.port) ∧
  (∀ (s : State), s.hs.st = .inrush → s.selfPlacing = false → (s.tt.pick fun e => e.owner = ownHs).length < 2 →
      (s.hsBook (kHs s.hsUnits)).2 = .refused stBudgetRefused → s.hs.halved < 3 → ∃ t, exec (.hsBookingRequest) s =
      .next t ∧ s.hs.halved < t.hs.halved ∨ t.hs.derate = true) ∧
  (∀ (s : State), s.hs.st ≠ .inrush ∨ s.selfPlacing = true ∨ 2 ≤ (s.tt.pick fun e => e.owner = ownHs).length → ∃ t,
      exec (.hsBookingRequest) s = .next t ∧ t = s) ∧
  (∀ (s : State), s.sbUp = true → s.sup.linkSilent = false → ∃ t, exec (.historyCopy) s = .next t ∧ t.hs.hist = [] ∧
      t.sq.hist = [] ∧ t.hs.st = s.hs.st ∧ t.sq.st = s.sq.st ∧ t.port = s.port) ∧
  (∀ (s : State), s.sbUp = false ∨ s.sup.linkSilent = true → ∃ t, exec (.historyCopy) s = .next t ∧ t = s)

/-- With BP_PGOOD high SQ_START leaves IDLE for WAIT_CIN with a sealed set that passes its checks, and for LOCK, with
BP_PGOOD at either level, with one that does not; else nothing happens. An allowed start enters RAISE, and the rails of
the first step in use wait for their enable; with BP_PGOOD low, or where none is allowed, there is none. A waiting rail
is enabled, where the set asks for it at its window start, and one that is good before is noted as prebiased; one that
does not wait, or is not at its window, is not. A rail that stays good is qualified, and the step goes on while another
rail of it is not; the last of a step begins the next step in use, and that of the last step enters RUN, with SQ_COUT
high in a role that has it. A rail not enabled, not good or already qualified, or another state: nothing. SQ_CIN high for
16 µs qualifies it; the delay of RETRY_WAIT ends in that state, in no other; the restart time of a host's shutdown ends
in DOWN, never where it is 0; 60 s in RUN clear AO_CNT, in no other state. Where the manual leaves a point open this
rests on the model's own reading: log entries 12, 27, 133, 134, 135. -/
def Obligations.SequencerStart : Prop :=
  (∀ (s : State), s.sq.st = .idle → s.sup.hvUp = true → s.sqSetOk = true → s.hs.st = .on → ∃ t, exec (.sqStart) s =
      .next t ∧ t.sq.st = .waitCin ∧ t.sq.faultDriven = false ∧ t.sq.rails = s.sq.rails ∧ t.port = s.port ∧ t.core =
      s.core) ∧
  (∀ (s : State), s.sq.st = .idle → s.sup.hvUp = true → s.sqSetOk = false → ∃ t, exec (.sqStart) s = .next t ∧ t.sq.st =
      .lock ∧ t.sq.faultDriven = false ∧ t.sq.rails = s.sq.rails ∧ t.port = s.port ∧ t.core = s.core) ∧
  (∀ (s : State), s.sq.st ≠ .idle ∨ s.sup.hvUp = false ∨ (s.sqSetOk = true ∧ s.pgood = false) → ∃ t, exec (.sqStart) s =
      .next t ∧ t = s) ∧
  (∀ (s : State) (k : Nat), s.pgood = true → s.startAllowed = true → s.nextStep 0 = some k → ∃ t, exec (.sqRaise) s =
      .next t ∧ t.sq.st = .raise ∧ t.sq.stepNow = k ∧ (∀ x : RailId, t.sq.rails[x].waiting =
      (s.sq.rails[x].waiting || (s.used x && decide (s.stepOf x = k)))) ∧ (∀ x : RailId, t.sq.rails[x].en =
      s.sq.rails[x].en) ∧ t.sq.aoCnt = s.sq.aoCnt ∧ t.port = s.port ∧ t.core = s.core) ∧
  (∀ (s : State), s.pgood = false ∨ s.startAllowed = false → ∃ t, exec (.sqRaise) s = .next t ∧ t = s) ∧
  (∀ (s : State) (x : RailId), s.sq.st = .raise → s.sq.rails[x].waiting = true → (s.sqWin = true → s.atWindowStart x =
      true) → ∃ t, exec (.sqEnableRise x) s = .next t ∧ t.sq.rails[x].en = true ∧ t.sq.rails[x].waiting = false ∧
      t.sq.rails[x].upTo = true ∧ t.sq.rails[x].qualified = false ∧ t.sq.rails[x].prebias =
      (s.sq.rails[x].prebias || s.sq.rails[x].pg) ∧ (∀ y : RailId, y ≠ x → t.sq.rails[y] = s.sq.rails[y]) ∧ t.sq.st =
      .raise ∧ t.port = s.port ∧ t.core = s.core) ∧
  (∀ (s : State) (x : RailId), s.sq.st ≠ .raise ∨ s.sq.rails[x].waiting = false ∨ (s.sqWin = true ∧ s.atWindowStart x =
      false) → ∃ t, exec (.sqEnableRise x) s = .next t ∧ t = s) ∧
  (∀ (s : State) (x y : RailId), s.sq.st = .raise → s.pgood = true → s.used x = true → s.sq.rails[x].en = true →
      s.sq.rails[x].pg = true → s.sq.rails[x].qualified = false → s.used y = true → s.stepOf y = s.sq.stepNow →
      s.sq.rails[y].qualified = false → x ≠ y → ∃ t, exec (.railQualify x) s = .next t ∧ t.sq.rails[x].qualified = true ∧
      t.sq.rails[y].qualified = false ∧ t.sq.stepNow = s.sq.stepNow ∧ t.sq.st = .raise ∧ t.port = s.port ∧ t.core =
      s.core) ∧
  (∀ (s : State) (x : RailId) (k : Nat), s.sq.st = .raise → s.pgood = true → s.used x = true → s.sq.rails[x].en = true →
      s.sq.rails[x].pg = true → s.sq.rails[x].qualified = false → s.stepOf x = s.sq.stepNow → ((∀ y : RailId, s.used y =
      true → s.stepOf y = s.sq.stepNow → y = x ∨ s.sq.rails[y].qualified = true)) → s.nextStep (s.sq.stepNow + 1) =
      some k → ∃ t, exec (.railQualify x) s = .next t ∧ t.sq.rails[x].qualified = true ∧ t.sq.stepNow = k ∧ t.sq.st =
      .raise ∧ (∀ y : RailId, s.used y = true → s.stepOf y = k → t.sq.rails[y].waiting = true) ∧ t.port = s.port ∧
      t.core = s.core) ∧
  (∀ (s : State) (x : RailId), s.sq.st = .raise → s.pgood = true → s.used x = true → s.sq.rails[x].en = true →
      s.sq.rails[x].pg = true → s.sq.rails[x].qualified = false → ((∀ y : RailId, s.used y = true → s.stepOf y =
      s.sq.stepNow → y = x ∨ s.sq.rails[y].qualified = true)) → s.nextStep (s.sq.stepNow + 1) = none → ∃ t,
      exec (.railQualify x) s = .next t ∧ t.sq.rails[x].qualified = true ∧ t.sq.st = .run ∧ t.sqCout = s.usesCout ∧
      t.port = s.port ∧ t.core = s.core) ∧
  (∀ (s : State) (x : RailId), s.sq.st ≠ .raise ∨ s.used x = false ∨ s.sq.rails[x].en = false ∨ s.sq.rails[x].pg =
      false ∨ s.sq.rails[x].qualified = true → ∃ t, exec (.railQualify x) s = .next t ∧ t = s) ∧
  (∀ (s : State), ∃ t, exec (.sqCinRise) s = .next t ∧ t = { s with sq := { s.sq with cin := true, cinQual := true } }) ∧
  (∀ (s : State), s.sq.st = .retryWait → ∃ t, exec (.aoDelayExpiry) s = .next t ∧ t =
      { s with sq := { s.sq with aoDelay := true } }) ∧
  (∀ (s : State), s.sq.st ≠ .retryWait → ∃ t, exec (.aoDelayExpiry) s = .next t ∧ t = s) ∧
  (∀ (s : State), s.sq.st = .down → s.sq.cause = .host → s.sq.restart ≠ 0 → ∃ t, exec (.downRestart) s = .next t ∧ t =
      { s with sq := { s.sq with restartUp := true } }) ∧
  (∀ (s : State), s.sq.st ≠ .down ∨ s.sq.cause ≠ .host ∨ s.sq.restart = 0 → ∃ t, exec (.downRestart) s = .next t ∧ t =
      s) ∧
  (∀ (s : State), s.sq.st = .run → ∃ t, exec (.aoCntClear) s = .next t ∧ t = { s with sq := { s.sq with aoCnt := 0 } }) ∧
  (∀ (s : State), s.sq.st ≠ .run → ∃ t, exec (.aoCntClear) s = .next t ∧ t = s)

/-- In RAISE, RUN and SHUTDOWN BP_PGOOD low is an all-off with cause FEED: every rail enable falls, SQ_FAULT_N is driven
and disarmed, the all-off is counted, every port's Type-C block is disabled and out of hold-over with its Front end off,
the next start is cold, and every Sketch slot is emptied; in another state, or with BP_PGOOD high, there is none. An
armed peer fault is one with cause PEER, an unarmed one is ignored; the fault of a running rail (of no other) and the
loss of a qualified rail's good level are one with cause RAIL and that rail; with BP_PGOOD low as well the cause is FEED.
A level that becomes good is kept; a fall in SHUTDOWN before the rail's enable falls is recorded as DOWN_FAIL, and any
other fall is only kept. The pulse of SQ_FAULT_N ends (in IDLE the pin stays driven) and the pin, high again, is armed,
not while the device drives it. -/
def Obligations.SequencerAllOff : Prop :=
  (∀ (s : State), s.sq.st.live = true → s.pgood = false → ∃ t, exec (.sqFeedAlloff) s = .next t ∧ t.sq.cause = .feed ∧
      t.sq.faultRail = 0xF ∧ t.sq.faultDriven = true ∧ t.sq.armed = false ∧ t.health.alloffs =
      sat32 (s.health.alloffs + 1) ∧ t.sup.runFlag = false ∧ t.sketches = [] ∧ (∀ x : RailId, t.sq.rails[x].en = false) ∧
      (∀ n : PortId, t.port[n].tc.st = .disabled ∧ t.port[n].hold = false ∧ t.port[n].pp.cen = false) ∧ ∀ k : PlatId,
      t.plat[k].slots = Vector.replicate 8 none) ∧
  (∀ (s : State), s.sq.st.live = false ∨ s.pgood = true → ∃ t, exec (.sqFeedAlloff) s = .next t ∧ t = s) ∧
  (∀ (s : State), s.sq.st.live = true → s.sq.armed = true → s.pgood = true → ∃ t, exec (.sqPeerAlloff) s = .next t ∧
      t.sq.cause = .peer ∧ t.sq.faultRail = 0xF ∧ t.sq.faultDriven = true ∧ t.sq.armed = false ∧ t.health.alloffs =
      sat32 (s.health.alloffs + 1) ∧ t.sup.runFlag = false ∧ t.sketches = [] ∧ (∀ x : RailId, t.sq.rails[x].en = false) ∧
      (∀ n : PortId, t.port[n].tc.st = .disabled ∧ t.port[n].hold = false ∧ t.port[n].pp.cen = false) ∧ ∀ k : PlatId,
      t.plat[k].slots = Vector.replicate 8 none) ∧
  (∀ (s : State), s.sq.st.live = false ∨ s.sq.armed = false → ∃ t, exec (.sqPeerAlloff) s = .next t ∧ t = s) ∧
  (∀ (s : State) (x : RailId), s.sq.st = .raise ∨ s.sq.st = .run → s.pgood = true → s.used x = true → s.sq.rails[x].en =
      true → s.sq.rails[x].qualified = true → ∃ t, exec (.sqRailFault x) s = .next t ∧ t.sq.cause = .rail ∧
      t.sq.faultRail = x.val ∧ t.sq.faultDriven = true ∧ t.sq.armed = false ∧ t.health.alloffs =
      sat32 (s.health.alloffs + 1) ∧ t.sup.runFlag = false ∧ t.sketches = [] ∧ (∀ x : RailId, t.sq.rails[x].en = false) ∧
      (∀ n : PortId, t.port[n].tc.st = .disabled ∧ t.port[n].hold = false ∧ t.port[n].pp.cen = false) ∧ ∀ k : PlatId,
      t.plat[k].slots = Vector.replicate 8 none) ∧
  (∀ (s : State) (x : RailId), (s.sq.st ≠ .raise ∧ s.sq.st ≠ .run) ∨ s.used x = false ∨ s.sq.rails[x].en = false ∨
      s.sq.rails[x].qualified = false → ∃ t, exec (.sqRailFault x) s = .next t ∧ t = s) ∧
  (∀ (s : State) (x : RailId), s.sq.st = .raise ∨ s.sq.st = .run → s.pgood = true → s.used x = true → s.sq.rails[x].en =
      true → s.sq.rails[x].qualified = true → ∃ t, exec (.sqPgFilter x false) s = .next t ∧ t.sq.cause = .rail ∧
      t.sq.faultRail = x.val ∧ t.sq.faultDriven = true ∧ t.sq.armed = false ∧ t.health.alloffs =
      sat32 (s.health.alloffs + 1) ∧ t.sup.runFlag = false ∧ t.sketches = [] ∧ (∀ x : RailId, t.sq.rails[x].en = false) ∧
      (∀ n : PortId, t.port[n].tc.st = .disabled ∧ t.port[n].hold = false ∧ t.port[n].pp.cen = false) ∧ ∀ k : PlatId,
      t.plat[k].slots = Vector.replicate 8 none) ∧
  (∀ (s : State) (x : RailId), s.pgood = false → s.sq.st.live = true → s.used x = true → s.sq.rails[x].en = true →
      s.sq.rails[x].qualified = true → s.sq.st ≠ .shutdown → ∃ t, exec (.sqRailFault x) s = .next t ∧ t.sq.cause =
      .feed ∧ t.sq.faultRail = 0xF ∧ t.sq.faultDriven = true ∧ t.sq.armed = false ∧ t.health.alloffs =
      sat32 (s.health.alloffs + 1) ∧ t.sup.runFlag = false ∧ t.sketches = [] ∧ (∀ x : RailId, t.sq.rails[x].en = false) ∧
      (∀ n : PortId, t.port[n].tc.st = .disabled ∧ t.port[n].hold = false ∧ t.port[n].pp.cen = false) ∧ ∀ k : PlatId,
      t.plat[k].slots = Vector.replicate 8 none) ∧
  (∀ (s : State) (x : RailId), ∃ t, exec (.sqPgFilter x true) s = .next t ∧ t.sq.rails[x].pg = true ∧ t.sq.rails[x].en =
      s.sq.rails[x].en ∧ (∀ y : RailId, y ≠ x → t.sq.rails[y] = s.sq.rails[y]) ∧ t.sq.st = s.sq.st ∧ t.port = s.port ∧
      t.core = s.core) ∧
  (∀ (s : State) (x : RailId), s.sq.st = .shutdown → s.pgood = true → s.used x = true → s.sq.rails[x].en = true →
      s.sq.rails[x].pg = true → ∃ t, exec (.sqPgFilter x false) s = .next t ∧ t.sq.rails[x].pg = false ∧
      t.sq.rails[x].downFail = true ∧ t.sq.rails[x].en = true ∧ t.sq.st = .shutdown ∧ t.port = s.port ∧ t.core = s.core) ∧
  (∀ (s : State) (x : RailId), s.used x = false ∨ s.sq.rails[x].en = false ∨ s.sq.st.live = false → ∃ t,
      exec (.sqPgFilter x false) s = .next t ∧ t.sq.rails[x].pg = false ∧ t.sq.rails[x].en = s.sq.rails[x].en ∧
      t.sq.rails[x].downFail = s.sq.rails[x].downFail ∧ t.sq.st = s.sq.st ∧ t.port = s.port ∧ t.core = s.core) ∧
  (∀ (s : State), s.sq.st ≠ .idle → ∃ t, exec (.alloffPulseEnd) s = .next t ∧ t =
      { s with sq := { s.sq with faultDriven := false } }) ∧
  (∀ (s : State), s.sq.st = .idle → ∃ t, exec (.alloffPulseEnd) s = .next t ∧ t = s) ∧
  (∀ (s : State), s.sq.faultDriven = false → ∃ t, exec (.sqFaultNArm) s = .next t ∧ t =
      { s with sq := { s.sq with faultN := true, armed := true } }) ∧
  (∀ (s : State), s.sq.faultDriven = true → ∃ t, exec (.sqFaultNArm) s = .next t ∧ t = s)

/-- A rail that is not good within UP_TO shuts down with cause START and that rail, disables every port's Type-C block,
ends hold-over and clears the run flag; with no such time running nothing happens. The fall of SQ_CIN does so with cause
CASCADE in RAISE and RUN, in a role that uses it; else it is only kept. A host's order does so in RUN with cause HOST;
with none pending nothing happens. An edge of SQ_RETI changes its level (entry 12), and its rise in SHUTDOWN ends the
wait for it; RET_TO ends it too and is recorded, where it runs. A rail whose discharge time ends is recorded as late,
unless it is discharged or no time runs; one low for DGL with its enable low is discharged, and no other. Where the
manual leaves a point open this rests on the model's own reading: log entry 12. -/
def Obligations.SequencerShutdown : Prop :=
  (∀ (s : State) (x : RailId), s.sq.st = .raise → s.pgood = true → s.sq.rails[x].upTo = true → s.sq.rails[x].qualified =
      false → ∃ t, exec (.upToExpiry x) s = .next t ∧ t.sq.cause = .start ∧ t.sq.faultRail = x.val ∧ (t.sq.st =
      .shutdown ∨ t.sq.st = .latched) ∧ t.sup.runFlag = false ∧ t.sq.hostPend = false ∧ (∀ x : RailId,
      t.sq.rails[x].waiting = false) ∧ (∀ n : PortId, t.port[n].tc.st = .disabled ∧ t.port[n].hold = false)) ∧
  (∀ (s : State) (x : RailId), s.sq.rails[x].upTo = false ∨ (s.sq.st ≠ .raise ∧ s.sq.st ≠ .run) → ∃ t,
      exec (.upToExpiry x) s = .next t ∧ t = s) ∧
  (∀ (s : State), s.usesCin = true → s.sq.st = .raise ∨ s.sq.st = .run → s.pgood = true → ∃ t, exec (.sqCinFall) s =
      .next t ∧ t.sq.cause = .cascade ∧ t.sq.faultRail = 0xF ∧ (t.sq.st = .shutdown ∨ t.sq.st = .down) ∧ t.sq.cin =
      false ∧ t.sup.runFlag = false ∧ t.sq.hostPend = false ∧ (∀ x : RailId, t.sq.rails[x].waiting = false) ∧
      (∀ n : PortId, t.port[n].tc.st = .disabled ∧ t.port[n].hold = false)) ∧
  (∀ (s : State), s.usesCin = false ∨ (s.sq.st ≠ .raise ∧ s.sq.st ≠ .run) → ∃ t, exec (.sqCinFall) s = .next t ∧ t =
      { s with sq := { s.sq with cin := false, cinQual := false } }) ∧
  (∀ (s : State), s.sq.st = .run → s.sq.hostPend = true → s.pgood = true → ∃ t, exec (.sqHostShutdown) s = .next t ∧
      t.sq.cause = .host ∧ t.sq.faultRail = 0xF ∧ (t.sq.st = .shutdown ∨ t.sq.st = .down) ∧ t.sup.runFlag = false ∧
      t.sq.hostPend = false ∧ (∀ x : RailId, t.sq.rails[x].waiting = false) ∧ (∀ n : PortId, t.port[n].tc.st =
      .disabled ∧ t.port[n].hold = false)) ∧
  (∀ (s : State), s.sq.st ≠ .run ∨ s.sq.hostPend = false → ∃ t, exec (.sqHostShutdown) s = .next t ∧ t = s) ∧
  (∀ (s : State), s.sq.reti = true ∨ s.sq.st ≠ .shutdown ∨ s.sq.retTo = false → ∃ t, exec (.sqRetiRise) s = .next t ∧ t =
      { s with sq := { s.sq with reti := !s.sq.reti } }) ∧
  (∀ (s : State), s.sq.reti = false → s.sq.st = .shutdown → s.sq.retTo = true → s.pgood = true → ∃ t,
      exec (.sqRetiRise) s = .next t ∧ t.sq.reti = true ∧ t.sq.retTo = false ∧ t.sq.retLate = s.sq.retLate ∧ t.port =
      s.port) ∧
  (∀ (s : State), s.sq.st = .shutdown → s.sq.retTo = true → s.pgood = true → ∃ t, exec (.retToExpiry) s = .next t ∧
      t.sq.retLate = true ∧ t.sq.retTo = false ∧ t.sq.retEnded = true ∧ t.port = s.port) ∧
  (∀ (s : State), s.sq.st ≠ .shutdown ∨ s.sq.retTo = false → ∃ t, exec (.retToExpiry) s = .next t ∧ t = s) ∧
  (∀ (s : State) (x : RailId), s.used x = true → s.sq.rails[x].disTo = true → s.sq.rails[x].discharged = false →
      s.sq.rails[x].en = false → s.sq.st.live = false ∨ s.pgood = true → ∃ t, exec (.disToExpiry x) s = .next t ∧
      t.sq.rails[x].disLate = true ∧ t.sq.rails[x].disEnded = true ∧ t.port = s.port) ∧
  (∀ (s : State) (x : RailId), s.used x = false ∨ s.sq.rails[x].disTo = false ∨ s.sq.rails[x].discharged = true → ∃ t,
      exec (.disToExpiry x) s = .next t ∧ t = s) ∧
  (∀ (s : State) (x : RailId), s.used x = true → s.sq.rails[x].en = false → s.sq.rails[x].pg = false →
      s.sq.rails[x].discharged = false → s.sq.st.live = false ∨ s.pgood = true → ∃ t, exec (.railDischarged x) s =
      .next t ∧ t.sq.rails[x].discharged = true ∧ t.sq.rails[x].en = false ∧ t.port = s.port) ∧
  (∀ (s : State) (x : RailId), s.used x = false ∨ s.sq.rails[x].en = true ∨ s.sq.rails[x].pg = true ∨
      s.sq.rails[x].discharged = true → ∃ t, exec (.railDischarged x) s = .next t ∧ t = s)

/-- In its turn a port that may be opened is: its LFSR is seeded from SLOT_ID and its index, R_est takes its value before
the first calibration, and its converter's SET is booked, or to be booked again; the port is still DISABLED. A port that
may not be opened, or whose turn it is not, is left. The converter's power good opens a starting port: it reads TC_CFG
and enters the Unattached state of its ROLE, or DISABLED where that is 0b11, and of another is kept while its enable is
high. A converter that is not good in time fails its test and the port is DISABLED with its enable low; of a port that
does not start nothing is checked. A comparator threshold that reads back more than 4 codes off, on an open port, sets
CMP_FAIL and fails that test; within 4 codes, or on another port, nothing happens. A reading taken while the comparator
outputs are ignored changes nothing. In UNATT_SRC a pin that reads Rd or Ra enters ATTWAIT_SRC, and in UNATT_SNK one that
reads Rp ATTWAIT_SNK; the debounce begins and the outputs are ignored. The outputs count again 2 µs after a change of
threshold or termination. Where Rd is presented a threshold step at 201, 660 or 1230 mV that the pin exceeds gives the
round its level, and the next threshold follows; the third ends the round, and a level other than the one seen waits to
be taken; elsewhere, and while the engine samples for SinkTxOK, there is no step. A held change of the level is taken,
and in ATT_SNK without a contract PP_PROT follows it; with none waiting nothing happens. A dual-role port leaves
UNATT_SRC at the end of its T_SRC, reading TC_CFG anew; no other does. In TRYWAIT_SRC whose time has ended a loss of Rd
leaves for the Unattached state. In every other state a changed reading is kept and the debounce counts anew. Where the
manual leaves a point open this rests on the model's own reading: log entries 63, 137, 144. -/
def Obligations.OpeningOfPorts : Prop :=
  (∀ (s : State) (n : PortId), s.mayOpen n = true → s.openTurn n = true → ∃ t, exec (.portOpen n) s = .next t ∧
      (t.port[n].tc.opening = .booked ∨ t.port[n].tc.opening = .retry) ∧ t.port[n].tc.lfsr =
      0x8000 ||| BitVec.ofNat 16 (s.slotNum <<< 5) ||| BitVec.ofNat 16 n.val ∧ t.port[n].tc.st = .disabled ∧
      (t.port[n].tc.opening = .booked ↔ ∃ i : Fin 256, t.tt.entries[i] ≠ s.tt.entries[i]) ∧ (s.port[n].pp.rKnown =
      false → t.port[n].pp.rEst = (if s.portU16 n 0x2E = 0 then 2000 else s.portU16 n 0x2E)) ∧ t.claim = s.claim ∧
      t.core = s.core) ∧
  (∀ (s : State) (n : PortId), s.mayOpen n = false ∨ s.openTurn n = false → ∃ t, exec (.portOpen n) s = .next t ∧ t = s) ∧
  (∀ (s : State) (n : PortId) (u : Bool), s.port[n].tc.opening = .starting → s.port[n].pp.cen = true → ∃ t,
      exec (.converterPowerGood n u) s = .next t ∧ t.port[n].tc.st =
      (match roleOf (s.tcCfg n) with | 1 => .unattSrc | 3 => .disabled | _ => .unattSnk) ∧ t.port[n].tc.cfg = s.tcCfg n ∧
      t.port[n].tc.opening = (if roleOf (s.tcCfg n) = 3 then .closed else .opened) ∧ t.port[n].pp.cpg = true ∧
      t.port[n].tc.ccUndet = (s.port[n].tc.ccUndet || u)) ∧
  (∀ (s : State) (n : PortId) (u : Bool), s.port[n].tc.opening ≠ .starting ∨ s.port[n].pp.cen = false → ∃ t,
      exec (.converterPowerGood n u) s = .next t ∧ t = s.modPp n fun p => { p with cpg := p.cen }) ∧
  (∀ (s : State) (n : PortId), s.port[n].tc.opening = .starting → ∃ t, exec (.converterStartCheck n) s = .next t ∧
      t.port[n].ms.tests = s.port[n].ms.tests ||| 2 ∧ t.port[n].tc.st = .disabled ∧ t.port[n].tc.opening = .closed ∧
      t.port[n].pp.cen = false) ∧
  (∀ (s : State) (n : PortId), s.port[n].tc.opening ≠ .starting → ∃ t, exec (.converterStartCheck n) s = .next t ∧ t =
      s) ∧
  (∀ (s : State) (n : PortId) (d : Nat), s.port[n].tc.opening = .opened → 4 < d → ∃ t, exec (.dacReadback n d) s =
      .next t ∧ t.port[n].tc.cmpFail = true ∧ t.port[n].ms.tests = s.port[n].ms.tests ||| 1 ∧ t.port[n].tc.st =
      .disabled ∧ t.port[n].pp.cen = false) ∧
  (∀ (s : State) (n : PortId) (d : Nat), s.port[n].tc.opening ≠ .opened ∨ d ≤ 4 → ∃ t, exec (.dacReadback n d) s =
      .next t ∧ t = s) ∧
  (∀ (s : State) (n : PortId) (a b : Nat), s.port[n].tc.blank = true → ∃ t, exec (.ccDetect n a b) s = .next t ∧ t = s) ∧
  (∀ (s : State) (n : PortId) (a b : Nat), s.port[n].tc.blank = false → s.port[n].tc.st = .unattSrc →
      (s.port[n].tc.readCc a) = .rd ∨ (s.port[n].tc.readCc a) = .ra ∨ (s.port[n].tc.readCc b) = .rd ∨
      (s.port[n].tc.readCc b) = .ra → ∃ t, exec (.ccDetect n a b) s = .next t ∧ t.port[n].tc.st = .attwaitSrc ∧
      t.port[n].tc.blank = true ∧ t.port[n].tc.debDone = false ∧ t.port[n].tc.cc1 = s.port[n].tc.readCc a ∧
      t.port[n].tc.cc2 = s.port[n].tc.readCc b ∧ t.claim = s.claim ∧ t.core = s.core) ∧
  (∀ (s : State) (n : PortId) (a b : Nat), s.port[n].tc.blank = false → s.port[n].tc.st = .unattSnk →
      rpAny (s.port[n].tc.readCc a) (s.port[n].tc.readCc b) = true → ∃ t, exec (.ccDetect n a b) s = .next t ∧
      t.port[n].tc.st = .attwaitSnk ∧ t.port[n].tc.blank = true ∧ t.port[n].tc.debDone = false ∧ t.port[n].tc.cc1 =
      s.port[n].tc.readCc a ∧ t.port[n].tc.cc2 = s.port[n].tc.readCc b ∧ t.claim = s.claim ∧ t.core = s.core) ∧
  (∀ (s : State) (n : PortId), ∃ t, exec (.comparatorBlankEnd n) s = .next t ∧ t = s.modTc n fun c =>
      { c with blank := false }) ∧
  (∀ (s : State) (n : PortId) (mv : Nat), s.port[n].tc.st.sinkPins = true → s.port[n].pd.armed .sinkSample = false →
      s.port[n].tc.sinkStep ≠ 2 → ∃ t, exec (.sinkThresholdStep n mv) s = .next t ∧ t.port[n].tc.sinkStep =
      s.port[n].tc.sinkStep + 1 ∧ t.port[n].tc.blank = true ∧ t.port[n].tc.rpRound = (if s.port[n].tc.blank = false ∧
      sinkThreshold s.port[n].tc.sinkStep < mv then BitVec.ofNat 2 (s.port[n].tc.sinkStep.val + 1) else s.port[n].tc.rpRound) ∧
      t.port[n].tc.rpSeen = s.port[n].tc.rpSeen ∧ t.claim = s.claim ∧ t.core = s.core) ∧
  (∀ (s : State) (n : PortId) (mv : Nat), s.port[n].tc.st.sinkPins = true → s.port[n].pd.armed .sinkSample = false →
      s.port[n].tc.blank = false → s.port[n].tc.sinkStep = 2 → ∃ t, exec (.sinkThresholdStep n mv) s = .next t ∧
      t.port[n].tc.sinkStep = 0 ∧ t.port[n].tc.rpRound = 0 ∧ t.port[n].tc.rpPend =
      (if (if 1230 < mv then 3 else s.port[n].tc.rpRound) =
      s.port[n].tc.rpSeen then none else some (if 1230 < mv then 3 else s.port[n].tc.rpRound))) ∧
  (∀ (s : State) (n : PortId) (mv : Nat), s.port[n].tc.st.sinkPins = false ∨ s.port[n].pd.armed .sinkSample = true → ∃ t,
      exec (.sinkThresholdStep n mv) s = .next t ∧ t = s) ∧
  (∀ (s : State) (n : PortId) (l : BitVec 2), s.port[n].tc.st.sinkPins = true → s.port[n].tc.rpPend = some l → ∃ t,
      exec (.rpLevelChange n) s = .next t ∧ t.port[n].tc.rpSeen = l ∧ t.port[n].tc.rpPend = none ∧ t.port[n].tc.st =
      s.port[n].tc.st ∧ (s.port[n].tc.st = .attSnk → s.port[n].pd.contract = false → t.port[n].ct.imax =
      rpMa (l.toNat - 1) ∧ t.port[n].pp.prot = protFor (rpMa (l.toNat - 1)))) ∧
  (∀ (s : State) (n : PortId), s.port[n].tc.st.sinkPins = false ∨ s.port[n].tc.rpPend = none → ∃ t,
      exec (.rpLevelChange n) s = .next t ∧ t = s) ∧
  (∀ (s : State) (n : PortId), s.port[n].tc.st = .unattSrc → roleOf s.port[n].tc.cfg = 0 → ∃ t, exec (.tSrcEnd n) s =
      .next t ∧ t.port[n].tc.st = (match roleOf (s.tcCfg n) with | 1 => .unattSrc | 3 => .disabled | _ => .unattSnk) ∧
      t.port[n].tc.cfg = s.tcCfg n) ∧
  (∀ (s : State) (n : PortId), s.port[n].tc.st ≠ .unattSrc ∨ roleOf s.port[n].tc.cfg ≠ 0 → ∃ t, exec (.tSrcEnd n) s =
      .next t ∧ t = s) ∧
  (∀ (s : State) (n : PortId) (a b : Nat), s.port[n].tc.blank = false → s.port[n].tc.st = .trywaitSrc →
      s.port[n].tc.tryEnded = true → rdSeen (s.port[n].tc.readCc a) (s.port[n].tc.readCc b) = false → ∃ t,
      exec (.ccDetect n a b) s = .next t ∧ t.port[n].tc.st =
      (match roleOf (s.tcCfg n) with | 1 => .unattSrc | 3 => .disabled | _ => .unattSnk)) ∧
  (∀ (s : State) (n : PortId) (a b : Nat), s.port[n].tc.blank = false → s.port[n].tc.st ≠ .unattSrc → s.port[n].tc.st ≠
      .unattSnk → s.port[n].tc.st ≠ .trywaitSrc → s.port[n].tc.cc1 ≠ (s.port[n].tc.readCc a) ∨ s.port[n].tc.cc2 ≠
      (s.port[n].tc.readCc b) → ∃ t, exec (.ccDetect n a b) s = .next t ∧ t.port[n].tc =
      { s.port[n].tc with cc1 := s.port[n].tc.readCc a, cc2 := s.port[n].tc.readCc b, debDone := false, holdAttach := false } ∧
      t.claim = s.claim ∧ t.core = s.core)

/-- At the end of its debounce ATTWAIT_SRC with Rd on one pin and VBUS at vSafe0V attaches as source, with its
orientation, partner, attach-time roles and Rp, and one more attach counted; with TRY 0b10 it enters TRY_SNK instead.
ATTWAIT_SNK with Rp on one pin and VBUS present attaches as sink, or with TRY 0b01 enters TRY_SRC, with Rp at RP_LEVEL;
while VBUS is above vSafe0V ATTWAIT_SRC waits with the debounce complete. Rd on both pins gives DEBUG_SRC where it is
enabled, Ra on both AUDIO where it is; and any other reading returns it to the Unattached state. In hold-over the port
stays in its state and only notes that an attach is held. In a state that waits for no attach, with the outputs ignored,
neither end of a debounce changes anything. The end of tTryCCDebounce on Rd attaches TRY_SRC and TRYWAIT_SRC as source,
and on Rp with VBUS present TRY_SNK as sink. Both pins open for tPDDebounce end ATTWAIT and TRYWAIT_SNK, and no other
state. The end of tDRPTry turns TRY_SRC that sees no Rd into TRYWAIT_SNK, and TRY_SNK that sees no Rp on one pin into
TRYWAIT_SRC; where the termination is seen the end is kept, and the port leaves once it is gone; TRYWAIT_SRC with no Rd
returns to the Unattached state; where hold-over holds the attach it is only kept. In no other state does it do anything.
tTryTimeout ends TRY_SNK and TRYWAIT_SRC, unless hold-over holds the attach. A source's detach opens the path with
discharge, cancels the port's bookings, ends the contract, VCONN, the roles and the mode, loads the 5 V code and returns
to the Unattached state; in a swap it is seen only where the port presents Rp, and outside one only in a source state. A
sink's loss of VBUS below 3.67 V does the same and leads to UNATT_SNK in every ROLE but 0b11, but not in a swap, in FRS
standby or in a Hard Reset. VBUS that reaches vSafe0V in ATTWAIT_SRC, the debounce complete, attaches as source; in no
other case does it do anything. ERR_RECOV ends after its time, no other state does. A waiting PATH booking is not made in
LOCKOFF, in RETRY or after a fault of VCP, else is made, a source with the 5 V code, and again if it is refused; where
none waits none is made. A source with no PATH grant within 250 ms enters ERR_RECOV, its bookings cancelled; not in RETRY
or LOCKOFF. An overcurrent of VCONN is recorded, the port sources VCONN no longer and not again in this attach, and the
cable reads as absent; a port that does not source it has none. Where the manual leaves a point open this rests on the
model's own reading: log entries 33, 36, 138, 140, 153, 157. -/
def Obligations.AttachAndDetach : Prop :=
  (∀ (s : State) (n : PortId) (a b v : Nat), s.notBack n = false → s.port[n].tc.st = .attwaitSrc →
      rdSeen (s.port[n].tc.readPins a b).1 (s.port[n].tc.readPins a b).2 = true → v ≤ 800 → tryOf s.port[n].tc.cfg ≠ 2 →
      ∃ t, exec (.tccdebounce n a b v) s = .next t ∧ t.port[n].tc.st = .attSrc ∧ t.port[n].tc.orient =
      orientSrc (s.port[n].tc.readPins a b).1 (s.port[n].tc.readPins a b).2 ∧ t.port[n].tc.partner =
      (if (s.port[n].tc.readPins a b).1 = .ra ∨ (s.port[n].tc.readPins a b).2 = .ra then .sinkRa else .sink) ∧
      t.port[n].rs.pr = .source ∧ t.port[n].rs.dr = .dfp ∧ t.port[n].rs.basePr = .source ∧ t.port[n].tc.rpOffer =
      s.port[n].tc.rpLevel ∧ t.port[n].tc.attCnt = s.port[n].tc.attCnt + 1) ∧
  (∀ (s : State) (n : PortId) (a b v : Nat), s.notBack n = false → s.port[n].tc.st = .attwaitSrc →
      rdSeen (s.port[n].tc.readPins a b).1 (s.port[n].tc.readPins a b).2 = true → v ≤ 800 → tryOf s.port[n].tc.cfg = 2 →
      ∃ t, exec (.tccdebounce n a b v) s = .next t ∧ t.port[n].tc.st = .trySnk ∧ t.port[n].tc.orient =
      orientSrc (s.port[n].tc.readPins a b).1 (s.port[n].tc.readPins a b).2 ∧ t.port[n].tc.attCnt = s.port[n].tc.attCnt ∧
      t.port[n].tc.rpOffer = 0 ∧ t.claim = s.claim ∧ t.core = s.core) ∧
  (∀ (s : State) (n : PortId) (a b v : Nat), s.notBack n = false → s.port[n].tc.st = .attwaitSnk →
      rpOne (s.port[n].tc.readPins a b).1 (s.port[n].tc.readPins a b).2 = true → 4000 ≤ v → tryOf s.port[n].tc.cfg ≠ 1 →
      ∃ t, exec (.tccdebounce n a b v) s = .next t ∧ t.port[n].tc.st = .attSnk ∧ t.port[n].tc.orient =
      orientSnk (s.port[n].tc.readPins a b).1 (s.port[n].tc.readPins a b).2 ∧ t.port[n].tc.partner = .source ∧
      t.port[n].rs.pr = .sink ∧ t.port[n].rs.dr = .ufp ∧ t.port[n].pp.sink = true ∧ t.port[n].tc.attCnt =
      s.port[n].tc.attCnt + 1) ∧
  (∀ (s : State) (n : PortId) (a b v : Nat), s.notBack n = false → s.port[n].tc.st = .attwaitSnk →
      rpOne (s.port[n].tc.readPins a b).1 (s.port[n].tc.readPins a b).2 = true → 4000 ≤ v → tryOf s.port[n].tc.cfg = 1 →
      ∃ t, exec (.tccdebounce n a b v) s = .next t ∧ t.port[n].tc.st = .trySrc ∧ t.port[n].tc.orient =
      orientSnk (s.port[n].tc.readPins a b).1 (s.port[n].tc.readPins a b).2 ∧ t.port[n].tc.rpOffer =
      s.port[n].tc.rpLevel ∧ t.port[n].tc.attCnt = s.port[n].tc.attCnt ∧ t.claim = s.claim ∧ t.core = s.core) ∧
  (∀ (s : State) (n : PortId) (a b v : Nat), s.notBack n = false → s.port[n].tc.st = .attwaitSrc →
      rdSeen (s.port[n].tc.readPins a b).1 (s.port[n].tc.readPins a b).2 = true → 800 < v → ∃ t,
      exec (.tccdebounce n a b v) s = .next t ∧ t.port[n].tc.st = .attwaitSrc ∧ t.port[n].tc.debDone = true ∧ t.claim =
      s.claim ∧ t.core = s.core) ∧
  (∀ (s : State) (n : PortId) (a b v : Nat), s.notBack n = false → s.port[n].tc.st = .attwaitSrc →
      (s.port[n].tc.readPins a b).1 = .rd → (s.port[n].tc.readPins a b).2 = .rd → debugEn s.port[n].tc.cfg = true → ∃ t,
      exec (.tccdebounce n a b v) s = .next t ∧ t.port[n].tc.st = .debugSrc ∧ t.port[n].tc.orient = .unoriented ∧
      t.port[n].tc.partner = .debugSrc ∧ t.port[n].rs.pr = .source) ∧
  (∀ (s : State) (n : PortId) (a b v : Nat), s.notBack n = false → s.port[n].tc.st = .attwaitSrc →
      (s.port[n].tc.readPins a b).1 = .ra → (s.port[n].tc.readPins a b).2 = .ra → audioEn s.port[n].tc.cfg = true → ∃ t,
      exec (.tccdebounce n a b v) s = .next t ∧ t.port[n].tc.st = .audio ∧ t.port[n].tc.partner = .audio) ∧
  (∀ (s : State) (n : PortId) (a b v : Nat), s.notBack n = false → s.port[n].tc.st = .attwaitSrc →
      rdSeen (s.port[n].tc.readPins a b).1 (s.port[n].tc.readPins a b).2 = false → (s.port[n].tc.readPins a b).1 = .opn ∨
      (s.port[n].tc.readPins a b).2 = .opn ∨ (debugEn s.port[n].tc.cfg = false ∧ audioEn s.port[n].tc.cfg = false) → ∃ t,
      exec (.tccdebounce n a b v) s = .next t ∧ t.port[n].tc.st =
      (match roleOf (s.tcCfg n) with | 1 => .unattSrc | 3 => .disabled | _ => .unattSnk)) ∧
  (∀ (s : State) (n : PortId) (a b v : Nat), s.notBack n = true → s.port[n].tc.st.holdsAttach = true → ∃ t,
      exec (.tccdebounce n a b v) s = .next t ∧ t.port[n].tc.holdAttach = true ∧ t.port[n].tc.st = s.port[n].tc.st ∧
      t.port[n].tc.debDone = s.port[n].tc.debDone ∧ t.claim = s.claim ∧ t.core = s.core) ∧
  (∀ (s : State) (n : PortId) (a b v : Nat), s.notBack n = false → s.port[n].tc.st.holdsAttach = false →
      s.port[n].tc.st ≠ .audio → s.port[n].tc.blank = true → ∃ t, exec (.tccdebounce n a b v) s = .next t ∧ t = s) ∧
  (∀ (s : State) (n : PortId) (a b v : Nat), s.notBack n = false → s.port[n].tc.st = .trySrc ∨ s.port[n].tc.st =
      .trywaitSrc → rdSeen (s.port[n].tc.readPins a b).1 (s.port[n].tc.readPins a b).2 = true → ∃ t,
      exec (.ttryccdebounce n a b v) s = .next t ∧ t.port[n].tc.st = .attSrc ∧ t.port[n].tc.orient =
      orientSrc (s.port[n].tc.readPins a b).1 (s.port[n].tc.readPins a b).2 ∧ t.port[n].rs.pr = .source ∧
      t.port[n].tc.attCnt = s.port[n].tc.attCnt + 1) ∧
  (∀ (s : State) (n : PortId) (a b v : Nat), s.notBack n = false → s.port[n].tc.st = .trySnk →
      rpOne (s.port[n].tc.readPins a b).1 (s.port[n].tc.readPins a b).2 = true → ∃ t, exec (.ttryccdebounce n a b v) s =
      .next t ∧ t.port[n].tc.st = (if v < 4000 then .trySnk else .attSnk) ∧ t.port[n].tc.debDone = decide (v < 4000)) ∧
  (∀ (s : State) (n : PortId), s.port[n].tc.st = .attwaitSrc ∨ s.port[n].tc.st = .attwaitSnk ∨ s.port[n].tc.st =
      .trywaitSnk → ∃ t, exec (.tpddebounce n) s = .next t ∧ t.port[n].tc.st =
      (match roleOf (s.tcCfg n) with | 1 => .unattSrc | 3 => .disabled | _ => .unattSnk) ∧ t.port[n].tc.cc1 = .opn ∧
      t.port[n].tc.cc2 = .opn) ∧
  (∀ (s : State) (n : PortId), s.port[n].tc.st ≠ .attwaitSrc → s.port[n].tc.st ≠ .attwaitSnk → s.port[n].tc.st ≠
      .trywaitSnk → ∃ t, exec (.tpddebounce n) s = .next t ∧ t = s) ∧
  (∀ (s : State) (n : PortId), s.port[n].tc.st = .trySrc → s.port[n].tc.holdAttach = false →
      rdSeen s.port[n].tc.cc1 s.port[n].tc.cc2 = false → ∃ t, exec (.tdrptry n) s = .next t ∧ t.port[n].tc.st =
      .trywaitSnk ∧ t.port[n].tc.orient = s.port[n].tc.orient ∧ t.port[n].tc.rpOffer = 0 ∧ t.claim = s.claim ∧ t.core =
      s.core) ∧
  (∀ (s : State) (n : PortId), s.port[n].tc.st = .trySnk → rpOne s.port[n].tc.cc1 s.port[n].tc.cc2 = false →
      s.port[n].tc.holdAttach = false → ∃ t, exec (.tdrptry n) s = .next t ∧ t.port[n].tc.st = .trywaitSrc ∧
      t.port[n].tc.orient = s.port[n].tc.orient ∧ t.port[n].tc.rpOffer = s.port[n].tc.rpLevel ∧ t.claim = s.claim ∧
      t.core = s.core) ∧
  (∀ (s : State) (n : PortId), (s.port[n].tc.st = .trySrc ∧ rdSeen s.port[n].tc.cc1 s.port[n].tc.cc2 = true) ∨
      (s.port[n].tc.st = .trySnk ∧ rpOne s.port[n].tc.cc1 s.port[n].tc.cc2 = true) → s.port[n].tc.holdAttach = false →
      ∃ t, exec (.tdrptry n) s = .next t ∧ t = s.modTc n fun c => { c with tryEnded := true }) ∧
  (∀ (s : State) (n : PortId), s.port[n].tc.st = .trywaitSrc → s.port[n].tc.holdAttach = false → ∃ t,
      exec (.tdrptry n) s = .next t ∧ t.port[n].tc.st = (if rdSeen s.port[n].tc.cc1 s.port[n].tc.cc2 =
      true then .trywaitSrc else (match roleOf (s.tcCfg n) with | 1 => .unattSrc | 3 => .disabled | _ => .unattSnk))) ∧
  (∀ (s : State) (n : PortId), s.port[n].tc.holdAttach = true → s.notBack n = true → s.port[n].tc.st.holdsAttach = true →
      ∃ t, exec (.tdrptry n) s = .next t ∧ t = s.modTc n fun c => { c with tryEnded := true }) ∧
  (∀ (s : State) (n : PortId), s.port[n].tc.st.holdsAttach = false ∨ s.port[n].tc.st = .attwaitSrc ∨ s.port[n].tc.st =
      .attwaitSnk → s.notBack n = false → ∃ t, exec (.tdrptry n) s = .next t ∧ t = s) ∧
  (∀ (s : State) (n : PortId), s.port[n].tc.st = .trySnk ∨ s.port[n].tc.st = .trywaitSrc → s.port[n].tc.holdAttach =
      false → ∃ t, exec (.ttrytimeout n) s = .next t ∧ t.port[n].tc.st =
      (match roleOf (s.tcCfg n) with | 1 => .unattSrc | 3 => .disabled | _ => .unattSnk)) ∧
  (∀ (s : State) (n : PortId), (s.port[n].tc.st ≠ .trySnk ∧ s.port[n].tc.st ≠ .trywaitSrc) ∨ (s.port[n].tc.holdAttach =
      true ∧ s.notBack n = true) → ∃ t, exec (.ttrytimeout n) s = .next t ∧ t = s) ∧
  (∀ (s : State) (n : PortId), s.port[n].tc.st.isSource = true → s.port[n].rs.step = .idle → ∃ t,
      exec (.tsrcdisconnect n) s = .next t ∧ t.port[n].tc.st =
      (match roleOf (s.tcCfg n) with | 1 => .unattSrc | 3 => .disabled | _ => .unattSnk) ∧ t.port[n].pd.contract =
      false ∧ t.port[n].ct.kind = .none ∧ t.port[n].ct.plan = none ∧ t.port[n].rs.pr = .none ∧ t.port[n].rs.step =
      .idle ∧ t.port[n].tc.vconnOn = false ∧ t.port[n].alt.mode = .none ∧ (t.port[n].pp.st = .opn ∨ t.port[n].pp.st =
      .discharge) ∧ t.port[n].pp.code = s.srcCode n 5000 s.port[n].pp.trim.toInt ∧ (∀ i : Fin 256,
      (t.tt.entries[i].any fun e => e.owner = n.val) = false)) ∧
  (∀ (s : State) (n : PortId), s.port[n].rs.step ≠ .idle → s.port[n].tc.rpOffer = 0 ∨ s.port[n].tc.st.attached = false →
      ∃ t, exec (.tsrcdisconnect n) s = .next t ∧ t = s) ∧
  (∀ (s : State) (n : PortId), s.port[n].rs.step = .idle → s.port[n].tc.st.isSource = false → ∃ t,
      exec (.tsrcdisconnect n) s = .next t ∧ t = s) ∧
  (∀ (s : State) (n : PortId) (v : Nat), s.port[n].tc.st = .attSnk ∨ s.port[n].tc.st = .debugSnk → v < 3670 →
      s.port[n].rs.step = .idle → s.port[n].rs.stby = false → s.port[n].pd.hrPend = false → ∃ t, exec (.vbusLoss n v) s =
      .next t ∧ t.port[n].tc.st = (if roleOf (s.tcCfg n) = 3 then .disabled else .unattSnk) ∧ t.port[n].pd.contract =
      false ∧ t.port[n].ct.kind = .none ∧ t.port[n].ct.plan = none ∧ t.port[n].rs.pr = .none ∧ t.port[n].rs.step =
      .idle ∧ t.port[n].tc.vconnOn = false ∧ t.port[n].alt.mode = .none ∧ (t.port[n].pp.st = .opn ∨ t.port[n].pp.st =
      .discharge) ∧ t.port[n].pp.code = s.srcCode n 5000 s.port[n].pp.trim.toInt ∧ (∀ i : Fin 256,
      (t.tt.entries[i].any fun e => e.owner = n.val) = false)) ∧
  (∀ (s : State) (n : PortId) (v : Nat), (s.port[n].tc.st ≠ .attSnk ∧ s.port[n].tc.st ≠ .debugSnk) ∨ 3670 ≤ v ∨
      s.port[n].rs.step ≠ .idle ∨ s.port[n].rs.stby = true ∨ s.port[n].pd.hrPend = true → ∃ t, exec (.vbusLoss n v) s =
      .next t ∧ t = s) ∧
  (∀ (s : State) (n : PortId) (v : Nat), s.notBack n = false → s.port[n].tc.st = .attwaitSrc → s.port[n].tc.debDone =
      true → v ≤ 800 → rdSeen s.port[n].tc.cc1 s.port[n].tc.cc2 = true → tryOf s.port[n].tc.cfg ≠ 2 → ∃ t,
      exec (.vbusSafe0v n v) s = .next t ∧ t.port[n].tc.st = .attSrc ∧ t.port[n].tc.orient =
      orientSrc s.port[n].tc.cc1 s.port[n].tc.cc2 ∧ t.port[n].rs.pr = .source ∧ t.port[n].tc.attCnt =
      s.port[n].tc.attCnt + 1) ∧
  (∀ (s : State) (n : PortId) (v : Nat), s.port[n].tc.st ≠ .attwaitSrc ∨ s.port[n].tc.debDone = false ∨ 800 < v → ∃ t,
      exec (.vbusSafe0v n v) s = .next t ∧ t = s) ∧
  (∀ (s : State) (n : PortId), s.port[n].tc.st = .errRecov → ∃ t, exec (.terrorrecovery n) s = .next t ∧
      t.port[n].tc.st = (match roleOf (s.tcCfg n) with | 1 => .unattSrc | 3 => .disabled | _ => .unattSnk) ∧
      t.port[n].tc.cfg = s.tcCfg n) ∧
  (∀ (s : State) (n : PortId), s.port[n].tc.st ≠ .errRecov → ∃ t, exec (.terrorrecovery n) s = .next t ∧ t = s) ∧
  (∀ (s : State) (n : PortId), s.port[n].tc.st.attached = true → s.port[n].tc.pathRetry = true → s.port[n].pp.st =
      .lockoff ∨ s.port[n].pp.retryRun = true ∨ s.port[n].pp.vcpWait = true → ∃ t, exec (.pathBookingRetry n) s =
      .next t ∧ t.port[n].tc.pathRetry = true ∧ t.tt = s.tt ∧ t.port[n].pp =
      { s.port[n].pp with code := t.port[n].pp.code, lim := t.port[n].pp.lim } ∧ t.port[n].tc.st = s.port[n].tc.st) ∧
  (∀ (s : State) (n : PortId), s.port[n].tc.st.attached = true → s.port[n].tc.pathRetry = true → s.port[n].pp.st ≠
      .lockoff → s.port[n].pp.retryRun = false → s.port[n].pp.vcpWait = false → s.port[n].hold = false → ∃ t,
      exec (.pathBookingRetry n) s = .next t ∧ t.port[n].tc.pathRetry =
      !(s.bookPort n .path s.pathDur none (if s.port[n].tc.st.isSource =
      true then rpUnits (rpLevelOf s.port[n].tc.cfg) else 0) 0).2.ok ∧ t.tt =
      (s.bookPort n .path s.pathDur none (if s.port[n].tc.st.isSource =
      true then rpUnits (rpLevelOf s.port[n].tc.cfg) else 0) 0).1.tt ∧ t.port[n].tc.st = s.port[n].tc.st ∧
      (s.port[n].tc.st.isSource = true → s.port[n].pp.st.live = false → t.port[n].pp.code =
      s.srcCode n 5000 s.port[n].pp.trim.toInt)) ∧
  (∀ (s : State) (n : PortId), s.port[n].tc.st.attached = false ∨ s.port[n].tc.pathRetry = false → ∃ t,
      exec (.pathBookingRetry n) s = .next t ∧ t = s) ∧
  (∀ (s : State) (n : PortId), s.port[n].tc.st.isSource = true → s.port[n].tc.pathLimit = true → s.port[n].pp.retryRun =
      false → s.port[n].pp.st ≠ .lockoff → ∃ t, exec (.pathGrantLimit n) s = .next t ∧ t.port[n].tc.st = .errRecov ∧
      t.port[n].rs.pr = .none ∧ t.port[n].ct.kind = .none ∧ (∀ i : Fin 256, (t.tt.entries[i].any fun e => e.owner =
      n.val) = false)) ∧
  (∀ (s : State) (n : PortId), s.port[n].tc.st.isSource = false ∨ s.port[n].tc.pathLimit = false ∨
      s.port[n].pp.retryRun = true ∨ s.port[n].pp.st = .lockoff → ∃ t, exec (.pathGrantLimit n) s = .next t ∧ t = s) ∧
  (∀ (s : State) (n : PortId), s.port[n].tc.vconnOn = true → ∃ t, exec (.vconnOc n) s = .next t ∧ t.port[n].tc.vconnOn =
      false ∧ t.port[n].rs.vc = false ∧ t.port[n].tc.vconnOc = true ∧ t.port[n].tc.vconnOff = true ∧ t.port[n].tc.st =
      s.port[n].tc.st ∧ (s.port[n].tc.st.attached = true → t.cableAbsentNow n = true) ∧ t.port[n].tc.vconnWait = false) ∧
  (∀ (s : State) (n : PortId), s.port[n].tc.vconnOn = false → ∃ t, exec (.vconnOc n) s = .next t ∧ t = s) ∧
  (∀ (s : State) (n : PortId) (a b v : Nat), s.notBack n = false → s.port[n].tc.st.holdsAttach = false →
      s.port[n].tc.blank = true → ∃ t, exec (.ttryccdebounce n a b v) s = .next t ∧ t = s)

/-- V_ds at or above the fast-trip code opens a path that is closing or closed: the flag of the cause is set, the trip is
dated and counted and is to be told at the end of its tick, RETRY runs, the port's bookings are cancelled, its contract
ends, and the path is in DISCHARGE, TRIPPED or LOCKOFF; below it, or with the path neither and no trip in this tick,
nothing happens. A further cause in the tick of a trip sets its flag and counts no second trip. V_ds at or beyond the
reverse threshold does the same with its flag, short of it nothing; so does an accumulator that has reached K, not one
below it; the loss of the converter's power good, which with the path open is only kept, and a path that is still CLOSING
at the end of its time, and none that is not. Where the manual leaves a point open this rests on the model's own reading:
log entry 142. -/
def Obligations.PortTrips : Prop :=
  (∀ (s : State) (n : PortId) (v : Int), s.port[n].pp.st = .closing ∨ s.port[n].pp.st = .closed →
      15625 * (s.port[n].pp.ftCode.toNat : Int) ≤ 100 * s.port[n].pp.along v → ∃ t, exec (.portFastTrip n v) s =
      .next t ∧ t.port[n].pp.ftTrip = true ∧ t.port[n].pp.retryRun = true ∧ t.port[n].pp.trips = (s.time.ct ::
      s.port[n].pp.trips).take 255 ∧ t.port[n].ms.tripsLife = min (2 ^ 32 - 1) (s.port[n].ms.tripsLife + 1) ∧
      (t.port[n].pp.st = .discharge ∨ t.port[n].pp.st = .tripped ∨ t.port[n].pp.st = .lockoff) ∧ t.port[n].pd.contract =
      false ∧ (t.trips.any fun x => x.port = n) = true ∧ (∀ i : Fin 256, (t.tt.entries[i].any fun e => e.owner = n.val) =
      false)) ∧
  (∀ (s : State) (n : PortId) (v : Int), 100 * s.port[n].pp.along v < 15625 * (s.port[n].pp.ftCode.toNat : Int) ∨
      (s.port[n].pp.st ≠ .closing ∧ s.port[n].pp.st ≠ .closed ∧ s.port[n].pp.trips.head? ≠ some s.time.ct) → ∃ t,
      exec (.portFastTrip n v) s = .next t ∧ t = s) ∧
  (∀ (s : State) (n : PortId) (v : Int), s.port[n].pp.st ≠ .closing → s.port[n].pp.st ≠ .closed →
      s.port[n].pp.trips.head? = some s.time.ct →
      15625 * (s.port[n].pp.ftCode.toNat : Int) ≤ 100 * s.port[n].pp.along v → ∃ t, exec (.portFastTrip n v) s =
      .next t ∧ t.port[n].pp.ftTrip = true ∧ t.port[n].pp.trips = s.port[n].pp.trips ∧ t.port[n].pp.st =
      s.port[n].pp.st ∧ t.tt = s.tt) ∧
  (∀ (s : State) (n : PortId) (v : Int), s.port[n].pp.st = .closing ∨ s.port[n].pp.st = .closed →
      s.port[n].pp.revLimit ≤ ((-(s.port[n].pp.along v) : Int) : Rat) → ∃ t, exec (.portReverseTrip n v) s = .next t ∧
      t.port[n].pp.revTrip = true ∧ t.port[n].pp.retryRun = true ∧ t.port[n].pp.trips = (s.time.ct ::
      s.port[n].pp.trips).take 255 ∧ t.port[n].ms.tripsLife = min (2 ^ 32 - 1) (s.port[n].ms.tripsLife + 1) ∧
      (t.port[n].pp.st = .discharge ∨ t.port[n].pp.st = .tripped ∨ t.port[n].pp.st = .lockoff) ∧ t.port[n].pd.contract =
      false ∧ (t.trips.any fun x => x.port = n) = true ∧ (∀ i : Fin 256, (t.tt.entries[i].any fun e => e.owner = n.val) =
      false)) ∧
  (∀ (s : State) (n : PortId) (v : Int), ((-(s.port[n].pp.along v) : Int) : Rat) < s.port[n].pp.revLimit ∨
      (s.port[n].pp.st ≠ .closing ∧ s.port[n].pp.st ≠ .closed ∧ s.port[n].pp.trips.head? ≠ some s.time.ct) → ∃ t,
      exec (.portReverseTrip n v) s = .next t ∧ t = s) ∧
  (∀ (s : State) (n : PortId), s.port[n].pp.st = .closing ∨ s.port[n].pp.st = .closed → s.port[n].pp.i2tOver = true →
      ∃ t, exec (.i2tTrip n) s = .next t ∧ t.port[n].pp.i2tTrip = true ∧ t.port[n].pp.retryRun = true ∧
      t.port[n].pp.trips = (s.time.ct :: s.port[n].pp.trips).take 255 ∧ t.port[n].ms.tripsLife =
      min (2 ^ 32 - 1) (s.port[n].ms.tripsLife + 1) ∧ (t.port[n].pp.st = .discharge ∨ t.port[n].pp.st = .tripped ∨
      t.port[n].pp.st = .lockoff) ∧ t.port[n].pd.contract = false ∧ (t.trips.any fun x => x.port = n) = true ∧
      (∀ i : Fin 256, (t.tt.entries[i].any fun e => e.owner = n.val) = false)) ∧
  (∀ (s : State) (n : PortId), s.port[n].pp.i2tOver = false ∨ (s.port[n].pp.st ≠ .closing ∧ s.port[n].pp.st ≠ .closed ∧
      s.port[n].pp.trips.head? ≠ some s.time.ct) → ∃ t, exec (.i2tTrip n) s = .next t ∧ t = s) ∧
  (∀ (s : State) (n : PortId), s.port[n].pp.st = .closing ∨ s.port[n].pp.st = .closed → ∃ t, exec (.cpgLost n) s =
      .next t ∧ t.port[n].pp.cpgLost = true ∧ t.port[n].pp.retryRun = true ∧ t.port[n].pp.trips = (s.time.ct ::
      s.port[n].pp.trips).take 255 ∧ t.port[n].ms.tripsLife = min (2 ^ 32 - 1) (s.port[n].ms.tripsLife + 1) ∧
      (t.port[n].pp.st = .discharge ∨ t.port[n].pp.st = .tripped ∨ t.port[n].pp.st = .lockoff) ∧ t.port[n].pd.contract =
      false ∧ (t.trips.any fun x => x.port = n) = true ∧ (∀ i : Fin 256, (t.tt.entries[i].any fun e => e.owner = n.val) =
      false) ∧ t.port[n].pp.cpg = false) ∧
  (∀ (s : State) (n : PortId), (s.port[n].pp.st ≠ .closing ∧ s.port[n].pp.st ≠ .closed ∧ s.port[n].pp.trips.head? ≠
      some s.time.ct) → ∃ t, exec (.cpgLost n) s = .next t ∧ t = s.modPp n fun p => { p with cpg := false }) ∧
  (∀ (s : State) (n : PortId), s.port[n].pp.st = .closing → ∃ t, exec (.closeFail n) s = .next t ∧
      t.port[n].pp.closeFail = true ∧ t.port[n].pp.retryRun = true ∧ t.port[n].pp.trips = (s.time.ct ::
      s.port[n].pp.trips).take 255 ∧ t.port[n].ms.tripsLife = min (2 ^ 32 - 1) (s.port[n].ms.tripsLife + 1) ∧
      (t.port[n].pp.st = .discharge ∨ t.port[n].pp.st = .tripped ∨ t.port[n].pp.st = .lockoff) ∧ t.port[n].pd.contract =
      false ∧ (t.trips.any fun x => x.port = n) = true ∧ (∀ i : Fin 256, (t.tt.entries[i].any fun e => e.owner = n.val) =
      false)) ∧
  (∀ (s : State) (n : PortId), s.port[n].pp.st ≠ .closing → ∃ t, exec (.closeFail n) s = .next t ∧ t = s)

/-- A due PATH grant of an attached port closes its open path, with VCP at 11 V, RETRY past and the converter good;
without Pn_CPG the path stays open with CLOSE_FAIL, and where it may not close it stays open and is booked again; with
the path not open, or the port not attached, the grant is spent; with none due there is none. A due SET grant of an
opening loads the 5 V code and asserts Pn_CEN; of an open source port it brings the code to the contract's voltage; a
pending trim is applied with it; with none due there is none. The far side within 0.1 V of the near side ends the
closing, beyond it, or in another state, not. A discharge not done in its time sets DSG_FAIL and ends in OPEN, TRIPPED or
LOCKOFF, and fails the port's discharge test unless a fault of VCP caused it; in another state nothing happens. Once its
channel has counted RETRY, TRIPPED opens, and a PATH that waits is booked; before, nothing happens. A pending fast-trip
code comes into force, one that a pulse has held too, and with none the one in force stays. VCONN is present from 4.80 V
with 50 mV of hysteresis, and while it is absent the cables of the attached ports of the Platform read as absent and
unmarked. With no core to book it, no trim pending, the path not a closed source path, or trim stopped, TRIM_SET does
nothing; else it books a SET of 4 tk with the power that the trim takes. A failed hardware test is recorded and disables
its port; of a port out of service nothing is. Where the manual leaves a point open this rests on the model's own
reading: log entries 30, 31. -/
def Obligations.PathsAndSetpoints : Prop :=
  (∀ (s : State) (n : PortId) (i : Fin 256), s.dueEntry n.val .path = some i → s.port[n].pp.st = .opn →
      s.port[n].tc.st.attached = true → s.mayClose n = true → s.port[n].pp.cpg = true → ∃ t, exec (.pathGrant n) s =
      .next t ∧ t.port[n].pp.st = .closing ∧ t.port[n].pp.i2t = 0 ∧ t.port[n].tc.pathRetry = false ∧
      t.port[n].tc.pathLimit = false ∧ t.tt = (s.fireEntry i).tt) ∧
  (∀ (s : State) (n : PortId) (i : Fin 256), s.dueEntry n.val .path = some i → s.port[n].pp.st = .opn →
      s.port[n].tc.st.attached = true → s.mayClose n = true → s.port[n].pp.cpg = false → ∃ t, exec (.pathGrant n) s =
      .next t ∧ t.port[n].pp.st = .opn ∧ t.port[n].pp.closeFail = true ∧ t.tt = (s.fireEntry i).tt) ∧
  (∀ (s : State) (n : PortId) (i : Fin 256), s.dueEntry n.val .path = some i → s.port[n].pp.st = .opn →
      s.port[n].tc.st.attached = true → s.mayClose n = false → ∃ t, exec (.pathGrant n) s = .next t ∧ t.port[n].pp.st =
      .opn ∧ t.port[n].tc.pathRetry = true ∧ t.tt = (s.fireEntry i).tt) ∧
  (∀ (s : State) (n : PortId) (i : Fin 256), s.dueEntry n.val .path = some i → s.port[n].pp.st ≠ .opn ∨
      s.port[n].tc.st.attached = false → ∃ t, exec (.pathGrant n) s = .next t ∧ t.port[n].pp.st = s.port[n].pp.st ∧
      t.port[n].tc = s.port[n].tc ∧ t.tt = (s.fireEntry i).tt) ∧
  (∀ (s : State) (n : PortId), s.dueEntry n.val .path = none → ∃ t, exec (.pathGrant n) s = .next t ∧ t = s) ∧
  (∀ (s : State) (n : PortId) (i : Fin 256), s.dueEntry n.val .set = some i → s.port[n].ct.plan = none →
      s.port[n].tc.opening = .booked → ∃ t, exec (.setGrant n) s = .next t ∧ t.port[n].pp.code =
      s.srcCode n 5000 s.port[n].pp.trim.toInt ∧ t.port[n].pp.cen = true ∧ t.port[n].pp.cpg = false ∧
      t.port[n].tc.opening = .starting ∧ t.port[n].tc.st = s.port[n].tc.st ∧ t.tt = (s.fireEntry i).tt ∧ t.claim =
      s.claim ∧ t.core = s.core) ∧
  (∀ (s : State) (n : PortId) (i : Fin 256), s.dueEntry n.val .set = some i → s.port[n].ct.plan = none →
      s.port[n].tc.opening ≠ .booked → s.port[n].pp.trimPend = 0 → s.port[n].pp.sink = false → s.port[n].ct.mv ≠ 0 →
      s.port[n].pp.lim = 0 → ∃ t, exec (.setGrant n) s = .next t ∧ t.port[n].pp.code =
      s.srcCode n s.port[n].ct.mv s.port[n].pp.trim.toInt ∧ t.port[n].tc = s.port[n].tc ∧ t.tt = (s.fireEntry i).tt ∧
      t.claim = s.claim ∧ t.core = s.core) ∧
  (∀ (s : State) (n : PortId) (i : Fin 256), s.dueEntry n.val .set = some i → s.port[n].ct.plan = none →
      s.port[n].tc.opening ≠ .booked → s.port[n].pp.trimPend ≠ 0 → s.trimStopped n = false → s.port[n].pp.sink = true →
      s.port[n].pp.lim = 0 → ∃ t, exec (.setGrant n) s = .next t ∧ t.port[n].pp.trimPend = 0 ∧ t.port[n].pp.trim =
      BitVec.ofInt 10 (max (-512) (min 511 (s.port[n].pp.trim.toInt + s.port[n].pp.trimPend))) ∧ t.tt =
      (s.fireEntry i).tt) ∧
  (∀ (s : State) (n : PortId), s.dueEntry n.val .set = none → ∃ t, exec (.setGrant n) s = .next t ∧ t = s) ∧
  (∀ (s : State) (n : PortId) (a b : Nat), s.port[n].pp.st = .closing → a ≤ b + 100 → b ≤ a + 100 → ∃ t,
      exec (.closingDone n a b) s = .next t ∧ t = s.modPp n fun p => { p with st := .closed }) ∧
  (∀ (s : State) (n : PortId) (a b : Nat), s.port[n].pp.st ≠ .closing ∨ b + 100 < a ∨ a + 100 < b → ∃ t,
      exec (.closingDone n a b) s = .next t ∧ t = s) ∧
  (∀ (s : State) (n : PortId), s.port[n].pp.st = .discharge → ∃ t, exec (.dischargeTimeout n) s = .next t ∧
      t.port[n].pp.dsgFail = true ∧ t.port[n].pp.st ≠ .discharge ∧ (s.port[n].pp.byVcp = false → t.port[n].ms.tests =
      s.port[n].ms.tests ||| 4 ∧ t.port[n].tc.st = .disabled)) ∧
  (∀ (s : State) (n : PortId), s.port[n].pp.st ≠ .discharge → ∃ t, exec (.dischargeTimeout n) s = .next t ∧ t = s) ∧
  (∀ (s : State) (n : PortId), s.chan[(⟨4 * n.val + 3, by omega⟩ : Fin 128)].run = false → s.port[n].tc.pathRetry =
      false → ∃ t, exec (.retryExpiry n) s = .next t ∧ t = s.modPp n fun p =>
      { p with retryRun := false, st := if p.st = .tripped then .opn else p.st }) ∧
  (∀ (s : State) (n : PortId), s.chan[(⟨4 * n.val + 3, by omega⟩ : Fin 128)].run = false → s.port[n].tc.pathRetry =
      true → s.port[n].tc.st.attached = true → s.port[n].pp.st = .tripped → s.port[n].pp.vcpWait = false →
      s.port[n].hold = false → ∃ t, exec (.retryExpiry n) s = .next t ∧ t.port[n].pp.st = .opn ∧ t.port[n].pp.retryRun =
      false ∧ t.port[n].tc.pathRetry = !(s.bookPort n .path s.pathDur none (if s.port[n].tc.st.isSource =
      true then rpUnits (rpLevelOf s.port[n].tc.cfg) else 0) 0).2.ok) ∧
  (∀ (s : State) (n : PortId), s.chan[(⟨4 * n.val + 3, by omega⟩ : Fin 128)].run = true → ∃ t, exec (.retryExpiry n) s =
      .next t ∧ t = s) ∧
  (∀ (s : State) (n : PortId) (c : BitVec 10), s.port[n].pp.ftPend = some c → s.port[n].pp.ftHold = none → ∃ t,
      exec (.ftCodeTakeover n) s = .next t ∧ t = s.modPp n fun p => { p with ftCode := c, ftPend := none }) ∧
  (∀ (s : State) (n : PortId) (c : BitVec 10), s.port[n].pp.ftHold = some c → s.port[n].pp.pulse = none → ∃ t,
      exec (.ftCodeTakeover n) s = .next t ∧ t.port[n].pp.ftCode = c ∧ t.port[n].pp.ftHold = none) ∧
  (∀ (s : State) (n : PortId), s.port[n].pp.ftPend = none → s.port[n].pp.ftHold = none → ∃ t,
      exec (.ftCodeTakeover n) s = .next t ∧ t = s) ∧
  (∀ (s : State) (k : PlatId) (mv : Nat), ∃ t, exec (.vconnPresentChange k mv) s = .next t ∧ t.plat[k].vconn =
      (decide (4800 ≤ mv) || s.plat[k].vconn && decide (4750 ≤ mv)) ∧ t.port = s.port ∧ ∀ n : PortId, platOf n = k →
      t.plat[k].vconn = false → t.cableMarked n = false ∧ (s.port[n].tc.st.attached = true → bit (t.pdStat n) 19 =
      true)) ∧
  (∀ (s : State) (n : PortId), s.coreRuns n = false ∨ s.port[n].pp.trimPend = 0 ∨ s.port[n].pp.st ≠ .closed ∨
      s.port[n].pp.sink = true ∨ s.trimStopped n = true → ∃ t, exec (.trimSet n) s = .next t ∧ t = s) ∧
  (∀ (s : State) (n : PortId), s.port[n].pp.trimPend ≠ 0 → s.port[n].pp.st = .closed → s.port[n].pp.sink = false →
      s.trimStopped n = false → s.coreRuns n = true → ∃ t, exec (.trimSet n) s = .next t ∧ t.port = s.port ∧ t =
      (s.bookPort n .set 4 none (max 1 (((s.port[n].pp.trimPend.natAbs * 256 : Rat) / (max 1 (s.portU16 n 0x22) : Nat)) * s.port[n].pp.meanAbs 5000 / 250).ceil) 0).1) ∧
  (∀ (s : State) (n : PortId) (k : Fin 6), s.inService n = true → ∃ t, exec (.hardwareTestFail n k) s = .next t ∧
      t.port[n].tc.st = .disabled ∧ t.port[n].ms.tests = s.port[n].ms.tests ||| BitVec.ofNat 16 (1 <<< k.val) ∧
      t.port[n].pp.cen = false ∧ t.port[n].rs.pr = .none) ∧
  (∀ (s : State) (n : PortId) (k : Fin 6), s.inService n = false → ∃ t, exec (.hardwareTestFail n k) s = .next t ∧ t = s)

/-- A due CAL grant on a closed path of a port in source role, at 4 A or less over its last 20 samples and the
accumulator below K, starts a pulse at its tick; else the pulse is skipped and CAL_SKIP set; with none due there is none.
Without a pulse whose three sample sets are complete and have the means named there is no result. A result that fails its
tests sets CAL_REJ and is counted, and the value and its date stay; the eighth in a row is health cause 11 where the
port's core runs. An accepted one gives the value with its date, which a core that does not run applies once it does. A
core that runs applies it at once. While the port's core does not run, the estimate, the learned reference and the trip
codes stay. Every 10 ms the core moves the estimate with the self-heating of the pair from the last calibration, The trim
loop of a path that is not a closed source path in a contract, of a core that does not run and while trim is stopped
changes nothing; it holds at most 8 codes of trim for the next grant, and none inside the dead band; in a PPS or AVS
contract at 102 % of its current it lowers the code by the free number of codes that limits it. Where the manual leaves a
point open this rests on the model's own reading: log entries 8, 13, 103, 141, 154. -/
def Obligations.CalibrationAndTrim : Prop :=
  (∀ (s : State) (n : PortId) (i : Fin 256), s.dueEntry n.val .cal = some i → s.port[n].pp.st = .closed →
      s.port[n].pp.sink = false → s.port[n].pp.trimPend = 0 → s.port[n].pp.meanAbs 20 ≤ 4000 → s.port[n].pp.i2tOver =
      false → s.port[n].rs.pr ≠ .sink → ∃ t, exec (.calGrant n) s = .next t ∧ t.port[n].pp.calSkip = false ∧
      t.port[n].pp.pulse = some (s.time.ct, (s.calMa n).floor.toNat) ∧ t.port[n].pp.st = .closed ∧ t.tt =
      (s.fireEntry i).tt ∧ t.claim = s.claim ∧ t.core = s.core) ∧
  (∀ (s : State) (n : PortId) (i : Fin 256), s.dueEntry n.val .cal = some i → s.port[n].pp.trimPend = 0 →
      s.port[n].rs.pr = .sink ∨ s.port[n].pp.st ≠ .closed ∨ s.port[n].pp.sink = true ∨ 4000 < s.port[n].pp.meanAbs 20 ∨
      s.port[n].pp.i2tOver = true → ∃ t, exec (.calGrant n) s = .next t ∧ t.port[n].pp.calSkip = true ∧
      t.port[n].pp.pulse = s.port[n].pp.pulse ∧ t.tt = (s.fireEntry i).tt ∧ t.claim = s.claim ∧ t.core = s.core) ∧
  (∀ (s : State) (n : PortId), s.dueEntry n.val .cal = none → ∃ t, exec (.calGrant n) s = .next t ∧ t = s) ∧
  (∀ (s : State) (n : PortId) (e f : Int) (a b c d : Rat), (s.port[n].pp.pulse.bind fun x => s.calSets n x.1) ≠ some (a,
      b, c, d) → ∃ t, exec (.calResult n a b c d e f) s = .next t ∧ t = s) ∧
  (∀ (s : State) (n : PortId) (e f : Int) (a b c d : Rat), s.port[n].pp.pulse ≠ none → (s.port[n].pp.pulse.bind fun x =>
      s.calSets n x.1) = some (a, b, c, d) → calValue s.port[n].pp a b c d = none → s.port[n].pp.rejRun < 7 → ∃ t,
      exec (.calResult n a b c d e f) s = .next t ∧ t.port[n].pp.calRej = true ∧ t.port[n].pp.pulse = none ∧
      t.port[n].pp.rejRun = s.port[n].pp.rejRun + 1 ∧ t.port[n].pp.rCalQ = s.port[n].pp.rCalQ ∧ t.port[n].pp.calAt =
      s.port[n].pp.calAt ∧ t.port[n].pp.rEst = s.port[n].pp.rEst) ∧
  (∀ (s : State) (n : PortId) (e f : Int) (a b c d : Rat), s.port[n].pp.pulse ≠ none → (s.port[n].pp.pulse.bind fun x =>
      s.calSets n x.1) = some (a, b, c, d) → calValue s.port[n].pp a b c d = none → 7 ≤ s.port[n].pp.rejRun →
      s.coreRuns n = true → ∃ t, exec (.calResult n a b c d e f) s = .next t ∧ t.port[n].pp.calRej = true ∧
      t.port[n].pp.rejRun = 0 ∧ bit t.health.active 11 = true) ∧
  (∀ (s : State) (n : PortId) (e f : Int) (a b c d r : Rat), s.port[n].pp.pulse ≠ none →
      (s.port[n].pp.pulse.bind fun x => s.calSets n x.1) = some (a, b, c, d) → calValue s.port[n].pp a b c d = some r →
      s.coreRuns n = false → ∃ t, exec (.calResult n a b c d e f) s = .next t ∧ t.port[n].pp.rKnown = true ∧
      t.port[n].pp.pulse = none ∧ t.port[n].pp.rCalQ = r ∧ t.port[n].pp.calGot = some s.time.ct ∧ t.port[n].pp.calAt =
      s.port[n].pp.calAt ∧ t.port[n].pp.rHeld = true) ∧
  (∀ (s : State) (n : PortId) (e f : Int) (a b c d r : Rat), s.port[n].pp.pulse ≠ none →
      (s.port[n].pp.pulse.bind fun x => s.calSets n x.1) = some (a, b, c, d) → calValue s.port[n].pp a b c d = some r →
      s.coreRuns n = true → ∃ t, exec (.calResult n a b c d e f) s = .next t ∧ t.port[n].pp.rKnown = true ∧
      t.port[n].pp.pulse = none ∧ t.port[n].pp.rCalQ = r ∧ t.port[n].pp.rc = r ∧ t.port[n].pp.calAt = some s.time.ct ∧
      t.port[n].pp.rHeld = false ∧ t.port[n].pp.rejRun = 0 ∧ t.port[n].pp.rCal = BitVec.ofInt 16 (roundFree r)) ∧
  (∀ (s : State) (n : PortId), s.coreRuns n = false → ∃ t, exec (.rpairEstimate n) s = .next t ∧ t = s) ∧
  (∀ (s : State) (n : PortId), s.coreRuns n = true → s.thermRef n = none → ∃ t, exec (.rpairEstimate n) s = .next t ∧
      t.port[n].pp.rEst = s.port[n].pp.rc * (1 + (s.portU16 n 0x28 : Rat) / 1000000 * (t.port[n].pp.dT - s.port[n].pp.dTc)) ∧
      t.port[n].pp.rc = s.port[n].pp.rc ∧ t.port[n].pp.st = s.port[n].pp.st) ∧
  (∀ (s : State) (n : PortId), s.coreRuns n = false ∨ s.port[n].pp.st ≠ .closed ∨ s.port[n].pp.sink = true ∨
      s.port[n].ct.mv = 0 ∨ s.trimStopped n = true → ∃ t, exec (.trimLoop n) s = .next t ∧ t = s) ∧
  (∀ (s : State) (n : PortId), s.coreRuns n = true → s.port[n].pp.st = .closed → s.port[n].pp.sink = false →
      s.port[n].ct.mv ≠ 0 → s.trimStopped n = false → s.port[n].ct.kind ≠ .pps → s.port[n].ct.kind ≠ .avs → ∃ t,
      exec (.trimLoop n) s = .next t ∧ t.port[n].pp.trimPend =
      (if (trimDb (s.ppCfg n) : Rat) < (s.port[n].ct.mv : Rat) - s.port[n].pp.meanVc 5000 ∨
      (s.port[n].ct.mv : Rat) - s.port[n].pp.meanVc 5000 < -(trimDb (s.ppCfg n) : Rat) then max (-8) (min 8 (roundHalfUp ((s.portU16 n 0x22 : Rat) * ((s.port[n].ct.mv : Rat) - s.port[n].pp.meanVc 5000) / 256000))) else 0) ∧
      t.port[n].pp.code = s.port[n].pp.code ∧ t.tt = s.tt) ∧
  (∀ (s : State) (n : PortId), s.coreRuns n = true → s.port[n].pp.st = .closed → s.port[n].pp.sink = false →
      s.port[n].ct.mv ≠ 0 → s.trimStopped n = false → s.port[n].ct.kind = .pps ∨ s.port[n].ct.kind = .avs →
      (102 * s.port[n].ct.i10 : Nat) ≤ 10 * s.port[n].pp.meanAbs 5000 → ∃ t, exec (.trimLoop n) s = .next t ∧
      t.port[n].pp.code = code12 ((s.port[n].pp.code.toNat : Int) - ((Config.limitCodes s.fresh).val + 1)) ∧ t.fresh =
      s.fresh + 1 ∧ t.tt = s.tt)

/-- CAPABILITIES_SEND hands a source's capabilities, built with its offer ceiling or shed target, to the engine and
records the offer and the objects, with no port before it in the order of a shedding and no policy kernel to ask; where
none may be sent, or nCapsCount are unanswered, none is; a running policy kernel is asked first. After three budget Waits
in a row new capabilities are sent, and where the offer has risen by 10 W or more, at most once in 10 s; short of that
none are. A Request that matches no object last sent is rejected; one beyond the headroom is answered Wait, which is
counted; one in a transition or a swap is answered Wait; one that changes neither voltage nor commitment is accepted
without a booking; one whose transition is booked within its limits is accepted, its commitment held at the higher of old
and new. With none at hand nothing happens. EPR entry is acknowledged, the cable to be asked again, or fails with the
reason of the first condition that does not hold; with no Discover Identity left it fails with the cable's reason. With
none at hand nothing happens. A ramp's due increment moves the setpoint one step from the old voltage to the new and the
plan on; none due moves nothing. Once every action has fired, the Accept is acknowledged and the mean of Pn_VC is within
its limits, the contract is in force and PS_RDY is handed over, not before; a check that has not passed in time sets
CONV_FAIL and asks for Hard Reset, but not while actions are left. A shed port whose time from the GoodCRC has run
without a contract at or below its target is to send Hard Reset; with no such time running, or a transition admitted, it
is not. The discharge assist ends, but that of a swap runs on. A thermal limit ends 10 °C below T_WARN, where one is set.
Where the manual leaves a point open this rests on the model's own reading: log entries 8, 160. -/
def Obligations.SourceContracts : Prop :=
  (∀ (s : State) (n : PortId), s.maySendCaps n = true → s.capsLeft n = true → s.shedAhead n = [] →
      (s.underTarget n).isSome = true ∨ s.policyRuns = false → ∃ t, exec (.capabilitiesSend n) s = .next t ∧
      t.port[n].ct.offer = (s.offerFor n) ∧ t.port[n].pd.objs = s.sourceObjs n (s.offerFor n) s.port[n].pd.epr ∧
      t.port[n].ct.waits = 0 ∧
      s.handed t n (if s.port[n].pd.epr then .eprSourceCaps (s.capFlags n) (s.sourceObjs n (s.offerFor n) s.port[n].pd.epr) else .sourceCaps (s.capFlags n) (s.sourceObjs n (s.offerFor n) s.port[n].pd.epr)) true ∧
      t.tt = s.tt ∧ t.port[n].ct.shedDue = false) ∧
  (∀ (s : State) (n : PortId), s.maySendCaps n = false ∨ s.capsLeft n = false → ∃ t, exec (.capabilitiesSend n) s =
      .next t ∧ t = s) ∧
  (∀ (s : State) (n : PortId), s.maySendCaps n = true → s.capsLeft n = true → s.shedAhead n = [] → s.underTarget n =
      none → s.policyRuns = true → ∃ t, exec (.capabilitiesSend n) s = .next t ∧ t.bg.policy = s.bg.policy ++
      [.offer n] ∧ t.port = s.port ∧ t.tt = s.tt) ∧
  (∀ (s : State) (n : PortId), s.maySendCaps n = true → 3 ≤ s.port[n].ct.waits → (s.underTarget n).isSome = true ∨
      s.policyRuns = false → ∃ t, exec (.offerRiseCaps n) s = .next t ∧ t.port[n].ct.offer = (s.offerFor n) ∧
      t.port[n].pd.objs = s.sourceObjs n (s.offerFor n) s.port[n].pd.epr ∧ t.port[n].ct.waits = 0 ∧
      s.handed t n (if s.port[n].pd.epr then .eprSourceCaps (s.capFlags n) (s.sourceObjs n (s.offerFor n) s.port[n].pd.epr) else .sourceCaps (s.capFlags n) (s.sourceObjs n (s.offerFor n) s.port[n].pd.epr)) true ∧
      t.tt = s.tt) ∧
  (∀ (s : State) (n : PortId), s.maySendCaps n = true → s.port[n].ct.waits < 3 → s.riseDue n = true → s.policyRuns =
      false → s.port[n].ct.offer + 40 ≤ s.offerCeil n → ∃ t, exec (.offerRiseCaps n) s = .next t ∧ t.port[n].ct.offer =
      (s.offerCeil n) ∧ t.port[n].pd.objs = s.sourceObjs n (s.offerCeil n) s.port[n].pd.epr ∧ t.port[n].ct.waits = 0 ∧
      s.handed t n (if s.port[n].pd.epr then .eprSourceCaps (s.capFlags n) (s.sourceObjs n (s.offerCeil n) s.port[n].pd.epr) else .sourceCaps (s.capFlags n) (s.sourceObjs n (s.offerCeil n) s.port[n].pd.epr)) true ∧
      t.tt = s.tt ∧ t.port[n].ct.capsAt = some s.time.ct) ∧
  (∀ (s : State) (n : PortId), s.maySendCaps n = false ∨ (s.port[n].ct.waits < 3 ∧ (s.riseDue n = false ∨ (s.policyRuns =
      false ∧ s.offerCeil n < s.port[n].ct.offer + 40))) → ∃ t, exec (.offerRiseCaps n) s = .next t ∧ t = s) ∧
  (∀ (s u : State) (n : PortId) (m : PdMsg), s.firstRequest n = true → s.takeMsg n isRequest = some (m, false, u) →
      u.port[n].tc.st.isSource = true → u.port[n].pd.asked m.body = none → ∃ t, exec (.request n) s = .next t ∧
      u.handed t n .reject false ∧ t.port[n].ct = u.port[n].ct ∧ t.tt = u.tt) ∧
  (∀ (s u : State) (n : PortId) (m : PdMsg) (r : Rdo) (k : CtKind) (v i im : Nat), s.firstRequest n = true →
      s.takeMsg n isRequest = some (m, false, u) → u.port[n].tc.st.isSource = true → u.port[n].ct.plan = none →
      u.port[n].rs.step = .idle → u.port[n].pd.asked m.body = some (r, k, v, i, im) →
      u.headroom < ((max 60 (units v i) : Nat) : Int) - u.kp n → ∃ t, exec (.request n) s = .next t ∧
      u.handed t n .wait false ∧ t.port[n].ct.waits = u.port[n].ct.waits + 1 ∧ t.port[n].ct.commit =
      u.port[n].ct.commit ∧ t.port[n].ct.plan = none ∧ t.tt = u.tt) ∧
  (∀ (s u : State) (n : PortId) (m : PdMsg) (r : Rdo) (k : CtKind) (v i im : Nat), s.firstRequest n = true →
      s.takeMsg n isRequest = some (m, false, u) → u.port[n].tc.st.isSource = true → u.port[n].ct.plan ≠ none ∨
      u.port[n].rs.step ≠ .idle → u.port[n].pd.asked m.body = some (r, k, v, i, im) → ∃ t, exec (.request n) s =
      .next t ∧ u.handed t n .wait false ∧ t.port[n].ct = u.port[n].ct ∧ t.tt = u.tt) ∧
  (∀ (s u : State) (n : PortId) (m : PdMsg) (r : Rdo) (k : CtKind) (v i im : Nat), s.firstRequest n = true →
      s.takeMsg n isRequest = some (m, false, u) → u.port[n].tc.st.isSource = true → u.port[n].ct.plan = none →
      u.port[n].rs.step = .idle → u.port[n].pd.asked m.body = some (r, k, v, i, im) → u.port[n].ct.therm = none →
      u.bg.shedding = false → ((max 60 (units v i) : Nat) : Int) - u.kp n ≤ u.headroom → u.port[n].pd.contract = true →
      u.port[n].ct.mv = v → u.kp n = max 60 (units v i) → ∃ t, exec (.request n) s = .next t ∧
      u.handed t n .accept false ∧ t.port[n].ct.commit = max u.port[n].ct.commit (max 60 (units v i)) ∧
      (t.port[n].ct.plan.any fun q => q.v1 = v && q.i10 = i && q.pos = r.pos && q.k = 0 && !q.accepted) = true ∧
      t.port[n].pp.protPend = some (protFor im) ∧ t.port[n].ct.mv = u.port[n].ct.mv) ∧
  (∀ (s u : State) (n : PortId) (m : PdMsg) (r : Rdo) (k : CtKind) (v i im : Nat) (sh : Shape) (e : Fin 256) (f l : CT),
      s.firstRequest n = true → s.takeMsg n isRequest = some (m, false, u) → u.port[n].tc.st.isSource = true →
      u.port[n].ct.plan = none → u.port[n].rs.step = .idle → u.port[n].pd.asked m.body = some (r, k, v, i, im) →
      u.port[n].ct.therm = none → u.bg.shedding = false → ((max 60 (units v i) : Nat) : Int) - u.kp n ≤ u.headroom →
      u.port[n].pd.contract = true → u.port[n].ct.mv ≠ v →
      planShape u.stepBudget (vStepMv (u.pcCfg n)) u.port[n].ct.mv v (units u.port[n].ct.mv u.port[n].ct.i10) (units v i) (decide (k ∈ [CtKind.pps,
      CtKind.avs]) && decide (u.port[n].ct.kind = k)) = sh →
      (u.bookPort n (if sh.isSet then .set else .ramp) 4 (some (u.time.ct + 61440)) sh.step sh.inc).2 = .granted e f l →
      planFits u.time.ct f l sh.limit (tRespTk (u.pcCfg n)) = true → ∃ t, exec (.request n) s = .next t ∧
      u.handed t n .accept false ∧ t.port[n].ct.commit = max u.port[n].ct.commit (max 60 (units v i)) ∧
      (t.port[n].ct.plan.any fun q => q.v0 = u.port[n].ct.mv && q.v1 = v && q.i10 = i && q.pos = r.pos && q.k =
      sh.k && q.fired = 0 && q.entry = some e && !q.accepted) = true ∧ t.port[n].ct.mv = u.port[n].ct.mv) ∧
  (∀ (s : State) (n : PortId), s.firstRequest n = true → s.takeMsg n isRequest = none → ∃ t, exec (.request n) s =
      .next t ∧ t = s) ∧
  (∀ (s u : State) (n : PortId) (m : PdMsg), s.takeMsg n (fun b => b = .eprEnter) = some (m, false, u) → u.eprReason n =
      none → bits u.port[n].pd.cable 23 16 < 20 → ∃ t, exec (.eprModeEnter n) s = .next t ∧ u.handed t n .eprAck false ∧
      t.port[n].pd.eprEntry = true ∧ t.port[n].pd.epr = u.port[n].pd.epr ∧ t.tt = u.tt) ∧
  (∀ (s u : State) (n : PortId) (m : PdMsg) (r : Nat), s.takeMsg n (fun b => b = .eprEnter) = some (m, false, u) →
      u.eprReason n = some r → ∃ t, exec (.eprModeEnter n) s = .next t ∧ u.handed t n (.eprFailed r) false ∧
      t.port[n].pd.epr = u.port[n].pd.epr ∧ t.port[n].pd.eprEntry = u.port[n].pd.eprEntry ∧ t.tt = u.tt) ∧
  (∀ (s u : State) (n : PortId) (m : PdMsg), s.takeMsg n (fun b => b = .eprEnter) = some (m, false, u) → u.eprReason n =
      none → 20 ≤ bits u.port[n].pd.cable 23 16 → ∃ t, exec (.eprModeEnter n) s = .next t ∧ t.port[n].pd.outbox =
      u.port[n].pd.outbox ++
      [{ sop := .sop, body := .eprAck, ams := false, hw := u.port[n].hold && decide (u.port[n].rs.step = .idle) },
      { sop := .sop, body := .eprFailed 4, ams := false, hw := u.port[n].hold && decide (u.port[n].rs.step = .idle) }] ∧
      t.port[n].pd.eprEntry = u.port[n].pd.eprEntry) ∧
  (∀ (s : State) (n : PortId), s.takeMsg n (fun b => b = .eprEnter) = none → ∃ t, exec (.eprModeEnter n) s = .next t ∧
      t = s) ∧
  (∀ (s : State) (n : PortId) (i : Fin 256) (q : Plan), s.dueEntry n.val .ramp = some i → s.port[n].ct.plan = some q →
      s.port[n].pp.trimPend = 0 → s.port[n].pp.lim = 0 → ∃ t, exec (.rampGrant n) s = .next t ∧ t.port[n].ct.plan =
      some { q with fired := q.fired + 1 } ∧ t.port[n].pp.code =
      s.srcCodeQ n ((q.v0 : Rat) + ((q.fired + 1 : Nat) : Rat) * ((q.v1 : Int) - q.v0) / (max 1 q.k : Nat)) s.port[n].pp.trim.toInt ∧
      t.port[n].pp.assist = decide (q.v1 < q.v0) ∧ t.port[n].pp.protPend = none ∧ t.tt = (s.fireEntry i).tt) ∧
  (∀ (s : State) (n : PortId), s.dueEntry n.val .ramp = none → ∃ t, exec (.rampGrant n) s = .next t ∧ t = s) ∧
  (∀ (s : State) (n : PortId) (v : Nat) (q : Plan), s.port[n].ct.plan = some q → q.ended = true → settled q v = true →
      ∃ t, exec (.transitionCheck n v) s = .next t ∧ t.port[n].ct.kind = q.kind ∧ t.port[n].ct.pos = q.pos ∧
      t.port[n].ct.mv = q.v1 ∧ t.port[n].ct.i10 = q.i10 ∧ t.port[n].ct.imax = q.imax ∧ t.port[n].ct.commit = q.newK ∧
      t.port[n].ct.plan = none ∧ t.port[n].pd.contract = true ∧ t.port[n].pp.assist = false ∧ s.handed t n .psRdy false) ∧
  (∀ (s : State) (n : PortId) (v : Nat), (s.port[n].ct.plan.any fun q => q.ended && settled q v) = false → ∃ t,
      exec (.transitionCheck n v) s = .next t ∧ t = s) ∧
  (∀ (s : State) (n : PortId) (q : Plan), s.port[n].ct.plan = some q → q.ended = true → ∃ t, exec (.convFail n) s =
      .next t ∧ t.port[n].ct.convFail = true ∧ t.port[n].pd.hrReq = true ∧ t.port[n].ct.plan = s.port[n].ct.plan ∧ t.tt =
      s.tt) ∧
  (∀ (s : State) (n : PortId), (s.port[n].ct.plan.any Plan.ended) = false → ∃ t, exec (.convFail n) s = .next t ∧ t = s) ∧
  (∀ (s : State) (n : PortId) (x : Nat), s.port[n].ct.shed = true → s.port[n].ct.shedTimer = true → s.port[n].ct.plan =
      none → s.port[n].ct.target = some x → x < s.port[n].ct.commit → ∃ t, exec (.shedTimeout n) s = .next t ∧
      t.port[n].pd.hrReq = true ∧ t.port[n].ct = s.port[n].ct ∧ t.tt = s.tt) ∧
  (∀ (s : State) (n : PortId), s.port[n].ct.shed = false ∨ s.port[n].ct.shedTimer = false ∨ s.port[n].ct.plan ≠ none ∨
      s.port[n].ct.target = none → ∃ t, exec (.shedTimeout n) s = .next t ∧ t = s) ∧
  (∀ (s : State) (n : PortId) (v : Nat), s.port[n].rs.step ≠ .fall → ∃ t, exec (.dischargeAssistEnd n v) s = .next t ∧
      t = s.modPp n fun p => { p with assist := false }) ∧
  (∀ (s : State) (n : PortId) (v : Nat), s.port[n].rs.step = .fall → ∃ t, exec (.dischargeAssistEnd n v) s = .next t ∧
      t = s) ∧
  (∀ (s : State) (n : PortId) (x : Int), s.port[n].ct.therm ≠ none → s.tFet n = some x → x < s.portS16 n 0x32 - 160 →
      ∃ t, exec (.thermalLimitRemove n) s = .next t ∧ t.port[n].ct.therm = none ∧ t.port[n].pp.tWarn = false ∧
      t.port[n].ct.commit = s.port[n].ct.commit ∧ t.port[n].ct.target =
      (if s.bg.shedding then s.port[n].ct.target else none) ∧ t.tt = s.tt) ∧
  (∀ (s : State) (n : PortId), s.port[n].ct.therm = none ∨ s.tFet n = none → ∃ t, exec (.thermalLimitRemove n) s =
      .next t ∧ t = s)

/-- Source_Capabilities to a sink are kept, and the Request for the best object is handed over where no contract stands;
with a contract at another voltage and draw, the draw is booked to code 0 first and the Request waits for it; in
hold-over the engine requests the held object, or asks for Hard Reset where it is not offered. A source takes them and
does nothing, and with none at hand nothing happens. A draw increment that is due moves the draw and its code; the one
that ends a stop hands over what waited for it; none due moves nothing. A stop made again with no draw left hands over
what waited, and only a stop that was refused is made again. What is left of a sink's draw is booked again every second
as far as it fits in the card's input power, not without a sink contract, with the path open or with no room, in steps of
50 W or less. V_sns at or below 0 ends the draw of every port in sink direction at code 0 as a protection action, and not
above 0, core SB lets every port book again a second later, where it runs. Where the manual leaves a point open this
rests on the model's own reading: log entry 136. -/
def Obligations.SinkContracts : Prop :=
  (∀ (s u : State) (n : PortId) (m : PdMsg) (r : Rdo), s.takeMsg n isCaps = some (m, false, u) →
      u.port[n].tc.st.isSource = false → u.sinkAsk n (capsObjs m.body) = some r → u.port[n].pd.contract = false → ∃ t,
      exec (.sourceCapabilities n) s = .next t ∧ t.port[n].pd.partnerObjs = capsObjs m.body ∧ t.port[n].pd.reqSent =
      some r ∧ u.handed t n (.request r) false ∧ t.port[n].ct = u.port[n].ct ∧ t.tt = u.tt) ∧
  (∀ (s u : State) (n : PortId) (m : PdMsg) (r : Rdo), s.takeMsg n isCaps = some (m, false, u) →
      u.port[n].tc.st.isSource = false → u.sinkAsk n (capsObjs m.body) = some r → u.port[n].pd.contract = true → r.mv ≠
      u.port[n].ct.mv → u.port[n].rs.stby = false → 0 < u.port[n].ct.draw →
      (((u.cancelKind n .sink).bookPort n .sink 4 none u.port[n].ct.draw (if u.port[n].ct.draw ≤ u.stepBudget then 0 else 200)).2.ok) =
      true → ∃ t, exec (.sourceCapabilities n) s = .next t ∧ t.port[n].ct.stopFor = some (.request r) ∧
      t.port[n].ct.stopRetry = false ∧ t.port[n].ct.intended = 0 ∧ u.handedNone t n ∧ t.port[n].ct.draw =
      u.port[n].ct.draw) ∧
  (∀ (s u : State) (n : PortId) (m : PdMsg), s.takeMsg n isCaps = some (m, true, u) → u.port[n].tc.st.isSource = false →
      ∃ t, exec (.sourceCapabilities n) s = .next t ∧ (if u.heldOk n (capsObjs m.body) =
      true then u.handed t n (.request { pos := u.port[n].ct.pos, opI := u.port[n].ct.i10, maxI := u.port[n].ct.i10, mv := u.port[n].ct.mv, eprCapable := false }) false else t.port[n].pd.hrReq =
      true) ∧ t.port[n].ct = u.port[n].ct) ∧
  (∀ (s u : State) (n : PortId) (m : PdMsg), s.takeMsg n isCaps = some (m, false, u) → u.port[n].tc.st.isSource = true →
      ∃ t, exec (.sourceCapabilities n) s = .next t ∧ t = u) ∧
  (∀ (s : State) (n : PortId), s.takeMsg n isCaps = none → ∃ t, exec (.sourceCapabilities n) s = .next t ∧ t = s) ∧
  (∀ (s : State) (n : PortId) (i : Fin 256) (e : Entry) (a : CT) (p : Int), s.dueEntry n.val .sink = some i →
      s.tt.entries[i] = some e → e.todo.head? = some (a, p) → s.port[n].ct.stopFor = none → ∃ t, exec (.sinkGrant n) s =
      .next t ∧ t.port[n].ct.draw = ((s.port[n].ct.draw : Int) - p).toNat ∧ t.port[n].pp.code =
      s.snkCode n ((s.port[n].ct.draw : Int) - p).toNat ∧ s.handedNone t n ∧ t.tt = (s.fireEntry i).tt) ∧
  (∀ (s : State) (n : PortId) (i : Fin 256) (e : Entry) (a : CT) (p : Int) (b : PdBody), s.dueEntry n.val .sink =
      some i → s.tt.entries[i] = some e → e.todo.head? = some (a, p) → s.port[n].ct.stopFor = some b →
      ((s.port[n].ct.draw : Int) - p).toNat = 0 → s.port[n].ct.stopRetry = false → (s.fireEntry i).sinkPending n = 0 →
      s.port[n].pd.reqSent = none → s.port[n].rs.leaving = false → ∃ t, exec (.sinkGrant n) s = .next t ∧
      t.port[n].ct.draw = 0 ∧ t.port[n].ct.stopFor = none ∧ s.handed t n b (decide (b = .prSwap))) ∧
  (∀ (s : State) (n : PortId), s.dueEntry n.val .sink = none → ∃ t, exec (.sinkGrant n) s = .next t ∧ t = s) ∧
  (∀ (s : State) (n : PortId) (b : PdBody), s.port[n].ct.stopFor = some b → s.port[n].ct.stopRetry = true →
      s.port[n].ct.draw = 0 → ∃ t, exec (.sinkStopRetry n) s = .next t ∧ t.port[n].ct.stopFor = none ∧
      t.port[n].ct.stopRetry = false ∧ t.port[n].ct.intended = 0 ∧ s.handed t n b (decide (b = .prSwap))) ∧
  (∀ (s : State) (n : PortId), s.port[n].ct.stopFor = none ∨ s.port[n].ct.stopRetry = false → ∃ t,
      exec (.sinkStopRetry n) s = .next t ∧ t = s) ∧
  (∀ (s : State) (n : PortId), s.sbUp = false ∨ s.port[n].ct.kind ≠ .sinkFixed ∨ s.port[n].pp.st ≠ .closed ∨ s.sinkRoom =
      0 → ∃ t, exec (.sinkPartialRebook n) s = .next t ∧ t = s) ∧
  (∀ (s : State) (n : PortId), s.sbUp = true → s.port[n].ct.kind = .sinkFixed → s.port[n].pp.st = .closed →
      s.port[n].pp.sink = true → s.port[n].rs.stby = false → s.port[n].rs.leaving = false → s.port[n].ct.regenHold =
      false → s.port[n].rs.step = .idle → s.port[n].ct.stopFor = none → s.port[n].pd.reqSent = none →
      0 < min (s.port[n].ct.intended - (s.port[n].ct.draw + s.sinkPending n)) s.sinkRoom → ∃ t,
      exec (.sinkPartialRebook n) s = .next t ∧ t =
      (s.bookPort n .sink 4 none (-((min (s.port[n].ct.intended - (s.port[n].ct.draw + s.sinkPending n)) s.sinkRoom : Nat) : Int)) 200).1) ∧
  (∀ (s : State) (v : Int) (n : PortId), v ≤ 0 → s.sup.hvUp = true → s.port[n].pp.sink = true → ∃ t,
      exec (.regenStop v) s = .next t ∧ t.bg.regenStop = true ∧ t.port[n].ct.draw = 0 ∧ t.port[n].ct.regenHold = true ∧
      t.port[n].pp.code = 0 ∧ (∀ i : Fin 256, (t.tt.entries[i].any fun e => e.owner = n.val && e.rises) = false) ∧
      t.claim = s.claim) ∧
  (∀ (s : State) (v : Int), 0 < v ∨ s.sup.hvUp = false → ∃ t, exec (.regenStop v) s = .next t ∧ t = s) ∧
  (∀ (s : State) (n : PortId), s.sbUp = true → ∃ t, exec (.regenRebook) s = .next t ∧ t.port[n].ct.regenHold = false ∧
      t.claim = s.claim) ∧
  (∀ (s : State), s.sbUp = false → ∃ t, exec (.regenRebook) s = .next t ∧ t = s)

/-- A PR_Swap in hold-over, or that the port cannot take up, is answered Wait, one that RS_CFG does not accept Reject. A
sink without draw accepts and begins the swap to source, a source whose power fits and whose ROLE is booked in time
accepts and begins the swap to sink; any other source answers Wait. A DR_Swap is accepted and begins, where RS_CFG
accepts it, in a mode asks for Hard Reset, else is rejected, and in hold-over, or where it cannot be taken up, answered
Wait. A VCONN_Swap is accepted to take VCONN over where there is room, and to give it up, rejected where RS_CFG does not
accept it, and else answered Wait. An FR_Swap that the Station's signal called for is accepted; one that no swap is about
is not supported, and one in another swap answered Wait. None of them happens without its message. In a contract the
Station asks once for the data role it prefers, once for the power role, and, before it asks the cable, for VCONN; where
it wants none, or cannot, it asks for none. Where the manual leaves a point open this rests on the model's own reading:
log entry 48. -/
def Obligations.SwapRequests : Prop :=
  (∀ (s u : State) (n : PortId) (m : PdMsg) (e : Bool), s.takeMsg n (fun b => b = .prSwap) = some (m, e, u) → e = true ∨
      u.swapFree n = false → ∃ t, exec (.prSwap n) s = .next t ∧ u.handed t n .wait false ∧ t.port[n].rs = u.port[n].rs ∧
      t.tt = u.tt) ∧
  (∀ (s u : State) (n : PortId) (m : PdMsg) (e : Bool), s.takeMsg n (fun b => b = .prSwap) = some (m, e, u) → e = false →
      u.swapFree n = true → prsAcc (u.rsCfg n) = false → ∃ t, exec (.prSwap n) s = .next t ∧ u.handed t n .reject false ∧
      t.port[n].rs = u.port[n].rs ∧ t.tt = u.tt) ∧
  (∀ (s u : State) (n : PortId) (m : PdMsg) (e : Bool), s.takeMsg n (fun b => b = .prSwap) = some (m, e, u) → e = false →
      u.swapFree n = true → prsAcc (u.rsCfg n) = true → u.port[n].tc.st = .attSnk → u.port[n].ct.draw = 0 → ∃ t,
      exec (.prSwap n) s = .next t ∧ u.handed t n .accept false ∧ t.port[n].rs.code = .prSnkSrc ∧ t.port[n].rs.step =
      .accepting ∧ t.port[n].rs.pr = u.port[n].rs.pr) ∧
  (∀ (s u : State) (n : PortId) (m : PdMsg) (e : Bool), s.takeMsg n (fun b => b = .prSwap) = some (m, e, u) → e = false →
      u.swapFree n = true → prsAcc (u.rsCfg n) = true → u.port[n].tc.st = .attSrc → u.pMeasFits n = true →
      (u.bookRoleOff n 61440 73728).isSome = true → ∃ t, exec (.prSwap n) s = .next t ∧ u.handed t n .accept false ∧
      t.port[n].rs.code = .prSrcSnk ∧ t.port[n].rs.step = .accepting ∧ t.port[n].rs.entry.isSome = true ∧
      t.port[n].rs.pr = u.port[n].rs.pr) ∧
  (∀ (s u : State) (n : PortId) (m : PdMsg) (e : Bool), s.takeMsg n (fun b => b = .prSwap) = some (m, e, u) → e = false →
      u.swapFree n = true → prsAcc (u.rsCfg n) = true → u.port[n].tc.st = .attSrc → u.pMeasFits n = false ∨
      u.bookRoleOff n 61440 73728 = none → ∃ t, exec (.prSwap n) s = .next t ∧ u.handed t n .wait false ∧ t.port[n].rs =
      u.port[n].rs) ∧
  (∀ (s : State) (n : PortId), s.takeMsg n (fun b => b = .prSwap) = none → ∃ t, exec (.prSwap n) s = .next t ∧ t = s) ∧
  (∀ (s u : State) (n : PortId) (m : PdMsg) (e : Bool), s.takeMsg n (fun b => b = .drSwap) = some (m, e, u) → e = false →
      u.swapFree n = true → u.port[n].alt.mode = .none → drsAcc (u.rsCfg n) = true → ∃ t, exec (.drSwap n) s = .next t ∧
      u.handed t n .accept false ∧ t.port[n].rs.code = .dr ∧ t.port[n].rs.step = .accepting ∧ t.port[n].rs.dr =
      u.port[n].rs.dr ∧ t.tt = u.tt) ∧
  (∀ (s u : State) (n : PortId) (m : PdMsg) (e : Bool), s.takeMsg n (fun b => b = .drSwap) = some (m, e, u) → e = false →
      u.swapFree n = true → u.port[n].alt.mode ≠ .none → ∃ t, exec (.drSwap n) s = .next t ∧ t.port[n].pd.hrReq = true ∧
      u.handedNone t n ∧ t.port[n].rs = u.port[n].rs ∧ t.tt = u.tt) ∧
  (∀ (s u : State) (n : PortId) (m : PdMsg) (e : Bool), s.takeMsg n (fun b => b = .drSwap) = some (m, e, u) → e = false →
      u.swapFree n = true → u.port[n].alt.mode = .none → drsAcc (u.rsCfg n) = false → ∃ t, exec (.drSwap n) s = .next t ∧
      u.handed t n .reject false ∧ t.port[n].rs = u.port[n].rs ∧ t.tt = u.tt) ∧
  (∀ (s u : State) (n : PortId) (m : PdMsg) (e : Bool), s.takeMsg n (fun b => b = .drSwap) = some (m, e, u) → e = true ∨
      u.swapFree n = false → ∃ t, exec (.drSwap n) s = .next t ∧ u.handed t n .wait false ∧ t.port[n].rs = u.port[n].rs ∧
      t.tt = u.tt) ∧
  (∀ (s : State) (n : PortId), s.takeMsg n (fun b => b = .drSwap) = none → ∃ t, exec (.drSwap n) s = .next t ∧ t = s) ∧
  (∀ (s u : State) (n : PortId) (m : PdMsg) (e : Bool), s.takeMsg n (fun b => b = .vconnSwap) = some (m, e, u) → e =
      false → u.swapFree n = true → vcsAcc (u.rsCfg n) = true → u.port[n].tc.vconnOn = false → u.vconnRoom n = true →
      ∃ t, exec (.vconnSwap n) s = .next t ∧ u.handed t n .accept false ∧ t.port[n].rs.code = .vconnOn ∧
      t.port[n].rs.step = .accepting ∧ t.port[n].tc.vconnOn = false ∧ t.tt = u.tt) ∧
  (∀ (s u : State) (n : PortId) (m : PdMsg) (e : Bool), s.takeMsg n (fun b => b = .vconnSwap) = some (m, e, u) → e =
      false → u.swapFree n = true → vcsAcc (u.rsCfg n) = true → u.port[n].tc.vconnOn = true → ∃ t,
      exec (.vconnSwap n) s = .next t ∧ u.handed t n .accept false ∧ t.port[n].rs.code = .vconnOff ∧ t.port[n].rs.step =
      .accepting ∧ t.port[n].tc.vconnOn = true ∧ t.tt = u.tt) ∧
  (∀ (s u : State) (n : PortId) (m : PdMsg) (e : Bool), s.takeMsg n (fun b => b = .vconnSwap) = some (m, e, u) → e =
      false → u.swapFree n = true → vcsAcc (u.rsCfg n) = false → ∃ t, exec (.vconnSwap n) s = .next t ∧
      u.handed t n .reject false ∧ t.port[n].rs = u.port[n].rs ∧ t.tt = u.tt) ∧
  (∀ (s u : State) (n : PortId) (m : PdMsg) (e : Bool), s.takeMsg n (fun b => b = .vconnSwap) = some (m, e, u) → e =
      true ∨ u.swapFree n = false ∨ (vcsAcc (u.rsCfg n) = true ∧ u.port[n].tc.vconnOn = false ∧ u.vconnRoom n = false) →
      ∃ t, exec (.vconnSwap n) s = .next t ∧ u.handed t n .wait false ∧ t.port[n].rs = u.port[n].rs ∧ t.tt = u.tt) ∧
  (∀ (s : State) (n : PortId), s.takeMsg n (fun b => b = .vconnSwap) = none → ∃ t, exec (.vconnSwap n) s = .next t ∧ t =
      s) ∧
  (∀ (s u : State) (n : PortId) (m : PdMsg) (e : Bool), s.takeMsg n (fun b => b = .frSwap) = some (m, e, u) →
      u.port[n].rs.code = .frsSource → u.port[n].rs.step = .frWait ∨ u.port[n].rs.step = .signal → ∃ t,
      exec (.frSwap n) s = .next t ∧ u.handed t n .accept false ∧ t.port[n].rs.step = .accepting ∧ t.port[n].rs.code =
      .frsSource ∧ t.tt = u.tt) ∧
  (∀ (s u : State) (n : PortId) (m : PdMsg) (e : Bool), s.takeMsg n (fun b => b = .frSwap) = some (m, e, u) →
      u.port[n].rs.step = .idle → ∃ t, exec (.frSwap n) s = .next t ∧ u.handed t n (u.notSup n .sop) false ∧
      t.port[n].rs = u.port[n].rs ∧ t.tt = u.tt) ∧
  (∀ (s u : State) (n : PortId) (m : PdMsg) (e : Bool), s.takeMsg n (fun b => b = .frSwap) = some (m, e, u) →
      u.port[n].rs.step ≠ .idle → u.port[n].rs.code ≠ .frsSource → ∃ t, exec (.frSwap n) s = .next t ∧
      u.handed t n .wait false ∧ t.port[n].rs = u.port[n].rs ∧ t.tt = u.tt) ∧
  (∀ (s : State) (n : PortId), s.takeMsg n (fun b => b = .frSwap) = none → ∃ t, exec (.frSwap n) s = .next t ∧ t = s) ∧
  (∀ (s : State) (n : PortId), s.served n = true → s.swapFree n = true → s.port[n].pd.contract = true →
      s.plat[platOf n].fallback = false → s.swapWanted n .data = true → ∃ t, exec (.swapStart n .data) s = .next t ∧
      s.handed t n .drSwap true ∧ t.port[n].rs.code = .dr ∧ t.port[n].rs.step = .asked ∧ t.port[n].rs.prefDr = true ∧
      t.port[n].rs.dr = s.port[n].rs.dr ∧ t.tt = s.tt) ∧
  (∀ (s : State) (n : PortId), s.served n = true → s.swapFree n = true → s.port[n].pd.contract = true →
      s.plat[platOf n].fallback = false → s.swapWanted n .power = true → s.port[n].tc.st = .attSrc → ∃ t,
      exec (.swapStart n .power) s = .next t ∧ s.handed t n .prSwap true ∧ t.port[n].rs.code = .prSrcSnk ∧
      t.port[n].rs.step = .asked ∧ t.port[n].rs.prefPr = true ∧ t.tt = s.tt) ∧
  (∀ (s : State) (n : PortId), s.served n = true → s.swapFree n = true → s.plat[platOf n].fallback = false →
      s.swapWanted n .vconn = true → ∃ t, exec (.swapStart n .vconn) s = .next t ∧ s.handed t n .vconnSwap true ∧
      t.port[n].rs.code = .vconnOn ∧ t.port[n].rs.step = .asked ∧ t.tt = s.tt) ∧
  (∀ (s : State) (n : PortId) (k : SwapKind), s.swapWanted n k = false ∨ s.served n = false ∨ s.swapFree n = false ∨
      s.plat[platOf n].fallback = true → ∃ t, exec (.swapStart n k) s = .next t ∧ t = s)

/-- The ROLE grant of a swap to sink ends the contract and lets VBUS fall with code 0 and the discharge assist; that of
one to source closes the open path at 5 V, as a PATH grant does, where it may close; that of no swap enters FRS standby,
with the source direction at 4.75 V, where its conditions still hold, and does nothing where they do not, or leaves it
again. With none due there is none. The partner's PS_RDY makes the port that has let VBUS fall a sink, with its
attach-time role, lets it give VCONN up, ends a Fast Role Swap to sink, lets a sink present Rp, end its contract and book
its ROLE, and puts the sink contract of a Request in force. One that nothing awaits is taken and does nothing. VBUS of a
rising port within 4.75 to 5.50 V makes the new source and hands PS_RDY over, outside that nothing. In a Fast Role Swap
it does so too, with the protection of the FRS current. VCONN at 4.75 V in its swap is answered with PS_RDY, short of it
not; one that is not reached in time fails the swap and asks for Hard Reset, in that step alone. The time of a rising
port ends its swap in ERR_RECOV, of no other; the time for the partner's Accept or PS_RDY does so too, but in a VCONN
swap it asks for Hard Reset; a fall that does not end sets DSG_FAIL and fails the port's discharge test, and in no other
step is there such a time. A booking is made again only where it was refused: the SET of an opening, but none for a port
that waits for none or whose core does not run, and the ROLE of a rising port. Where the manual leaves a point open this
rests on the model's own reading: log entries 44, 47, 48. -/
def Obligations.TheTurntable : Prop :=
  (∀ (s : State) (n : PortId) (i : Fin 256), s.dueEntry n.val .role = some i → s.port[n].rs.entry = some i →
      s.port[n].rs.leaving = false → s.port[n].rs.code = .prSrcSnk → ∃ t, exec (.roleGrant n) s = .next t ∧
      t.port[n].rs.step = .fall ∧ t.port[n].rs.entry = none ∧ t.port[n].pp.code = 0 ∧ t.port[n].pp.assist = true ∧
      t.port[n].pp.st = s.port[n].pp.st ∧ t.port[n].pd.contract = false ∧ t.port[n].ct.kind = .none) ∧
  (∀ (s : State) (n : PortId) (i : Fin 256), s.dueEntry n.val .role = some i → s.port[n].rs.entry = some i →
      s.port[n].rs.leaving = false → s.port[n].rs.code = .prSnkSrc → s.port[n].pp.st = .opn → s.mayClose n = true →
      s.port[n].pp.cpg = true → ∃ t, exec (.roleGrant n) s = .next t ∧ t.port[n].pp.st = .closing ∧ t.port[n].pp.code =
      s.srcCode n 5000 s.port[n].pp.trim.toInt ∧ t.port[n].rs.entry = none ∧ t.port[n].tc = s.port[n].tc ∧ t.tt =
      (s.fireEntry i).tt) ∧
  (∀ (s : State) (n : PortId) (i : Fin 256), s.dueEntry n.val .role = some i → s.port[n].rs.entry = some i →
      s.port[n].rs.leaving = false → s.port[n].rs.code = .prSnkSrc → s.port[n].pp.st ≠ .opn ∨ s.mayClose n = false → ∃ t,
      exec (.roleGrant n) s = .next t ∧ t.port[n].pp.st = s.port[n].pp.st ∧ t.port[n].rs.entry = none ∧ t.tt =
      (s.fireEntry i).tt) ∧
  (∀ (s : State) (n : PortId) (i : Fin 256), s.dueEntry n.val .role = some i → s.port[n].rs.entry = some i →
      s.port[n].rs.leaving = false → s.port[n].rs.code = .none → (s.fireEntry i).standbyFits n = true → ∃ t,
      exec (.roleGrant n) s = .next t ∧ t.port[n].rs.stby = true ∧ t.port[n].pp.sink = false ∧ t.port[n].rs.entry =
      none ∧ t.port[n].pp.code = s.srcCode n 4750 s.port[n].pp.trim.toInt ∧ t.port[n].pp.prot =
      protFor (rpMa (s.port[n].rs.frsCur.toNat - 1)) ∧ t.tt = (s.fireEntry i).tt) ∧
  (∀ (s : State) (n : PortId) (i : Fin 256), s.dueEntry n.val .role = some i → s.port[n].rs.entry = some i →
      s.port[n].rs.leaving = false → s.port[n].rs.code = .none → (s.fireEntry i).standbyFits n = false → ∃ t,
      exec (.roleGrant n) s = .next t ∧ t.port[n].rs = { s.port[n].rs with entry := none } ∧ t.port[n].pp =
      s.port[n].pp ∧ t.port[n].ct = s.port[n].ct ∧ t.tt = (s.fireEntry i).tt) ∧
  (∀ (s : State) (n : PortId) (i : Fin 256), s.dueEntry n.val .role = some i → s.port[n].rs.entry = some i →
      s.port[n].rs.leaving = true → ∃ t, exec (.roleGrant n) s = .next t ∧ t.port[n].rs.stby = false ∧
      t.port[n].rs.leaving = false ∧ t.port[n].pp.sink = true ∧ t.port[n].pp.code = s.snkCode n 0 ∧ t.port[n].rs.entry =
      none ∧ t.port[n].ct.stopFor = none ∧ t.tt = (s.fireEntry i).tt) ∧
  (∀ (s : State) (n : PortId), s.dueEntry n.val .role = none → ∃ t, exec (.roleGrant n) s = .next t ∧ t = s) ∧
  (∀ (s u : State) (n : PortId) (m : PdMsg) (e : Bool), s.takeMsg n (fun b => b = .psRdy) = some (m, e, u) →
      u.port[n].rs.step = .partnerRdy → u.port[n].rs.code = .prSrcSnk → ∃ t, exec (.psRdy n) s = .next t ∧
      t.port[n].tc.st = .attSnk ∧ t.port[n].tc.rpOffer = 0 ∧ t.port[n].rs.pr = .sink ∧ t.port[n].rs.basePr = .sink ∧
      t.port[n].rs.step = .idle ∧ t.port[n].rs.code = .none) ∧
  (∀ (s u : State) (n : PortId) (m : PdMsg) (e : Bool), s.takeMsg n (fun b => b = .psRdy) = some (m, e, u) →
      u.port[n].rs.step = .partnerRdy → u.port[n].rs.code = .vconnOff → ∃ t, exec (.psRdy n) s = .next t ∧
      t.port[n].rs.vc = false ∧ t.port[n].tc.vconnOn = false ∧ t.port[n].rs.partnerVc = true ∧ t.port[n].rs.step =
      .idle ∧ t.port[n].rs.code = .none) ∧
  (∀ (s u : State) (n : PortId) (m : PdMsg) (e : Bool), s.takeMsg n (fun b => b = .psRdy) = some (m, e, u) →
      u.port[n].rs.step = .partnerRdy → u.port[n].rs.code = .frsSource → ∃ t, exec (.psRdy n) s = .next t ∧
      t.port[n].tc.st = .attSnk ∧ t.port[n].rs.pr = .sink ∧ t.port[n].rs.frsDone = true ∧ t.port[n].rs.step = .idle ∧
      t.port[n].rs.code = .none) ∧
  (∀ (s u : State) (n : PortId) (m : PdMsg) (e : Bool), s.takeMsg n (fun b => b = .psRdy) = some (m, e, u) →
      u.port[n].rs.step = .partnerRdy → u.port[n].rs.code = .prSnkSrc → u.hs.warn = false → ∃ t, exec (.psRdy n) s =
      .next t ∧ t.port[n].rs.step = .rise ∧ t.port[n].pp.sink = false ∧ t.port[n].tc.rpOffer = t.port[n].tc.rpLevel ∧
      t.port[n].pd.contract = false ∧ (t.port[n].rs.entry.isSome = true ∨ t.port[n].rs.retry = true)) ∧
  (∀ (s u : State) (n : PortId) (m : PdMsg) (e : Bool) (r : Rdo), s.takeMsg n (fun b => b = .psRdy) = some (m, e, u) →
      u.port[n].rs.step = .idle → u.port[n].pd.reqSent = some r → ∃ t, exec (.psRdy n) s = .next t ∧ t.port[n].ct.kind =
      .sinkFixed ∧ t.port[n].ct.pos = r.pos ∧ t.port[n].ct.mv = r.mv ∧ t.port[n].ct.i10 = r.opI ∧ t.port[n].pd.contract =
      true ∧ t.port[n].pp.prot = protFor (10 * r.opI) ∧ (s.port[n].ct.stopFor = none → t.port[n].pd.reqSent = none)) ∧
  (∀ (s u : State) (n : PortId) (m : PdMsg) (e : Bool), s.takeMsg n (fun b => b = .psRdy) = some (m, e, u) →
      u.port[n].rs.step = .idle → u.port[n].pd.reqSent = none → ∃ t, exec (.psRdy n) s = .next t ∧ t = u) ∧
  (∀ (s : State) (n : PortId), s.takeMsg n (fun b => b = .psRdy) = none → ∃ t, exec (.psRdy n) s = .next t ∧ t = s) ∧
  (∀ (s : State) (n : PortId) (v : Nat), s.port[n].rs.step = .rise → 4750 ≤ v → v ≤ 5500 → s.port[n].rs.code =
      .prSnkSrc → s.port[n].pp.st = .closing ∨ s.port[n].pp.st = .closed → s.port[n].rs.entry = none →
      s.port[n].rs.retry = false → ∃ t, exec (.newSourceVbusReady n v) s = .next t ∧ t.port[n].tc.st = .attSrc ∧
      t.port[n].rs.pr = .source ∧ t.port[n].rs.basePr = .source ∧ t.port[n].ct.kind = .typeC ∧ t.port[n].ct.mv = 5000 ∧
      s.handed t n .psRdy false ∧ t.port[n].rs.step = .idle ∧ t.port[n].rs.code = .none) ∧
  (∀ (s : State) (n : PortId) (v : Nat), s.port[n].rs.step ≠ .rise ∨ v < 4750 ∨ 5500 < v → ∃ t,
      exec (.newSourceVbusReady n v) s = .next t ∧ t = s) ∧
  (∀ (s : State) (n : PortId) (v : Nat), s.port[n].rs.step = .rise → 4750 ≤ v → v ≤ 5500 → s.port[n].rs.code = .frsSink →
      ∃ t, exec (.newSourceVbusReady n v) s = .next t ∧ t.port[n].tc.st = .attSrc ∧ t.port[n].rs.pr = .source ∧
      t.port[n].rs.frsDone = true ∧ t.port[n].pp.prot = protFor (rpMa (s.port[n].rs.frsCur.toNat - 1)) ∧
      s.handed t n .psRdy false ∧ t.port[n].rs.step = .idle ∧ t.port[n].rs.code = .none) ∧
  (∀ (s : State) (n : PortId) (v : Nat), s.port[n].rs.code = .vconnOn → s.port[n].rs.step = .rise → 4750 ≤ v → ∃ t,
      exec (.vconnSourceReached n v) s = .next t ∧ t.port[n].rs.step = .psRdy ∧ t.port[n].rs.code = .vconnOn ∧
      s.handed t n .psRdy false ∧ t.tt = s.tt) ∧
  (∀ (s : State) (n : PortId) (v : Nat), s.port[n].rs.code ≠ .vconnOn ∨ s.port[n].rs.step ≠ .rise ∨ v < 4750 → ∃ t,
      exec (.vconnSourceReached n v) s = .next t ∧ t = s) ∧
  (∀ (s : State) (n : PortId), s.port[n].rs.code = .vconnOn → s.port[n].rs.step = .rise → ∃ t,
      exec (.vconnSwapFail n) s = .next t ∧ t.port[n].pd.hrReq = true ∧ t.port[n].rs.fail = true ∧ t.port[n].rs.step =
      .rise ∧ t.tt = s.tt) ∧
  (∀ (s : State) (n : PortId), s.port[n].rs.code ≠ .vconnOn ∨ s.port[n].rs.step ≠ .rise → ∃ t,
      exec (.vconnSwapFail n) s = .next t ∧ t = s) ∧
  (∀ (s : State) (n : PortId), s.port[n].tc.st.attached = true → s.port[n].rs.code = .prSnkSrc → s.port[n].rs.step =
      .rise → ∃ t, exec (.prSwapRoleTimeout n) s = .next t ∧ t.port[n].rs.fail = true ∧ t.port[n].tc.st = .errRecov ∧
      t.port[n].rs.step = .idle ∧ t.port[n].rs.code = .none ∧ t.port[n].pd.contract = false) ∧
  (∀ (s : State) (n : PortId), s.port[n].rs.code ≠ .prSnkSrc ∨ s.port[n].rs.step ≠ .rise → ∃ t,
      exec (.prSwapRoleTimeout n) s = .next t ∧ t = s) ∧
  (∀ (s : State) (n : PortId), s.port[n].tc.st.attached = true → s.port[n].rs.step = .frAccept ∨ s.port[n].rs.step =
      .partnerRdy ∧ s.port[n].rs.code ≠ .vconnOff → ∃ t, exec (.turntableTimeout n) s = .next t ∧ t.port[n].rs.fail =
      true ∧ t.port[n].tc.st = .errRecov ∧ t.port[n].rs.step = .idle ∧ t.port[n].rs.code = .none) ∧
  (∀ (s : State) (n : PortId), s.port[n].rs.step = .partnerRdy → s.port[n].rs.code = .vconnOff → ∃ t,
      exec (.turntableTimeout n) s = .next t ∧ t.port[n].rs.fail = true ∧ t.port[n].pd.hrReq = true ∧ t.port[n].rs.step =
      .partnerRdy ∧ t.tt = s.tt) ∧
  (∀ (s : State) (n : PortId), s.port[n].rs.step = .fall → ∃ t, exec (.turntableTimeout n) s = .next t ∧
      t.port[n].pp.dsgFail = true ∧ t.port[n].tc.st = .disabled ∧ t.port[n].ms.tests = s.port[n].ms.tests ||| 4) ∧
  (∀ (s : State) (n : PortId), s.port[n].rs.step ≠ .fall → s.port[n].rs.step ≠ .partnerRdy → s.port[n].rs.step ≠
      .frAccept → ∃ t, exec (.turntableTimeout n) s = .next t ∧ t = s) ∧
  (∀ (s : State) (n : PortId), s.port[n].tc.opening ≠ .retry → s.port[n].rs.retry = false → ∃ t,
      exec (.bookingRetry n) s = .next t ∧ t = s) ∧
  (∀ (s : State) (n : PortId), s.port[n].tc.opening = .retry → s.port[n].rs.retry = false → s.coreRuns n = true → ∃ t,
      exec (.bookingRetry n) s = .next t ∧ t = s.openBook n) ∧
  (∀ (s : State) (n : PortId), s.port[n].rs.retry = false → s.port[n].tc.opening ≠ .retry ∨ s.coreRuns n = false → ∃ t,
      exec (.bookingRetry n) s = .next t ∧ t = s) ∧
  (∀ (s : State) (n : PortId), s.port[n].tc.opening ≠ .retry → s.port[n].rs.code = .prSnkSrc → s.port[n].rs.step =
      .rise → s.port[n].rs.retry = true → ∃ t, exec (.bookingRetry n) s = .next t ∧ t = s.bookRoleOn n)

/-- The end of the Station's signal awaits FR_Swap, in no other step; where none comes no swap took place, which is so in
that step alone. A signal recognised in standby sends FR_Swap and awaits its answer, the port's bookings cancelled, and
outside standby is none; one that does not come asks for Hard Reset, in standby alone. A CC pin below 0.201 V in standby
detaches to UNATT_SNK, at or above it, or outside standby, not. Where the manual leaves a point open this rests on the
model's own reading: log entries 45, 46, 49. -/
def Obligations.FastRoleSwap : Prop :=
  (∀ (s : State) (n : PortId), s.port[n].rs.code = .frsSource → s.port[n].rs.step = .signal → ∃ t,
      exec (.frsSignalEnd n) s = .next t ∧ t = s.modRs n fun r => { r with step := .frWait }) ∧
  (∀ (s : State) (n : PortId), s.port[n].rs.code ≠ .frsSource ∨ s.port[n].rs.step ≠ .signal → ∃ t,
      exec (.frsSignalEnd n) s = .next t ∧ t = s) ∧
  (∀ (s : State) (n : PortId), s.port[n].rs.code = .frsSource → s.port[n].rs.step = .frWait → ∃ t,
      exec (.frSwapWait n) s = .next t ∧ t = s.modRs n fun r =>
      { r with code := .none, step := .idle, kind := none, entry := none }) ∧
  (∀ (s : State) (n : PortId), s.port[n].rs.code ≠ .frsSource ∨ s.port[n].rs.step ≠ .frWait → ∃ t,
      exec (.frSwapWait n) s = .next t ∧ t = s) ∧
  (∀ (s : State) (n : PortId), s.port[n].rs.stby = true → s.port[n].rs.step = .idle → ∃ t, exec (.frsSignal n) s =
      .next t ∧ t.port[n].rs.code = .frsSink ∧ t.port[n].rs.step = .frAccept ∧ t.port[n].rs.stby = false ∧
      s.handed t n .frSwap false ∧ t.port[n].pp = s.port[n].pp ∧ (∀ i : Fin 256, (t.tt.entries[i].any fun e => e.owner =
      n.val) = false)) ∧
  (∀ (s : State) (n : PortId), s.port[n].rs.stby = false ∨ s.port[n].rs.step ≠ .idle → ∃ t, exec (.frsSignal n) s =
      .next t ∧ t = s) ∧
  (∀ (s : State) (n : PortId), s.port[n].rs.stby = true → ∃ t, exec (.frsNosig n) s = .next t ∧ t.port[n].rs.nosig =
      true ∧ t.port[n].pd.hrReq = true ∧ t.port[n].pp = s.port[n].pp ∧ t.port[n].tc = s.port[n].tc ∧ t.tt = s.tt) ∧
  (∀ (s : State) (n : PortId), s.port[n].rs.stby = false → ∃ t, exec (.frsNosig n) s = .next t ∧ t = s) ∧
  (∀ (s : State) (n : PortId) (v : Nat), s.port[n].rs.stby = true → v < 201 → ∃ t, exec (.frsStandbyDetach n v) s =
      .next t ∧ t.port[n].tc.st = (if roleOf (s.tcCfg n) = 3 then .disabled else .unattSnk) ∧ t.port[n].pd.contract =
      false ∧ t.port[n].rs.pr = .none ∧ t.port[n].rs.stby = false) ∧
  (∀ (s : State) (n : PortId) (v : Nat), s.port[n].rs.stby = false ∨ 201 ≤ v → ∃ t, exec (.frsStandbyDetach n v) s =
      .next t ∧ t = s)

/-- In its contract, with no swap wanted and modes allowed, a port starts discovery once per attach with Discover
Identity; short of any of these it does not. An identity answered leads to Discover SVIDs, a list with DisplayPort to
Discover Modes, the modes, where none is allowed any more, to the end of discovery, Enter Mode, where the mode is still
allowed, to the mode with its pin assignment and the script SAFE, and else to Exit Mode, or, of a port that is UFP by
then, to nothing entered, the status to HPD and the configuration, the configuration to the mounted mode, and Exit Mode
to the end of the mode. An answer to Enter Mode that is no ACK fails the entry until detach, (with no answer at hand
nothing happens) and so does none in time, counted from the GoodCRC, to it or to Enter_USB; none in time to Exit Mode
ends the mode as well, but where the port's core does not serve it, or no such timer runs, nothing happens. Attention in
hold-over is answered BUSY and its content lost, in DisplayPort mode it reports HPD, in no mode it is taken and nothing
else happens, and with none at hand nothing. Where the manual leaves a point open this rests on the model's own reading:
log entries 57, 58. -/
def Obligations.AlternateModes : Prop :=
  (∀ (s : State) (n : PortId), s.served n = true → s.swapFree n = true → s.port[n].pd.contract = true →
      s.plat[platOf n].fallback = false → s.port[n].alt.step = .idle → s.port[n].alt.tried = false →
      altAuto (s.altCfg n) = true → s.modesAllowed n = true → s.swapWanted n .power = false → s.swapWanted n .data =
      false → s.swapPending n = false → ∃ t, exec (.discoveryStart n) s = .next t ∧ t.port[n].alt.step = .identity ∧
      t.port[n].alt.tried = true ∧ s.handed t n (.vdm .discoverIdentity 0xFF00 0) true ∧ t.tt = s.tt) ∧
  (∀ (s : State) (n : PortId), s.port[n].alt.tried = true ∨ s.served n = false ∨ s.swapFree n = false ∨
      s.port[n].pd.contract = false ∨ s.plat[platOf n].fallback = true ∨ s.port[n].alt.step ≠ .idle ∨
      altAuto (s.altCfg n) = false ∨ s.modesAllowed n = false ∨ s.swapWanted n .power = true ∨ s.swapWanted n .data =
      true → ∃ t, exec (.discoveryStart n) s = .next t ∧ t = s) ∧
  (∀ (s u : State) (n : PortId) (m : PdMsg) (e b : Bool), s.takeMsg n isVdmAnswer = some (m, e, u) → m.sop = .sop →
      m.body = .partnerIdentity b → u.port[n].alt.step = .identity → ∃ t, exec (.vdmAck n) s = .next t ∧
      t.port[n].alt.step = .svids ∧ t.port[n].alt.partnerUsb4 = b ∧ u.handed t n (.vdm .discoverSvids 0xFF00 0) true ∧
      t.port[n].pd.ams = false ∧ t.tt = u.tt) ∧
  (∀ (s u : State) (n : PortId) (m : PdMsg) (e : Bool) (l : List (BitVec 16)), s.takeMsg n isVdmAnswer = some (m, e, u) →
      m.sop = .sop → m.body = .svidsAck l → u.port[n].alt.step = .svids → l.contains 0xFF01 = true → ∃ t,
      exec (.vdmAck n) s = .next t ∧ t.port[n].alt.step = .modes ∧ u.handed t n (.vdm .discoverModes 0xFF01 0) true ∧
      t.tt = u.tt) ∧
  (∀ (s u : State) (n : PortId) (m : PdMsg) (e : Bool) (x : Nat), s.takeMsg n isVdmAnswer = some (m, e, u) → m.sop =
      .sop → m.body = .vdmAck .discoverModes x → u.port[n].alt.step = .modes → u.modesAllowed n = false → ∃ t,
      exec (.vdmAck n) s = .next t ∧ t.port[n].alt.step = .idle ∧ u.handedNone t n ∧ t.port[n].alt.pins =
      BitVec.ofNat 3 x ∧ t.tt = u.tt) ∧
  (∀ (s u : State) (n : PortId) (m : PdMsg) (e : Bool) (x : Nat), s.takeMsg n isVdmAnswer = some (m, e, u) → m.sop =
      .sop → m.body = .vdmAck .enterMode x → u.port[n].alt.step = .enterMode → u.mayEnterDp n = true → ∃ t,
      exec (.vdmAck n) s = .next t ∧ t.port[n].alt.step = .safe ∧ t.port[n].alt.mode = .displayPort ∧ t.port[n].alt.pin =
      pinOf (u.dpCommon n) ∧ t.port[n].alt.pin ≠ 0 ∧ t.port[n].pd.ams = false ∧ t.tt = u.tt) ∧
  (∀ (s u : State) (n : PortId) (m : PdMsg) (e : Bool) (x : Nat), s.takeMsg n isVdmAnswer = some (m, e, u) → m.sop =
      .sop → m.body = .vdmAck .enterMode x → u.port[n].alt.step = .enterMode → u.mayEnterDp n = false → u.port[n].rs.dr =
      .dfp → ∃ t, exec (.vdmAck n) s = .next t ∧ t.port[n].alt.step = .exiting ∧ t.port[n].alt.mode =
      u.port[n].alt.mode ∧ u.handed t n (.vdm .exitMode 0xFF01 0) true ∧ t.tt = u.tt) ∧
  (∀ (s u : State) (n : PortId) (m : PdMsg) (e : Bool) (x : Nat), s.takeMsg n isVdmAnswer = some (m, e, u) → m.sop =
      .sop → m.body = .vdmAck .enterMode x → u.port[n].alt.step = .enterMode → u.port[n].rs.dr = .ufp → ∃ t,
      exec (.vdmAck n) s = .next t ∧ t.port[n].alt.step = .idle ∧ t.port[n].alt.mode = u.port[n].alt.mode ∧
      u.handedNone t n ∧ t.tt = u.tt) ∧
  (∀ (s u : State) (n : PortId) (m : PdMsg) (e : Bool) (x : Nat), s.takeMsg n isVdmAnswer = some (m, e, u) → m.sop =
      .sop → m.body = .vdmAck .dpStatus x → u.port[n].alt.step = .status → u.port[n].alt.mode = .displayPort → ∃ t,
      exec (.vdmAck n) s = .next t ∧ t.port[n].alt.step = .configure ∧ t.port[n].alt.hpd = hpdOf x ∧
      u.handed t n (.vdm .dpConfigure 0xFF01 u.port[n].alt.pin.val) true ∧ t.tt = u.tt) ∧
  (∀ (s u : State) (n : PortId) (m : PdMsg) (e : Bool) (x : Nat), s.takeMsg n isVdmAnswer = some (m, e, u) → m.sop =
      .sop → m.body = .vdmAck .dpConfigure x → u.port[n].alt.step = .configure → ∃ t, exec (.vdmAck n) s = .next t ∧
      t.port[n].alt.step = .mounted ∧ t.port[n].alt.mode = u.port[n].alt.mode ∧ u.handedNone t n ∧ t.tt = u.tt) ∧
  (∀ (s u : State) (n : PortId) (m : PdMsg) (e : Bool) (x : Nat), s.takeMsg n isVdmAnswer = some (m, e, u) → m.sop =
      .sop → m.body = .vdmAck .exitMode x → u.port[n].alt.step = .exiting → ∃ t, exec (.vdmAck n) s = .next t ∧
      t.port[n].alt.step = .idle ∧ t.port[n].alt.mode = .none ∧ t.tt = u.tt) ∧
  (∀ (s u : State) (n : PortId) (m : PdMsg) (e : Bool) (c : VdmCmd), s.takeMsg n isVdmAnswer = some (m, e, u) → m.sop =
      .sop → m.body = .vdmNak c → u.port[n].alt.step = .enterMode → ∃ t, exec (.vdmAck n) s = .next t ∧
      t.port[n].alt.step = .idle ∧ t.port[n].alt.enterFail = true ∧ t.port[n].alt.enterSince = true ∧ t.port[n].pd.ams =
      false ∧ t.tt = u.tt) ∧
  (∀ (s : State) (n : PortId), s.takeMsg n isVdmAnswer = none → ∃ t, exec (.vdmAck n) s = .next t ∧ t = s) ∧
  (∀ (s : State) (n : PortId), s.served n = true → s.port[n].alt.step = .enterMode ∨ s.port[n].alt.step = .enterUsb →
      s.port[n].pd.armed .vdm = true → ∃ t, exec (.vdmTimeout n) s = .next t ∧ t.port[n].alt.step = .idle ∧
      t.port[n].alt.enterFail = true ∧ t.port[n].alt.enterSince = true ∧ t.port[n].pd.ams = false ∧ t.tt = s.tt) ∧
  (∀ (s : State) (n : PortId), s.served n = true → s.port[n].alt.step = .exiting → s.port[n].pd.armed .vdm = true → ∃ t,
      exec (.vdmTimeout n) s = .next t ∧ t.port[n].alt.step = .idle ∧ t.port[n].alt.mode = .none ∧ t.port[n].pd.ams =
      false ∧ t.tt = s.tt) ∧
  (∀ (s : State) (n : PortId), s.served n = false ∨ s.port[n].pd.armed .vdm = false → ∃ t, exec (.vdmTimeout n) s =
      .next t ∧ t = s) ∧
  (∀ (s u : State) (n : PortId) (m : PdMsg), s.takeMsg n isAttention = some (m, true, u) → ∃ t, exec (.attention n) s =
      .next t ∧ u.handed t n (.vdmBusy .attention) false ∧ t.port[n].alt = u.port[n].alt ∧ t.tt = u.tt) ∧
  (∀ (s u : State) (n : PortId) (m : PdMsg) (x : VdmCmd) (v : BitVec 16) (a : Nat), s.takeMsg n isAttention = some (m,
      false, u) → m.body = .vdm x v a → u.port[n].alt.mode = .displayPort → ∃ t, exec (.attention n) s = .next t ∧
      t.port[n].alt.hpd = hpdOf a ∧ t.port[n].alt.mode = .displayPort ∧ t.port[n].alt.step = u.port[n].alt.step ∧
      u.handedNone t n ∧ t.tt = u.tt) ∧
  (∀ (s u : State) (n : PortId) (m : PdMsg), s.takeMsg n isAttention = some (m, false, u) → u.port[n].alt.mode ≠
      .displayPort → ∃ t, exec (.attention n) s = .next t ∧ t = u) ∧
  (∀ (s : State) (n : PortId), s.takeMsg n isAttention = none → ∃ t, exec (.attention n) s = .next t ∧ t = s)

/-- The script at the head of the queue starts and names its event; one without steps ends at once; a script that a
hold-over stops is passed over; with none queued that may run (core SB down, or its port in hold-over and it is no
DETACH), or with one running, none starts. An acknowledged write goes on to the next step, passing over one that its ORI
skips, an end step too; the last step's, or one before an end step, ends the script. A write not acknowledged is a failed
attempt, and the fourth stops the script with PTS_FAIL; while the next attempt waits, with no script, at a step that is
no write, or on a bus that is not free none is made. 1 ms later it is tried again, where one waits. The end of a delay
step goes on to the next; with no script running there is none. A lost arbitration of a write is counted and the bus
taken, the next attempt waiting for the bus alone; the 32nd in a row is a failed attempt; a loss with no write in
progress, or before the bus was free, takes the bus alone. A stuck SCL is recorded, a stuck SDA that nine clocks do not
free is health cause 15, and one that they free only takes the bus. -/
def Obligations.PointsScripts : Prop :=
  (∀ (s : State) (h : Script) (l : List Script) (w : Word) (r : List Word), s.points.queue = h :: l → s.points.running =
      false → s.scriptReady h = true → h.steps = w :: r → oriSkips s.port[h.port].tc.orient w = false → bits w 31 30 ≠
      0 → ∃ t, exec (.scriptStart) s = .next t ∧ t.points.running = true ∧ t.points.delay = false ∧
      t.port[h.port].alt.lastEvt = h.event ∧ t.points.queue = h :: l ∧ t.tt = s.tt) ∧
  (∀ (s : State) (h : Script) (l : List Script), s.points.queue = h :: l → s.points.running = false → s.scriptReady h =
      true → h.steps = [] → h.event ≠ 1 → ∃ t, exec (.scriptStart) s = .next t ∧ t.points.running = false ∧
      t.points.queue = l ∧ t.port[h.port].alt.lastEvt = h.event ∧ t.tt = s.tt) ∧
  (∀ (s : State) (g h : Script) (l : List Script) (w : Word) (r : List Word), s.points.queue = g :: h :: l →
      s.scriptReady g = false → s.scriptReady h = true → h.steps = w :: r → oriSkips s.port[h.port].tc.orient w = false →
      bits w 31 30 ≠ 0 → ∃ t, exec (.scriptStart) s = .next t ∧ t.points.running = true ∧ t.points.queue = h :: g :: l ∧
      t.port[h.port].alt.lastEvt = h.event ∧ t.tt = s.tt) ∧
  (∀ (s : State), ((∀ h ∈ s.points.queue, s.scriptReady h = false) ∨ s.curScript.isSome = true) → ∃ t,
      exec (.scriptStart) s = .next t ∧ t = s) ∧
  (∀ (s : State) (h : Script) (l : List Script) (w x : Word) (r : List Word), s.points.queue = h :: l →
      s.points.running = true → s.points.delay = false → h.steps = w :: x :: r → bits w 31 30 = 1 → s.scriptReady h =
      true → s.points.busFree = true → s.points.sclStuck = false → oriSkips s.port[h.port].tc.orient x = false →
      bits x 31 30 ≠ 0 → ∃ t, exec (.scriptWrite true) s = .next t ∧ t.points.queue =
      { h with steps := x :: r, num := h.num + 1, fails := 0, losses := 0 } :: l ∧ t.points.running = true ∧ t.port =
      s.port ∧ t.claim = s.claim ∧ t.tt = s.tt ∧ t.points.out = some (writeOf w)) ∧
  (∀ (s : State) (h : Script) (l : List Script) (w x y : Word) (r : List Word), s.points.queue = h :: l →
      s.points.running = true → s.points.delay = false → h.steps = w :: x :: y :: r → bits w 31 30 = 1 →
      s.scriptReady h = true → s.points.busFree = true → s.points.sclStuck = false →
      oriSkips s.port[h.port].tc.orient x = true → oriSkips s.port[h.port].tc.orient y = false → bits y 31 30 ≠ 0 → ∃ t,
      exec (.scriptWrite true) s = .next t ∧ t.points.queue =
      { h with steps := y :: r, num := h.num + 2, fails := 0, losses := 0 } :: l ∧ t.points.running = true ∧ t.port =
      s.port ∧ t.claim = s.claim ∧ t.tt = s.tt) ∧
  (∀ (s : State) (h : Script) (l : List Script) (w : Word) (r : List Word), s.points.queue = h :: l → s.points.running =
      true → s.points.delay = false → h.steps = w :: r → r.head?.all (fun x => decide (bits x 31 30 =
      0) && !oriSkips s.port[h.port].tc.orient x) = true → bits w 31 30 = 1 → s.scriptReady h = true → s.points.busFree =
      true → s.points.sclStuck = false → h.event ≠ 1 → ∃ t, exec (.scriptWrite true) s = .next t ∧ t.points.queue = l ∧
      t.points.running = false ∧ t.port = s.port ∧ t.claim = s.claim ∧ t.tt = s.tt) ∧
  (∀ (s : State) (h : Script) (l : List Script) (w x : Word) (r : List Word), s.points.queue = h :: l →
      s.points.running = true → s.points.delay = false → h.steps = w :: x :: r → bits w 31 30 = 1 → s.scriptReady h =
      true → s.points.busFree = true → s.points.sclStuck = false → h.fails < 3 → ∃ t, exec (.scriptWrite false) s =
      .next t ∧ t.points.queue = { h with fails := h.fails + 1, losses := 0 } :: l ∧ t.points.delay = true ∧
      t.points.running = true ∧ t.port = s.port ∧ t.claim = s.claim ∧ t.tt = s.tt ∧ t.points.out = some (writeOf w)) ∧
  (∀ (s : State) (h : Script) (l : List Script) (w x : Word) (r : List Word), s.points.queue = h :: l →
      s.points.running = true → s.points.delay = false → h.steps = w :: x :: r → bits w 31 30 = 1 → s.scriptReady h =
      true → s.points.busFree = true → s.points.sclStuck = false → h.fails = 3 → ∃ t, exec (.scriptWrite false) s =
      .next t ∧ t.port[h.port].alt.ptsFail = true ∧ t.port[h.port].alt.failStep = BitVec.ofNat 4 h.num ∧
      t.points.running = false ∧ t.tt = s.tt) ∧
  (∀ (s : State) (a : Bool), s.points.delay = true ∨ (s.points.queue = [] ∧ s.points.running = false) ∨
      s.curStep.any (fun x => decide (bits x.2 31 30 ≠ 1) || !s.points.busFree || s.points.sclStuck) = true → ∃ t,
      exec (.scriptWrite a) s = .next t ∧ t = s) ∧
  (∀ (s : State) (h : Script) (l : List Script) (w x : Word) (r : List Word), s.points.queue = h :: l →
      s.points.running = true → s.points.delay = true → h.steps = w :: x :: r → bits w 31 30 = 1 → s.scriptReady h =
      true → s.points.busFree = true → s.points.sclStuck = false → oriSkips s.port[h.port].tc.orient x = false →
      bits x 31 30 ≠ 0 → ∃ t, exec (.scriptWriteRetry true) s = .next t ∧ t.points.queue =
      { h with steps := x :: r, num := h.num + 1, fails := 0, losses := 0 } :: l ∧ t.points.delay = false ∧ t.port =
      s.port ∧ t.claim = s.claim ∧ t.tt = s.tt) ∧
  (∀ (s : State) (a : Bool), s.points.delay = false → ∃ t, exec (.scriptWriteRetry a) s = .next t ∧ t = s) ∧
  (∀ (s : State) (h : Script) (l : List Script) (w x : Word) (r : List Word), s.points.queue = h :: l →
      s.points.running = true → h.steps = w :: x :: r → bits w 31 30 = 2 → s.scriptReady h = true →
      oriSkips s.port[h.port].tc.orient x = false → bits x 31 30 ≠ 0 → ∃ t, exec (.scriptDelay) s = .next t ∧
      t.points.queue = { h with steps := x :: r, num := h.num + 1, fails := 0, losses := 0 } :: l ∧ t.points.delay =
      false ∧ t.points.running = true ∧ t.port = s.port ∧ t.claim = s.claim ∧ t.tt = s.tt) ∧
  (∀ (s : State), s.points.queue = [] ∨ s.points.running = false → ∃ t, exec (.scriptDelay) s = .next t ∧ t = s) ∧
  (∀ (s : State) (o : Bool) (h : Script) (l : List Script) (w : Word) (r : List Word), s.points.queue = h :: l →
      s.points.running = true → h.steps = w :: r → bits w 31 30 = 1 → s.scriptReady h = true → s.points.busFree = true →
      s.points.sclStuck = false → h.losses < 31 → ∃ t, exec (.arbitrationLoss o) s = .next t ∧ t.points.queue =
      { h with losses := h.losses + 1 } :: l ∧ t.points.busFree = false ∧ t.points.delay = false ∧ t.port = s.port ∧
      t.claim = s.claim ∧ t.tt = s.tt) ∧
  (∀ (s : State) (o : Bool) (h : Script) (l : List Script) (w : Word) (r : List Word), s.points.queue = h :: l →
      s.points.running = true → h.steps = w :: r → bits w 31 30 = 1 → s.scriptReady h = true → s.points.busFree = true →
      s.points.sclStuck = false → 31 ≤ h.losses → h.fails < 3 → ∃ t, exec (.arbitrationLoss o) s = .next t ∧
      t.points.queue = { h with fails := h.fails + 1, losses := 0 } :: l ∧ t.points.delay = true ∧ t.points.busFree =
      false ∧ t.port = s.port) ∧
  (∀ (s : State) (o : Bool), s.points.queue = [] ∨ s.points.running = false ∨ s.points.busFree = false → ∃ t,
      exec (.arbitrationLoss o) s = .next t ∧ t = { s with points := { s.points with busFree := false } }) ∧
  (∀ (s : State) (b : Bool), s.points.queue = [] ∨ s.points.running = false → ∃ t, exec (.auxBusStuck true b) s =
      .next t ∧ t = { s with points := { s.points with sclStuck := true, busFree := false } }) ∧
  (∀ (s : State), s.sbUp = true → s.points.queue = [] ∨ s.points.running = false → ∃ t,
      exec (.auxBusStuck false true) s = .next t ∧ t.port = s.port ∧ t.points = { s.points with busFree := false } ∧
      bit t.health.active 15 = true) ∧
  (∀ (s : State), ∃ t, exec (.auxBusStuck false false) s = .next t ∧ t =
      { s with points := { s.points with busFree := false } })

/-- A message of a context that is not active changes nothing; a repeat is acknowledged and discarded; a bad packet is
counted. With four messages queued one for the core is not acknowledged, and RX_FULL is set; else it is queued,
acknowledged, its MessageID kept and the context's revision settled by the first. One that the engine answers itself is
not queued. One between the Accept and the PS_RDY of a transition, but in a Fast Role Swap from it, has Hard Reset asked
for. A first chunk has the next asked for, and one out of order abandons the message. Soft_Reset on a cable context
clears that and is accepted; on SOP it also drops what is queued and any transition. EPR_KeepAlive is answered,
unsupported messages Not_Supported, or Reject at Revision 2.0, a request for capabilities that the role gives with those
of the sink, those of the source by its offer ceiling, or Not_Supported where it gives none; in hold-over with the copy
kept, or Not_Supported without one; structured VDMs are answered NAK, and in hold-over BUSY. With no such message at hand
none of these answers anything. Where the manual leaves a point open this rests on the model's own reading: log entries
50, 54, 159. -/
def Obligations.PdReceiving : Prop :=
  (∀ (s : State) (n : PortId) (m : PdMsg), m.valid = true → s.ctxActive n m.sop = false → ∃ t, exec (.pdMessage n m) s =
      .next t ∧ t = s) ∧
  (∀ (s : State) (n : PortId) (m : PdMsg), m.valid = true → s.ctxActive n m.sop = true → (s.ctx n m.sop).rxValid = true →
      (s.ctx n m.sop).rxId = m.id → ∃ t, exec (.pdMessage n m) s = .next t ∧ t = s.modPd n fun d =>
      { d with lastAck := some (m.sop, m.id) }) ∧
  (∀ (s : State) (n : PortId) (m : PdMsg), m.valid = false → ∃ t, exec (.pdMessage n m) s = .next t ∧ t =
      s.modPd n fun d => { d with rxErr := d.rxErr + 1 }) ∧
  (∀ (s : State) (n : PortId) (m : PdMsg), m.valid = true → s.ctxActive n m.sop = true → (s.ctx n m.sop).rxValid =
      false ∨ (s.ctx n m.sop).rxId ≠ m.id → (s.seen n m).engTakes n m = false → m.body ≠ .softReset →
      4 ≤ s.port[n].pd.rxq.length + s.port[n].pd.rxDone → ∃ t, exec (.pdMessage n m) s = .next t ∧ t = s.modPd n fun d =>
      { d with rxFull := true }) ∧
  (∀ (s : State) (n : PortId) (m : PdMsg), m.valid = true → s.ctxActive n m.sop = true → (s.ctx n m.sop).rxValid =
      false ∨ (s.ctx n m.sop).rxId ≠ m.id → (s.seen n m).engTakes n m = false → m.body ≠ .softReset →
      s.port[n].pd.rxq.length + s.port[n].pd.rxDone < 4 → m.chunk = none → ((∀ ty, (s.ctx n ty).tx = .idle ∧
      (s.ctx n ty).rxPart = none)) → s.port[n].ct.plan = none → s.port[n].ct.rdyOut = false → rowless m.body = false ∨
      s.served n = false → ∃ t, exec (.pdMessage n m) s = .next t ∧ t.port[n].pd.rxq = s.port[n].pd.rxq ++ [m] ∧
      t.port[n].pd.eng = s.port[n].pd.eng ∧ s.handedNone t n ∧ (t.ctx n m.sop).rxId = m.id ∧ (t.ctx n m.sop).rxValid =
      true ∧ t.port[n].pd.lastAck = some (m.sop, m.id) ∧ (∀ ty, ty ≠ m.sop → t.ctx n ty = s.ctx n ty) ∧
      (t.ctx n m.sop).rev = (if (s.ctx n m.sop).rev ≠ 0 then (s.ctx n m.sop).rev else if revMax s.port[n].tc.pdCfg =
      0b01 ∨ m.rev = 0b01 then 0b01 else 0b10) ∧ t.tt = s.tt) ∧
  (∀ (s : State) (n : PortId) (m : PdMsg), m.valid = true → s.ctxActive n m.sop = true → (s.ctx n m.sop).rxValid =
      false ∨ (s.ctx n m.sop).rxId ≠ m.id → (s.seen n m).engTakes n m = true → m.chunk = none → ((∀ ty, (s.ctx n ty).tx =
      .idle ∧ (s.ctx n ty).rxPart = none)) → ∃ t, exec (.pdMessage n m) s = .next t ∧ t.port[n].pd.eng =
      s.port[n].pd.eng ++ [m] ∧ t.port[n].pd.rxq = s.port[n].pd.rxq ∧ (t.ctx n m.sop).rxId = m.id ∧
      (t.ctx n m.sop).rxValid = true ∧ t.port[n].pd.lastAck = some (m.sop, m.id) ∧ (∀ ty, ty ≠ m.sop → t.ctx n ty =
      s.ctx n ty) ∧ t.tt = s.tt) ∧
  (∀ (s : State) (n : PortId) (m : PdMsg), m.valid = true → s.ctxActive n m.sop = true → (s.ctx n m.sop).rxValid =
      false ∨ (s.ctx n m.sop).rxId ≠ m.id → (s.seen n m).engTakes n m = false → m.body ≠ .softReset →
      s.port[n].pd.rxq.length + s.port[n].pd.rxDone < 4 → m.chunk = none → ((∀ ty, (s.ctx n ty).tx = .idle ∧
      (s.ctx n ty).rxPart = none)) → s.served n = true → s.port[n].ct.rdyOut = true → s.port[n].rs.code ≠ .frsSource →
      ∃ t, exec (.pdMessage n m) s = .next t ∧ t.port[n].pd.hrReq = true ∧ t.port[n].pd.rxq = s.port[n].pd.rxq ∧
      (t.ctx n m.sop).rxId = m.id ∧ (t.ctx n m.sop).rxValid = true ∧ t.port[n].pd.lastAck = some (m.sop, m.id) ∧ (∀ ty,
      ty ≠ m.sop → t.ctx n ty = s.ctx n ty) ∧ t.tt = s.tt) ∧
  (∀ (s : State) (n : PortId) (m : PdMsg), m.valid = true → s.ctxActive n m.sop = true → (s.ctx n m.sop).rxValid =
      false ∨ (s.ctx n m.sop).rxId ≠ m.id → (s.seen n m).engTakes n m = false → m.body ≠ .softReset →
      s.port[n].pd.rxq.length + s.port[n].pd.rxDone < 4 → m.chunk = some (0, false) → ((∀ ty, (s.ctx n ty).tx = .idle ∧
      (s.ctx n ty).rxPart = none)) → ∃ t, exec (.pdMessage n m) s = .next t ∧ (t.ctx n m.sop).rxPart = some m.body ∧
      (t.ctx n m.sop).chunk = 1 ∧ (t.ctx n m.sop).tx = .waitGoodcrc ∧ ((t.ctx n m.sop).cur.map OutMsg.body) =
      some (.chunkRequest 1) ∧ t.port[n].pd.rxq = s.port[n].pd.rxq ∧ (t.ctx n m.sop).rxId = m.id ∧
      (t.ctx n m.sop).rxValid = true ∧ t.port[n].pd.lastAck = some (m.sop, m.id) ∧ (∀ ty, ty ≠ m.sop → t.ctx n ty =
      s.ctx n ty)) ∧
  (∀ (s : State) (n : PortId) (m : PdMsg) (k : Nat) (l : Bool), m.valid = true → s.ctxActive n m.sop = true →
      (s.ctx n m.sop).rxValid = false ∨ (s.ctx n m.sop).rxId ≠ m.id → (s.seen n m).engTakes n m = false → m.body ≠
      .softReset → s.port[n].pd.rxq.length + s.port[n].pd.rxDone < 4 → m.chunk = some (k, l) → ((∀ ty, (s.ctx n ty).tx =
      .idle ∧ (s.ctx n ty).rxPart = none)) → k ≠ 0 → ∃ t, exec (.pdMessage n m) s = .next t ∧ t.port[n].pd.chunkAbort =
      true ∧ (t.ctx n m.sop).rxPart = none ∧ t.port[n].pd.rxq = s.port[n].pd.rxq ∧ (t.ctx n m.sop).rxId = m.id ∧
      (t.ctx n m.sop).rxValid = true ∧ t.port[n].pd.lastAck = some (m.sop, m.id) ∧ (∀ ty, ty ≠ m.sop → t.ctx n ty =
      s.ctx n ty)) ∧
  (∀ (s u : State) (n : PortId) (m : PdMsg) (e : Bool), s.takeMsg n (fun b => b = .softReset) = some (m, e, u) → m.sop =
      .sop1 → ∃ t, exec (.softReset n) s = .next t ∧ (t.ctx n .sop1) = (u.ctx n .sop1).soft ∧ (t.ctx n .sop) =
      (u.ctx n .sop) ∧ u.handedOn t n .sop1 .accept false ∧ t.port[n].ct = u.port[n].ct ∧ t.tt = u.tt) ∧
  (∀ (s u : State) (n : PortId) (m : PdMsg) (e : Bool), s.takeMsg n (fun b => b = .softReset) = some (m, e, u) → m.sop =
      .sop → ∃ t, exec (.softReset n) s = .next t ∧ (t.ctx n .sop) = (u.ctx n .sop).soft ∧ t.port[n].ct.plan = none ∧
      (t.port[n].pd.outbox.any fun x => x.sop = .sop && x.body = .accept) = true ∧ (t.port[n].pd.rxq.any fun x => x.sop =
      .sop) = false) ∧
  (∀ (s : State) (n : PortId), s.takeMsg n (fun b => b = .softReset) = none → ∃ t, exec (.softReset n) s = .next t ∧ t =
      s) ∧
  (∀ (s u : State) (n : PortId) (m : PdMsg) (e : Bool), s.takeMsg n (fun b => b = .eprKeepAlive) = some (m, e, u) →
      (u.ctx n m.sop).rev ≠ 1 → ∃ t, exec (.eprKeepalive n) s = .next t ∧ u.handed t n .eprKeepAliveAck false ∧
      t.port[n].ct = u.port[n].ct ∧ t.port[n].pd.armed .srcEprKeepAlive =
      (u.port[n].pd.disarm .srcEprKeepAlive).armed .srcEprKeepAlive ∧ t.tt = u.tt) ∧
  (∀ (s : State) (n : PortId), s.takeMsg n (fun b => b = .eprKeepAlive) = none → ∃ t, exec (.eprKeepalive n) s =
      .next t ∧ t = s) ∧
  (∀ (s u : State) (n : PortId) (m : PdMsg) (e : Bool), s.takeMsg n (fun b =>
      unsupported b || rev3Only b && (s.ctx n .sop).rev = 0b01) = some (m, e, u) → ∃ t, exec (.notSupportedRequest n) s =
      .next t ∧ u.handedOn t n m.sop (u.notSup n m.sop) false ∧ t.port[n].ct = u.port[n].ct ∧ t.tt = u.tt) ∧
  (∀ (s : State) (n : PortId), s.takeMsg n (fun b => unsupported b || rev3Only b && (s.ctx n .sop).rev = 0b01) = none →
      ∃ t, exec (.notSupportedRequest n) s = .next t ∧ t = s) ∧
  (∀ (s u : State) (n : PortId) (m : PdMsg), s.takeMsg n isGetCap = some (m, false, u) → rev3Only m.body = false ∨
      (u.ctx n .sop).rev ≠ 0b01 → u.capsGiven n m.body = true → m.body = .getSinkCap → ∃ t, exec (.getCapabilities n) s =
      .next t ∧ u.handed t n (.sinkCaps (decide (roleOf u.port[n].tc.cfg = 0)) (u.frsField n) (u.sinkObjs n)) false ∧
      t.port[n].ct = u.port[n].ct ∧ t.tt = u.tt) ∧
  (∀ (s u : State) (n : PortId) (m : PdMsg), s.takeMsg n isGetCap = some (m, false, u) → rev3Only m.body = false ∨
      (u.ctx n .sop).rev ≠ 0b01 → u.capsGiven n m.body = true → m.body = .getSourceCap → (u.underTarget n).isSome =
      true ∨ u.policyRuns = false → ∃ t, exec (.getCapabilities n) s = .next t ∧
      u.handed t n (.sourceCaps (u.capFlags n) (u.sourceObjs n (u.offerFor n) false)) false ∧ t.port[n].ct.offer =
      u.offerFor n ∧ t.port[n].ct.mv = u.port[n].ct.mv ∧ t.tt = u.tt) ∧
  (∀ (s u : State) (n : PortId) (m : PdMsg), s.takeMsg n isGetCap = some (m, false, u) → rev3Only m.body = false ∨
      (u.ctx n .sop).rev ≠ 0b01 → u.capsGiven n m.body = false → ∃ t, exec (.getCapabilities n) s = .next t ∧
      u.handed t n (u.notSup n .sop) false ∧ t.port[n].ct = u.port[n].ct ∧ t.tt = u.tt) ∧
  (∀ (s u : State) (n : PortId) (m : PdMsg), s.takeMsg n isGetCap = some (m, true, u) → rev3Only m.body = false ∨
      (u.ctx n .sop).rev ≠ 0b01 → ∃ t, exec (.getCapabilities n) s = .next t ∧
      u.handed t n ((u.port[n].pd.cached m.body).getD (u.notSup n .sop)) false ∧ t.port[n].ct = u.port[n].ct ∧ t.tt =
      u.tt) ∧
  (∀ (s : State) (n : PortId), s.takeMsg n isGetCap = none → ∃ t, exec (.getCapabilities n) s = .next t ∧ t = s) ∧
  (∀ (s u : State) (n : PortId) (m : PdMsg) (c : VdmCmd) (v : BitVec 16) (a : Nat), s.takeMsg n isUfpVdm = some (m,
      false, u) → m.body = .vdm c v a → ∃ t, exec (.discoverIdentityUfp n) s = .next t ∧
      u.handedOn t n m.sop (.vdmNak c) false ∧ t.port[n].ct = u.port[n].ct ∧ t.port[n].alt = u.port[n].alt ∧ t.tt =
      u.tt) ∧
  (∀ (s u : State) (n : PortId) (m : PdMsg) (c : VdmCmd) (v : BitVec 16) (a : Nat), s.takeMsg n isUfpVdm = some (m, true,
      u) → m.body = .vdm c v a → c ≠ .discoverIdentity → ∃ t, exec (.discoverIdentityUfp n) s = .next t ∧
      u.handedOn t n m.sop (.vdmBusy c) false ∧ t.port[n].ct = u.port[n].ct ∧ t.port[n].alt = u.port[n].alt ∧ t.tt =
      u.tt) ∧
  (∀ (s : State) (n : PortId), s.takeMsg n isUfpVdm = none → ∃ t, exec (.discoverIdentityUfp n) s = .next t ∧ t = s)

/-- The engine takes the first message that may begin and waits for an idle line; with none handed over it takes none.
Once it is idle the message goes out and GoodCRC is awaited, but an AMS at Revision 3 in a contract has a source present
SinkTxNG first, a sink look for SinkTxOK, and in hold-over none begins; with none waiting nothing happens. It goes out at
the end of tSinkTx (where that runs) and at a sample of SinkTxOK above 1.230 V, not at or below it, in the 50 µs after
the threshold was set, or with none looked for, and is discarded after 30 ms without it, where it is looked for. GoodCRC
with the message's number on an active context goes on to the next chunk, to be asked for, or ends the message; to a
Chunk Request it awaits the chunk. Any other GoodCRC does nothing. Without GoodCRC the message is sent again, which
RETRY_CNT counts, and fails after nRetryCount; with none awaited nothing happens. The chunk that a Chunk Request names
goes out, the request acknowledged; another number abandons the message; on an inactive context it is discarded. A chunk
that does not come abandons the message, where one is in progress. A sink in EPR mode sends EPR_KeepAlive, and none else;
Get_Sink_Cap goes once in a contract of a source with FRS_TX_EN and not otherwise; the cable is asked for its identity on
SOP′ while it has not answered, fewer than 20 times, and for EPR again, and not otherwise. An EPR entry whose VCONN is
gone fails with the cable as its reason. Where the manual leaves a point open this rests on the model's own reading: log
entries 51, 53. -/
def Obligations.PdTransmitting : Prop :=
  (∀ (s : State) (n : PortId) (m : OutMsg) (l : List OutMsg), s.port[n].pd.outbox = m :: l → s.ctxActive n m.sop = true →
      s.mayBegin n m = true → ∃ t, exec (.transmitRequest n) s = .next t ∧ (t.ctx n m.sop).tx = .waitIdle ∧
      (t.ctx n m.sop).cur = some m ∧ (t.ctx n m.sop).retry = 0 ∧ t.port[n].pd.outbox = l.filter (fun x =>
      s.ctxActive n x.sop) ∧ t.tt = s.tt) ∧
  (∀ (s : State) (n : PortId), s.port[n].pd.outbox = [] → ∃ t, exec (.transmitRequest n) s = .next t ∧ t = s) ∧
  (∀ (s : State) (n : PortId) (m : OutMsg), s.waiting1 n = some m → s.port[n].hold = false ∨ m.ams = false →
      s.avoids n m = false → m.body ≠ .softReset → ∃ t, exec (.lineIdle n) s = .next t ∧ (t.ctx n m.sop).tx =
      .waitGoodcrc ∧ (t.ctx n m.sop).cur = (s.ctx n m.sop).cur ∧ t.port[n].pd.ams = (s.port[n].pd.ams || m.ams) ∧ t.tt =
      s.tt) ∧
  (∀ (s : State) (n : PortId) (m : OutMsg), s.waiting1 n = some m → s.port[n].hold = false → s.avoids n m = true →
      s.port[n].pd.armed .tSinkTx = false → s.port[n].pd.armed .sinkSample = false → s.port[n].tc.st.isSource = true →
      ∃ t, exec (.lineIdle n) s = .next t ∧ t.port[n].tc.rpOffer = 2 ∧ t.port[n].pd.sinkTxOk = false ∧
      t.port[n].pd.armed .tSinkTx = true ∧ t.port[n].pd.ctx = s.port[n].pd.ctx ∧ t.tt = s.tt) ∧
  (∀ (s : State) (n : PortId) (m : OutMsg), s.waiting1 n = some m → s.port[n].hold = false → s.avoids n m = true →
      s.port[n].pd.armed .tSinkTx = false → s.port[n].pd.armed .sinkSample = false → s.port[n].tc.st.isSource = false →
      ∃ t, exec (.lineIdle n) s = .next t ∧ t = s.modPort n fun p =>
      { p with pd := p.pd.arm .sinkSample, tc := { p.tc with blank := true } }) ∧
  (∀ (s : State) (n : PortId) (m : OutMsg), s.waiting1 n = some m → s.port[n].hold = true → m.ams = true → ∃ t,
      exec (.lineIdle n) s = .next t ∧ t = s) ∧
  (∀ (s : State) (n : PortId), s.waiting1 n = none → ∃ t, exec (.lineIdle n) s = .next t ∧ t = s) ∧
  (∀ (s : State) (n : PortId) (m : OutMsg), s.port[n].pd.armed .tSinkTx = true → s.waiting1 n = some m → m.body ≠
      .softReset → ∃ t, exec (.tsinktx n) s = .next t ∧ (t.ctx n m.sop).tx = .waitGoodcrc ∧ t.port[n].pd.ams =
      (s.port[n].pd.ams || m.ams) ∧ t.tt = s.tt) ∧
  (∀ (s : State) (n : PortId), s.port[n].pd.armed .tSinkTx = false → ∃ t, exec (.tsinktx n) s = .next t ∧ t = s) ∧
  (∀ (s : State) (n : PortId) (v : Nat) (m : OutMsg), s.port[n].pd.armed .sinkSample = true → 1230 < v → s.waiting1 n =
      some m → m.body ≠ .softReset → s.port[n].tc.blank = false → ∃ t, exec (.sinktxokSample n v) s = .next t ∧
      (t.ctx n m.sop).tx = .waitGoodcrc ∧ t.port[n].pd.ams = (s.port[n].pd.ams || m.ams) ∧ t.tt = s.tt) ∧
  (∀ (s : State) (n : PortId) (v : Nat), s.port[n].pd.armed .sinkSample = false ∨ s.port[n].tc.blank = true ∨ v ≤ 1230 →
      ∃ t, exec (.sinktxokSample n v) s = .next t ∧ t = s) ∧
  (∀ (s : State) (n : PortId) (m : OutMsg), s.port[n].pd.armed .sinkSample = true → s.waiting1 n = some m → m.sop =
      .sop → (s.ctx n .sop).cur = some m → ∃ t, exec (.sinktxDiscard n) s = .next t ∧ (t.ctx n .sop).tx = .idle ∧
      (t.ctx n .sop).cur = none) ∧
  (∀ (s : State) (n : PortId), s.port[n].pd.armed .sinkSample = false → ∃ t, exec (.sinktxDiscard n) s = .next t ∧ t =
      s) ∧
  (∀ (s : State) (n : PortId) (ty : Sop) (id : BitVec 3) (m : OutMsg), (s.ctx n ty).cur = some m → (s.ctx n ty).tx =
      .waitGoodcrc → (s.ctx n ty).txId = id → s.ctxActive n ty = true → (s.ctx n ty).rxPart = none →
      (s.ctx n ty).chunk.toNat + 1 < chunksOf m.body → ∃ t, exec (.goodcrc n ty id) s = .next t ∧ (t.ctx n ty).txId =
      id + 1 ∧ (t.ctx n ty).tx = .chunking ∧ (t.ctx n ty).chunk = (s.ctx n ty).chunk + 1 ∧ (t.ctx n ty).cur = some m ∧
      t.tt = s.tt) ∧
  (∀ (s : State) (n : PortId) (ty : Sop) (id : BitVec 3) (m : OutMsg), (s.ctx n ty).cur = some m → (s.ctx n ty).tx =
      .waitGoodcrc → (s.ctx n ty).txId = id → s.ctxActive n ty = true → (s.ctx n ty).rxPart = none →
      chunksOf m.body ≤ (s.ctx n ty).chunk.toNat + 1 → isChunkReq m.body = false → ∃ t, exec (.goodcrc n ty id) s =
      .next t ∧ (t.ctx n ty).txId = id + 1 ∧ (t.ctx n ty).tx = .idle ∧ (t.ctx n ty).cur = none ∧ (t.ctx n ty).retry = 0) ∧
  (∀ (s : State) (n : PortId) (ty : Sop) (id : BitVec 3) (m : OutMsg), (s.ctx n ty).cur = some m → (s.ctx n ty).tx =
      .waitGoodcrc → (s.ctx n ty).txId = id → s.ctxActive n ty = true → (s.ctx n ty).rxPart ≠ none → isChunkReq m.body =
      true → ∃ t, exec (.goodcrc n ty id) s = .next t ∧ (t.ctx n ty).txId = id + 1 ∧ (t.ctx n ty).tx = .chunking ∧
      (t.ctx n ty).cur = none ∧ (t.ctx n ty).rxPart = (s.ctx n ty).rxPart ∧ t.tt = s.tt) ∧
  (∀ (s : State) (n : PortId) (ty : Sop) (id : BitVec 3), (s.ctx n ty).cur = none ∨ (s.ctx n ty).tx ≠ .waitGoodcrc ∨
      (s.ctx n ty).txId ≠ id ∨ s.ctxActive n ty = false → ∃ t, exec (.goodcrc n ty id) s = .next t ∧ t = s) ∧
  (∀ (s : State) (n : PortId) (ty : Sop) (m : OutMsg), (s.ctx n ty).cur = some m → (s.ctx n ty).tx = .waitGoodcrc →
      (s.ctx n ty).retry.toNat < nRetry (s.ctx n ty).rev (revMax s.port[n].tc.pdCfg) → ∃ t, exec (.treceive n ty) s =
      .next t ∧ (t.ctx n ty).retry = (s.ctx n ty).retry + 1 ∧ (t.ctx n ty).tx = .waitGoodcrc ∧ t.port[n].pd.retryCnt =
      (if s.port[n].pd.retryCnt = 0xFF then 0xFF else s.port[n].pd.retryCnt + 1) ∧ t.tt = s.tt) ∧
  (∀ (s : State) (n : PortId) (ty : Sop) (m : OutMsg), (s.ctx n ty).cur = some m → (s.ctx n ty).tx = .waitGoodcrc →
      nRetry (s.ctx n ty).rev (revMax s.port[n].tc.pdCfg) ≤ (s.ctx n ty).retry.toNat → (s.ctx n ty).rxPart = none →
      isChunkReq m.body = false → ∃ t, exec (.treceive n ty) s = .next t ∧ (t.ctx n ty).txId = (s.ctx n ty).txId + 1 ∧
      (t.ctx n ty).tx = .idle ∧ (t.ctx n ty).cur = none) ∧
  (∀ (s : State) (n : PortId) (ty : Sop), (s.ctx n ty).cur = none ∨ (s.ctx n ty).tx ≠ .waitGoodcrc → ∃ t,
      exec (.treceive n ty) s = .next t ∧ t = s) ∧
  (∀ (s : State) (n : PortId) (ty : Sop) (id : BitVec 3) (k : Nat), s.ctxActive n ty = true → (s.ctx n ty).rxValid =
      false ∨ (s.ctx n ty).rxId ≠ id → (s.ctx n ty).tx = .chunking → (s.ctx n ty).cur ≠ none → (s.ctx n ty).chunk.toNat =
      k → ∃ t, exec (.chunkRequest n ty ⟨id, k⟩) s = .next t ∧ (t.ctx n ty).tx = .waitGoodcrc ∧ (t.ctx n ty).cur =
      (s.ctx n ty).cur ∧ (t.ctx n ty).rxId = id ∧ (t.ctx n ty).rxValid = true ∧ t.port[n].pd.lastAck = some (ty, id) ∧
      t.tt = s.tt) ∧
  (∀ (s : State) (n : PortId) (ty : Sop) (id : BitVec 3) (k : Nat), s.ctxActive n ty = true → (s.ctx n ty).rxValid =
      false ∨ (s.ctx n ty).rxId ≠ id → (s.ctx n ty).tx = .chunking → (s.ctx n ty).cur ≠ none → (s.ctx n ty).chunk.toNat ≠
      k → ∃ t, exec (.chunkRequest n ty ⟨id, k⟩) s = .next t ∧ t.port[n].pd.chunkAbort = true ∧ (t.ctx n ty).tx = .idle ∧
      (t.ctx n ty).cur = none) ∧
  (∀ (s : State) (n : PortId) (ty : Sop) (id : BitVec 3) (k : Nat), s.ctxActive n ty = false → ∃ t,
      exec (.chunkRequest n ty ⟨id, k⟩) s = .next t ∧ t = s) ∧
  (∀ (s : State) (n : PortId) (ty : Sop), (s.ctx n ty).chunked = true → ∃ t, exec (.chunkTimer n ty) s = .next t ∧
      t.port[n].pd.chunkAbort = true ∧ (t.ctx n ty).tx = .idle ∧ (t.ctx n ty).cur = none ∧ (t.ctx n ty).rxPart = none) ∧
  (∀ (s : State) (n : PortId) (ty : Sop), (s.ctx n ty).chunked = false → ∃ t, exec (.chunkTimer n ty) s = .next t ∧ t =
      s) ∧
  (∀ (s : State) (n : PortId), s.port[n].pd.epr = true → s.port[n].rs.pr = .sink → ∃ t, exec (.eprKeepaliveSend n) s =
      .next t ∧ s.handed t n .eprKeepAlive false ∧ t.port[n].ct = s.port[n].ct ∧ t.tt = s.tt) ∧
  (∀ (s : State) (n : PortId), s.port[n].pd.epr = false ∨ s.port[n].rs.pr ≠ .sink → ∃ t, exec (.eprKeepaliveSend n) s =
      .next t ∧ t = s) ∧
  (∀ (s : State) (n : PortId), s.served n = true → s.port[n].pd.contract = true → s.port[n].pd.sentGetSink = false →
      s.port[n].rs.step = .idle → s.port[n].ct.plan = none → s.port[n].tc.st.isSource = true → frsTxEn (s.rsCfg n) =
      true → (s.ctx n .sop).rev = 2 → ∃ t, exec (.getSinkCapSend n) s = .next t ∧ s.handed t n .getSinkCap true ∧
      t.port[n].pd.sentGetSink = true ∧ t.port[n].ct = s.port[n].ct ∧ t.tt = s.tt) ∧
  (∀ (s : State) (n : PortId), s.port[n].pd.sentGetSink = true ∨ s.served n = false ∨ s.port[n].pd.contract = false ∨
      s.port[n].rs.step ≠ .idle ∨ s.port[n].ct.plan ≠ none ∨ (s.ctx n .sop).rev ≠ 2 → ∃ t, exec (.getSinkCapSend n) s =
      .next t ∧ t = s) ∧
  (∀ (s : State) (n : PortId), s.served n = true → s.ctxActive n .sop1 = true → cableDisc s.port[n].tc.pdCfg = true →
      s.port[n].pp.st = .closing ∨ s.port[n].pp.st = .closed → s.diCnt n < 20 → bit s.port[n].pd.cable 24 = false ∨
      s.port[n].pd.eprEntry = true → s.port[n].pd.armed .discoverIdentity = false → s.port[n].pd.outbox.any isCableAsk =
      false → (s.ctx n .sop1).cur = none → ∃ t, exec (.discoverIdentityCable n) s = .next t ∧
      s.handedOn t n .sop1 (.vdm .discoverIdentity 0xFF00 0) true ∧ t.port[n].pd.cable = s.port[n].pd.cable ∧ t.tt =
      s.tt) ∧
  (∀ (s : State) (n : PortId), s.served n = false ∨ s.ctxActive n .sop1 = false ∨ cableDisc s.port[n].tc.pdCfg = false ∨
      s.port[n].pp.st.live = false ∨ 20 ≤ s.diCnt n ∨ (bit s.port[n].pd.cable 24 = true ∧ s.port[n].pd.eprEntry =
      false) ∨ s.port[n].pd.armed .discoverIdentity = true → s.port[n].pd.eprEntry = false ∨ s.port[n].tc.vconnOn =
      true ∨ s.served n = false → ∃ t, exec (.discoverIdentityCable n) s = .next t ∧ t = s) ∧
  (∀ (s : State) (n : PortId), s.served n = true → s.port[n].pd.eprEntry = true → s.port[n].tc.vconnOn = false →
      s.ctxActive n .sop1 = false → ∃ t, exec (.discoverIdentityCable n) s = .next t ∧ t.port[n].pd.eprEntry = false ∧
      s.handed t n (.eprFailed 4) false ∧ t.tt = s.tt)

/-- A Hard Reset asked for goes out of an attached port: the contract, a swap and a mode end, the attach-time roles
return, it is counted and pending; with none asked for none goes out. One received on an active context does the same, on
another nothing. In its time the source opens the path and gives VCONN up, where that time runs; after tSrcRecover it
books PATH, whose booking ends the pending state, where it runs; a sink whose VBUS does not return enters ERR_RECOV,
where it is awaited; one whose VBUS does books PATH as well. VBUS below 4.0 V, or that nothing awaits, does nothing. In
ATTWAIT_SNK with the debounce complete it attaches as sink. A partner that does not answer is sent Hard Reset again,
twice in all, then HR_FAIL and ERR_RECOV, not in hold-over or LOCKOFF. vSafe0V ends the fall of a swap with Rd and
PS_RDY, or a discharge, and above it neither ends. A Cable Reset sent by a DFP that sources VCONN clears the cable
contexts alone, no other port sends one, and one received is ignored. Where the manual leaves a point open this rests on
the model's own reading: log entries 34, 158. -/
def Obligations.HardAndCableReset : Prop :=
  (∀ (s : State) (n : PortId), s.port[n].pd.hrReq = true → s.port[n].tc.st.attached = true → ∃ t,
      exec (.hardResetSend n) s = .next t ∧ t.port[n].pd.hrPend = true ∧ t.port[n].pd.contract = false ∧
      t.port[n].pd.hrReq = false ∧ t.port[n].rs.step = .idle ∧ t.port[n].alt.mode = .none ∧ t.port[n].rs.pr =
      s.port[n].rs.basePr ∧ t.port[n].rs.dr = s.port[n].rs.baseDr ∧ t.port[n].pd.hrCnt = (if s.port[n].pd.hrCnt =
      0xFF then 0xFF else s.port[n].pd.hrCnt + 1) ∧ t.port[n].pd.hrTries = s.port[n].pd.hrTries + 1) ∧
  (∀ (s : State) (n : PortId), s.port[n].pd.hrReq = false ∨ s.port[n].tc.st.attached = false → ∃ t,
      exec (.hardResetSend n) s = .next t ∧ t = s) ∧
  (∀ (s : State) (n : PortId), s.ctxActive n .sop = true → ∃ t, exec (.hardResetReceived n) s = .next t ∧
      t.port[n].pd.hrPend = true ∧ t.port[n].pd.contract = false ∧ t.port[n].pd.hrReq = false ∧ t.port[n].rs.step =
      .idle ∧ t.port[n].alt.mode = .none ∧ t.port[n].rs.pr = s.port[n].rs.basePr ∧ t.port[n].rs.dr =
      s.port[n].rs.baseDr ∧ t.port[n].pd.hrCnt = (if s.port[n].pd.hrCnt = 0xFF then 0xFF else s.port[n].pd.hrCnt + 1)) ∧
  (∀ (s : State) (n : PortId), s.ctxActive n .sop = false → ∃ t, exec (.hardResetReceived n) s = .next t ∧ t = s) ∧
  (∀ (s : State) (n : PortId), s.port[n].pd.armed .psHardReset = true → ∃ t, exec (.tpshardreset n) s = .next t ∧
      t.port[n].pp.st ≠ .closed ∧ t.port[n].pp.st ≠ .closing ∧ t.port[n].tc.vconnOn = false ∧ t.port[n].pd.hrPend =
      s.port[n].pd.hrPend ∧ t.tt = s.tt) ∧
  (∀ (s : State) (n : PortId), s.port[n].pd.armed .psHardReset = false → ∃ t, exec (.tpshardreset n) s = .next t ∧ t =
      s) ∧
  (∀ (s : State) (n : PortId), s.port[n].pd.armed .srcRecover = true → ∃ t, exec (.tsrcrecover n) s = .next t ∧
      t.port[n].alt.exitDue = false ∧ t.port[n].tc.st = s.port[n].tc.st ∧ (t.port[n].pd.hrPend = false ∨
      t.port[n].tc.pathRetry = true)) ∧
  (∀ (s : State) (n : PortId), s.port[n].pd.armed .srcRecover = false → ∃ t, exec (.tsrcrecover n) s = .next t ∧ t = s) ∧
  (∀ (s : State) (n : PortId), s.port[n].pd.armed .sinkVbus = true → s.port[n].tc.st.attached = true → ∃ t,
      exec (.sinkVbusWait n) s = .next t ∧ t.port[n].tc.st = .errRecov ∧ t.port[n].pd.hrPend = false ∧ t.port[n].rs.pr =
      .none) ∧
  (∀ (s : State) (n : PortId), s.port[n].pd.armed .sinkVbus = false → ∃ t, exec (.sinkVbusWait n) s = .next t ∧ t = s) ∧
  (∀ (s : State) (n : PortId) (v : Nat), 4000 ≤ v → s.port[n].pd.armed .sinkVbus = true → ∃ t,
      exec (.vbusPresent n v) s = .next t ∧ (t.port[n].pd.hrPend = false ∨ t.port[n].tc.pathRetry = true) ∧
      t.port[n].pd.armed .sinkVbus = (s.port[n].pd.disarm .sinkVbus).armed .sinkVbus ∧ t.port[n].tc.st =
      s.port[n].tc.st) ∧
  (∀ (s : State) (n : PortId) (v : Nat), v < 4000 ∨ (s.port[n].pd.armed .sinkVbus = false ∧ s.port[n].tc.debDone =
      false) → ∃ t, exec (.vbusPresent n v) s = .next t ∧ t = s) ∧
  (∀ (s : State) (n : PortId) (v : Nat), 4000 ≤ v → s.port[n].pd.armed .sinkVbus = false → s.port[n].tc.debDone = true →
      s.port[n].tc.st = .attwaitSnk → s.notBack n = false → rpOne s.port[n].tc.cc1 s.port[n].tc.cc2 = true →
      tryOf s.port[n].tc.cfg ≠ 1 → ∃ t, exec (.vbusPresent n v) s = .next t ∧ t.port[n].tc.st = .attSnk ∧
      t.port[n].rs.pr = .sink ∧ t.port[n].tc.orient = orientSnk s.port[n].tc.cc1 s.port[n].tc.cc2 ∧ t.port[n].tc.attCnt =
      s.port[n].tc.attCnt + 1) ∧
  (∀ (s : State) (n : PortId), s.port[n].pd.armed .noResponse = true → s.served n = true → s.port[n].pp.st ≠ .lockoff →
      s.port[n].pd.hrTries < 2 → ∃ t, exec (.tnoresponse n) s = .next t ∧ t.port[n].pd.hrReq = true ∧ t.port[n].tc =
      s.port[n].tc ∧ t.tt = s.tt) ∧
  (∀ (s : State) (n : PortId), s.port[n].pd.armed .noResponse = true → s.served n = true → s.port[n].pp.st ≠ .lockoff →
      2 ≤ s.port[n].pd.hrTries → s.port[n].tc.st.attached = true → ∃ t, exec (.tnoresponse n) s = .next t ∧
      t.port[n].pd.hrFail = true ∧ t.port[n].tc.st = .errRecov ∧ t.port[n].rs.pr = .none) ∧
  (∀ (s : State) (n : PortId), s.port[n].pd.armed .noResponse = false ∨ s.served n = false ∨ s.port[n].pp.st = .lockoff →
      ∃ t, exec (.tnoresponse n) s = .next t ∧ t = s) ∧
  (∀ (s : State) (n : PortId) (v : Nat), v ≤ 800 → s.port[n].rs.step = .fall → ∃ t, exec (.dischargeEnd n v) s =
      .next t ∧ t.port[n].rs.step = .partnerRdy ∧ t.port[n].pp.sink = true ∧ t.port[n].tc.rpOffer = 0 ∧
      t.port[n].pp.assist = false ∧ s.handed t n .psRdy false ∧ t.tt = s.tt) ∧
  (∀ (s : State) (n : PortId) (v : Nat), v ≤ 800 → s.port[n].rs.step ≠ .fall → s.port[n].pp.st = .discharge → ∃ t,
      exec (.dischargeEnd n v) s = .next t ∧ t.port[n].pp.st ≠ .discharge ∧ (s.port[n].pp.byTrip = false →
      t.port[n].pp.st = .opn) ∧ t.port[n].tc = s.port[n].tc ∧ t.tt = s.tt) ∧
  (∀ (s : State) (n : PortId) (v : Nat), 800 < v ∨ (s.port[n].rs.step ≠ .fall ∧ s.port[n].pp.st ≠ .discharge) → ∃ t,
      exec (.dischargeEnd n v) s = .next t ∧ t = s) ∧
  (∀ (s : State) (n : PortId), s.served n = true → s.port[n].rs.dr = .dfp → s.port[n].tc.vconnOn = true → ∃ t,
      exec (.cableReset n) s = .next t ∧ t.ctx n .sop1 = Context.reset ∧ t.ctx n .sop2 = Context.reset ∧ t.ctx n .sop =
      s.ctx n .sop ∧ t.port[n].ct = s.port[n].ct ∧ t.port[n].tc = s.port[n].tc ∧ t.tt = s.tt) ∧
  (∀ (s : State) (n : PortId), s.served n = false ∨ s.port[n].rs.dr ≠ .dfp ∨ s.port[n].tc.vconnOn = false → ∃ t,
      exec (.cableReset n) s = .next t ∧ t = s) ∧
  (∀ (s : State) (n : PortId), ∃ t, exec (.cableResetReceived n) s = .next t ∧ t = s)

/-- The partner's Accept to FR_Swap awaits its PS_RDY, as to a swap to source and one that gives VCONN up, ends a DR_Swap
with the roles exchanged, switches VCONN on in one that takes it over, and books the ROLE of one to sink, or asks for
Hard Reset; to Enter_USB it enters USB4 where that is still allowed; else it enters nothing; none at hand does nothing. A
refusal ends the Station's own swap, roles as they were, or a sink's Request, to be made again; none at hand does
nothing. A policy timer that does not run, or of a port its core does not serve, does nothing; that of a trip asks for
Hard Reset, so does the wait for an answer outside a swap, which in a swap asked for ends it; a keep-alive that does not
come asks for it in EPR mode; the twentieth request to the cable without an answer leaves it unmarked; a sink makes its
Request again; a new source sends its capabilities, as does one whose capabilities were not acknowledged. Where the
manual leaves a point open this rests on the model's own reading: log entries 51, 55, 56. -/
def Obligations.PdAnswersAndTimers : Prop :=
  (∀ (s u : State) (n : PortId) (m : PdMsg) (e : Bool), s.takeMsg n (fun b => b = .accept) = some (m, e, u) →
      u.port[n].rs.step = .frAccept → ∃ t, exec (.accept n) s = .next t ∧ t.port[n].rs.step = .partnerRdy ∧
      t.port[n].rs.code = u.port[n].rs.code ∧ t.port[n].ct = u.port[n].ct ∧ t.tt = u.tt) ∧
  (∀ (s u : State) (n : PortId) (m : PdMsg) (e : Bool), s.takeMsg n (fun b => b = .accept) = some (m, e, u) →
      u.port[n].rs.step = .asked → u.port[n].rs.code = .prSnkSrc ∨ u.port[n].rs.code = .vconnOff → ∃ t,
      exec (.accept n) s = .next t ∧ t.port[n].rs.step = .partnerRdy ∧ t.port[n].rs.code = u.port[n].rs.code ∧
      t.port[n].ct = u.port[n].ct ∧ t.tt = u.tt) ∧
  (∀ (s u : State) (n : PortId) (m : PdMsg) (e : Bool), s.takeMsg n (fun b => b = .accept) = some (m, e, u) →
      u.port[n].rs.step = .asked → u.port[n].rs.code = .dr → ∃ t, exec (.accept n) s = .next t ∧ t.port[n].rs.dr =
      u.port[n].rs.dr.other ∧ t.port[n].rs.step = .idle ∧ t.port[n].rs.code = .none ∧ t.port[n].rs.pr = u.port[n].rs.pr) ∧
  (∀ (s u : State) (n : PortId) (m : PdMsg) (e : Bool), s.takeMsg n (fun b => b = .accept) = some (m, e, u) →
      u.port[n].rs.step = .asked → u.port[n].rs.code = .vconnOn → ∃ t, exec (.accept n) s = .next t ∧ t.port[n].rs.step =
      .rise ∧ t.port[n].tc.vconnOn = true ∧ t.port[n].rs.vc = true ∧ t.tt = u.tt) ∧
  (∀ (s u : State) (n : PortId) (m : PdMsg) (e : Bool), s.takeMsg n (fun b => b = .accept) = some (m, e, u) →
      u.port[n].rs.step = .asked → u.port[n].rs.code = .prSrcSnk → ∃ t, exec (.accept n) s = .next t ∧
      (t.port[n].rs.step = .role ∧ t.port[n].rs.entry.isSome = true) ∨ t.port[n].pd.hrReq = true) ∧
  (∀ (s u : State) (n : PortId) (m : PdMsg) (e : Bool), s.takeMsg n (fun b => b = .accept) = some (m, e, u) →
      u.port[n].rs.step = .idle → u.port[n].alt.step = .enterUsb → u.mayEnterUsb4 n = true → ∃ t, exec (.accept n) s =
      .next t ∧ t.port[n].alt.mode = .usb4 ∧ t.port[n].alt.step = .mounted ∧ t.port[n].pd.ams = false ∧ t.tt = u.tt) ∧
  (∀ (s u : State) (n : PortId) (m : PdMsg) (e : Bool), s.takeMsg n (fun b => b = .accept) = some (m, e, u) →
      u.port[n].rs.step = .idle → u.port[n].alt.step = .enterUsb → u.mayEnterUsb4 n = false → ∃ t, exec (.accept n) s =
      .next t ∧ t.port[n].alt.mode = u.port[n].alt.mode ∧ t.port[n].alt.step = .idle ∧ t.port[n].pd.ams = false ∧ t.tt =
      u.tt) ∧
  (∀ (s : State) (n : PortId), s.takeMsg n (fun b => b = .accept) = none → ∃ t, exec (.accept n) s = .next t ∧ t = s) ∧
  (∀ (s u : State) (n : PortId) (m : PdMsg) (e : Bool), s.takeMsg n (fun b => (swapNo b).isSome) = some (m, e, u) →
      u.port[n].rs.step = .asked → ∃ t, exec (.swapAnswer n) s = .next t ∧ t.port[n].rs.step = .idle ∧
      t.port[n].rs.code = .none ∧ t.port[n].rs.pr = u.port[n].rs.pr ∧ t.port[n].rs.dr = u.port[n].rs.dr) ∧
  (∀ (s u : State) (n : PortId) (m : PdMsg) (e : Bool), s.takeMsg n (fun b => (swapNo b).isSome) = some (m, e, u) →
      u.port[n].rs.step ≠ .asked → u.port[n].alt.step = .idle → u.port[n].pd.reqSent ≠ none → ∃ t,
      exec (.swapAnswer n) s = .next t ∧ t.port[n].pd.reqSent = none ∧ t.port[n].pd.armed .sinkRequest = true ∧ t.tt =
      u.tt) ∧
  (∀ (s : State) (n : PortId), s.takeMsg n (fun b => (swapNo b).isSome) = none → ∃ t, exec (.swapAnswer n) s = .next t ∧
      t = s) ∧
  (∀ (s : State) (n : PortId) (x : PolicyTimer), (s.served n = false ∧ s.port[n].hold = false) ∨
      s.port[n].pd.armed (policyPd x) = false ∨ (s.served n = false ∧ x ≠ .tripHardReset) → ∃ t,
      exec (.policyTimer n x) s = .next t ∧ t = s) ∧
  (∀ (s : State) (n : PortId), s.served n = true → s.port[n].pd.armed .tripHardReset = true → ∃ t,
      exec (.policyTimer n .tripHardReset) s = .next t ∧ t.port[n].pd.hrReq = true ∧ t.port[n].tc = s.port[n].tc ∧ t.tt =
      s.tt) ∧
  (∀ (s : State) (n : PortId), s.served n = true → s.port[n].pd.armed .senderResponse = true → s.port[n].rs.step =
      .idle → s.port[n].alt.step = .idle → ∃ t, exec (.policyTimer n .senderResponse) s = .next t ∧ t.port[n].pd.hrReq =
      true ∧ t.port[n].tc = s.port[n].tc ∧ t.tt = s.tt) ∧
  (∀ (s : State) (n : PortId), s.served n = true → s.port[n].pd.armed .senderResponse = true → s.port[n].rs.step =
      .asked → ∃ t, exec (.policyTimer n .senderResponse) s = .next t ∧ t.port[n].rs.step = .idle ∧ t.port[n].rs.code =
      .none ∧ t.port[n].rs.pr = s.port[n].rs.pr) ∧
  (∀ (s : State) (n : PortId), s.served n = true → s.port[n].pd.armed .srcEprKeepAlive = true → s.port[n].pd.epr = true →
      ∃ t, exec (.policyTimer n .sourceEprKeepAlive) s = .next t ∧ t.port[n].pd.hrReq = true ∧ t.port[n].tc =
      s.port[n].tc ∧ t.tt = s.tt) ∧
  (∀ (s : State) (n : PortId), s.served n = true → s.port[n].pd.armed .discoverIdentity = true → 20 ≤ s.diCnt n →
      bit s.port[n].pd.cable 24 = false → ∃ t, exec (.policyTimer n .discoverIdentity) s = .next t ∧
      t.port[n].pd.cableAbsent = true ∧ t.port[n].pd.ams = false ∧ t.port[n].pd.eprEntry = false ∧ t.tt = s.tt) ∧
  (∀ (s : State) (n : PortId) (r : Rdo), s.served n = true → s.port[n].pd.armed .sinkRequest = true →
      s.sinkAsk n s.port[n].pd.partnerObjs = some r → s.port[n].rs.pr = .sink → s.port[n].pd.reqSent = none →
      s.port[n].ct.stopFor = none → s.port[n].pd.contract = false ∨ r.mv = s.port[n].ct.mv → ∃ t,
      exec (.policyTimer n .sinkRequest) s = .next t ∧ s.handed t n (.request r) false ∧ t.port[n].pd.reqSent = some r ∧
      t.port[n].ct = s.port[n].ct ∧ t.tt = s.tt) ∧
  (∀ (s : State) (n : PortId), s.served n = true → s.port[n].pd.armed .swapSourceStart = true → (s.modPd n fun d =>
      d.disarm .swapSourceStart).maySendCaps n = true → s.port[n].pd.contract = false → s.port[n].pd.capsCnt < 50 →
      (s.underTarget n).isSome = true ∨ s.policyRuns = false → ∃ t, exec (.policyTimer n .swapSourceStart) s = .next t ∧
      t.port[n].ct.offer = s.offerFor n ∧ t.port[n].pd.objs = s.sourceObjs n (s.offerFor n) s.port[n].pd.epr ∧ t.tt =
      s.tt) ∧
  (∀ (s : State) (n : PortId), s.served n = true → s.port[n].pd.armed .typeCSendSourceCap = true → (s.modPd n fun d =>
      d.disarm .typeCSendSourceCap).maySendCaps n = true → s.port[n].pd.contract = false → s.port[n].pd.capsCnt < 50 →
      (s.underTarget n).isSome = true ∨ s.policyRuns = false → ∃ t, exec (.policyTimer n .typeCSendSourceCap) s =
      .next t ∧ t.port[n].ct.offer = s.offerFor n ∧ t.port[n].pd.objs = s.sourceObjs n (s.offerFor n) s.port[n].pd.epr ∧
      t.tt = s.tt)

/-- A sample instant advances the sample index and the phase and takes the sample of every populated port; each fifth
takes the feed's too, the others leave it; without the HV die nothing is sampled. A housekeeping scan is kept, with the
highest temperatures, while the HV die runs. A Sketch with all its samples is complete, one short of them not. A frame
whose assembly ends leaves for the lane or is lost; with none held nothing leaves. The link's rise sets link and lock
where the NET port has a class, its fall clears the link, keeps block lock or not, and loses the trace frames queued and
in transmission, counting them. ARP for the Station's address is answered, any other not; a frame that nothing claims
changes nothing. Where the manual leaves a point open this rests on the model's own reading: log entries 14, 61, 62, 66,
146, 161, 164. -/
def Obligations.MeasurementAndLink : Prop :=
  (∀ (s : State) (x : Vector PortSample 24) (a b : BitVec 16) (n : PortId), s.sup.hvUp = true → ∃ t,
      exec (.sampleInstant x a b) s = .next t ∧ t.sidx = s.sidx + 1 ∧ t.phase = s.phase + 40 ∧ t.health.sinceScrub =
      s.health.sinceScrub + 1 ∧ t.stamps = ((s.time.ct, s.phase) :: s.stamps).take 1024 ∧ t.port[n].pp =
      (if bit s.fuse.present n then s.port[n].sampled x[n] s.time.ct s.phase s.sidx s.narrow else s.port[n]).pp ∧
      t.port[n].tc = s.port[n].tc ∧ t.port[n].pd = s.port[n].pd ∧ t.port[n].ct = s.port[n].ct ∧ t.hs.st = s.hs.st ∧
      t.tt = s.tt) ∧
  (∀ (s : State) (x : Vector PortSample 24) (a b : BitVec 16), s.sup.hvUp = true → s.sidx % 5 = 0 → ∃ t,
      exec (.sampleInstant x a b) s = .next t ∧ t.hs.vin = a ∧ t.hs.vsns = b ∧ t.hs.power =
      (((a.toNat * b.toInt : Int)) :: s.hs.power).take 10000) ∧
  (∀ (s : State) (x : Vector PortSample 24) (a b : BitVec 16), s.sup.hvUp = true → s.sidx % 5 ≠ 0 → ∃ t,
      exec (.sampleInstant x a b) s = .next t ∧ t.hs.vin = s.hs.vin ∧ t.hs.vsns = s.hs.vsns ∧ t.hs.power = s.hs.power) ∧
  (∀ (s : State) (x : Vector PortSample 24) (a b : BitVec 16), s.sup.hvUp = false → ∃ t, exec (.sampleInstant x a b) s =
      .next t ∧ t = s) ∧
  (∀ (s : State) (k : HkScan), s.sup.hvUp = true → ∃ t, exec (.housekeepingScan k) s = .next t ∧ t.hk = k ∧
      t.health.tHv = some (max k.tHv.toInt (s.health.tHv.getD k.tHv.toInt)) ∧ t.health.tLogic =
      some (max k.tLogic.toInt (s.health.tLogic.getD k.tLogic.toInt)) ∧ t =
      { s with hk := k, health := { s.health with tHv := t.health.tHv, tLogic := t.health.tLogic } }) ∧
  (∀ (s : State) (k : HkScan), s.sup.hvUp = false → ∃ t, exec (.housekeepingScan k) s = .next t ∧ t = s) ∧
  (∀ (s : State) (k : PlatId) (i : Fin 8) (x : Sketch), s.plat[k].slots[i] = some x → 4096 ≤ x.recs.length → ∃ t,
      exec (.sketchComplete k i) s = .next t ∧ t.plat[k].slots[i] = some { x with complete := true } ∧ t =
      { s with plat := t.plat }) ∧
  (∀ (s : State) (k : PlatId) (i : Fin 8) (x : Sketch), s.plat[k].slots[i] = some x → x.recs.length < 4096 → ∃ t,
      exec (.sketchComplete k i) s = .next t ∧ t.plat[k].slots[i] = some x ∧ t = { s with plat := t.plat }) ∧
  (∀ (s : State) (n : PortId) (f : TrFrame), s.port[n].ms.trace.held = [f] → f.waitGroup = false → ∃ t,
      exec (.frameAssembly n) s = .next t ∧ t.port[n].ms.trace.held = [] ∧ t.port[n].ms.trace.seq =
      s.port[n].ms.trace.seq ∧ t.port[n].pp = s.port[n].pp ∧ t.tt = s.tt ∧ t =
      { s with port := t.port, net := t.net, fresh := t.fresh }) ∧
  (∀ (s : State) (n : PortId), s.port[n].ms.trace.held = [] → ∃ t, exec (.frameAssembly n) s = .next t ∧
      t.port[n].ms.trace = s.port[n].ms.trace ∧ t.net = s.net ∧ t.tt = s.tt) ∧
  (∀ (s : State), s.hostOn .net = true → ∃ t, exec (.linkUp) s = .next t ∧ t =
      { s with net := { s.net with link := true, lock := true } }) ∧
  (∀ (s : State), s.hostOn .net = false → ∃ t, exec (.linkUp) s = .next t ∧ t = s) ∧
  (∀ (s : State), ∃ t, exec (.linkDown) s = .next t ∧ (∀ m : PortId, t.port[m].pp = s.port[m].pp ∧ t.port[m].tc =
      s.port[m].tc ∧ t.port[m].pd = s.port[m].pd) ∧ t =
      { s with net := { s.net with link := false, lock := s.net.lock && Config.lockKept s.fresh, traces := [], sending := none, lost := min 0xFFFF (s.net.lost + (s.net.traces ++ (s.net.sending.toList.filter fun f => decide (traceBytes f ≠ 0))).length) }, fresh := s.fresh + 1, port := t.port }) ∧
  (∀ (s : State) (m : BitVec 48) (a : BitVec 32), s.hostOn .net = true → s.net.link = true → s.netSip ≠ 0 → ∃ t,
      exec (.arpRequest m a s.netSip) s = .next t ∧ t =
      { s with net := { s.net with urgent := s.net.urgent ++ [.arp m a] } }) ∧
  (∀ (s : State) (m : BitVec 48) (a b : BitVec 32), b ≠ s.netSip ∨ s.net.link = false ∨ s.hostOn .net = false → ∃ t,
      exec (.arpRequest m a b) s = .next t ∧ t = s) ∧
  (∀ (s : State) (f : NetFrame), ∃ t, exec (.frameDiscard f) s = .next t ∧ t = s)

/-- The next program starts where VHOLD and WARN_N allow it; while one runs, or none may, nothing starts. A page of the
save path starts in a warning too. A verified page of the User region is in the array, one of a commit in its copy, the
running configuration as before until the last, which puts it in force; a control page's PROT and generation are in
force; the fourth page of a save record makes it valid. A page whose verify fails is tried once more, then fails, and its
operation with it; one of a save has no second attempt, and its record does not count; with no program running nothing
ends. A program that waited too long ends with its operation; one of the save path does not. An unreadable active copy
begins a recall, which waits for a commit's pages, and commits the running configuration anew; not twice, nor where no
copy is active. A scrub goes page by page, writes back a page it corrected, marks one it cannot read, and ends after the
last; without one no page is read. It falls due after 30 days of powered time, not earlier. The hourly save latches every
counter slot and the SSN, after the page in progress, and not while a save runs; so does the SSN's 2¹⁹, no smaller count.
A verification's end takes its bank to the state its checks give, completes its command with the result, and the next one
waits; with none under way nothing ends; an advance's end blows the fuses up to the running image's level, leaves every
other sealed word and completes its command; with none under way none is blown. Where the manual leaves a point open this
rests on the model's own reading: log entries 9, 15, 16, 39, 69, 70, 121, 165. -/
def Obligations.StorePrograms : Prop :=
  (∀ (s : State) (v : Nat) (r q : PageReq), s.sup.hvUp = true → s.store.prog = none →
      nextProg s.store.queue (!s.hs.warn && decide (30000 ≤ v)) = some r → s.store.resolve r = some q → ∃ t,
      exec (.storeProgramStart v) s = .next t ∧ t.store =
      { s.store with prog := some q, queue := s.store.queue.erase r, fixes := s.store.fixes + s.store.mergeFixes r, recalling := s.store.recalling && (decide (r.job ≠ PageJob.commit) || s.store.recallDue) } ∧
      t = { s with store := t.store }) ∧
  (∀ (s : State) (v : Nat), s.store.prog ≠ none ∨ s.sup.hvUp = false ∨
      nextProg s.store.queue (!s.hs.warn && decide (30000 ≤ v)) = none → ∃ t, exec (.storeProgramStart v) s = .next t ∧
      t = s) ∧
  (∀ (s : State) (v : Nat) (r q : PageReq), s.sup.hvUp = true → s.store.prog = none → s.hs.warn = true ∨ v < 30000 →
      s.store.queue.find? (fun x => decide (x.job = .save)) = some r → s.store.resolve r = some q → ∃ t,
      exec (.storeProgramStart v) s = .next t ∧ t.store.prog = some q ∧ t.store.queue = s.store.queue.erase r ∧ t =
      { s with store := t.store }) ∧
  (∀ (s : State) (v off : Nat) (bs : List Byte) (r : PageReq), s.sup.hvUp = true → s.store.prog = none →
      nextProg s.store.queue (!s.hs.warn && decide (30000 ≤ v)) = some r → r.job = .user → 256 ≤ r.page → r.page < 512 →
      r.data = .patch off bs → off + bs.length ≤ 256 → s.store.torn r.page = false → s.store.badData r.page = false →
      ∃ t, exec (.storeProgramStart v) s = .next t ∧ t.store.prog.map (fun q => Mem.read zeroByte q.bytes 0 256) =
      some (overlay (Mem.read zeroByte s.store.user (256 * (r.page - 256)) 256) off bs) ∧ t.store.user = s.store.user ∧
      t.store.queue = s.store.queue.erase r) ∧
  (∀ (s : State) (v off : Nat) (bs : List Byte) (r : PageReq), s.sup.hvUp = true → s.store.prog = none →
      nextProg s.store.queue (!s.hs.warn && decide (30000 ≤ v)) = some r → r.job = .user → r.data = .patch off bs →
      s.store.torn r.page = true → bs.length ≠ 256 → ∃ t, exec (.storeProgramStart v) s = .next t ∧ t.store.prog = none ∧
      t.store.user = s.store.user ∧ t.store.queue = (s.store.queue.erase r).filter (fun x => !r.sameOp x) ∧ t.port =
      s.port) ∧
  (∀ (s : State) (r : PageReq), s.store.prog = some r → r.job = .user → r.final = false → 256 ≤ r.page → r.page < 512 →
      s.store.saveAgain = false → ∃ t, exec (.pageProgramDone true) s = .next t ∧ t.store.prog = none ∧ t.store.user =
      Mem.write zeroByte s.store.user (256 * (r.page - 256)) (Mem.read zeroByte r.bytes 0 256) ∧ t.store.cycles =
      countCycle s.store.cycles r.page ∧ t.store.queue = s.store.queue ∧ t.store.copyA = s.store.copyA ∧ t.store.copyB =
      s.store.copyB ∧ t.store.ring = s.store.ring ∧ t.port = s.port) ∧
  (∀ (s : State) (r : PageReq), s.store.prog = some r → r.job = .commit → r.final = false → r.page < 64 →
      s.store.saveAgain = false → ∃ t, exec (.pageProgramDone true) s = .next t ∧ t.store.prog = none ∧
      t.store.copyA.mem = (if r.page < 32 then Mem.write zeroByte s.store.copyA.mem (256 * r.page) (Mem.read zeroByte r.bytes 0 256) else s.store.copyA.mem) ∧
      t.store.copyB.mem = (if r.page < 32 then s.store.copyB.mem else Mem.write zeroByte s.store.copyB.mem (256 * (r.page - 32)) (Mem.read zeroByte r.bytes 0 256)) ∧
      t.store.run = s.store.run ∧ t.store.user = s.store.user ∧ t.port = s.port ∧ t.store.marks =
      setCount s.store.marks r.page (countOf s.store.gens r.page + 1) ∧ t.store.gens =
      setCount s.store.gens r.page (countOf s.store.gens r.page + 1)) ∧
  (∀ (s : State) (r : PageReq) (c : Commit), s.store.prog = some r → r.job = .commit → r.final = true → s.store.commit =
      some c → s.store.saveAgain = false → s.store.recallDue = false → (s.store.land r).copyOk (if c.toA then 0 else 1) =
      true → s.sbUp = true → ∃ t, exec (.pageProgramDone true) s = .next t ∧ t.store.run = c.cfg ∧ t.store.commit =
      none ∧ t.store.newer = false ∧ t.store.user = (s.store.land r).user) ∧
  (∀ (s : State) (r : PageReq) (c : Commit), s.store.prog = some r → r.job = .commit → r.final = true → s.store.commit =
      some c → s.store.saveAgain = false → s.store.recallDue = false → (s.store.land r).copyOk (if c.toA then 0 else 1) =
      false → s.sbUp = true → ∃ t, exec (.pageProgramDone true) s = .next t ∧ t.store.run = s.store.run ∧
      t.store.commit = none ∧ t.port = s.port ∧ t.tt = s.tt) ∧
  (∀ (s : State) (r : PageReq) (c : Commit), s.store.prog = some r → r.job = .commit → r.final = true → s.store.commit =
      some c → s.store.saveAgain = false → s.sbUp = false → ∃ t, exec (.pageProgramDone true) s = .next t ∧ t.store.run =
      s.store.run ∧ t.store.commit = some { c with landed := some ((s.store.land r).copyOk (if c.toA then 0 else 1)) } ∧
      t.port = s.port ∧ t.tt = s.tt ∧ t.host = s.host) ∧
  (∀ (s : State) (r : PageReq), s.store.prog = some r → r.job = .control → r.final = false → r.page = 512 ∨ r.page =
      513 → s.store.saveAgain = false → ∃ t, exec (.pageProgramDone true) s = .next t ∧ t.store.prog = none ∧
      t.store.prot0 = (if r.page = 512 then some (protOf r.bytes) else s.store.prot0) ∧ t.store.prot1 = (if r.page =
      512 then s.store.prot1 else some (protOf r.bytes)) ∧ t.store.user = s.store.user ∧ t.port = s.port) ∧
  (∀ (s : State) (r : PageReq) (x : Record), s.store.prog = some r → r.job = .save → 64 ≤ r.page → r.page < 128 →
      s.store.saving = some x → x.pages = 3 → s.store.saveAgain = false → s.store.queue.any (fun q => decide (q.job =
      .save)) = false → ∃ t, exec (.pageProgramDone true) s = .next t ∧ t.store.prog = none ∧ t.store.ring =
      s.store.ring.set s.store.ringAt (some { x with pages := 4 }) ∧ t.store.ringAt = s.store.ringAt + 1 ∧ t.store.user =
      s.store.user ∧ t.port = s.port ∧ (s.store.pageDirty = true → (t.store.queue.head?.map fun q => (q.job, q.page,
      q.data)) = some (.save, logPage s.store.pageNo, .openLog)) ∧ (s.store.pageDirty = false → t.store.saving = none)) ∧
  (∀ (s : State) (r : PageReq), s.store.prog = some r → r.job ≠ .save → r.retried = false → ∃ t,
      exec (.pageProgramDone false) s = .next t ∧ t.store.prog = some { r with retried := true } ∧ t.store.cycles =
      countCycle s.store.cycles r.page ∧ t.store.user = s.store.user ∧ t.store.copyA = s.store.copyA ∧ t.store.copyB =
      s.store.copyB ∧ t.store.ring = s.store.ring ∧ t.port = s.port ∧ t.store.saveAgain = s.store.saveAgain ∧
      t.store.queue = s.store.queue) ∧
  (∀ (s : State) (r : PageReq), s.store.prog = some r → r.job = .user → r.retried = true → s.store.saveAgain = false →
      s.store.inActive r.page = false → ∃ t, exec (.pageProgramDone false) s = .next t ∧ t.store.prog = none ∧
      t.store.fails = s.store.fails + 1 ∧ t.store.gens = setCount s.store.gens r.page (countOf s.store.gens r.page + 1) ∧
      t.store.marks = s.store.marks ∧ t.store.queue = s.store.queue.filter (fun x => !r.sameOp x) ∧ t.store.user =
      s.store.user ∧ t.port = s.port) ∧
  (∀ (s : State) (r : PageReq) (x : Record), s.store.prog = some r → r.job = .save → 64 ≤ r.page → r.page < 128 →
      s.store.saving = some x → x.pages < 4 → s.store.saveAgain = false → ∃ t, exec (.pageProgramDone false) s =
      .next t ∧ t.store.prog = none ∧ t.store.fails = s.store.fails + 1 ∧ t.store.ring[s.store.ringAt] = none ∧
      t.store.user = s.store.user ∧ t.port = s.port ∧ t.store.prog = none) ∧
  (∀ (s : State) (b : Bool), s.store.prog = none → ∃ t, exec (.pageProgramDone b) s = .next t ∧ t = s) ∧
  (∀ (s : State) (r : PageReq), s.store.queue.find? (fun x => decide (x.job ≠ .save)) = some r → r.job = .user → ∃ t,
      exec (.programAbandon) s = .next t ∧ t.store.queue = s.store.queue.filter (fun x => !r.sameOp x) ∧ t.store.user =
      s.store.user ∧ t.store.prog = s.store.prog ∧ t.store.copyA = s.store.copyA ∧ t.store.copyB = s.store.copyB ∧
      t.port = s.port) ∧
  (∀ (s : State), s.store.queue.find? (fun x => decide (x.job ≠ .save)) = none → ∃ t, exec (.programAbandon) s =
      .next t ∧ t = s) ∧
  (∀ (s : State), s.sbUp = true → s.store.recallDue = false → s.store.commit ≠ none → activeCopy s.store ≠ none → ∃ t,
      exec (.uncorrectableRecall) s = .next t ∧ t.store.recalling = true ∧ t.store.recallDue = true ∧ t.store.run =
      s.store.run ∧ t.store.user = s.store.user ∧ t.store.commit = s.store.commit ∧ t = { s with store := t.store } ∧
      t.store.bad.length = s.store.bad.length + 1) ∧
  (∀ (s : State), s.sbUp = true → s.store.recallDue = false → s.store.commit = none → activeCopy s.store ≠ none → ∃ t,
      exec (.uncorrectableRecall) s = .next t ∧ t.store.recalling = true ∧ t.store.recallDue = false ∧ t.store.run =
      s.store.run ∧ t.store.commit.isSome = true ∧ t.store.user = s.store.user ∧ t.port = s.port) ∧
  (∀ (s : State), s.store.recallDue = true ∨ s.sbUp = false ∨ activeCopy s.store = none → ∃ t,
      exec (.uncorrectableRecall) s = .next t ∧ t = s) ∧
  (∀ (s : State) (p c u : Nat) (cmd : Option CmdRef), s.store.scrub = some (p, c, u, cmd) → s.store.prog = none →
      p + 1 < 514 → ∃ t, exec (.scrubPage [] []) s = .next t ∧ t.store =
      { s.store with scrub := some (p + 1, c, u, cmd), weak := s.store.weak.filter (fun x => x.1 ≠ p) } ∧ t =
      { s with store := t.store }) ∧
  (∀ (s : State) (p c u : Nat) (g : Fin 33) (l : List (Fin 33)) (cmd : Option CmdRef), s.store.scrub = some (p, c, u,
      cmd) → s.store.prog = none → p + 1 < 514 → (g :: l).Nodup → ∃ t, exec (.scrubPage (g :: l) []) s = .next t ∧
      t.store.scrub = some (p + 1, c + (l.length + 1), u, cmd) ∧ t.store.queue.length = s.store.queue.length + 1 ∧
      (t.store.queue.getLast?.map fun r => (r.job, r.page)) = some (.scrub, p) ∧ t.store.user = s.store.user ∧
      t.store.copyA = s.store.copyA ∧ t.store.copyB = s.store.copyB ∧ t = { s with store := t.store } ∧
      (t.store.queue.getLast?.map PageReq.data) = some .refresh ∧ (p, g) ∈ t.store.weak) ∧
  (∀ (s : State) (p c u : Nat) (g : Fin 33) (l k : List (Fin 33)) (cmd : Option CmdRef), s.store.scrub = some (p, c, u,
      cmd) → s.store.prog = none → p + 1 < 514 → activeCopy s.store = none → ∃ t, exec (.scrubPage k (g :: l)) s =
      .next t ∧ t.store.scrub = some (p + 1, c + (k.dedup.filter fun x => !(g :: l).contains x).length, u + 1, cmd) ∧ (p,
      g) ∈ t.store.bad ∧ (g = 32 → t.store.torn p = true) ∧ t.store.marks = s.store.marks ∧ t.store.user = s.store.user ∧
      t.store.run = s.store.run ∧ t.store.queue = s.store.queue ∧ t = { s with store := t.store }) ∧
  (∀ (s : State) (c u : Nat), s.store.scrub = some (513, c, u, none) → s.store.prog = none → ∃ t,
      exec (.scrubPage [] []) s = .next t ∧ t.store.scrub = none ∧ t.store.fails = 0 ∧ t.store.user = s.store.user ∧
      t.store.copyA = s.store.copyA ∧ t.store.copyB = s.store.copyB ∧ t.port = s.port ∧ t.store.fixes = 0) ∧
  (∀ (s : State) (a b : List (Fin 33)), s.store.scrub = none ∨ s.store.prog ≠ none → ∃ t, exec (.scrubPage a b) s =
      .next t ∧ t = s) ∧
  (∀ (s : State), s.sbUp = true → s.store.scrub = none → 30 * 86400 * samplesPerSecond ≤ s.health.sinceScrub → ∃ t,
      exec (.scrubDue) s = .next t ∧ t =
      { s with store := { s.store with scrub := some (0, 0, 0, none) }, health := { s.health with sinceScrub := 0 } }) ∧
  (∀ (s : State), s.sbUp = false ∨ s.store.scrub ≠ none ∨ s.health.sinceScrub < 30 * 86400 * samplesPerSecond → ∃ t,
      exec (.scrubDue) s = .next t ∧ t = s) ∧
  (∀ (s : State), s.sup.hvUp = true → s.store.saving = none → s.store.prog = none → ∃ t, exec (.hourlySave) s = .next t ∧
      t.store.saving.map Record.slots = some s.saveSlots ∧ t.store.ssnLatch = s.ssn - 1 ∧ t.store.user = s.store.user ∧
      t.store.ring = s.store.ring ∧ t.store.copyA = s.store.copyA ∧ t.claim = s.claim) ∧
  (∀ (s : State), s.sup.hvUp = true → s.store.saving = none → s.store.prog ≠ none → ∃ t, exec (.hourlySave) s = .next t ∧
      t = { s with store := { s.store with saveAgain := true } }) ∧
  (∀ (s : State), s.sup.hvUp = false ∨ s.store.saving ≠ none → ∃ t, exec (.hourlySave) s = .next t ∧ t = s) ∧
  (∀ (s : State), s.sup.hvUp = true → s.store.saving = none → s.store.prog = none →
      2 ^ 19 ≤ (s.ssn - 1 - s.store.ssnLatch).toNat → ∃ t, exec (.ssnSave) s = .next t ∧
      t.store.saving.map Record.slots = some s.saveSlots ∧ t.store.ssnLatch = s.ssn - 1 ∧ t.store.user = s.store.user ∧
      t.store.ring = s.store.ring ∧ t.store.copyA = s.store.copyA ∧ t.claim = s.claim) ∧
  (∀ (s : State), (s.ssn - 1 - s.store.ssnLatch).toNat < 2 ^ 19 ∨ s.sup.hvUp = false ∨ s.store.saving ≠ none → ∃ t,
      exec (.ssnSave) s = .next t ∧ t = s) ∧
  (∀ (s : State) (b : Bank) (c : CmdRef) (l : List (Bank × CmdRef)), s.verify = (b, c) :: l → s.active.any (fun x =>
      decide (CmdRef.of x = c)) = true → ∃ t, exec (.verifyDone) s = .next t ∧ t.verify = l ∧ (t.bank b).st =
      (if (s.verifyBank b).1 = 0 then 2 else 3) ∧ (t.bank b).mem = (s.bank b).mem ∧ (t.bank b).sel = (s.bank b).sel ∧
      (t.bank b.other) = s.bank b.other ∧ t.active = s.active.filter (fun x => !(decide (x.p.host =
      c.host) && decide (x.p.tag = c.tag))) ∧ t.host[c.host.ix].events = s.host[c.host.ix].events ++
      [{ code := c.op, ssn := s.ssn, ct := s.time.ct, source := c.target, flags := BitVec.ofNat 8 (2 + b2n s.resume), tag := c.tag, payload := leBytes 2 stOk.toNat ++ (leBytes 1 (s.verifyBank b).1 ++ [0, 0, 0] ++ leBytes 4 (s.bank b).version) }] ∧
      t.port = s.port ∧ t.store = s.store) ∧
  (∀ (s : State), s.verify = [] → ∃ t, exec (.verifyDone) s = .next t ∧ t = s) ∧
  (∀ (s : State) (c : CmdRef) (l : List CmdRef), s.advance = c :: l → s.active.any (fun x => decide (CmdRef.of x = c)) =
      true → ∃ t, exec (.rollbackAdvanceDone) s = .next t ∧ t.advance = l ∧ t.fuse =
      { s.fuse with arb := blow s.fuse.arb s.running.arbLevel } ∧ t.active = s.active.filter (fun x =>
      !(decide (x.p.host = c.host) && decide (x.p.tag = c.tag))) ∧ t.host[c.host.ix].events = s.host[c.host.ix].events ++
      [{ code := c.op, ssn := s.ssn, ct := s.time.ct, source := c.target, flags := BitVec.ofNat 8 (2 + b2n s.resume), tag := c.tag, payload := leBytes 2 stOk.toNat ++ (leBytes 4 ({ s with fuse := { s.fuse with arb := blow s.fuse.arb s.running.arbLevel } } : State).arbSealed) }] ∧
      t.port = s.port ∧ t.store = s.store) ∧
  (∀ (s : State), s.advance = [] → ∃ t, exec (.rollbackAdvanceDone) s = .next t ∧ t = s)

/-- A reading opcode whose turn has come and that passes its checks is answered OK with the bytes its row gives, and
changes nothing but the inbox, its tag and its host port's replies. The reserved bits of the sealed words HP_FUSE0,
HP_FUSE1, SQ_CFG, SQ_RAILx, HS_FUSE2 and HS_FUSE3 read 0. Where the manual leaves a point open this rests on the model's
own reading: log entries 126, 145. -/
def Obligations.StationReads : Prop :=
  (∀ (s : State) (p : Packet), s.turn 0x0100 p → s.coreCheck 0x0100 p = none → ∃ t, exec (.identity p) s = .next t ∧
      s.reads t p 0x0100 (leBytes 2 0x2448 ++ [0x10] ++ leBytes 1 (s.sup.slotId.getD 0).toNat ++
      leBytes 4 s.fuse.present.toNat ++ leBytes 4 s.health.retired.toNat ++ leBytes 4 (if s.sup.primer =
      .service then 0 else s.running.version) ++ leBytes 1 ((s.sup.runBank.map Bank.code).getD 0xFF) ++
      leBytes 1 (b2n (s.sup.primer = .service)) ++ leBytes 1 (HostPort.code p.host) ++ leBytes 1 (s.eff p.host))) ∧
  (∀ (s : State) (p : Packet) (o : Obj), s.turn 0x0101 p → s.coreCheck 0x0101 p = none → Obj.ofTarget p.target = some o →
      ((ridsOf p.payload).all fun r => ridOk 1 o.kind r) = true → ∃ t, exec (.readRegs 1 p) s = .next t ∧
      s.reads t p 0x0101 (((ridsOf p.payload).map fun r => leBytes 4 (s.readReg o r).toNat).flatten)) ∧
  (∀ (s : State) (p : Packet) (o : Obj), s.turn 0x0201 p → s.coreCheck 0x0201 p = none → Obj.ofTarget p.target = some o →
      ((ridsOf p.payload).all fun r => ridOk 2 o.kind r) = true → ∃ t, exec (.readRegs 2 p) s = .next t ∧
      s.reads t p 0x0201 (((ridsOf p.payload).map fun r => leBytes 4 (s.readReg o r).toNat).flatten)) ∧
  (∀ (s : State) (p : Packet) (o : Obj), s.turn 0x0301 p → s.coreCheck 0x0301 p = none → Obj.ofTarget p.target = some o →
      ((ridsOf p.payload).all fun r => ridOk 3 o.kind r) = true → ∃ t, exec (.readRegs 3 p) s = .next t ∧
      s.reads t p 0x0301 (((ridsOf p.payload).map fun r => leBytes 4 (s.readReg o r).toNat).flatten)) ∧
  (∀ (s : State) (p : Packet) (o : Obj), s.turn 0x0501 p → s.coreCheck 0x0501 p = none → Obj.ofTarget p.target = some o →
      ((ridsOf p.payload).all fun r => ridOk 5 o.kind r) = true → ∃ t, exec (.readRegs 5 p) s = .next t ∧
      s.reads t p 0x0501 (((ridsOf p.payload).map fun r => leBytes 4 (s.readReg o r).toNat).flatten)) ∧
  (∀ (s : State) (p : Packet) (o : Obj), s.turn 0x0601 p → s.coreCheck 0x0601 p = none → Obj.ofTarget p.target = some o →
      ((ridsOf p.payload).all fun r => ridOk 6 o.kind r) = true → ∃ t, exec (.readRegs 6 p) s = .next t ∧
      s.reads t p 0x0601 (((ridsOf p.payload).map fun r => leBytes 4 (s.readReg o r).toNat).flatten)) ∧
  (∀ (s : State) (p : Packet), s.turn 0x0300 p → s.coreCheck 0x0300 p = none → ∃ t, exec (.readTime p) s = .next t ∧
      s.reads t p 0x0300 (leBytes 8 s.time.ct.toNat)) ∧
  (∀ (s : State) (p : Packet) (k : Fin 128), s.turn 0x0304 p → s.coreCheck 0x0304 p = none → (p.payload.headD 0).toNat =
      k.val → ∃ t, exec (.readChannel p) s = .next t ∧ s.reads t p 0x0304 (([s.chan[k].ctrl, s.chan[k].count,
      s.chan[k].reload, s.chan[k].buf, s.chan[k].mtch, s.chan[k].phase].map fun w => leBytes 4 w.toNat).flatten)) ∧
  (∀ (s : State) (p : Packet), s.turn 0x0305 p → s.coreCheck 0x0305 p = none → 1 ≤ (p.payload.getD 1 0).toNat →
      (p.payload.getD 1 0).toNat ≤ 64 → (p.payload.getD 0 0).toNat + (p.payload.getD 1 0).toNat ≤ 256 → ∃ t,
      exec (.readEntries p) s = .next t ∧
      s.reads t p 0x0305 ((((s.tt.entries.toList.drop (p.payload.getD 0 0).toNat).take (p.payload.getD 1 0).toNat).map fun e =>
      ((entryWords e).map fun w => leBytes 4 w.toNat).flatten).flatten)) ∧
  (∀ (s : State) (p : Packet), s.turn 0x0400 p → s.coreCheck 0x0400 p = none → s.store.recalling = false → ∃ t,
      exec (.storeInfo p) s = .next t ∧ s.reads t p 0x0400 (leBytes 4 s.store.copyA.seq.toNat ++
      leBytes 4 s.store.copyB.seq.toNat ++ leBytes 1 (copyCode (activeCopy s.store)) ++ leBytes 1 (protNow s.store) ++
      leBytes 1 (min 255 (wearPercent s.store.cycles)) ++ [0])) ∧
  (∀ (s : State) (p : Packet), s.turn 0x0410 p → s.coreCheck 0x0410 p = none → 1 ≤ le16 p.payload 2 →
      le16 p.payload 2 ≤ 1024 → le16 p.payload 0 + le16 p.payload 2 ≤ 8192 → s.store.recalling = false → ∃ t,
      exec (.paletteRead p) s = .next t ∧
      s.reads t p 0x0410 ((s.paletteBytes.drop (le16 p.payload 0)).take (le16 p.payload 2))) ∧
  (∀ (s : State) (p : Packet), s.turn 0x0420 p → s.coreCheck 0x0420 p = none → 1 ≤ le16 p.payload 4 →
      le16 p.payload 4 ≤ 1024 → le32 p.payload 0 + le16 p.payload 4 ≤ 65536 → s.store.recalling = false → s.store.prog =
      none → (userRange (le32 p.payload 0) (le16 p.payload 4)).any s.store.torn = false →
      groupsOver s.store.bad (le32 p.payload 0) (le16 p.payload 4) = [] →
      groupsOver s.store.weak (le32 p.payload 0) (le16 p.payload 4) = [] → ∃ t, exec (.userRead p) s = .next t ∧
      s.reads t p 0x0420 (Mem.read zeroByte s.store.user (le32 p.payload 0) (le16 p.payload 4))) ∧
  (∀ (s : State) (p : Packet), s.turn 0x0800 p → s.coreCheck 0x0800 p = none → ∃ t, exec (.healthStatus p) s = .next t ∧
      s.reads t p 0x0800 (leBytes 4 s.health.active.toNat ++ leBytes 4 s.health.retired.toNat ++
      leBytes 1 (((List.finRange 4).map fun k => if s.plat[k].fallback then 2 ^ k.val else 0).sum) ++
      leBytes 1 (b2n s.replaceN) ++ [0, 0])) ∧
  (∀ (s : State) (p : Packet), s.turn 0x0801 p → s.coreCheck 0x0801 p = none → ∃ t, exec (.logRead p) s = .next t ∧
      s.reads t p 0x0801 (leBytes 4 ((((s.logAll.filter (fromIndex (BitVec.ofNat 32 (le32 p.payload 0)))).take 42).head?.map fun e =>
      e.index).getD s.store.logIndex).toNat ++
      leBytes 4 ((((s.logAll.filter (fromIndex (BitVec.ofNat 32 (le32 p.payload 0)))).take 42).getLast?.map fun e =>
      e.index + 1).getD s.store.logIndex).toNat ++
      (((s.logAll.filter (fromIndex (BitVec.ofNat 32 (le32 p.payload 0)))).take 42).map logEntryBytes).flatten)) ∧
  (∀ (s : State) (p : Packet), s.turn 0x0804 p → s.coreCheck 0x0804 p = none → Obj.ofTarget p.target = some .station →
      ∃ t, exec (.odometerRead p) s = .next t ∧ s.reads t p 0x0804 ((s.stationSlots.map fun x =>
      leBytes 8 x.toNat).flatten)) ∧
  (∀ (s : State) (p : Packet) (n : PortId), s.turn 0x0804 p → s.coreCheck 0x0804 p = none → Obj.ofTarget p.target =
      some (.port n) → ∃ t, exec (.odometerRead p) s = .next t ∧
      s.reads t p 0x0804 (((portSlots s.port[n].ms).map fun x => leBytes 8 x.toNat).flatten)) ∧
  (∀ (s : State) (p : Packet), s.turn 0x0500 p → s.coreCheck 0x0500 p = none → ∃ t, exec (.energySnapshot p) s =
      .next t ∧ s.reads t p 0x0500 (leBytes 8 s.time.ct.toNat ++ leBytes 2 s.phase ++ List.replicate 6 0 ++
      (allPorts.map fun n => leBytes 8 (s.energyPair n).1.toNat ++ leBytes 8 (s.energyPair n).2.toNat).flatten)) ∧
  (∀ (s : State) (p : Packet), s.turn 0x0503 p → s.coreCheck 0x0503 p = none → ∃ t, exec (.hkRead p) s = .next t ∧
      s.reads t p 0x0503 ((([s.hk.vbp, s.hk.vhold, s.hk.vcp, s.hk.vdd33, s.hk.vdd09, s.hk.vddnt, s.hk.int33, s.hk.vconn0,
      s.hk.vconn1, s.hk.vconn2, s.hk.vconn3, s.hk.tHv, s.hk.tLogic] : List (BitVec 16)).map fun x =>
      leBytes 2 x.toNat).flatten)) ∧
  (∀ (s : State) (p : Packet), s.turn 0x0510 p → s.coreCheck 0x0510 p = none → ∃ t, exec (.sketchList p) s = .next t ∧
      s.reads t p 0x0510 ((s.plat.toList.map fun (k : Platform) => (k.slots.toList.map sketchLine).flatten).flatten)) ∧
  (∀ (s : State) (p : Packet) (k : PlatId) (i : Fin 8) (x : Sketch), s.turn 0x0511 p → s.coreCheck 0x0511 p = none →
      Obj.ofTarget p.target = some (.plat k) → (p.payload.headD 0).toNat = i.val → s.plat[k].slots[i] = some x →
      p.payload.getD 1 0 = 0 → 1 ≤ le16 p.payload 6 → le16 p.payload 6 ≤ 1024 →
      le32 p.payload 2 + le16 p.payload 6 ≤ 32832 → ∃ t, exec (.sketchRead p) s = .next t ∧
      s.reads t p 0x0511 (x.bytes i.val (le32 p.payload 2) (le16 p.payload 6))) ∧
  (∀ (s : State) (p : Packet), s.turn 0x0700 p → s.coreCheck 0x0700 p = none → ∃ t, exec (.kernelList p) s = .next t ∧
      s.reads t p 0x0700 (((List.finRange 5).map fun i => leBytes 1 s.core[i].slot.st.code ++ [0, 0, 0] ++
      leBytes 4 s.core[i].slot.kid.toNat ++ leBytes 4 s.core[i].slot.size ++ leBytes 4 s.core[i].slot.cycMax).flatten)) ∧
  (∀ (s : State) (p : Packet), s.turn 0x0710 p → s.coreCheck 0x0710 p = none → ∃ t, exec (.imageInfo p) s = .next t ∧
      s.reads t p 0x0710 ((leBytes 1 (s.bank .a).st.val ++ leBytes 1 (b2n (decide (s.sup.runBank = some .a))) ++ [0,
      0] ++ leBytes 4 (s.bank .a).version ++ leBytes 4 (s.bank .a).arbLevel) ++ (leBytes 1 (s.bank .b).st.val ++
      leBytes 1 (b2n (decide (s.sup.runBank = some .b))) ++ [0, 0] ++ leBytes 4 (s.bank .b).version ++
      leBytes 4 (s.bank .b).arbLevel) ++ leBytes 4 s.arbSealed ++ leBytes 1 (b2n s.fuse.keySet) ++ [0, 0, 0])) ∧
  (∀ (s : State) (i : Fin 12) (k : Nat), (k = 15 → bit s.hpFuse0 k = false) ∧ (30 ≤ k ∧ k ≤ 31 → bit s.hpFuse1 k =
      false) ∧
    (k < 18 → bit s.sqCfgW k = false) ∧ (k < 7 → bit (s.sqRailW i) k = false) ∧ (k < 2 → bit s.hsW2 k = false) ∧
    (1 ≤ k ∧ k ≤ 3 → bit s.hsW3 k = false))

/-- RESTART and SET_EPOCH are accepted and leave their request to be carried out; WRITE_REGS of Palette fields is
accepted and starts a commit of the running configuration with them, clamped; of none, it is answered at once. CLAIM
gives the host port every port of its mask, RELEASE gives up those of the mask that it holds, CLAIM_BREAK breaks the
claims of the mask; each leaves every other claim; SUBSCRIBE sets the host port's groups. Where the manual leaves a point
open this rests on the model's own reading: log entries 88, 89, 90. -/
def Obligations.StationActions : Prop :=
  (∀ (s : State) (p : Packet), s.turn 0x0120 p → s.coreCheck 0x0120 p = none → s.restartBars = false → ∃ t,
      exec (.restart p) s = .next t ∧ t.sup.restartReq =
      some { bank := none, cmd := { host := p.host, tag := p.tag, op := 0x0120, target := p.target } } ∧
      s.accepted t p 0x0120 ∧ t.port = s.port ∧ t.store = s.store) ∧
  (∀ (s : State) (p : Packet), s.turn 0x0303 p → s.coreCheck 0x0303 p = none → le32 p.payload 0 < 134217728 →
      s.time.epochPend = none → ∃ t, exec (.setEpoch p) s = .next t ∧ t.time.epochPend =
      some (BitVec.ofNat 27 (le32 p.payload 0),
      some { host := p.host, tag := p.tag, op := 0x0303, target := p.target }) ∧ s.accepted t p 0x0303 ∧ t.port =
      s.port ∧ t.time.ct = s.time.ct) ∧
  (∀ (s : State) (p : Packet) (o : Obj), s.turn 0x0102 p → s.coreCheck 0x0102 p = none → Obj.ofTarget p.target = some o →
      (entriesOf p.payload).filter RegWrite.pal ≠ [] → judgeWriteRegs 1 s p = none → ∃ t, exec (.writeRegs 1 p) s =
      .next t ∧ t.store.commit.map Commit.cfg =
      some (s.clampCfg (putEntries o s.store.run ((entriesOf p.payload).filter RegWrite.pal))) ∧ t.store.run =
      s.store.run ∧ s.accepted t p 0x0102 ∧ t.port = s.port) ∧
  (∀ (s : State) (p : Packet) (o : Obj), s.turn 0x0102 p → s.coreCheck 0x0102 p = none → Obj.ofTarget p.target = some o →
      (entriesOf p.payload).filter RegWrite.pal = [] → judgeWriteRegs 1 s p = none → ∃ t, exec (.writeRegs 1 p) s =
      .next t ∧ s.answered t p 0x0102 stOk [] ∧ t.store = s.store ∧ t.port =
      ((clearsOf (entriesOf p.payload)).foldl (fun s x => s.w1c o x.1.toNat x.2) s.rest).port ∧ t.sq =
      ((clearsOf (entriesOf p.payload)).foldl (fun s x => s.w1c o x.1.toNat x.2) s.rest).sq ∧ t.time =
      ((clearsOf (entriesOf p.payload)).foldl (fun s x => s.w1c o x.1.toNat x.2) s.rest).time ∧ t.bg =
      ((clearsOf (entriesOf p.payload)).foldl (fun s x => s.w1c o x.1.toNat x.2) s.rest).bg ∧ t.net =
      ((clearsOf (entriesOf p.payload)).foldl (fun s x => s.w1c o x.1.toNat x.2) s.rest).net) ∧
  (∀ (s : State) (p : Packet) (o : Obj), s.turn 0x0202 p → s.coreCheck 0x0202 p = none → Obj.ofTarget p.target = some o →
      (entriesOf p.payload).filter RegWrite.pal ≠ [] → judgeWriteRegs 2 s p = none → ∃ t, exec (.writeRegs 2 p) s =
      .next t ∧ t.store.commit.map Commit.cfg =
      some (s.clampCfg (putEntries o s.store.run ((entriesOf p.payload).filter RegWrite.pal))) ∧ t.store.run =
      s.store.run ∧ s.accepted t p 0x0202 ∧ t.port = s.port) ∧
  (∀ (s : State) (p : Packet) (o : Obj), s.turn 0x0202 p → s.coreCheck 0x0202 p = none → Obj.ofTarget p.target = some o →
      (entriesOf p.payload).filter RegWrite.pal = [] → judgeWriteRegs 2 s p = none → ∃ t, exec (.writeRegs 2 p) s =
      .next t ∧ s.answered t p 0x0202 stOk [] ∧ t.store = s.store ∧ t.port =
      ((clearsOf (entriesOf p.payload)).foldl (fun s x => s.w1c o x.1.toNat x.2) s.rest).port ∧ t.sq =
      ((clearsOf (entriesOf p.payload)).foldl (fun s x => s.w1c o x.1.toNat x.2) s.rest).sq ∧ t.time =
      ((clearsOf (entriesOf p.payload)).foldl (fun s x => s.w1c o x.1.toNat x.2) s.rest).time ∧ t.bg =
      ((clearsOf (entriesOf p.payload)).foldl (fun s x => s.w1c o x.1.toNat x.2) s.rest).bg ∧ t.net =
      ((clearsOf (entriesOf p.payload)).foldl (fun s x => s.w1c o x.1.toNat x.2) s.rest).net) ∧
  (∀ (s : State) (p : Packet) (o : Obj), s.turn 0x0302 p → s.coreCheck 0x0302 p = none → Obj.ofTarget p.target = some o →
      (entriesOf p.payload).filter RegWrite.pal ≠ [] → judgeWriteRegs 3 s p = none → ∃ t, exec (.writeRegs 3 p) s =
      .next t ∧ t.store.commit.map Commit.cfg =
      some (s.clampCfg (putEntries o s.store.run ((entriesOf p.payload).filter RegWrite.pal))) ∧ t.store.run =
      s.store.run ∧ s.accepted t p 0x0302 ∧ t.port = s.port) ∧
  (∀ (s : State) (p : Packet) (o : Obj), s.turn 0x0302 p → s.coreCheck 0x0302 p = none → Obj.ofTarget p.target = some o →
      (entriesOf p.payload).filter RegWrite.pal = [] → judgeWriteRegs 3 s p = none → ∃ t, exec (.writeRegs 3 p) s =
      .next t ∧ s.answered t p 0x0302 stOk [] ∧ t.store = s.store ∧ t.port =
      ((clearsOf (entriesOf p.payload)).foldl (fun s x => s.w1c o x.1.toNat x.2) s.rest).port ∧ t.sq =
      ((clearsOf (entriesOf p.payload)).foldl (fun s x => s.w1c o x.1.toNat x.2) s.rest).sq ∧ t.time =
      ((clearsOf (entriesOf p.payload)).foldl (fun s x => s.w1c o x.1.toNat x.2) s.rest).time ∧ t.bg =
      ((clearsOf (entriesOf p.payload)).foldl (fun s x => s.w1c o x.1.toNat x.2) s.rest).bg ∧ t.net =
      ((clearsOf (entriesOf p.payload)).foldl (fun s x => s.w1c o x.1.toNat x.2) s.rest).net) ∧
  (∀ (s : State) (p : Packet) (o : Obj), s.turn 0x0502 p → s.coreCheck 0x0502 p = none → Obj.ofTarget p.target = some o →
      (entriesOf p.payload).filter RegWrite.pal ≠ [] → judgeWriteRegs 5 s p = none → ∃ t, exec (.writeRegs 5 p) s =
      .next t ∧ t.store.commit.map Commit.cfg =
      some (s.clampCfg (putEntries o s.store.run ((entriesOf p.payload).filter RegWrite.pal))) ∧ t.store.run =
      s.store.run ∧ s.accepted t p 0x0502 ∧ t.port = s.port) ∧
  (∀ (s : State) (p : Packet) (o : Obj), s.turn 0x0502 p → s.coreCheck 0x0502 p = none → Obj.ofTarget p.target = some o →
      (entriesOf p.payload).filter RegWrite.pal = [] → judgeWriteRegs 5 s p = none → ∃ t, exec (.writeRegs 5 p) s =
      .next t ∧ s.answered t p 0x0502 stOk [] ∧ t.store = s.store ∧ t.port =
      ((clearsOf (entriesOf p.payload)).foldl (fun s x => s.w1c o x.1.toNat x.2) s.rest).port ∧ t.sq =
      ((clearsOf (entriesOf p.payload)).foldl (fun s x => s.w1c o x.1.toNat x.2) s.rest).sq ∧ t.time =
      ((clearsOf (entriesOf p.payload)).foldl (fun s x => s.w1c o x.1.toNat x.2) s.rest).time ∧ t.bg =
      ((clearsOf (entriesOf p.payload)).foldl (fun s x => s.w1c o x.1.toNat x.2) s.rest).bg ∧ t.net =
      ((clearsOf (entriesOf p.payload)).foldl (fun s x => s.w1c o x.1.toNat x.2) s.rest).net) ∧
  (∀ (s : State) (p : Packet) (o : Obj), s.turn 0x0602 p → s.coreCheck 0x0602 p = none → Obj.ofTarget p.target = some o →
      (entriesOf p.payload).filter RegWrite.pal = [] → judgeWriteRegs 6 s p = none → ∃ t, exec (.writeRegs 6 p) s =
      .next t ∧ s.answered t p 0x0602 stOk [] ∧ t.store = s.store ∧ t.port =
      ((clearsOf (entriesOf p.payload)).foldl (fun s x => s.w1c o x.1.toNat x.2) s.rest).port ∧ t.sq =
      ((clearsOf (entriesOf p.payload)).foldl (fun s x => s.w1c o x.1.toNat x.2) s.rest).sq ∧ t.time =
      ((clearsOf (entriesOf p.payload)).foldl (fun s x => s.w1c o x.1.toNat x.2) s.rest).time ∧ t.bg =
      ((clearsOf (entriesOf p.payload)).foldl (fun s x => s.w1c o x.1.toNat x.2) s.rest).bg ∧ t.net =
      ((clearsOf (entriesOf p.payload)).foldl (fun s x => s.w1c o x.1.toNat x.2) s.rest).net) ∧
  (∀ (s : State) (p : Packet), s.turn 0x0110 p → s.coreCheck 0x0110 p = none → 1 ≤ claimMask p → claimMask p < 16777216 →
      (∀ n ∈ maskPorts (claimMask p), s.inService n = true ∧ (s.claim[n] = none ∨ s.claim[n] = some p.host)) → ∃ t,
      exec (.claim p) s = .next t ∧ (∀ n : PortId, t.claim[n] =
      if (claimMask p).testBit n.val then some p.host else s.claim[n]) ∧
      s.answered t p 0x0110 stOk (leBytes 4 (t.heldMask p.host)) ∧ t.port = s.port) ∧
  (∀ (s : State) (p : Packet), s.turn 0x0111 p → s.coreCheck 0x0111 p = none → 1 ≤ claimMask p → claimMask p < 16777216 →
      ∃ t, exec (.release p) s = .next t ∧ (∀ n : PortId, t.claim[n] = if (claimMask p).testBit n.val ∧ s.claim[n] =
      some p.host then none else s.claim[n]) ∧ s.answered t p 0x0111 stOk (leBytes 4 (t.heldMask p.host)) ∧ t.port =
      s.port) ∧
  (∀ (s : State) (p : Packet), s.turn 0x0112 p → s.coreCheck 0x0112 p = none → 1 ≤ claimMask p → claimMask p < 16777216 →
      ∃ t, exec (.claimBreak p) s = .next t ∧ (∀ n : PortId, t.claim[n] =
      if (claimMask p).testBit n.val then none else s.claim[n]) ∧
      s.answered t p 0x0112 stOk (leBytes 4 ((((maskPorts (claimMask p)).filter fun n => s.claim[n] ≠ none).map fun n =>
      2 ^ n.val).sum)) ∧ t.port = s.port) ∧
  (∀ (s : State) (p : Packet), s.turn 0x0118 p → s.coreCheck 0x0118 p = none → ∃ t, exec (.subscribe p) s = .next t ∧
      t.host[p.host.ix].sub = p.payload.headD 0 ∧ s.answered t p 0x0118 stOk [p.payload.headD 0] ∧ t.port = s.port ∧
      t.claim = s.claim ∧ (p.host ≠ .net → t.net = s.net))

/-- SWAP is accepted and asks the partner for the swap it names; ALT_MODE is accepted and joins or starts the discovery
or the exit; PATH_CLEAR takes the port's path from LOCKOFF to OPEN. Where the manual leaves a point open this rests on
the model's own reading: log entries 97, 111. -/
def Obligations.PortActions : Prop :=
  (∀ (s : State) (p : Packet) (n : PortId), s.turn 0x0210 p → s.coreCheck 0x0210 p = none → Obj.ofTarget p.target =
      some (.port n) → swapKind (p.payload.headD 0).toNat = some .power → judgeSwap s p = none → s.port[n].tc.st =
      .attSrc → ∃ t, exec (.swap p) s = .next t ∧ t.port[n].rs.kind = some .power ∧ t.port[n].rs.step = .asked ∧
      t.port[n].rs.code = (.prSrcSnk) ∧ t.port[n].rs.host =
      some { host := p.host, tag := p.tag, op := 0x0210, target := p.target } ∧ s.accepted t p 0x0210 ∧ t.port[n].tc.st =
      s.port[n].tc.st ∧ t.port[n].pp = s.port[n].pp) ∧
  (∀ (s : State) (p : Packet) (n : PortId), s.turn 0x0210 p → s.coreCheck 0x0210 p = none → Obj.ofTarget p.target =
      some (.port n) → swapKind (p.payload.headD 0).toNat = some .power → judgeSwap s p = none → s.port[n].tc.st ≠
      .attSrc → ∃ t, exec (.swap p) s = .next t ∧ t.port[n].rs.kind = some .power ∧ t.port[n].rs.step = .asked ∧
      t.port[n].rs.code = (.prSnkSrc) ∧ t.port[n].rs.host =
      some { host := p.host, tag := p.tag, op := 0x0210, target := p.target } ∧ s.accepted t p 0x0210 ∧ t.port[n].tc.st =
      s.port[n].tc.st ∧ t.port[n].pp = s.port[n].pp) ∧
  (∀ (s : State) (p : Packet) (n : PortId), s.turn 0x0210 p → s.coreCheck 0x0210 p = none → Obj.ofTarget p.target =
      some (.port n) → swapKind (p.payload.headD 0).toNat = some .data → judgeSwap s p = none → ∃ t, exec (.swap p) s =
      .next t ∧ t.port[n].rs.kind = some .data ∧ t.port[n].rs.step = .asked ∧ t.port[n].rs.code = (.dr) ∧
      t.port[n].rs.host = some { host := p.host, tag := p.tag, op := 0x0210, target := p.target } ∧
      s.accepted t p 0x0210 ∧ t.port[n].tc.st = s.port[n].tc.st ∧ t.port[n].pp = s.port[n].pp) ∧
  (∀ (s : State) (p : Packet) (n : PortId), s.turn 0x0210 p → s.coreCheck 0x0210 p = none → Obj.ofTarget p.target =
      some (.port n) → swapKind (p.payload.headD 0).toNat = some .vconn → judgeSwap s p = none → ∃ t, exec (.swap p) s =
      .next t ∧ t.port[n].rs.kind = some .vconn ∧ t.port[n].rs.step = .asked ∧ t.port[n].rs.code =
      (if s.port[n].tc.vconnOn then .vconnOff else .vconnOn) ∧ t.port[n].rs.host =
      some { host := p.host, tag := p.tag, op := 0x0210, target := p.target } ∧ s.accepted t p 0x0210 ∧ t.port[n].tc.st =
      s.port[n].tc.st ∧ t.port[n].pp = s.port[n].pp) ∧
  (∀ (s : State) (p : Packet) (n : PortId), s.turn 0x0220 p → s.coreCheck 0x0220 p = none → Obj.ofTarget p.target =
      some (.port n) → p.payload.headD 0 = 0 → judgeAltMode s p = none → s.mayDiscover n = true → ∃ t,
      exec (.altMode p) s = .next t ∧ t.port[n].alt.host =
      some { host := p.host, tag := p.tag, op := 0x0220, target := p.target } ∧ t.port[n].alt.step = .identity ∧
      t.port[n].alt.tried = true ∧ s.accepted t p 0x0220 ∧ t.port[n].tc = s.port[n].tc) ∧
  (∀ (s : State) (p : Packet) (n : PortId), s.turn 0x0220 p → s.coreCheck 0x0220 p = none → Obj.ofTarget p.target =
      some (.port n) → p.payload.headD 0 = 0 → judgeAltMode s p = none → s.port[n].pd.contract = false → ∃ t,
      exec (.altMode p) s = .next t ∧ t.port[n].alt =
      { s.port[n].alt with host := some { host := p.host, tag := p.tag, op := 0x0220, target := p.target } } ∧
      s.accepted t p 0x0220 ∧ t.port[n].tc = s.port[n].tc ∧ t.port[n].pd = s.port[n].pd) ∧
  (∀ (s : State) (p : Packet) (n : PortId), s.turn 0x0220 p → s.coreCheck 0x0220 p = none → Obj.ofTarget p.target =
      some (.port n) → p.payload.headD 0 = 1 → judgeAltMode s p = none → s.port[n].alt.step = .exiting ∨
      s.port[n].alt.step = .exitSafe → ∃ t, exec (.altMode p) s = .next t ∧ t.port[n].alt =
      { s.port[n].alt with host := some { host := p.host, tag := p.tag, op := 0x0220, target := p.target } } ∧
      s.accepted t p 0x0220 ∧ t.port[n].tc = s.port[n].tc) ∧
  (∀ (s : State) (p : Packet) (n : PortId), s.turn 0x0230 p → s.coreCheck 0x0230 p = none → Obj.ofTarget p.target =
      some (.port n) → s.port[n].pp.st = .lockoff → s.port[n].tc.st.attached = false ∨ s.port[n].tc.pathRetry = false →
      ∃ t, exec (.pathClear p) s = .next t ∧ t.port[n].pp = { s.port[n].pp with st := .opn } ∧
      s.answered t p 0x0230 stOk [] ∧ t.port[n].pd = s.port[n].pd) ∧
  (∀ (s : State) (p : Packet) (n : PortId), s.turn 0x0230 p → s.coreCheck 0x0230 p = none → Obj.ofTarget p.target =
      some (.port n) → s.port[n].pp.st = .lockoff → s.port[n].tc.st.attached = true → s.port[n].tc.pathRetry = true →
      ∃ t, exec (.pathClear p) s = .next t ∧ t.port[n].pp.st = .opn ∧ (s.answered t p 0x0230 stOk [] ∨ s.hs.warn = true ∧
      t.port[n].tc.pathRetry = true ∧ s.answered t p 0x0230 stBudgetRefused []) ∧ t.port[n].tc.st = s.port[n].tc.st)

/-- PALETTE_WRITE starts a commit of the running configuration with its bytes; USER_WRITE, USER_PROTECT, FORMAT and
LOG_CLEAR put their page programs behind those that wait and change no page by themselves; SCRUB starts at the first
page; WEAR_RESET clears cause 13 and puts the mark for its next raise a further 1 % of the rated cycles above the
most-cycled page. Where the manual leaves a point open this rests on the model's own reading: log entries 98, 99, 100,
165. -/
def Obligations.StoreActions : Prop :=
  (∀ (s : State) (p : Packet), s.turn 0x0411 p → s.coreCheck 0x0411 p = none → judgePaletteWrite s p = none →
      s.store.recalling = false → s.store.newer = false → ∃ t, exec (.paletteWrite p) s = .next t ∧
      t.store.commit.map Commit.cfg =
      some (s.clampCfg (Mem.write cfgDefault s.store.run (le16 p.payload 0) (p.payload.drop 4))) ∧ t.store.run =
      s.store.run ∧ s.accepted t p 0x0411 ∧ t.port = s.port) ∧
  (∀ (s : State) (p : Packet), s.turn 0x0421 p → s.coreCheck 0x0421 p = none → judgeUserWrite s p = none →
      judgeUserPages s p = none → s.store.recalling = false → ∃ t, exec (.userWrite p) s = .next t ∧ t.store.queue =
      s.store.queue ++ userPages (some { host := p.host, tag := p.tag, op := 0x0421, target := p.target }) 6 (le32 p.payload 0) (p.payload.drop 4) ∧
      t.store.user = s.store.user ∧ s.accepted t p 0x0421 ∧ t.port = s.port) ∧
  (∀ (s : State) (p : Packet), s.turn 0x0422 p → s.coreCheck 0x0422 p = none → (p.payload.headD 0).toNat ≤ 3 →
      s.store.recalling = false → ∃ t, exec (.userProtect p) s = .next t ∧ t.store.queue = s.store.queue ++
      [{ job := .control, page := 512, data := .control (p.payload.headD 0), retried := false, cmd := some { host := p.host, tag := p.tag, op := 0x0422, target := p.target }, final := true }] ∧
      t.store.prot0 = s.store.prot0 ∧ t.store.prot1 = s.store.prot1 ∧ s.accepted t p 0x0422 ∧ t.port = s.port) ∧
  (∀ (s : State) (p : Packet), s.turn 0x0430 p → s.coreCheck 0x0430 p = none → s.store.scrub = none → s.store.recalling =
      false → ∃ t, exec (.scrub p) s = .next t ∧ t.store.scrub = some (0, 0, 0,
      some { host := p.host, tag := p.tag, op := 0x0430, target := p.target }) ∧ t.health.sinceScrub = 0 ∧
      s.accepted t p 0x0430 ∧ t.port = s.port) ∧
  (∀ (s : State) (p : Packet), s.turn 0x0431 p → s.coreCheck 0x0431 p = none → s.store.recalling = false → ∃ t,
      exec (.wearReset p) s = .next t ∧ t.store.wearMark = (worstPage s.store.cycles).2 + 1000 ∧ bit t.health.active 13 =
      false ∧ s.answered t p 0x0431 stOk [] ∧ t.port = s.port) ∧
  (∀ (s : State) (p : Packet), s.turn 0x0432 p → s.coreCheck 0x0432 p = none → (p.payload.headD 0).toNat = 0 →
      s.store.recalling = false → 256 ≤ protStart (protNow s.store) → ∃ t, exec (.format p) s = .next t ∧
      t.store.queue.length = s.store.queue.length + protStart (protNow s.store) / 256 ∧ t.store.user = s.store.user ∧
      s.accepted t p 0x0432 ∧ t.port = s.port) ∧
  (∀ (s : State) (p : Packet), s.turn 0x0432 p → s.coreCheck 0x0432 p = none → (p.payload.headD 0).toNat = 1 →
      s.store.recalling = false → ∃ t, exec (.format p) s = .next t ∧ t.store.queue.length = s.store.queue.length + 128 ∧
      t.store.page = [] ∧ t.store.user = s.store.user ∧ s.accepted t p 0x0432 ∧ t.port = s.port) ∧
  (∀ (s : State) (p : Packet), s.turn 0x0802 p → s.coreCheck 0x0802 p = none → ∃ t, exec (.logClear p) s = .next t ∧
      t.store.queue.length = s.store.queue.length + 128 ∧ t.store.page = [] ∧ t.store.user = s.store.user ∧
      s.accepted t p 0x0802 ∧ t.port = s.port) ∧
  (∀ (s : State) (p : Packet), s.turn 0x0432 p → s.coreCheck 0x0432 p = none → (p.payload.headD 0).toNat = 2 →
      s.store.recalling = false → ∃ t, exec (.format p) s = .next t ∧ t.store.commit.map Commit.cfg = some [] ∧
      t.store.run = s.store.run ∧ t.store.user = s.store.user ∧ s.accepted t p 0x0432 ∧ t.port = s.port) ∧
  (∀ (s : State) (p : Packet) (x : BitVec 4) (b : Fin 2) (k : Nat) (n : PortId), s.turn 0x0803 p → s.coreCheck 0x0803 p =
      none → Obj.ofTarget p.target = some (.port n) → s.port[n].tc.st = .disabled ∨ s.port[n].tc.st.unatt = true → ∃ t,
      exec (.selftest p x b k) s = .next t ∧ t.port[n].tc.st = .disabled ∧ t.port[n].test =
      some ({ host := p.host, tag := p.tag, op := 0x0803, target := p.target }, s.port[n].tc.st) ∧ (∀ m : PortId, m ≠ n →
      t.port[m] = s.port[m]) ∧ s.accepted t p 0x0803) ∧
  (∀ (s : State) (p : Packet) (x : BitVec 4) (b : Fin 2) (k : Nat), s.turn 0x0803 p → s.coreCheck 0x0803 p = none →
      Obj.ofTarget p.target = some .station → ∃ t, exec (.selftest p x b k) s = .next t ∧ t.health.station = x ∧
      t.host[p.host.ix].replies = s.host[p.host.ix].replies ++
      [{ tag := p.tag, status := stAccepted, opcode := 0x0803, payload := [] }] ∧ t.port = s.port ∧ t.store.user =
      s.store.user)

/-- KERNEL_WRITE lays bytes into the staging area; KERNEL_START is accepted, copies the package into the slot, staged,
and enters INIT; KERNEL_UNLOAD empties the slot; IMAGE_WRITE programs bytes of a bank that then is not valid;
IMAGE_VERIFY, BANK_SELECT and ROLLBACK_ADVANCE are accepted and queue their work. SKETCH_PUSH is accepted and its
Platform pushes the slot from its first frame; SKETCH_TRIGGER fills a free slot and answers its number; SKETCH_RELEASE
frees its slot; SEQ_CLEAR leaves LATCHED for DOWN; SEQ_SHUTDOWN leaves the host's shutdown pending. Where the manual
leaves a point open this rests on the model's own reading: log entries 61, 96, 102, 106, 112, 145. -/
def Obligations.KernelAndImageActions : Prop :=
  (∀ (s : State) (p : Packet), s.turn 0x0701 p → s.coreCheck 0x0701 p = none →
      le32 p.payload 0 + (p.payload.length - 4) ≤ 24608 → ∃ t, exec (.kernelWrite p) s = .next t ∧
      t.core[slotOfTarget p.target].slot =
      { s.core[slotOfTarget p.target].slot with staging := Mem.write zeroByte s.core[slotOfTarget p.target].slot.staging (le32 p.payload 0) (p.payload.drop 4) } ∧
      s.answered t p 0x0701 stOk [] ∧ t.port = s.port) ∧
  (∀ (s : State) (p : Packet), s.turn 0x0702 p → s.coreCheck 0x0702 p = none → judgeKernelStart s p = none →
      s.core[slotOfTarget p.target].slot.st = .empty → s.core[slotOfTarget p.target].slot.busy = false →
      s.core[slotOfTarget p.target].slot.host = none → ∃ t, exec (.kernelStart p) s = .next t ∧
      t.core[slotOfTarget p.target].slot.st = .staged ∧ t.core[slotOfTarget p.target].slot.busy = true ∧
      t.core[slotOfTarget p.target].slot.host = some { host := p.host, tag := p.tag, op := 0x0702, target := p.target } ∧
      t.core[slotOfTarget p.target].kn.pc = BitVec.ofNat 32 t.core[slotOfTarget p.target].slot.init ∧
      s.accepted t p 0x0702 ∧ t.port = s.port) ∧
  (∀ (s : State) (p : Packet), s.turn 0x0703 p → s.coreCheck 0x0703 p = none → s.core[slotOfTarget p.target].slot.st ≠
      .empty → s.core[slotOfTarget p.target].slot.busy = false → s.core[slotOfTarget p.target].slot.host = none → ∃ t,
      exec (.kernelUnload p) s = .next t ∧ t.core[slotOfTarget p.target].slot.st = .empty ∧
      t.core[slotOfTarget p.target].slot.staging = s.core[slotOfTarget p.target].slot.staging ∧
      t.core[slotOfTarget p.target].fw = s.core[slotOfTarget p.target].fw ∧ s.answered t p 0x0703 stOk [] ∧ t.port =
      s.port) ∧
  (∀ (s : State) (p : Packet) (b : Bank), s.turn 0x0711 p → s.coreCheck 0x0711 p = none → s.bankArg p = some b →
      (s.verify.any fun v => decide (v.1 = b)) = false → le32 p.payload 2 + (p.payload.length - 6) ≤ 1048576 → ∃ t,
      exec (.imageWrite p) s = .next t ∧ (t.bank b).st = 1 ∧ (t.bank b).mem =
      Mem.write zeroByte (s.bank b).mem (le32 p.payload 2) (p.payload.drop 6) ∧ t.bank b.other = s.bank b.other ∧
      s.answered t p 0x0711 stOk [] ∧ t.port = s.port) ∧
  (∀ (s : State) (p : Packet) (b : Bank), s.turn 0x0712 p → s.coreCheck 0x0712 p = none → s.bankArg p = some b → ∃ t,
      exec (.imageVerify p) s = .next t ∧ t.verify = s.verify ++ [(b,
      { host := p.host, tag := p.tag, op := 0x0712, target := p.target })] ∧ t.bank b = s.bank b ∧
      s.accepted t p 0x0712 ∧ t.port = s.port) ∧
  (∀ (s : State) (p : Packet) (b : Bank), s.turn 0x0713 p → s.coreCheck 0x0713 p = none → s.bankArg p = some b →
      (s.bank b).st = 2 → s.restartBars = false → s.sup.primer ≠ .service → ∃ t, exec (.bankSelect p) s = .next t ∧
      t.sup.restartReq = some { bank := some b, cmd := { host := p.host, tag := p.tag, op := 0x0713, target := p.target } } ∧
      s.accepted t p 0x0713 ∧ t.port = s.port) ∧
  (∀ (s : State) (p : Packet), s.turn 0x0714 p → s.coreCheck 0x0714 p = none → s.sup.runBank ≠ none →
      s.arbSealed < s.running.arbLevel → ∃ t, exec (.rollbackAdvance p) s = .next t ∧ t.advance = s.advance ++
      [{ host := p.host, tag := p.tag, op := 0x0714, target := p.target }] ∧ t.fuse = s.fuse ∧ s.accepted t p 0x0714 ∧
      t.port = s.port) ∧
  (∀ (s : State) (p : Packet) (k : PlatId) (i : Fin 8) (x : Sketch), s.turn 0x0512 p → s.coreCheck 0x0512 p = none →
      Obj.ofTarget p.target = some (.plat k) → (p.payload.headD 0).toNat = i.val → p.payload.getD 1 0 = 0 →
      s.plat[k].slots[i] = some x → x.complete = true → s.plat[k].push = none → ∃ t, exec (.sketchPush p) s = .next t ∧
      t.plat[k].push = some (i, 0, { host := p.host, tag := p.tag, op := 0x0512, target := p.target }) ∧
      t.plat[k].slots = s.plat[k].slots ∧ s.accepted t p 0x0512 ∧ t.port = s.port) ∧
  (∀ (s : State) (p : Packet) (n : PortId) (i : Fin 8), s.turn 0x0513 p → s.coreCheck 0x0513 p = none →
      Obj.ofTarget p.target = some (.port n) → s.sup.linkSilent = false → fillingSlot s.plat[platOf n] n = none →
      freeSlot s.plat[platOf n] = some i → ∃ t, exec (.sketchTrigger p) s = .next t ∧
      t.plat[platOf n].slots[i].map Sketch.port = some n ∧ t.plat[platOf n].slots[i].map Sketch.cause = some .command ∧
      s.answered t p 0x0513 stOk (leBytes 1 i.val) ∧ t.port = s.port) ∧
  (∀ (s : State) (p : Packet) (k : PlatId) (i : Fin 8) (x : Sketch), s.turn 0x0514 p → s.coreCheck 0x0514 p = none →
      Obj.ofTarget p.target = some (.plat k) → (p.payload.headD 0).toNat = i.val → p.payload.getD 1 0 = 0 →
      s.plat[k].slots[i] = some x → x.complete = true → s.plat[k].push = none → ∃ t, exec (.sketchRelease p) s =
      .next t ∧ t.plat[k].slots[i] = none ∧ s.answered t p 0x0514 stOk [] ∧ t.port = s.port) ∧
  (∀ (s : State) (p : Packet), s.turn 0x0610 p → s.coreCheck 0x0610 p = none → s.sq.st = .latched → ∃ t,
      exec (.seqClear p) s = .next t ∧ t.sq.st = .down ∧ t.sq.cause = .host ∧ t.sq.restart = 1 ∧ bit t.health.active 17 =
      false ∧ s.answered t p 0x0610 stOk [] ∧ t.port = s.port) ∧
  (∀ (s : State) (p : Packet), s.turn 0x0611 p → s.coreCheck 0x0611 p = none → s.sq.st = .run → ∃ t,
      exec (.seqShutdown p) s = .next t ∧ t.sq.hostPend = true ∧ t.sq.restart = le16 p.payload 0 ∧ t.sq.st = .run ∧
      s.answered t p 0x0611 stOk [] ∧ t.port = s.port)

/-- A byte written goes to its offset of the window selected, and the pointer advances, in native and in pointer mode; a
write before a repeated START moves the pointer and counts in the PEC; SEND takes a command buffer that is free; a failed
PEC has no effect but PEC_ERR; a read answers from the pointer, with PEC as a block with its count and PEC; an alert is
answered by the port that alerts; a time-out is kept where it is on; the free bus takes changed words; the DONE bits drop
what has been read before SEND hands over the packet. Where the port has no address or is not on, nothing happens. Where
the manual leaves a point open this rests on the model's own reading: log entries 91, 92. -/
def Obligations.TwoWireTransfers : Prop :=
  (∀ (s : State) (bus : TwBus) (a : Nat) (w : Byte), s.twAddr bus = some a → s.hostOn bus.host = true →
      pecOn s.tw[bus.ix] = false → ptrMode s.tw[bus.ix] = false → listedWindow w.toNat = true → ∃ t,
      exec (.twoWireWrite bus [0xFF, w] .stop) s = .next t ∧ t.tw[bus.ix].winsel = w ∧ t.tw[bus.ix].ptr = 0xFF ∧
      t.tw[bus.ix].buf = s.tw[bus.ix].buf ∧ t.port = s.port ∧ t.host = s.host ∧ t.net = s.net) ∧
  (∀ (s : State) (bus : TwBus) (a : Nat) (o b : Byte), s.twAddr bus = some a → s.hostOn bus.host = true →
      pecOn s.tw[bus.ix] = false → ptrMode s.tw[bus.ix] = false → s.tw[bus.ix].winsel = 0x10 → s.tw[bus.ix].cmdFree =
      true → o ≠ 0xFF → ∃ t, exec (.twoWireWrite bus [o, b] .stop) s = .next t ∧ t.tw[bus.ix].buf =
      Mem.set zeroByte s.tw[bus.ix].buf o.toNat b ∧ t.tw[bus.ix].ptr = (if o = 0xFE then 0 else o.zeroExtend 16 + 1) ∧
      t.port = s.port ∧ t.host = s.host ∧ t.net = s.net) ∧
  (∀ (s : State) (bus : TwBus) (a : Nat) (o b : Byte), s.twAddr bus = some a → s.hostOn bus.host = true →
      pecOn s.tw[bus.ix] = false → ptrMode s.tw[bus.ix] = false → s.tw[bus.ix].winsel = 0x10 → s.tw[bus.ix].cmdFree =
      false → o ≠ 0xFF → ∃ t, exec (.twoWireWrite bus [o, b] .stop) s = .next t ∧ t.tw[bus.ix].buf = s.tw[bus.ix].buf ∧
      t.tw[bus.ix].cmdErr = true ∧ t.port = s.port ∧ t.host = s.host ∧ t.net = s.net) ∧
  (∀ (s : State) (bus : TwBus) (a : Nat), s.twAddr bus = some a → s.hostOn bus.host = true → pecOn s.tw[bus.ix] = false →
      ptrMode s.tw[bus.ix] = false → s.tw[bus.ix].winsel = 0 → s.tw[bus.ix].cmdFree = true →
      1 ≤ s.tw[bus.ix].cmdLen.toNat → s.tw[bus.ix].cmdLen.toNat ≤ 1275 → ∃ t, exec (.twoWireWrite bus [0x08,
      0x01] .stop) s = .next t ∧ t.tw[bus.ix].send = true ∧ t.tw[bus.ix].cmdFree = false ∧ t.tw[bus.ix].buf =
      s.tw[bus.ix].buf ∧ t.tw[bus.ix].cmdErr = s.tw[bus.ix].cmdErr ∧ t.port = s.port ∧ t.host = s.host ∧ t.net = s.net) ∧
  (∀ (s : State) (bus : TwBus) (a : Nat), s.twAddr bus = some a → s.hostOn bus.host = true → pecOn s.tw[bus.ix] = false →
      ptrMode s.tw[bus.ix] = false → s.tw[bus.ix].winsel = 0 → s.tw[bus.ix].cmdFree = false → ∃ t,
      exec (.twoWireWrite bus [0x08, 0x01] .stop) s = .next t ∧ t.tw[bus.ix].send = s.tw[bus.ix].send ∧
      t.tw[bus.ix].cmdErr = true ∧ t.port = s.port ∧ t.host = s.host ∧ t.net = s.net) ∧
  (∀ (s : State) (bus : TwBus) (a : Nat) (l : List Byte), s.twAddr bus = some a → s.hostOn bus.host = true →
      pecOn s.tw[bus.ix] = true → ptrMode s.tw[bus.ix] = false → l ≠ [] → l.length ≤ 257 → crc8 (s.tw[bus.ix].pre ++
      BitVec.ofNat 8 (2 * a) :: l.dropLast) ≠ l.getLastD 0 → ∃ t, exec (.twoWireWrite bus l .stop) s = .next t ∧
      t.tw[bus.ix].pecErr = true ∧ t.tw[bus.ix].buf = s.tw[bus.ix].buf ∧ t.tw[bus.ix].ptr = s.tw[bus.ix].ptr ∧
      t.tw[bus.ix].send = s.tw[bus.ix].send ∧ t.port = s.port ∧ t.host = s.host ∧ t.net = s.net) ∧
  (∀ (s : State) (bus : TwBus) (a : Nat) (l : List Byte), s.twAddr bus = some a → s.hostOn bus.host = true → ∃ t,
      exec (.twoWireWrite bus l .midByte) s = .next t ∧ t.tw[bus.ix].buf = s.tw[bus.ix].buf ∧ t.tw[bus.ix].ptr =
      s.tw[bus.ix].ptr ∧ t.tw[bus.ix].send = s.tw[bus.ix].send ∧ t.port = s.port ∧ t.host = s.host ∧ t.net = s.net) ∧
  (∀ (s : State) (bus : TwBus) (l : List Byte) (e : TwEnd), s.twAddr bus = none ∨ s.hostOn bus.host = false → ∃ t,
      exec (.twoWireWrite bus l e) s = .next t ∧ t = s) ∧
  (∀ (s : State) (bus : TwBus) (a : Nat), s.twAddr bus = some a → s.hostOn bus.host = true → pecOn s.tw[bus.ix] = false →
      ptrMode s.tw[bus.ix] = false → s.tw[bus.ix].ptr.toNat ≠ 255 → ∃ t, exec (.twoWireRead bus 1) s = .next t ∧
      t.tw[bus.ix].out = [s.twByte bus s.tw[bus.ix].winsel.toNat (s.tw[bus.ix].ptr.toNat % 256)] ∧ t.tw[bus.ix].ptr =
      BitVec.ofNat 16 (if s.tw[bus.ix].ptr.toNat = 254 then 0 else s.tw[bus.ix].ptr.toNat + 1) ∧ t.tw[bus.ix].buf =
      s.tw[bus.ix].buf ∧ t.port = s.port ∧ t.host = s.host ∧ t.net = s.net) ∧
  (∀ (s : State) (bus : TwBus) (k : Nat), s.twAddr bus = none ∨ s.hostOn bus.host = false → ∃ t,
      exec (.twoWireRead bus k) s = .next t ∧ t = s) ∧
  (∀ (s : State) (bus : TwBus) (a : Nat), s.twAddr bus = some a → s.alertN bus = true → pecOn s.tw[bus.ix] = false → ∃ t,
      exec (.alertResponse bus true) s = .next t ∧ t.tw[bus.ix].ara = true ∧ t.tw[bus.ix].out =
      [BitVec.ofNat 8 (2 * a)] ∧ t.alertN bus = false ∧ t.port = s.port ∧ t.host = s.host ∧ t.net = s.net) ∧
  (∀ (s : State) (bus : TwBus) (b : Bool), s.alertN bus = false ∨ b = false → ∃ t, exec (.alertResponse bus b) s =
      .next t ∧ t = s) ∧
  (∀ (s : State) (bus : TwBus), s.hostOn bus.host = true → tmoOn s.tw[bus.ix] = true → ∃ t,
      exec (.twoWireTimeout bus) s = .next t ∧ t.tw[bus.ix].tmo = true ∧ t.tw[bus.ix].ptr = s.tw[bus.ix].ptr ∧
      t.tw[bus.ix].buf = s.tw[bus.ix].buf ∧ t.port = s.port ∧ t.host = s.host ∧ t.net = s.net ∧ t.tw[bus.ix].free =
      false ∧ t.tw[bus.ix].pre = []) ∧
  (∀ (s : State) (bus : TwBus), tmoOn s.tw[bus.ix] = false → ∃ t, exec (.twoWireTimeout bus) s = .next t ∧ t.tw[bus.ix] =
      { s.tw[bus.ix] with free := false } ∧ (bus = .aux → t.points = { s.points with busFree := false }) ∧ t.port =
      s.port ∧ t.host = s.host ∧ t.net = s.net) ∧
  (∀ (s : State) (bus : TwBus), s.sup.logicUp = true → s.tw[bus.ix].due = true → ∃ t, exec (.busFree bus) s = .next t ∧
      t.tw[bus.ix].cfg = s.twCfgWord bus.ix ∧ t.tw[bus.ix].tim = s.twTimWord bus.ix ∧ (bus = .aux → t.points.busFree =
      true) ∧ t.port = s.port ∧ t.host = s.host ∧ t.net = s.net ∧ t.tw[bus.ix].free = true ∧ t.tw[bus.ix].due = false) ∧
  (∀ (s : State) (bus : TwBus), s.sup.logicUp = true → s.tw[bus.ix].due = false → ∃ t, exec (.busFree bus) s = .next t ∧
      t.tw[bus.ix] = { s.tw[bus.ix] with pre := [], free := true } ∧ (bus = .aux → t.points.busFree = true ∧
      t.points.sclStuck = false) ∧ t.port = s.port ∧ t.host = s.host ∧ t.net = s.net) ∧
  (∀ (s : State) (bus : TwBus), s.tw[bus.ix].rplDone = true → s.net.cportAfter = none → ∃ t, exec (.rplDone bus) s =
      .next t ∧ t.tw[bus.ix].rplDone = false ∧ t.host[bus.host.ix].replies = s.host[bus.host.ix].replies.tail ∧
      t.host[bus.host.ix].events = s.host[bus.host.ix].events ∧ t.tw[bus.ix].send = s.tw[bus.ix].send ∧ t.port = s.port) ∧
  (∀ (s : State) (bus : TwBus), s.tw[bus.ix].rplDone = false → ∃ t, exec (.rplDone bus) s = .next t ∧ t = s) ∧
  (∀ (s : State) (bus : TwBus), s.tw[bus.ix].evtDone = true → s.tw[bus.ix].rplDone = false → ∃ t, exec (.evtDone bus) s =
      .next t ∧ t.tw[bus.ix].evtDone = false ∧ t.host[bus.host.ix].events = s.host[bus.host.ix].events.tail ∧
      t.host[bus.host.ix].replies = s.host[bus.host.ix].replies ∧ t.tw[bus.ix].send = s.tw[bus.ix].send ∧ t.port =
      s.port) ∧
  (∀ (s : State) (bus : TwBus), s.tw[bus.ix].rplDone = true → ∃ t, exec (.evtDone bus) s = .next t ∧ t = s) ∧
  (∀ (s : State) (bus : TwBus), s.tw[bus.ix].send = true → s.tw[bus.ix].rplDone = false → s.tw[bus.ix].evtDone = false →
      ∃ t, exec (.send bus) s = .next t ∧ t.tw[bus.ix].send = false ∧ t.tw[bus.ix].cmdFree = true ∧ t.tw[bus.ix].buf =
      s.tw[bus.ix].buf ∧ t.port = s.port ∧ t.claim = s.claim) ∧
  (∀ (s : State) (bus : TwBus), s.tw[bus.ix].rplDone = true ∨ s.tw[bus.ix].evtDone = true → ∃ t, exec (.send bus) s =
      .next t ∧ t = s) ∧
  (∀ (s : State) (bus : TwBus) (a : Nat) (w q : Byte), s.twAddr bus = some a → s.hostOn bus.host = true →
      pecOn s.tw[bus.ix] = true → ptrMode s.tw[bus.ix] = false → listedWindow w.toNat = true → q =
      crc8 (s.tw[bus.ix].pre ++ [BitVec.ofNat 8 (2 * a), 0xFF, w]) → ∃ t, exec (.twoWireWrite bus [0xFF, w, q] .stop) s =
      .next t ∧ t.tw[bus.ix].winsel = w ∧ t.tw[bus.ix].ptr = 0xFF ∧ t.tw[bus.ix].pecErr = s.tw[bus.ix].pecErr ∧
      t.tw[bus.ix].buf = s.tw[bus.ix].buf ∧ t.tw[bus.ix].pre = [] ∧ t.port = s.port ∧ t.host = s.host ∧ t.net = s.net) ∧
  (∀ (s : State) (bus : TwBus) (a : Nat) (o : Byte), s.twAddr bus = some a → s.hostOn bus.host = true →
      ptrMode s.tw[bus.ix] = false → ∃ t, exec (.twoWireWrite bus [o] .restart) s = .next t ∧ t.tw[bus.ix].ptr =
      o.zeroExtend 16 ∧ t.tw[bus.ix].pre = s.tw[bus.ix].pre ++ [BitVec.ofNat 8 (2 * a), o] ∧ t.tw[bus.ix].winsel =
      s.tw[bus.ix].winsel ∧ t.tw[bus.ix].buf = s.tw[bus.ix].buf ∧ t.port = s.port ∧ t.host = s.host ∧ t.net = s.net) ∧
  (∀ (s : State) (bus : TwBus) (a : Nat) (o b : Byte), s.twAddr bus = some a → s.hostOn bus.host = true →
      pecOn s.tw[bus.ix] = false → ptrMode s.tw[bus.ix] = true → s.tw[bus.ix].cmdFree = true → o ≠ 0xFF → ∃ t,
      exec (.twoWireWrite bus [0x10, o, b] .stop) s = .next t ∧ t.tw[bus.ix].buf =
      Mem.set zeroByte s.tw[bus.ix].buf o.toNat b ∧ t.tw[bus.ix].ptr.toNat =
      0x1000 + o.toNat / 32 * 32 + (o.toNat + 1) % 32 ∧ t.tw[bus.ix].winsel = s.tw[bus.ix].winsel ∧ t.port = s.port ∧
      t.host = s.host ∧ t.net = s.net) ∧
  (∀ (s : State) (bus : TwBus) (a k : Nat), s.twAddr bus = some a → s.hostOn bus.host = true → pecOn s.tw[bus.ix] =
      true → ∃ t, exec (.twoWireRead bus k) s = .next t ∧ t.tw[bus.ix].out =
      ((BitVec.ofNat 8 (blockCount (ptrMode s.tw[bus.ix]) s.tw[bus.ix].ptr.toNat) ::
      (s.twRun bus (blockCount (ptrMode s.tw[bus.ix]) s.tw[bus.ix].ptr.toNat) s.tw[bus.ix].ptr.toNat).1) ++
      [crc8 (s.tw[bus.ix].pre ++ BitVec.ofNat 8 (2 * a + 1) ::
      BitVec.ofNat 8 (blockCount (ptrMode s.tw[bus.ix]) s.tw[bus.ix].ptr.toNat) ::
      (s.twRun bus (blockCount (ptrMode s.tw[bus.ix]) s.tw[bus.ix].ptr.toNat) s.tw[bus.ix].ptr.toNat).1)] ++
      List.replicate k 0xFF).take k ∧ t.tw[bus.ix].buf = s.tw[bus.ix].buf ∧ t.port = s.port ∧ t.host = s.host ∧ t.net =
      s.net)

/-- STATUS answers the status byte; a LOCAL packet that is not whole, or comes while one is held, sets LAST_ERR and
arrives nowhere; READ_REPLY and READ_EVENT show the oldest entry and drop it once it has been clocked out whole; LS_IRQ_N
is asserted while a reply or an event waits, on a port that is on; a datagram for another address changes nothing; the
lane sends ARP answers and replies without a tag first, then replies to where their command came from, events to the last
subscriber, reports and trace frames; a trace frame and a reply lie on the lane with Ethernet II, IPv4 and UDP headers in
network order, their header checksum right, over their payload in little-endian bytes (the addresses and ports of a
reply's headers as R473 gives them, the rest of them by log entry 143); OVERFLOW is queued when there is room. A changed
CPORT counts once the replies of the host port that made it have been sent. Where the manual leaves a point open this
rests on the model's own reading: log entries 94, 96, 143. -/
def Obligations.LocalNetAndLane : Prop :=
  (∀ (s : State), s.hostOn .ls = true → ∃ t, exec (.status) s = .next t ∧ t.loc.out = [s.localStatus] ∧ t.loc.lastErr =
      false ∧ t.host = s.host ∧ t.port = s.port) ∧
  (∀ (s : State), s.hostOn .ls = false → ∃ t, exec (.status) s = .next t ∧ t = s) ∧
  (∀ (s : State) (l : List Byte) (b : Bool), s.hostOn .ls = true → b = false ∨ s.loc.cmdFree = false ∨ 1036 < l.length →
      ∃ t, exec (.localSend l b) s = .next t ∧ t.loc.lastErr = true ∧ t.loc.out = s.localStatus ::
      List.replicate l.length 0xFF ∧ t.loc.cmdFree = s.loc.cmdFree ∧ t.host = s.host ∧ t.inbox = s.inbox ∧ t.port =
      s.port) ∧
  (∀ (s : State) (l : List Byte), s.hostOn .ls = true → s.loc.cmdFree = true → l.length ≤ 1036 → frameCheck l = none →
      s.frontCheck (parseOp l) (parsePacket .ls l) = none → (opInfo (parseOp l)).isSome = true → ∃ t,
      exec (.localSend l true) s = .next t ∧ t.loc.cmdFree = false ∧ t.loc.lastErr = false ∧
      t.host[HostPort.ls.ix].held = s.host[HostPort.ls.ix].held ++ [(parsePacket .ls l).tag] ∧
      { op := parseOp l, p := parsePacket .ls l, stamp := s.time.ct } ∈ t.inbox ∧ t.inbox.length = s.inbox.length + 1 ∧
      t.port = s.port) ∧
  (∀ (s : State) (k : Nat), s.hostOn .ls = true → s.rplFrame .ls ≠ [] → k % 8 = 0 → 2 + (s.rplFrame .ls).length ≤ k / 8 →
      s.net.cportAfter = none → ∃ t, exec (.readReply k) s = .next t ∧ t.loc.out = s.localStatus ::
      entryOut (s.rplFrame .ls) (k / 8) ∧ t.host[HostPort.ls.ix].replies = s.host[HostPort.ls.ix].replies.tail ∧
      t.host[HostPort.ls.ix].events = s.host[HostPort.ls.ix].events ∧ t.port = s.port ∧ t.loc.lastErr = false) ∧
  (∀ (s : State) (k : Nat), s.hostOn .ls = true → k / 8 < 2 + (s.rplFrame .ls).length ∨ k % 8 ≠ 0 → ∃ t,
      exec (.readReply k) s = .next t ∧ t.loc.out = s.localStatus :: entryOut (s.rplFrame .ls) (k / 8) ∧ t.host =
      s.host ∧ t.port = s.port ∧ t.loc.lastErr = decide (k % 8 ≠ 0)) ∧
  (∀ (s : State) (k : Nat), s.hostOn .ls = true → s.evtFrame .ls ≠ [] → k % 8 = 0 → 2 + (s.evtFrame .ls).length ≤ k / 8 →
      ∃ t, exec (.readEvent k) s = .next t ∧ t.loc.out = s.localStatus :: entryOut (s.evtFrame .ls) (k / 8) ∧
      t.host[HostPort.ls.ix].events = s.host[HostPort.ls.ix].events.tail ∧ t.host[HostPort.ls.ix].replies =
      s.host[HostPort.ls.ix].replies ∧ t.port = s.port ∧ t.loc.lastErr = false) ∧
  (∀ (s : State) (k : Nat), s.hostOn .ls = true → k / 8 < 2 + (s.evtFrame .ls).length ∨ k % 8 ≠ 0 → ∃ t,
      exec (.readEvent k) s = .next t ∧ t.loc.out = s.localStatus :: entryOut (s.evtFrame .ls) (k / 8) ∧ t.host =
      s.host ∧ t.port = s.port ∧ t.loc.lastErr = decide (k % 8 ≠ 0)) ∧
  (∀ (s : State) (f : NetFrame), s.net.link = false ∨ s.net.cport = 0 ∨ f.fcsOk = false ∨ f.dstMac ≠ s.netSmac ∨
      f.options = true ∨ f.fragment = true ∨ f.dstIp ≠ s.netSip ∨ f.dstPort ≠ s.net.cport ∨ f.udpSumOk = false → ∃ t,
      exec (.netFrame f) s = .next t ∧ t = s) ∧
  (∀ (s : State) (f : NetFrame), s.net.link = true → s.net.cport ≠ 0 → f.fcsOk = true → f.dstMac = s.netSmac →
      f.options = false → f.fragment = false → f.dstIp = s.netSip → f.dstPort = s.net.cport → f.udpSumOk = true →
      s.hostOn .net = true → frameCheck f.payload = none →
      s.frontCheck (parseOp f.payload) (parsePacket .net f.payload) = none → (opInfo (parseOp f.payload)).isSome = true →
      ∃ t, exec (.netFrame f) s = .next t ∧ t.net.origin = s.net.origin ++ [((parsePacket .net f.payload).tag, f.srcMac,
      f.srcIp, f.srcPort)] ∧ { op := parseOp f.payload, p := parsePacket .net f.payload, stamp := s.time.ct } ∈ t.inbox ∧
      t.host[HostPort.net.ix].held = s.host[HostPort.net.ix].held ++ [(parsePacket .net f.payload).tag] ∧ t.port =
      s.port) ∧
  (∀ (s : State) (f : LaneFrame) (r : List LaneFrame), s.net.sending = none → (∀ k : PlatId, s.plat[k].pushCut = false) →
      s.net.link = true → s.net.urgent = f :: r → s.hostOn .net = true → ∃ t, exec (.laneFrameBoundary) s = .next t ∧
      t.net.sending = some f ∧ t.net.urgent = r ∧ t.net.traces = s.net.traces ∧ t.host = s.host ∧ t.port = s.port) ∧
  (∀ (s : State) (r : Reply) (q : List Reply) (x : BitVec 48 × BitVec 32 × BitVec 16), s.net.sending = none →
      (∀ k : PlatId, s.plat[k].pushCut = false) → s.net.link = true → s.net.urgent = [] →
      s.host[HostPort.net.ix].replies = r :: q → (takeOrigin r.tag s.net.origin).1 = some x → s.net.cportAfter = none →
      s.hostOn .net = true → ∃ t, exec (.laneFrameBoundary) s = .next t ∧ t.net.sending =
      some (.reply r x.1 x.2.1 x.2.2) ∧ t.host[HostPort.net.ix].replies = q ∧ t.net.origin =
      (takeOrigin r.tag s.net.origin).2 ∧ t.net.traces = s.net.traces ∧ t.net.reports = s.net.reports ∧ t.port = s.port) ∧
  (∀ (s : State) (e : Event) (q : List Event), s.net.sending = none → (∀ k : PlatId, s.plat[k].pushCut = false) →
      s.net.link = true → s.net.urgent = [] → s.host[HostPort.net.ix].replies = [] → s.host[HostPort.net.ix].events =
      e :: q → s.net.dest.isSome = true → s.hostOn .net = true → s.settled .net = s.host[HostPort.net.ix].events → ∃ t,
      exec (.laneFrameBoundary) s = .next t ∧ t.net.sending = some (.event e) ∧ t.host[HostPort.net.ix].events = q ∧
      t.net.traces = s.net.traces ∧ t.net.reports = s.net.reports ∧ t.port = s.port) ∧
  (∀ (s : State) (f : LaneFrame) (r : List LaneFrame), s.net.sending = none → (∀ k : PlatId, s.plat[k].pushCut = false) →
      s.net.link = true → s.net.urgent = [] → s.host[HostPort.net.ix].replies = [] → s.host[HostPort.net.ix].events =
      [] → s.net.reports = f :: r → s.hostOn .net = true → ∃ t, exec (.laneFrameBoundary) s = .next t ∧ t.net.sending =
      some f ∧ t.net.reports = r ∧ t.net.traces = s.net.traces ∧ t.host = s.host ∧ t.port = s.port) ∧
  (∀ (s : State) (f : LaneFrame) (r : List LaneFrame), s.net.sending = none → (∀ k : PlatId, s.plat[k].pushCut = false) →
      s.net.link = true → s.net.urgent = [] → s.host[HostPort.net.ix].replies = [] → s.host[HostPort.net.ix].events =
      [] → s.net.reports = [] → s.net.traces = f :: r → s.hostOn .net = true → ∃ t, exec (.laneFrameBoundary) s =
      .next t ∧ t.net.sending = some f ∧ t.net.traces = r ∧ t.host = s.host ∧ t.port = s.port) ∧
  (∀ (s : State), s.net.sending = none → (∀ k : PlatId, s.plat[k].pushCut = false) → s.net.link = false ∨ s.hostOn .net =
      false → s.net.cportAfter = none → ∃ t, exec (.laneFrameBoundary) s = .next t ∧ t = s) ∧
  (∀ (s : State) (h : HostPort), s.net.sending = none → (∀ k : PlatId, s.plat[k].pushCut = false) → s.net.link = false ∨
      s.hostOn .net = false → s.net.cportAfter = some h → s.host[h.ix].replies = [] → ∃ t, exec (.laneFrameBoundary) s =
      .next t ∧ t.net.cport = BitVec.ofNat 16 (bits s.netCmd 15 0) ∧ t.net.cportAfter = none ∧ t.host = s.host ∧ t.port =
      s.port) ∧
  (∀ (s : State) (q : HostPort) (a b : Word) (k : Nat), s.host[q.ix].lost = some (a, b, k) →
      s.host[q.ix].events.length + s.host[q.ix].reserved < 64 → ∃ t, exec (.overflow q) s = .next t ∧
      t.host[q.ix].events = s.host[q.ix].events ++
      [{ code := 0x0182, ssn := s.ssn, ct := s.time.ct, source := tgtStation, flags := BitVec.ofNat 8 (b2n s.resume), tag := 0xFF, payload := leBytes 4 k ++ leBytes 4 a.toNat ++ leBytes 4 b.toNat }] ∧
      t.host[q.ix].lost = none ∧ t.ssn = s.ssn + 1 ∧ t.port = s.port) ∧
  (∀ (s : State) (q : HostPort), s.host[q.ix].lost = none ∨ 64 ≤ s.host[q.ix].events.length + s.host[q.ix].reserved →
      ∃ t, exec (.overflow q) s = .next t ∧ t = s) ∧
  (∀ s : State, (s.hostOn .ls = true → (s.lsIrqN = true ↔ s.host[HostPort.ls.ix].replies ≠ [] ∨
      s.host[HostPort.ls.ix].events ≠ [])) ∧
    (s.hostOn .ls = false → s.lsIrqN = false)) ∧
  (∀ (s : State) (f : LaneFrame) (n : PortId) (k : Nat) (h : List Byte) (r : List (List (BitVec 16))), f =
      .trace n k h r → s.net.sending = some f →
    s.laneBytes.take 14 = beBytes 6 s.netDmac.toNat ++ beBytes 6 s.netSmac.toNat ++ [0x08, 0x00] ∧
    s.laneBytes.length = max 60 (42 + f.payload.length) + 4 ∧ (s.laneBytes.drop 42).take f.payload.length = h ++
      r.flatMap (fun g => g.flatMap fun v => leBytes 2 v.toNat) ∧
    (∀ b ∈ (s.laneBytes.take (max 60 (42 + f.payload.length))).drop (42 + f.payload.length), b = 0) ∧
    headerCheck ((s.laneBytes.drop 14).take 20) = 0 ∧ (s.laneBytes.drop 26).take 8 = beBytes 4 s.netSip.toNat ++
      beBytes 4 s.netDip.toNat ∧
    (s.laneBytes.drop 34).take 8 = beBytes 2 (bits s.netUdp 15 0) ++ beBytes 2 (bits s.netUdp 31 16) ++
      beBytes 2 (8 + f.payload.length) ++ [0, 0] ∧
    s.laneBytes.foldl fcsByte 0xFFFFFFFF = 0xDEBB20E3) ∧
  (∀ (s : State) (r : Reply) (m : BitVec 48) (ip : Word) (p : BitVec 16), s.net.sending = some (.reply r m ip p) →
    s.laneBytes.take 14 = beBytes 6 m.toNat ++ beBytes 6 s.netSmac.toNat ++ [0x08, 0x00] ∧
      (s.laneBytes.drop 42).take (replyBytes r).length = replyBytes r ∧ s.laneBytes.length =
      max 60 (42 + (replyBytes r).length) + 4 ∧
    headerCheck ((s.laneBytes.drop 14).take 20) = 0 ∧ (s.laneBytes.drop 26).take 12 = beBytes 4 s.netSip.toNat ++
      beBytes 4 ip.toNat ++ beBytes 2 s.net.cport.toNat ++ beBytes 2 p.toNat)

/-- A command that fails a check of R458 is answered with the status of the first failing step and changes nothing but
the inbox, its tag and its host port's replies; a CHECK command is answered with what its checks give and does nothing
else; a command that must wait joins those that wait; a waiting command begins once its turn has come. One of the present
tick waits for those of higher-ranked host ports that are still to arrive in it. Where the manual leaves a point open
this rests on the model's own reading: log entries 85, 86. -/
def Obligations.ChecksOfCommands : Prop :=
  (∀ (s : State) (op st : BitVec 16) (j : Judge) (e : Effect) (p : Packet), s.turn op p →
      (s.rest.coreCheck op p).or (j s.rest p) = some st → st ≠ stOk →
  ∃ t, opcodeRow op j e p s = .next t ∧ s.answered t p op st [] ∧ t = { s with inbox := s.inbox.tail, host := t.host } ∧
      ∀ i, i ≠ p.host.ix → t.host[i] = s.host[i]) ∧
  (∀ (s : State) (op : BitVec 16) (j : Judge) (e : Effect) (p : Packet) (ct : CT) (l : List Held), s.inbox = ⟨op, p,
      ct⟩ :: l → s.outranked ⟨op, p, ct⟩ = false → checkOnly p = true →
  ∃ t, opcodeRow op j e p s = .next t ∧ s.answered t p op (((s.rest.coreCheck op p).or (j s.rest p)).getD stOk) [] ∧ t =
      { s with inbox := l, host := t.host }) ∧
  (∀ (s : State) (op : BitVec 16) (j : Judge) (e : Effect) (p : Packet) (ct : CT) (l : List Held), s.inbox = ⟨op, p,
      ct⟩ :: l → s.outranked ⟨op, p, ct⟩ = false → checkOnly p = false → s.rest.mustWait s.waiting ⟨op, p, ct⟩ = true →
  opcodeRow op j e p s = .next { s with inbox := l, waiting := s.waiting ++ [⟨op, p, ct⟩] }) ∧
  (∀ (s : State) (op : BitVec 16) (j : Judge) (e : Effect) (p : Packet) (ct : CT) (l : List Held), s.inbox = ⟨op, p,
      ct⟩ :: l → s.outranked ⟨op, p, ct⟩ = true → opcodeRow op j e p s = .next s) ∧
  (∀ (s : State) (op : BitVec 16) (p : Packet), opInfo op = none → s.coreCheck op p = some stBadOpcode) ∧
  (∀ (s : State) (op : BitVec 16) (p : Packet) (i : OpInfo), opInfo op = some i → Obj.ofTarget p.target = none →
      s.coreCheck op p = some stBadParam) ∧
  (∀ (s : State) (op : BitVec 16) (p : Packet) (i : OpInfo) (o : Obj), opInfo op = some i → Obj.ofTarget p.target =
      some o → o.kind ∉ i.kinds → s.coreCheck op p = some stBadOpcode) ∧
  (∀ (s : State) (op : BitVec 16) (p : Packet) (i : OpInfo) (n : PortId), opInfo op = some i → Obj.ofTarget p.target =
      some (.port n) → 2 ∈ i.kinds → bit s.fuse.present n = false → s.coreCheck op p = some stPortRetired) ∧
  (∀ (s : State) (op : BitVec 16) (p : Packet) (i : OpInfo) (o : Obj), opInfo op = some i → Obj.ofTarget p.target =
      some o → o.kind ∈ i.kinds → (∀ n : PortId, o = .port n → bit s.fuse.present n = true ∧ (op = 0x0803 ∨
      bit s.health.retired n = false)) → s.hasClass p.host (cmdClass op i p) = false → s.coreCheck op p = some stDenied) ∧
  (∀ (s : State) (op : BitVec 16) (p : Packet) (i : OpInfo) (o : Obj), opInfo op = some i → Obj.ofTarget p.target =
      some o → o.kind ∈ i.kinds → (∀ n : PortId, o = .port n → bit s.fuse.present n = true ∧ (op = 0x0803 ∨
      bit s.health.retired n = false)) → s.hasClass p.host (cmdClass op i p) = true → (∃ n, s.claimPort op i p = some n ∧
      s.claim[n] ≠ some p.host) → s.coreCheck op p = some stOwned) ∧
  (∀ (s : State) (op : BitVec 16) (p : Packet) (i : OpInfo) (o : Obj), opInfo op = some i → Obj.ofTarget p.target =
      some o → o.kind ∈ i.kinds → (∀ n : PortId, o = .port n → bit s.fuse.present n = true ∧ (op = 0x0803 ∨
      bit s.health.retired n = false)) → s.hasClass p.host (cmdClass op i p) = true → (∀ n, s.claimPort op i p = some n →
      s.claim[n] = some p.host) → i.len p.payload.length = false → s.coreCheck op p = some stBadLength) ∧
  (∀ (s : State) (op : BitVec 16) (p : Packet) (i : OpInfo) (o : Obj), opInfo op = some i → Obj.ofTarget p.target =
      some o → o.kind ∈ i.kinds → (∀ n : PortId, o = .port n → bit s.fuse.present n = true ∧ (op = 0x0803 ∨
      bit s.health.retired n = false)) → s.hasClass p.host (cmdClass op i p) = true → (∀ n, s.claimPort op i p = some n →
      s.claim[n] = some p.host) → i.len p.payload.length = true → s.coreCheck op p = none) ∧
  (∀ (s : State), s.readyAt [] s.waiting = none → ∃ t, exec (.commandBegin) s = .next t ∧ t = s) ∧
  (∀ (s : State) (c : Held) (a r : List Held) (st : BitVec 16), s.readyAt [] s.waiting = some (a, c, r) →
      s.coreCheck c.op c.p = some st → st ≠ stOk → ∃ t, exec (.commandBegin) s = .next t ∧ t.waiting = a ++ r ∧
      s.answered t c.p c.op st [] ∧ t.port = s.port ∧ t.store = s.store ∧ t.active = s.active) ∧
  (∀ (s : State) (c : Held) (a r : List Held) (n : PortId), s.readyAt [] s.waiting = some (a, c, r) → c.op = 0x0230 →
      s.coreCheck c.op c.p = none → Obj.ofTarget c.p.target = some (.port n) → s.port[n].pp.st = .lockoff →
      s.port[n].tc.st.attached = false ∨ s.port[n].tc.pathRetry = false → ∃ t, exec (.commandBegin) s = .next t ∧
      t.waiting = a ++ r ∧ t.port[n].pp.st = .opn ∧ s.answered t c.p 0x0230 stOk [])

/-- On every host port a packet that fails step 1 or 2 (its bytes) or steps 3 to 6 (its header, the cores, the quota, the
tag) is answered at once with the status of that step; no tag is taken, and no command arrives. -/
def Obligations.RefusedBeforeItsTag : Prop :=
  (∀ (s : State) (l : List Byte) (st : BitVec 16), s.hostOn .ls = true → s.loc.cmdFree = true → l.length ≤ 1036 →
      (frameCheck l).or (s.frontCheck (parseOp l) (parsePacket .ls l)) = some st → ∃ t, exec (.localSend l true) s =
      .next t ∧ t.host[HostPort.ls.ix].replies = s.host[HostPort.ls.ix].replies ++
      [{ tag := (parsePacket .ls l).tag &&& 0x7F, status := st, opcode := parseOp l, payload := [] }] ∧
      t.host[HostPort.ls.ix].held = s.host[HostPort.ls.ix].held ∧ t.inbox = s.inbox ∧ t.waiting = s.waiting ∧ t.active =
      s.active ∧ t.port = s.port) ∧
  (∀ (s : State) (bus : TwBus) (l : List Byte) (st : BitVec 16), s.tw[bus.ix].send = true → s.tw[bus.ix].rplDone =
      false → s.tw[bus.ix].evtDone = false → s.hostOn bus.host = true → l =
      Mem.read zeroByte s.tw[bus.ix].buf 0 s.tw[bus.ix].cmdLen.toNat →
      (frameCheck l).or (s.frontCheck (parseOp l) (parsePacket bus.host l)) = some st → ∃ t, exec (.send bus) s =
      .next t ∧ t.host[bus.host.ix].replies = s.host[bus.host.ix].replies ++
      [{ tag := (parsePacket bus.host l).tag &&& 0x7F, status := st, opcode := parseOp l, payload := [] }] ∧
      t.host[bus.host.ix].held = s.host[bus.host.ix].held ∧ t.inbox = s.inbox ∧ t.waiting = s.waiting ∧ t.active =
      s.active ∧ t.port = s.port) ∧
  (∀ (s : State) (f : NetFrame) (st : BitVec 16), s.net.link = true → s.net.cport ≠ 0 → f.fcsOk = true → f.dstMac =
      s.netSmac → f.options = false → f.fragment = false → f.dstIp = s.netSip → f.dstPort = s.net.cport → f.udpSumOk =
      true → s.hostOn .net = true →
      (frameCheck f.payload).or (s.frontCheck (parseOp f.payload) (parsePacket .net f.payload)) = some st → ∃ t,
      exec (.netFrame f) s = .next t ∧ t.net.urgent = s.net.urgent ++
      [.reply { tag := (parsePacket .net f.payload).tag &&& 0x7F, status := st, opcode := parseOp f.payload, payload := [] } f.srcMac f.srcIp f.srcPort] ∧
      t.net.origin = s.net.origin ∧ t.host = s.host ∧ t.inbox = s.inbox ∧ t.waiting = s.waiting ∧ t.active = s.active ∧
      t.port = s.port)

/-- A REP whose next word is B, CALL, RET, BC, LOOP, REP, SYS, YIELD or WAIT traps: the context takes the trap, at the
REP, whatever its count. -/
def Obligations.RepBeforeControl : Prop :=
  ∀ (s : State) (c : Ctx) (count : Count), s.canRun c (countReads count) none 2 = true →
      bits (s.codeWord c ((s.vctx c).pc + 4)) 31 26 ∈ [0x28, 0x29, 0x2A, 0x2B, 0x2C, 0x2D, 0x30, 0x31, 0x32] → ∃ t,
      exec (.rep c count) s = .next t ∧ t = State.trap' ((s.modV c fun _ =>
      { (s.vctx c).issue (countReads count) none with cyc := ((s.vctx c).issue (countReads count) none).cyc + 1 }).spend c (((s.vctx c).issue (countReads count) none).cyc - (s.vctx c).cyc + 1)) c ∧
      ((s.vctx c).issue (countReads count) none).pc = (s.vctx c).pc

/-- A block of a Platform with a running kernel and a filtered port begins an invocation, or leaves one due where the
last still runs; a slot that is not running is not invoked; a kernel whose charge has reached its budget is stopped and
its output discarded, and one within it goes on. Where the manual leaves a point open this rests on the model's own
reading: log entries 17, 109. -/
def Obligations.KernelInvocations : Prop :=
  (∀ (s : State) (k : PlatId), s.core[coreOf k].up = true → s.core[coreOf k].slot.st = .running →
      ((List.finRange 6).any fun j => s.filters (portAt k j)) = true → 16 ≤ s.sidx → s.core[coreOf k].slot.busy = false →
      ∃ t, exec (.filterInvocation k) s = .next t ∧ t.core[coreOf k].slot.busy = true ∧ t.core[coreOf k].slot.seq =
      s.core[coreOf k].slot.seq + 1 ∧ t.core[coreOf k].kn.pc = BitVec.ofNat 32 s.core[coreOf k].slot.run ∧
      t.core[coreOf k].slot.blk = s.sidx / 16 * 16 - 16 ∧ t.core[coreOf k].slot.due = none ∧ t.port = s.port) ∧
  (∀ (s : State) (k : PlatId), s.core[coreOf k].up = true → s.core[coreOf k].slot.st = .running →
      ((List.finRange 6).any fun j => s.filters (portAt k j)) = true → 16 ≤ s.sidx → s.core[coreOf k].slot.busy = true →
      ∃ t, exec (.filterInvocation k) s = .next t ∧ t.core[coreOf k].slot.busy = true ∧
      t.core[coreOf k].slot.due.isSome = true ∧ t.core[coreOf k].slot.missed =
      s.core[coreOf k].slot.missed + (if s.core[coreOf k].slot.due.isSome then 1 else 0) ∧ t.core[coreOf k].kn =
      s.core[coreOf k].kn ∧ t.port = s.port) ∧
  (∀ (s : State) (k : PlatId), s.core[coreOf k].slot.st ≠ .running ∨ s.core[coreOf k].up = false → ∃ t,
      exec (.filterInvocation k) s = .next t ∧ t = s) ∧
  (∀ (s : State) (c : CoreId), c ≠ coreSB → s.core[c].slot.busy = true → s.core[c].slot.spent = true → ∃ t,
      exec (.kernelBudget c) s = .next t ∧ t.core[c].slot.st = .stopped ∧ t.core[c].slot.busy = false ∧
      t.core[c].slot.outw = s.core[c].slot.outw ∧ t.core[c].slot.data = s.core[c].slot.data ∧ t.port = s.port) ∧
  (∀ (s : State) (c : CoreId), s.core[c].slot.spent = false ∨ s.core[c].slot.busy = false → ∃ t,
      exec (.kernelBudget c) s = .next t ∧ t = s)

/-- A step takes the command at the front of the queue and runs it on the state with the queue's rest; with an empty
queue the block idles (log entry 1, the model's choice). -/
def Obligations.StepTakesTheFront : Prop :=
  (∀ (c : Instr) (q : List Instr) (s : State), step { s with pending := c :: q } = exec c { s with pending := q }) ∧
  (∀ s : State, s.pending = [] → step s = .next s)

/-- In a context that has not stopped at its budget each instruction writes its exact result, reduced in the mode in
force, to its destination, sets the flags its row names (Z and N of the value written, C, V with the sticky SV; each
writes only its own bits), and leaves every other register, the accumulators, the memories and all outside its core
alone. In a context that does not run now (its core down, asleep or with a kernel in its place; a kernel outside its
invocation or past its budget) the instruction does nothing. Shifts take the low eight bits of their register, or the
immediate; right shifts round in the mode in force; a quotient is toward zero, and division by zero writes the limit of
the dividend and raises DZ and V. In a context that does not run now (its core down, asleep or with a kernel in its
place; a kernel outside its invocation or past its budget) the instruction does nothing. Where the cycles left to the
invocation end before an instruction does, it stops within it: State.cutOff. A word of code spells the instruction of its
opcode field with the operands of its D, A, B, IMM18, K and OFF26 fields, shown for ADD, ADDI, ACLR and B, and an illegal
word spells none. Where the manual leaves a point open this rests on the model's own reading: log entry 40. -/
def Obligations.ArithmeticAndLogic : Prop :=
  (∀ (s : State) (c : Ctx), s.canRun c [] none 1 = true → ∃ t, exec (.nop c) s = .next t ∧
      s.ran t c ((s.vctx c).v) ((s.vctx c).fl) ((s.vctx c).acc)) ∧
  (∀ (s : State) (c : Ctx) (d a b : Reg) (m : MMode), s.canRun c [a, b] none 1 = true → ∃ t, exec (.add c d a b m) s =
      .next t ∧ s.ran t c ((s.vctx c).v.set d (reduce 32 (satMode m (s.vctx c).sat) ((s.vctx c).v[a].toInt + (s.vctx c).v[b].toInt))) (flC (flV (flZN (s.vctx c).fl (reduce 32 (satMode m (s.vctx c).sat) ((s.vctx c).v[a].toInt + (s.vctx c).v[b].toInt))) (outside 32 ((s.vctx c).v[a].toInt + (s.vctx c).v[b].toInt))) (carryOut (s.vctx c).v[a] (s.vctx c).v[b])) ((s.vctx c).acc)) ∧
  (∀ (s : State) (c : Ctx) (d a b : Reg) (m : MMode), s.canRun c [a, b] none 1 = true → ∃ t, exec (.sub c d a b m) s =
      .next t ∧ s.ran t c ((s.vctx c).v.set d (reduce 32 (satMode m (s.vctx c).sat) ((s.vctx c).v[a].toInt - (s.vctx c).v[b].toInt))) (flC (flV (flZN (s.vctx c).fl (reduce 32 (satMode m (s.vctx c).sat) ((s.vctx c).v[a].toInt - (s.vctx c).v[b].toInt))) (outside 32 ((s.vctx c).v[a].toInt - (s.vctx c).v[b].toInt))) (decide ((s.vctx c).v[b].toNat ≤ (s.vctx c).v[a].toNat))) ((s.vctx c).acc)) ∧
  (∀ (s : State) (c : Ctx) (d a : Reg) (m : MMode), s.canRun c [a] none 1 = true → ∃ t, exec (.neg c d a m) s = .next t ∧
      s.ran t c ((s.vctx c).v.set d (reduce 32 (satMode m (s.vctx c).sat) (-(s.vctx c).v[a].toInt))) (flV (flZN (s.vctx c).fl (reduce 32 (satMode m (s.vctx c).sat) (-(s.vctx c).v[a].toInt))) (outside 32 (-(s.vctx c).v[a].toInt))) ((s.vctx c).acc)) ∧
  (∀ (s : State) (c : Ctx) (d a : Reg) (m : MMode), s.canRun c [a] none 1 = true → ∃ t, exec (.abs c d a m) s = .next t ∧
      s.ran t c ((s.vctx c).v.set d (reduce 32 (satMode m (s.vctx c).sat) ((s.vctx c).v[a].toInt.natAbs))) (flV (flZN (s.vctx c).fl (reduce 32 (satMode m (s.vctx c).sat) ((s.vctx c).v[a].toInt.natAbs))) (outside 32 ((s.vctx c).v[a].toInt.natAbs))) ((s.vctx c).acc)) ∧
  (∀ (s : State) (c : Ctx) (d a b : Reg), s.canRun c [a, b] none 1 = true → ∃ t, exec (.min c d a b) s = .next t ∧
      s.ran t c ((s.vctx c).v.set d (if (s.vctx c).v[a].slt (s.vctx c).v[b] then (s.vctx c).v[a] else (s.vctx c).v[b])) (flZN (s.vctx c).fl (if (s.vctx c).v[a].slt (s.vctx c).v[b] then (s.vctx c).v[a] else (s.vctx c).v[b])) ((s.vctx c).acc)) ∧
  (∀ (s : State) (c : Ctx) (d a b : Reg), s.canRun c [a, b] none 1 = true → ∃ t, exec (.max c d a b) s = .next t ∧
      s.ran t c ((s.vctx c).v.set d (if (s.vctx c).v[a].slt (s.vctx c).v[b] then (s.vctx c).v[b] else (s.vctx c).v[a])) (flZN (s.vctx c).fl (if (s.vctx c).v[a].slt (s.vctx c).v[b] then (s.vctx c).v[b] else (s.vctx c).v[a])) ((s.vctx c).acc)) ∧
  (∀ (s : State) (c : Ctx) (a b : Reg), s.canRun c [a, b] none 1 = true → ∃ t, exec (.cmp c a b) s = .next t ∧
      s.ran t c ((s.vctx c).v) (flC (flV (flZN (s.vctx c).fl ((s.vctx c).v[a] - (s.vctx c).v[b])) (outside 32 ((s.vctx c).v[a].toInt - (s.vctx c).v[b].toInt))) (decide ((s.vctx c).v[b].toNat ≤ (s.vctx c).v[a].toNat))) ((s.vctx c).acc)) ∧
  (∀ (s : State) (c : Ctx) (d a b : Reg), s.canRun c [a, b] none 1 = true → ∃ t, exec (.and c d a b) s = .next t ∧
      s.ran t c ((s.vctx c).v.set d ((s.vctx c).v[a] &&& (s.vctx c).v[b])) (flZN (s.vctx c).fl ((s.vctx c).v[a] &&& (s.vctx c).v[b])) ((s.vctx c).acc)) ∧
  (∀ (s : State) (c : Ctx) (d a b : Reg), s.canRun c [a, b] none 1 = true → ∃ t, exec (.or c d a b) s = .next t ∧
      s.ran t c ((s.vctx c).v.set d ((s.vctx c).v[a] ||| (s.vctx c).v[b])) (flZN (s.vctx c).fl ((s.vctx c).v[a] ||| (s.vctx c).v[b])) ((s.vctx c).acc)) ∧
  (∀ (s : State) (c : Ctx) (d a b : Reg), s.canRun c [a, b] none 1 = true → ∃ t, exec (.xor c d a b) s = .next t ∧
      s.ran t c ((s.vctx c).v.set d ((s.vctx c).v[a] ^^^ (s.vctx c).v[b])) (flZN (s.vctx c).fl ((s.vctx c).v[a] ^^^ (s.vctx c).v[b])) ((s.vctx c).acc)) ∧
  (∀ (s : State) (c : Ctx) (d a : Reg), s.canRun c [a] none 1 = true → ∃ t, exec (.mov c d a) s = .next t ∧
      s.ran t c ((s.vctx c).v.set d ((s.vctx c).v[a])) (flZN (s.vctx c).fl ((s.vctx c).v[a])) ((s.vctx c).acc)) ∧
  (∀ (s : State) (c : Ctx) (d a : Reg) (imm : BitVec 18), s.canRun c [a] none 1 = true → ∃ t, exec (.addi c d a imm) s =
      .next t ∧ s.ran t c ((s.vctx c).v.set d (reduce 32 (satMode .follow (s.vctx c).sat) ((s.vctx c).v[a].toInt + imm.toInt))) (flC (flV (flZN (s.vctx c).fl (reduce 32 (satMode .follow (s.vctx c).sat) ((s.vctx c).v[a].toInt + imm.toInt))) (outside 32 ((s.vctx c).v[a].toInt + imm.toInt))) (carryOut (s.vctx c).v[a] (sext18 imm))) ((s.vctx c).acc)) ∧
  (∀ (s : State) (c : Ctx) (d a : Reg) (imm : BitVec 18), s.canRun c [a] none 1 = true → ∃ t, exec (.andi c d a imm) s =
      .next t ∧ s.ran t c ((s.vctx c).v.set d ((s.vctx c).v[a] &&& zext18 imm)) (flZN (s.vctx c).fl ((s.vctx c).v[a] &&& zext18 imm)) ((s.vctx c).acc)) ∧
  (∀ (s : State) (c : Ctx) (d a : Reg) (imm : BitVec 18), s.canRun c [a] none 1 = true → ∃ t, exec (.ori c d a imm) s =
      .next t ∧ s.ran t c ((s.vctx c).v.set d ((s.vctx c).v[a] ||| zext18 imm)) (flZN (s.vctx c).fl ((s.vctx c).v[a] ||| zext18 imm)) ((s.vctx c).acc)) ∧
  (∀ (s : State) (c : Ctx) (d : Reg) (imm : BitVec 22), s.canRun c [] none 1 = true → ∃ t, exec (.lui c d imm) s =
      .next t ∧ s.ran t c ((s.vctx c).v.set d (imm.zeroExtend 32 <<< 10)) ((s.vctx c).fl) ((s.vctx c).acc)) ∧
  (∀ (fl : Byte) (r : Word) (i : Nat), i < 8 → bit (flZN fl r) i = if i = 1 then bit r 31 else if i = 0 then decide (r =
      0) else bit fl i) ∧
  (∀ (fl : Byte) (v : Bool) (i : Nat), i < 8 → bit (flV fl v) i = if i = 3 then v else if i =
      4 then bit fl 4 || v else bit fl i) ∧
  (∀ (fl : Byte) (c : Bool) (i : Nat), i < 8 → bit (flC fl c) i = if i = 2 then c else bit fl i) ∧
  (∀ (fl : Byte) (z : Bool) (i : Nat), i < 8 → bit (flDZ fl z) i = if i = 7 then bit fl 7 || z else bit fl i) ∧
  (∀ (fl : Byte) (k z : Bool) (i : Nat), i < 8 → bit (flAV fl k z) i = if i =
      (if k then 6 else 5) then bit fl i || z else bit fl i) ∧
  (∀ (s : State) (c : Ctx), s.halted c = true →
    (exec (.nop c) s = .next s) ∧
    (∀ (d a b : Reg) (m : MMode), exec (.add c d a b m) s = .next s) ∧
    (∀ (d a b : Reg) (m : MMode), exec (.sub c d a b m) s = .next s) ∧
    (∀ (d a : Reg) (m : MMode), exec (.neg c d a m) s = .next s) ∧
    (∀ (d a : Reg) (m : MMode), exec (.abs c d a m) s = .next s) ∧
    (∀ (d a b : Reg), exec (.min c d a b) s = .next s) ∧
    (∀ (d a b : Reg), exec (.max c d a b) s = .next s) ∧
    (∀ (a b : Reg), exec (.cmp c a b) s = .next s) ∧
    (∀ (d a b : Reg), exec (.and c d a b) s = .next s) ∧
    (∀ (d a b : Reg), exec (.or c d a b) s = .next s) ∧
    (∀ (d a b : Reg), exec (.xor c d a b) s = .next s) ∧
    (∀ (d a : Reg), exec (.mov c d a) s = .next s) ∧
    (∀ (d a : Reg) (imm : BitVec 18), exec (.addi c d a imm) s = .next s) ∧
    (∀ (d a : Reg) (imm : BitVec 18), exec (.andi c d a imm) s = .next s) ∧
    (∀ (d a : Reg) (imm : BitVec 18), exec (.ori c d a imm) s = .next s) ∧
    (∀ (d : Reg) (imm : BitVec 22), exec (.lui c d imm) s = .next s)) ∧
  (∀ (s : State) (c : Ctx) (d a b : Reg) (m : MMode), s.canRun c [a, b] none 1 = true → ∃ t, exec (.shl c d a b m) s =
      .next t ∧ s.ran t c ((s.vctx c).v.set d (reduce 32 (satMode m (s.vctx c).sat) ((s.vctx c).v[a].toInt * 2 ^ (bits (s.vctx c).v[b] 7 0)))) (flV (flZN (s.vctx c).fl (reduce 32 (satMode m (s.vctx c).sat) ((s.vctx c).v[a].toInt * 2 ^ (bits (s.vctx c).v[b] 7 0)))) (outside 32 ((s.vctx c).v[a].toInt * 2 ^ (bits (s.vctx c).v[b] 7 0)))) ((s.vctx c).acc)) ∧
  (∀ (s : State) (c : Ctx) (d a : Reg) (m : MMode) (sh : BitVec 5), s.canRun c [a] none 1 = true → ∃ t,
      exec (.shli c d a m sh) s = .next t ∧
      s.ran t c ((s.vctx c).v.set d (reduce 32 (satMode m (s.vctx c).sat) ((s.vctx c).v[a].toInt * 2 ^ sh.toNat))) (flV (flZN (s.vctx c).fl (reduce 32 (satMode m (s.vctx c).sat) ((s.vctx c).v[a].toInt * 2 ^ sh.toNat))) (outside 32 ((s.vctx c).v[a].toInt * 2 ^ sh.toNat))) ((s.vctx c).acc)) ∧
  (∀ (s : State) (c : Ctx) (d a b : Reg) (r : RMode), s.canRun c [a, b] none 1 = true → ∃ t, exec (.shr c d a b r) s =
      .next t ∧ s.ran t c ((s.vctx c).v.set d (BitVec.ofInt 32 (roundShift (roundMode r (s.vctx c).rnd) (s.vctx c).v[a].toInt (bits (s.vctx c).v[b] 7 0)))) (flZN (s.vctx c).fl (BitVec.ofInt 32 (roundShift (roundMode r (s.vctx c).rnd) (s.vctx c).v[a].toInt (bits (s.vctx c).v[b] 7 0)))) ((s.vctx c).acc)) ∧
  (∀ (s : State) (c : Ctx) (d a : Reg) (r : RMode) (sh : BitVec 5), s.canRun c [a] none 1 = true → ∃ t,
      exec (.shri c d a r sh) s = .next t ∧
      s.ran t c ((s.vctx c).v.set d (BitVec.ofInt 32 (roundShift (roundMode r (s.vctx c).rnd) (s.vctx c).v[a].toInt sh.toNat))) (flZN (s.vctx c).fl (BitVec.ofInt 32 (roundShift (roundMode r (s.vctx c).rnd) (s.vctx c).v[a].toInt sh.toNat))) ((s.vctx c).acc)) ∧
  (∀ (s : State) (c : Ctx) (d a b : Reg), s.canRun c [a, b] none 1 = true → ∃ t, exec (.shrl c d a b) s = .next t ∧
      s.ran t c ((s.vctx c).v.set d ((s.vctx c).v[a] >>> (bits (s.vctx c).v[b] 7 0))) (flZN (s.vctx c).fl ((s.vctx c).v[a] >>> (bits (s.vctx c).v[b] 7 0))) ((s.vctx c).acc)) ∧
  (∀ (s : State) (c : Ctx) (d a : Reg) (sh : BitVec 5), s.canRun c [a] none 1 = true → ∃ t, exec (.shrli c d a sh) s =
      .next t ∧ s.ran t c ((s.vctx c).v.set d ((s.vctx c).v[a] >>> (sh.toNat))) (flZN (s.vctx c).fl ((s.vctx c).v[a] >>> (sh.toNat))) ((s.vctx c).acc)) ∧
  (∀ (s : State) (c : Ctx) (d a b : Reg), s.canRun c [a, b] none 18 = true → ¬ (s.vctx c).v[b] = 0#32 → ∃ t,
      exec (.div c d a b) s = .next t ∧
      s.ran t c ((s.vctx c).v.set d (reduce 32 (satMode .saturating (s.vctx c).sat) (quotFrac (s.vctx c).v[a].toInt (s.vctx c).v[b].toInt))) (flV (flZN (s.vctx c).fl (reduce 32 (satMode .saturating (s.vctx c).sat) (quotFrac (s.vctx c).v[a].toInt (s.vctx c).v[b].toInt))) (outside 32 (quotFrac (s.vctx c).v[a].toInt (s.vctx c).v[b].toInt))) ((s.vctx c).acc)) ∧
  (∀ (s : State) (c : Ctx) (d a b : Reg), s.canRun c [a, b] none 18 = true → (s.vctx c).v[b] = 0 → ∃ t,
      exec (.div c d a b) s = .next t ∧
      s.ran t c ((s.vctx c).v.set d (if 0 < (s.vctx c).v[a].toInt then 0x7FFFFFFF else if (s.vctx c).v[a].toInt < 0 then 0x80000000 else 0)) (flDZ (flV (flZN (s.vctx c).fl (if 0 < (s.vctx c).v[a].toInt then 0x7FFFFFFF else if (s.vctx c).v[a].toInt < 0 then 0x80000000 else 0)) true) true) ((s.vctx c).acc)) ∧
  (∀ (s : State) (c : Ctx) (d a b : Reg) (m : MMode), s.canRun c [a, b] none 18 = true → ¬ (s.vctx c).v[b] = 0#32 → ∃ t,
      exec (.idiv c d a b m) s = .next t ∧
      s.ran t c ((s.vctx c).v.set d (reduce 32 (satMode m (s.vctx c).sat) ((s.vctx c).v[a].toInt.tdiv (s.vctx c).v[b].toInt))) (flV (flZN (s.vctx c).fl (reduce 32 (satMode m (s.vctx c).sat) ((s.vctx c).v[a].toInt.tdiv (s.vctx c).v[b].toInt))) (outside 32 ((s.vctx c).v[a].toInt.tdiv (s.vctx c).v[b].toInt))) ((s.vctx c).acc)) ∧
  (∀ (s : State) (c : Ctx) (d a b : Reg) (m : MMode), s.canRun c [a, b] none 18 = true → (s.vctx c).v[b] = 0 → ∃ t,
      exec (.idiv c d a b m) s = .next t ∧
      s.ran t c ((s.vctx c).v.set d (if 0 < (s.vctx c).v[a].toInt then 0x7FFFFFFF else if (s.vctx c).v[a].toInt < 0 then 0x80000000 else 0)) (flDZ (flV (flZN (s.vctx c).fl (if 0 < (s.vctx c).v[a].toInt then 0x7FFFFFFF else if (s.vctx c).v[a].toInt < 0 then 0x80000000 else 0)) true) true) ((s.vctx c).acc)) ∧
  (∀ (s : State) (c : Ctx), s.halted c = true →
    (∀ (d a b : Reg) (m : MMode), exec (.shl c d a b m) s = .next s) ∧
    (∀ (d a : Reg) (m : MMode) (sh : BitVec 5), exec (.shli c d a m sh) s = .next s) ∧
    (∀ (d a b : Reg) (r : RMode), exec (.shr c d a b r) s = .next s) ∧
    (∀ (d a : Reg) (r : RMode) (sh : BitVec 5), exec (.shri c d a r sh) s = .next s) ∧
    (∀ (d a b : Reg), exec (.shrl c d a b) s = .next s) ∧
    (∀ (d a : Reg) (sh : BitVec 5), exec (.shrli c d a sh) s = .next s) ∧
    (∀ (d a b : Reg), exec (.div c d a b) s = .next s) ∧
    (∀ (d a b : Reg) (m : MMode), exec (.idiv c d a b m) s = .next s)) ∧
  (∀ (s : State) (c : Ctx), s.halted c = false →
    (s.canRun c [] none 1 = false → exec (.nop c) s = .next (s.cutOff c)) ∧
    (∀ (d a b : Reg) (m : MMode), s.canRun c [a, b] none 1 = false → exec (.add c d a b m) s = .next (s.cutOff c)) ∧
    (∀ (d a b : Reg) (m : MMode), s.canRun c [a, b] none 1 = false → exec (.sub c d a b m) s = .next (s.cutOff c)) ∧
    (∀ (d a : Reg) (m : MMode), s.canRun c [a] none 1 = false → exec (.neg c d a m) s = .next (s.cutOff c)) ∧
    (∀ (d a : Reg) (m : MMode), s.canRun c [a] none 1 = false → exec (.abs c d a m) s = .next (s.cutOff c)) ∧
    (∀ (d a b : Reg), s.canRun c [a, b] none 1 = false → exec (.min c d a b) s = .next (s.cutOff c)) ∧
    (∀ (d a b : Reg), s.canRun c [a, b] none 1 = false → exec (.max c d a b) s = .next (s.cutOff c)) ∧
    (∀ (a b : Reg), s.canRun c [a, b] none 1 = false → exec (.cmp c a b) s = .next (s.cutOff c)) ∧
    (∀ (d a b : Reg), s.canRun c [a, b] none 1 = false → exec (.and c d a b) s = .next (s.cutOff c)) ∧
    (∀ (d a b : Reg), s.canRun c [a, b] none 1 = false → exec (.or c d a b) s = .next (s.cutOff c)) ∧
    (∀ (d a b : Reg), s.canRun c [a, b] none 1 = false → exec (.xor c d a b) s = .next (s.cutOff c)) ∧
    (∀ (d a : Reg), s.canRun c [a] none 1 = false → exec (.mov c d a) s = .next (s.cutOff c)) ∧
    (∀ (d a : Reg) (imm : BitVec 18), s.canRun c [a] none 1 = false → exec (.addi c d a imm) s = .next (s.cutOff c)) ∧
    (∀ (d a : Reg) (imm : BitVec 18), s.canRun c [a] none 1 = false → exec (.andi c d a imm) s = .next (s.cutOff c)) ∧
    (∀ (d a : Reg) (imm : BitVec 18), s.canRun c [a] none 1 = false → exec (.ori c d a imm) s = .next (s.cutOff c)) ∧
    (∀ (d : Reg) (imm : BitVec 22), s.canRun c [] none 1 = false → exec (.lui c d imm) s = .next (s.cutOff c)) ∧
    (∀ (d a b : Reg) (m : MMode), s.canRun c [a, b] none 1 = false → exec (.shl c d a b m) s = .next (s.cutOff c)) ∧
    (∀ (d a : Reg) (m : MMode) (sh : BitVec 5), s.canRun c [a] none 1 = false → exec (.shli c d a m sh) s =
      .next (s.cutOff c)) ∧
    (∀ (d a b : Reg) (r : RMode), s.canRun c [a, b] none 1 = false → exec (.shr c d a b r) s = .next (s.cutOff c)) ∧
    (∀ (d a : Reg) (r : RMode) (sh : BitVec 5), s.canRun c [a] none 1 = false → exec (.shri c d a r sh) s =
      .next (s.cutOff c)) ∧
    (∀ (d a b : Reg), s.canRun c [a, b] none 1 = false → exec (.shrl c d a b) s = .next (s.cutOff c)) ∧
    (∀ (d a : Reg) (sh : BitVec 5), s.canRun c [a] none 1 = false → exec (.shrli c d a sh) s = .next (s.cutOff c)) ∧
    (∀ (d a b : Reg), s.canRun c [a, b] none 18 = false → exec (.div c d a b) s = .next (s.cutOff c)) ∧
    (∀ (d a b : Reg) (m : MMode), s.canRun c [a, b] none 18 = false → exec (.idiv c d a b m) s = .next (s.cutOff c))) ∧
  (∀ (c : Ctx) (d a b : Reg) (i : BitVec 18) (o : BitVec 26) (k : Bool),
    vavisDecode c (BitVec.ofNat 32 (0x01 * 2 ^ 26 + d.val * 2 ^ 22 + a.val * 2 ^ 18 + b.val * 2 ^ 14)) =
      some (execAdd c d a b .follow) ∧
    vavisDecode c (BitVec.ofNat 32 (0x14 * 2 ^ 26 + d.val * 2 ^ 22 + a.val * 2 ^ 18 + i.toNat)) =
      some (execAddi c d a i) ∧
    vavisDecode c (BitVec.ofNat 32 (0x20 * 2 ^ 26 + 16 * k.toNat)) = some (execAclr c k) ∧
    vavisDecode c (BitVec.ofNat 32 (0x28 * 2 ^ 26 + o.toNat)) = some (execB c o) ∧
    (∀ w, legalWord w = false → vavisDecode c w = none))

/-- A load from a window of the context writes its destination; a store writes exactly the bytes at its address, 2 or 4
of them, and nothing else in any memory; LDP moves its pointer after the load; an access that is not aligned or lies
outside every window traps: a kernel in its invocation is faulted. In a context that does not run now (its core down,
asleep or with a kernel in its place; a kernel outside its invocation or past its budget) the instruction does nothing.
In a firmware context the trap takes its core down. Where the manual leaves a point open this rests on the model's own
reading: log entries 10, 41, 87. -/
def Obligations.LoadsAndStores : Prop :=
  (∀ (s : State) (c : Ctx) (d a : Reg) (imm : BitVec 18) (w : Nat), s.canRun c [a] none 1 = true →
      s.vLoad c ((s.vctx c).v[a] + sext18 imm) 4 = some w → ∃ t, exec (.ld c d a imm) s = .next t ∧
      s.ran t c ((s.vctx c).v.set d (BitVec.ofNat 32 w)) (s.vctx c).fl (s.vctx c).acc) ∧
  (∀ (s : State) (c : Ctx) (d a : Reg) (imm : BitVec 18) (w : Nat), s.canRun c [a] none 1 = true →
      s.vLoad c ((s.vctx c).v[a] + sext18 imm) 2 = some w → ∃ t, exec (.ldh c d a imm) s = .next t ∧
      s.ran t c ((s.vctx c).v.set d ((BitVec.ofNat 16 w).signExtend 32)) (s.vctx c).fl (s.vctx c).acc) ∧
  (∀ (s : State) (c : Ctx) (d a : Reg) (imm : BitVec 18) (w : Nat), s.canRun c [a] none 1 = true →
      s.vLoad c (s.vctx c).v[a] 4 = some w → ∃ t, exec (.ldp c d a imm) s = .next t ∧
      s.ran t c (((s.vctx c).v.set d (BitVec.ofNat 32 w)).set a ((if a =
      d then BitVec.ofNat 32 w else (s.vctx c).v[a]) + sext18 imm)) (s.vctx c).fl (s.vctx c).acc) ∧
  (∀ (s : State) (c : Ctx) (d a : Reg) (imm : BitVec 18), s.canRun c [d, a] none 1 = true → c.kernel = true →
      ((s.vctx c).v[a] + sext18 imm).toNat % 4 = 0 → inside ((s.vctx c).v[a] + sext18 imm).toNat 4 0x10000 8192 = true →
      ∃ t, exec (.st c d a imm) s = .next t ∧ s.onlyCore t c ∧ s.regsAre t c (s.vctx c).v (s.vctx c).fl (s.vctx c).acc ∧
      t.core[c.core].slot.data =
      Mem.write zeroByte s.core[c.core].slot.data (((s.vctx c).v[a] + sext18 imm).toNat - 0x10000) (leBytes 4 (s.vctx c).v[d].toNat) ∧
      t.core[c.core].slot.outw = s.core[c.core].slot.outw ∧ t.core[c.core].data = s.core[c.core].data) ∧
  (∀ (s : State) (c : Ctx) (d a : Reg) (imm : BitVec 18), s.canRun c [d, a] none 1 = true → c.kernel = true →
      ((s.vctx c).v[a] + sext18 imm).toNat % 4 = 0 → inside ((s.vctx c).v[a] + sext18 imm).toNat 4 0x21000 1024 = true →
      ∃ t, exec (.st c d a imm) s = .next t ∧ s.onlyCore t c ∧ s.regsAre t c (s.vctx c).v (s.vctx c).fl (s.vctx c).acc ∧
      t.core[c.core].slot.data = s.core[c.core].slot.data ∧ t.core[c.core].slot.outw =
      Mem.write zeroByte s.core[c.core].slot.outw (((s.vctx c).v[a] + sext18 imm).toNat - 0x21000) (leBytes 4 (s.vctx c).v[d].toNat) ∧
      t.core[c.core].data = s.core[c.core].data) ∧
  (∀ (s : State) (c : Ctx) (d a : Reg) (imm : BitVec 18), s.canRun c [d, a] none 1 = true → c.kernel = false → ∃ t,
      exec (.st c d a imm) s = .next t ∧ (((s.vctx c).v[a] + sext18 imm).toNat % 4 = 0 →
      inside ((s.vctx c).v[a] + sext18 imm).toNat 4 (Config.dataBase c.core) (fwDataSize c.core) = true →
      s.onlyCore t c ∧ s.regsAre t c (s.vctx c).v (s.vctx c).fl (s.vctx c).acc ∧ t.core[c.core].data =
      Mem.write zeroByte s.core[c.core].data (((s.vctx c).v[a] + sext18 imm).toNat - Config.dataBase c.core) (leBytes 4 (s.vctx c).v[d].toNat) ∧
      t.core[c.core].slot = s.core[c.core].slot)) ∧
  (∀ (s : State) (c : Ctx) (d a : Reg) (imm : BitVec 18), s.canRun c [d, a] none 1 = true → c.kernel = true →
      ((s.vctx c).v[a] + sext18 imm).toNat % 2 = 0 → inside ((s.vctx c).v[a] + sext18 imm).toNat 2 0x10000 8192 = true →
      ∃ t, exec (.sth c d a imm) s = .next t ∧ s.onlyCore t c ∧ s.regsAre t c (s.vctx c).v (s.vctx c).fl (s.vctx c).acc ∧
      t.core[c.core].slot.data =
      Mem.write zeroByte s.core[c.core].slot.data (((s.vctx c).v[a] + sext18 imm).toNat - 0x10000) (leBytes 2 (s.vctx c).v[d].toNat) ∧
      t.core[c.core].slot.outw = s.core[c.core].slot.outw ∧ t.core[c.core].data = s.core[c.core].data) ∧
  (∀ (s : State) (c : Ctx) (d a : Reg) (imm : BitVec 18), s.canRun c [d, a] none 1 = true → c.kernel = true →
      ((s.vctx c).v[a] + sext18 imm).toNat % 2 = 0 → inside ((s.vctx c).v[a] + sext18 imm).toNat 2 0x21000 1024 = true →
      ∃ t, exec (.sth c d a imm) s = .next t ∧ s.onlyCore t c ∧ s.regsAre t c (s.vctx c).v (s.vctx c).fl (s.vctx c).acc ∧
      t.core[c.core].slot.data = s.core[c.core].slot.data ∧ t.core[c.core].slot.outw =
      Mem.write zeroByte s.core[c.core].slot.outw (((s.vctx c).v[a] + sext18 imm).toNat - 0x21000) (leBytes 2 (s.vctx c).v[d].toNat) ∧
      t.core[c.core].data = s.core[c.core].data) ∧
  (∀ (s : State) (c : Ctx) (d a : Reg) (imm : BitVec 18), s.canRun c [d, a] none 1 = true → c.kernel = false → ∃ t,
      exec (.sth c d a imm) s = .next t ∧ (((s.vctx c).v[a] + sext18 imm).toNat % 2 = 0 →
      inside ((s.vctx c).v[a] + sext18 imm).toNat 2 (Config.dataBase c.core) (fwDataSize c.core) = true →
      s.onlyCore t c ∧ s.regsAre t c (s.vctx c).v (s.vctx c).fl (s.vctx c).acc ∧ t.core[c.core].data =
      Mem.write zeroByte s.core[c.core].data (((s.vctx c).v[a] + sext18 imm).toNat - Config.dataBase c.core) (leBytes 2 (s.vctx c).v[d].toNat) ∧
      t.core[c.core].slot = s.core[c.core].slot)) ∧
  (∀ (s : State) (c : Ctx) (d a : Reg) (imm : BitVec 18), s.canRun c [a] none 2 = true → c.kernel = true →
      s.core[c.core].slot.busy = true → s.vLoad c ((s.vctx c).v[a] + sext18 imm) 4 = none → ∃ t, exec (.ld c d a imm) s =
      .next t ∧ t.core[c.core].slot.st = .faulted ∧ t.core[c.core].slot.busy = false ∧ t.core[c.core].slot.outw =
      s.core[c.core].slot.outw ∧ t.core[c.core].slot.data = s.core[c.core].slot.data ∧ (c.core ≠ coreSB → t.port =
      s.port ∧ t.plat = s.plat ∧ t.tt = s.tt)) ∧
  (∀ (s : State) (c : Ctx) (d a : Reg) (imm : BitVec 18), s.canRun c [a] none 2 = true → c.kernel = true →
      s.core[c.core].slot.busy = true → s.vLoad c ((s.vctx c).v[a] + sext18 imm) 2 = none → ∃ t,
      exec (.ldh c d a imm) s = .next t ∧ t.core[c.core].slot.st = .faulted ∧ t.core[c.core].slot.busy = false ∧
      t.core[c.core].slot.outw = s.core[c.core].slot.outw ∧ t.core[c.core].slot.data = s.core[c.core].slot.data ∧
      (c.core ≠ coreSB → t.port = s.port ∧ t.plat = s.plat ∧ t.tt = s.tt)) ∧
  (∀ (s : State) (c : Ctx) (d a : Reg) (imm : BitVec 18), s.canRun c [d, a] none 2 = true → c.kernel = true →
      s.core[c.core].slot.busy = true → s.vStore c ((s.vctx c).v[a] + sext18 imm) (leBytes 4 (s.vctx c).v[d].toNat) =
      none → ∃ t, exec (.st c d a imm) s = .next t ∧ t.core[c.core].slot.st = .faulted ∧ t.core[c.core].slot.busy =
      false ∧ t.core[c.core].slot.outw = s.core[c.core].slot.outw ∧ t.core[c.core].slot.data = s.core[c.core].slot.data ∧
      (c.core ≠ coreSB → t.port = s.port ∧ t.plat = s.plat ∧ t.tt = s.tt)) ∧
  (∀ (s : State) (c : Ctx) (d a : Reg) (imm : BitVec 18), s.canRun c [d, a] none 2 = true → c.kernel = true →
      s.core[c.core].slot.busy = true → s.vStore c ((s.vctx c).v[a] + sext18 imm) (leBytes 2 (s.vctx c).v[d].toNat) =
      none → ∃ t, exec (.sth c d a imm) s = .next t ∧ t.core[c.core].slot.st = .faulted ∧ t.core[c.core].slot.busy =
      false ∧ t.core[c.core].slot.outw = s.core[c.core].slot.outw ∧ t.core[c.core].slot.data = s.core[c.core].slot.data ∧
      (c.core ≠ coreSB → t.port = s.port ∧ t.plat = s.plat ∧ t.tt = s.tt)) ∧
  (∀ (s : State) (c : Ctx) (d a : Reg) (imm : BitVec 18), s.canRun c [a] none 2 = true → c.kernel = true →
      s.core[c.core].slot.busy = true → s.vLoad c (s.vctx c).v[a] 4 = none → ∃ t, exec (.ldp c d a imm) s = .next t ∧
      t.core[c.core].slot.st = .faulted ∧ t.core[c.core].slot.busy = false ∧ t.core[c.core].slot.outw =
      s.core[c.core].slot.outw ∧ t.core[c.core].slot.data = s.core[c.core].slot.data ∧ (c.core ≠ coreSB → t.port =
      s.port ∧ t.plat = s.plat ∧ t.tt = s.tt)) ∧
  (∀ (s : State) (c : Ctx), s.halted c = true →
    (∀ (d a : Reg) (imm : BitVec 18), exec (.ld c d a imm) s = .next s) ∧
    (∀ (d a : Reg) (imm : BitVec 18), exec (.ldh c d a imm) s = .next s) ∧
    (∀ (d a : Reg) (imm : BitVec 18), exec (.ldp c d a imm) s = .next s) ∧
    (∀ (d a : Reg) (imm : BitVec 18), exec (.st c d a imm) s = .next s) ∧
    (∀ (d a : Reg) (imm : BitVec 18), exec (.sth c d a imm) s = .next s)) ∧
  (∀ (s : State) (c : Ctx), s.halted c = false → c.kernel = false →
    (∀ (d a : Reg) (imm : BitVec 18), (s.vLoad c ((s.vctx c).v[a] + sext18 imm) 4 = none) → ∃ t, exec (.ld c d a imm) s =
      .next t ∧ t.core[c.core].up = false) ∧
    (∀ (d a : Reg) (imm : BitVec 18), (s.vLoad c ((s.vctx c).v[a] + sext18 imm) 2 = none) → ∃ t,
      exec (.ldh c d a imm) s = .next t ∧ t.core[c.core].up = false) ∧
    (∀ (d a : Reg) (imm : BitVec 18), (s.vStore c ((s.vctx c).v[a] + sext18 imm) (leBytes 4 (s.vctx c).v[d].toNat) =
      none) → ∃ t, exec (.st c d a imm) s = .next t ∧ t.core[c.core].up = false) ∧
    (∀ (d a : Reg) (imm : BitVec 18), (s.vStore c ((s.vctx c).v[a] + sext18 imm) (leBytes 2 (s.vctx c).v[d].toNat) =
      none) → ∃ t, exec (.sth c d a imm) s = .next t ∧ t.core[c.core].up = false) ∧
    (∀ (d a : Reg) (imm : BitVec 18), (s.vLoad c (s.vctx c).v[a] 4 = none) → ∃ t, exec (.ldp c d a imm) s = .next t ∧
      t.core[c.core].up = false))

/-- MUL and FMUL put their product behind those pending, to be read from the third cycle after theirs; PRODUCT_WRITE
writes mph and mpl with the last product whose cycle has come, takes those products out of the pending ones, and changes
nothing where no cycle has come; MAC, MSU and MACM change one accumulator by the rounded product, reduced to 40 bits,
with its sticky overflow flag, complete two cycles after the next; MACM moves both pointers, one register named twice by
8; the other accumulator instructions wait for their accumulator and write what their rows say. In a context that does
not run now (its core down, asleep or with a kernel in its place; a kernel outside its invocation or past its budget) an
instruction does nothing. Where the budget ends within it, it has no effect but State.cutOff. A load of MACM that traps
faults a kernel and takes a firmware core down. Where the cycles left to the invocation end before an instruction does,
it stops within it: State.cutOff. In a firmware context the trap takes its core down. Where the manual leaves a point
open this rests on the model's own reading: log entries 42, 105, 163. -/
def Obligations.ProductsAndAccumulators : Prop :=
  (∀ (s : State) (c : Ctx) (a b : Reg), s.canRun c [a, b] none 1 = true → ∃ t, exec (.mul c a b) s = .next t ∧
      s.ran t c (s.vctx c).v (s.vctx c).fl (s.vctx c).acc ∧ (t.vctx c).prods.getLast? = some ((t.vctx c).cyc + 2,
      BitVec.ofInt 64 ((s.vctx c).v[a].toInt * (s.vctx c).v[b].toInt)) ∧ ((s.vctx c).loaded = none → (t.vctx c).cyc =
      (s.vctx c).cyc + 1)) ∧
  (∀ (s : State) (c : Ctx) (a b : Reg) (m : MMode), s.canRun c [a, b] none 1 = true → ∃ t, exec (.fmul c a b m) s =
      .next t ∧ s.ran t c (s.vctx c).v (flV (s.vctx c).fl (outside 64 (2 * (s.vctx c).v[a].toInt * (s.vctx c).v[b].toInt))) (s.vctx c).acc ∧
      (t.vctx c).prods.getLast? = some ((t.vctx c).cyc + 2,
      reduce 64 (satMode m (s.vctx c).sat) (2 * (s.vctx c).v[a].toInt * (s.vctx c).v[b].toInt)) ∧ ((s.vctx c).loaded =
      none → (t.vctx c).cyc = (s.vctx c).cyc + 1)) ∧
  (∀ (s : State) (c : Ctx) (q : Nat × BitVec 64), ((s.vctx c).prods.filter fun p =>
      decide (p.1 ≤ (s.vctx c).cyc)).getLast? = some q → ∃ t, exec (.productWrite c) s = .next t ∧ (t.vctx c).mph =
      q.2.extractLsb' 32 32 ∧ (t.vctx c).mpl = q.2.extractLsb' 0 32 ∧ (t.vctx c).prods =
      (s.vctx c).prods.filter (fun p => !decide (p.1 ≤ (s.vctx c).cyc)) ∧
      s.ran t c (s.vctx c).v (s.vctx c).fl (s.vctx c).acc) ∧
  (∀ (s : State) (c : Ctx), (∀ p ∈ (s.vctx c).prods, (s.vctx c).cyc < p.1) → ∃ t, exec (.productWrite c) s = .next t ∧
      t = s) ∧
  (∀ (s : State) (c : Ctx) (k : Bool) (a b : Reg) (m : MMode) (r : RMode), s.canRun c [a, b] none 1 = true → ∃ t,
      exec (.mac c k a b m r) s = .next t ∧
      s.ran t c ((s.vctx c).v) (flAV (s.vctx c).fl k (outside 40 ((s.vctx c).acc[accIdx k].toInt + roundShift (roundMode r (s.vctx c).rnd) ((s.vctx c).v[a].toInt * (s.vctx c).v[b].toInt) 31))) ((s.vctx c).acc.set (accIdx k) (reduce 40 (satMode m (s.vctx c).sat) ((s.vctx c).acc[accIdx k].toInt + roundShift (roundMode r (s.vctx c).rnd) ((s.vctx c).v[a].toInt * (s.vctx c).v[b].toInt) 31))) ∧
      (t.vctx c).accAt[accIdx k] = (t.vctx c).cyc + 2) ∧
  (∀ (s : State) (c : Ctx) (k : Bool) (a b : Reg) (m : MMode) (r : RMode), s.canRun c [a, b] none 1 = true → ∃ t,
      exec (.msu c k a b m r) s = .next t ∧
      s.ran t c ((s.vctx c).v) (flAV (s.vctx c).fl k (outside 40 ((s.vctx c).acc[accIdx k].toInt - roundShift (roundMode r (s.vctx c).rnd) ((s.vctx c).v[a].toInt * (s.vctx c).v[b].toInt) 31))) ((s.vctx c).acc.set (accIdx k) (reduce 40 (satMode m (s.vctx c).sat) ((s.vctx c).acc[accIdx k].toInt - roundShift (roundMode r (s.vctx c).rnd) ((s.vctx c).v[a].toInt * (s.vctx c).v[b].toInt) 31))) ∧
      (t.vctx c).accAt[accIdx k] = (t.vctx c).cyc + 2) ∧
  (∀ (s : State) (c : Ctx) (k : Bool) (a b : Reg) (m : MMode) (r : RMode) (p q : Nat), s.canRun c [a, b] none 1 = true →
      s.vLoad c (s.vctx c).v[a] 4 = some p → s.vLoad c (s.vctx c).v[b] 4 = some q → a ≠ b → ∃ t,
      exec (.macm c k a b m r) s = .next t ∧
      s.ran t c (((s.vctx c).v.set a ((s.vctx c).v[a] + 4)).set b ((s.vctx c).v[b] + 4)) (flAV (s.vctx c).fl k (outside 40 ((s.vctx c).acc[accIdx k].toInt + roundShift (roundMode r (s.vctx c).rnd) ((BitVec.ofNat 32 p).toInt * (BitVec.ofNat 32 q).toInt) 31))) ((s.vctx c).acc.set (accIdx k) (reduce 40 (satMode m (s.vctx c).sat) ((s.vctx c).acc[accIdx k].toInt + roundShift (roundMode r (s.vctx c).rnd) ((BitVec.ofNat 32 p).toInt * (BitVec.ofNat 32 q).toInt) 31))) ∧
      (t.vctx c).accAt[accIdx k] = (t.vctx c).cyc + 2) ∧
  (∀ (s : State) (c : Ctx) (k : Bool) (a : Reg) (m : MMode) (r : RMode) (p q : Nat), s.canRun c [a, a] none 1 = true →
      s.vLoad c (s.vctx c).v[a] 4 = some p → s.vLoad c (s.vctx c).v[a] 4 = some q → ∃ t, exec (.macm c k a a m r) s =
      .next t ∧ s.ran t c ((s.vctx c).v.set a ((s.vctx c).v[a] + 4 + 4)) (flAV (s.vctx c).fl k (outside 40 ((s.vctx c).acc[accIdx k].toInt + roundShift (roundMode r (s.vctx c).rnd) ((BitVec.ofNat 32 p).toInt * (BitVec.ofNat 32 q).toInt) 31))) ((s.vctx c).acc.set (accIdx k) (reduce 40 (satMode m (s.vctx c).sat) ((s.vctx c).acc[accIdx k].toInt + roundShift (roundMode r (s.vctx c).rnd) ((BitVec.ofNat 32 p).toInt * (BitVec.ofNat 32 q).toInt) 31))) ∧
      (t.vctx c).accAt[accIdx k] = (t.vctx c).cyc + 2) ∧
  (∀ (s : State) (c : Ctx) (k : Bool) (a b : Reg) (m : MMode) (r : RMode), s.canRun c [a, b] none 2 = true → c.kernel =
      true → s.core[c.core].slot.busy = true → s.vLoad c (s.vctx c).v[a] 4 = none ∨ s.vLoad c (s.vctx c).v[b] 4 = none →
      ∃ t, exec (.macm c k a b m r) s = .next t ∧ t.core[c.core].slot.st = .faulted ∧ t.core[c.core].slot.busy = false ∧
      t.core[c.core].slot.outw = s.core[c.core].slot.outw ∧ t.core[c.core].slot.data = s.core[c.core].slot.data ∧
      (c.core ≠ coreSB → t.port = s.port ∧ t.plat = s.plat ∧ t.tt = s.tt)) ∧
  (∀ (s : State) (c : Ctx) (k : Bool), s.canRun c [] (some (accIdx k)) 1 = true → ∃ t, exec (.aclr c k) s = .next t ∧
      s.ran t c ((s.vctx c).v) ((s.vctx c).fl) ((s.vctx c).acc.set (accIdx k) 0) ∧ ((s.vctx c).loaded = none →
      (t.vctx c).cyc = max (s.vctx c).cyc (s.vctx c).accAt[accIdx k] + 1)) ∧
  (∀ (s : State) (c : Ctx) (k : Bool) (a : Reg), s.canRun c [a] (some (accIdx k)) 1 = true → ∃ t, exec (.accl c k a) s =
      .next t ∧ s.ran t c ((s.vctx c).v) ((s.vctx c).fl) ((s.vctx c).acc.set (accIdx k) ((s.vctx c).v[a].signExtend 40)) ∧
      ((s.vctx c).loaded = none → (t.vctx c).cyc = max (s.vctx c).cyc (s.vctx c).accAt[accIdx k] + 1)) ∧
  (∀ (s : State) (c : Ctx) (k : Bool) (d : Reg) (m : MMode) (r : RMode) (sh : BitVec 5),
      s.canRun c [] (some (accIdx k)) 1 = true → ∃ t, exec (.accs c k d m r sh) s = .next t ∧
      s.ran t c ((s.vctx c).v.set d (reduce 32 (satMode m (s.vctx c).sat) (roundShift (roundMode r (s.vctx c).rnd) (s.vctx c).acc[accIdx k].toInt sh.toNat))) (flV (flZN (s.vctx c).fl (reduce 32 (satMode m (s.vctx c).sat) (roundShift (roundMode r (s.vctx c).rnd) (s.vctx c).acc[accIdx k].toInt sh.toNat))) (outside 32 (roundShift (roundMode r (s.vctx c).rnd) (s.vctx c).acc[accIdx k].toInt sh.toNat))) ((s.vctx c).acc) ∧
      ((s.vctx c).loaded = none → (t.vctx c).cyc = max (s.vctx c).cyc (s.vctx c).accAt[accIdx k] + 1)) ∧
  (∀ (s : State) (c : Ctx) (k : Bool) (d : Reg), s.canRun c [] (some (accIdx k)) 1 = true → ∃ t, exec (.accx c k d) s =
      .next t ∧ s.ran t c ((s.vctx c).v.set d (((s.vctx c).acc[accIdx k].extractLsb' 31 9).signExtend 32)) (flZN (s.vctx c).fl (((s.vctx c).acc[accIdx k].extractLsb' 31 9).signExtend 32)) ((s.vctx c).acc) ∧
      ((s.vctx c).loaded = none → (t.vctx c).cyc = max (s.vctx c).cyc (s.vctx c).accAt[accIdx k] + 1)) ∧
  (∀ (s : State) (c : Ctx) (k : Bool) (r : RMode) (sh : BitVec 5), s.canRun c [] (some (accIdx k)) 1 = true → ∃ t,
      exec (.accsh c k r sh) s = .next t ∧
      s.ran t c ((s.vctx c).v) ((s.vctx c).fl) ((s.vctx c).acc.set (accIdx k) (BitVec.ofInt 40 (roundShift (roundMode r (s.vctx c).rnd) (s.vctx c).acc[accIdx k].toInt sh.toNat))) ∧
      ((s.vctx c).loaded = none → (t.vctx c).cyc = max (s.vctx c).cyc (s.vctx c).accAt[accIdx k] + 1)) ∧
  (∀ (s : State) (c : Ctx), s.halted c = true →
    (∀ (a b : Reg), exec (.mul c a b) s = .next s) ∧
    (∀ (a b : Reg) (m : MMode), exec (.fmul c a b m) s = .next s) ∧
    (∀ (k : Bool) (a b : Reg) (m : MMode) (r : RMode), exec (.mac c k a b m r) s = .next s) ∧
    (∀ (k : Bool) (a b : Reg) (m : MMode) (r : RMode), exec (.msu c k a b m r) s = .next s) ∧
    (∀ (k : Bool) (a b : Reg) (m : MMode) (r : RMode), exec (.macm c k a b m r) s = .next s) ∧
    (∀ (k : Bool), exec (.aclr c k) s = .next s) ∧
    (∀ (k : Bool) (a : Reg), exec (.accl c k a) s = .next s) ∧
    (∀ (k : Bool) (d : Reg) (m : MMode) (r : RMode) (sh : BitVec 5), exec (.accs c k d m r sh) s = .next s) ∧
    (∀ (k : Bool) (d : Reg), exec (.accx c k d) s = .next s) ∧
    (∀ (k : Bool) (r : RMode) (sh : BitVec 5), exec (.accsh c k r sh) s = .next s)) ∧
  (∀ (s : State) (c : Ctx), s.halted c = false →
    (∀ (a b : Reg), s.canRun c [a, b] none 1 = false → exec (.mul c a b) s = .next (s.cutOff c)) ∧
    (∀ (a b : Reg) (m : MMode), s.canRun c [a, b] none 1 = false → exec (.fmul c a b m) s = .next (s.cutOff c)) ∧
    (∀ (k : Bool) (a b : Reg) (m : MMode) (r : RMode), s.canRun c [a, b] none 1 = false → exec (.mac c k a b m r) s =
      .next (s.cutOff c)) ∧
    (∀ (k : Bool) (a b : Reg) (m : MMode) (r : RMode), s.canRun c [a, b] none 1 = false → exec (.msu c k a b m r) s =
      .next (s.cutOff c)) ∧
    (∀ (k : Bool), s.canRun c [] (some (accIdx k)) 1 = false → exec (.aclr c k) s = .next (s.cutOff c)) ∧
    (∀ (k : Bool) (a : Reg), s.canRun c [a] (some (accIdx k)) 1 = false → exec (.accl c k a) s = .next (s.cutOff c)) ∧
    (∀ (k : Bool) (d : Reg) (m : MMode) (r : RMode) (sh : BitVec 5), s.canRun c [] (some (accIdx k)) 1 = false →
      exec (.accs c k d m r sh) s = .next (s.cutOff c)) ∧
    (∀ (k : Bool) (d : Reg), s.canRun c [] (some (accIdx k)) 1 = false → exec (.accx c k d) s = .next (s.cutOff c)) ∧
    (∀ (k : Bool) (r : RMode) (sh : BitVec 5), s.canRun c [] (some (accIdx k)) 1 = false → exec (.accsh c k r sh) s =
      .next (s.cutOff c))) ∧
  (∀ (s : State) (c : Ctx), s.halted c = false → c.kernel = false →
    (∀ (k : Bool) (a b : Reg) (m : MMode) (r : RMode), (s.vLoad c (s.vctx c).v[a] 4 = none ∨
      s.vLoad c (s.vctx c).v[b] 4 = none) → ∃ t, exec (.macm c k a b m r) s = .next t ∧ t.core[c.core].up = false))

/-- MVS reads each special register: FL, MD, mph and mpl with the last product whose cycle has come, the levels of the
loops, RPT, the cycles and the context's own number; SMV writes FL, MD and the loop registers, and a write to a register
that only reads changes nothing. In a context that does not run now the instruction does nothing, and where the budget
ends within it, it has no effect but State.cutOff. Where the cycles left to the invocation end before an instruction
does, it stops within it: State.cutOff. -/
def Obligations.SpecialRegisters : Prop :=
  (∀ (s : State) (c : Ctx) (a : Reg), s.canRun c [a] none 1 = true → ∃ t, exec (.smv c 0 a) s = .next t ∧
      s.ran t c (s.vctx c).v ((s.vctx c).v[a].setWidth 8) (s.vctx c).acc) ∧
  (∀ (s : State) (c : Ctx) (a : Reg), s.canRun c [a] none 1 = true → ∃ t, exec (.smv c 1 a) s = .next t ∧
      s.onlyCore t c ∧ s.sameMem t c ∧ (t.vctx c).v = (s.vctx c).v ∧ (t.vctx c).fl = (s.vctx c).fl ∧ (t.vctx c).acc =
      (s.vctx c).acc ∧ (t.vctx c).sat = bit (s.vctx c).v[a] 0 ∧ (t.vctx c).rnd = (s.vctx c).v[a].extractLsb' 1 2) ∧
  (∀ (s : State) (c : Ctx) (i : Fin 16) (a : Reg), s.canRun c [a] none 1 = true → i.val = 2 ∨ i.val = 3 ∨ 13 ≤ i.val →
      ∃ t, exec (.smv c i a) s = .next t ∧ s.ran t c (s.vctx c).v (s.vctx c).fl (s.vctx c).acc ∧ ((s.vctx c).atEnd =
      false → (t.vctx c).loops = (s.vctx c).loops)) ∧
  (∀ (s : State) (c : Ctx) (i : Fin 16) (k : Fin 3) (a : Reg), s.canRun c [a] none 1 = true → (s.vctx c).atEnd = false →
      4 ≤ i.val → i.val ≤ 12 → (i.val - 4) / 3 = k.val → (s.vctx c).loops[k].active = false ∨ (i.val - 4) % 3 ≠ 1 ∨
      (s.vctx c).v[a] ≠ (s.vctx c).pc → ∃ t, exec (.smv c i a) s = .next t ∧
      s.ran t c (s.vctx c).v (s.vctx c).fl (s.vctx c).acc ∧ (∀ j : Fin 3, j ≠ k → (t.vctx c).loops[j] =
      (s.vctx c).loops[j]) ∧ (t.vctx c).loops[k] =
      { (s.vctx c).loops[k] with start := if (i.val - 4) % 3 = 0 then (s.vctx c).v[a] else (s.vctx c).loops[k].start, stop := if (i.val - 4) % 3 = 1 then (s.vctx c).v[a] else (s.vctx c).loops[k].stop, count := if (i.val - 4) % 3 = 2 then (s.vctx c).v[a] else (s.vctx c).loops[k].count }) ∧
  (∀ (s : State) (c : Ctx), s.halted c = true →
    (∀ (d : Reg) (index : Fin 16), exec (.mvs c d index) s = .next s) ∧
    (∀ (index : Fin 16) (a : Reg), exec (.smv c index a) s = .next s)) ∧
  (∀ (s : State) (c : Ctx), s.halted c = false →
    (∀ (d : Reg) (index : Fin 16), s.canRun c [] none 1 = false → exec (.mvs c d index) s = .next (s.cutOff c)) ∧
    (∀ (index : Fin 16) (a : Reg), s.canRun c [a] none 1 = false → exec (.smv c index a) s = .next (s.cutOff c))) ∧
  (∀ (s : State) (c : Ctx) (d : Reg), s.canRun c [] none 1 = true → ∃ t, exec (.mvs c d 0) s = .next t ∧
      s.ran t c ((s.vctx c).v.set d ((s.vctx c).fl.zeroExtend 32)) (s.vctx c).fl (s.vctx c).acc) ∧
  (∀ (s : State) (c : Ctx) (d : Reg), s.canRun c [] none 1 = true → ∃ t, exec (.mvs c d 1) s = .next t ∧
      s.ran t c ((s.vctx c).v.set d (BitVec.ofNat 32 (2 * (s.vctx c).rnd.toNat + if (s.vctx c).sat then 1 else 0))) (s.vctx c).fl (s.vctx c).acc) ∧
  (∀ (s : State) (c : Ctx) (d : Reg), s.canRun c [] none 1 = true → (∀ p ∈ (s.vctx c).prods, (s.vctx c).cyc < p.1) → ∃ t,
      exec (.mvs c d 2) s = .next t ∧ s.ran t c ((s.vctx c).v.set d ((s.vctx c).mph)) (s.vctx c).fl (s.vctx c).acc) ∧
  (∀ (s : State) (c : Ctx) (d : Reg), s.canRun c [] none 1 = true → (∀ p ∈ (s.vctx c).prods, (s.vctx c).cyc < p.1) → ∃ t,
      exec (.mvs c d 3) s = .next t ∧ s.ran t c ((s.vctx c).v.set d ((s.vctx c).mpl)) (s.vctx c).fl (s.vctx c).acc) ∧
  (∀ (s : State) (c : Ctx) (d : Reg) (q : Nat × BitVec 64), s.canRun c [] none 1 = true →
      ((s.vctx c).prods.filter fun p => decide (p.1 ≤ (s.vctx c).cyc)).getLast? = some q → ∃ t, exec (.mvs c d 2) s =
      .next t ∧ s.ran t c ((s.vctx c).v.set d (q.2.extractLsb' 32 32)) (s.vctx c).fl (s.vctx c).acc) ∧
  (∀ (s : State) (c : Ctx) (d : Reg) (q : Nat × BitVec 64), s.canRun c [] none 1 = true →
      ((s.vctx c).prods.filter fun p => decide (p.1 ≤ (s.vctx c).cyc)).getLast? = some q → ∃ t, exec (.mvs c d 3) s =
      .next t ∧ s.ran t c ((s.vctx c).v.set d (q.2.extractLsb' 0 32)) (s.vctx c).fl (s.vctx c).acc) ∧
  (∀ (s : State) (c : Ctx) (d : Reg), s.canRun c [] none 1 = true → ∃ t, exec (.mvs c d 4) s = .next t ∧
      s.ran t c ((s.vctx c).v.set d ((s.vctx c).loops[(0 : Fin 3)].start)) (s.vctx c).fl (s.vctx c).acc) ∧
  (∀ (s : State) (c : Ctx) (d : Reg), s.canRun c [] none 1 = true → ∃ t, exec (.mvs c d 5) s = .next t ∧
      s.ran t c ((s.vctx c).v.set d ((s.vctx c).loops[(0 : Fin 3)].stop)) (s.vctx c).fl (s.vctx c).acc) ∧
  (∀ (s : State) (c : Ctx) (d : Reg), s.canRun c [] none 1 = true → ∃ t, exec (.mvs c d 6) s = .next t ∧
      s.ran t c ((s.vctx c).v.set d ((s.vctx c).loops[(0 : Fin 3)].count)) (s.vctx c).fl (s.vctx c).acc) ∧
  (∀ (s : State) (c : Ctx) (d : Reg), s.canRun c [] none 1 = true → ∃ t, exec (.mvs c d 7) s = .next t ∧
      s.ran t c ((s.vctx c).v.set d ((s.vctx c).loops[(1 : Fin 3)].start)) (s.vctx c).fl (s.vctx c).acc) ∧
  (∀ (s : State) (c : Ctx) (d : Reg), s.canRun c [] none 1 = true → ∃ t, exec (.mvs c d 8) s = .next t ∧
      s.ran t c ((s.vctx c).v.set d ((s.vctx c).loops[(1 : Fin 3)].stop)) (s.vctx c).fl (s.vctx c).acc) ∧
  (∀ (s : State) (c : Ctx) (d : Reg), s.canRun c [] none 1 = true → ∃ t, exec (.mvs c d 9) s = .next t ∧
      s.ran t c ((s.vctx c).v.set d ((s.vctx c).loops[(1 : Fin 3)].count)) (s.vctx c).fl (s.vctx c).acc) ∧
  (∀ (s : State) (c : Ctx) (d : Reg), s.canRun c [] none 1 = true → ∃ t, exec (.mvs c d 10) s = .next t ∧
      s.ran t c ((s.vctx c).v.set d ((s.vctx c).loops[(2 : Fin 3)].start)) (s.vctx c).fl (s.vctx c).acc) ∧
  (∀ (s : State) (c : Ctx) (d : Reg), s.canRun c [] none 1 = true → ∃ t, exec (.mvs c d 11) s = .next t ∧
      s.ran t c ((s.vctx c).v.set d ((s.vctx c).loops[(2 : Fin 3)].stop)) (s.vctx c).fl (s.vctx c).acc) ∧
  (∀ (s : State) (c : Ctx) (d : Reg), s.canRun c [] none 1 = true → ∃ t, exec (.mvs c d 12) s = .next t ∧
      s.ran t c ((s.vctx c).v.set d ((s.vctx c).loops[(2 : Fin 3)].count)) (s.vctx c).fl (s.vctx c).acc) ∧
  (∀ (s : State) (c : Ctx) (d : Reg), s.canRun c [] none 1 = true → ∃ t, exec (.mvs c d 13) s = .next t ∧
      s.ran t c ((s.vctx c).v.set d (BitVec.ofNat 32 (s.vctx c).rpt)) (s.vctx c).fl (s.vctx c).acc) ∧
  (∀ (s : State) (c : Ctx) (d : Reg), s.canRun c [] none 1 = true → ∃ t, exec (.mvs c d 14) s = .next t ∧
      s.ran t c ((s.vctx c).v.set d (BitVec.ofNat 32 (s.vctx c).cyc)) (s.vctx c).fl (s.vctx c).acc) ∧
  (∀ (s : State) (c : Ctx) (d : Reg), s.canRun c [] none 1 = true → ∃ t, exec (.mvs c d 15) s = .next t ∧
      s.ran t c ((s.vctx c).v.set d (BitVec.ofNat 32 (c.core.val + if c.kernel then 256 else 0))) (s.vctx c).fl (s.vctx c).acc)

/-- B and BC go to their target, leaving the loop levels that do not hold it; CALL links v15 and RET returns; LOOP opens
a level or skips its body; REP repeats or skips the next instruction; each traps where the rules say: at the end of an
active level, a level that may not open, an END_OFF of 0, a REP before a control instruction, a condition that is not
defined. In a context that does not run now (its core down, asleep or with a kernel in its place; a kernel outside its
invocation or past its budget) the instruction does nothing. In a firmware context the trap takes its core down. Where
the manual leaves a point open this rests on the model's own reading: log entries 107, 108. -/
def Obligations.ControlTransfers : Prop :=
  (∀ (s : State) (c : Ctx) (off : BitVec 26), s.canRun c [] none 3 = true → (s.vctx c).atEnd = false → ∃ t,
      exec (.b c off) s = .next t ∧ s.ran t c (s.vctx c).v (s.vctx c).fl (s.vctx c).acc ∧ (t.vctx c).pc =
      (s.vctx c).pc + wordOff26 off ∧ (t.vctx c).rpt = 0 ∧ ((∀ k : Fin 3, (s.vctx c).loops[k].active = true →
      (s.vctx c).loops[k].holds ((s.vctx c).pc + wordOff26 off) = true) → (t.vctx c).loops = (s.vctx c).loops) ∧
      (∀ k : Fin 3, (s.vctx c).loops[k].active = true → (s.vctx c).loops[k].holds ((s.vctx c).pc + wordOff26 off) =
      false → (t.vctx c).loops[k].active = false)) ∧
  (∀ (s : State) (c : Ctx) (cond : Fin 16) (off : BitVec 18), s.canRun c [] none 3 = true → (s.vctx c).atEnd = false →
      condOk cond.val = true → condHolds (s.vctx c).fl cond.val = true → ∃ t, exec (.bc c cond off) s = .next t ∧
      s.ran t c (s.vctx c).v (s.vctx c).fl (s.vctx c).acc ∧ (t.vctx c).pc = (s.vctx c).pc + wordOff18 off ∧
      (t.vctx c).rpt = 0) ∧
  (∀ (s : State) (c : Ctx) (cond : Fin 16) (off : BitVec 18), s.canRun c [] none 1 = true → (s.vctx c).atEnd = false →
      condOk cond.val = true → condHolds (s.vctx c).fl cond.val = false → ∃ t, exec (.bc c cond off) s = .next t ∧
      s.ran t c (s.vctx c).v (s.vctx c).fl (s.vctx c).acc) ∧
  (∀ (s : State) (c : Ctx) (off : BitVec 26), s.canRun c [] none 3 = true → (s.vctx c).atEnd = false → ∃ t,
      exec (.call c off) s = .next t ∧ s.ran t c ((s.vctx c).v.set 15 ((s.vctx c).pc + 4)) (s.vctx c).fl (s.vctx c).acc ∧
      (t.vctx c).pc = (s.vctx c).pc + wordOff26 off ∧ (t.vctx c).loops = (s.vctx c).loops) ∧
  (∀ (s : State) (c : Ctx), s.canRun c [15] none 3 = true → (s.vctx c).atEnd = false → ∃ t, exec (.ret c) s = .next t ∧
      s.ran t c (s.vctx c).v (s.vctx c).fl (s.vctx c).acc ∧ (t.vctx c).pc = (s.vctx c).v[(15 : Reg)] ∧ (t.vctx c).loops =
      (s.vctx c).loops) ∧
  (∀ (s : State) (c : Ctx) (k : Fin 3) (count : Count) (endOff : BitVec 11), s.canRun c (countReads count) none 1 =
      true → (s.vctx c).atEnd = false → endOff ≠ 0 →
      (s.vctx c).loopOk k ((s.vctx c).pc + BitVec.ofNat 32 (4 * endOff.toNat)) = true → loopCount (s.vctx c).v count ≠
      0 → ∃ t, exec (.loop c k count endOff) s = .next t ∧ s.ran t c (s.vctx c).v (s.vctx c).fl (s.vctx c).acc ∧
      (t.vctx c).pc = (s.vctx c).pc + 4 ∧ (t.vctx c).loops =
      (s.vctx c).loops.set k { start := (s.vctx c).pc + 4, stop := ((s.vctx c).pc + BitVec.ofNat 32 (4 * endOff.toNat)), count := loopCount (s.vctx c).v count, active := true }) ∧
  (∀ (s : State) (c : Ctx) (k : Fin 3) (count : Count) (endOff : BitVec 11), s.canRun c (countReads count) none 3 =
      true → (s.vctx c).atEnd = false → endOff ≠ 0 →
      (s.vctx c).loopOk k ((s.vctx c).pc + BitVec.ofNat 32 (4 * endOff.toNat)) = true → loopCount (s.vctx c).v count =
      0 → ∃ t, exec (.loop c k count endOff) s = .next t ∧ s.ran t c (s.vctx c).v (s.vctx c).fl (s.vctx c).acc ∧
      (t.vctx c).pc = ((s.vctx c).pc + BitVec.ofNat 32 (4 * endOff.toNat)) + 4 ∧ (t.vctx c).loops[k].active = false) ∧
  (∀ (s : State) (c : Ctx) (count : Count), s.canRun c (countReads count) none 1 = true → (s.vctx c).atEnd = false →
      controlWord (s.codeWord c ((s.vctx c).pc + 4)) = false → repCount (s.vctx c).v count ≠ 0 → ∃ t,
      exec (.rep c count) s = .next t ∧ s.ran t c (s.vctx c).v (s.vctx c).fl (s.vctx c).acc ∧ (t.vctx c).pc =
      (s.vctx c).pc + 4 ∧ (t.vctx c).rpt = repCount (s.vctx c).v count ∧ (t.vctx c).loops = (s.vctx c).loops) ∧
  (∀ (s : State) (c : Ctx) (count : Count), s.canRun c (countReads count) none 1 = true → (s.vctx c).atEnd = false →
      controlWord (s.codeWord c ((s.vctx c).pc + 4)) = false → repCount (s.vctx c).v count = 0 → ∃ t,
      exec (.rep c count) s = .next t ∧ s.ran t c (s.vctx c).v (s.vctx c).fl (s.vctx c).acc ∧ (t.vctx c).pc =
      (s.vctx c).pc + 8 ∧ (t.vctx c).rpt = 0 ∧ (t.vctx c).loops = (s.vctx c).loops) ∧
  (∀ (s : State) (c : Ctx) (cond : Fin 16) (off : BitVec 18), s.canRun c [] none 2 = true → c.kernel = true →
      s.core[c.core].slot.busy = true → condOk cond.val = false → ∃ t, exec (.bc c cond off) s = .next t ∧
      t.core[c.core].slot.st = .faulted ∧ t.core[c.core].slot.busy = false ∧ t.core[c.core].slot.outw =
      s.core[c.core].slot.outw ∧ t.core[c.core].slot.data = s.core[c.core].slot.data ∧ (c.core ≠ coreSB → t.port =
      s.port ∧ t.plat = s.plat ∧ t.tt = s.tt)) ∧
  (∀ (s : State) (c : Ctx) (k : Fin 3) (count : Count) (endOff : BitVec 11), s.canRun c (countReads count) none 2 =
      true → c.kernel = true → s.core[c.core].slot.busy = true → endOff = 0 ∨
      (s.vctx c).loopOk k ((s.vctx c).pc + BitVec.ofNat 32 (4 * endOff.toNat)) = false → ∃ t,
      exec (.loop c k count endOff) s = .next t ∧ t.core[c.core].slot.st = .faulted ∧ t.core[c.core].slot.busy = false ∧
      t.core[c.core].slot.outw = s.core[c.core].slot.outw ∧ t.core[c.core].slot.data = s.core[c.core].slot.data ∧
      (c.core ≠ coreSB → t.port = s.port ∧ t.plat = s.plat ∧ t.tt = s.tt)) ∧
  (∀ (s : State) (c : Ctx) (count : Count), s.canRun c (countReads count) none 2 = true → c.kernel = true →
      s.core[c.core].slot.busy = true → controlWord (s.codeWord c ((s.vctx c).pc + 4)) = true → ∃ t,
      exec (.rep c count) s = .next t ∧ t.core[c.core].slot.st = .faulted ∧ t.core[c.core].slot.busy = false ∧
      t.core[c.core].slot.outw = s.core[c.core].slot.outw ∧ t.core[c.core].slot.data = s.core[c.core].slot.data ∧
      (c.core ≠ coreSB → t.port = s.port ∧ t.plat = s.plat ∧ t.tt = s.tt)) ∧
  (∀ (s : State) (c : Ctx) (off : BitVec 26), s.canRun c [] none 2 = true → c.kernel = true → s.core[c.core].slot.busy =
      true → (s.vctx c).atEnd = true → ∃ t, exec (.b c off) s = .next t ∧ t.core[c.core].slot.st = .faulted ∧
      t.core[c.core].slot.busy = false ∧ t.core[c.core].slot.outw = s.core[c.core].slot.outw ∧ t.core[c.core].slot.data =
      s.core[c.core].slot.data ∧ (c.core ≠ coreSB → t.port = s.port ∧ t.plat = s.plat ∧ t.tt = s.tt)) ∧
  (∀ (s : State) (c : Ctx) (off : BitVec 26), s.canRun c [] none 2 = true → c.kernel = true → s.core[c.core].slot.busy =
      true → (s.vctx c).atEnd = true → ∃ t, exec (.call c off) s = .next t ∧ t.core[c.core].slot.st = .faulted ∧
      t.core[c.core].slot.busy = false ∧ t.core[c.core].slot.outw = s.core[c.core].slot.outw ∧ t.core[c.core].slot.data =
      s.core[c.core].slot.data ∧ (c.core ≠ coreSB → t.port = s.port ∧ t.plat = s.plat ∧ t.tt = s.tt)) ∧
  (∀ (s : State) (c : Ctx), s.canRun c [15] none 2 = true → c.kernel = true → s.core[c.core].slot.busy = true →
      (s.vctx c).atEnd = true → ∃ t, exec (.ret c) s = .next t ∧ t.core[c.core].slot.st = .faulted ∧
      t.core[c.core].slot.busy = false ∧ t.core[c.core].slot.outw = s.core[c.core].slot.outw ∧ t.core[c.core].slot.data =
      s.core[c.core].slot.data ∧ (c.core ≠ coreSB → t.port = s.port ∧ t.plat = s.plat ∧ t.tt = s.tt)) ∧
  (∀ (s : State) (c : Ctx) (cond : Fin 16) (off : BitVec 18), s.canRun c [] none 2 = true → c.kernel = true →
      s.core[c.core].slot.busy = true → (s.vctx c).atEnd = true → ∃ t, exec (.bc c cond off) s = .next t ∧
      t.core[c.core].slot.st = .faulted ∧ t.core[c.core].slot.busy = false ∧ t.core[c.core].slot.outw =
      s.core[c.core].slot.outw ∧ t.core[c.core].slot.data = s.core[c.core].slot.data ∧ (c.core ≠ coreSB → t.port =
      s.port ∧ t.plat = s.plat ∧ t.tt = s.tt)) ∧
  (∀ (s : State) (c : Ctx) (k : Fin 3) (count : Count) (endOff : BitVec 11), s.canRun c (countReads count) none 2 =
      true → c.kernel = true → s.core[c.core].slot.busy = true → (s.vctx c).atEnd = true → ∃ t,
      exec (.loop c k count endOff) s = .next t ∧ t.core[c.core].slot.st = .faulted ∧ t.core[c.core].slot.busy = false ∧
      t.core[c.core].slot.outw = s.core[c.core].slot.outw ∧ t.core[c.core].slot.data = s.core[c.core].slot.data ∧
      (c.core ≠ coreSB → t.port = s.port ∧ t.plat = s.plat ∧ t.tt = s.tt)) ∧
  (∀ (s : State) (c : Ctx) (count : Count), s.canRun c (countReads count) none 2 = true → c.kernel = true →
      s.core[c.core].slot.busy = true → (s.vctx c).atEnd = true → ∃ t, exec (.rep c count) s = .next t ∧
      t.core[c.core].slot.st = .faulted ∧ t.core[c.core].slot.busy = false ∧ t.core[c.core].slot.outw =
      s.core[c.core].slot.outw ∧ t.core[c.core].slot.data = s.core[c.core].slot.data ∧ (c.core ≠ coreSB → t.port =
      s.port ∧ t.plat = s.plat ∧ t.tt = s.tt)) ∧
  (∀ (s : State) (c : Ctx), s.canRun c [] none 2 = true → c.kernel = true → s.core[c.core].slot.busy = true →
      (s.vctx c).atEnd = true → ∃ t, exec (.ttRead c) s = .next t ∧ t.core[c.core].slot.st = .faulted ∧
      t.core[c.core].slot.busy = false ∧ t.core[c.core].slot.outw = s.core[c.core].slot.outw ∧ t.core[c.core].slot.data =
      s.core[c.core].slot.data ∧ (c.core ≠ coreSB → t.port = s.port ∧ t.plat = s.plat ∧ t.tt = s.tt)) ∧
  (∀ (s : State) (c : Ctx), s.canRun c [] none 2 = true → c.kernel = true → s.core[c.core].slot.busy = true →
      (s.vctx c).atEnd = true → ∃ t, exec (.budget c) s = .next t ∧ t.core[c.core].slot.st = .faulted ∧
      t.core[c.core].slot.busy = false ∧ t.core[c.core].slot.outw = s.core[c.core].slot.outw ∧ t.core[c.core].slot.data =
      s.core[c.core].slot.data ∧ (c.core ≠ coreSB → t.port = s.port ∧ t.plat = s.plat ∧ t.tt = s.tt)) ∧
  (∀ (s : State) (c : Ctx), s.halted c = true →
    (∀ (off : BitVec 26), exec (.b c off) s = .next s) ∧
    (∀ (cond : Fin 16) (off : BitVec 18), exec (.bc c cond off) s = .next s) ∧
    (∀ (off : BitVec 26), exec (.call c off) s = .next s) ∧
    (exec (.ret c) s = .next s) ∧
    (∀ (k : Fin 3) (count : Count) (endOff : BitVec 11), exec (.loop c k count endOff) s = .next s) ∧
    (∀ (count : Count), exec (.rep c count) s = .next s) ∧
    (exec (.ttRead c) s = .next s) ∧
    (exec (.budget c) s = .next s)) ∧
  (∀ (s : State) (c : Ctx), s.halted c = false → c.kernel = false →
    (∀ (cond : Fin 16) (off : BitVec 18), (condOk cond.val = false) → ∃ t, exec (.bc c cond off) s = .next t ∧
      t.core[c.core].up = false) ∧
    (∀ (k : Fin 3) (count : Count) (endOff : BitVec 11), (endOff = 0 ∨
      (s.vctx c).loopOk k ((s.vctx c).pc + BitVec.ofNat 32 (4 * endOff.toNat)) = false) → ∃ t,
      exec (.loop c k count endOff) s = .next t ∧ t.core[c.core].up = false) ∧
    (∀ (count : Count), (controlWord (s.codeWord c ((s.vctx c).pc + 4)) = true) → ∃ t, exec (.rep c count) s = .next t ∧
      t.core[c.core].up = false) ∧
    (∀ (off : BitVec 26), ((s.vctx c).atEnd = true) → ∃ t, exec (.b c off) s = .next t ∧ t.core[c.core].up = false) ∧
    (∀ (off : BitVec 26), ((s.vctx c).atEnd = true) → ∃ t, exec (.call c off) s = .next t ∧ t.core[c.core].up = false) ∧
    (((s.vctx c).atEnd = true) → ∃ t, exec (.ret c) s = .next t ∧ t.core[c.core].up = false) ∧
    (∀ (cond : Fin 16) (off : BitVec 18), ((s.vctx c).atEnd = true) → ∃ t, exec (.bc c cond off) s = .next t ∧
      t.core[c.core].up = false) ∧
    (∀ (k : Fin 3) (count : Count) (endOff : BitVec 11), ((s.vctx c).atEnd = true) → ∃ t,
      exec (.loop c k count endOff) s = .next t ∧ t.core[c.core].up = false) ∧
    (∀ (count : Count), ((s.vctx c).atEnd = true) → ∃ t, exec (.rep c count) s = .next t ∧ t.core[c.core].up = false) ∧
    (((s.vctx c).atEnd = true) → ∃ t, exec (.ttRead c) s = .next t ∧ t.core[c.core].up = false) ∧
    (((s.vctx c).atEnd = true) → ∃ t, exec (.budget c) s = .next t ∧ t.core[c.core].up = false))

/-- SYS reads the Timetable or the budget into v1 and v2; YIELD ends an invocation, and after INIT the kernel runs;
firmware sleeps in WAIT while its event register is 0, and a kernel traps there; an illegal word traps and a legal one
does nothing by this command. A firmware context whose core traps stops with its core. In a context that does not run now
(its core down, asleep or with a kernel in its place; a kernel outside its invocation or past its budget) the instruction
does nothing. An instruction that the budget cuts off writes no register, no flag and no memory, and the context runs no
more until KERNEL_BUDGET. In a firmware context the trap takes its core down. Where the manual leaves a point open this
rests on the model's own reading: log entries 43, 105. -/
def Obligations.ServicesYieldAndWait : Prop :=
  (∀ (s : State) (c : Ctx), s.canRun c [] none 4 = true → (s.vctx c).atEnd = false → ∃ t, exec (.ttRead c) s = .next t ∧
      s.ran t c (((s.vctx c).v.set 1 s.ttStat).set 2 s.ttUsed) (s.vctx c).fl (s.vctx c).acc) ∧
  (∀ (s : State) (c : Ctx), s.canRun c [] none 4 = true → (s.vctx c).atEnd = false → s.core[c.core].slot.busy = true →
      s.core[c.core].slot.st = .staged → ∃ t, exec (.budget c) s = .next t ∧
      s.ran t c (((s.vctx c).v.set 1 (BitVec.ofNat 32 s.core[c.core].slot.initCharge)).set 2 (BitVec.ofNat 32 (1000000 - s.core[c.core].slot.initCharge))) (s.vctx c).fl (s.vctx c).acc) ∧
  (∀ (s : State) (c : Ctx), s.canRun c [] none 4 = true → (s.vctx c).atEnd = false → s.core[c.core].slot.st ≠ .staged →
      ∃ t, exec (.budget c) s = .next t ∧
      s.ran t c (((s.vctx c).v.set 1 (BitVec.ofNat 32 (s.core[c.core].slot.charged s.frameNo))).set 2 (BitVec.ofNat 32 ((if c.core =
      coreSB then 25000 else 100000) - s.core[c.core].slot.charged s.frameNo))) (s.vctx c).fl (s.vctx c).acc) ∧
  (∀ (s : State) (c : Ctx), s.halted c = false → c.kernel = true → (s.vctx c).atEnd = false → s.core[c.core].slot.busy =
      true → s.core[c.core].slot.st = .staged → s.core[c.core].slot.initCharge + 1 < 1000000 → ∃ t, exec (.yield c) s =
      .next t ∧ t.core[c.core].slot.st = .running ∧ t.core[c.core].slot.busy = false ∧ t.port = s.port ∧ t.tt = s.tt) ∧
  (∀ (s : State) (c : Ctx), s.canRun c [] none 1 = true → c.kernel = false → (s.vctx c).atEnd = false → ∃ t,
      exec (.wait c) s = .next t ∧ t.core[c.core].sleeping = decide (s.core[c.core].event = 0) ∧ t.core[c.core].event =
      s.core[c.core].event ∧ s.regsAre t c (s.vctx c).v (s.vctx c).fl (s.vctx c).acc ∧ t.port = s.port ∧ t.host =
      s.host) ∧
  (∀ (s : State) (c : Ctx), s.canRun c [] none 2 = true → c.kernel = true → s.core[c.core].slot.busy = true → ∃ t,
      exec (.wait c) s = .next t ∧ t.core[c.core].slot.st = .faulted ∧ t.core[c.core].slot.busy = false ∧
      t.core[c.core].slot.outw = s.core[c.core].slot.outw ∧ t.core[c.core].slot.data = s.core[c.core].slot.data ∧
      (c.core ≠ coreSB → t.port = s.port ∧ t.plat = s.plat ∧ t.tt = s.tt)) ∧
  (∀ (s : State) (c : Ctx) (w : Word), s.canRun c [] none 2 = true → c.kernel = true → s.core[c.core].slot.busy = true →
      illegalIn c w = true → ∃ t, exec (.illegalInstruction c w) s = .next t ∧ t.core[c.core].slot.st = .faulted ∧
      t.core[c.core].slot.busy = false ∧ t.core[c.core].slot.outw = s.core[c.core].slot.outw ∧ t.core[c.core].slot.data =
      s.core[c.core].slot.data ∧ (c.core ≠ coreSB → t.port = s.port ∧ t.plat = s.plat ∧ t.tt = s.tt)) ∧
  (∀ (s : State) (c : Ctx) (w : Word), illegalIn c w = false ∨ s.halted c = true → ∃ t,
      exec (.illegalInstruction c w) s = .next t ∧ t = s) ∧
  (∀ (s : State) (c : Ctx) (k : PlatId) (w : Word), s.canRun c [] none 2 = true → c = ⟨coreOf k, false⟩ → illegalIn c w =
      true → ∃ t, exec (.illegalInstruction c w) s = .next t ∧ t.core[c.core].up = false ∧ (∀ m : PortId, platOf m ≠ k →
      t.port[m].tc = s.port[m].tc) ∧ t.time.ct = s.time.ct ∧ t.claim = s.claim) ∧
  (∀ (s : State) (c : Ctx), s.halted c = true →
    (exec (.ttRead c) s = .next s) ∧
    (exec (.budget c) s = .next s) ∧
    (exec (.yield c) s = .next s) ∧
    (exec (.wait c) s = .next s) ∧
    (∀ (word : Word), exec (.illegalInstruction c word) s = .next s)) ∧
  (∀ (s : State) (c : Ctx), s.halted c = false → c.kernel = true → s.onlyCore (s.cutOff c) c ∧ s.sameMem (s.cutOff c) c ∧
    s.regsAre (s.cutOff c) c (s.vctx c).v (s.vctx c).fl (s.vctx c).acc ∧ ((s.cutOff c).vctx c).pc = (s.vctx c).pc ∧
      (s.cutOff c).core[c.core].slot.spent = true ∧ (s.cutOff c).halted c = true) ∧
  (∀ (s : State) (c : Ctx), s.halted c = false → c.kernel = false →
    (∀ (w : Word), (illegalIn c w = true) → ∃ t, exec (.illegalInstruction c w) s = .next t ∧ t.core[c.core].up = false))

/-- FramesOfTheCard, part 1 of 5. -/
def Sys2Proof.framesOfTheCard1 : Prop :=
  (∀ (x1 : Bool) (x2 : Bool) (x3 : Bool) (x4 : Vector Schmitt 12) (x5 : Schmitt) (x6 : Schmitt) (x7 : Schmitt) (s : State),
      ∃ t, exec (.preRegulatorStart x1 x2 x3 x4 x5 x6 x7) s = .next t ∧ t =
      { s with sup := t.sup, hs := t.hs, sq := t.sq, health := t.health } ∧ t.sup =
      { s.sup with hvUp := t.sup.hvUp, hvUncorr := t.sup.hvUncorr, hvMargin := t.sup.hvMargin } ∧ t.hs =
      { s.hs with st := t.hs.st, hist := t.hs.hist, lost := t.hs.lost } ∧ t.health =
      { s.health with insertions := t.health.insertions }) ∧
  (∀ (x1 : Nat) (s : State), ∃ t, exec (.vcpReady x1) s = .next t ∧ t =
      { s with sup := t.sup, tt := t.tt, port := t.port } ∧ t.sup = { s.sup with vcpOk := t.sup.vcpOk } ∧ t.tt =
      { s.tt with entries := t.tt.entries, ledger := t.tt.ledger, news := t.tt.news, moved := t.tt.moved, dropped := t.tt.dropped } ∧
      (∀ m : PortId, t.port[m] = { s.port[m] with tc := t.port[m].tc, pp := t.port[m].pp, pd := t.port[m].pd } ∧
      t.port[m].tc = { s.port[m].tc with pathRetry := t.port[m].tc.pathRetry } ∧ t.port[m].pp =
      { s.port[m].pp with code := t.port[m].pp.code, lim := t.port[m].pp.lim, vcpWait := t.port[m].pp.vcpWait } ∧
      t.port[m].pd = { s.port[m].pd with hrPend := t.port[m].pd.hrPend })) ∧
  (∀ (x1 : Nat) (x2 : Nat) (x3 : Nat) (x4 : Bool) (s : State), ∃ t, exec (.logicDieRelease x1 x2 x3 x4) s = .next t ∧ t =
      { s with sup := t.sup, port := t.port, tw := t.tw, net := t.net } ∧ t.sup =
      { s.sup with logicUp := t.sup.logicUp, primer := t.sup.primer, service := t.sup.service, serviceReplace := t.sup.serviceReplace, serviceDue := t.sup.serviceDue } ∧
      (∀ m : PortId, t.port[m] = { s.port[m] with ms := t.port[m].ms } ∧ t.port[m].ms =
      { s.port[m].ms with trace := t.port[m].ms.trace }) ∧ t.net = { s.net with repSeq := t.net.repSeq }) ∧
  (∀ (s : State), ∃ t, exec (.linkSilence) s = .next t ∧ t = { s with sup := t.sup, port := t.port, plat := t.plat } ∧
      t.sup = { s.sup with linkSilent := t.sup.linkSilent } ∧ (∀ m : PortId, t.port[m] =
      { s.port[m] with tc := t.port[m].tc, pd := t.port[m].pd, alt := t.port[m].alt, hold := t.port[m].hold } ∧
      t.port[m].tc = { s.port[m].tc with rpOffer := t.port[m].tc.rpOffer, blank := t.port[m].tc.blank } ∧ t.port[m].pd =
      { s.port[m].pd with ctx := t.port[m].pd.ctx, outbox := t.port[m].pd.outbox, sinkTxOk := t.port[m].pd.sinkTxOk, timers := t.port[m].pd.timers } ∧
      t.port[m].alt = { s.port[m].alt with askStatus := t.port[m].alt.askStatus }) ∧ (∀ k : PlatId, t.plat[k] =
      { s.plat[k] with takeBack := t.plat[k].takeBack })) ∧
  (∀ (s : State), ∃ t, exec (.restartAbandoned) s = .next t ∧ t =
      { s with sup := t.sup, host := t.host, active := t.active, ssn := t.ssn, resume := t.resume, seqTick := t.seqTick, store := t.store } ∧
      t.sup = { s.sup with restartReq := t.sup.restartReq } ∧ (∀ h : Fin 5, t.host[h] =
      { s.host[h] with held := t.host[h].held, events := t.host[h].events, reserved := t.host[h].reserved, dropped := t.host[h].dropped, lost := t.host[h].lost })) ∧
  (∀ (x1 : Bool) (s : State), ∃ t, exec (.serviceLevelChange x1) s = .next t ∧ t =
      { s with sup := t.sup, host := t.host, ssn := t.ssn, resume := t.resume, seqTick := t.seqTick, store := t.store } ∧
      t.sup = { s.sup with servicePin := t.sup.servicePin, serviceDue := t.sup.serviceDue } ∧ (∀ h : Fin 5, t.host[h] =
      { s.host[h] with events := t.host[h].events, dropped := t.host[h].dropped, lost := t.host[h].lost })) ∧
  (∀ (x1 : Int) (s : State), ∃ t, exec (.lifeHour x1) s = .next t ∧ t = { s with health := t.health } ∧ t.health =
      { s.health with life := t.health.life, lifePart := t.health.lifePart }) ∧
  (∀ (s : State), ∃ t, exec (.cadAbsent) s = .next t ∧ t =
      { s with time := t.time, host := t.host, ssn := t.ssn, resume := t.resume, seqTick := t.seqTick, store := t.store } ∧
      (∀ h : Fin 5, t.host[h] =
      { s.host[h] with events := t.host[h].events, dropped := t.host[h].dropped, lost := t.host[h].lost })) ∧
  (∀ (x1 : Nat) (x2 : Nat) (s : State), ∃ t, exec (.cadOutOfTolerance x1 x2) s = .next t ∧ t =
      { s with time := t.time, host := t.host, ssn := t.ssn, resume := t.resume, seqTick := t.seqTick, store := t.store } ∧
      (∀ h : Fin 5, t.host[h] =
      { s.host[h] with events := t.host[h].events, dropped := t.host[h].dropped, lost := t.host[h].lost })) ∧
  (∀ (x1 : List Nat) (s : State), ∃ t, exec (.cadQualified x1) s = .next t ∧ t = { s with time := t.time } ∧ t.time =
      { s.time with cadOk := t.time.cadOk })

/-- FramesOfTheCard, part 2 of 5. -/
def Sys2Proof.framesOfTheCard2 : Prop :=
  (∀ (s : State), ∃ t, exec (.frmAbsent) s = .next t ∧ t =
      { s with time := t.time, host := t.host, ssn := t.ssn, resume := t.resume, seqTick := t.seqTick, store := t.store } ∧
      (∀ h : Fin 5, t.host[h] =
      { s.host[h] with events := t.host[h].events, dropped := t.host[h].dropped, lost := t.host[h].lost })) ∧
  (∀ (s : State), ∃ t, exec (.crystalLost) s = .next t ∧ t =
      { s with sup := t.sup, time := t.time, host := t.host, ssn := t.ssn, resume := t.resume, seqTick := t.seqTick, store := t.store, health := t.health } ∧
      t.sup = { s.sup with replaceReq := t.sup.replaceReq } ∧ (∀ h : Fin 5, t.host[h] =
      { s.host[h] with events := t.host[h].events, dropped := t.host[h].dropped, lost := t.host[h].lost }) ∧ t.health =
      { s.health with active := t.health.active }) ∧
  (∀ (s : State), ∃ t, exec (.slewEnd) s = .next t ∧ t =
      { s with time := t.time, host := t.host, ssn := t.ssn, resume := t.resume, seqTick := t.seqTick, store := t.store } ∧
      t.time = { s.time with st := t.time.st } ∧ (∀ h : Fin 5, t.host[h] =
      { s.host[h] with events := t.host[h].events, dropped := t.host[h].dropped, lost := t.host[h].lost })) ∧
  (∀ (s : State), ∃ t, exec (.frmCapRead) s = .next t ∧ t = { s with time := t.time } ∧ t.time =
      { s.time with capValid := t.time.capValid }) ∧
  (∀ (x1 : List (BitVec 6)) (s : State), ∃ t, exec (.slotLatch x1) s = .next t ∧ t =
      { s with sup := t.sup, host := t.host, ssn := t.ssn, resume := t.resume, seqTick := t.seqTick, store := t.store, health := t.health } ∧
      t.sup = { s.sup with replaceReq := t.sup.replaceReq, slotId := t.sup.slotId, slotPins := t.sup.slotPins } ∧
      (∀ h : Fin 5, t.host[h] =
      { s.host[h] with events := t.host[h].events, dropped := t.host[h].dropped, lost := t.host[h].lost }) ∧ t.health =
      { s.health with active := t.health.active }) ∧
  (∀ (x1 : BitVec 6) (s : State), ∃ t, exec (.slotChange x1) s = .next t ∧ t =
      { s with sup := t.sup, host := t.host, ssn := t.ssn, resume := t.resume, seqTick := t.seqTick, store := t.store, health := t.health } ∧
      t.sup = { s.sup with replaceReq := t.sup.replaceReq, slotPins := t.sup.slotPins, slotChanged := t.sup.slotChanged } ∧
      (∀ h : Fin 5, t.host[h] =
      { s.host[h] with events := t.host[h].events, dropped := t.host[h].dropped, lost := t.host[h].lost }) ∧ t.health =
      { s.health with active := t.health.active }) ∧
  (∀ (x1 : CoreId) (s : State), ∃ t, exec (.enSnap x1) s = .next t ∧ t =
      { s with port := t.port, snapCt := t.snapCt, snapPh := t.snapPh } ∧ (∀ m : PortId, t.port[m] =
      { s.port[m] with ms := t.port[m].ms } ∧ t.port[m].ms =
      { s.port[m].ms with snapSrc := t.port[m].ms.snapSrc, snapSnk := t.port[m].ms.snapSnk })) ∧
  (∀ (x1 : Fin 128) (s : State), ∃ t, exec (.channelWrap x1) s = .next t ∧ t = { s with chan := t.chan }) ∧
  (∀ (x1 : CoreId) (x2 : Fin 128) (x3 : Word) (s : State), ∃ t, exec (.chnCtrlWrite x1 x2 x3) s = .next t ∧ t =
      { s with chan := t.chan }) ∧
  (∀ (x1 : CoreId) (x2 : CoreReg) (x3 : Word) (s : State), ∃ t, exec (.registerWrite x1 x2 x3) s = .next t ∧ t =
      { s with time := t.time, chan := t.chan, tt := t.tt, core := t.core } ∧ t.time =
      { s.time with mismatch := t.time.mismatch, capOvr := t.time.capOvr } ∧ t.tt = { s.tt with req := t.tt.req } ∧ (∀ c : CoreId, t.core[c] = { s.core[c] with event := t.core[c].event, sleeping := t.core[c].sleeping }))

/-- FramesOfTheCard, part 3 of 5. -/
def Sys2Proof.framesOfTheCard3 : Prop :=
  (∀ (x1 : CoreId) (s : State), ∃ t, exec (.ttGo x1) s = .next t ∧ t = { s with tt := t.tt } ∧ t.tt =
      { s.tt with req := t.tt.req, gos := t.tt.gos }) ∧
  (∀ (x1 : CoreId) (x2 : Byte) (s : State), ∃ t, exec (.ttCancel x1 x2) s = .next t ∧ t = { s with tt := t.tt } ∧ t.tt =
      { s.tt with entries := t.tt.entries, ledger := t.tt.ledger, news := t.tt.news, moved := t.tt.moved, dropped := t.tt.dropped }) ∧
  (∀ (x1 : CoreId) (x2 : Word) (s : State), ∃ t, exec (.ttCfgWrite x1 x2) s = .next t ∧ t = { s with tt := t.tt } ∧
      t.tt = { s.tt with nlogPend := t.tt.nlogPend, budgetPend := t.tt.budgetPend }) ∧
  (∀ (x1 : Fin 256) (s : State), ∃ t, exec (.reserveGrant x1) s = .next t ∧ t = { s with tt := t.tt } ∧ t.tt =
      { s.tt with entries := t.tt.entries, firedAt := t.tt.firedAt }) ∧
  (∀ (x1 : Nat) (s : State), ∃ t, exec (.qualifyTime x1) s = .next t ∧ t = { s with hs := t.hs } ∧ t.hs =
      { s.hs with st := t.hs.st, ovAct := t.hs.ovAct, phTo := t.hs.phTo, hist := t.hs.hist, lost := t.hs.lost }) ∧
  (∀ (s : State), ∃ t, exec (.phaseExit) s = .next t ∧ t =
      { s with sup := t.sup, hs := t.hs, host := t.host, ssn := t.ssn, resume := t.resume, seqTick := t.seqTick, store := t.store, health := t.health } ∧
      t.sup = { s.sup with replaceReq := t.sup.replaceReq } ∧ (∀ h : Fin 5, t.host[h] =
      { s.host[h] with events := t.host[h].events, dropped := t.host[h].dropped, lost := t.host[h].lost }) ∧ t.health =
      { s.health with active := t.health.active }) ∧
  (∀ (s : State), ∃ t, exec (.phTo) s = .next t ∧ t =
      { s with sup := t.sup, hs := t.hs, host := t.host, ssn := t.ssn, resume := t.resume, seqTick := t.seqTick, store := t.store, health := t.health } ∧
      t.sup = { s.sup with replaceReq := t.sup.replaceReq } ∧ (∀ h : Fin 5, t.host[h] =
      { s.host[h] with events := t.host[h].events, dropped := t.host[h].dropped, lost := t.host[h].lost }) ∧ t.health =
      { s.health with active := t.health.active }) ∧
  (∀ (x1 : Nat) (x2 : Nat) (s : State), ∃ t, exec (.inrushDone x1 x2) s = .next t ∧ t =
      { s with tt := t.tt, hs := t.hs } ∧ t.tt =
      { s.tt with entries := t.tt.entries, ledger := t.tt.ledger, news := t.tt.news }) ∧
  (∀ (x1 : Nat) (x2 : Nat) (x3 : Nat) (s : State), ∃ t, exec (.pgQ x1 x2 x3) s = .next t ∧ t = { s with hs := t.hs } ∧
      t.hs = { s.hs with st := t.hs.st, opened := t.hs.opened, hist := t.hs.hist, lost := t.hs.lost }) ∧
  (∀ (s : State), ∃ t, exec (.retryTExpiry) s = .next t ∧ t = { s with hs := t.hs } ∧ t.hs =
      { s.hs with st := t.hs.st, long := t.hs.long, hist := t.hs.hist, lost := t.hs.lost })

/-- FramesOfTheCard, part 4 of 5. -/
def Sys2Proof.framesOfTheCard4 : Prop :=
  (∀ (x1 : Nat) (s : State), ∃ t, exec (.feedReturn x1) s = .next t ∧ t = { s with hs := t.hs }) ∧
  (∀ (s : State), ∃ t, exec (.retryCntClear) s = .next t ∧ t = { s with hs := t.hs } ∧ t.hs =
      { s.hs with retry := t.hs.retry }) ∧
  (∀ (x1 : Nat) (s : State), ∃ t, exec (.sagSuspend x1) s = .next t ∧ t = { s with hs := t.hs } ∧ t.hs =
      { s.hs with suspended := t.hs.suspended }) ∧
  (∀ (s : State), ∃ t, exec (.sagClear) s = .next t ∧ t = { s with hs := t.hs } ∧ t.hs =
      { s.hs with suspended := t.hs.suspended }) ∧
  (∀ (x1 : Int) (s : State), ∃ t, exec (.breakerRegulation x1) s = .next t ∧ t = { s with hs := t.hs } ∧ t.hs =
      { s.hs with regulating := t.hs.regulating }) ∧
  (∀ (x1 : Nat) (x2 : Bool) (s : State), ∃ t, exec (.warnNRelease x1 x2) s = .next t ∧ t =
      { s with sup := t.sup, tt := t.tt, hs := t.hs, port := t.port } ∧ t.sup = { s.sup with primer := t.sup.primer } ∧
      t.tt = { s.tt with entries := t.tt.entries, ledger := t.tt.ledger, news := t.tt.news, moved := t.tt.moved, dropped := t.tt.dropped } ∧
      (∀ m : PortId, t.port[m] = { s.port[m] with pd := t.port[m].pd, ct := t.port[m].ct, rs := t.port[m].rs } ∧
      t.port[m].pd = { s.port[m].pd with hrReq := t.port[m].pd.hrReq } ∧ t.port[m].ct =
      { s.port[m].ct with plan := t.port[m].ct.plan } ∧ t.port[m].rs =
      { s.port[m].rs with entry := t.port[m].rs.entry })) ∧
  (∀ (s : State), ∃ t, exec (.inrushSegment) s = .next t ∧ t = { s with tt := t.tt, hs := t.hs } ∧ t.tt =
      { s.tt with entries := t.tt.entries, firedAt := t.tt.firedAt } ∧ t.hs =
      { s.hs with segCnt := t.hs.segCnt, selfNext := t.hs.selfNext, lastSeg := t.hs.lastSeg, hist := t.hs.hist, lost := t.hs.lost }) ∧
  (∀ (s : State), ∃ t, exec (.historyCopy) s = .next t ∧ t =
      { s with hs := t.hs, sq := t.sq, host := t.host, ssn := t.ssn, resume := t.resume, seqTick := t.seqTick, store := t.store } ∧
      t.hs = { s.hs with hist := t.hs.hist, lost := t.hs.lost } ∧ t.sq =
      { s.sq with hist := t.sq.hist, lost := t.sq.lost } ∧ (∀ h : Fin 5, t.host[h] =
      { s.host[h] with events := t.host[h].events, dropped := t.host[h].dropped, lost := t.host[h].lost })) ∧
  (∀ (s : State), ∃ t, exec (.sqStart) s = .next t ∧ t =
      { s with sup := t.sup, sq := t.sq, host := t.host, ssn := t.ssn, resume := t.resume, seqTick := t.seqTick, store := t.store, health := t.health } ∧
      t.sup = { s.sup with replaceReq := t.sup.replaceReq } ∧ t.sq =
      { s.sq with st := t.sq.st, faultDriven := t.sq.faultDriven, hist := t.sq.hist, lost := t.sq.lost } ∧ (∀ h : Fin 5,
      t.host[h] = { s.host[h] with events := t.host[h].events, dropped := t.host[h].dropped, lost := t.host[h].lost }) ∧
      t.health = { s.health with active := t.health.active }) ∧
  (∀ (s : State), ∃ t, exec (.sqRaise) s = .next t ∧ t =
      { s with sup := t.sup, sq := t.sq, host := t.host, ssn := t.ssn, resume := t.resume, seqTick := t.seqTick, store := t.store, health := t.health } ∧
      t.sup = { s.sup with replaceReq := t.sup.replaceReq } ∧ (∀ h : Fin 5, t.host[h] =
      { s.host[h] with events := t.host[h].events, dropped := t.host[h].dropped, lost := t.host[h].lost }) ∧ t.health =
      { s.health with active := t.health.active })

/-- FramesOfTheCard, part 5 of 5. -/
def Sys2Proof.framesOfTheCard5 : Prop :=
  (∀ (x1 : RailId) (s : State), ∃ t, exec (.sqEnableRise x1) s = .next t ∧ t = { s with sq := t.sq } ∧ t.sq =
      { s.sq with rails := t.sq.rails, hist := t.sq.hist, lost := t.sq.lost }) ∧
  (∀ (s : State), ∃ t, exec (.sqCinRise) s = .next t ∧ t = { s with sq := t.sq } ∧ t.sq =
      { s.sq with cin := t.sq.cin, cinQual := t.sq.cinQual }) ∧
  (∀ (s : State), ∃ t, exec (.aoDelayExpiry) s = .next t ∧ t = { s with sq := t.sq } ∧ t.sq =
      { s.sq with aoDelay := t.sq.aoDelay }) ∧
  (∀ (s : State), ∃ t, exec (.downRestart) s = .next t ∧ t = { s with sq := t.sq } ∧ t.sq =
      { s.sq with restartUp := t.sq.restartUp }) ∧
  (∀ (s : State), ∃ t, exec (.aoCntClear) s = .next t ∧ t = { s with sq := t.sq } ∧ t.sq =
      { s.sq with aoCnt := t.sq.aoCnt }) ∧
  (∀ (s : State), ∃ t, exec (.alloffPulseEnd) s = .next t ∧ t = { s with sq := t.sq } ∧ t.sq =
      { s.sq with faultDriven := t.sq.faultDriven }) ∧
  (∀ (s : State), ∃ t, exec (.sqFaultNArm) s = .next t ∧ t = { s with sq := t.sq } ∧ t.sq =
      { s.sq with armed := t.sq.armed, faultN := t.sq.faultN })

/-- Each of these commands answers a next state, in every state, and leaves every field of the state alone but those the
equation names: preRegulatorStart, vcpReady, logicDieRelease, linkSilence, restartAbandoned, serviceLevelChange,
lifeHour, cadAbsent, cadOutOfTolerance, cadQualified, frmAbsent, crystalLost, slewEnd, frmCapRead, slotLatch, slotChange,
enSnap, channelWrap, chnCtrlWrite, registerWrite, ttGo, ttCancel, ttCfgWrite, reserveGrant, qualifyTime, phaseExit, phTo,
inrushDone, pgQ, retryTExpiry, feedReturn, retryCntClear, sagSuspend, sagClear, breakerRegulation, warnNRelease,
inrushSegment, historyCopy, sqStart, sqRaise, sqEnableRise, sqCinRise, aoDelayExpiry, downRestart, aoCntClear,
alloffPulseEnd, sqFaultNArm. -/
def Obligations.FramesOfTheCard : Prop :=
  framesOfTheCard1 ∧ framesOfTheCard2 ∧ framesOfTheCard3 ∧ framesOfTheCard4 ∧ framesOfTheCard5

/-- FramesOfThePorts, part 1 of 8. -/
def Sys2Proof.framesOfThePorts1 : Prop :=
  (∀ (x1 : PortId) (s : State), ∃ t, exec (.portOpen x1) s = .next t ∧ t =
      { s with chan := t.chan, tt := t.tt, port := t.port } ∧ t.tt =
      { s.tt with entries := t.tt.entries, ledger := t.tt.ledger, news := t.tt.news, moved := t.tt.moved, dropped := t.tt.dropped } ∧
      (∀ m : PortId, t.port[m] = { s.port[m] with tc := t.port[m].tc, pp := t.port[m].pp } ∧ t.port[m].tc =
      { s.port[m].tc with lfsr := t.port[m].tc.lfsr, opening := t.port[m].tc.opening } ∧ t.port[m].pp =
      { s.port[m].pp with rEst := t.port[m].pp.rEst, rc := t.port[m].pp.rc }) ∧ (∀ m : PortId, m ≠ x1 → t.port[m] =
      s.port[m])) ∧
  (∀ (x1 : PortId) (x2 : Bool) (s : State), ∃ t, exec (.converterPowerGood x1 x2) s = .next t ∧ t =
      { s with port := t.port, host := t.host, ssn := t.ssn, resume := t.resume, seqTick := t.seqTick, store := t.store } ∧
      (∀ m : PortId, t.port[m] = { s.port[m] with tc := t.port[m].tc, pp := t.port[m].pp } ∧ t.port[m].pp =
      { s.port[m].pp with cen := t.port[m].pp.cen, cpg := t.port[m].pp.cpg }) ∧ (∀ h : Fin 5, t.host[h] =
      { s.host[h] with events := t.host[h].events, dropped := t.host[h].dropped, lost := t.host[h].lost }) ∧
      (∀ m : PortId, m ≠ x1 → t.port[m] = s.port[m])) ∧
  (∀ (x1 : PortId) (x2 : Nat) (x3 : Nat) (s : State), ∃ t, exec (.ccDetect x1 x2 x3) s = .next t ∧ t =
      { s with port := t.port, host := t.host, ssn := t.ssn, resume := t.resume, seqTick := t.seqTick, store := t.store } ∧
      (∀ m : PortId, t.port[m] = { s.port[m] with tc := t.port[m].tc, pp := t.port[m].pp } ∧ t.port[m].pp =
      { s.port[m].pp with cen := t.port[m].pp.cen }) ∧ (∀ h : Fin 5, t.host[h] =
      { s.host[h] with events := t.host[h].events, dropped := t.host[h].dropped, lost := t.host[h].lost }) ∧
      (∀ m : PortId, m ≠ x1 → t.port[m] = s.port[m])) ∧
  (∀ (x1 : PortId) (s : State), ∃ t, exec (.comparatorBlankEnd x1) s = .next t ∧ t = { s with port := t.port } ∧
      (∀ m : PortId, t.port[m] = { s.port[m] with tc := t.port[m].tc } ∧ t.port[m].tc =
      { s.port[m].tc with blank := t.port[m].tc.blank }) ∧ (∀ m : PortId, m ≠ x1 → t.port[m] = s.port[m])) ∧
  (∀ (x1 : PortId) (x2 : Nat) (s : State), ∃ t, exec (.sinkThresholdStep x1 x2) s = .next t ∧ t =
      { s with port := t.port } ∧ (∀ m : PortId, t.port[m] = { s.port[m] with tc := t.port[m].tc } ∧ t.port[m].tc =
      { s.port[m].tc with blank := t.port[m].tc.blank, sinkStep := t.port[m].tc.sinkStep, rpRound := t.port[m].tc.rpRound, rpPend := t.port[m].tc.rpPend }) ∧
      (∀ m : PortId, m ≠ x1 → t.port[m] = s.port[m])) ∧
  (∀ (x1 : PortId) (s : State), ∃ t, exec (.rpLevelChange x1) s = .next t ∧ t = { s with port := t.port } ∧
      (∀ m : PortId, t.port[m] = { s.port[m] with tc := t.port[m].tc, pp := t.port[m].pp, ct := t.port[m].ct } ∧
      t.port[m].tc = { s.port[m].tc with rpSeen := t.port[m].tc.rpSeen, rpPend := t.port[m].tc.rpPend } ∧ t.port[m].pp =
      { s.port[m].pp with prot := t.port[m].pp.prot, ftPend := t.port[m].pp.ftPend, ftHold := t.port[m].pp.ftHold } ∧
      t.port[m].ct = { s.port[m].ct with imax := t.port[m].ct.imax }) ∧ (∀ m : PortId, m ≠ x1 → t.port[m] = s.port[m])) ∧
  (∀ (x1 : PortId) (s : State), ∃ t, exec (.tSrcEnd x1) s = .next t ∧ t =
      { s with port := t.port, host := t.host, ssn := t.ssn, resume := t.resume, seqTick := t.seqTick, store := t.store } ∧
      (∀ m : PortId, t.port[m] = { s.port[m] with tc := t.port[m].tc, pp := t.port[m].pp } ∧ t.port[m].pp =
      { s.port[m].pp with cen := t.port[m].pp.cen }) ∧ (∀ h : Fin 5, t.host[h] =
      { s.host[h] with events := t.host[h].events, dropped := t.host[h].dropped, lost := t.host[h].lost }) ∧
      (∀ m : PortId, m ≠ x1 → t.port[m] = s.port[m])) ∧
  (∀ (x1 : PortId) (x2 : Nat) (x3 : Nat) (x4 : Nat) (s : State), ∃ t, exec (.tccdebounce x1 x2 x3 x4) s = .next t ∧ t =
      { s with tt := t.tt, port := t.port, host := t.host, ssn := t.ssn, resume := t.resume, seqTick := t.seqTick, store := t.store } ∧
      t.tt = { s.tt with entries := t.tt.entries, ledger := t.tt.ledger, news := t.tt.news, moved := t.tt.moved, dropped := t.tt.dropped } ∧
      (∀ m : PortId, t.port[m] =
      { s.port[m] with tc := t.port[m].tc, pp := t.port[m].pp, pd := t.port[m].pd, ct := t.port[m].ct, rs := t.port[m].rs, alt := t.port[m].alt, ms := t.port[m].ms } ∧
      t.port[m].ct = { s.port[m].ct with kind := t.port[m].ct.kind, mv := t.port[m].ct.mv, i10 := t.port[m].ct.i10, imax := t.port[m].ct.imax } ∧
      t.port[m].ms = { s.port[m].ms with attaches := t.port[m].ms.attaches }) ∧ (∀ h : Fin 5, t.host[h] =
      { s.host[h] with events := t.host[h].events, dropped := t.host[h].dropped, lost := t.host[h].lost }) ∧
      (∀ m : PortId, m ≠ x1 → t.port[m] = s.port[m])) ∧
  (∀ (x1 : PortId) (x2 : Nat) (x3 : Nat) (x4 : Nat) (s : State), ∃ t, exec (.ttryccdebounce x1 x2 x3 x4) s = .next t ∧
      t = { s with tt := t.tt, port := t.port, host := t.host, ssn := t.ssn, resume := t.resume, seqTick := t.seqTick, store := t.store } ∧
      t.tt = { s.tt with entries := t.tt.entries, ledger := t.tt.ledger, news := t.tt.news, moved := t.tt.moved, dropped := t.tt.dropped } ∧
      (∀ m : PortId, t.port[m] =
      { s.port[m] with tc := t.port[m].tc, pp := t.port[m].pp, pd := t.port[m].pd, ct := t.port[m].ct, rs := t.port[m].rs, alt := t.port[m].alt, ms := t.port[m].ms } ∧
      t.port[m].ct = { s.port[m].ct with kind := t.port[m].ct.kind, mv := t.port[m].ct.mv, i10 := t.port[m].ct.i10, imax := t.port[m].ct.imax } ∧
      t.port[m].ms = { s.port[m].ms with attaches := t.port[m].ms.attaches }) ∧ (∀ h : Fin 5, t.host[h] =
      { s.host[h] with events := t.host[h].events, dropped := t.host[h].dropped, lost := t.host[h].lost }) ∧
      (∀ m : PortId, m ≠ x1 → t.port[m] = s.port[m])) ∧
  (∀ (x1 : PortId) (s : State), ∃ t, exec (.tpddebounce x1) s = .next t ∧ t =
      { s with port := t.port, host := t.host, ssn := t.ssn, resume := t.resume, seqTick := t.seqTick, store := t.store } ∧
      (∀ m : PortId, t.port[m] = { s.port[m] with tc := t.port[m].tc, pp := t.port[m].pp } ∧ t.port[m].pp =
      { s.port[m].pp with cen := t.port[m].pp.cen }) ∧ (∀ h : Fin 5, t.host[h] =
      { s.host[h] with events := t.host[h].events, dropped := t.host[h].dropped, lost := t.host[h].lost }) ∧
      (∀ m : PortId, m ≠ x1 → t.port[m] = s.port[m]))

/-- FramesOfThePorts, part 2 of 8. -/
def Sys2Proof.framesOfThePorts2 : Prop :=
  (∀ (x1 : PortId) (s : State), ∃ t, exec (.tdrptry x1) s = .next t ∧ t =
      { s with port := t.port, host := t.host, ssn := t.ssn, resume := t.resume, seqTick := t.seqTick, store := t.store } ∧
      (∀ m : PortId, t.port[m] = { s.port[m] with tc := t.port[m].tc, pp := t.port[m].pp } ∧ t.port[m].pp =
      { s.port[m].pp with cen := t.port[m].pp.cen }) ∧ (∀ h : Fin 5, t.host[h] =
      { s.host[h] with events := t.host[h].events, dropped := t.host[h].dropped, lost := t.host[h].lost }) ∧
      (∀ m : PortId, m ≠ x1 → t.port[m] = s.port[m])) ∧
  (∀ (x1 : PortId) (s : State), ∃ t, exec (.ttrytimeout x1) s = .next t ∧ t =
      { s with port := t.port, host := t.host, ssn := t.ssn, resume := t.resume, seqTick := t.seqTick, store := t.store } ∧
      (∀ m : PortId, t.port[m] = { s.port[m] with tc := t.port[m].tc, pp := t.port[m].pp } ∧ t.port[m].pp =
      { s.port[m].pp with cen := t.port[m].pp.cen }) ∧ (∀ h : Fin 5, t.host[h] =
      { s.host[h] with events := t.host[h].events, dropped := t.host[h].dropped, lost := t.host[h].lost }) ∧
      (∀ m : PortId, m ≠ x1 → t.port[m] = s.port[m])) ∧
  (∀ (x1 : PortId) (x2 : Nat) (s : State), ∃ t, exec (.vbusSafe0v x1 x2) s = .next t ∧ t =
      { s with tt := t.tt, port := t.port, host := t.host, ssn := t.ssn, resume := t.resume, seqTick := t.seqTick, store := t.store } ∧
      t.tt = { s.tt with entries := t.tt.entries, ledger := t.tt.ledger, news := t.tt.news, moved := t.tt.moved, dropped := t.tt.dropped } ∧
      (∀ m : PortId, t.port[m] =
      { s.port[m] with tc := t.port[m].tc, pp := t.port[m].pp, pd := t.port[m].pd, ct := t.port[m].ct, rs := t.port[m].rs, alt := t.port[m].alt, ms := t.port[m].ms } ∧
      t.port[m].ct = { s.port[m].ct with kind := t.port[m].ct.kind, mv := t.port[m].ct.mv, i10 := t.port[m].ct.i10, imax := t.port[m].ct.imax } ∧
      t.port[m].ms = { s.port[m].ms with attaches := t.port[m].ms.attaches }) ∧ (∀ h : Fin 5, t.host[h] =
      { s.host[h] with events := t.host[h].events, dropped := t.host[h].dropped, lost := t.host[h].lost }) ∧
      (∀ m : PortId, m ≠ x1 → t.port[m] = s.port[m])) ∧
  (∀ (x1 : PortId) (s : State), ∃ t, exec (.terrorrecovery x1) s = .next t ∧ t =
      { s with port := t.port, host := t.host, ssn := t.ssn, resume := t.resume, seqTick := t.seqTick, store := t.store } ∧
      (∀ m : PortId, t.port[m] = { s.port[m] with tc := t.port[m].tc, pp := t.port[m].pp } ∧ t.port[m].pp =
      { s.port[m].pp with cen := t.port[m].pp.cen }) ∧ (∀ h : Fin 5, t.host[h] =
      { s.host[h] with events := t.host[h].events, dropped := t.host[h].dropped, lost := t.host[h].lost }) ∧
      (∀ m : PortId, m ≠ x1 → t.port[m] = s.port[m])) ∧
  (∀ (x1 : PortId) (s : State), ∃ t, exec (.pathBookingRetry x1) s = .next t ∧ t =
      { s with tt := t.tt, port := t.port } ∧ t.tt =
      { s.tt with entries := t.tt.entries, ledger := t.tt.ledger, news := t.tt.news, moved := t.tt.moved, dropped := t.tt.dropped } ∧
      (∀ m : PortId, t.port[m] = { s.port[m] with tc := t.port[m].tc, pp := t.port[m].pp, pd := t.port[m].pd } ∧
      t.port[m].tc = { s.port[m].tc with pathRetry := t.port[m].tc.pathRetry } ∧ t.port[m].pp =
      { s.port[m].pp with code := t.port[m].pp.code, lim := t.port[m].pp.lim } ∧ t.port[m].pd =
      { s.port[m].pd with hrPend := t.port[m].pd.hrPend }) ∧ (∀ m : PortId, m ≠ x1 → t.port[m] = s.port[m])) ∧
  (∀ (x1 : PortId) (s : State), ∃ t, exec (.vconnOc x1) s = .next t ∧ t = { s with port := t.port } ∧ (∀ m : PortId,
      t.port[m] = { s.port[m] with tc := t.port[m].tc, pd := t.port[m].pd, rs := t.port[m].rs } ∧ t.port[m].tc =
      { s.port[m].tc with vconnOn := t.port[m].tc.vconnOn, vconnWait := t.port[m].tc.vconnWait, vconnOc := t.port[m].tc.vconnOc, vconnOff := t.port[m].tc.vconnOff } ∧
      t.port[m].pd = { s.port[m].pd with outbox := t.port[m].pd.outbox, eprEntry := t.port[m].pd.eprEntry, hrReq := t.port[m].pd.hrReq } ∧
      t.port[m].rs = { s.port[m].rs with vc := t.port[m].rs.vc, baseVc := t.port[m].rs.baseVc, fail := t.port[m].rs.fail })) ∧
  (∀ (x1 : PortId) (s : State), ∃ t, exec (.pathGrant x1) s = .next t ∧ t =
      { s with tt := t.tt, port := t.port, host := t.host, ssn := t.ssn, resume := t.resume, seqTick := t.seqTick, store := t.store } ∧
      t.tt = { s.tt with entries := t.tt.entries, firedAt := t.tt.firedAt } ∧ (∀ m : PortId, t.port[m] =
      { s.port[m] with tc := t.port[m].tc, pp := t.port[m].pp, rs := t.port[m].rs } ∧ t.port[m].tc =
      { s.port[m].tc with vconnOn := t.port[m].tc.vconnOn, vconnWait := t.port[m].tc.vconnWait, pathRetry := t.port[m].tc.pathRetry, pathLimit := t.port[m].tc.pathLimit } ∧
      t.port[m].rs = { s.port[m].rs with vc := t.port[m].rs.vc, baseVc := t.port[m].rs.baseVc }) ∧ (∀ h : Fin 5,
      t.host[h] = { s.host[h] with events := t.host[h].events, dropped := t.host[h].dropped, lost := t.host[h].lost }) ∧
      (∀ m : PortId, m ≠ x1 → t.port[m] = s.port[m])) ∧
  (∀ (x1 : PortId) (s : State), ∃ t, exec (.setGrant x1) s = .next t ∧ t =
      { s with tt := t.tt, port := t.port, host := t.host, ssn := t.ssn, resume := t.resume, seqTick := t.seqTick, store := t.store } ∧
      t.tt = { s.tt with entries := t.tt.entries, firedAt := t.tt.firedAt } ∧ (∀ m : PortId, t.port[m] =
      { s.port[m] with tc := t.port[m].tc, pp := t.port[m].pp, ct := t.port[m].ct } ∧ t.port[m].tc =
      { s.port[m].tc with opening := t.port[m].tc.opening } ∧ t.port[m].ct =
      { s.port[m].ct with plan := t.port[m].ct.plan }) ∧ (∀ h : Fin 5, t.host[h] =
      { s.host[h] with events := t.host[h].events, dropped := t.host[h].dropped, lost := t.host[h].lost }) ∧
      (∀ m : PortId, m ≠ x1 → t.port[m] = s.port[m])) ∧
  (∀ (x1 : PortId) (x2 : Nat) (x3 : Nat) (s : State), ∃ t, exec (.closingDone x1 x2 x3) s = .next t ∧ t =
      { s with port := t.port } ∧ (∀ m : PortId, t.port[m] = { s.port[m] with pp := t.port[m].pp } ∧ t.port[m].pp =
      { s.port[m].pp with st := t.port[m].pp.st }) ∧ (∀ m : PortId, m ≠ x1 → t.port[m] = s.port[m])) ∧
  (∀ (x1 : PortId) (s : State), ∃ t, exec (.retryExpiry x1) s = .next t ∧ t = { s with tt := t.tt, port := t.port } ∧
      t.tt = { s.tt with entries := t.tt.entries, ledger := t.tt.ledger, news := t.tt.news, moved := t.tt.moved, dropped := t.tt.dropped } ∧
      (∀ m : PortId, t.port[m] = { s.port[m] with tc := t.port[m].tc, pp := t.port[m].pp, pd := t.port[m].pd } ∧
      t.port[m].tc = { s.port[m].tc with pathRetry := t.port[m].tc.pathRetry } ∧ t.port[m].pp =
      { s.port[m].pp with st := t.port[m].pp.st, code := t.port[m].pp.code, lim := t.port[m].pp.lim, retryRun := t.port[m].pp.retryRun } ∧
      t.port[m].pd = { s.port[m].pd with hrPend := t.port[m].pd.hrPend }) ∧ (∀ m : PortId, m ≠ x1 → t.port[m] =
      s.port[m]))

/-- FramesOfThePorts, part 3 of 8. -/
def Sys2Proof.framesOfThePorts3 : Prop :=
  (∀ (x1 : PortId) (s : State), ∃ t, exec (.ftCodeTakeover x1) s = .next t ∧ t = { s with port := t.port } ∧
      (∀ m : PortId, t.port[m] = { s.port[m] with pp := t.port[m].pp } ∧ t.port[m].pp =
      { s.port[m].pp with ftCode := t.port[m].pp.ftCode, ftPend := t.port[m].pp.ftPend, ftHold := t.port[m].pp.ftHold }) ∧
      (∀ m : PortId, m ≠ x1 → t.port[m] = s.port[m])) ∧
  (∀ (x1 : PlatId) (x2 : Nat) (s : State), ∃ t, exec (.vconnPresentChange x1 x2) s = .next t ∧ t =
      { s with plat := t.plat } ∧ (∀ k : PlatId, t.plat[k] = { s.plat[k] with vconn := t.plat[k].vconn })) ∧
  (∀ (x1 : PortId) (s : State), ∃ t, exec (.trimSet x1) s = .next t ∧ t = { s with tt := t.tt } ∧ t.tt =
      { s.tt with entries := t.tt.entries, ledger := t.tt.ledger, news := t.tt.news, moved := t.tt.moved, dropped := t.tt.dropped }) ∧
  (∀ (x1 : PortId) (s : State), ∃ t, exec (.calGrant x1) s = .next t ∧ t =
      { s with tt := t.tt, port := t.port, host := t.host, ssn := t.ssn, resume := t.resume, seqTick := t.seqTick, store := t.store } ∧
      t.tt = { s.tt with entries := t.tt.entries, firedAt := t.tt.firedAt } ∧ (∀ m : PortId, t.port[m] =
      { s.port[m] with pp := t.port[m].pp }) ∧ (∀ h : Fin 5, t.host[h] =
      { s.host[h] with events := t.host[h].events, dropped := t.host[h].dropped, lost := t.host[h].lost }) ∧
      (∀ m : PortId, m ≠ x1 → t.port[m] = s.port[m])) ∧
  (∀ (x1 : PortId) (s : State), ∃ t, exec (.trimLoop x1) s = .next t ∧ t = { s with port := t.port, fresh := t.fresh } ∧
      (∀ m : PortId, t.port[m] = { s.port[m] with pp := t.port[m].pp } ∧ t.port[m].pp =
      { s.port[m].pp with code := t.port[m].pp.code, trimPend := t.port[m].pp.trimPend, lim := t.port[m].pp.lim }) ∧
      (∀ m : PortId, m ≠ x1 → t.port[m] = s.port[m])) ∧
  (∀ (x1 : PortId) (s : State), ∃ t, exec (.capabilitiesSend x1) s = .next t ∧ t =
      { s with port := t.port, core := t.core, bg := t.bg } ∧ (∀ m : PortId, t.port[m] =
      { s.port[m] with pd := t.port[m].pd, ct := t.port[m].ct } ∧ t.port[m].pd =
      { s.port[m].pd with outbox := t.port[m].pd.outbox, cacheSrc := t.port[m].pd.cacheSrc, cacheEprSrc := t.port[m].pd.cacheEprSrc, capsCnt := t.port[m].pd.capsCnt, objs := t.port[m].pd.objs } ∧
      t.port[m].ct = { s.port[m].ct with shed := t.port[m].ct.shed, offer := t.port[m].ct.offer, waits := t.port[m].ct.waits, shedDue := t.port[m].ct.shedDue }) ∧
      (∀ c : CoreId, t.core[c] = { s.core[c] with fw := t.core[c].fw, kn := t.core[c].kn, slot := t.core[c].slot }) ∧
      t.bg = { s.bg with shedQueue := t.bg.shedQueue, policy := t.bg.policy }) ∧
  (∀ (x1 : PortId) (s : State), ∃ t, exec (.offerRiseCaps x1) s = .next t ∧ t =
      { s with port := t.port, core := t.core, bg := t.bg } ∧ (∀ m : PortId, t.port[m] =
      { s.port[m] with pd := t.port[m].pd, ct := t.port[m].ct } ∧ t.port[m].pd =
      { s.port[m].pd with outbox := t.port[m].pd.outbox, cacheSrc := t.port[m].pd.cacheSrc, cacheEprSrc := t.port[m].pd.cacheEprSrc, capsCnt := t.port[m].pd.capsCnt, objs := t.port[m].pd.objs } ∧
      t.port[m].ct = { s.port[m].ct with shed := t.port[m].ct.shed, offer := t.port[m].ct.offer, waits := t.port[m].ct.waits, shedDue := t.port[m].ct.shedDue, capsAt := t.port[m].ct.capsAt }) ∧
      (∀ c : CoreId, t.core[c] = { s.core[c] with fw := t.core[c].fw, kn := t.core[c].kn, slot := t.core[c].slot }) ∧
      t.bg = { s.bg with shedQueue := t.bg.shedQueue, policy := t.bg.policy } ∧ (∀ m : PortId, m ≠ x1 → t.port[m] =
      s.port[m])) ∧
  (∀ (x1 : PortId) (s : State), ∃ t, exec (.request x1) s = .next t ∧ t =
      { s with tt := t.tt, port := t.port, host := t.host, ssn := t.ssn, resume := t.resume, seqTick := t.seqTick, store := t.store } ∧
      t.tt = { s.tt with entries := t.tt.entries, ledger := t.tt.ledger, news := t.tt.news, moved := t.tt.moved, dropped := t.tt.dropped } ∧
      (∀ m : PortId, t.port[m] = { s.port[m] with pp := t.port[m].pp, pd := t.port[m].pd, ct := t.port[m].ct } ∧
      t.port[m].pp = { s.port[m].pp with protPend := t.port[m].pp.protPend } ∧ t.port[m].pd =
      { s.port[m].pd with rxq := t.port[m].pd.rxq, rxDone := t.port[m].pd.rxDone, eng := t.port[m].pd.eng, outbox := t.port[m].pd.outbox, timers := t.port[m].pd.timers } ∧
      t.port[m].ct = { s.port[m].ct with commit := t.port[m].ct.commit, plan := t.port[m].ct.plan, waits := t.port[m].ct.waits }) ∧
      (∀ h : Fin 5, t.host[h] =
      { s.host[h] with events := t.host[h].events, dropped := t.host[h].dropped, lost := t.host[h].lost })) ∧
  (∀ (x1 : PortId) (s : State), ∃ t, exec (.eprModeEnter x1) s = .next t ∧ t = { s with port := t.port } ∧ (∀ m : PortId,
      t.port[m] = { s.port[m] with pd := t.port[m].pd } ∧ t.port[m].pd =
      { s.port[m].pd with rxq := t.port[m].pd.rxq, rxDone := t.port[m].pd.rxDone, eng := t.port[m].pd.eng, outbox := t.port[m].pd.outbox, eprEntry := t.port[m].pd.eprEntry }) ∧
      (∀ m : PortId, m ≠ x1 → t.port[m] = s.port[m])) ∧
  (∀ (x1 : PortId) (s : State), ∃ t, exec (.rampGrant x1) s = .next t ∧ t =
      { s with tt := t.tt, port := t.port, host := t.host, ssn := t.ssn, resume := t.resume, seqTick := t.seqTick, store := t.store } ∧
      t.tt = { s.tt with entries := t.tt.entries, firedAt := t.tt.firedAt } ∧ (∀ m : PortId, t.port[m] =
      { s.port[m] with pp := t.port[m].pp, ct := t.port[m].ct } ∧ t.port[m].ct =
      { s.port[m].ct with plan := t.port[m].ct.plan }) ∧ (∀ h : Fin 5, t.host[h] =
      { s.host[h] with events := t.host[h].events, dropped := t.host[h].dropped, lost := t.host[h].lost }) ∧
      (∀ m : PortId, m ≠ x1 → t.port[m] = s.port[m]))

/-- FramesOfThePorts, part 4 of 8. -/
def Sys2Proof.framesOfThePorts4 : Prop :=
  (∀ (x1 : PortId) (x2 : Nat) (s : State), ∃ t, exec (.transitionCheck x1 x2) s = .next t ∧ t =
      { s with port := t.port, host := t.host, ssn := t.ssn, resume := t.resume, seqTick := t.seqTick, bg := t.bg, store := t.store } ∧
      (∀ m : PortId, t.port[m] = { s.port[m] with pp := t.port[m].pp, pd := t.port[m].pd, ct := t.port[m].ct } ∧
      t.port[m].pp = { s.port[m].pp with prot := t.port[m].pp.prot, protPend := t.port[m].pp.protPend, ftPend := t.port[m].pp.ftPend, ftHold := t.port[m].pp.ftHold, assist := t.port[m].pp.assist } ∧
      t.port[m].pd = { s.port[m].pd with outbox := t.port[m].pd.outbox, contract := t.port[m].pd.contract, ams := t.port[m].pd.ams, rdoEpr := t.port[m].pd.rdoEpr, period := t.port[m].pd.period }) ∧
      (∀ h : Fin 5, t.host[h] =
      { s.host[h] with events := t.host[h].events, dropped := t.host[h].dropped, lost := t.host[h].lost }) ∧ t.bg =
      { s.bg with shedding := t.bg.shedding, shedQueue := t.bg.shedQueue }) ∧
  (∀ (x1 : PortId) (s : State), ∃ t, exec (.convFail x1) s = .next t ∧ t =
      { s with port := t.port, host := t.host, ssn := t.ssn, resume := t.resume, seqTick := t.seqTick, store := t.store } ∧
      (∀ m : PortId, t.port[m] = { s.port[m] with pd := t.port[m].pd, ct := t.port[m].ct } ∧ t.port[m].pd =
      { s.port[m].pd with hrReq := t.port[m].pd.hrReq } ∧ t.port[m].ct =
      { s.port[m].ct with convFail := t.port[m].ct.convFail }) ∧ (∀ h : Fin 5, t.host[h] =
      { s.host[h] with events := t.host[h].events, dropped := t.host[h].dropped, lost := t.host[h].lost }) ∧
      (∀ m : PortId, m ≠ x1 → t.port[m] = s.port[m])) ∧
  (∀ (x1 : PortId) (s : State), ∃ t, exec (.shedTimeout x1) s = .next t ∧ t =
      { s with port := t.port, host := t.host, ssn := t.ssn, resume := t.resume, seqTick := t.seqTick, store := t.store } ∧
      (∀ m : PortId, t.port[m] = { s.port[m] with pd := t.port[m].pd } ∧ t.port[m].pd =
      { s.port[m].pd with hrReq := t.port[m].pd.hrReq }) ∧ (∀ h : Fin 5, t.host[h] =
      { s.host[h] with events := t.host[h].events, dropped := t.host[h].dropped, lost := t.host[h].lost }) ∧
      (∀ m : PortId, m ≠ x1 → t.port[m] = s.port[m])) ∧
  (∀ (x1 : PortId) (x2 : Nat) (s : State), ∃ t, exec (.dischargeAssistEnd x1 x2) s = .next t ∧ t =
      { s with port := t.port } ∧ (∀ m : PortId, t.port[m] = { s.port[m] with pp := t.port[m].pp } ∧ t.port[m].pp =
      { s.port[m].pp with assist := t.port[m].pp.assist }) ∧ (∀ m : PortId, m ≠ x1 → t.port[m] = s.port[m])) ∧
  (∀ (x1 : PortId) (s : State), ∃ t, exec (.thermalLimitRemove x1) s = .next t ∧ t =
      { s with port := t.port, host := t.host, ssn := t.ssn, resume := t.resume, seqTick := t.seqTick, store := t.store } ∧
      (∀ m : PortId, t.port[m] = { s.port[m] with pp := t.port[m].pp, ct := t.port[m].ct } ∧ t.port[m].pp =
      { s.port[m].pp with tWarn := t.port[m].pp.tWarn } ∧ t.port[m].ct =
      { s.port[m].ct with shed := t.port[m].ct.shed, therm := t.port[m].ct.therm, target := t.port[m].ct.target, shedDue := t.port[m].ct.shedDue }) ∧
      (∀ h : Fin 5, t.host[h] =
      { s.host[h] with events := t.host[h].events, dropped := t.host[h].dropped, lost := t.host[h].lost }) ∧
      (∀ m : PortId, m ≠ x1 → t.port[m] = s.port[m])) ∧
  (∀ (x1 : PortId) (s : State), ∃ t, exec (.sourceCapabilities x1) s = .next t ∧ t =
      { s with tt := t.tt, port := t.port } ∧ t.tt =
      { s.tt with entries := t.tt.entries, ledger := t.tt.ledger, news := t.tt.news, moved := t.tt.moved, dropped := t.tt.dropped } ∧
      (∀ m : PortId, t.port[m] = { s.port[m] with pd := t.port[m].pd, ct := t.port[m].ct, rs := t.port[m].rs } ∧
      t.port[m].ct = { s.port[m].ct with intended := t.port[m].ct.intended, stopFor := t.port[m].ct.stopFor, stopRetry := t.port[m].ct.stopRetry } ∧
      t.port[m].rs = { s.port[m].rs with leaving := t.port[m].rs.leaving, entry := t.port[m].rs.entry, retry := t.port[m].rs.retry }) ∧
      (∀ m : PortId, m ≠ x1 → t.port[m] = s.port[m])) ∧
  (∀ (x1 : PortId) (s : State), ∃ t, exec (.sinkGrant x1) s = .next t ∧ t = { s with tt := t.tt, port := t.port } ∧
      t.tt = { s.tt with entries := t.tt.entries, firedAt := t.tt.firedAt } ∧ (∀ m : PortId, t.port[m] =
      { s.port[m] with pp := t.port[m].pp, pd := t.port[m].pd, ct := t.port[m].ct } ∧ t.port[m].pp =
      { s.port[m].pp with code := t.port[m].pp.code } ∧ t.port[m].pd =
      { s.port[m].pd with outbox := t.port[m].pd.outbox, reqSent := t.port[m].pd.reqSent } ∧ t.port[m].ct =
      { s.port[m].ct with draw := t.port[m].ct.draw, stopFor := t.port[m].ct.stopFor })) ∧
  (∀ (x1 : PortId) (s : State), ∃ t, exec (.sinkStopRetry x1) s = .next t ∧ t = { s with tt := t.tt, port := t.port } ∧
      t.tt = { s.tt with entries := t.tt.entries, ledger := t.tt.ledger, news := t.tt.news, moved := t.tt.moved, dropped := t.tt.dropped } ∧
      (∀ m : PortId, t.port[m] = { s.port[m] with pd := t.port[m].pd, ct := t.port[m].ct } ∧ t.port[m].pd =
      { s.port[m].pd with outbox := t.port[m].pd.outbox, reqSent := t.port[m].pd.reqSent } ∧ t.port[m].ct =
      { s.port[m].ct with intended := t.port[m].ct.intended, stopFor := t.port[m].ct.stopFor, stopRetry := t.port[m].ct.stopRetry }) ∧
      (∀ m : PortId, m ≠ x1 → t.port[m] = s.port[m])) ∧
  (∀ (x1 : PortId) (s : State), ∃ t, exec (.sinkPartialRebook x1) s = .next t ∧ t = { s with tt := t.tt } ∧ t.tt =
      { s.tt with entries := t.tt.entries, ledger := t.tt.ledger, news := t.tt.news, moved := t.tt.moved, dropped := t.tt.dropped }) ∧
  (∀ (x1 : Int) (s : State), ∃ t, exec (.regenStop x1) s = .next t ∧ t =
      { s with tt := t.tt, port := t.port, bg := t.bg } ∧ t.tt =
      { s.tt with entries := t.tt.entries, ledger := t.tt.ledger, news := t.tt.news, moved := t.tt.moved, dropped := t.tt.dropped } ∧
      (∀ m : PortId, t.port[m] =
      { s.port[m] with tc := t.port[m].tc, pp := t.port[m].pp, pd := t.port[m].pd, ct := t.port[m].ct, rs := t.port[m].rs } ∧
      t.port[m].tc = { s.port[m].tc with opening := t.port[m].tc.opening, pathRetry := t.port[m].tc.pathRetry } ∧
      t.port[m].pp = { s.port[m].pp with code := t.port[m].pp.code } ∧ t.port[m].pd =
      { s.port[m].pd with outbox := t.port[m].pd.outbox, hrReq := t.port[m].pd.hrReq, reqSent := t.port[m].pd.reqSent } ∧
      t.port[m].ct = { s.port[m].ct with draw := t.port[m].ct.draw, intended := t.port[m].ct.intended, stopFor := t.port[m].ct.stopFor, stopRetry := t.port[m].ct.stopRetry, regenHold := t.port[m].ct.regenHold } ∧
      t.port[m].rs = { s.port[m].rs with entry := t.port[m].rs.entry, retry := t.port[m].rs.retry }) ∧ t.bg =
      { s.bg with regenStop := t.bg.regenStop })

/-- FramesOfThePorts, part 5 of 8. -/
def Sys2Proof.framesOfThePorts5 : Prop :=
  (∀ (s : State), ∃ t, exec (.regenRebook) s = .next t ∧ t = { s with tt := t.tt, port := t.port } ∧ t.tt =
      { s.tt with entries := t.tt.entries, ledger := t.tt.ledger, news := t.tt.news, moved := t.tt.moved, dropped := t.tt.dropped } ∧
      (∀ m : PortId, t.port[m] = { s.port[m] with ct := t.port[m].ct } ∧ t.port[m].ct =
      { s.port[m].ct with regenHold := t.port[m].ct.regenHold })) ∧
  (∀ (x1 : PortId) (s : State), ∃ t, exec (.prSwap x1) s = .next t ∧ t = { s with tt := t.tt, port := t.port } ∧ t.tt =
      { s.tt with entries := t.tt.entries, ledger := t.tt.ledger, news := t.tt.news, moved := t.tt.moved, dropped := t.tt.dropped } ∧
      (∀ m : PortId, t.port[m] = { s.port[m] with pd := t.port[m].pd, ct := t.port[m].ct, rs := t.port[m].rs } ∧
      t.port[m].pd = { s.port[m].pd with rxq := t.port[m].pd.rxq, rxDone := t.port[m].pd.rxDone, eng := t.port[m].pd.eng, outbox := t.port[m].pd.outbox, reqSent := t.port[m].pd.reqSent } ∧
      t.port[m].ct = { s.port[m].ct with intended := t.port[m].ct.intended, stopFor := t.port[m].ct.stopFor, stopRetry := t.port[m].ct.stopRetry } ∧
      t.port[m].rs = { s.port[m].rs with code := t.port[m].rs.code, step := t.port[m].rs.step, entry := t.port[m].rs.entry }) ∧
      (∀ m : PortId, m ≠ x1 → t.port[m] = s.port[m])) ∧
  (∀ (x1 : PortId) (s : State), ∃ t, exec (.drSwap x1) s = .next t ∧ t = { s with port := t.port } ∧ (∀ m : PortId,
      t.port[m] = { s.port[m] with pd := t.port[m].pd, rs := t.port[m].rs } ∧ t.port[m].pd =
      { s.port[m].pd with rxq := t.port[m].pd.rxq, rxDone := t.port[m].pd.rxDone, eng := t.port[m].pd.eng, outbox := t.port[m].pd.outbox, hrReq := t.port[m].pd.hrReq } ∧
      t.port[m].rs = { s.port[m].rs with code := t.port[m].rs.code, step := t.port[m].rs.step }) ∧ (∀ m : PortId, m ≠
      x1 → t.port[m] = s.port[m])) ∧
  (∀ (x1 : PortId) (s : State), ∃ t, exec (.vconnSwap x1) s = .next t ∧ t = { s with port := t.port } ∧ (∀ m : PortId,
      t.port[m] = { s.port[m] with pd := t.port[m].pd, rs := t.port[m].rs } ∧ t.port[m].pd =
      { s.port[m].pd with rxq := t.port[m].pd.rxq, rxDone := t.port[m].pd.rxDone, eng := t.port[m].pd.eng, outbox := t.port[m].pd.outbox } ∧
      t.port[m].rs = { s.port[m].rs with code := t.port[m].rs.code, step := t.port[m].rs.step }) ∧ (∀ m : PortId, m ≠
      x1 → t.port[m] = s.port[m])) ∧
  (∀ (x1 : PortId) (s : State), ∃ t, exec (.frSwap x1) s = .next t ∧ t = { s with port := t.port } ∧ (∀ m : PortId,
      t.port[m] = { s.port[m] with pd := t.port[m].pd, rs := t.port[m].rs } ∧ t.port[m].pd =
      { s.port[m].pd with rxq := t.port[m].pd.rxq, rxDone := t.port[m].pd.rxDone, eng := t.port[m].pd.eng, outbox := t.port[m].pd.outbox } ∧
      t.port[m].rs = { s.port[m].rs with step := t.port[m].rs.step }) ∧ (∀ m : PortId, m ≠ x1 → t.port[m] = s.port[m])) ∧
  (∀ (x1 : PortId) (x2 : SwapKind) (s : State), ∃ t, exec (.swapStart x1 x2) s = .next t ∧ t =
      { s with tt := t.tt, port := t.port } ∧ t.tt =
      { s.tt with entries := t.tt.entries, ledger := t.tt.ledger, news := t.tt.news, moved := t.tt.moved, dropped := t.tt.dropped } ∧
      (∀ m : PortId, t.port[m] = { s.port[m] with pd := t.port[m].pd, ct := t.port[m].ct, rs := t.port[m].rs } ∧
      t.port[m].pd = { s.port[m].pd with outbox := t.port[m].pd.outbox, reqSent := t.port[m].pd.reqSent } ∧
      t.port[m].ct = { s.port[m].ct with intended := t.port[m].ct.intended, stopFor := t.port[m].ct.stopFor, stopRetry := t.port[m].ct.stopRetry }) ∧
      (∀ m : PortId, m ≠ x1 → t.port[m] = s.port[m])) ∧
  (∀ (x1 : PortId) (s : State), ∃ t, exec (.roleGrant x1) s = .next t ∧ t =
      { s with tt := t.tt, port := t.port, host := t.host, ssn := t.ssn, resume := t.resume, seqTick := t.seqTick, bg := t.bg, store := t.store } ∧
      (∀ m : PortId, t.port[m] =
      { s.port[m] with pp := t.port[m].pp, pd := t.port[m].pd, ct := t.port[m].ct, rs := t.port[m].rs } ∧ t.port[m].rs =
      { s.port[m].rs with step := t.port[m].rs.step, stby := t.port[m].rs.stby, leaving := t.port[m].rs.leaving, entry := t.port[m].rs.entry, retry := t.port[m].rs.retry }) ∧
      (∀ h : Fin 5, t.host[h] =
      { s.host[h] with events := t.host[h].events, dropped := t.host[h].dropped, lost := t.host[h].lost }) ∧ t.bg =
      { s.bg with shedding := t.bg.shedding, shedQueue := t.bg.shedQueue }) ∧
  (∀ (x1 : PortId) (x2 : Nat) (s : State), ∃ t, exec (.vconnSourceReached x1 x2) s = .next t ∧ t =
      { s with port := t.port } ∧ (∀ m : PortId, t.port[m] = { s.port[m] with pd := t.port[m].pd, rs := t.port[m].rs } ∧
      t.port[m].pd = { s.port[m].pd with outbox := t.port[m].pd.outbox } ∧ t.port[m].rs =
      { s.port[m].rs with step := t.port[m].rs.step }) ∧ (∀ m : PortId, m ≠ x1 → t.port[m] = s.port[m])) ∧
  (∀ (x1 : PortId) (s : State), ∃ t, exec (.vconnSwapFail x1) s = .next t ∧ t = { s with port := t.port } ∧
      (∀ m : PortId, t.port[m] = { s.port[m] with pd := t.port[m].pd, rs := t.port[m].rs } ∧ t.port[m].pd =
      { s.port[m].pd with hrReq := t.port[m].pd.hrReq } ∧ t.port[m].rs =
      { s.port[m].rs with fail := t.port[m].rs.fail }) ∧ (∀ m : PortId, m ≠ x1 → t.port[m] = s.port[m])) ∧
  (∀ (x1 : PortId) (s : State), ∃ t, exec (.frsSignalEnd x1) s = .next t ∧ t = { s with port := t.port } ∧ (∀ m : PortId,
      t.port[m] = { s.port[m] with rs := t.port[m].rs } ∧ t.port[m].rs =
      { s.port[m].rs with step := t.port[m].rs.step }) ∧ (∀ m : PortId, m ≠ x1 → t.port[m] = s.port[m]))

/-- FramesOfThePorts, part 6 of 8. -/
def Sys2Proof.framesOfThePorts6 : Prop :=
  (∀ (x1 : PortId) (s : State), ∃ t, exec (.frSwapWait x1) s = .next t ∧ t = { s with tt := t.tt, port := t.port } ∧
      t.tt = { s.tt with entries := t.tt.entries, ledger := t.tt.ledger, news := t.tt.news, moved := t.tt.moved, dropped := t.tt.dropped } ∧
      (∀ m : PortId, t.port[m] = { s.port[m] with pd := t.port[m].pd, ct := t.port[m].ct, rs := t.port[m].rs } ∧
      t.port[m].pd = { s.port[m].pd with hrReq := t.port[m].pd.hrReq } ∧ t.port[m].ct =
      { s.port[m].ct with plan := t.port[m].ct.plan } ∧ t.port[m].rs =
      { s.port[m].rs with code := t.port[m].rs.code, step := t.port[m].rs.step, entry := t.port[m].rs.entry, kind := t.port[m].rs.kind }) ∧
      (∀ m : PortId, m ≠ x1 → t.port[m] = s.port[m])) ∧
  (∀ (x1 : PortId) (s : State), ∃ t, exec (.frsSignal x1) s = .next t ∧ t = { s with tt := t.tt, port := t.port } ∧
      t.tt = { s.tt with entries := t.tt.entries, ledger := t.tt.ledger, news := t.tt.news, moved := t.tt.moved, dropped := t.tt.dropped } ∧
      (∀ m : PortId, t.port[m] = { s.port[m] with pd := t.port[m].pd, rs := t.port[m].rs } ∧ t.port[m].pd =
      { s.port[m].pd with outbox := t.port[m].pd.outbox } ∧ t.port[m].rs =
      { s.port[m].rs with code := t.port[m].rs.code, step := t.port[m].rs.step, stby := t.port[m].rs.stby, leaving := t.port[m].rs.leaving, entry := t.port[m].rs.entry }) ∧
      (∀ m : PortId, m ≠ x1 → t.port[m] = s.port[m])) ∧
  (∀ (x1 : PortId) (s : State), ∃ t, exec (.frsNosig x1) s = .next t ∧ t = { s with port := t.port } ∧ (∀ m : PortId,
      t.port[m] = { s.port[m] with pd := t.port[m].pd, rs := t.port[m].rs } ∧ t.port[m].pd =
      { s.port[m].pd with hrReq := t.port[m].pd.hrReq } ∧ t.port[m].rs =
      { s.port[m].rs with nosig := t.port[m].rs.nosig }) ∧ (∀ m : PortId, m ≠ x1 → t.port[m] = s.port[m])) ∧
  (∀ (x1 : PortId) (s : State), ∃ t, exec (.discoveryStart x1) s = .next t ∧ t = { s with port := t.port } ∧
      (∀ m : PortId, t.port[m] = { s.port[m] with pd := t.port[m].pd, alt := t.port[m].alt } ∧ t.port[m].pd =
      { s.port[m].pd with outbox := t.port[m].pd.outbox } ∧ t.port[m].alt =
      { s.port[m].alt with noScript := t.port[m].alt.noScript, step := t.port[m].alt.step, partnerUsb4 := t.port[m].alt.partnerUsb4, tried := t.port[m].alt.tried, pins := t.port[m].alt.pins }) ∧
      (∀ m : PortId, m ≠ x1 → t.port[m] = s.port[m])) ∧
  (∀ (x1 : PortId) (s : State), ∃ t, exec (.vdmAck x1) s = .next t ∧ t =
      { s with port := t.port, host := t.host, active := t.active, ssn := t.ssn, resume := t.resume, seqTick := t.seqTick, store := t.store, points := t.points } ∧
      (∀ m : PortId, t.port[m] = { s.port[m] with tc := t.port[m].tc, pd := t.port[m].pd, alt := t.port[m].alt } ∧
      t.port[m].tc = { s.port[m].tc with rpOffer := t.port[m].tc.rpOffer, blank := t.port[m].tc.blank }) ∧ (∀ h : Fin 5,
      t.host[h] = { s.host[h] with held := t.host[h].held, events := t.host[h].events, reserved := t.host[h].reserved, dropped := t.host[h].dropped, lost := t.host[h].lost }) ∧
      t.points = { s.points with queue := t.points.queue } ∧ (∀ m : PortId, m ≠ x1 → t.port[m] = s.port[m])) ∧
  (∀ (x1 : PortId) (s : State), ∃ t, exec (.vdmTimeout x1) s = .next t ∧ t =
      { s with port := t.port, host := t.host, active := t.active, ssn := t.ssn, resume := t.resume, seqTick := t.seqTick, store := t.store, points := t.points } ∧
      (∀ m : PortId, t.port[m] = { s.port[m] with tc := t.port[m].tc, pd := t.port[m].pd, alt := t.port[m].alt } ∧
      t.port[m].tc = { s.port[m].tc with rpOffer := t.port[m].tc.rpOffer, blank := t.port[m].tc.blank } ∧ t.port[m].pd =
      { s.port[m].pd with outbox := t.port[m].pd.outbox, ams := t.port[m].pd.ams, sinkTxOk := t.port[m].pd.sinkTxOk, timers := t.port[m].pd.timers }) ∧
      (∀ h : Fin 5, t.host[h] =
      { s.host[h] with held := t.host[h].held, events := t.host[h].events, reserved := t.host[h].reserved, dropped := t.host[h].dropped, lost := t.host[h].lost }) ∧
      t.points = { s.points with queue := t.points.queue } ∧ (∀ m : PortId, m ≠ x1 → t.port[m] = s.port[m])) ∧
  (∀ (x1 : PortId) (s : State), ∃ t, exec (.attention x1) s = .next t ∧ t =
      { s with port := t.port, points := t.points } ∧ (∀ m : PortId, t.port[m] =
      { s.port[m] with pd := t.port[m].pd, alt := t.port[m].alt } ∧ t.port[m].pd =
      { s.port[m].pd with rxq := t.port[m].pd.rxq, rxDone := t.port[m].pd.rxDone, eng := t.port[m].pd.eng, outbox := t.port[m].pd.outbox } ∧
      t.port[m].alt = { s.port[m].alt with hpd := t.port[m].alt.hpd, detPend := t.port[m].alt.detPend, exitDue := t.port[m].alt.exitDue, askStatus := t.port[m].alt.askStatus }) ∧
      t.points = { s.points with queue := t.points.queue } ∧ (∀ m : PortId, m ≠ x1 → t.port[m] = s.port[m])) ∧
  (∀ (s : State), ∃ t, exec (.scriptStart) s = .next t ∧ t = { s with port := t.port, points := t.points } ∧
      (∀ m : PortId, t.port[m] = { s.port[m] with pd := t.port[m].pd, alt := t.port[m].alt } ∧ t.port[m].pd =
      { s.port[m].pd with outbox := t.port[m].pd.outbox } ∧ t.port[m].alt =
      { s.port[m].alt with lastEvt := t.port[m].alt.lastEvt, step := t.port[m].alt.step }) ∧ t.points =
      { s.points with queue := t.points.queue, running := t.points.running, delay := t.points.delay }) ∧
  (∀ (s : State), ∃ t, exec (.scriptDelay) s = .next t ∧ t = { s with port := t.port, points := t.points } ∧
      (∀ m : PortId, t.port[m] = { s.port[m] with pd := t.port[m].pd, alt := t.port[m].alt } ∧ t.port[m].pd =
      { s.port[m].pd with outbox := t.port[m].pd.outbox } ∧ t.port[m].alt =
      { s.port[m].alt with step := t.port[m].alt.step }) ∧ t.points =
      { s.points with queue := t.points.queue, running := t.points.running, delay := t.points.delay }) ∧
  (∀ (x1 : PortId) (s : State), ∃ t, exec (.eprKeepalive x1) s = .next t ∧ t = { s with port := t.port } ∧ (∀ m : PortId,
      t.port[m] = { s.port[m] with pd := t.port[m].pd } ∧ t.port[m].pd =
      { s.port[m].pd with rxq := t.port[m].pd.rxq, rxDone := t.port[m].pd.rxDone, eng := t.port[m].pd.eng, outbox := t.port[m].pd.outbox, timers := t.port[m].pd.timers }) ∧
      (∀ m : PortId, m ≠ x1 → t.port[m] = s.port[m]))

/-- FramesOfThePorts, part 7 of 8. -/
def Sys2Proof.framesOfThePorts7 : Prop :=
  (∀ (x1 : PortId) (s : State), ∃ t, exec (.notSupportedRequest x1) s = .next t ∧ t = { s with port := t.port } ∧
      (∀ m : PortId, t.port[m] = { s.port[m] with pd := t.port[m].pd } ∧ t.port[m].pd =
      { s.port[m].pd with rxq := t.port[m].pd.rxq, rxDone := t.port[m].pd.rxDone, eng := t.port[m].pd.eng, outbox := t.port[m].pd.outbox }) ∧
      (∀ m : PortId, m ≠ x1 → t.port[m] = s.port[m])) ∧
  (∀ (x1 : PortId) (s : State), ∃ t, exec (.getCapabilities x1) s = .next t ∧ t =
      { s with port := t.port, core := t.core, bg := t.bg } ∧ (∀ m : PortId, t.port[m] =
      { s.port[m] with pd := t.port[m].pd, ct := t.port[m].ct } ∧ t.port[m].ct =
      { s.port[m].ct with offer := t.port[m].ct.offer }) ∧ (∀ c : CoreId, t.core[c] =
      { s.core[c] with fw := t.core[c].fw, kn := t.core[c].kn, slot := t.core[c].slot }) ∧ t.bg =
      { s.bg with policy := t.bg.policy } ∧ (∀ m : PortId, m ≠ x1 → t.port[m] = s.port[m])) ∧
  (∀ (x1 : PortId) (s : State), ∃ t, exec (.discoverIdentityUfp x1) s = .next t ∧ t = { s with port := t.port } ∧
      (∀ m : PortId, t.port[m] = { s.port[m] with pd := t.port[m].pd } ∧ t.port[m].pd =
      { s.port[m].pd with rxq := t.port[m].pd.rxq, rxDone := t.port[m].pd.rxDone, eng := t.port[m].pd.eng, outbox := t.port[m].pd.outbox }) ∧
      (∀ m : PortId, m ≠ x1 → t.port[m] = s.port[m])) ∧
  (∀ (x1 : PortId) (s : State), ∃ t, exec (.transmitRequest x1) s = .next t ∧ t = { s with port := t.port } ∧
      (∀ m : PortId, t.port[m] = { s.port[m] with pd := t.port[m].pd } ∧ t.port[m].pd =
      { s.port[m].pd with ctx := t.port[m].pd.ctx, outbox := t.port[m].pd.outbox })) ∧
  (∀ (x1 : PortId) (s : State), ∃ t, exec (.lineIdle x1) s = .next t ∧ t = { s with port := t.port } ∧ (∀ m : PortId,
      t.port[m] = { s.port[m] with tc := t.port[m].tc, pd := t.port[m].pd, ct := t.port[m].ct } ∧ t.port[m].tc =
      { s.port[m].tc with rpOffer := t.port[m].tc.rpOffer, blank := t.port[m].tc.blank } ∧ t.port[m].pd =
      { s.port[m].pd with ctx := t.port[m].pd.ctx, ams := t.port[m].pd.ams, sinkTxOk := t.port[m].pd.sinkTxOk, cable := t.port[m].pd.cable, timers := t.port[m].pd.timers } ∧
      t.port[m].ct = { s.port[m].ct with rdyOut := t.port[m].ct.rdyOut }) ∧ (∀ m : PortId, m ≠ x1 → t.port[m] =
      s.port[m])) ∧
  (∀ (x1 : PortId) (s : State), ∃ t, exec (.tsinktx x1) s = .next t ∧ t = { s with port := t.port } ∧ (∀ m : PortId,
      t.port[m] = { s.port[m] with pd := t.port[m].pd, ct := t.port[m].ct } ∧ t.port[m].pd =
      { s.port[m].pd with ctx := t.port[m].pd.ctx, ams := t.port[m].pd.ams, cable := t.port[m].pd.cable, timers := t.port[m].pd.timers } ∧
      t.port[m].ct = { s.port[m].ct with rdyOut := t.port[m].ct.rdyOut }) ∧ (∀ m : PortId, m ≠ x1 → t.port[m] =
      s.port[m])) ∧
  (∀ (x1 : PortId) (x2 : Nat) (s : State), ∃ t, exec (.sinktxokSample x1 x2) s = .next t ∧ t =
      { s with port := t.port } ∧ (∀ m : PortId, t.port[m] =
      { s.port[m] with tc := t.port[m].tc, pd := t.port[m].pd, ct := t.port[m].ct } ∧ t.port[m].tc =
      { s.port[m].tc with blank := t.port[m].tc.blank } ∧ t.port[m].pd =
      { s.port[m].pd with ctx := t.port[m].pd.ctx, ams := t.port[m].pd.ams, cable := t.port[m].pd.cable, timers := t.port[m].pd.timers } ∧
      t.port[m].ct = { s.port[m].ct with rdyOut := t.port[m].ct.rdyOut }) ∧ (∀ m : PortId, m ≠ x1 → t.port[m] =
      s.port[m])) ∧
  (∀ (x1 : PortId) (s : State), ∃ t, exec (.eprKeepaliveSend x1) s = .next t ∧ t = { s with port := t.port } ∧
      (∀ m : PortId, t.port[m] = { s.port[m] with pd := t.port[m].pd } ∧ t.port[m].pd =
      { s.port[m].pd with outbox := t.port[m].pd.outbox }) ∧ (∀ m : PortId, m ≠ x1 → t.port[m] = s.port[m])) ∧
  (∀ (x1 : PortId) (s : State), ∃ t, exec (.getSinkCapSend x1) s = .next t ∧ t = { s with port := t.port } ∧
      (∀ m : PortId, t.port[m] = { s.port[m] with pd := t.port[m].pd } ∧ t.port[m].pd =
      { s.port[m].pd with outbox := t.port[m].pd.outbox, sentGetSink := t.port[m].pd.sentGetSink }) ∧ (∀ m : PortId, m ≠
      x1 → t.port[m] = s.port[m])) ∧
  (∀ (x1 : PortId) (s : State), ∃ t, exec (.discoverIdentityCable x1) s = .next t ∧ t = { s with port := t.port } ∧
      (∀ m : PortId, t.port[m] = { s.port[m] with pd := t.port[m].pd } ∧ t.port[m].pd =
      { s.port[m].pd with outbox := t.port[m].pd.outbox, eprEntry := t.port[m].pd.eprEntry }) ∧ (∀ m : PortId, m ≠ x1 →
      t.port[m] = s.port[m]))

/-- FramesOfThePorts, part 8 of 8. -/
def Sys2Proof.framesOfThePorts8 : Prop :=
  (∀ (x1 : PortId) (s : State), ∃ t, exec (.tpshardreset x1) s = .next t ∧ t = { s with port := t.port } ∧ (∀ m : PortId,
      t.port[m] = { s.port[m] with tc := t.port[m].tc, pp := t.port[m].pp, pd := t.port[m].pd, rs := t.port[m].rs, ms := t.port[m].ms } ∧
      t.port[m].tc = { s.port[m].tc with vconnOn := t.port[m].tc.vconnOn, vconnWait := t.port[m].tc.vconnWait } ∧
      t.port[m].pd = { s.port[m].pd with outbox := t.port[m].pd.outbox, eprEntry := t.port[m].pd.eprEntry, timers := t.port[m].pd.timers } ∧
      t.port[m].rs = { s.port[m].rs with vc := t.port[m].rs.vc, baseVc := t.port[m].rs.baseVc } ∧ t.port[m].ms =
      { s.port[m].ms with trace := t.port[m].ms.trace })) ∧
  (∀ (x1 : PortId) (s : State), ∃ t, exec (.tsrcrecover x1) s = .next t ∧ t =
      { s with tt := t.tt, port := t.port, points := t.points } ∧ t.tt =
      { s.tt with entries := t.tt.entries, ledger := t.tt.ledger, news := t.tt.news, moved := t.tt.moved, dropped := t.tt.dropped } ∧
      (∀ m : PortId, t.port[m] =
      { s.port[m] with tc := t.port[m].tc, pp := t.port[m].pp, pd := t.port[m].pd, alt := t.port[m].alt } ∧
      t.port[m].tc = { s.port[m].tc with pathRetry := t.port[m].tc.pathRetry } ∧ t.port[m].pp =
      { s.port[m].pp with code := t.port[m].pp.code, lim := t.port[m].pp.lim } ∧ t.port[m].pd =
      { s.port[m].pd with hrPend := t.port[m].pd.hrPend, timers := t.port[m].pd.timers } ∧ t.port[m].alt =
      { s.port[m].alt with detPend := t.port[m].alt.detPend, exitDue := t.port[m].alt.exitDue }) ∧ t.points =
      { s.points with queue := t.points.queue } ∧ (∀ m : PortId, m ≠ x1 → t.port[m] = s.port[m])) ∧
  (∀ (x1 : PortId) (x2 : Nat) (s : State), ∃ t, exec (.vbusPresent x1 x2) s = .next t ∧ t =
      { s with tt := t.tt, port := t.port, host := t.host, ssn := t.ssn, resume := t.resume, seqTick := t.seqTick, store := t.store, points := t.points } ∧
      t.tt = { s.tt with entries := t.tt.entries, ledger := t.tt.ledger, news := t.tt.news, moved := t.tt.moved, dropped := t.tt.dropped } ∧
      (∀ m : PortId, t.port[m] =
      { s.port[m] with tc := t.port[m].tc, pp := t.port[m].pp, pd := t.port[m].pd, ct := t.port[m].ct, rs := t.port[m].rs, alt := t.port[m].alt, ms := t.port[m].ms } ∧
      t.port[m].ct = { s.port[m].ct with kind := t.port[m].ct.kind, mv := t.port[m].ct.mv, i10 := t.port[m].ct.i10, imax := t.port[m].ct.imax } ∧
      t.port[m].ms = { s.port[m].ms with attaches := t.port[m].ms.attaches }) ∧ (∀ h : Fin 5, t.host[h] =
      { s.host[h] with events := t.host[h].events, dropped := t.host[h].dropped, lost := t.host[h].lost }) ∧ t.points =
      { s.points with queue := t.points.queue } ∧ (∀ m : PortId, m ≠ x1 → t.port[m] = s.port[m])) ∧
  (∀ (x1 : PortId) (x2 : Nat) (s : State), ∃ t, exec (.dischargeEnd x1 x2) s = .next t ∧ t =
      { s with port := t.port, trips := t.trips, host := t.host, ssn := t.ssn, resume := t.resume, seqTick := t.seqTick, store := t.store } ∧
      (∀ m : PortId, t.port[m] =
      { s.port[m] with tc := t.port[m].tc, pp := t.port[m].pp, pd := t.port[m].pd, rs := t.port[m].rs, ms := t.port[m].ms } ∧
      t.port[m].tc = { s.port[m].tc with rpOffer := t.port[m].tc.rpOffer, blank := t.port[m].tc.blank } ∧ t.port[m].pd =
      { s.port[m].pd with outbox := t.port[m].pd.outbox, timers := t.port[m].pd.timers } ∧ t.port[m].rs =
      { s.port[m].rs with step := t.port[m].rs.step } ∧ t.port[m].ms =
      { s.port[m].ms with trace := t.port[m].ms.trace }) ∧ (∀ h : Fin 5, t.host[h] =
      { s.host[h] with events := t.host[h].events, dropped := t.host[h].dropped, lost := t.host[h].lost })) ∧
  (∀ (x1 : PortId) (s : State), ∃ t, exec (.cableReset x1) s = .next t ∧ t = { s with port := t.port } ∧ (∀ m : PortId,
      t.port[m] = { s.port[m] with pd := t.port[m].pd } ∧ t.port[m].pd = { s.port[m].pd with ctx := t.port[m].pd.ctx }) ∧
      (∀ m : PortId, m ≠ x1 → t.port[m] = s.port[m])) ∧
  (∀ (x1 : PortId) (s : State), ∃ t, exec (.swapAnswer x1) s = .next t ∧ t =
      { s with port := t.port, host := t.host, active := t.active, ssn := t.ssn, resume := t.resume, seqTick := t.seqTick, store := t.store, points := t.points } ∧
      (∀ m : PortId, t.port[m] =
      { s.port[m] with tc := t.port[m].tc, pd := t.port[m].pd, rs := t.port[m].rs, alt := t.port[m].alt, ms := t.port[m].ms } ∧
      t.port[m].tc = { s.port[m].tc with rpOffer := t.port[m].tc.rpOffer, blank := t.port[m].tc.blank } ∧ t.port[m].ms =
      { s.port[m].ms with swaps := t.port[m].ms.swaps }) ∧ (∀ h : Fin 5, t.host[h] =
      { s.host[h] with held := t.host[h].held, events := t.host[h].events, reserved := t.host[h].reserved, dropped := t.host[h].dropped, lost := t.host[h].lost }) ∧
      t.points = { s.points with queue := t.points.queue } ∧ (∀ m : PortId, m ≠ x1 → t.port[m] = s.port[m]))

/-- Each of these commands answers a next state, in every state, and leaves every field of the state alone but those the
equation names: portOpen, converterPowerGood, ccDetect, comparatorBlankEnd, sinkThresholdStep, rpLevelChange, tSrcEnd,
tccdebounce, ttryccdebounce, tpddebounce, tdrptry, ttrytimeout, vbusSafe0v, terrorrecovery, pathBookingRetry, vconnOc,
pathGrant, setGrant, closingDone, retryExpiry, ftCodeTakeover, vconnPresentChange, trimSet, calGrant, trimLoop,
capabilitiesSend, offerRiseCaps, request, eprModeEnter, rampGrant, transitionCheck, convFail, shedTimeout,
dischargeAssistEnd, thermalLimitRemove, sourceCapabilities, sinkGrant, sinkStopRetry, sinkPartialRebook, regenStop,
regenRebook, prSwap, drSwap, vconnSwap, frSwap, swapStart, roleGrant, vconnSourceReached, vconnSwapFail, frsSignalEnd,
frSwapWait, frsSignal, frsNosig, discoveryStart, vdmAck, vdmTimeout, attention, scriptStart, scriptDelay. Each of these
commands answers a next state, in every state, and leaves every field of the state alone but those the equation names:
eprKeepalive, notSupportedRequest, getCapabilities, discoverIdentityUfp, transmitRequest, lineIdle, tsinktx,
sinktxokSample, eprKeepaliveSend, getSinkCapSend, discoverIdentityCable, tpshardreset, tsrcrecover, vbusPresent,
dischargeEnd, cableReset, swapAnswer. -/
def Obligations.FramesOfThePorts : Prop :=
  framesOfThePorts1 ∧ framesOfThePorts2 ∧ framesOfThePorts3 ∧ framesOfThePorts4 ∧ framesOfThePorts5 ∧ framesOfThePorts6 ∧ framesOfThePorts7 ∧ framesOfThePorts8

/-- FramesOfTheStore, part 1 of 7. -/
def Sys2Proof.framesOfTheStore1 : Prop :=
  (∀ (x1 : HkScan) (s : State), ∃ t, exec (.housekeepingScan x1) s = .next t ∧ t =
      { s with hk := t.hk, health := t.health } ∧ t.health =
      { s.health with tHv := t.health.tHv, tLogic := t.health.tLogic }) ∧
  (∀ (x1 : PlatId) (x2 : Fin 8) (s : State), ∃ t, exec (.sketchComplete x1 x2) s = .next t ∧ t =
      { s with plat := t.plat } ∧ (∀ k : PlatId, t.plat[k] = { s.plat[k] with slots := t.plat[k].slots })) ∧
  (∀ (x1 : PortId) (s : State), ∃ t, exec (.frameAssembly x1) s = .next t ∧ t =
      { s with port := t.port, net := t.net, fresh := t.fresh } ∧ (∀ m : PortId, t.port[m] =
      { s.port[m] with ms := t.port[m].ms } ∧ t.port[m].ms = { s.port[m].ms with trace := t.port[m].ms.trace }) ∧ t.net =
      { s.net with lost := t.net.lost, traces := t.net.traces } ∧ (∀ m : PortId, m ≠ x1 → t.port[m] = s.port[m])) ∧
  (∀ (s : State), ∃ t, exec (.linkUp) s = .next t ∧ t = { s with net := t.net } ∧ t.net =
      { s.net with link := t.net.link, lock := t.net.lock }) ∧
  (∀ (s : State), ∃ t, exec (.linkDown) s = .next t ∧ t = { s with port := t.port, net := t.net, fresh := t.fresh } ∧
      (∀ m : PortId, t.port[m] = { s.port[m] with ms := t.port[m].ms } ∧ t.port[m].ms =
      { s.port[m].ms with trace := t.port[m].ms.trace }) ∧ t.net =
      { s.net with link := t.net.link, lock := t.net.lock, lost := t.net.lost, traces := t.net.traces, sending := t.net.sending }) ∧
  (∀ (x1 : BitVec 48) (x2 : BitVec 32) (x3 : BitVec 32) (s : State), ∃ t, exec (.arpRequest x1 x2 x3) s = .next t ∧ t =
      { s with net := t.net } ∧ t.net = { s.net with urgent := t.net.urgent }) ∧
  (∀ (s : State), ∃ t, exec (.uncorrectableRecall) s = .next t ∧ t =
      { s with host := t.host, ssn := t.ssn, resume := t.resume, seqTick := t.seqTick, store := t.store } ∧ (∀ h : Fin 5,
      t.host[h] = { s.host[h] with events := t.host[h].events, dropped := t.host[h].dropped, lost := t.host[h].lost })) ∧
  (∀ (x1 : List (Fin 33)) (x2 : List (Fin 33)) (s : State), ∃ t, exec (.scrubPage x1 x2) s = .next t ∧ t =
      { s with sup := t.sup, host := t.host, active := t.active, ssn := t.ssn, resume := t.resume, seqTick := t.seqTick, store := t.store, health := t.health } ∧
      t.sup = { s.sup with replaceReq := t.sup.replaceReq } ∧ (∀ h : Fin 5, t.host[h] =
      { s.host[h] with held := t.host[h].held, events := t.host[h].events, reserved := t.host[h].reserved, dropped := t.host[h].dropped, lost := t.host[h].lost }) ∧
      t.health = { s.health with active := t.health.active }) ∧
  (∀ (s : State), ∃ t, exec (.scrubDue) s = .next t ∧ t = { s with store := t.store, health := t.health } ∧ t.store =
      { s.store with scrub := t.store.scrub } ∧ t.health = { s.health with sinceScrub := t.health.sinceScrub }) ∧
  (∀ (s : State), ∃ t, exec (.hourlySave) s = .next t ∧ t = { s with sup := t.sup, store := t.store } ∧ t.sup =
      { s.sup with retainedKept := t.sup.retainedKept } ∧ t.store =
      { s.store with queue := t.store.queue, ringAt := t.store.ringAt, saving := t.store.saving, saveAgain := t.store.saveAgain, ssnLatch := t.store.ssnLatch })

/-- FramesOfTheStore, part 2 of 7. -/
def Sys2Proof.framesOfTheStore2 : Prop :=
  (∀ (s : State), ∃ t, exec (.ssnSave) s = .next t ∧ t = { s with sup := t.sup, store := t.store } ∧ t.sup =
      { s.sup with retainedKept := t.sup.retainedKept } ∧ t.store =
      { s.store with queue := t.store.queue, ringAt := t.store.ringAt, saving := t.store.saving, saveAgain := t.store.saveAgain, ssnLatch := t.store.ssnLatch }) ∧
  (∀ (s : State), ∃ t, exec (.verifyDone) s = .next t ∧ t =
      { s with host := t.host, active := t.active, ssn := t.ssn, resume := t.resume, seqTick := t.seqTick, bankA := t.bankA, bankB := t.bankB, verify := t.verify } ∧
      (∀ h : Fin 5, t.host[h] =
      { s.host[h] with held := t.host[h].held, events := t.host[h].events, reserved := t.host[h].reserved }) ∧ t.bankA =
      { s.bankA with st := t.bankA.st } ∧ t.bankB = { s.bankB with st := t.bankB.st }) ∧
  (∀ (s : State), ∃ t, exec (.rollbackAdvanceDone) s = .next t ∧ t =
      { s with fuse := t.fuse, host := t.host, active := t.active, ssn := t.ssn, resume := t.resume, seqTick := t.seqTick, advance := t.advance } ∧
      t.fuse = { s.fuse with arb := t.fuse.arb } ∧ (∀ h : Fin 5, t.host[h] =
      { s.host[h] with held := t.host[h].held, events := t.host[h].events, reserved := t.host[h].reserved })) ∧
  (∀ (x1 : TwBus) (x2 : List Byte) (x3 : TwEnd) (s : State), ∃ t, exec (.twoWireWrite x1 x2 x3) s = .next t ∧ t =
      { s with tw := t.tw, points := t.points } ∧ (∀ w : Fin 3, t.tw[w] =
      { s.tw[w] with ptr := t.tw[w].ptr, winsel := t.tw[w].winsel, tmo := t.tw[w].tmo, pecErr := t.tw[w].pecErr, cmdErr := t.tw[w].cmdErr, cmdFree := t.tw[w].cmdFree, cmdLen := t.tw[w].cmdLen, alrtEvt := t.tw[w].alrtEvt, alrtRpl := t.tw[w].alrtRpl, ara := t.tw[w].ara, rplDone := t.tw[w].rplDone, evtDone := t.tw[w].evtDone, send := t.tw[w].send, buf := t.tw[w].buf, pre := t.tw[w].pre, free := t.tw[w].free }) ∧
      t.points = { s.points with busFree := t.points.busFree }) ∧
  (∀ (x1 : TwBus) (x2 : Nat) (s : State), ∃ t, exec (.twoWireRead x1 x2) s = .next t ∧ t =
      { s with tw := t.tw, points := t.points } ∧ (∀ w : Fin 3, t.tw[w] =
      { s.tw[w] with ptr := t.tw[w].ptr, ara := t.tw[w].ara, pre := t.tw[w].pre, out := t.tw[w].out, free := t.tw[w].free }) ∧
      t.points = { s.points with busFree := t.points.busFree }) ∧
  (∀ (x1 : TwBus) (x2 : Bool) (s : State), ∃ t, exec (.alertResponse x1 x2) s = .next t ∧ t =
      { s with tw := t.tw, points := t.points } ∧ (∀ w : Fin 3, t.tw[w] =
      { s.tw[w] with ara := t.tw[w].ara, out := t.tw[w].out, free := t.tw[w].free }) ∧ t.points =
      { s.points with busFree := t.points.busFree }) ∧
  (∀ (x1 : TwBus) (s : State), ∃ t, exec (.twoWireTimeout x1) s = .next t ∧ t =
      { s with tw := t.tw, points := t.points } ∧ (∀ w : Fin 3, t.tw[w] =
      { s.tw[w] with tmo := t.tw[w].tmo, pre := t.tw[w].pre, free := t.tw[w].free }) ∧ t.points =
      { s.points with busFree := t.points.busFree }) ∧
  (∀ (x1 : TwBus) (s : State), ∃ t, exec (.busFree x1) s = .next t ∧ t = { s with tw := t.tw, points := t.points } ∧
      (∀ w : Fin 3, t.tw[w] =
      { s.tw[w] with cfg := t.tw[w].cfg, tim := t.tw[w].tim, ptr := t.tw[w].ptr, winsel := t.tw[w].winsel, pre := t.tw[w].pre, free := t.tw[w].free, due := t.tw[w].due }) ∧
      t.points = { s.points with busFree := t.points.busFree, sclStuck := t.points.sclStuck }) ∧
  (∀ (x1 : TwBus) (s : State), ∃ t, exec (.rplDone x1) s = .next t ∧ t =
      { s with host := t.host, tw := t.tw, net := t.net } ∧ (∀ h : Fin 5, t.host[h] =
      { s.host[h] with replies := t.host[h].replies }) ∧ (∀ w : Fin 3, t.tw[w] =
      { s.tw[w] with rplDone := t.tw[w].rplDone }) ∧ t.net =
      { s.net with cport := t.net.cport, cportAfter := t.net.cportAfter }) ∧
  (∀ (x1 : TwBus) (s : State), ∃ t, exec (.evtDone x1) s = .next t ∧ t = { s with host := t.host, tw := t.tw } ∧
      (∀ h : Fin 5, t.host[h] = { s.host[h] with events := t.host[h].events }) ∧ (∀ w : Fin 3, t.tw[w] =
      { s.tw[w] with evtDone := t.tw[w].evtDone }))

/-- FramesOfTheStore, part 3 of 7. -/
def Sys2Proof.framesOfTheStore3 : Prop :=
  (∀ (x1 : TwBus) (s : State), ∃ t, exec (.send x1) s = .next t ∧ t =
      { s with host := t.host, tw := t.tw, net := t.net, inbox := t.inbox } ∧ (∀ h : Fin 5, t.host[h] =
      { s.host[h] with held := t.host[h].held, replies := t.host[h].replies }) ∧ (∀ w : Fin 3, t.tw[w] =
      { s.tw[w] with cmdFree := t.tw[w].cmdFree, send := t.tw[w].send }) ∧ t.net =
      { s.net with urgent := t.net.urgent, origin := t.net.origin }) ∧
  (∀ (s : State), ∃ t, exec (.status) s = .next t ∧ t = { s with loc := t.loc }) ∧
  (∀ (x1 : List Byte) (x2 : Bool) (s : State), ∃ t, exec (.localSend x1 x2) s = .next t ∧ t =
      { s with host := t.host, loc := t.loc, net := t.net, inbox := t.inbox } ∧ (∀ h : Fin 5, t.host[h] =
      { s.host[h] with held := t.host[h].held, replies := t.host[h].replies }) ∧ t.net =
      { s.net with urgent := t.net.urgent, origin := t.net.origin }) ∧
  (∀ (x1 : Nat) (s : State), ∃ t, exec (.readReply x1) s = .next t ∧ t =
      { s with host := t.host, loc := t.loc, net := t.net } ∧ (∀ h : Fin 5, t.host[h] =
      { s.host[h] with replies := t.host[h].replies }) ∧ t.net =
      { s.net with cport := t.net.cport, cportAfter := t.net.cportAfter }) ∧
  (∀ (x1 : Nat) (s : State), ∃ t, exec (.readEvent x1) s = .next t ∧ t = { s with host := t.host, loc := t.loc } ∧
      (∀ h : Fin 5, t.host[h] = { s.host[h] with events := t.host[h].events })) ∧
  (∀ (x1 : NetFrame) (s : State), ∃ t, exec (.netFrame x1) s = .next t ∧ t =
      { s with host := t.host, net := t.net, inbox := t.inbox } ∧ (∀ h : Fin 5, t.host[h] =
      { s.host[h] with held := t.host[h].held, replies := t.host[h].replies }) ∧ t.net =
      { s.net with urgent := t.net.urgent, origin := t.net.origin }) ∧
  (∀ (x1 : HostPort) (s : State), ∃ t, exec (.overflow x1) s = .next t ∧ t =
      { s with host := t.host, ssn := t.ssn, resume := t.resume, seqTick := t.seqTick } ∧ (∀ h : Fin 5, t.host[h] =
      { s.host[h] with events := t.host[h].events, lost := t.host[h].lost })) ∧
  (∀ (x1 : PlatId) (s : State), ∃ t, exec (.filterInvocation x1) s = .next t ∧ t = { s with core := t.core } ∧
      (∀ c : CoreId, t.core[c] = { s.core[c] with fw := t.core[c].fw, kn := t.core[c].kn, slot := t.core[c].slot })) ∧
  (∀ (x1 : Packet) (s : State), ∃ t, exec (.identity x1) s = .next t ∧ t =
      { s with host := t.host, net := t.net, inbox := t.inbox, waiting := t.waiting } ∧ (∀ h : Fin 5, t.host[h] =
      { s.host[h] with held := t.host[h].held, replies := t.host[h].replies }) ∧ t.net =
      { s.net with urgent := t.net.urgent, origin := t.net.origin }) ∧
  (∀ (x1 : Byte) (x2 : Packet) (s : State), ∃ t, exec (.readRegs x1 x2) s = .next t ∧ t =
      { s with host := t.host, net := t.net, inbox := t.inbox, waiting := t.waiting } ∧ (∀ h : Fin 5, t.host[h] =
      { s.host[h] with held := t.host[h].held, replies := t.host[h].replies }) ∧ t.net =
      { s.net with urgent := t.net.urgent, origin := t.net.origin })

/-- FramesOfTheStore, part 4 of 7. -/
def Sys2Proof.framesOfTheStore4 : Prop :=
  (∀ (x1 : Packet) (s : State), ∃ t, exec (.readTime x1) s = .next t ∧ t =
      { s with host := t.host, net := t.net, inbox := t.inbox, waiting := t.waiting } ∧ (∀ h : Fin 5, t.host[h] =
      { s.host[h] with held := t.host[h].held, replies := t.host[h].replies }) ∧ t.net =
      { s.net with urgent := t.net.urgent, origin := t.net.origin }) ∧
  (∀ (x1 : Packet) (s : State), ∃ t, exec (.readChannel x1) s = .next t ∧ t =
      { s with host := t.host, net := t.net, inbox := t.inbox, waiting := t.waiting } ∧ (∀ h : Fin 5, t.host[h] =
      { s.host[h] with held := t.host[h].held, replies := t.host[h].replies }) ∧ t.net =
      { s.net with urgent := t.net.urgent, origin := t.net.origin }) ∧
  (∀ (x1 : Packet) (s : State), ∃ t, exec (.readEntries x1) s = .next t ∧ t =
      { s with host := t.host, net := t.net, inbox := t.inbox, waiting := t.waiting } ∧ (∀ h : Fin 5, t.host[h] =
      { s.host[h] with held := t.host[h].held, replies := t.host[h].replies }) ∧ t.net =
      { s.net with urgent := t.net.urgent, origin := t.net.origin }) ∧
  (∀ (x1 : Packet) (s : State), ∃ t, exec (.storeInfo x1) s = .next t ∧ t =
      { s with host := t.host, net := t.net, inbox := t.inbox, waiting := t.waiting } ∧ (∀ h : Fin 5, t.host[h] =
      { s.host[h] with held := t.host[h].held, replies := t.host[h].replies }) ∧ t.net =
      { s.net with urgent := t.net.urgent, origin := t.net.origin }) ∧
  (∀ (x1 : Packet) (s : State), ∃ t, exec (.paletteRead x1) s = .next t ∧ t =
      { s with host := t.host, net := t.net, inbox := t.inbox, waiting := t.waiting } ∧ (∀ h : Fin 5, t.host[h] =
      { s.host[h] with held := t.host[h].held, replies := t.host[h].replies }) ∧ t.net =
      { s.net with urgent := t.net.urgent, origin := t.net.origin }) ∧
  (∀ (x1 : Packet) (s : State), ∃ t, exec (.userRead x1) s = .next t ∧ t =
      { s with host := t.host, net := t.net, inbox := t.inbox, waiting := t.waiting, store := t.store } ∧ (∀ h : Fin 5,
      t.host[h] = { s.host[h] with held := t.host[h].held, replies := t.host[h].replies }) ∧ t.net =
      { s.net with urgent := t.net.urgent, origin := t.net.origin } ∧ t.store = { s.store with fixes := t.store.fixes }) ∧
  (∀ (x1 : Packet) (s : State), ∃ t, exec (.healthStatus x1) s = .next t ∧ t =
      { s with host := t.host, net := t.net, inbox := t.inbox, waiting := t.waiting } ∧ (∀ h : Fin 5, t.host[h] =
      { s.host[h] with held := t.host[h].held, replies := t.host[h].replies }) ∧ t.net =
      { s.net with urgent := t.net.urgent, origin := t.net.origin }) ∧
  (∀ (x1 : Packet) (s : State), ∃ t, exec (.logRead x1) s = .next t ∧ t =
      { s with host := t.host, net := t.net, inbox := t.inbox, waiting := t.waiting, store := t.store } ∧ (∀ h : Fin 5,
      t.host[h] = { s.host[h] with held := t.host[h].held, replies := t.host[h].replies }) ∧ t.net =
      { s.net with urgent := t.net.urgent, origin := t.net.origin } ∧ t.store = { s.store with fixes := t.store.fixes }) ∧
  (∀ (x1 : Packet) (s : State), ∃ t, exec (.odometerRead x1) s = .next t ∧ t =
      { s with host := t.host, net := t.net, inbox := t.inbox, waiting := t.waiting } ∧ (∀ h : Fin 5, t.host[h] =
      { s.host[h] with held := t.host[h].held, replies := t.host[h].replies }) ∧ t.net =
      { s.net with urgent := t.net.urgent, origin := t.net.origin }) ∧
  (∀ (x1 : Packet) (s : State), ∃ t, exec (.energySnapshot x1) s = .next t ∧ t =
      { s with host := t.host, net := t.net, inbox := t.inbox, waiting := t.waiting } ∧ (∀ h : Fin 5, t.host[h] =
      { s.host[h] with held := t.host[h].held, replies := t.host[h].replies }) ∧ t.net =
      { s.net with urgent := t.net.urgent, origin := t.net.origin })

/-- FramesOfTheStore, part 5 of 7. -/
def Sys2Proof.framesOfTheStore5 : Prop :=
  (∀ (x1 : Packet) (s : State), ∃ t, exec (.hkRead x1) s = .next t ∧ t =
      { s with host := t.host, net := t.net, inbox := t.inbox, waiting := t.waiting } ∧ (∀ h : Fin 5, t.host[h] =
      { s.host[h] with held := t.host[h].held, replies := t.host[h].replies }) ∧ t.net =
      { s.net with urgent := t.net.urgent, origin := t.net.origin }) ∧
  (∀ (x1 : Packet) (s : State), ∃ t, exec (.sketchList x1) s = .next t ∧ t =
      { s with host := t.host, net := t.net, inbox := t.inbox, waiting := t.waiting } ∧ (∀ h : Fin 5, t.host[h] =
      { s.host[h] with held := t.host[h].held, replies := t.host[h].replies }) ∧ t.net =
      { s.net with urgent := t.net.urgent, origin := t.net.origin }) ∧
  (∀ (x1 : Packet) (s : State), ∃ t, exec (.sketchRead x1) s = .next t ∧ t =
      { s with host := t.host, net := t.net, inbox := t.inbox, waiting := t.waiting } ∧ (∀ h : Fin 5, t.host[h] =
      { s.host[h] with held := t.host[h].held, replies := t.host[h].replies }) ∧ t.net =
      { s.net with urgent := t.net.urgent, origin := t.net.origin }) ∧
  (∀ (x1 : Packet) (s : State), ∃ t, exec (.kernelList x1) s = .next t ∧ t =
      { s with host := t.host, net := t.net, inbox := t.inbox, waiting := t.waiting } ∧ (∀ h : Fin 5, t.host[h] =
      { s.host[h] with held := t.host[h].held, replies := t.host[h].replies }) ∧ t.net =
      { s.net with urgent := t.net.urgent, origin := t.net.origin }) ∧
  (∀ (x1 : Packet) (s : State), ∃ t, exec (.imageInfo x1) s = .next t ∧ t =
      { s with host := t.host, net := t.net, inbox := t.inbox, waiting := t.waiting } ∧ (∀ h : Fin 5, t.host[h] =
      { s.host[h] with held := t.host[h].held, replies := t.host[h].replies }) ∧ t.net =
      { s.net with urgent := t.net.urgent, origin := t.net.origin }) ∧
  (∀ (x1 : Packet) (s : State), ∃ t, exec (.subscribe x1) s = .next t ∧ t =
      { s with host := t.host, net := t.net, inbox := t.inbox, waiting := t.waiting } ∧ (∀ h : Fin 5, t.host[h] =
      { s.host[h] with held := t.host[h].held, replies := t.host[h].replies, sub := t.host[h].sub }) ∧ t.net =
      { s.net with urgent := t.net.urgent, dest := t.net.dest, origin := t.net.origin }) ∧
  (∀ (x1 : Packet) (s : State), ∃ t, exec (.restart x1) s = .next t ∧ t =
      { s with sup := t.sup, host := t.host, net := t.net, inbox := t.inbox, waiting := t.waiting, active := t.active } ∧
      t.sup = { s.sup with restartReq := t.sup.restartReq } ∧ (∀ h : Fin 5, t.host[h] =
      { s.host[h] with held := t.host[h].held, replies := t.host[h].replies, reserved := t.host[h].reserved }) ∧ t.net =
      { s.net with urgent := t.net.urgent, origin := t.net.origin }) ∧
  (∀ (x1 : Packet) (s : State), ∃ t, exec (.setEpoch x1) s = .next t ∧ t =
      { s with time := t.time, host := t.host, net := t.net, inbox := t.inbox, waiting := t.waiting, active := t.active } ∧
      t.time = { s.time with epochPend := t.time.epochPend } ∧ (∀ h : Fin 5, t.host[h] =
      { s.host[h] with held := t.host[h].held, replies := t.host[h].replies, reserved := t.host[h].reserved }) ∧ t.net =
      { s.net with urgent := t.net.urgent, origin := t.net.origin }) ∧
  (∀ (x1 : Packet) (s : State), ∃ t, exec (.swap x1) s = .next t ∧ t =
      { s with tt := t.tt, port := t.port, host := t.host, net := t.net, inbox := t.inbox, waiting := t.waiting, active := t.active } ∧
      t.tt = { s.tt with entries := t.tt.entries, ledger := t.tt.ledger, news := t.tt.news, moved := t.tt.moved, dropped := t.tt.dropped } ∧
      (∀ m : PortId, t.port[m] = { s.port[m] with pd := t.port[m].pd, ct := t.port[m].ct, rs := t.port[m].rs } ∧
      t.port[m].pd = { s.port[m].pd with outbox := t.port[m].pd.outbox, reqSent := t.port[m].pd.reqSent } ∧
      t.port[m].ct = { s.port[m].ct with intended := t.port[m].ct.intended, stopFor := t.port[m].ct.stopFor, stopRetry := t.port[m].ct.stopRetry } ∧
      t.port[m].rs = { s.port[m].rs with code := t.port[m].rs.code, step := t.port[m].rs.step, host := t.port[m].rs.host, kind := t.port[m].rs.kind }) ∧
      (∀ h : Fin 5, t.host[h] =
      { s.host[h] with held := t.host[h].held, replies := t.host[h].replies, reserved := t.host[h].reserved }) ∧ t.net =
      { s.net with urgent := t.net.urgent, origin := t.net.origin }) ∧
  (∀ (x1 : Packet) (s : State), ∃ t, exec (.pathClear x1) s = .next t ∧ t =
      { s with tt := t.tt, port := t.port, host := t.host, net := t.net, inbox := t.inbox, waiting := t.waiting } ∧
      t.tt = { s.tt with entries := t.tt.entries, ledger := t.tt.ledger, news := t.tt.news, moved := t.tt.moved, dropped := t.tt.dropped } ∧
      (∀ m : PortId, t.port[m] = { s.port[m] with tc := t.port[m].tc, pp := t.port[m].pp, pd := t.port[m].pd } ∧
      t.port[m].tc = { s.port[m].tc with pathRetry := t.port[m].tc.pathRetry } ∧ t.port[m].pp =
      { s.port[m].pp with st := t.port[m].pp.st, code := t.port[m].pp.code, lim := t.port[m].pp.lim } ∧ t.port[m].pd =
      { s.port[m].pd with hrPend := t.port[m].pd.hrPend }) ∧ (∀ h : Fin 5, t.host[h] =
      { s.host[h] with held := t.host[h].held, replies := t.host[h].replies }) ∧ t.net =
      { s.net with urgent := t.net.urgent, origin := t.net.origin })

/-- FramesOfTheStore, part 6 of 7. -/
def Sys2Proof.framesOfTheStore6 : Prop :=
  (∀ (x1 : Packet) (s : State), ∃ t, exec (.paletteWrite x1) s = .next t ∧ t =
      { s with host := t.host, net := t.net, inbox := t.inbox, waiting := t.waiting, active := t.active, store := t.store } ∧
      (∀ h : Fin 5, t.host[h] =
      { s.host[h] with held := t.host[h].held, replies := t.host[h].replies, reserved := t.host[h].reserved }) ∧ t.net =
      { s.net with urgent := t.net.urgent, origin := t.net.origin } ∧ t.store =
      { s.store with commit := t.store.commit, queue := t.store.queue, late := t.store.late }) ∧
  (∀ (x1 : Packet) (s : State), ∃ t, exec (.userWrite x1) s = .next t ∧ t =
      { s with host := t.host, net := t.net, inbox := t.inbox, waiting := t.waiting, active := t.active, store := t.store } ∧
      (∀ h : Fin 5, t.host[h] =
      { s.host[h] with held := t.host[h].held, replies := t.host[h].replies, reserved := t.host[h].reserved }) ∧ t.net =
      { s.net with urgent := t.net.urgent, origin := t.net.origin } ∧ t.store = { s.store with queue := t.store.queue }) ∧
  (∀ (x1 : Packet) (s : State), ∃ t, exec (.userProtect x1) s = .next t ∧ t =
      { s with host := t.host, net := t.net, inbox := t.inbox, waiting := t.waiting, active := t.active, store := t.store } ∧
      (∀ h : Fin 5, t.host[h] =
      { s.host[h] with held := t.host[h].held, replies := t.host[h].replies, reserved := t.host[h].reserved }) ∧ t.net =
      { s.net with urgent := t.net.urgent, origin := t.net.origin } ∧ t.store = { s.store with queue := t.store.queue }) ∧
  (∀ (x1 : Packet) (s : State), ∃ t, exec (.scrub x1) s = .next t ∧ t =
      { s with host := t.host, net := t.net, inbox := t.inbox, waiting := t.waiting, active := t.active, store := t.store, health := t.health } ∧
      (∀ h : Fin 5, t.host[h] =
      { s.host[h] with held := t.host[h].held, replies := t.host[h].replies, reserved := t.host[h].reserved }) ∧ t.net =
      { s.net with urgent := t.net.urgent, origin := t.net.origin } ∧ t.store = { s.store with scrub := t.store.scrub } ∧
      t.health = { s.health with sinceScrub := t.health.sinceScrub }) ∧
  (∀ (x1 : Packet) (s : State), ∃ t, exec (.wearReset x1) s = .next t ∧ t =
      { s with sup := t.sup, host := t.host, net := t.net, inbox := t.inbox, waiting := t.waiting, store := t.store, health := t.health } ∧
      t.sup = { s.sup with replaceReq := t.sup.replaceReq } ∧ (∀ h : Fin 5, t.host[h] =
      { s.host[h] with held := t.host[h].held, replies := t.host[h].replies }) ∧ t.net =
      { s.net with urgent := t.net.urgent, origin := t.net.origin } ∧ t.store =
      { s.store with wearMark := t.store.wearMark } ∧ t.health = { s.health with active := t.health.active }) ∧
  (∀ (x1 : Packet) (s : State), ∃ t, exec (.sketchPush x1) s = .next t ∧ t =
      { s with plat := t.plat, host := t.host, net := t.net, inbox := t.inbox, waiting := t.waiting, active := t.active } ∧
      (∀ k : PlatId, t.plat[k] = { s.plat[k] with push := t.plat[k].push, pushCut := t.plat[k].pushCut }) ∧ (∀ h : Fin 5,
      t.host[h] = { s.host[h] with held := t.host[h].held, replies := t.host[h].replies, reserved := t.host[h].reserved }) ∧
      t.net = { s.net with urgent := t.net.urgent, origin := t.net.origin }) ∧
  (∀ (x1 : Packet) (s : State), ∃ t, exec (.seqShutdown x1) s = .next t ∧ t =
      { s with sq := t.sq, host := t.host, net := t.net, inbox := t.inbox, waiting := t.waiting } ∧ t.sq =
      { s.sq with restart := t.sq.restart, hostPend := t.sq.hostPend } ∧ (∀ h : Fin 5, t.host[h] =
      { s.host[h] with held := t.host[h].held, replies := t.host[h].replies }) ∧ t.net =
      { s.net with urgent := t.net.urgent, origin := t.net.origin }) ∧
  (∀ (x1 : Packet) (s : State), ∃ t, exec (.kernelWrite x1) s = .next t ∧ t =
      { s with core := t.core, host := t.host, net := t.net, inbox := t.inbox, waiting := t.waiting } ∧ (∀ c : CoreId,
      t.core[c] = { s.core[c] with slot := t.core[c].slot }) ∧ (∀ h : Fin 5, t.host[h] =
      { s.host[h] with held := t.host[h].held, replies := t.host[h].replies }) ∧ t.net =
      { s.net with urgent := t.net.urgent, origin := t.net.origin }) ∧
  (∀ (x1 : Packet) (s : State), ∃ t, exec (.imageWrite x1) s = .next t ∧ t =
      { s with host := t.host, net := t.net, inbox := t.inbox, waiting := t.waiting, bankA := t.bankA, bankB := t.bankB } ∧
      (∀ h : Fin 5, t.host[h] = { s.host[h] with held := t.host[h].held, replies := t.host[h].replies }) ∧ t.net =
      { s.net with urgent := t.net.urgent, origin := t.net.origin }) ∧
  (∀ (x1 : Packet) (s : State), ∃ t, exec (.imageVerify x1) s = .next t ∧ t =
      { s with host := t.host, net := t.net, inbox := t.inbox, waiting := t.waiting, active := t.active, verify := t.verify } ∧
      (∀ h : Fin 5, t.host[h] =
      { s.host[h] with held := t.host[h].held, replies := t.host[h].replies, reserved := t.host[h].reserved }) ∧ t.net =
      { s.net with urgent := t.net.urgent, origin := t.net.origin })

/-- FramesOfTheStore, part 7 of 7. -/
def Sys2Proof.framesOfTheStore7 : Prop :=
  (∀ (x1 : Packet) (s : State), ∃ t, exec (.rollbackAdvance x1) s = .next t ∧ t =
      { s with host := t.host, net := t.net, inbox := t.inbox, waiting := t.waiting, active := t.active, advance := t.advance } ∧
      (∀ h : Fin 5, t.host[h] =
      { s.host[h] with held := t.host[h].held, replies := t.host[h].replies, reserved := t.host[h].reserved }) ∧ t.net =
      { s.net with urgent := t.net.urgent, origin := t.net.origin })

/-- Each of these commands answers a next state, in every state, and leaves every field of the state alone but those the
equation names: housekeepingScan, sketchComplete, frameAssembly, linkUp, linkDown, arpRequest, uncorrectableRecall,
scrubPage, scrubDue, hourlySave, ssnSave, verifyDone, rollbackAdvanceDone, twoWireWrite, twoWireRead, alertResponse,
twoWireTimeout, busFree, rplDone, evtDone, send, status, localSend, readReply, readEvent, netFrame, overflow,
filterInvocation. Each of these commands answers a next state, in every state, and leaves every field of the state alone
but those the equation names: identity, readRegs, readTime, readChannel, readEntries, storeInfo, paletteRead, userRead,
healthStatus, logRead, odometerRead, energySnapshot, hkRead, sketchList, sketchRead, kernelList, imageInfo, subscribe,
restart, setEpoch, swap, pathClear, paletteWrite, userWrite, userProtect, scrub, wearReset, sketchPush, seqShutdown,
kernelWrite, imageWrite, imageVerify, rollbackAdvance. -/
def Obligations.FramesOfTheStore : Prop :=
  framesOfTheStore1 ∧ framesOfTheStore2 ∧ framesOfTheStore3 ∧ framesOfTheStore4 ∧ framesOfTheStore5 ∧ framesOfTheStore6 ∧ framesOfTheStore7

/-- FramesOfDeepEffects, part 1 of 9. -/
def Sys2Proof.framesOfDeepEffects1 : Prop :=
  (∀ (x1 : Nat) (s : State), ∃ t, exec (.vcpFault x1) s = .next t ∧ t =
      { s with sup := t.sup, tt := t.tt, hs := t.hs, port := t.port, host := t.host, active := t.active, ssn := t.ssn, resume := t.resume, seqTick := t.seqTick, bg := t.bg, store := t.store, bankA := t.bankA, bankB := t.bankB, verify := t.verify, points := t.points, health := t.health, fresh := t.fresh } ∧
      (∀ m : PortId, t.port[m] =
      { s.port[m] with tc := t.port[m].tc, pp := t.port[m].pp, pd := t.port[m].pd, ct := t.port[m].ct, rs := t.port[m].rs, alt := t.port[m].alt, ms := t.port[m].ms })) ∧
  (∀ (x1 : Nat) (s : State), ∃ t, exec (.resetN x1) s = .next t ∧ t =
      { s with fuse := t.fuse, sup := t.sup, time := t.time, port := t.port, plat := t.plat, core := t.core, host := t.host, tw := t.tw, loc := t.loc, net := t.net, inbox := t.inbox, waiting := t.waiting, active := t.active, ssn := t.ssn, resume := t.resume, seqTick := t.seqTick, bg := t.bg, store := t.store, verify := t.verify, advance := t.advance, points := t.points, fresh := t.fresh } ∧
      (∀ m : PortId, t.port[m] =
      { s.port[m] with tc := t.port[m].tc, pd := t.port[m].pd, rs := t.port[m].rs, alt := t.port[m].alt, hold := t.port[m].hold, test := t.port[m].test })) ∧
  (∀ (s : State), ∃ t, exec (.sbWatchdog) s = .next t ∧ t =
      { s with fuse := t.fuse, sup := t.sup, time := t.time, port := t.port, plat := t.plat, core := t.core, host := t.host, inbox := t.inbox, waiting := t.waiting, active := t.active, ssn := t.ssn, resume := t.resume, seqTick := t.seqTick, bg := t.bg, store := t.store, verify := t.verify, advance := t.advance, points := t.points, health := t.health, fresh := t.fresh } ∧
      (∀ m : PortId, t.port[m] =
      { s.port[m] with tc := t.port[m].tc, pd := t.port[m].pd, rs := t.port[m].rs, alt := t.port[m].alt, hold := t.port[m].hold, test := t.port[m].test })) ∧
  (∀ (x1 : PlatId) (s : State), ∃ t, exec (.platformWatchdog x1) s = .next t ∧ t =
      { s with sup := t.sup, time := t.time, port := t.port, plat := t.plat, core := t.core, host := t.host, inbox := t.inbox, waiting := t.waiting, active := t.active, ssn := t.ssn, resume := t.resume, seqTick := t.seqTick, store := t.store, verify := t.verify, health := t.health } ∧
      (∀ m : PortId, t.port[m] =
      { s.port[m] with tc := t.port[m].tc, pd := t.port[m].pd, rs := t.port[m].rs, alt := t.port[m].alt, hold := t.port[m].hold, test := t.port[m].test })) ∧
  (∀ (s : State), ∃ t, exec (.linkReturn) s = .next t ∧ t =
      { s with sup := t.sup, tt := t.tt, hs := t.hs, port := t.port, plat := t.plat, host := t.host, active := t.active, claim := t.claim, ssn := t.ssn, resume := t.resume, seqTick := t.seqTick, bg := t.bg, store := t.store, points := t.points, health := t.health } ∧
      (∀ m : PortId, t.port[m] =
      { s.port[m] with tc := t.port[m].tc, pp := t.port[m].pp, pd := t.port[m].pd, ct := t.port[m].ct, rs := t.port[m].rs, alt := t.port[m].alt, ms := t.port[m].ms, failDue := t.port[m].failDue })) ∧
  (∀ (x1 : PortId) (s : State), ∃ t, exec (.holdOverLimit x1) s = .next t ∧ t =
      { s with tt := t.tt, port := t.port, host := t.host, active := t.active, ssn := t.ssn, resume := t.resume, seqTick := t.seqTick, bg := t.bg, store := t.store, points := t.points } ∧
      (∀ m : PortId, t.port[m] =
      { s.port[m] with tc := t.port[m].tc, pp := t.port[m].pp, pd := t.port[m].pd, ct := t.port[m].ct, rs := t.port[m].rs, alt := t.port[m].alt, ms := t.port[m].ms, hold := t.port[m].hold })) ∧
  (∀ (x1 : PlatId) (x2 : Nat) (x3 : Nat) (x4 : Nat) (s : State), ∃ t, exec (.takeBack x1 x2 x3 x4) s = .next t ∧ t =
      { s with sup := t.sup, chan := t.chan, tt := t.tt, port := t.port, plat := t.plat, core := t.core, trips := t.trips, sketches := t.sketches, host := t.host, active := t.active, ssn := t.ssn, resume := t.resume, seqTick := t.seqTick, bg := t.bg, store := t.store, points := t.points, health := t.health } ∧
      (∀ m : PortId, t.port[m] =
      { s.port[m] with tc := t.port[m].tc, pp := t.port[m].pp, pd := t.port[m].pd, ct := t.port[m].ct, rs := t.port[m].rs, alt := t.port[m].alt, ms := t.port[m].ms, hold := t.port[m].hold })) ∧
  (∀ (s : State), ∃ t, exec (.restartBegin) s = .next t ∧ t =
      { s with fuse := t.fuse, sup := t.sup, time := t.time, port := t.port, plat := t.plat, core := t.core, host := t.host, inbox := t.inbox, waiting := t.waiting, active := t.active, ssn := t.ssn, resume := t.resume, seqTick := t.seqTick, bg := t.bg, store := t.store, verify := t.verify, advance := t.advance, points := t.points, fresh := t.fresh } ∧
      (∀ m : PortId, t.port[m] =
      { s.port[m] with tc := t.port[m].tc, pd := t.port[m].pd, rs := t.port[m].rs, alt := t.port[m].alt, hold := t.port[m].hold, test := t.port[m].test })) ∧
  (∀ (x1 : PortId) (x2 : BitVec 6) (s : State), ∃ t, exec (.selftestDone x1 x2) s = .next t ∧ t =
      { s with sup := t.sup, tt := t.tt, port := t.port, core := t.core, host := t.host, active := t.active, claim := t.claim, ssn := t.ssn, resume := t.resume, seqTick := t.seqTick, bg := t.bg, store := t.store, points := t.points, health := t.health } ∧
      (∀ m : PortId, t.port[m] =
      { s.port[m] with tc := t.port[m].tc, pp := t.port[m].pp, pd := t.port[m].pd, ct := t.port[m].ct, rs := t.port[m].rs, alt := t.port[m].alt, ms := t.port[m].ms, test := t.port[m].test })) ∧
  (∀ (x1 : CadEdge) (s : State), ∃ t, exec (.cadTick x1) s = .next t ∧ t =
      { s with time := t.time, chan := t.chan, tt := t.tt, port := t.port, plat := t.plat, phase := t.phase, sfHeld := t.sfHeld, trips := t.trips, sketches := t.sketches, host := t.host, loc := t.loc, ssn := t.ssn, resume := t.resume, seqTick := t.seqTick, store := t.store } ∧
      (∀ m : PortId, t.port[m] =
      { s.port[m] with tc := t.port[m].tc, pp := t.port[m].pp, pd := t.port[m].pd, ct := t.port[m].ct, rs := t.port[m].rs }))

/-- FramesOfDeepEffects, part 2 of 9. -/
def Sys2Proof.framesOfDeepEffects2 : Prop :=
  (∀ (x1 : Nat) (s : State), ∃ t, exec (.generatedTick x1) s = .next t ∧ t =
      { s with time := t.time, chan := t.chan, tt := t.tt, port := t.port, plat := t.plat, phase := t.phase, sfHeld := t.sfHeld, trips := t.trips, sketches := t.sketches, host := t.host, loc := t.loc, ssn := t.ssn, resume := t.resume, seqTick := t.seqTick, store := t.store } ∧
      (∀ m : PortId, t.port[m] =
      { s.port[m] with tc := t.port[m].tc, pp := t.port[m].pp, pd := t.port[m].pd, ct := t.port[m].ct, rs := t.port[m].rs })) ∧
  (∀ (x1 : CT) (x2 : Nat) (s : State), ∃ t, exec (.frmMarker x1 x2) s = .next t ∧ t =
      { s with time := t.time, tt := t.tt, hs := t.hs, sq := t.sq, port := t.port, stamps := t.stamps, firsts := t.firsts, host := t.host, inbox := t.inbox, waiting := t.waiting, ssn := t.ssn, resume := t.resume, seqTick := t.seqTick, store := t.store, points := t.points } ∧
      (∀ m : PortId, t.port[m] = { s.port[m] with pp := t.port[m].pp, ct := t.port[m].ct, ms := t.port[m].ms })) ∧
  (∀ (s : State), ∃ t, exec (.superframeStart) s = .next t ∧ t =
      { s with sup := t.sup, time := t.time, chan := t.chan, tt := t.tt, hs := t.hs, sq := t.sq, port := t.port, snapCt := t.snapCt, snapPh := t.snapPh, stamps := t.stamps, firsts := t.firsts, host := t.host, net := t.net, inbox := t.inbox, waiting := t.waiting, active := t.active, ssn := t.ssn, resume := t.resume, seqTick := t.seqTick, store := t.store, points := t.points, health := t.health, fresh := t.fresh } ∧
      (∀ m : PortId, t.port[m] =
      { s.port[m] with tc := t.port[m].tc, pp := t.port[m].pp, pd := t.port[m].pd, ct := t.port[m].ct, rs := t.port[m].rs, ms := t.port[m].ms })) ∧
  (∀ (x1 : Fin 128) (s : State), ∃ t, exec (.channelMatch x1) s = .next t ∧ t =
      { s with chan := t.chan, tt := t.tt, port := t.port, host := t.host, net := t.net, ssn := t.ssn, resume := t.resume, seqTick := t.seqTick, store := t.store, fresh := t.fresh } ∧
      (∀ m : PortId, t.port[m] = { s.port[m] with tc := t.port[m].tc, pp := t.port[m].pp, ms := t.port[m].ms })) ∧
  (∀ (x1 : Int) (s : State), ∃ t, exec (.bpFastTrip x1) s = .next t ∧ t =
      { s with sup := t.sup, tt := t.tt, hs := t.hs, port := t.port, host := t.host, active := t.active, ssn := t.ssn, resume := t.resume, seqTick := t.seqTick, bg := t.bg, store := t.store, bankA := t.bankA, bankB := t.bankB, verify := t.verify, points := t.points, health := t.health, fresh := t.fresh } ∧
      (∀ m : PortId, t.port[m] =
      { s.port[m] with tc := t.port[m].tc, pp := t.port[m].pp, pd := t.port[m].pd, ct := t.port[m].ct, rs := t.port[m].rs, alt := t.port[m].alt, ms := t.port[m].ms })) ∧
  (∀ (x1 : Int) (s : State), ∃ t, exec (.breakerFault x1) s = .next t ∧ t =
      { s with sup := t.sup, tt := t.tt, hs := t.hs, port := t.port, host := t.host, active := t.active, ssn := t.ssn, resume := t.resume, seqTick := t.seqTick, bg := t.bg, store := t.store, bankA := t.bankA, bankB := t.bankB, verify := t.verify, points := t.points, health := t.health, fresh := t.fresh } ∧
      (∀ m : PortId, t.port[m] =
      { s.port[m] with tc := t.port[m].tc, pp := t.port[m].pp, pd := t.port[m].pd, ct := t.port[m].ct, rs := t.port[m].rs, alt := t.port[m].alt, ms := t.port[m].ms })) ∧
  (∀ (s : State), ∃ t, exec (.inrTo) s = .next t ∧ t =
      { s with sup := t.sup, tt := t.tt, hs := t.hs, port := t.port, host := t.host, active := t.active, ssn := t.ssn, resume := t.resume, seqTick := t.seqTick, bg := t.bg, store := t.store, bankA := t.bankA, bankB := t.bankB, verify := t.verify, points := t.points, health := t.health, fresh := t.fresh } ∧
      (∀ m : PortId, t.port[m] =
      { s.port[m] with tc := t.port[m].tc, pp := t.port[m].pp, pd := t.port[m].pd, ct := t.port[m].ct, rs := t.port[m].rs, alt := t.port[m].alt, ms := t.port[m].ms })) ∧
  (∀ (x1 : Int) (s : State), ∃ t, exec (.bpReverseTrip x1) s = .next t ∧ t =
      { s with sup := t.sup, tt := t.tt, hs := t.hs, port := t.port, host := t.host, active := t.active, ssn := t.ssn, resume := t.resume, seqTick := t.seqTick, bg := t.bg, store := t.store, bankA := t.bankA, bankB := t.bankB, verify := t.verify, points := t.points, health := t.health, fresh := t.fresh } ∧
      (∀ m : PortId, t.port[m] =
      { s.port[m] with tc := t.port[m].tc, pp := t.port[m].pp, pd := t.port[m].pd, ct := t.port[m].ct, rs := t.port[m].rs, alt := t.port[m].alt, ms := t.port[m].ms })) ∧
  (∀ (x1 : Nat) (s : State), ∃ t, exec (.feedLost x1) s = .next t ∧ t =
      { s with sup := t.sup, tt := t.tt, hs := t.hs, port := t.port, host := t.host, active := t.active, ssn := t.ssn, resume := t.resume, seqTick := t.seqTick, bg := t.bg, store := t.store, bankA := t.bankA, bankB := t.bankB, verify := t.verify, points := t.points, health := t.health, fresh := t.fresh } ∧
      (∀ m : PortId, t.port[m] =
      { s.port[m] with tc := t.port[m].tc, pp := t.port[m].pp, pd := t.port[m].pd, ct := t.port[m].ct, rs := t.port[m].rs, alt := t.port[m].alt, ms := t.port[m].ms })) ∧
  (∀ (x1 : WarnCause) (s : State), ∃ t, exec (.warnNAssert x1) s = .next t ∧ t =
      { s with sup := t.sup, tt := t.tt, hs := t.hs, port := t.port, host := t.host, active := t.active, ssn := t.ssn, resume := t.resume, seqTick := t.seqTick, bg := t.bg, store := t.store, bankA := t.bankA, bankB := t.bankB, verify := t.verify, points := t.points, health := t.health, fresh := t.fresh } ∧
      (∀ m : PortId, t.port[m] =
      { s.port[m] with tc := t.port[m].tc, pp := t.port[m].pp, pd := t.port[m].pd, ct := t.port[m].ct, rs := t.port[m].rs, alt := t.port[m].alt, ms := t.port[m].ms }))

/-- FramesOfDeepEffects, part 3 of 9. -/
def Sys2Proof.framesOfDeepEffects3 : Prop :=
  (∀ (s : State), ∃ t, exec (.hsBookingRequest) s = .next t ∧ t =
      { s with sup := t.sup, tt := t.tt, hs := t.hs, host := t.host, ssn := t.ssn, resume := t.resume, seqTick := t.seqTick, store := t.store, health := t.health }) ∧
  (∀ (x1 : RailId) (s : State), ∃ t, exec (.railQualify x1) s = .next t ∧ t =
      { s with sup := t.sup, tt := t.tt, sq := t.sq, port := t.port, plat := t.plat, sketches := t.sketches, host := t.host, active := t.active, ssn := t.ssn, resume := t.resume, seqTick := t.seqTick, bg := t.bg, store := t.store, points := t.points, health := t.health } ∧
      (∀ m : PortId, t.port[m] =
      { s.port[m] with tc := t.port[m].tc, pp := t.port[m].pp, pd := t.port[m].pd, ct := t.port[m].ct, rs := t.port[m].rs, alt := t.port[m].alt, ms := t.port[m].ms, hold := t.port[m].hold })) ∧
  (∀ (s : State), ∃ t, exec (.sqFeedAlloff) s = .next t ∧ t =
      { s with sup := t.sup, tt := t.tt, sq := t.sq, port := t.port, plat := t.plat, sketches := t.sketches, host := t.host, active := t.active, ssn := t.ssn, resume := t.resume, seqTick := t.seqTick, bg := t.bg, store := t.store, points := t.points, health := t.health } ∧
      (∀ m : PortId, t.port[m] =
      { s.port[m] with tc := t.port[m].tc, pp := t.port[m].pp, pd := t.port[m].pd, ct := t.port[m].ct, rs := t.port[m].rs, alt := t.port[m].alt, ms := t.port[m].ms, hold := t.port[m].hold })) ∧
  (∀ (s : State), ∃ t, exec (.sqPeerAlloff) s = .next t ∧ t =
      { s with sup := t.sup, tt := t.tt, sq := t.sq, port := t.port, plat := t.plat, sketches := t.sketches, host := t.host, active := t.active, ssn := t.ssn, resume := t.resume, seqTick := t.seqTick, bg := t.bg, store := t.store, points := t.points, health := t.health } ∧
      (∀ m : PortId, t.port[m] =
      { s.port[m] with tc := t.port[m].tc, pp := t.port[m].pp, pd := t.port[m].pd, ct := t.port[m].ct, rs := t.port[m].rs, alt := t.port[m].alt, ms := t.port[m].ms, hold := t.port[m].hold })) ∧
  (∀ (x1 : RailId) (s : State), ∃ t, exec (.sqRailFault x1) s = .next t ∧ t =
      { s with sup := t.sup, tt := t.tt, sq := t.sq, port := t.port, plat := t.plat, sketches := t.sketches, host := t.host, active := t.active, ssn := t.ssn, resume := t.resume, seqTick := t.seqTick, bg := t.bg, store := t.store, points := t.points, health := t.health } ∧
      (∀ m : PortId, t.port[m] =
      { s.port[m] with tc := t.port[m].tc, pp := t.port[m].pp, pd := t.port[m].pd, ct := t.port[m].ct, rs := t.port[m].rs, alt := t.port[m].alt, ms := t.port[m].ms, hold := t.port[m].hold })) ∧
  (∀ (x1 : RailId) (x2 : Bool) (s : State), ∃ t, exec (.sqPgFilter x1 x2) s = .next t ∧ t =
      { s with sup := t.sup, tt := t.tt, sq := t.sq, port := t.port, plat := t.plat, sketches := t.sketches, host := t.host, active := t.active, ssn := t.ssn, resume := t.resume, seqTick := t.seqTick, bg := t.bg, store := t.store, points := t.points, health := t.health } ∧
      (∀ m : PortId, t.port[m] =
      { s.port[m] with tc := t.port[m].tc, pp := t.port[m].pp, pd := t.port[m].pd, ct := t.port[m].ct, rs := t.port[m].rs, alt := t.port[m].alt, ms := t.port[m].ms, hold := t.port[m].hold })) ∧
  (∀ (x1 : RailId) (s : State), ∃ t, exec (.upToExpiry x1) s = .next t ∧ t =
      { s with sup := t.sup, tt := t.tt, sq := t.sq, port := t.port, plat := t.plat, sketches := t.sketches, host := t.host, active := t.active, ssn := t.ssn, resume := t.resume, seqTick := t.seqTick, bg := t.bg, store := t.store, points := t.points, health := t.health } ∧
      (∀ m : PortId, t.port[m] =
      { s.port[m] with tc := t.port[m].tc, pp := t.port[m].pp, pd := t.port[m].pd, ct := t.port[m].ct, rs := t.port[m].rs, alt := t.port[m].alt, ms := t.port[m].ms, hold := t.port[m].hold })) ∧
  (∀ (s : State), ∃ t, exec (.sqCinFall) s = .next t ∧ t =
      { s with sup := t.sup, tt := t.tt, sq := t.sq, port := t.port, plat := t.plat, sketches := t.sketches, host := t.host, active := t.active, ssn := t.ssn, resume := t.resume, seqTick := t.seqTick, bg := t.bg, store := t.store, points := t.points, health := t.health } ∧
      (∀ m : PortId, t.port[m] =
      { s.port[m] with tc := t.port[m].tc, pp := t.port[m].pp, pd := t.port[m].pd, ct := t.port[m].ct, rs := t.port[m].rs, alt := t.port[m].alt, ms := t.port[m].ms, hold := t.port[m].hold })) ∧
  (∀ (s : State), ∃ t, exec (.sqHostShutdown) s = .next t ∧ t =
      { s with sup := t.sup, tt := t.tt, sq := t.sq, port := t.port, plat := t.plat, sketches := t.sketches, host := t.host, active := t.active, ssn := t.ssn, resume := t.resume, seqTick := t.seqTick, bg := t.bg, store := t.store, points := t.points, health := t.health } ∧
      (∀ m : PortId, t.port[m] =
      { s.port[m] with tc := t.port[m].tc, pp := t.port[m].pp, pd := t.port[m].pd, ct := t.port[m].ct, rs := t.port[m].rs, alt := t.port[m].alt, ms := t.port[m].ms, hold := t.port[m].hold })) ∧
  (∀ (s : State), ∃ t, exec (.sqRetiRise) s = .next t ∧ t =
      { s with sup := t.sup, tt := t.tt, sq := t.sq, port := t.port, plat := t.plat, sketches := t.sketches, host := t.host, active := t.active, ssn := t.ssn, resume := t.resume, seqTick := t.seqTick, bg := t.bg, store := t.store, points := t.points, health := t.health } ∧
      (∀ m : PortId, t.port[m] =
      { s.port[m] with tc := t.port[m].tc, pp := t.port[m].pp, pd := t.port[m].pd, ct := t.port[m].ct, rs := t.port[m].rs, alt := t.port[m].alt, ms := t.port[m].ms, hold := t.port[m].hold }))

/-- FramesOfDeepEffects, part 4 of 9. -/
def Sys2Proof.framesOfDeepEffects4 : Prop :=
  (∀ (s : State), ∃ t, exec (.retToExpiry) s = .next t ∧ t =
      { s with sup := t.sup, tt := t.tt, sq := t.sq, port := t.port, plat := t.plat, sketches := t.sketches, host := t.host, active := t.active, ssn := t.ssn, resume := t.resume, seqTick := t.seqTick, bg := t.bg, store := t.store, points := t.points, health := t.health } ∧
      (∀ m : PortId, t.port[m] =
      { s.port[m] with tc := t.port[m].tc, pp := t.port[m].pp, pd := t.port[m].pd, ct := t.port[m].ct, rs := t.port[m].rs, alt := t.port[m].alt, ms := t.port[m].ms, hold := t.port[m].hold })) ∧
  (∀ (x1 : RailId) (s : State), ∃ t, exec (.disToExpiry x1) s = .next t ∧ t =
      { s with sup := t.sup, tt := t.tt, sq := t.sq, port := t.port, plat := t.plat, sketches := t.sketches, host := t.host, active := t.active, ssn := t.ssn, resume := t.resume, seqTick := t.seqTick, bg := t.bg, store := t.store, points := t.points, health := t.health } ∧
      (∀ m : PortId, t.port[m] =
      { s.port[m] with tc := t.port[m].tc, pp := t.port[m].pp, pd := t.port[m].pd, ct := t.port[m].ct, rs := t.port[m].rs, alt := t.port[m].alt, ms := t.port[m].ms, hold := t.port[m].hold })) ∧
  (∀ (x1 : RailId) (s : State), ∃ t, exec (.railDischarged x1) s = .next t ∧ t =
      { s with sup := t.sup, tt := t.tt, sq := t.sq, port := t.port, plat := t.plat, sketches := t.sketches, host := t.host, active := t.active, ssn := t.ssn, resume := t.resume, seqTick := t.seqTick, bg := t.bg, store := t.store, points := t.points, health := t.health } ∧
      (∀ m : PortId, t.port[m] =
      { s.port[m] with tc := t.port[m].tc, pp := t.port[m].pp, pd := t.port[m].pd, ct := t.port[m].ct, rs := t.port[m].rs, alt := t.port[m].alt, ms := t.port[m].ms, hold := t.port[m].hold })) ∧
  (∀ (x1 : PortId) (s : State), ∃ t, exec (.converterStartCheck x1) s = .next t ∧ t =
      { s with sup := t.sup, tt := t.tt, port := t.port, host := t.host, active := t.active, claim := t.claim, ssn := t.ssn, resume := t.resume, seqTick := t.seqTick, bg := t.bg, store := t.store, points := t.points, health := t.health } ∧
      (∀ m : PortId, t.port[m] =
      { s.port[m] with tc := t.port[m].tc, pp := t.port[m].pp, pd := t.port[m].pd, ct := t.port[m].ct, rs := t.port[m].rs, alt := t.port[m].alt, ms := t.port[m].ms, failDue := t.port[m].failDue })) ∧
  (∀ (x1 : PortId) (x2 : Nat) (s : State), ∃ t, exec (.dacReadback x1 x2) s = .next t ∧ t =
      { s with sup := t.sup, tt := t.tt, port := t.port, host := t.host, active := t.active, claim := t.claim, ssn := t.ssn, resume := t.resume, seqTick := t.seqTick, bg := t.bg, store := t.store, points := t.points, health := t.health } ∧
      (∀ m : PortId, t.port[m] =
      { s.port[m] with tc := t.port[m].tc, pp := t.port[m].pp, pd := t.port[m].pd, ct := t.port[m].ct, rs := t.port[m].rs, alt := t.port[m].alt, ms := t.port[m].ms, failDue := t.port[m].failDue })) ∧
  (∀ (x1 : PortId) (s : State), ∃ t, exec (.tsrcdisconnect x1) s = .next t ∧ t =
      { s with tt := t.tt, port := t.port, host := t.host, active := t.active, ssn := t.ssn, resume := t.resume, seqTick := t.seqTick, bg := t.bg, store := t.store, points := t.points } ∧
      (∀ m : PortId, t.port[m] =
      { s.port[m] with tc := t.port[m].tc, pp := t.port[m].pp, pd := t.port[m].pd, ct := t.port[m].ct, rs := t.port[m].rs, alt := t.port[m].alt, ms := t.port[m].ms })) ∧
  (∀ (x1 : PortId) (x2 : Nat) (s : State), ∃ t, exec (.vbusLoss x1 x2) s = .next t ∧ t =
      { s with tt := t.tt, port := t.port, host := t.host, active := t.active, ssn := t.ssn, resume := t.resume, seqTick := t.seqTick, bg := t.bg, store := t.store, points := t.points } ∧
      (∀ m : PortId, t.port[m] =
      { s.port[m] with tc := t.port[m].tc, pp := t.port[m].pp, pd := t.port[m].pd, ct := t.port[m].ct, rs := t.port[m].rs, alt := t.port[m].alt, ms := t.port[m].ms })) ∧
  (∀ (x1 : PortId) (s : State), ∃ t, exec (.pathGrantLimit x1) s = .next t ∧ t =
      { s with tt := t.tt, port := t.port, host := t.host, active := t.active, ssn := t.ssn, resume := t.resume, seqTick := t.seqTick, bg := t.bg, store := t.store, points := t.points } ∧
      (∀ m : PortId, t.port[m] =
      { s.port[m] with tc := t.port[m].tc, pp := t.port[m].pp, pd := t.port[m].pd, ct := t.port[m].ct, rs := t.port[m].rs, alt := t.port[m].alt, ms := t.port[m].ms })) ∧
  (∀ (x1 : PortId) (x2 : Int) (s : State), ∃ t, exec (.portFastTrip x1 x2) s = .next t ∧ t =
      { s with chan := t.chan, tt := t.tt, port := t.port, plat := t.plat, trips := t.trips, sketches := t.sketches, host := t.host, active := t.active, ssn := t.ssn, resume := t.resume, seqTick := t.seqTick, bg := t.bg, store := t.store, points := t.points } ∧
      (∀ m : PortId, t.port[m] =
      { s.port[m] with tc := t.port[m].tc, pp := t.port[m].pp, pd := t.port[m].pd, ct := t.port[m].ct, rs := t.port[m].rs, alt := t.port[m].alt, ms := t.port[m].ms })) ∧
  (∀ (x1 : PortId) (x2 : Int) (s : State), ∃ t, exec (.portReverseTrip x1 x2) s = .next t ∧ t =
      { s with chan := t.chan, tt := t.tt, port := t.port, plat := t.plat, trips := t.trips, sketches := t.sketches, host := t.host, active := t.active, ssn := t.ssn, resume := t.resume, seqTick := t.seqTick, bg := t.bg, store := t.store, points := t.points } ∧
      (∀ m : PortId, t.port[m] =
      { s.port[m] with tc := t.port[m].tc, pp := t.port[m].pp, pd := t.port[m].pd, ct := t.port[m].ct, rs := t.port[m].rs, alt := t.port[m].alt, ms := t.port[m].ms }))

/-- FramesOfDeepEffects, part 5 of 9. -/
def Sys2Proof.framesOfDeepEffects5 : Prop :=
  (∀ (x1 : PortId) (s : State), ∃ t, exec (.i2tTrip x1) s = .next t ∧ t =
      { s with chan := t.chan, tt := t.tt, port := t.port, plat := t.plat, trips := t.trips, sketches := t.sketches, host := t.host, active := t.active, ssn := t.ssn, resume := t.resume, seqTick := t.seqTick, bg := t.bg, store := t.store, points := t.points } ∧
      (∀ m : PortId, t.port[m] =
      { s.port[m] with tc := t.port[m].tc, pp := t.port[m].pp, pd := t.port[m].pd, ct := t.port[m].ct, rs := t.port[m].rs, alt := t.port[m].alt, ms := t.port[m].ms })) ∧
  (∀ (x1 : PortId) (s : State), ∃ t, exec (.cpgLost x1) s = .next t ∧ t =
      { s with chan := t.chan, tt := t.tt, port := t.port, plat := t.plat, trips := t.trips, sketches := t.sketches, host := t.host, active := t.active, ssn := t.ssn, resume := t.resume, seqTick := t.seqTick, bg := t.bg, store := t.store, points := t.points } ∧
      (∀ m : PortId, t.port[m] =
      { s.port[m] with tc := t.port[m].tc, pp := t.port[m].pp, pd := t.port[m].pd, ct := t.port[m].ct, rs := t.port[m].rs, alt := t.port[m].alt, ms := t.port[m].ms })) ∧
  (∀ (x1 : PortId) (s : State), ∃ t, exec (.closeFail x1) s = .next t ∧ t =
      { s with chan := t.chan, tt := t.tt, port := t.port, plat := t.plat, trips := t.trips, sketches := t.sketches, host := t.host, active := t.active, ssn := t.ssn, resume := t.resume, seqTick := t.seqTick, bg := t.bg, store := t.store, points := t.points } ∧
      (∀ m : PortId, t.port[m] =
      { s.port[m] with tc := t.port[m].tc, pp := t.port[m].pp, pd := t.port[m].pd, ct := t.port[m].ct, rs := t.port[m].rs, alt := t.port[m].alt, ms := t.port[m].ms })) ∧
  (∀ (x1 : PortId) (s : State), ∃ t, exec (.dischargeTimeout x1) s = .next t ∧ t =
      { s with sup := t.sup, tt := t.tt, port := t.port, plat := t.plat, trips := t.trips, sketches := t.sketches, host := t.host, active := t.active, claim := t.claim, ssn := t.ssn, resume := t.resume, seqTick := t.seqTick, bg := t.bg, store := t.store, points := t.points, health := t.health } ∧
      (∀ m : PortId, t.port[m] =
      { s.port[m] with tc := t.port[m].tc, pp := t.port[m].pp, pd := t.port[m].pd, ct := t.port[m].ct, rs := t.port[m].rs, alt := t.port[m].alt, ms := t.port[m].ms, failDue := t.port[m].failDue })) ∧
  (∀ (x1 : PortId) (x2 : Fin 6) (s : State), ∃ t, exec (.hardwareTestFail x1 x2) s = .next t ∧ t =
      { s with sup := t.sup, tt := t.tt, port := t.port, host := t.host, active := t.active, claim := t.claim, ssn := t.ssn, resume := t.resume, seqTick := t.seqTick, bg := t.bg, store := t.store, points := t.points, health := t.health } ∧
      (∀ m : PortId, t.port[m] =
      { s.port[m] with tc := t.port[m].tc, pp := t.port[m].pp, pd := t.port[m].pd, ct := t.port[m].ct, rs := t.port[m].rs, alt := t.port[m].alt, ms := t.port[m].ms, failDue := t.port[m].failDue })) ∧
  (∀ (x1 : PortId) (x2 : Rat) (x3 : Rat) (x4 : Rat) (x5 : Rat) (x6 : Int) (x7 : Int) (s : State), ∃ t,
      exec (.calResult x1 x2 x3 x4 x5 x6 x7) s = .next t ∧ t =
      { s with sup := t.sup, chan := t.chan, tt := t.tt, port := t.port, plat := t.plat, trips := t.trips, sketches := t.sketches, host := t.host, active := t.active, ssn := t.ssn, resume := t.resume, seqTick := t.seqTick, bg := t.bg, store := t.store, points := t.points, health := t.health, fresh := t.fresh } ∧
      (∀ m : PortId, t.port[m] =
      { s.port[m] with tc := t.port[m].tc, pp := t.port[m].pp, pd := t.port[m].pd, ct := t.port[m].ct, rs := t.port[m].rs, alt := t.port[m].alt, ms := t.port[m].ms })) ∧
  (∀ (x1 : PortId) (s : State), ∃ t, exec (.rpairEstimate x1) s = .next t ∧ t =
      { s with chan := t.chan, tt := t.tt, port := t.port, plat := t.plat, trips := t.trips, sketches := t.sketches, host := t.host, active := t.active, ssn := t.ssn, resume := t.resume, seqTick := t.seqTick, bg := t.bg, store := t.store, points := t.points } ∧
      (∀ m : PortId, t.port[m] =
      { s.port[m] with tc := t.port[m].tc, pp := t.port[m].pp, pd := t.port[m].pd, ct := t.port[m].ct, rs := t.port[m].rs, alt := t.port[m].alt, ms := t.port[m].ms })) ∧
  (∀ (x1 : PortId) (s : State), ∃ t, exec (.psRdy x1) s = .next t ∧ t =
      { s with tt := t.tt, port := t.port, host := t.host, active := t.active, ssn := t.ssn, resume := t.resume, seqTick := t.seqTick, bg := t.bg, store := t.store, points := t.points } ∧
      (∀ m : PortId, t.port[m] =
      { s.port[m] with tc := t.port[m].tc, pp := t.port[m].pp, pd := t.port[m].pd, ct := t.port[m].ct, rs := t.port[m].rs, alt := t.port[m].alt, ms := t.port[m].ms })) ∧
  (∀ (x1 : PortId) (x2 : Nat) (s : State), ∃ t, exec (.newSourceVbusReady x1 x2) s = .next t ∧ t =
      { s with tt := t.tt, port := t.port, host := t.host, active := t.active, ssn := t.ssn, resume := t.resume, seqTick := t.seqTick, bg := t.bg, store := t.store } ∧
      (∀ m : PortId, t.port[m] =
      { s.port[m] with tc := t.port[m].tc, pp := t.port[m].pp, pd := t.port[m].pd, ct := t.port[m].ct, rs := t.port[m].rs, ms := t.port[m].ms })) ∧
  (∀ (x1 : PortId) (s : State), ∃ t, exec (.prSwapRoleTimeout x1) s = .next t ∧ t =
      { s with tt := t.tt, port := t.port, host := t.host, active := t.active, ssn := t.ssn, resume := t.resume, seqTick := t.seqTick, bg := t.bg, store := t.store, points := t.points } ∧
      (∀ m : PortId, t.port[m] =
      { s.port[m] with tc := t.port[m].tc, pp := t.port[m].pp, pd := t.port[m].pd, ct := t.port[m].ct, rs := t.port[m].rs, alt := t.port[m].alt, ms := t.port[m].ms }))

/-- FramesOfDeepEffects, part 6 of 9. -/
def Sys2Proof.framesOfDeepEffects6 : Prop :=
  (∀ (x1 : PortId) (s : State), ∃ t, exec (.turntableTimeout x1) s = .next t ∧ t =
      { s with sup := t.sup, tt := t.tt, port := t.port, plat := t.plat, sketches := t.sketches, host := t.host, active := t.active, claim := t.claim, ssn := t.ssn, resume := t.resume, seqTick := t.seqTick, bg := t.bg, store := t.store, points := t.points, health := t.health } ∧
      (∀ m : PortId, t.port[m] =
      { s.port[m] with tc := t.port[m].tc, pp := t.port[m].pp, pd := t.port[m].pd, ct := t.port[m].ct, rs := t.port[m].rs, alt := t.port[m].alt, ms := t.port[m].ms, failDue := t.port[m].failDue })) ∧
  (∀ (x1 : PortId) (s : State), ∃ t, exec (.bookingRetry x1) s = .next t ∧ t =
      { s with tt := t.tt, port := t.port, host := t.host, active := t.active, ssn := t.ssn, resume := t.resume, seqTick := t.seqTick, bg := t.bg, store := t.store, points := t.points } ∧
      (∀ m : PortId, t.port[m] =
      { s.port[m] with tc := t.port[m].tc, pp := t.port[m].pp, pd := t.port[m].pd, ct := t.port[m].ct, rs := t.port[m].rs, alt := t.port[m].alt, ms := t.port[m].ms }) ∧
      (∀ m : PortId, m ≠ x1 → t.port[m] = s.port[m])) ∧
  (∀ (x1 : PortId) (x2 : Nat) (s : State), ∃ t, exec (.frsStandbyDetach x1 x2) s = .next t ∧ t =
      { s with tt := t.tt, port := t.port, host := t.host, active := t.active, ssn := t.ssn, resume := t.resume, seqTick := t.seqTick, bg := t.bg, store := t.store, points := t.points } ∧
      (∀ m : PortId, t.port[m] =
      { s.port[m] with tc := t.port[m].tc, pp := t.port[m].pp, pd := t.port[m].pd, ct := t.port[m].ct, rs := t.port[m].rs, alt := t.port[m].alt, ms := t.port[m].ms })) ∧
  (∀ (x1 : Bool) (s : State), ∃ t, exec (.scriptWrite x1) s = .next t ∧ t =
      { s with sup := t.sup, port := t.port, host := t.host, active := t.active, ssn := t.ssn, resume := t.resume, seqTick := t.seqTick, store := t.store, points := t.points, health := t.health } ∧
      (∀ m : PortId, t.port[m] = { s.port[m] with pd := t.port[m].pd, alt := t.port[m].alt })) ∧
  (∀ (x1 : Bool) (s : State), ∃ t, exec (.scriptWriteRetry x1) s = .next t ∧ t =
      { s with sup := t.sup, port := t.port, host := t.host, active := t.active, ssn := t.ssn, resume := t.resume, seqTick := t.seqTick, store := t.store, points := t.points, health := t.health } ∧
      (∀ m : PortId, t.port[m] = { s.port[m] with pd := t.port[m].pd, alt := t.port[m].alt })) ∧
  (∀ (x1 : Bool) (s : State), ∃ t, exec (.arbitrationLoss x1) s = .next t ∧ t =
      { s with sup := t.sup, port := t.port, host := t.host, active := t.active, ssn := t.ssn, resume := t.resume, seqTick := t.seqTick, store := t.store, points := t.points, health := t.health } ∧
      (∀ m : PortId, t.port[m] = { s.port[m] with pd := t.port[m].pd, alt := t.port[m].alt })) ∧
  (∀ (x1 : Bool) (x2 : Bool) (s : State), ∃ t, exec (.auxBusStuck x1 x2) s = .next t ∧ t =
      { s with sup := t.sup, port := t.port, host := t.host, active := t.active, ssn := t.ssn, resume := t.resume, seqTick := t.seqTick, store := t.store, points := t.points, health := t.health } ∧
      (∀ m : PortId, t.port[m] = { s.port[m] with pd := t.port[m].pd, alt := t.port[m].alt })) ∧
  (∀ (x1 : PortId) (x2 : PdMsg) (s : State), ∃ t, exec (.pdMessage x1 x2) s = .next t ∧ t =
      { s with tt := t.tt, port := t.port, core := t.core, host := t.host, active := t.active, ssn := t.ssn, resume := t.resume, seqTick := t.seqTick, bg := t.bg, store := t.store, points := t.points } ∧
      (∀ m : PortId, t.port[m] =
      { s.port[m] with tc := t.port[m].tc, pp := t.port[m].pp, pd := t.port[m].pd, ct := t.port[m].ct, rs := t.port[m].rs, alt := t.port[m].alt, ms := t.port[m].ms })) ∧
  (∀ (x1 : PortId) (s : State), ∃ t, exec (.softReset x1) s = .next t ∧ t =
      { s with tt := t.tt, port := t.port, core := t.core, host := t.host, ssn := t.ssn, resume := t.resume, seqTick := t.seqTick, bg := t.bg, store := t.store } ∧
      (∀ m : PortId, t.port[m] =
      { s.port[m] with tc := t.port[m].tc, pp := t.port[m].pp, pd := t.port[m].pd, ct := t.port[m].ct })) ∧
  (∀ (x1 : PortId) (s : State), ∃ t, exec (.sinktxDiscard x1) s = .next t ∧ t =
      { s with tt := t.tt, port := t.port, host := t.host, active := t.active, ssn := t.ssn, resume := t.resume, seqTick := t.seqTick, bg := t.bg, store := t.store, points := t.points } ∧
      (∀ m : PortId, t.port[m] =
      { s.port[m] with tc := t.port[m].tc, pp := t.port[m].pp, pd := t.port[m].pd, ct := t.port[m].ct, rs := t.port[m].rs, alt := t.port[m].alt, ms := t.port[m].ms }))

/-- FramesOfDeepEffects, part 7 of 9. -/
def Sys2Proof.framesOfDeepEffects7 : Prop :=
  (∀ (x1 : PortId) (x2 : Sop) (x3 : BitVec 3) (s : State), ∃ t, exec (.goodcrc x1 x2 x3) s = .next t ∧ t =
      { s with tt := t.tt, port := t.port, host := t.host, active := t.active, ssn := t.ssn, resume := t.resume, seqTick := t.seqTick, bg := t.bg, store := t.store, points := t.points } ∧
      (∀ m : PortId, t.port[m] =
      { s.port[m] with tc := t.port[m].tc, pp := t.port[m].pp, pd := t.port[m].pd, ct := t.port[m].ct, rs := t.port[m].rs, alt := t.port[m].alt, ms := t.port[m].ms })) ∧
  (∀ (x1 : PortId) (x2 : Sop) (s : State), ∃ t, exec (.treceive x1 x2) s = .next t ∧ t =
      { s with tt := t.tt, port := t.port, host := t.host, active := t.active, ssn := t.ssn, resume := t.resume, seqTick := t.seqTick, bg := t.bg, store := t.store, points := t.points } ∧
      (∀ m : PortId, t.port[m] =
      { s.port[m] with tc := t.port[m].tc, pp := t.port[m].pp, pd := t.port[m].pd, ct := t.port[m].ct, rs := t.port[m].rs, alt := t.port[m].alt, ms := t.port[m].ms })) ∧
  (∀ (x1 : PortId) (x2 : Sop) (x3 : ChunkAsk) (s : State), ∃ t, exec (.chunkRequest x1 x2 x3) s = .next t ∧ t =
      { s with tt := t.tt, port := t.port, host := t.host, active := t.active, ssn := t.ssn, resume := t.resume, seqTick := t.seqTick, bg := t.bg, store := t.store, points := t.points } ∧
      (∀ m : PortId, t.port[m] =
      { s.port[m] with tc := t.port[m].tc, pp := t.port[m].pp, pd := t.port[m].pd, ct := t.port[m].ct, rs := t.port[m].rs, alt := t.port[m].alt, ms := t.port[m].ms })) ∧
  (∀ (x1 : PortId) (x2 : Sop) (s : State), ∃ t, exec (.chunkTimer x1 x2) s = .next t ∧ t =
      { s with tt := t.tt, port := t.port, host := t.host, active := t.active, ssn := t.ssn, resume := t.resume, seqTick := t.seqTick, bg := t.bg, store := t.store, points := t.points } ∧
      (∀ m : PortId, t.port[m] =
      { s.port[m] with tc := t.port[m].tc, pp := t.port[m].pp, pd := t.port[m].pd, ct := t.port[m].ct, rs := t.port[m].rs, alt := t.port[m].alt, ms := t.port[m].ms })) ∧
  (∀ (x1 : PortId) (s : State), ∃ t, exec (.hardResetSend x1) s = .next t ∧ t =
      { s with tt := t.tt, port := t.port, host := t.host, active := t.active, ssn := t.ssn, resume := t.resume, seqTick := t.seqTick, bg := t.bg, store := t.store, points := t.points } ∧
      (∀ m : PortId, t.port[m] =
      { s.port[m] with tc := t.port[m].tc, pp := t.port[m].pp, pd := t.port[m].pd, ct := t.port[m].ct, rs := t.port[m].rs, alt := t.port[m].alt, ms := t.port[m].ms })) ∧
  (∀ (x1 : PortId) (s : State), ∃ t, exec (.hardResetReceived x1) s = .next t ∧ t =
      { s with tt := t.tt, port := t.port, host := t.host, active := t.active, ssn := t.ssn, resume := t.resume, seqTick := t.seqTick, bg := t.bg, store := t.store, points := t.points } ∧
      (∀ m : PortId, t.port[m] =
      { s.port[m] with tc := t.port[m].tc, pp := t.port[m].pp, pd := t.port[m].pd, ct := t.port[m].ct, rs := t.port[m].rs, alt := t.port[m].alt, ms := t.port[m].ms })) ∧
  (∀ (x1 : PortId) (s : State), ∃ t, exec (.sinkVbusWait x1) s = .next t ∧ t =
      { s with tt := t.tt, port := t.port, host := t.host, active := t.active, ssn := t.ssn, resume := t.resume, seqTick := t.seqTick, bg := t.bg, store := t.store, points := t.points } ∧
      (∀ m : PortId, t.port[m] =
      { s.port[m] with tc := t.port[m].tc, pp := t.port[m].pp, pd := t.port[m].pd, ct := t.port[m].ct, rs := t.port[m].rs, alt := t.port[m].alt, ms := t.port[m].ms })) ∧
  (∀ (x1 : PortId) (s : State), ∃ t, exec (.tnoresponse x1) s = .next t ∧ t =
      { s with tt := t.tt, port := t.port, host := t.host, active := t.active, ssn := t.ssn, resume := t.resume, seqTick := t.seqTick, bg := t.bg, store := t.store, points := t.points } ∧
      (∀ m : PortId, t.port[m] =
      { s.port[m] with tc := t.port[m].tc, pp := t.port[m].pp, pd := t.port[m].pd, ct := t.port[m].ct, rs := t.port[m].rs, alt := t.port[m].alt, ms := t.port[m].ms })) ∧
  (∀ (x1 : PortId) (s : State), ∃ t, exec (.accept x1) s = .next t ∧ t =
      { s with tt := t.tt, port := t.port, core := t.core, host := t.host, active := t.active, ssn := t.ssn, resume := t.resume, seqTick := t.seqTick, bg := t.bg, store := t.store, points := t.points } ∧
      (∀ m : PortId, t.port[m] =
      { s.port[m] with tc := t.port[m].tc, pd := t.port[m].pd, ct := t.port[m].ct, rs := t.port[m].rs, alt := t.port[m].alt, ms := t.port[m].ms }) ∧
      (∀ m : PortId, m ≠ x1 → t.port[m] = s.port[m])) ∧
  (∀ (x1 : PortId) (x2 : PolicyTimer) (s : State), ∃ t, exec (.policyTimer x1 x2) s = .next t ∧ t =
      { s with tt := t.tt, port := t.port, core := t.core, host := t.host, active := t.active, ssn := t.ssn, resume := t.resume, seqTick := t.seqTick, bg := t.bg, store := t.store } ∧
      (∀ m : PortId, t.port[m] =
      { s.port[m] with tc := t.port[m].tc, pd := t.port[m].pd, ct := t.port[m].ct, rs := t.port[m].rs, alt := t.port[m].alt, ms := t.port[m].ms }) ∧
      (∀ m : PortId, m ≠ x1 → t.port[m] = s.port[m]))

/-- FramesOfDeepEffects, part 8 of 9. -/
def Sys2Proof.framesOfDeepEffects8 : Prop :=
  (∀ (x1 : Vector PortSample 24) (x2 : BitVec 16) (x3 : BitVec 16) (s : State), ∃ t, exec (.sampleInstant x1 x2 x3) s =
      .next t ∧ t = { s with hs := t.hs, port := t.port, plat := t.plat, sidx := t.sidx, phase := t.phase, stamps := t.stamps, firsts := t.firsts, sketches := t.sketches, net := t.net, health := t.health, fresh := t.fresh } ∧
      (∀ m : PortId, t.port[m] = { s.port[m] with pp := t.port[m].pp, ms := t.port[m].ms })) ∧
  (∀ (x1 : Nat) (s : State), ∃ t, exec (.storeProgramStart x1) s = .next t ∧ t =
      { s with sup := t.sup, time := t.time, chan := t.chan, tt := t.tt, sq := t.sq, port := t.port, core := t.core, host := t.host, tw := t.tw, net := t.net, active := t.active, ssn := t.ssn, resume := t.resume, seqTick := t.seqTick, bg := t.bg, store := t.store, points := t.points, health := t.health } ∧
      (∀ m : PortId, t.port[m] =
      { s.port[m] with tc := t.port[m].tc, pp := t.port[m].pp, pd := t.port[m].pd, ct := t.port[m].ct, rs := t.port[m].rs, alt := t.port[m].alt, ms := t.port[m].ms })) ∧
  (∀ (x1 : Bool) (s : State), ∃ t, exec (.pageProgramDone x1) s = .next t ∧ t =
      { s with sup := t.sup, time := t.time, chan := t.chan, tt := t.tt, sq := t.sq, port := t.port, core := t.core, host := t.host, tw := t.tw, net := t.net, active := t.active, ssn := t.ssn, resume := t.resume, seqTick := t.seqTick, bg := t.bg, store := t.store, points := t.points, health := t.health, fresh := t.fresh } ∧
      (∀ m : PortId, t.port[m] =
      { s.port[m] with tc := t.port[m].tc, pp := t.port[m].pp, pd := t.port[m].pd, ct := t.port[m].ct, rs := t.port[m].rs, alt := t.port[m].alt, ms := t.port[m].ms })) ∧
  (∀ (s : State), ∃ t, exec (.programAbandon) s = .next t ∧ t =
      { s with sup := t.sup, time := t.time, chan := t.chan, tt := t.tt, sq := t.sq, port := t.port, core := t.core, host := t.host, tw := t.tw, net := t.net, active := t.active, ssn := t.ssn, resume := t.resume, seqTick := t.seqTick, bg := t.bg, store := t.store, points := t.points, health := t.health } ∧
      (∀ m : PortId, t.port[m] =
      { s.port[m] with tc := t.port[m].tc, pp := t.port[m].pp, pd := t.port[m].pd, ct := t.port[m].ct, rs := t.port[m].rs, alt := t.port[m].alt, ms := t.port[m].ms })) ∧
  (∀ (s : State), ∃ t, exec (.laneFrameBoundary) s = .next t ∧ t =
      { s with port := t.port, plat := t.plat, host := t.host, net := t.net, active := t.active, ssn := t.ssn, resume := t.resume, seqTick := t.seqTick, fresh := t.fresh } ∧
      (∀ m : PortId, t.port[m] = { s.port[m] with ms := t.port[m].ms })) ∧
  (∀ (x1 : CoreId) (s : State), ∃ t, exec (.kernelBudget x1) s = .next t ∧ t =
      { s with port := t.port, core := t.core, host := t.host, active := t.active, ssn := t.ssn, resume := t.resume, seqTick := t.seqTick, bg := t.bg, store := t.store } ∧
      (∀ m : PortId, t.port[m] = { s.port[m] with pd := t.port[m].pd, ct := t.port[m].ct })) ∧
  (∀ (x1 : Packet) (s : State), ∃ t, exec (.claim x1) s = .next t ∧ t =
      { s with host := t.host, net := t.net, inbox := t.inbox, waiting := t.waiting, claim := t.claim, ssn := t.ssn, resume := t.resume, seqTick := t.seqTick, store := t.store }) ∧
  (∀ (x1 : Packet) (s : State), ∃ t, exec (.release x1) s = .next t ∧ t =
      { s with host := t.host, net := t.net, inbox := t.inbox, waiting := t.waiting, claim := t.claim, ssn := t.ssn, resume := t.resume, seqTick := t.seqTick, store := t.store }) ∧
  (∀ (x1 : Packet) (s : State), ∃ t, exec (.claimBreak x1) s = .next t ∧ t =
      { s with host := t.host, net := t.net, inbox := t.inbox, waiting := t.waiting, claim := t.claim, ssn := t.ssn, resume := t.resume, seqTick := t.seqTick, store := t.store }) ∧
  (∀ (x1 : Byte) (x2 : Packet) (s : State), ∃ t, exec (.writeRegs x1 x2) s = .next t ∧ t =
      { s with time := t.time, sq := t.sq, port := t.port, host := t.host, net := t.net, inbox := t.inbox, waiting := t.waiting, active := t.active, bg := t.bg, store := t.store } ∧
      (∀ m : PortId, t.port[m] =
      { s.port[m] with tc := t.port[m].tc, pp := t.port[m].pp, pd := t.port[m].pd, ct := t.port[m].ct, rs := t.port[m].rs, alt := t.port[m].alt, ms := t.port[m].ms }))

/-- FramesOfDeepEffects, part 9 of 9. -/
def Sys2Proof.framesOfDeepEffects9 : Prop :=
  (∀ (x1 : Packet) (s : State), ∃ t, exec (.altMode x1) s = .next t ∧ t =
      { s with port := t.port, host := t.host, net := t.net, inbox := t.inbox, waiting := t.waiting, active := t.active, ssn := t.ssn, resume := t.resume, seqTick := t.seqTick, store := t.store, points := t.points } ∧
      (∀ m : PortId, t.port[m] = { s.port[m] with pd := t.port[m].pd, alt := t.port[m].alt })) ∧
  (∀ (x1 : Packet) (s : State), ∃ t, exec (.format x1) s = .next t ∧ t =
      { s with host := t.host, net := t.net, inbox := t.inbox, waiting := t.waiting, active := t.active, ssn := t.ssn, resume := t.resume, seqTick := t.seqTick, store := t.store }) ∧
  (∀ (x1 : Packet) (s : State), ∃ t, exec (.logClear x1) s = .next t ∧ t =
      { s with host := t.host, net := t.net, inbox := t.inbox, waiting := t.waiting, active := t.active, ssn := t.ssn, resume := t.resume, seqTick := t.seqTick, store := t.store }) ∧
  (∀ (x1 : Packet) (x2 : BitVec 4) (x3 : Fin 2) (x4 : Nat) (s : State), ∃ t, exec (.selftest x1 x2 x3 x4) s = .next t ∧
      t = { s with sup := t.sup, port := t.port, host := t.host, net := t.net, inbox := t.inbox, waiting := t.waiting, active := t.active, ssn := t.ssn, resume := t.resume, seqTick := t.seqTick, store := t.store, health := t.health } ∧
      (∀ m : PortId, t.port[m] = { s.port[m] with tc := t.port[m].tc, test := t.port[m].test })) ∧
  (∀ (x1 : Packet) (s : State), ∃ t, exec (.sketchTrigger x1) s = .next t ∧ t =
      { s with port := t.port, plat := t.plat, sketches := t.sketches, host := t.host, net := t.net, inbox := t.inbox, waiting := t.waiting, ssn := t.ssn, resume := t.resume, seqTick := t.seqTick, store := t.store } ∧
      (∀ m : PortId, t.port[m] = { s.port[m] with pp := t.port[m].pp })) ∧
  (∀ (x1 : Packet) (s : State), ∃ t, exec (.sketchRelease x1) s = .next t ∧ t =
      { s with plat := t.plat, host := t.host, net := t.net, inbox := t.inbox, waiting := t.waiting, active := t.active, ssn := t.ssn, resume := t.resume, seqTick := t.seqTick }) ∧
  (∀ (x1 : Packet) (s : State), ∃ t, exec (.seqClear x1) s = .next t ∧ t =
      { s with sup := t.sup, hs := t.hs, sq := t.sq, host := t.host, net := t.net, inbox := t.inbox, waiting := t.waiting, ssn := t.ssn, resume := t.resume, seqTick := t.seqTick, store := t.store, health := t.health }) ∧
  (∀ (x1 : Packet) (s : State), ∃ t, exec (.kernelStart x1) s = .next t ∧ t =
      { s with port := t.port, core := t.core, host := t.host, net := t.net, inbox := t.inbox, waiting := t.waiting, active := t.active, ssn := t.ssn, resume := t.resume, seqTick := t.seqTick, bg := t.bg, store := t.store } ∧
      (∀ m : PortId, t.port[m] = { s.port[m] with pd := t.port[m].pd, ct := t.port[m].ct })) ∧
  (∀ (x1 : Packet) (s : State), ∃ t, exec (.kernelUnload x1) s = .next t ∧ t =
      { s with port := t.port, core := t.core, host := t.host, net := t.net, inbox := t.inbox, waiting := t.waiting, active := t.active, ssn := t.ssn, resume := t.resume, seqTick := t.seqTick, bg := t.bg, store := t.store } ∧
      (∀ m : PortId, t.port[m] = { s.port[m] with pd := t.port[m].pd, ct := t.port[m].ct })) ∧
  (∀ (x1 : Packet) (s : State), ∃ t, exec (.bankSelect x1) s = .next t ∧ t =
      { s with sup := t.sup, time := t.time, port := t.port, plat := t.plat, core := t.core, host := t.host, net := t.net, inbox := t.inbox, waiting := t.waiting, active := t.active, ssn := t.ssn, resume := t.resume, seqTick := t.seqTick, store := t.store, verify := t.verify } ∧
      (∀ m : PortId, t.port[m] = { s.port[m] with rs := t.port[m].rs, alt := t.port[m].alt }))

/-- Each of these commands answers a next state, in every state, and leaves every field of the state alone but those the
equation names: vcpFault, resetN, sbWatchdog, platformWatchdog, linkReturn, holdOverLimit, takeBack, restartBegin,
selftestDone, cadTick, generatedTick, frmMarker, superframeStart, channelMatch, bpFastTrip, breakerFault, inrTo,
bpReverseTrip, feedLost, warnNAssert, hsBookingRequest, railQualify, sqFeedAlloff, sqPeerAlloff, sqRailFault, sqPgFilter,
upToExpiry, sqCinFall, sqHostShutdown, sqRetiRise, retToExpiry, disToExpiry, railDischarged, converterStartCheck,
dacReadback, tsrcdisconnect, vbusLoss, pathGrantLimit, portFastTrip, portReverseTrip, i2tTrip, cpgLost, closeFail,
dischargeTimeout, hardwareTestFail, calResult, rpairEstimate, psRdy, newSourceVbusReady, prSwapRoleTimeout,
turntableTimeout, bookingRetry, frsStandbyDetach, scriptWrite, scriptWriteRetry, arbitrationLoss, auxBusStuck, pdMessage,
softReset, sinktxDiscard, goodcrc, treceive, chunkRequest, chunkTimer, hardResetSend, hardResetReceived, sinkVbusWait,
tnoresponse, accept, policyTimer, sampleInstant, storeProgramStart, pageProgramDone, programAbandon, laneFrameBoundary,
kernelBudget, claim, release, claimBreak, writeRegs, altMode, format, logClear, selftest, sketchTrigger, sketchRelease,
seqClear, kernelStart, kernelUnload, bankSelect. -/
def Obligations.FramesOfDeepEffects : Prop :=
  framesOfDeepEffects1 ∧ framesOfDeepEffects2 ∧ framesOfDeepEffects3 ∧ framesOfDeepEffects4 ∧ framesOfDeepEffects5 ∧ framesOfDeepEffects6 ∧ framesOfDeepEffects7 ∧ framesOfDeepEffects8 ∧ framesOfDeepEffects9
end

