-- ==== Sys2Proof/Laws/State.lean ====
section
/-! SUPPORT. What each update of State leaves alone: one lemma per field and update, true by unfolding. -/
namespace Sys2Proof.Machine

/-! ### The parts of State -/

@[simp] theorem State.modPort_fuse (s : State) (n : PortId) (f : Port → Port) : (s.modPort n f).fuse = s.fuse := (rfl)
@[simp] theorem State.modPort_sup (s : State) (n : PortId) (f : Port → Port) : (s.modPort n f).sup = s.sup := (rfl)
@[simp] theorem State.modPort_time (s : State) (n : PortId) (f : Port → Port) : (s.modPort n f).time = s.time := (rfl)
@[simp] theorem State.modPort_chan (s : State) (n : PortId) (f : Port → Port) : (s.modPort n f).chan = s.chan := (rfl)
@[simp] theorem State.modPort_tt (s : State) (n : PortId) (f : Port → Port) : (s.modPort n f).tt = s.tt := (rfl)
@[simp] theorem State.modPort_hs (s : State) (n : PortId) (f : Port → Port) : (s.modPort n f).hs = s.hs := (rfl)
@[simp] theorem State.modPort_sq (s : State) (n : PortId) (f : Port → Port) : (s.modPort n f).sq = s.sq := (rfl)
@[simp] theorem State.modPort_plat (s : State) (n : PortId) (f : Port → Port) : (s.modPort n f).plat = s.plat := (rfl)
@[simp] theorem State.modPort_core (s : State) (n : PortId) (f : Port → Port) : (s.modPort n f).core = s.core := (rfl)
@[simp] theorem State.modPort_sidx (s : State) (n : PortId) (f : Port → Port) : (s.modPort n f).sidx = s.sidx := (rfl)
@[simp] theorem State.modPort_phase (s : State) (n : PortId) (f : Port → Port) : (s.modPort n f).phase = s.phase := (rfl)
@[simp] theorem State.modPort_snapCt (s : State) (n : PortId) (f : Port → Port) : (s.modPort n f).snapCt = s.snapCt := (rfl)
@[simp] theorem State.modPort_snapPh (s : State) (n : PortId) (f : Port → Port) : (s.modPort n f).snapPh = s.snapPh := (rfl)
@[simp] theorem State.modPort_stamps (s : State) (n : PortId) (f : Port → Port) : (s.modPort n f).stamps = s.stamps := (rfl)
@[simp] theorem State.modPort_firsts (s : State) (n : PortId) (f : Port → Port) : (s.modPort n f).firsts = s.firsts := (rfl)
@[simp] theorem State.modPort_sfHeld (s : State) (n : PortId) (f : Port → Port) : (s.modPort n f).sfHeld = s.sfHeld := (rfl)
@[simp] theorem State.modPort_trips (s : State) (n : PortId) (f : Port → Port) : (s.modPort n f).trips = s.trips := (rfl)
@[simp] theorem State.modPort_sketches (s : State) (n : PortId) (f : Port → Port) : (s.modPort n f).sketches = s.sketches := (rfl)
@[simp] theorem State.modPort_hk (s : State) (n : PortId) (f : Port → Port) : (s.modPort n f).hk = s.hk := (rfl)
@[simp] theorem State.modPort_host (s : State) (n : PortId) (f : Port → Port) : (s.modPort n f).host = s.host := (rfl)
@[simp] theorem State.modPort_tw (s : State) (n : PortId) (f : Port → Port) : (s.modPort n f).tw = s.tw := (rfl)
@[simp] theorem State.modPort_loc (s : State) (n : PortId) (f : Port → Port) : (s.modPort n f).loc = s.loc := (rfl)
@[simp] theorem State.modPort_net (s : State) (n : PortId) (f : Port → Port) : (s.modPort n f).net = s.net := (rfl)
@[simp] theorem State.modPort_inbox (s : State) (n : PortId) (f : Port → Port) : (s.modPort n f).inbox = s.inbox := (rfl)
@[simp] theorem State.modPort_waiting (s : State) (n : PortId) (f : Port → Port) : (s.modPort n f).waiting = s.waiting := (rfl)
@[simp] theorem State.modPort_active (s : State) (n : PortId) (f : Port → Port) : (s.modPort n f).active = s.active := (rfl)
@[simp] theorem State.modPort_claim (s : State) (n : PortId) (f : Port → Port) : (s.modPort n f).claim = s.claim := (rfl)
@[simp] theorem State.modPort_ssn (s : State) (n : PortId) (f : Port → Port) : (s.modPort n f).ssn = s.ssn := (rfl)
@[simp] theorem State.modPort_resume (s : State) (n : PortId) (f : Port → Port) : (s.modPort n f).resume = s.resume := (rfl)
@[simp] theorem State.modPort_seqTick (s : State) (n : PortId) (f : Port → Port) : (s.modPort n f).seqTick = s.seqTick := (rfl)
@[simp] theorem State.modPort_setFail (s : State) (n : PortId) (f : Port → Port) : (s.modPort n f).setFail = s.setFail := (rfl)
@[simp] theorem State.modPort_bg (s : State) (n : PortId) (f : Port → Port) : (s.modPort n f).bg = s.bg := (rfl)
@[simp] theorem State.modPort_store (s : State) (n : PortId) (f : Port → Port) : (s.modPort n f).store = s.store := (rfl)
@[simp] theorem State.modPort_bankA (s : State) (n : PortId) (f : Port → Port) : (s.modPort n f).bankA = s.bankA := (rfl)
@[simp] theorem State.modPort_bankB (s : State) (n : PortId) (f : Port → Port) : (s.modPort n f).bankB = s.bankB := (rfl)
@[simp] theorem State.modPort_verify (s : State) (n : PortId) (f : Port → Port) : (s.modPort n f).verify = s.verify := (rfl)
@[simp] theorem State.modPort_advance (s : State) (n : PortId) (f : Port → Port) : (s.modPort n f).advance = s.advance := (rfl)
@[simp] theorem State.modPort_points (s : State) (n : PortId) (f : Port → Port) : (s.modPort n f).points = s.points := (rfl)
@[simp] theorem State.modPort_health (s : State) (n : PortId) (f : Port → Port) : (s.modPort n f).health = s.health := (rfl)
@[simp] theorem State.modPort_pending (s : State) (n : PortId) (f : Port → Port) : (s.modPort n f).pending = s.pending := (rfl)
@[simp] theorem State.modPort_fresh (s : State) (n : PortId) (f : Port → Port) : (s.modPort n f).fresh = s.fresh := (rfl)

@[simp] theorem State.modChan_fuse (s : State) (c : Fin 128) (f : Channel → Channel) : (s.modChan c f).fuse = s.fuse := (rfl)
@[simp] theorem State.modChan_sup (s : State) (c : Fin 128) (f : Channel → Channel) : (s.modChan c f).sup = s.sup := (rfl)
@[simp] theorem State.modChan_time (s : State) (c : Fin 128) (f : Channel → Channel) : (s.modChan c f).time = s.time := (rfl)
@[simp] theorem State.modChan_tt (s : State) (c : Fin 128) (f : Channel → Channel) : (s.modChan c f).tt = s.tt := (rfl)
@[simp] theorem State.modChan_hs (s : State) (c : Fin 128) (f : Channel → Channel) : (s.modChan c f).hs = s.hs := (rfl)
@[simp] theorem State.modChan_sq (s : State) (c : Fin 128) (f : Channel → Channel) : (s.modChan c f).sq = s.sq := (rfl)
@[simp] theorem State.modChan_port (s : State) (c : Fin 128) (f : Channel → Channel) : (s.modChan c f).port = s.port := (rfl)
@[simp] theorem State.modChan_plat (s : State) (c : Fin 128) (f : Channel → Channel) : (s.modChan c f).plat = s.plat := (rfl)
@[simp] theorem State.modChan_core (s : State) (c : Fin 128) (f : Channel → Channel) : (s.modChan c f).core = s.core := (rfl)
@[simp] theorem State.modChan_sidx (s : State) (c : Fin 128) (f : Channel → Channel) : (s.modChan c f).sidx = s.sidx := (rfl)
@[simp] theorem State.modChan_phase (s : State) (c : Fin 128) (f : Channel → Channel) : (s.modChan c f).phase = s.phase := (rfl)
@[simp] theorem State.modChan_snapCt (s : State) (c : Fin 128) (f : Channel → Channel) : (s.modChan c f).snapCt = s.snapCt := (rfl)
@[simp] theorem State.modChan_snapPh (s : State) (c : Fin 128) (f : Channel → Channel) : (s.modChan c f).snapPh = s.snapPh := (rfl)
@[simp] theorem State.modChan_stamps (s : State) (c : Fin 128) (f : Channel → Channel) : (s.modChan c f).stamps = s.stamps := (rfl)
@[simp] theorem State.modChan_firsts (s : State) (c : Fin 128) (f : Channel → Channel) : (s.modChan c f).firsts = s.firsts := (rfl)
@[simp] theorem State.modChan_sfHeld (s : State) (c : Fin 128) (f : Channel → Channel) : (s.modChan c f).sfHeld = s.sfHeld := (rfl)
@[simp] theorem State.modChan_trips (s : State) (c : Fin 128) (f : Channel → Channel) : (s.modChan c f).trips = s.trips := (rfl)
@[simp] theorem State.modChan_sketches (s : State) (c : Fin 128) (f : Channel → Channel) : (s.modChan c f).sketches = s.sketches := (rfl)
@[simp] theorem State.modChan_hk (s : State) (c : Fin 128) (f : Channel → Channel) : (s.modChan c f).hk = s.hk := (rfl)
@[simp] theorem State.modChan_host (s : State) (c : Fin 128) (f : Channel → Channel) : (s.modChan c f).host = s.host := (rfl)
@[simp] theorem State.modChan_tw (s : State) (c : Fin 128) (f : Channel → Channel) : (s.modChan c f).tw = s.tw := (rfl)
@[simp] theorem State.modChan_loc (s : State) (c : Fin 128) (f : Channel → Channel) : (s.modChan c f).loc = s.loc := (rfl)
@[simp] theorem State.modChan_net (s : State) (c : Fin 128) (f : Channel → Channel) : (s.modChan c f).net = s.net := (rfl)
@[simp] theorem State.modChan_inbox (s : State) (c : Fin 128) (f : Channel → Channel) : (s.modChan c f).inbox = s.inbox := (rfl)
@[simp] theorem State.modChan_waiting (s : State) (c : Fin 128) (f : Channel → Channel) : (s.modChan c f).waiting = s.waiting := (rfl)
@[simp] theorem State.modChan_active (s : State) (c : Fin 128) (f : Channel → Channel) : (s.modChan c f).active = s.active := (rfl)
@[simp] theorem State.modChan_claim (s : State) (c : Fin 128) (f : Channel → Channel) : (s.modChan c f).claim = s.claim := (rfl)
@[simp] theorem State.modChan_ssn (s : State) (c : Fin 128) (f : Channel → Channel) : (s.modChan c f).ssn = s.ssn := (rfl)
@[simp] theorem State.modChan_resume (s : State) (c : Fin 128) (f : Channel → Channel) : (s.modChan c f).resume = s.resume := (rfl)
@[simp] theorem State.modChan_seqTick (s : State) (c : Fin 128) (f : Channel → Channel) : (s.modChan c f).seqTick = s.seqTick := (rfl)
@[simp] theorem State.modChan_setFail (s : State) (c : Fin 128) (f : Channel → Channel) : (s.modChan c f).setFail = s.setFail := (rfl)
@[simp] theorem State.modChan_bg (s : State) (c : Fin 128) (f : Channel → Channel) : (s.modChan c f).bg = s.bg := (rfl)
@[simp] theorem State.modChan_store (s : State) (c : Fin 128) (f : Channel → Channel) : (s.modChan c f).store = s.store := (rfl)
@[simp] theorem State.modChan_bankA (s : State) (c : Fin 128) (f : Channel → Channel) : (s.modChan c f).bankA = s.bankA := (rfl)
@[simp] theorem State.modChan_bankB (s : State) (c : Fin 128) (f : Channel → Channel) : (s.modChan c f).bankB = s.bankB := (rfl)
@[simp] theorem State.modChan_verify (s : State) (c : Fin 128) (f : Channel → Channel) : (s.modChan c f).verify = s.verify := (rfl)
@[simp] theorem State.modChan_advance (s : State) (c : Fin 128) (f : Channel → Channel) : (s.modChan c f).advance = s.advance := (rfl)
@[simp] theorem State.modChan_points (s : State) (c : Fin 128) (f : Channel → Channel) : (s.modChan c f).points = s.points := (rfl)
@[simp] theorem State.modChan_health (s : State) (c : Fin 128) (f : Channel → Channel) : (s.modChan c f).health = s.health := (rfl)
@[simp] theorem State.modChan_pending (s : State) (c : Fin 128) (f : Channel → Channel) : (s.modChan c f).pending = s.pending := (rfl)
@[simp] theorem State.modChan_fresh (s : State) (c : Fin 128) (f : Channel → Channel) : (s.modChan c f).fresh = s.fresh := (rfl)

@[simp] theorem State.modPlat_fuse (s : State) (k : PlatId) (f : Platform → Platform) : (s.modPlat k f).fuse = s.fuse := (rfl)
@[simp] theorem State.modPlat_sup (s : State) (k : PlatId) (f : Platform → Platform) : (s.modPlat k f).sup = s.sup := (rfl)
@[simp] theorem State.modPlat_time (s : State) (k : PlatId) (f : Platform → Platform) : (s.modPlat k f).time = s.time := (rfl)
@[simp] theorem State.modPlat_chan (s : State) (k : PlatId) (f : Platform → Platform) : (s.modPlat k f).chan = s.chan := (rfl)
@[simp] theorem State.modPlat_tt (s : State) (k : PlatId) (f : Platform → Platform) : (s.modPlat k f).tt = s.tt := (rfl)
@[simp] theorem State.modPlat_hs (s : State) (k : PlatId) (f : Platform → Platform) : (s.modPlat k f).hs = s.hs := (rfl)
@[simp] theorem State.modPlat_sq (s : State) (k : PlatId) (f : Platform → Platform) : (s.modPlat k f).sq = s.sq := (rfl)
@[simp] theorem State.modPlat_port (s : State) (k : PlatId) (f : Platform → Platform) : (s.modPlat k f).port = s.port := (rfl)
@[simp] theorem State.modPlat_core (s : State) (k : PlatId) (f : Platform → Platform) : (s.modPlat k f).core = s.core := (rfl)
@[simp] theorem State.modPlat_sidx (s : State) (k : PlatId) (f : Platform → Platform) : (s.modPlat k f).sidx = s.sidx := (rfl)
@[simp] theorem State.modPlat_phase (s : State) (k : PlatId) (f : Platform → Platform) : (s.modPlat k f).phase = s.phase := (rfl)
@[simp] theorem State.modPlat_snapCt (s : State) (k : PlatId) (f : Platform → Platform) : (s.modPlat k f).snapCt = s.snapCt := (rfl)
@[simp] theorem State.modPlat_snapPh (s : State) (k : PlatId) (f : Platform → Platform) : (s.modPlat k f).snapPh = s.snapPh := (rfl)
@[simp] theorem State.modPlat_stamps (s : State) (k : PlatId) (f : Platform → Platform) : (s.modPlat k f).stamps = s.stamps := (rfl)
@[simp] theorem State.modPlat_firsts (s : State) (k : PlatId) (f : Platform → Platform) : (s.modPlat k f).firsts = s.firsts := (rfl)
@[simp] theorem State.modPlat_sfHeld (s : State) (k : PlatId) (f : Platform → Platform) : (s.modPlat k f).sfHeld = s.sfHeld := (rfl)
@[simp] theorem State.modPlat_trips (s : State) (k : PlatId) (f : Platform → Platform) : (s.modPlat k f).trips = s.trips := (rfl)
@[simp] theorem State.modPlat_sketches (s : State) (k : PlatId) (f : Platform → Platform) : (s.modPlat k f).sketches = s.sketches := (rfl)
@[simp] theorem State.modPlat_hk (s : State) (k : PlatId) (f : Platform → Platform) : (s.modPlat k f).hk = s.hk := (rfl)
@[simp] theorem State.modPlat_host (s : State) (k : PlatId) (f : Platform → Platform) : (s.modPlat k f).host = s.host := (rfl)
@[simp] theorem State.modPlat_tw (s : State) (k : PlatId) (f : Platform → Platform) : (s.modPlat k f).tw = s.tw := (rfl)
@[simp] theorem State.modPlat_loc (s : State) (k : PlatId) (f : Platform → Platform) : (s.modPlat k f).loc = s.loc := (rfl)
@[simp] theorem State.modPlat_net (s : State) (k : PlatId) (f : Platform → Platform) : (s.modPlat k f).net = s.net := (rfl)
@[simp] theorem State.modPlat_inbox (s : State) (k : PlatId) (f : Platform → Platform) : (s.modPlat k f).inbox = s.inbox := (rfl)
@[simp] theorem State.modPlat_waiting (s : State) (k : PlatId) (f : Platform → Platform) : (s.modPlat k f).waiting = s.waiting := (rfl)
@[simp] theorem State.modPlat_active (s : State) (k : PlatId) (f : Platform → Platform) : (s.modPlat k f).active = s.active := (rfl)
@[simp] theorem State.modPlat_claim (s : State) (k : PlatId) (f : Platform → Platform) : (s.modPlat k f).claim = s.claim := (rfl)
@[simp] theorem State.modPlat_ssn (s : State) (k : PlatId) (f : Platform → Platform) : (s.modPlat k f).ssn = s.ssn := (rfl)
@[simp] theorem State.modPlat_resume (s : State) (k : PlatId) (f : Platform → Platform) : (s.modPlat k f).resume = s.resume := (rfl)
@[simp] theorem State.modPlat_seqTick (s : State) (k : PlatId) (f : Platform → Platform) : (s.modPlat k f).seqTick = s.seqTick := (rfl)
@[simp] theorem State.modPlat_setFail (s : State) (k : PlatId) (f : Platform → Platform) : (s.modPlat k f).setFail = s.setFail := (rfl)
@[simp] theorem State.modPlat_bg (s : State) (k : PlatId) (f : Platform → Platform) : (s.modPlat k f).bg = s.bg := (rfl)
@[simp] theorem State.modPlat_store (s : State) (k : PlatId) (f : Platform → Platform) : (s.modPlat k f).store = s.store := (rfl)
@[simp] theorem State.modPlat_bankA (s : State) (k : PlatId) (f : Platform → Platform) : (s.modPlat k f).bankA = s.bankA := (rfl)
@[simp] theorem State.modPlat_bankB (s : State) (k : PlatId) (f : Platform → Platform) : (s.modPlat k f).bankB = s.bankB := (rfl)
@[simp] theorem State.modPlat_verify (s : State) (k : PlatId) (f : Platform → Platform) : (s.modPlat k f).verify = s.verify := (rfl)
@[simp] theorem State.modPlat_advance (s : State) (k : PlatId) (f : Platform → Platform) : (s.modPlat k f).advance = s.advance := (rfl)
@[simp] theorem State.modPlat_points (s : State) (k : PlatId) (f : Platform → Platform) : (s.modPlat k f).points = s.points := (rfl)
@[simp] theorem State.modPlat_health (s : State) (k : PlatId) (f : Platform → Platform) : (s.modPlat k f).health = s.health := (rfl)
@[simp] theorem State.modPlat_pending (s : State) (k : PlatId) (f : Platform → Platform) : (s.modPlat k f).pending = s.pending := (rfl)
@[simp] theorem State.modPlat_fresh (s : State) (k : PlatId) (f : Platform → Platform) : (s.modPlat k f).fresh = s.fresh := (rfl)

@[simp] theorem State.modCore_fuse (s : State) (c : CoreId) (f : VCore → VCore) : (s.modCore c f).fuse = s.fuse := (rfl)
@[simp] theorem State.modCore_sup (s : State) (c : CoreId) (f : VCore → VCore) : (s.modCore c f).sup = s.sup := (rfl)
@[simp] theorem State.modCore_time (s : State) (c : CoreId) (f : VCore → VCore) : (s.modCore c f).time = s.time := (rfl)
@[simp] theorem State.modCore_chan (s : State) (c : CoreId) (f : VCore → VCore) : (s.modCore c f).chan = s.chan := (rfl)
@[simp] theorem State.modCore_tt (s : State) (c : CoreId) (f : VCore → VCore) : (s.modCore c f).tt = s.tt := (rfl)
@[simp] theorem State.modCore_hs (s : State) (c : CoreId) (f : VCore → VCore) : (s.modCore c f).hs = s.hs := (rfl)
@[simp] theorem State.modCore_sq (s : State) (c : CoreId) (f : VCore → VCore) : (s.modCore c f).sq = s.sq := (rfl)
@[simp] theorem State.modCore_port (s : State) (c : CoreId) (f : VCore → VCore) : (s.modCore c f).port = s.port := (rfl)
@[simp] theorem State.modCore_plat (s : State) (c : CoreId) (f : VCore → VCore) : (s.modCore c f).plat = s.plat := (rfl)
@[simp] theorem State.modCore_sidx (s : State) (c : CoreId) (f : VCore → VCore) : (s.modCore c f).sidx = s.sidx := (rfl)
@[simp] theorem State.modCore_phase (s : State) (c : CoreId) (f : VCore → VCore) : (s.modCore c f).phase = s.phase := (rfl)
@[simp] theorem State.modCore_snapCt (s : State) (c : CoreId) (f : VCore → VCore) : (s.modCore c f).snapCt = s.snapCt := (rfl)
@[simp] theorem State.modCore_snapPh (s : State) (c : CoreId) (f : VCore → VCore) : (s.modCore c f).snapPh = s.snapPh := (rfl)
@[simp] theorem State.modCore_stamps (s : State) (c : CoreId) (f : VCore → VCore) : (s.modCore c f).stamps = s.stamps := (rfl)
@[simp] theorem State.modCore_firsts (s : State) (c : CoreId) (f : VCore → VCore) : (s.modCore c f).firsts = s.firsts := (rfl)
@[simp] theorem State.modCore_sfHeld (s : State) (c : CoreId) (f : VCore → VCore) : (s.modCore c f).sfHeld = s.sfHeld := (rfl)
@[simp] theorem State.modCore_trips (s : State) (c : CoreId) (f : VCore → VCore) : (s.modCore c f).trips = s.trips := (rfl)
@[simp] theorem State.modCore_sketches (s : State) (c : CoreId) (f : VCore → VCore) : (s.modCore c f).sketches = s.sketches := (rfl)
@[simp] theorem State.modCore_hk (s : State) (c : CoreId) (f : VCore → VCore) : (s.modCore c f).hk = s.hk := (rfl)
@[simp] theorem State.modCore_host (s : State) (c : CoreId) (f : VCore → VCore) : (s.modCore c f).host = s.host := (rfl)
@[simp] theorem State.modCore_tw (s : State) (c : CoreId) (f : VCore → VCore) : (s.modCore c f).tw = s.tw := (rfl)
@[simp] theorem State.modCore_loc (s : State) (c : CoreId) (f : VCore → VCore) : (s.modCore c f).loc = s.loc := (rfl)
@[simp] theorem State.modCore_net (s : State) (c : CoreId) (f : VCore → VCore) : (s.modCore c f).net = s.net := (rfl)
@[simp] theorem State.modCore_inbox (s : State) (c : CoreId) (f : VCore → VCore) : (s.modCore c f).inbox = s.inbox := (rfl)
@[simp] theorem State.modCore_waiting (s : State) (c : CoreId) (f : VCore → VCore) : (s.modCore c f).waiting = s.waiting := (rfl)
@[simp] theorem State.modCore_active (s : State) (c : CoreId) (f : VCore → VCore) : (s.modCore c f).active = s.active := (rfl)
@[simp] theorem State.modCore_claim (s : State) (c : CoreId) (f : VCore → VCore) : (s.modCore c f).claim = s.claim := (rfl)
@[simp] theorem State.modCore_ssn (s : State) (c : CoreId) (f : VCore → VCore) : (s.modCore c f).ssn = s.ssn := (rfl)
@[simp] theorem State.modCore_resume (s : State) (c : CoreId) (f : VCore → VCore) : (s.modCore c f).resume = s.resume := (rfl)
@[simp] theorem State.modCore_seqTick (s : State) (c : CoreId) (f : VCore → VCore) : (s.modCore c f).seqTick = s.seqTick := (rfl)
@[simp] theorem State.modCore_setFail (s : State) (c : CoreId) (f : VCore → VCore) : (s.modCore c f).setFail = s.setFail := (rfl)
@[simp] theorem State.modCore_bg (s : State) (c : CoreId) (f : VCore → VCore) : (s.modCore c f).bg = s.bg := (rfl)
@[simp] theorem State.modCore_store (s : State) (c : CoreId) (f : VCore → VCore) : (s.modCore c f).store = s.store := (rfl)
@[simp] theorem State.modCore_bankA (s : State) (c : CoreId) (f : VCore → VCore) : (s.modCore c f).bankA = s.bankA := (rfl)
@[simp] theorem State.modCore_bankB (s : State) (c : CoreId) (f : VCore → VCore) : (s.modCore c f).bankB = s.bankB := (rfl)
@[simp] theorem State.modCore_verify (s : State) (c : CoreId) (f : VCore → VCore) : (s.modCore c f).verify = s.verify := (rfl)
@[simp] theorem State.modCore_advance (s : State) (c : CoreId) (f : VCore → VCore) : (s.modCore c f).advance = s.advance := (rfl)
@[simp] theorem State.modCore_points (s : State) (c : CoreId) (f : VCore → VCore) : (s.modCore c f).points = s.points := (rfl)
@[simp] theorem State.modCore_health (s : State) (c : CoreId) (f : VCore → VCore) : (s.modCore c f).health = s.health := (rfl)
@[simp] theorem State.modCore_pending (s : State) (c : CoreId) (f : VCore → VCore) : (s.modCore c f).pending = s.pending := (rfl)
@[simp] theorem State.modCore_fresh (s : State) (c : CoreId) (f : VCore → VCore) : (s.modCore c f).fresh = s.fresh := (rfl)

@[simp] theorem State.modHost_fuse (s : State) (h : HostPort) (f : HostFe → HostFe) : (s.modHost h f).fuse = s.fuse := (rfl)
@[simp] theorem State.modHost_sup (s : State) (h : HostPort) (f : HostFe → HostFe) : (s.modHost h f).sup = s.sup := (rfl)
@[simp] theorem State.modHost_time (s : State) (h : HostPort) (f : HostFe → HostFe) : (s.modHost h f).time = s.time := (rfl)
@[simp] theorem State.modHost_chan (s : State) (h : HostPort) (f : HostFe → HostFe) : (s.modHost h f).chan = s.chan := (rfl)
@[simp] theorem State.modHost_tt (s : State) (h : HostPort) (f : HostFe → HostFe) : (s.modHost h f).tt = s.tt := (rfl)
@[simp] theorem State.modHost_hs (s : State) (h : HostPort) (f : HostFe → HostFe) : (s.modHost h f).hs = s.hs := (rfl)
@[simp] theorem State.modHost_sq (s : State) (h : HostPort) (f : HostFe → HostFe) : (s.modHost h f).sq = s.sq := (rfl)
@[simp] theorem State.modHost_port (s : State) (h : HostPort) (f : HostFe → HostFe) : (s.modHost h f).port = s.port := (rfl)
@[simp] theorem State.modHost_plat (s : State) (h : HostPort) (f : HostFe → HostFe) : (s.modHost h f).plat = s.plat := (rfl)
@[simp] theorem State.modHost_core (s : State) (h : HostPort) (f : HostFe → HostFe) : (s.modHost h f).core = s.core := (rfl)
@[simp] theorem State.modHost_sidx (s : State) (h : HostPort) (f : HostFe → HostFe) : (s.modHost h f).sidx = s.sidx := (rfl)
@[simp] theorem State.modHost_phase (s : State) (h : HostPort) (f : HostFe → HostFe) : (s.modHost h f).phase = s.phase := (rfl)
@[simp] theorem State.modHost_snapCt (s : State) (h : HostPort) (f : HostFe → HostFe) : (s.modHost h f).snapCt = s.snapCt := (rfl)
@[simp] theorem State.modHost_snapPh (s : State) (h : HostPort) (f : HostFe → HostFe) : (s.modHost h f).snapPh = s.snapPh := (rfl)
@[simp] theorem State.modHost_stamps (s : State) (h : HostPort) (f : HostFe → HostFe) : (s.modHost h f).stamps = s.stamps := (rfl)
@[simp] theorem State.modHost_firsts (s : State) (h : HostPort) (f : HostFe → HostFe) : (s.modHost h f).firsts = s.firsts := (rfl)
@[simp] theorem State.modHost_sfHeld (s : State) (h : HostPort) (f : HostFe → HostFe) : (s.modHost h f).sfHeld = s.sfHeld := (rfl)
@[simp] theorem State.modHost_trips (s : State) (h : HostPort) (f : HostFe → HostFe) : (s.modHost h f).trips = s.trips := (rfl)
@[simp] theorem State.modHost_sketches (s : State) (h : HostPort) (f : HostFe → HostFe) : (s.modHost h f).sketches = s.sketches := (rfl)
@[simp] theorem State.modHost_hk (s : State) (h : HostPort) (f : HostFe → HostFe) : (s.modHost h f).hk = s.hk := (rfl)
@[simp] theorem State.modHost_tw (s : State) (h : HostPort) (f : HostFe → HostFe) : (s.modHost h f).tw = s.tw := (rfl)
@[simp] theorem State.modHost_loc (s : State) (h : HostPort) (f : HostFe → HostFe) : (s.modHost h f).loc = s.loc := (rfl)
@[simp] theorem State.modHost_net (s : State) (h : HostPort) (f : HostFe → HostFe) : (s.modHost h f).net = s.net := (rfl)
@[simp] theorem State.modHost_inbox (s : State) (h : HostPort) (f : HostFe → HostFe) : (s.modHost h f).inbox = s.inbox := (rfl)
@[simp] theorem State.modHost_waiting (s : State) (h : HostPort) (f : HostFe → HostFe) : (s.modHost h f).waiting = s.waiting := (rfl)
@[simp] theorem State.modHost_active (s : State) (h : HostPort) (f : HostFe → HostFe) : (s.modHost h f).active = s.active := (rfl)
@[simp] theorem State.modHost_claim (s : State) (h : HostPort) (f : HostFe → HostFe) : (s.modHost h f).claim = s.claim := (rfl)
@[simp] theorem State.modHost_ssn (s : State) (h : HostPort) (f : HostFe → HostFe) : (s.modHost h f).ssn = s.ssn := (rfl)
@[simp] theorem State.modHost_resume (s : State) (h : HostPort) (f : HostFe → HostFe) : (s.modHost h f).resume = s.resume := (rfl)
@[simp] theorem State.modHost_seqTick (s : State) (h : HostPort) (f : HostFe → HostFe) : (s.modHost h f).seqTick = s.seqTick := (rfl)
@[simp] theorem State.modHost_setFail (s : State) (h : HostPort) (f : HostFe → HostFe) : (s.modHost h f).setFail = s.setFail := (rfl)
@[simp] theorem State.modHost_bg (s : State) (h : HostPort) (f : HostFe → HostFe) : (s.modHost h f).bg = s.bg := (rfl)
@[simp] theorem State.modHost_store (s : State) (h : HostPort) (f : HostFe → HostFe) : (s.modHost h f).store = s.store := (rfl)
@[simp] theorem State.modHost_bankA (s : State) (h : HostPort) (f : HostFe → HostFe) : (s.modHost h f).bankA = s.bankA := (rfl)
@[simp] theorem State.modHost_bankB (s : State) (h : HostPort) (f : HostFe → HostFe) : (s.modHost h f).bankB = s.bankB := (rfl)
@[simp] theorem State.modHost_verify (s : State) (h : HostPort) (f : HostFe → HostFe) : (s.modHost h f).verify = s.verify := (rfl)
@[simp] theorem State.modHost_advance (s : State) (h : HostPort) (f : HostFe → HostFe) : (s.modHost h f).advance = s.advance := (rfl)
@[simp] theorem State.modHost_points (s : State) (h : HostPort) (f : HostFe → HostFe) : (s.modHost h f).points = s.points := (rfl)
@[simp] theorem State.modHost_health (s : State) (h : HostPort) (f : HostFe → HostFe) : (s.modHost h f).health = s.health := (rfl)
@[simp] theorem State.modHost_pending (s : State) (h : HostPort) (f : HostFe → HostFe) : (s.modHost h f).pending = s.pending := (rfl)
@[simp] theorem State.modHost_fresh (s : State) (h : HostPort) (f : HostFe → HostFe) : (s.modHost h f).fresh = s.fresh := (rfl)

@[simp] theorem State.modRail_fuse (s : State) (x : RailId) (f : Rail → Rail) : (s.modRail x f).fuse = s.fuse := (rfl)
@[simp] theorem State.modRail_sup (s : State) (x : RailId) (f : Rail → Rail) : (s.modRail x f).sup = s.sup := (rfl)
@[simp] theorem State.modRail_time (s : State) (x : RailId) (f : Rail → Rail) : (s.modRail x f).time = s.time := (rfl)
@[simp] theorem State.modRail_chan (s : State) (x : RailId) (f : Rail → Rail) : (s.modRail x f).chan = s.chan := (rfl)
@[simp] theorem State.modRail_tt (s : State) (x : RailId) (f : Rail → Rail) : (s.modRail x f).tt = s.tt := (rfl)
@[simp] theorem State.modRail_hs (s : State) (x : RailId) (f : Rail → Rail) : (s.modRail x f).hs = s.hs := (rfl)
@[simp] theorem State.modRail_port (s : State) (x : RailId) (f : Rail → Rail) : (s.modRail x f).port = s.port := (rfl)
@[simp] theorem State.modRail_plat (s : State) (x : RailId) (f : Rail → Rail) : (s.modRail x f).plat = s.plat := (rfl)
@[simp] theorem State.modRail_core (s : State) (x : RailId) (f : Rail → Rail) : (s.modRail x f).core = s.core := (rfl)
@[simp] theorem State.modRail_sidx (s : State) (x : RailId) (f : Rail → Rail) : (s.modRail x f).sidx = s.sidx := (rfl)
@[simp] theorem State.modRail_phase (s : State) (x : RailId) (f : Rail → Rail) : (s.modRail x f).phase = s.phase := (rfl)
@[simp] theorem State.modRail_snapCt (s : State) (x : RailId) (f : Rail → Rail) : (s.modRail x f).snapCt = s.snapCt := (rfl)
@[simp] theorem State.modRail_snapPh (s : State) (x : RailId) (f : Rail → Rail) : (s.modRail x f).snapPh = s.snapPh := (rfl)
@[simp] theorem State.modRail_stamps (s : State) (x : RailId) (f : Rail → Rail) : (s.modRail x f).stamps = s.stamps := (rfl)
@[simp] theorem State.modRail_firsts (s : State) (x : RailId) (f : Rail → Rail) : (s.modRail x f).firsts = s.firsts := (rfl)
@[simp] theorem State.modRail_sfHeld (s : State) (x : RailId) (f : Rail → Rail) : (s.modRail x f).sfHeld = s.sfHeld := (rfl)
@[simp] theorem State.modRail_trips (s : State) (x : RailId) (f : Rail → Rail) : (s.modRail x f).trips = s.trips := (rfl)
@[simp] theorem State.modRail_sketches (s : State) (x : RailId) (f : Rail → Rail) : (s.modRail x f).sketches = s.sketches := (rfl)
@[simp] theorem State.modRail_hk (s : State) (x : RailId) (f : Rail → Rail) : (s.modRail x f).hk = s.hk := (rfl)
@[simp] theorem State.modRail_host (s : State) (x : RailId) (f : Rail → Rail) : (s.modRail x f).host = s.host := (rfl)
@[simp] theorem State.modRail_tw (s : State) (x : RailId) (f : Rail → Rail) : (s.modRail x f).tw = s.tw := (rfl)
@[simp] theorem State.modRail_loc (s : State) (x : RailId) (f : Rail → Rail) : (s.modRail x f).loc = s.loc := (rfl)
@[simp] theorem State.modRail_net (s : State) (x : RailId) (f : Rail → Rail) : (s.modRail x f).net = s.net := (rfl)
@[simp] theorem State.modRail_inbox (s : State) (x : RailId) (f : Rail → Rail) : (s.modRail x f).inbox = s.inbox := (rfl)
@[simp] theorem State.modRail_waiting (s : State) (x : RailId) (f : Rail → Rail) : (s.modRail x f).waiting = s.waiting := (rfl)
@[simp] theorem State.modRail_active (s : State) (x : RailId) (f : Rail → Rail) : (s.modRail x f).active = s.active := (rfl)
@[simp] theorem State.modRail_claim (s : State) (x : RailId) (f : Rail → Rail) : (s.modRail x f).claim = s.claim := (rfl)
@[simp] theorem State.modRail_ssn (s : State) (x : RailId) (f : Rail → Rail) : (s.modRail x f).ssn = s.ssn := (rfl)
@[simp] theorem State.modRail_resume (s : State) (x : RailId) (f : Rail → Rail) : (s.modRail x f).resume = s.resume := (rfl)
@[simp] theorem State.modRail_seqTick (s : State) (x : RailId) (f : Rail → Rail) : (s.modRail x f).seqTick = s.seqTick := (rfl)
@[simp] theorem State.modRail_setFail (s : State) (x : RailId) (f : Rail → Rail) : (s.modRail x f).setFail = s.setFail := (rfl)
@[simp] theorem State.modRail_bg (s : State) (x : RailId) (f : Rail → Rail) : (s.modRail x f).bg = s.bg := (rfl)
@[simp] theorem State.modRail_store (s : State) (x : RailId) (f : Rail → Rail) : (s.modRail x f).store = s.store := (rfl)
@[simp] theorem State.modRail_bankA (s : State) (x : RailId) (f : Rail → Rail) : (s.modRail x f).bankA = s.bankA := (rfl)
@[simp] theorem State.modRail_bankB (s : State) (x : RailId) (f : Rail → Rail) : (s.modRail x f).bankB = s.bankB := (rfl)
@[simp] theorem State.modRail_verify (s : State) (x : RailId) (f : Rail → Rail) : (s.modRail x f).verify = s.verify := (rfl)
@[simp] theorem State.modRail_advance (s : State) (x : RailId) (f : Rail → Rail) : (s.modRail x f).advance = s.advance := (rfl)
@[simp] theorem State.modRail_points (s : State) (x : RailId) (f : Rail → Rail) : (s.modRail x f).points = s.points := (rfl)
@[simp] theorem State.modRail_health (s : State) (x : RailId) (f : Rail → Rail) : (s.modRail x f).health = s.health := (rfl)
@[simp] theorem State.modRail_pending (s : State) (x : RailId) (f : Rail → Rail) : (s.modRail x f).pending = s.pending := (rfl)
@[simp] theorem State.modRail_fresh (s : State) (x : RailId) (f : Rail → Rail) : (s.modRail x f).fresh = s.fresh := (rfl)

@[simp] theorem State.modTc_fuse (s : State) (n : PortId) (f : TypeC → TypeC) : (s.modTc n f).fuse = s.fuse := (rfl)
@[simp] theorem State.modTc_sup (s : State) (n : PortId) (f : TypeC → TypeC) : (s.modTc n f).sup = s.sup := (rfl)
@[simp] theorem State.modTc_time (s : State) (n : PortId) (f : TypeC → TypeC) : (s.modTc n f).time = s.time := (rfl)
@[simp] theorem State.modTc_chan (s : State) (n : PortId) (f : TypeC → TypeC) : (s.modTc n f).chan = s.chan := (rfl)
@[simp] theorem State.modTc_tt (s : State) (n : PortId) (f : TypeC → TypeC) : (s.modTc n f).tt = s.tt := (rfl)
@[simp] theorem State.modTc_hs (s : State) (n : PortId) (f : TypeC → TypeC) : (s.modTc n f).hs = s.hs := (rfl)
@[simp] theorem State.modTc_sq (s : State) (n : PortId) (f : TypeC → TypeC) : (s.modTc n f).sq = s.sq := (rfl)
@[simp] theorem State.modTc_plat (s : State) (n : PortId) (f : TypeC → TypeC) : (s.modTc n f).plat = s.plat := (rfl)
@[simp] theorem State.modTc_core (s : State) (n : PortId) (f : TypeC → TypeC) : (s.modTc n f).core = s.core := (rfl)
@[simp] theorem State.modTc_sidx (s : State) (n : PortId) (f : TypeC → TypeC) : (s.modTc n f).sidx = s.sidx := (rfl)
@[simp] theorem State.modTc_phase (s : State) (n : PortId) (f : TypeC → TypeC) : (s.modTc n f).phase = s.phase := (rfl)
@[simp] theorem State.modTc_snapCt (s : State) (n : PortId) (f : TypeC → TypeC) : (s.modTc n f).snapCt = s.snapCt := (rfl)
@[simp] theorem State.modTc_snapPh (s : State) (n : PortId) (f : TypeC → TypeC) : (s.modTc n f).snapPh = s.snapPh := (rfl)
@[simp] theorem State.modTc_stamps (s : State) (n : PortId) (f : TypeC → TypeC) : (s.modTc n f).stamps = s.stamps := (rfl)
@[simp] theorem State.modTc_firsts (s : State) (n : PortId) (f : TypeC → TypeC) : (s.modTc n f).firsts = s.firsts := (rfl)
@[simp] theorem State.modTc_sfHeld (s : State) (n : PortId) (f : TypeC → TypeC) : (s.modTc n f).sfHeld = s.sfHeld := (rfl)
@[simp] theorem State.modTc_trips (s : State) (n : PortId) (f : TypeC → TypeC) : (s.modTc n f).trips = s.trips := (rfl)
@[simp] theorem State.modTc_sketches (s : State) (n : PortId) (f : TypeC → TypeC) : (s.modTc n f).sketches = s.sketches := (rfl)
@[simp] theorem State.modTc_hk (s : State) (n : PortId) (f : TypeC → TypeC) : (s.modTc n f).hk = s.hk := (rfl)
@[simp] theorem State.modTc_host (s : State) (n : PortId) (f : TypeC → TypeC) : (s.modTc n f).host = s.host := (rfl)
@[simp] theorem State.modTc_tw (s : State) (n : PortId) (f : TypeC → TypeC) : (s.modTc n f).tw = s.tw := (rfl)
@[simp] theorem State.modTc_loc (s : State) (n : PortId) (f : TypeC → TypeC) : (s.modTc n f).loc = s.loc := (rfl)
@[simp] theorem State.modTc_net (s : State) (n : PortId) (f : TypeC → TypeC) : (s.modTc n f).net = s.net := (rfl)
@[simp] theorem State.modTc_inbox (s : State) (n : PortId) (f : TypeC → TypeC) : (s.modTc n f).inbox = s.inbox := (rfl)
@[simp] theorem State.modTc_waiting (s : State) (n : PortId) (f : TypeC → TypeC) : (s.modTc n f).waiting = s.waiting := (rfl)
@[simp] theorem State.modTc_active (s : State) (n : PortId) (f : TypeC → TypeC) : (s.modTc n f).active = s.active := (rfl)
@[simp] theorem State.modTc_claim (s : State) (n : PortId) (f : TypeC → TypeC) : (s.modTc n f).claim = s.claim := (rfl)
@[simp] theorem State.modTc_ssn (s : State) (n : PortId) (f : TypeC → TypeC) : (s.modTc n f).ssn = s.ssn := (rfl)
@[simp] theorem State.modTc_resume (s : State) (n : PortId) (f : TypeC → TypeC) : (s.modTc n f).resume = s.resume := (rfl)
@[simp] theorem State.modTc_seqTick (s : State) (n : PortId) (f : TypeC → TypeC) : (s.modTc n f).seqTick = s.seqTick := (rfl)
@[simp] theorem State.modTc_setFail (s : State) (n : PortId) (f : TypeC → TypeC) : (s.modTc n f).setFail = s.setFail := (rfl)
@[simp] theorem State.modTc_bg (s : State) (n : PortId) (f : TypeC → TypeC) : (s.modTc n f).bg = s.bg := (rfl)
@[simp] theorem State.modTc_store (s : State) (n : PortId) (f : TypeC → TypeC) : (s.modTc n f).store = s.store := (rfl)
@[simp] theorem State.modTc_bankA (s : State) (n : PortId) (f : TypeC → TypeC) : (s.modTc n f).bankA = s.bankA := (rfl)
@[simp] theorem State.modTc_bankB (s : State) (n : PortId) (f : TypeC → TypeC) : (s.modTc n f).bankB = s.bankB := (rfl)
@[simp] theorem State.modTc_verify (s : State) (n : PortId) (f : TypeC → TypeC) : (s.modTc n f).verify = s.verify := (rfl)
@[simp] theorem State.modTc_advance (s : State) (n : PortId) (f : TypeC → TypeC) : (s.modTc n f).advance = s.advance := (rfl)
@[simp] theorem State.modTc_points (s : State) (n : PortId) (f : TypeC → TypeC) : (s.modTc n f).points = s.points := (rfl)
@[simp] theorem State.modTc_health (s : State) (n : PortId) (f : TypeC → TypeC) : (s.modTc n f).health = s.health := (rfl)
@[simp] theorem State.modTc_pending (s : State) (n : PortId) (f : TypeC → TypeC) : (s.modTc n f).pending = s.pending := (rfl)
@[simp] theorem State.modTc_fresh (s : State) (n : PortId) (f : TypeC → TypeC) : (s.modTc n f).fresh = s.fresh := (rfl)

@[simp] theorem State.modPp_fuse (s : State) (n : PortId) (f : Path → Path) : (s.modPp n f).fuse = s.fuse := (rfl)
@[simp] theorem State.modPp_sup (s : State) (n : PortId) (f : Path → Path) : (s.modPp n f).sup = s.sup := (rfl)
@[simp] theorem State.modPp_time (s : State) (n : PortId) (f : Path → Path) : (s.modPp n f).time = s.time := (rfl)
@[simp] theorem State.modPp_chan (s : State) (n : PortId) (f : Path → Path) : (s.modPp n f).chan = s.chan := (rfl)
@[simp] theorem State.modPp_tt (s : State) (n : PortId) (f : Path → Path) : (s.modPp n f).tt = s.tt := (rfl)
@[simp] theorem State.modPp_hs (s : State) (n : PortId) (f : Path → Path) : (s.modPp n f).hs = s.hs := (rfl)
@[simp] theorem State.modPp_sq (s : State) (n : PortId) (f : Path → Path) : (s.modPp n f).sq = s.sq := (rfl)
@[simp] theorem State.modPp_plat (s : State) (n : PortId) (f : Path → Path) : (s.modPp n f).plat = s.plat := (rfl)
@[simp] theorem State.modPp_core (s : State) (n : PortId) (f : Path → Path) : (s.modPp n f).core = s.core := (rfl)
@[simp] theorem State.modPp_sidx (s : State) (n : PortId) (f : Path → Path) : (s.modPp n f).sidx = s.sidx := (rfl)
@[simp] theorem State.modPp_phase (s : State) (n : PortId) (f : Path → Path) : (s.modPp n f).phase = s.phase := (rfl)
@[simp] theorem State.modPp_snapCt (s : State) (n : PortId) (f : Path → Path) : (s.modPp n f).snapCt = s.snapCt := (rfl)
@[simp] theorem State.modPp_snapPh (s : State) (n : PortId) (f : Path → Path) : (s.modPp n f).snapPh = s.snapPh := (rfl)
@[simp] theorem State.modPp_stamps (s : State) (n : PortId) (f : Path → Path) : (s.modPp n f).stamps = s.stamps := (rfl)
@[simp] theorem State.modPp_firsts (s : State) (n : PortId) (f : Path → Path) : (s.modPp n f).firsts = s.firsts := (rfl)
@[simp] theorem State.modPp_sfHeld (s : State) (n : PortId) (f : Path → Path) : (s.modPp n f).sfHeld = s.sfHeld := (rfl)
@[simp] theorem State.modPp_trips (s : State) (n : PortId) (f : Path → Path) : (s.modPp n f).trips = s.trips := (rfl)
@[simp] theorem State.modPp_sketches (s : State) (n : PortId) (f : Path → Path) : (s.modPp n f).sketches = s.sketches := (rfl)
@[simp] theorem State.modPp_hk (s : State) (n : PortId) (f : Path → Path) : (s.modPp n f).hk = s.hk := (rfl)
@[simp] theorem State.modPp_host (s : State) (n : PortId) (f : Path → Path) : (s.modPp n f).host = s.host := (rfl)
@[simp] theorem State.modPp_tw (s : State) (n : PortId) (f : Path → Path) : (s.modPp n f).tw = s.tw := (rfl)
@[simp] theorem State.modPp_loc (s : State) (n : PortId) (f : Path → Path) : (s.modPp n f).loc = s.loc := (rfl)
@[simp] theorem State.modPp_net (s : State) (n : PortId) (f : Path → Path) : (s.modPp n f).net = s.net := (rfl)
@[simp] theorem State.modPp_inbox (s : State) (n : PortId) (f : Path → Path) : (s.modPp n f).inbox = s.inbox := (rfl)
@[simp] theorem State.modPp_waiting (s : State) (n : PortId) (f : Path → Path) : (s.modPp n f).waiting = s.waiting := (rfl)
@[simp] theorem State.modPp_active (s : State) (n : PortId) (f : Path → Path) : (s.modPp n f).active = s.active := (rfl)
@[simp] theorem State.modPp_claim (s : State) (n : PortId) (f : Path → Path) : (s.modPp n f).claim = s.claim := (rfl)
@[simp] theorem State.modPp_ssn (s : State) (n : PortId) (f : Path → Path) : (s.modPp n f).ssn = s.ssn := (rfl)
@[simp] theorem State.modPp_resume (s : State) (n : PortId) (f : Path → Path) : (s.modPp n f).resume = s.resume := (rfl)
@[simp] theorem State.modPp_seqTick (s : State) (n : PortId) (f : Path → Path) : (s.modPp n f).seqTick = s.seqTick := (rfl)
@[simp] theorem State.modPp_setFail (s : State) (n : PortId) (f : Path → Path) : (s.modPp n f).setFail = s.setFail := (rfl)
@[simp] theorem State.modPp_bg (s : State) (n : PortId) (f : Path → Path) : (s.modPp n f).bg = s.bg := (rfl)
@[simp] theorem State.modPp_store (s : State) (n : PortId) (f : Path → Path) : (s.modPp n f).store = s.store := (rfl)
@[simp] theorem State.modPp_bankA (s : State) (n : PortId) (f : Path → Path) : (s.modPp n f).bankA = s.bankA := (rfl)
@[simp] theorem State.modPp_bankB (s : State) (n : PortId) (f : Path → Path) : (s.modPp n f).bankB = s.bankB := (rfl)
@[simp] theorem State.modPp_verify (s : State) (n : PortId) (f : Path → Path) : (s.modPp n f).verify = s.verify := (rfl)
@[simp] theorem State.modPp_advance (s : State) (n : PortId) (f : Path → Path) : (s.modPp n f).advance = s.advance := (rfl)
@[simp] theorem State.modPp_points (s : State) (n : PortId) (f : Path → Path) : (s.modPp n f).points = s.points := (rfl)
@[simp] theorem State.modPp_health (s : State) (n : PortId) (f : Path → Path) : (s.modPp n f).health = s.health := (rfl)
@[simp] theorem State.modPp_pending (s : State) (n : PortId) (f : Path → Path) : (s.modPp n f).pending = s.pending := (rfl)
@[simp] theorem State.modPp_fresh (s : State) (n : PortId) (f : Path → Path) : (s.modPp n f).fresh = s.fresh := (rfl)

@[simp] theorem State.modPd_fuse (s : State) (n : PortId) (f : Pd → Pd) : (s.modPd n f).fuse = s.fuse := (rfl)
@[simp] theorem State.modPd_sup (s : State) (n : PortId) (f : Pd → Pd) : (s.modPd n f).sup = s.sup := (rfl)
@[simp] theorem State.modPd_time (s : State) (n : PortId) (f : Pd → Pd) : (s.modPd n f).time = s.time := (rfl)
@[simp] theorem State.modPd_chan (s : State) (n : PortId) (f : Pd → Pd) : (s.modPd n f).chan = s.chan := (rfl)
@[simp] theorem State.modPd_tt (s : State) (n : PortId) (f : Pd → Pd) : (s.modPd n f).tt = s.tt := (rfl)
@[simp] theorem State.modPd_hs (s : State) (n : PortId) (f : Pd → Pd) : (s.modPd n f).hs = s.hs := (rfl)
@[simp] theorem State.modPd_sq (s : State) (n : PortId) (f : Pd → Pd) : (s.modPd n f).sq = s.sq := (rfl)
@[simp] theorem State.modPd_plat (s : State) (n : PortId) (f : Pd → Pd) : (s.modPd n f).plat = s.plat := (rfl)
@[simp] theorem State.modPd_core (s : State) (n : PortId) (f : Pd → Pd) : (s.modPd n f).core = s.core := (rfl)
@[simp] theorem State.modPd_sidx (s : State) (n : PortId) (f : Pd → Pd) : (s.modPd n f).sidx = s.sidx := (rfl)
@[simp] theorem State.modPd_phase (s : State) (n : PortId) (f : Pd → Pd) : (s.modPd n f).phase = s.phase := (rfl)
@[simp] theorem State.modPd_snapCt (s : State) (n : PortId) (f : Pd → Pd) : (s.modPd n f).snapCt = s.snapCt := (rfl)
@[simp] theorem State.modPd_snapPh (s : State) (n : PortId) (f : Pd → Pd) : (s.modPd n f).snapPh = s.snapPh := (rfl)
@[simp] theorem State.modPd_stamps (s : State) (n : PortId) (f : Pd → Pd) : (s.modPd n f).stamps = s.stamps := (rfl)
@[simp] theorem State.modPd_firsts (s : State) (n : PortId) (f : Pd → Pd) : (s.modPd n f).firsts = s.firsts := (rfl)
@[simp] theorem State.modPd_sfHeld (s : State) (n : PortId) (f : Pd → Pd) : (s.modPd n f).sfHeld = s.sfHeld := (rfl)
@[simp] theorem State.modPd_trips (s : State) (n : PortId) (f : Pd → Pd) : (s.modPd n f).trips = s.trips := (rfl)
@[simp] theorem State.modPd_sketches (s : State) (n : PortId) (f : Pd → Pd) : (s.modPd n f).sketches = s.sketches := (rfl)
@[simp] theorem State.modPd_hk (s : State) (n : PortId) (f : Pd → Pd) : (s.modPd n f).hk = s.hk := (rfl)
@[simp] theorem State.modPd_host (s : State) (n : PortId) (f : Pd → Pd) : (s.modPd n f).host = s.host := (rfl)
@[simp] theorem State.modPd_tw (s : State) (n : PortId) (f : Pd → Pd) : (s.modPd n f).tw = s.tw := (rfl)
@[simp] theorem State.modPd_loc (s : State) (n : PortId) (f : Pd → Pd) : (s.modPd n f).loc = s.loc := (rfl)
@[simp] theorem State.modPd_net (s : State) (n : PortId) (f : Pd → Pd) : (s.modPd n f).net = s.net := (rfl)
@[simp] theorem State.modPd_inbox (s : State) (n : PortId) (f : Pd → Pd) : (s.modPd n f).inbox = s.inbox := (rfl)
@[simp] theorem State.modPd_waiting (s : State) (n : PortId) (f : Pd → Pd) : (s.modPd n f).waiting = s.waiting := (rfl)
@[simp] theorem State.modPd_active (s : State) (n : PortId) (f : Pd → Pd) : (s.modPd n f).active = s.active := (rfl)
@[simp] theorem State.modPd_claim (s : State) (n : PortId) (f : Pd → Pd) : (s.modPd n f).claim = s.claim := (rfl)
@[simp] theorem State.modPd_ssn (s : State) (n : PortId) (f : Pd → Pd) : (s.modPd n f).ssn = s.ssn := (rfl)
@[simp] theorem State.modPd_resume (s : State) (n : PortId) (f : Pd → Pd) : (s.modPd n f).resume = s.resume := (rfl)
@[simp] theorem State.modPd_seqTick (s : State) (n : PortId) (f : Pd → Pd) : (s.modPd n f).seqTick = s.seqTick := (rfl)
@[simp] theorem State.modPd_setFail (s : State) (n : PortId) (f : Pd → Pd) : (s.modPd n f).setFail = s.setFail := (rfl)
@[simp] theorem State.modPd_bg (s : State) (n : PortId) (f : Pd → Pd) : (s.modPd n f).bg = s.bg := (rfl)
@[simp] theorem State.modPd_store (s : State) (n : PortId) (f : Pd → Pd) : (s.modPd n f).store = s.store := (rfl)
@[simp] theorem State.modPd_bankA (s : State) (n : PortId) (f : Pd → Pd) : (s.modPd n f).bankA = s.bankA := (rfl)
@[simp] theorem State.modPd_bankB (s : State) (n : PortId) (f : Pd → Pd) : (s.modPd n f).bankB = s.bankB := (rfl)
@[simp] theorem State.modPd_verify (s : State) (n : PortId) (f : Pd → Pd) : (s.modPd n f).verify = s.verify := (rfl)
@[simp] theorem State.modPd_advance (s : State) (n : PortId) (f : Pd → Pd) : (s.modPd n f).advance = s.advance := (rfl)
@[simp] theorem State.modPd_points (s : State) (n : PortId) (f : Pd → Pd) : (s.modPd n f).points = s.points := (rfl)
@[simp] theorem State.modPd_health (s : State) (n : PortId) (f : Pd → Pd) : (s.modPd n f).health = s.health := (rfl)
@[simp] theorem State.modPd_pending (s : State) (n : PortId) (f : Pd → Pd) : (s.modPd n f).pending = s.pending := (rfl)
@[simp] theorem State.modPd_fresh (s : State) (n : PortId) (f : Pd → Pd) : (s.modPd n f).fresh = s.fresh := (rfl)

@[simp] theorem State.modCt_fuse (s : State) (n : PortId) (f : Contract → Contract) : (s.modCt n f).fuse = s.fuse := (rfl)
@[simp] theorem State.modCt_sup (s : State) (n : PortId) (f : Contract → Contract) : (s.modCt n f).sup = s.sup := (rfl)
@[simp] theorem State.modCt_time (s : State) (n : PortId) (f : Contract → Contract) : (s.modCt n f).time = s.time := (rfl)
@[simp] theorem State.modCt_chan (s : State) (n : PortId) (f : Contract → Contract) : (s.modCt n f).chan = s.chan := (rfl)
@[simp] theorem State.modCt_tt (s : State) (n : PortId) (f : Contract → Contract) : (s.modCt n f).tt = s.tt := (rfl)
@[simp] theorem State.modCt_hs (s : State) (n : PortId) (f : Contract → Contract) : (s.modCt n f).hs = s.hs := (rfl)
@[simp] theorem State.modCt_sq (s : State) (n : PortId) (f : Contract → Contract) : (s.modCt n f).sq = s.sq := (rfl)
@[simp] theorem State.modCt_plat (s : State) (n : PortId) (f : Contract → Contract) : (s.modCt n f).plat = s.plat := (rfl)
@[simp] theorem State.modCt_core (s : State) (n : PortId) (f : Contract → Contract) : (s.modCt n f).core = s.core := (rfl)
@[simp] theorem State.modCt_sidx (s : State) (n : PortId) (f : Contract → Contract) : (s.modCt n f).sidx = s.sidx := (rfl)
@[simp] theorem State.modCt_phase (s : State) (n : PortId) (f : Contract → Contract) : (s.modCt n f).phase = s.phase := (rfl)
@[simp] theorem State.modCt_snapCt (s : State) (n : PortId) (f : Contract → Contract) : (s.modCt n f).snapCt = s.snapCt := (rfl)
@[simp] theorem State.modCt_snapPh (s : State) (n : PortId) (f : Contract → Contract) : (s.modCt n f).snapPh = s.snapPh := (rfl)
@[simp] theorem State.modCt_stamps (s : State) (n : PortId) (f : Contract → Contract) : (s.modCt n f).stamps = s.stamps := (rfl)
@[simp] theorem State.modCt_firsts (s : State) (n : PortId) (f : Contract → Contract) : (s.modCt n f).firsts = s.firsts := (rfl)
@[simp] theorem State.modCt_sfHeld (s : State) (n : PortId) (f : Contract → Contract) : (s.modCt n f).sfHeld = s.sfHeld := (rfl)
@[simp] theorem State.modCt_trips (s : State) (n : PortId) (f : Contract → Contract) : (s.modCt n f).trips = s.trips := (rfl)
@[simp] theorem State.modCt_sketches (s : State) (n : PortId) (f : Contract → Contract) : (s.modCt n f).sketches = s.sketches := (rfl)
@[simp] theorem State.modCt_hk (s : State) (n : PortId) (f : Contract → Contract) : (s.modCt n f).hk = s.hk := (rfl)
@[simp] theorem State.modCt_host (s : State) (n : PortId) (f : Contract → Contract) : (s.modCt n f).host = s.host := (rfl)
@[simp] theorem State.modCt_tw (s : State) (n : PortId) (f : Contract → Contract) : (s.modCt n f).tw = s.tw := (rfl)
@[simp] theorem State.modCt_loc (s : State) (n : PortId) (f : Contract → Contract) : (s.modCt n f).loc = s.loc := (rfl)
@[simp] theorem State.modCt_net (s : State) (n : PortId) (f : Contract → Contract) : (s.modCt n f).net = s.net := (rfl)
@[simp] theorem State.modCt_inbox (s : State) (n : PortId) (f : Contract → Contract) : (s.modCt n f).inbox = s.inbox := (rfl)
@[simp] theorem State.modCt_waiting (s : State) (n : PortId) (f : Contract → Contract) : (s.modCt n f).waiting = s.waiting := (rfl)
@[simp] theorem State.modCt_active (s : State) (n : PortId) (f : Contract → Contract) : (s.modCt n f).active = s.active := (rfl)
@[simp] theorem State.modCt_claim (s : State) (n : PortId) (f : Contract → Contract) : (s.modCt n f).claim = s.claim := (rfl)
@[simp] theorem State.modCt_ssn (s : State) (n : PortId) (f : Contract → Contract) : (s.modCt n f).ssn = s.ssn := (rfl)
@[simp] theorem State.modCt_resume (s : State) (n : PortId) (f : Contract → Contract) : (s.modCt n f).resume = s.resume := (rfl)
@[simp] theorem State.modCt_seqTick (s : State) (n : PortId) (f : Contract → Contract) : (s.modCt n f).seqTick = s.seqTick := (rfl)
@[simp] theorem State.modCt_setFail (s : State) (n : PortId) (f : Contract → Contract) : (s.modCt n f).setFail = s.setFail := (rfl)
@[simp] theorem State.modCt_bg (s : State) (n : PortId) (f : Contract → Contract) : (s.modCt n f).bg = s.bg := (rfl)
@[simp] theorem State.modCt_store (s : State) (n : PortId) (f : Contract → Contract) : (s.modCt n f).store = s.store := (rfl)
@[simp] theorem State.modCt_bankA (s : State) (n : PortId) (f : Contract → Contract) : (s.modCt n f).bankA = s.bankA := (rfl)
@[simp] theorem State.modCt_bankB (s : State) (n : PortId) (f : Contract → Contract) : (s.modCt n f).bankB = s.bankB := (rfl)
@[simp] theorem State.modCt_verify (s : State) (n : PortId) (f : Contract → Contract) : (s.modCt n f).verify = s.verify := (rfl)
@[simp] theorem State.modCt_advance (s : State) (n : PortId) (f : Contract → Contract) : (s.modCt n f).advance = s.advance := (rfl)
@[simp] theorem State.modCt_points (s : State) (n : PortId) (f : Contract → Contract) : (s.modCt n f).points = s.points := (rfl)
@[simp] theorem State.modCt_health (s : State) (n : PortId) (f : Contract → Contract) : (s.modCt n f).health = s.health := (rfl)
@[simp] theorem State.modCt_pending (s : State) (n : PortId) (f : Contract → Contract) : (s.modCt n f).pending = s.pending := (rfl)
@[simp] theorem State.modCt_fresh (s : State) (n : PortId) (f : Contract → Contract) : (s.modCt n f).fresh = s.fresh := (rfl)

@[simp] theorem State.modRs_fuse (s : State) (n : PortId) (f : Swap → Swap) : (s.modRs n f).fuse = s.fuse := (rfl)
@[simp] theorem State.modRs_sup (s : State) (n : PortId) (f : Swap → Swap) : (s.modRs n f).sup = s.sup := (rfl)
@[simp] theorem State.modRs_time (s : State) (n : PortId) (f : Swap → Swap) : (s.modRs n f).time = s.time := (rfl)
@[simp] theorem State.modRs_chan (s : State) (n : PortId) (f : Swap → Swap) : (s.modRs n f).chan = s.chan := (rfl)
@[simp] theorem State.modRs_tt (s : State) (n : PortId) (f : Swap → Swap) : (s.modRs n f).tt = s.tt := (rfl)
@[simp] theorem State.modRs_hs (s : State) (n : PortId) (f : Swap → Swap) : (s.modRs n f).hs = s.hs := (rfl)
@[simp] theorem State.modRs_sq (s : State) (n : PortId) (f : Swap → Swap) : (s.modRs n f).sq = s.sq := (rfl)
@[simp] theorem State.modRs_plat (s : State) (n : PortId) (f : Swap → Swap) : (s.modRs n f).plat = s.plat := (rfl)
@[simp] theorem State.modRs_core (s : State) (n : PortId) (f : Swap → Swap) : (s.modRs n f).core = s.core := (rfl)
@[simp] theorem State.modRs_sidx (s : State) (n : PortId) (f : Swap → Swap) : (s.modRs n f).sidx = s.sidx := (rfl)
@[simp] theorem State.modRs_phase (s : State) (n : PortId) (f : Swap → Swap) : (s.modRs n f).phase = s.phase := (rfl)
@[simp] theorem State.modRs_snapCt (s : State) (n : PortId) (f : Swap → Swap) : (s.modRs n f).snapCt = s.snapCt := (rfl)
@[simp] theorem State.modRs_snapPh (s : State) (n : PortId) (f : Swap → Swap) : (s.modRs n f).snapPh = s.snapPh := (rfl)
@[simp] theorem State.modRs_stamps (s : State) (n : PortId) (f : Swap → Swap) : (s.modRs n f).stamps = s.stamps := (rfl)
@[simp] theorem State.modRs_firsts (s : State) (n : PortId) (f : Swap → Swap) : (s.modRs n f).firsts = s.firsts := (rfl)
@[simp] theorem State.modRs_sfHeld (s : State) (n : PortId) (f : Swap → Swap) : (s.modRs n f).sfHeld = s.sfHeld := (rfl)
@[simp] theorem State.modRs_trips (s : State) (n : PortId) (f : Swap → Swap) : (s.modRs n f).trips = s.trips := (rfl)
@[simp] theorem State.modRs_sketches (s : State) (n : PortId) (f : Swap → Swap) : (s.modRs n f).sketches = s.sketches := (rfl)
@[simp] theorem State.modRs_hk (s : State) (n : PortId) (f : Swap → Swap) : (s.modRs n f).hk = s.hk := (rfl)
@[simp] theorem State.modRs_host (s : State) (n : PortId) (f : Swap → Swap) : (s.modRs n f).host = s.host := (rfl)
@[simp] theorem State.modRs_tw (s : State) (n : PortId) (f : Swap → Swap) : (s.modRs n f).tw = s.tw := (rfl)
@[simp] theorem State.modRs_loc (s : State) (n : PortId) (f : Swap → Swap) : (s.modRs n f).loc = s.loc := (rfl)
@[simp] theorem State.modRs_net (s : State) (n : PortId) (f : Swap → Swap) : (s.modRs n f).net = s.net := (rfl)
@[simp] theorem State.modRs_inbox (s : State) (n : PortId) (f : Swap → Swap) : (s.modRs n f).inbox = s.inbox := (rfl)
@[simp] theorem State.modRs_waiting (s : State) (n : PortId) (f : Swap → Swap) : (s.modRs n f).waiting = s.waiting := (rfl)
@[simp] theorem State.modRs_active (s : State) (n : PortId) (f : Swap → Swap) : (s.modRs n f).active = s.active := (rfl)
@[simp] theorem State.modRs_claim (s : State) (n : PortId) (f : Swap → Swap) : (s.modRs n f).claim = s.claim := (rfl)
@[simp] theorem State.modRs_ssn (s : State) (n : PortId) (f : Swap → Swap) : (s.modRs n f).ssn = s.ssn := (rfl)
@[simp] theorem State.modRs_resume (s : State) (n : PortId) (f : Swap → Swap) : (s.modRs n f).resume = s.resume := (rfl)
@[simp] theorem State.modRs_seqTick (s : State) (n : PortId) (f : Swap → Swap) : (s.modRs n f).seqTick = s.seqTick := (rfl)
@[simp] theorem State.modRs_setFail (s : State) (n : PortId) (f : Swap → Swap) : (s.modRs n f).setFail = s.setFail := (rfl)
@[simp] theorem State.modRs_bg (s : State) (n : PortId) (f : Swap → Swap) : (s.modRs n f).bg = s.bg := (rfl)
@[simp] theorem State.modRs_store (s : State) (n : PortId) (f : Swap → Swap) : (s.modRs n f).store = s.store := (rfl)
@[simp] theorem State.modRs_bankA (s : State) (n : PortId) (f : Swap → Swap) : (s.modRs n f).bankA = s.bankA := (rfl)
@[simp] theorem State.modRs_bankB (s : State) (n : PortId) (f : Swap → Swap) : (s.modRs n f).bankB = s.bankB := (rfl)
@[simp] theorem State.modRs_verify (s : State) (n : PortId) (f : Swap → Swap) : (s.modRs n f).verify = s.verify := (rfl)
@[simp] theorem State.modRs_advance (s : State) (n : PortId) (f : Swap → Swap) : (s.modRs n f).advance = s.advance := (rfl)
@[simp] theorem State.modRs_points (s : State) (n : PortId) (f : Swap → Swap) : (s.modRs n f).points = s.points := (rfl)
@[simp] theorem State.modRs_health (s : State) (n : PortId) (f : Swap → Swap) : (s.modRs n f).health = s.health := (rfl)
@[simp] theorem State.modRs_pending (s : State) (n : PortId) (f : Swap → Swap) : (s.modRs n f).pending = s.pending := (rfl)
@[simp] theorem State.modRs_fresh (s : State) (n : PortId) (f : Swap → Swap) : (s.modRs n f).fresh = s.fresh := (rfl)

@[simp] theorem State.modAlt_fuse (s : State) (n : PortId) (f : Alt → Alt) : (s.modAlt n f).fuse = s.fuse := (rfl)
@[simp] theorem State.modAlt_sup (s : State) (n : PortId) (f : Alt → Alt) : (s.modAlt n f).sup = s.sup := (rfl)
@[simp] theorem State.modAlt_time (s : State) (n : PortId) (f : Alt → Alt) : (s.modAlt n f).time = s.time := (rfl)
@[simp] theorem State.modAlt_chan (s : State) (n : PortId) (f : Alt → Alt) : (s.modAlt n f).chan = s.chan := (rfl)
@[simp] theorem State.modAlt_tt (s : State) (n : PortId) (f : Alt → Alt) : (s.modAlt n f).tt = s.tt := (rfl)
@[simp] theorem State.modAlt_hs (s : State) (n : PortId) (f : Alt → Alt) : (s.modAlt n f).hs = s.hs := (rfl)
@[simp] theorem State.modAlt_sq (s : State) (n : PortId) (f : Alt → Alt) : (s.modAlt n f).sq = s.sq := (rfl)
@[simp] theorem State.modAlt_plat (s : State) (n : PortId) (f : Alt → Alt) : (s.modAlt n f).plat = s.plat := (rfl)
@[simp] theorem State.modAlt_core (s : State) (n : PortId) (f : Alt → Alt) : (s.modAlt n f).core = s.core := (rfl)
@[simp] theorem State.modAlt_sidx (s : State) (n : PortId) (f : Alt → Alt) : (s.modAlt n f).sidx = s.sidx := (rfl)
@[simp] theorem State.modAlt_phase (s : State) (n : PortId) (f : Alt → Alt) : (s.modAlt n f).phase = s.phase := (rfl)
@[simp] theorem State.modAlt_snapCt (s : State) (n : PortId) (f : Alt → Alt) : (s.modAlt n f).snapCt = s.snapCt := (rfl)
@[simp] theorem State.modAlt_snapPh (s : State) (n : PortId) (f : Alt → Alt) : (s.modAlt n f).snapPh = s.snapPh := (rfl)
@[simp] theorem State.modAlt_stamps (s : State) (n : PortId) (f : Alt → Alt) : (s.modAlt n f).stamps = s.stamps := (rfl)
@[simp] theorem State.modAlt_firsts (s : State) (n : PortId) (f : Alt → Alt) : (s.modAlt n f).firsts = s.firsts := (rfl)
@[simp] theorem State.modAlt_sfHeld (s : State) (n : PortId) (f : Alt → Alt) : (s.modAlt n f).sfHeld = s.sfHeld := (rfl)
@[simp] theorem State.modAlt_trips (s : State) (n : PortId) (f : Alt → Alt) : (s.modAlt n f).trips = s.trips := (rfl)
@[simp] theorem State.modAlt_sketches (s : State) (n : PortId) (f : Alt → Alt) : (s.modAlt n f).sketches = s.sketches := (rfl)
@[simp] theorem State.modAlt_hk (s : State) (n : PortId) (f : Alt → Alt) : (s.modAlt n f).hk = s.hk := (rfl)
@[simp] theorem State.modAlt_host (s : State) (n : PortId) (f : Alt → Alt) : (s.modAlt n f).host = s.host := (rfl)
@[simp] theorem State.modAlt_tw (s : State) (n : PortId) (f : Alt → Alt) : (s.modAlt n f).tw = s.tw := (rfl)
@[simp] theorem State.modAlt_loc (s : State) (n : PortId) (f : Alt → Alt) : (s.modAlt n f).loc = s.loc := (rfl)
@[simp] theorem State.modAlt_net (s : State) (n : PortId) (f : Alt → Alt) : (s.modAlt n f).net = s.net := (rfl)
@[simp] theorem State.modAlt_inbox (s : State) (n : PortId) (f : Alt → Alt) : (s.modAlt n f).inbox = s.inbox := (rfl)
@[simp] theorem State.modAlt_waiting (s : State) (n : PortId) (f : Alt → Alt) : (s.modAlt n f).waiting = s.waiting := (rfl)
@[simp] theorem State.modAlt_active (s : State) (n : PortId) (f : Alt → Alt) : (s.modAlt n f).active = s.active := (rfl)
@[simp] theorem State.modAlt_claim (s : State) (n : PortId) (f : Alt → Alt) : (s.modAlt n f).claim = s.claim := (rfl)
@[simp] theorem State.modAlt_ssn (s : State) (n : PortId) (f : Alt → Alt) : (s.modAlt n f).ssn = s.ssn := (rfl)
@[simp] theorem State.modAlt_resume (s : State) (n : PortId) (f : Alt → Alt) : (s.modAlt n f).resume = s.resume := (rfl)
@[simp] theorem State.modAlt_seqTick (s : State) (n : PortId) (f : Alt → Alt) : (s.modAlt n f).seqTick = s.seqTick := (rfl)
@[simp] theorem State.modAlt_setFail (s : State) (n : PortId) (f : Alt → Alt) : (s.modAlt n f).setFail = s.setFail := (rfl)
@[simp] theorem State.modAlt_bg (s : State) (n : PortId) (f : Alt → Alt) : (s.modAlt n f).bg = s.bg := (rfl)
@[simp] theorem State.modAlt_store (s : State) (n : PortId) (f : Alt → Alt) : (s.modAlt n f).store = s.store := (rfl)
@[simp] theorem State.modAlt_bankA (s : State) (n : PortId) (f : Alt → Alt) : (s.modAlt n f).bankA = s.bankA := (rfl)
@[simp] theorem State.modAlt_bankB (s : State) (n : PortId) (f : Alt → Alt) : (s.modAlt n f).bankB = s.bankB := (rfl)
@[simp] theorem State.modAlt_verify (s : State) (n : PortId) (f : Alt → Alt) : (s.modAlt n f).verify = s.verify := (rfl)
@[simp] theorem State.modAlt_advance (s : State) (n : PortId) (f : Alt → Alt) : (s.modAlt n f).advance = s.advance := (rfl)
@[simp] theorem State.modAlt_points (s : State) (n : PortId) (f : Alt → Alt) : (s.modAlt n f).points = s.points := (rfl)
@[simp] theorem State.modAlt_health (s : State) (n : PortId) (f : Alt → Alt) : (s.modAlt n f).health = s.health := (rfl)
@[simp] theorem State.modAlt_pending (s : State) (n : PortId) (f : Alt → Alt) : (s.modAlt n f).pending = s.pending := (rfl)
@[simp] theorem State.modAlt_fresh (s : State) (n : PortId) (f : Alt → Alt) : (s.modAlt n f).fresh = s.fresh := (rfl)

@[simp] theorem State.modMs_fuse (s : State) (n : PortId) (f : Measure → Measure) : (s.modMs n f).fuse = s.fuse := (rfl)
@[simp] theorem State.modMs_sup (s : State) (n : PortId) (f : Measure → Measure) : (s.modMs n f).sup = s.sup := (rfl)
@[simp] theorem State.modMs_time (s : State) (n : PortId) (f : Measure → Measure) : (s.modMs n f).time = s.time := (rfl)
@[simp] theorem State.modMs_chan (s : State) (n : PortId) (f : Measure → Measure) : (s.modMs n f).chan = s.chan := (rfl)
@[simp] theorem State.modMs_tt (s : State) (n : PortId) (f : Measure → Measure) : (s.modMs n f).tt = s.tt := (rfl)
@[simp] theorem State.modMs_hs (s : State) (n : PortId) (f : Measure → Measure) : (s.modMs n f).hs = s.hs := (rfl)
@[simp] theorem State.modMs_sq (s : State) (n : PortId) (f : Measure → Measure) : (s.modMs n f).sq = s.sq := (rfl)
@[simp] theorem State.modMs_plat (s : State) (n : PortId) (f : Measure → Measure) : (s.modMs n f).plat = s.plat := (rfl)
@[simp] theorem State.modMs_core (s : State) (n : PortId) (f : Measure → Measure) : (s.modMs n f).core = s.core := (rfl)
@[simp] theorem State.modMs_sidx (s : State) (n : PortId) (f : Measure → Measure) : (s.modMs n f).sidx = s.sidx := (rfl)
@[simp] theorem State.modMs_phase (s : State) (n : PortId) (f : Measure → Measure) : (s.modMs n f).phase = s.phase := (rfl)
@[simp] theorem State.modMs_snapCt (s : State) (n : PortId) (f : Measure → Measure) : (s.modMs n f).snapCt = s.snapCt := (rfl)
@[simp] theorem State.modMs_snapPh (s : State) (n : PortId) (f : Measure → Measure) : (s.modMs n f).snapPh = s.snapPh := (rfl)
@[simp] theorem State.modMs_stamps (s : State) (n : PortId) (f : Measure → Measure) : (s.modMs n f).stamps = s.stamps := (rfl)
@[simp] theorem State.modMs_firsts (s : State) (n : PortId) (f : Measure → Measure) : (s.modMs n f).firsts = s.firsts := (rfl)
@[simp] theorem State.modMs_sfHeld (s : State) (n : PortId) (f : Measure → Measure) : (s.modMs n f).sfHeld = s.sfHeld := (rfl)
@[simp] theorem State.modMs_trips (s : State) (n : PortId) (f : Measure → Measure) : (s.modMs n f).trips = s.trips := (rfl)
@[simp] theorem State.modMs_sketches (s : State) (n : PortId) (f : Measure → Measure) : (s.modMs n f).sketches = s.sketches := (rfl)
@[simp] theorem State.modMs_hk (s : State) (n : PortId) (f : Measure → Measure) : (s.modMs n f).hk = s.hk := (rfl)
@[simp] theorem State.modMs_host (s : State) (n : PortId) (f : Measure → Measure) : (s.modMs n f).host = s.host := (rfl)
@[simp] theorem State.modMs_tw (s : State) (n : PortId) (f : Measure → Measure) : (s.modMs n f).tw = s.tw := (rfl)
@[simp] theorem State.modMs_loc (s : State) (n : PortId) (f : Measure → Measure) : (s.modMs n f).loc = s.loc := (rfl)
@[simp] theorem State.modMs_net (s : State) (n : PortId) (f : Measure → Measure) : (s.modMs n f).net = s.net := (rfl)
@[simp] theorem State.modMs_inbox (s : State) (n : PortId) (f : Measure → Measure) : (s.modMs n f).inbox = s.inbox := (rfl)
@[simp] theorem State.modMs_waiting (s : State) (n : PortId) (f : Measure → Measure) : (s.modMs n f).waiting = s.waiting := (rfl)
@[simp] theorem State.modMs_active (s : State) (n : PortId) (f : Measure → Measure) : (s.modMs n f).active = s.active := (rfl)
@[simp] theorem State.modMs_claim (s : State) (n : PortId) (f : Measure → Measure) : (s.modMs n f).claim = s.claim := (rfl)
@[simp] theorem State.modMs_ssn (s : State) (n : PortId) (f : Measure → Measure) : (s.modMs n f).ssn = s.ssn := (rfl)
@[simp] theorem State.modMs_resume (s : State) (n : PortId) (f : Measure → Measure) : (s.modMs n f).resume = s.resume := (rfl)
@[simp] theorem State.modMs_seqTick (s : State) (n : PortId) (f : Measure → Measure) : (s.modMs n f).seqTick = s.seqTick := (rfl)
@[simp] theorem State.modMs_setFail (s : State) (n : PortId) (f : Measure → Measure) : (s.modMs n f).setFail = s.setFail := (rfl)
@[simp] theorem State.modMs_bg (s : State) (n : PortId) (f : Measure → Measure) : (s.modMs n f).bg = s.bg := (rfl)
@[simp] theorem State.modMs_store (s : State) (n : PortId) (f : Measure → Measure) : (s.modMs n f).store = s.store := (rfl)
@[simp] theorem State.modMs_bankA (s : State) (n : PortId) (f : Measure → Measure) : (s.modMs n f).bankA = s.bankA := (rfl)
@[simp] theorem State.modMs_bankB (s : State) (n : PortId) (f : Measure → Measure) : (s.modMs n f).bankB = s.bankB := (rfl)
@[simp] theorem State.modMs_verify (s : State) (n : PortId) (f : Measure → Measure) : (s.modMs n f).verify = s.verify := (rfl)
@[simp] theorem State.modMs_advance (s : State) (n : PortId) (f : Measure → Measure) : (s.modMs n f).advance = s.advance := (rfl)
@[simp] theorem State.modMs_points (s : State) (n : PortId) (f : Measure → Measure) : (s.modMs n f).points = s.points := (rfl)
@[simp] theorem State.modMs_health (s : State) (n : PortId) (f : Measure → Measure) : (s.modMs n f).health = s.health := (rfl)
@[simp] theorem State.modMs_pending (s : State) (n : PortId) (f : Measure → Measure) : (s.modMs n f).pending = s.pending := (rfl)
@[simp] theorem State.modMs_fresh (s : State) (n : PortId) (f : Measure → Measure) : (s.modMs n f).fresh = s.fresh := (rfl)

/-! ### Reading back a part that was updated, by its index and by its number -/

@[simp] theorem State.modPort_same (s : State) (n : PortId) (f : Port → Port) : (s.modPort n f).port[n] = f s.port[n] := by
  simp [State.modPort]
@[simp] theorem State.modPort_same_val (s : State) (n : PortId) (f : Port → Port) : (s.modPort n f).port[n.val] = f s.port[n.val] := by
  simp [State.modPort]
@[simp] theorem State.modChan_same (s : State) (c : Fin 128) (f : Channel → Channel) : (s.modChan c f).chan[c] = f s.chan[c] := by
  simp [State.modChan]
@[simp] theorem State.modChan_same_val (s : State) (c : Fin 128) (f : Channel → Channel) : (s.modChan c f).chan[c.val] = f s.chan[c.val] := by
  simp [State.modChan]
@[simp] theorem State.modPlat_same (s : State) (k : PlatId) (f : Platform → Platform) : (s.modPlat k f).plat[k] = f s.plat[k] := by
  simp [State.modPlat]
@[simp] theorem State.modPlat_same_val (s : State) (k : PlatId) (f : Platform → Platform) : (s.modPlat k f).plat[k.val] = f s.plat[k.val] := by
  simp [State.modPlat]
@[simp] theorem State.modCore_same (s : State) (c : CoreId) (f : VCore → VCore) : (s.modCore c f).core[c] = f s.core[c] := by
  simp [State.modCore]
@[simp] theorem State.modCore_same_val (s : State) (c : CoreId) (f : VCore → VCore) : (s.modCore c f).core[c.val] = f s.core[c.val] := by
  simp [State.modCore]
@[simp] theorem State.modHost_same (s : State) (h : HostPort) (f : HostFe → HostFe) : (s.modHost h f).host[h.ix] = f s.host[h.ix] := by
  simp [State.modHost]
@[simp] theorem State.modHost_same_val (s : State) (h : HostPort) (f : HostFe → HostFe) : (s.modHost h f).host[h.ix.val] = f s.host[h.ix.val] := by
  simp [State.modHost]
@[simp] theorem State.modRail_same (s : State) (x : RailId) (f : Rail → Rail) : (s.modRail x f).sq.rails[x] = f s.sq.rails[x] := by
  simp [State.modRail]
@[simp] theorem State.modRail_same_val (s : State) (x : RailId) (f : Rail → Rail) : (s.modRail x f).sq.rails[x.val] = f s.sq.rails[x.val] := by
  simp [State.modRail]
theorem State.modPort_other (s : State) (n : PortId) (f : Port → Port) (m : PortId) (h : n ≠ m) : (s.modPort n f).port[m] = s.port[m] := by
  simp [State.modPort, Fin.val_ne_of_ne h]
theorem State.modChan_other (s : State) (c : Fin 128) (f : Channel → Channel) (d : Fin 128) (h : c ≠ d) : (s.modChan c f).chan[d] = s.chan[d] := by
  simp [State.modChan, Fin.val_ne_of_ne h]
theorem State.modPlat_other (s : State) (k : PlatId) (f : Platform → Platform) (j : PlatId) (h : k ≠ j) : (s.modPlat k f).plat[j] = s.plat[j] := by
  simp [State.modPlat, Fin.val_ne_of_ne h]
theorem State.modCore_other (s : State) (c : CoreId) (f : VCore → VCore) (d : CoreId) (h : c ≠ d) : (s.modCore c f).core[d] = s.core[d] := by
  simp [State.modCore, Fin.val_ne_of_ne h]
@[simp] theorem State.modTc_same (s : State) (n : PortId) (f : TypeC → TypeC) : (s.modTc n f).port[n] = { s.port[n] with tc := f s.port[n].tc } :=
  State.modPort_same s n _
@[simp] theorem State.modTc_same_val (s : State) (n : PortId) (f : TypeC → TypeC) : (s.modTc n f).port[n.val] = { s.port[n.val] with tc := f s.port[n.val].tc } :=
  State.modPort_same_val s n _
theorem State.modTc_other (s : State) (n m : PortId) (f : TypeC → TypeC) (h : n ≠ m) : (s.modTc n f).port[m] = s.port[m] :=
  State.modPort_other s n _ m h
@[simp] theorem State.modPp_same (s : State) (n : PortId) (f : Path → Path) : (s.modPp n f).port[n] = { s.port[n] with pp := f s.port[n].pp } :=
  State.modPort_same s n _
@[simp] theorem State.modPp_same_val (s : State) (n : PortId) (f : Path → Path) : (s.modPp n f).port[n.val] = { s.port[n.val] with pp := f s.port[n.val].pp } :=
  State.modPort_same_val s n _
theorem State.modPp_other (s : State) (n m : PortId) (f : Path → Path) (h : n ≠ m) : (s.modPp n f).port[m] = s.port[m] :=
  State.modPort_other s n _ m h
@[simp] theorem State.modPd_same (s : State) (n : PortId) (f : Pd → Pd) : (s.modPd n f).port[n] = { s.port[n] with pd := f s.port[n].pd } :=
  State.modPort_same s n _
@[simp] theorem State.modPd_same_val (s : State) (n : PortId) (f : Pd → Pd) : (s.modPd n f).port[n.val] = { s.port[n.val] with pd := f s.port[n.val].pd } :=
  State.modPort_same_val s n _
theorem State.modPd_other (s : State) (n m : PortId) (f : Pd → Pd) (h : n ≠ m) : (s.modPd n f).port[m] = s.port[m] :=
  State.modPort_other s n _ m h
@[simp] theorem State.modCt_same (s : State) (n : PortId) (f : Contract → Contract) : (s.modCt n f).port[n] = { s.port[n] with ct := f s.port[n].ct } :=
  State.modPort_same s n _
@[simp] theorem State.modCt_same_val (s : State) (n : PortId) (f : Contract → Contract) : (s.modCt n f).port[n.val] = { s.port[n.val] with ct := f s.port[n.val].ct } :=
  State.modPort_same_val s n _
theorem State.modCt_other (s : State) (n m : PortId) (f : Contract → Contract) (h : n ≠ m) : (s.modCt n f).port[m] = s.port[m] :=
  State.modPort_other s n _ m h
@[simp] theorem State.modRs_same (s : State) (n : PortId) (f : Swap → Swap) : (s.modRs n f).port[n] = { s.port[n] with rs := f s.port[n].rs } :=
  State.modPort_same s n _
@[simp] theorem State.modRs_same_val (s : State) (n : PortId) (f : Swap → Swap) : (s.modRs n f).port[n.val] = { s.port[n.val] with rs := f s.port[n.val].rs } :=
  State.modPort_same_val s n _
theorem State.modRs_other (s : State) (n m : PortId) (f : Swap → Swap) (h : n ≠ m) : (s.modRs n f).port[m] = s.port[m] :=
  State.modPort_other s n _ m h
@[simp] theorem State.modAlt_same (s : State) (n : PortId) (f : Alt → Alt) : (s.modAlt n f).port[n] = { s.port[n] with alt := f s.port[n].alt } :=
  State.modPort_same s n _
@[simp] theorem State.modAlt_same_val (s : State) (n : PortId) (f : Alt → Alt) : (s.modAlt n f).port[n.val] = { s.port[n.val] with alt := f s.port[n.val].alt } :=
  State.modPort_same_val s n _
theorem State.modAlt_other (s : State) (n m : PortId) (f : Alt → Alt) (h : n ≠ m) : (s.modAlt n f).port[m] = s.port[m] :=
  State.modPort_other s n _ m h
@[simp] theorem State.modMs_same (s : State) (n : PortId) (f : Measure → Measure) : (s.modMs n f).port[n] = { s.port[n] with ms := f s.port[n].ms } :=
  State.modPort_same s n _
@[simp] theorem State.modMs_same_val (s : State) (n : PortId) (f : Measure → Measure) : (s.modMs n f).port[n.val] = { s.port[n.val] with ms := f s.port[n.val].ms } :=
  State.modPort_same_val s n _
theorem State.modMs_other (s : State) (n m : PortId) (f : Measure → Measure) (h : n ≠ m) : (s.modMs n f).port[m] = s.port[m] :=
  State.modPort_other s n _ m h

/-- A vector read back after a write, in the form the accessors leave it. -/
theorem Vector.getElem_set_fin {α : Type} {n : Nat} (v : Vector α n) (i j : Fin n) (x : α) :
    (v.set i x)[j] = if i = j then x else v[j] := by
  simp [Vector.getElem_set, Fin.ext_iff]

@[simp] theorem Vector.getElem_map_fin {α β : Type} {n : Nat} (f : α → β) (v : Vector α n) (i : Fin n) :
    (v.map f)[i] = f v[i] := by
  simp
@[simp] theorem Vector.getElem_ofFn_fin {α : Type} {n : Nat} (f : Fin n → α) (i : Fin n) : (Vector.ofFn f)[i] = f i := by
  simp
@[simp] theorem Vector.getElem_replicate_fin {α : Type} {n : Nat} (x : α) (i : Fin n) : (Vector.replicate n x)[i] = x := by
  simp

end Sys2Proof.Machine
end

