-- ==== Sys2Proof/Laws/Events.lean ====
section
/-! SUPPORT. What events, health causes, replies and completions leave alone, and what they do (R410, R421-R425, R455-R464,
R579-R581). -/
namespace Sys2Proof.Machine

@[simp] theorem State.seqEnd_fuse (s : State)  : (s.seqEnd ).fuse = s.fuse := (rfl)
@[simp] theorem State.seqEnd_sup (s : State)  : (s.seqEnd ).sup = s.sup := (rfl)
@[simp] theorem State.seqEnd_time (s : State)  : (s.seqEnd ).time = s.time := (rfl)
@[simp] theorem State.seqEnd_chan (s : State)  : (s.seqEnd ).chan = s.chan := (rfl)
@[simp] theorem State.seqEnd_tt (s : State)  : (s.seqEnd ).tt = s.tt := (rfl)
@[simp] theorem State.seqEnd_hs (s : State)  : (s.seqEnd ).hs = s.hs := (rfl)
@[simp] theorem State.seqEnd_sq (s : State)  : (s.seqEnd ).sq = s.sq := (rfl)
@[simp] theorem State.seqEnd_port (s : State)  : (s.seqEnd ).port = s.port := (rfl)
@[simp] theorem State.seqEnd_plat (s : State)  : (s.seqEnd ).plat = s.plat := (rfl)
@[simp] theorem State.seqEnd_core (s : State)  : (s.seqEnd ).core = s.core := (rfl)
@[simp] theorem State.seqEnd_sidx (s : State)  : (s.seqEnd ).sidx = s.sidx := (rfl)
@[simp] theorem State.seqEnd_phase (s : State)  : (s.seqEnd ).phase = s.phase := (rfl)
@[simp] theorem State.seqEnd_snapCt (s : State)  : (s.seqEnd ).snapCt = s.snapCt := (rfl)
@[simp] theorem State.seqEnd_snapPh (s : State)  : (s.seqEnd ).snapPh = s.snapPh := (rfl)
@[simp] theorem State.seqEnd_stamps (s : State)  : (s.seqEnd ).stamps = s.stamps := (rfl)
@[simp] theorem State.seqEnd_firsts (s : State)  : (s.seqEnd ).firsts = s.firsts := (rfl)
@[simp] theorem State.seqEnd_sfHeld (s : State)  : (s.seqEnd ).sfHeld = s.sfHeld := (rfl)
@[simp] theorem State.seqEnd_trips (s : State)  : (s.seqEnd ).trips = s.trips := (rfl)
@[simp] theorem State.seqEnd_sketches (s : State)  : (s.seqEnd ).sketches = s.sketches := (rfl)
@[simp] theorem State.seqEnd_hk (s : State)  : (s.seqEnd ).hk = s.hk := (rfl)
@[simp] theorem State.seqEnd_host (s : State)  : (s.seqEnd ).host = s.host := (rfl)
@[simp] theorem State.seqEnd_tw (s : State)  : (s.seqEnd ).tw = s.tw := (rfl)
@[simp] theorem State.seqEnd_loc (s : State)  : (s.seqEnd ).loc = s.loc := (rfl)
@[simp] theorem State.seqEnd_net (s : State)  : (s.seqEnd ).net = s.net := (rfl)
@[simp] theorem State.seqEnd_inbox (s : State)  : (s.seqEnd ).inbox = s.inbox := (rfl)
@[simp] theorem State.seqEnd_waiting (s : State)  : (s.seqEnd ).waiting = s.waiting := (rfl)
@[simp] theorem State.seqEnd_active (s : State)  : (s.seqEnd ).active = s.active := (rfl)
@[simp] theorem State.seqEnd_claim (s : State)  : (s.seqEnd ).claim = s.claim := (rfl)
@[simp] theorem State.seqEnd_setFail (s : State)  : (s.seqEnd ).setFail = s.setFail := (rfl)
@[simp] theorem State.seqEnd_bg (s : State)  : (s.seqEnd ).bg = s.bg := (rfl)
@[simp] theorem State.seqEnd_store (s : State)  : (s.seqEnd ).store = s.store := (rfl)
@[simp] theorem State.seqEnd_bankA (s : State)  : (s.seqEnd ).bankA = s.bankA := (rfl)
@[simp] theorem State.seqEnd_bankB (s : State)  : (s.seqEnd ).bankB = s.bankB := (rfl)
@[simp] theorem State.seqEnd_verify (s : State)  : (s.seqEnd ).verify = s.verify := (rfl)
@[simp] theorem State.seqEnd_advance (s : State)  : (s.seqEnd ).advance = s.advance := (rfl)
@[simp] theorem State.seqEnd_points (s : State)  : (s.seqEnd ).points = s.points := (rfl)
@[simp] theorem State.seqEnd_health (s : State)  : (s.seqEnd ).health = s.health := (rfl)
@[simp] theorem State.seqEnd_pending (s : State)  : (s.seqEnd ).pending = s.pending := (rfl)
@[simp] theorem State.seqEnd_fresh (s : State)  : (s.seqEnd ).fresh = s.fresh := (rfl)

@[simp] theorem State.seqPut_fuse (s : State) (rank j : Nat) : (s.seqPut rank j).fuse = s.fuse := (rfl)
@[simp] theorem State.seqPut_sup (s : State) (rank j : Nat) : (s.seqPut rank j).sup = s.sup := (rfl)
@[simp] theorem State.seqPut_time (s : State) (rank j : Nat) : (s.seqPut rank j).time = s.time := (rfl)
@[simp] theorem State.seqPut_chan (s : State) (rank j : Nat) : (s.seqPut rank j).chan = s.chan := (rfl)
@[simp] theorem State.seqPut_tt (s : State) (rank j : Nat) : (s.seqPut rank j).tt = s.tt := (rfl)
@[simp] theorem State.seqPut_hs (s : State) (rank j : Nat) : (s.seqPut rank j).hs = s.hs := (rfl)
@[simp] theorem State.seqPut_sq (s : State) (rank j : Nat) : (s.seqPut rank j).sq = s.sq := (rfl)
@[simp] theorem State.seqPut_port (s : State) (rank j : Nat) : (s.seqPut rank j).port = s.port := (rfl)
@[simp] theorem State.seqPut_plat (s : State) (rank j : Nat) : (s.seqPut rank j).plat = s.plat := (rfl)
@[simp] theorem State.seqPut_core (s : State) (rank j : Nat) : (s.seqPut rank j).core = s.core := (rfl)
@[simp] theorem State.seqPut_sidx (s : State) (rank j : Nat) : (s.seqPut rank j).sidx = s.sidx := (rfl)
@[simp] theorem State.seqPut_phase (s : State) (rank j : Nat) : (s.seqPut rank j).phase = s.phase := (rfl)
@[simp] theorem State.seqPut_snapCt (s : State) (rank j : Nat) : (s.seqPut rank j).snapCt = s.snapCt := (rfl)
@[simp] theorem State.seqPut_snapPh (s : State) (rank j : Nat) : (s.seqPut rank j).snapPh = s.snapPh := (rfl)
@[simp] theorem State.seqPut_stamps (s : State) (rank j : Nat) : (s.seqPut rank j).stamps = s.stamps := (rfl)
@[simp] theorem State.seqPut_firsts (s : State) (rank j : Nat) : (s.seqPut rank j).firsts = s.firsts := (rfl)
@[simp] theorem State.seqPut_sfHeld (s : State) (rank j : Nat) : (s.seqPut rank j).sfHeld = s.sfHeld := (rfl)
@[simp] theorem State.seqPut_trips (s : State) (rank j : Nat) : (s.seqPut rank j).trips = s.trips := (rfl)
@[simp] theorem State.seqPut_sketches (s : State) (rank j : Nat) : (s.seqPut rank j).sketches = s.sketches := (rfl)
@[simp] theorem State.seqPut_hk (s : State) (rank j : Nat) : (s.seqPut rank j).hk = s.hk := (rfl)
@[simp] theorem State.seqPut_tw (s : State) (rank j : Nat) : (s.seqPut rank j).tw = s.tw := (rfl)
@[simp] theorem State.seqPut_loc (s : State) (rank j : Nat) : (s.seqPut rank j).loc = s.loc := (rfl)
@[simp] theorem State.seqPut_net (s : State) (rank j : Nat) : (s.seqPut rank j).net = s.net := (rfl)
@[simp] theorem State.seqPut_inbox (s : State) (rank j : Nat) : (s.seqPut rank j).inbox = s.inbox := (rfl)
@[simp] theorem State.seqPut_waiting (s : State) (rank j : Nat) : (s.seqPut rank j).waiting = s.waiting := (rfl)
@[simp] theorem State.seqPut_active (s : State) (rank j : Nat) : (s.seqPut rank j).active = s.active := (rfl)
@[simp] theorem State.seqPut_claim (s : State) (rank j : Nat) : (s.seqPut rank j).claim = s.claim := (rfl)
@[simp] theorem State.seqPut_setFail (s : State) (rank j : Nat) : (s.seqPut rank j).setFail = s.setFail := (rfl)
@[simp] theorem State.seqPut_bg (s : State) (rank j : Nat) : (s.seqPut rank j).bg = s.bg := (rfl)
@[simp] theorem State.seqPut_bankA (s : State) (rank j : Nat) : (s.seqPut rank j).bankA = s.bankA := (rfl)
@[simp] theorem State.seqPut_bankB (s : State) (rank j : Nat) : (s.seqPut rank j).bankB = s.bankB := (rfl)
@[simp] theorem State.seqPut_verify (s : State) (rank j : Nat) : (s.seqPut rank j).verify = s.verify := (rfl)
@[simp] theorem State.seqPut_advance (s : State) (rank j : Nat) : (s.seqPut rank j).advance = s.advance := (rfl)
@[simp] theorem State.seqPut_points (s : State) (rank j : Nat) : (s.seqPut rank j).points = s.points := (rfl)
@[simp] theorem State.seqPut_health (s : State) (rank j : Nat) : (s.seqPut rank j).health = s.health := (rfl)
@[simp] theorem State.seqPut_pending (s : State) (rank j : Nat) : (s.seqPut rank j).pending = s.pending := (rfl)
@[simp] theorem State.seqPut_fresh (s : State) (rank j : Nat) : (s.seqPut rank j).fresh = s.fresh := (rfl)

@[simp] theorem State.logAdd_fuse (s : State) (e : Event) : (s.logAdd e).fuse = s.fuse := by
  simp only [State.logAdd]; split <;> rfl
@[simp] theorem State.logAdd_sup (s : State) (e : Event) : (s.logAdd e).sup = s.sup := by
  simp only [State.logAdd]; split <;> rfl
@[simp] theorem State.logAdd_time (s : State) (e : Event) : (s.logAdd e).time = s.time := by
  simp only [State.logAdd]; split <;> rfl
@[simp] theorem State.logAdd_chan (s : State) (e : Event) : (s.logAdd e).chan = s.chan := by
  simp only [State.logAdd]; split <;> rfl
@[simp] theorem State.logAdd_tt (s : State) (e : Event) : (s.logAdd e).tt = s.tt := by
  simp only [State.logAdd]; split <;> rfl
@[simp] theorem State.logAdd_hs (s : State) (e : Event) : (s.logAdd e).hs = s.hs := by
  simp only [State.logAdd]; split <;> rfl
@[simp] theorem State.logAdd_sq (s : State) (e : Event) : (s.logAdd e).sq = s.sq := by
  simp only [State.logAdd]; split <;> rfl
@[simp] theorem State.logAdd_port (s : State) (e : Event) : (s.logAdd e).port = s.port := by
  simp only [State.logAdd]; split <;> rfl
@[simp] theorem State.logAdd_plat (s : State) (e : Event) : (s.logAdd e).plat = s.plat := by
  simp only [State.logAdd]; split <;> rfl
@[simp] theorem State.logAdd_core (s : State) (e : Event) : (s.logAdd e).core = s.core := by
  simp only [State.logAdd]; split <;> rfl
@[simp] theorem State.logAdd_sidx (s : State) (e : Event) : (s.logAdd e).sidx = s.sidx := by
  simp only [State.logAdd]; split <;> rfl
@[simp] theorem State.logAdd_phase (s : State) (e : Event) : (s.logAdd e).phase = s.phase := by
  simp only [State.logAdd]; split <;> rfl
@[simp] theorem State.logAdd_snapCt (s : State) (e : Event) : (s.logAdd e).snapCt = s.snapCt := by
  simp only [State.logAdd]; split <;> rfl
@[simp] theorem State.logAdd_snapPh (s : State) (e : Event) : (s.logAdd e).snapPh = s.snapPh := by
  simp only [State.logAdd]; split <;> rfl
@[simp] theorem State.logAdd_stamps (s : State) (e : Event) : (s.logAdd e).stamps = s.stamps := by
  simp only [State.logAdd]; split <;> rfl
@[simp] theorem State.logAdd_firsts (s : State) (e : Event) : (s.logAdd e).firsts = s.firsts := by
  simp only [State.logAdd]; split <;> rfl
@[simp] theorem State.logAdd_sfHeld (s : State) (e : Event) : (s.logAdd e).sfHeld = s.sfHeld := by
  simp only [State.logAdd]; split <;> rfl
@[simp] theorem State.logAdd_trips (s : State) (e : Event) : (s.logAdd e).trips = s.trips := by
  simp only [State.logAdd]; split <;> rfl
@[simp] theorem State.logAdd_sketches (s : State) (e : Event) : (s.logAdd e).sketches = s.sketches := by
  simp only [State.logAdd]; split <;> rfl
@[simp] theorem State.logAdd_hk (s : State) (e : Event) : (s.logAdd e).hk = s.hk := by
  simp only [State.logAdd]; split <;> rfl
@[simp] theorem State.logAdd_host (s : State) (e : Event) : (s.logAdd e).host = s.host := by
  simp only [State.logAdd]; split <;> rfl
@[simp] theorem State.logAdd_tw (s : State) (e : Event) : (s.logAdd e).tw = s.tw := by
  simp only [State.logAdd]; split <;> rfl
@[simp] theorem State.logAdd_loc (s : State) (e : Event) : (s.logAdd e).loc = s.loc := by
  simp only [State.logAdd]; split <;> rfl
@[simp] theorem State.logAdd_net (s : State) (e : Event) : (s.logAdd e).net = s.net := by
  simp only [State.logAdd]; split <;> rfl
@[simp] theorem State.logAdd_inbox (s : State) (e : Event) : (s.logAdd e).inbox = s.inbox := by
  simp only [State.logAdd]; split <;> rfl
@[simp] theorem State.logAdd_waiting (s : State) (e : Event) : (s.logAdd e).waiting = s.waiting := by
  simp only [State.logAdd]; split <;> rfl
@[simp] theorem State.logAdd_active (s : State) (e : Event) : (s.logAdd e).active = s.active := by
  simp only [State.logAdd]; split <;> rfl
@[simp] theorem State.logAdd_claim (s : State) (e : Event) : (s.logAdd e).claim = s.claim := by
  simp only [State.logAdd]; split <;> rfl
@[simp] theorem State.logAdd_ssn (s : State) (e : Event) : (s.logAdd e).ssn = s.ssn := by
  simp only [State.logAdd]; split <;> rfl
@[simp] theorem State.logAdd_resume (s : State) (e : Event) : (s.logAdd e).resume = s.resume := by
  simp only [State.logAdd]; split <;> rfl
@[simp] theorem State.logAdd_seqTick (s : State) (e : Event) : (s.logAdd e).seqTick = s.seqTick := by
  simp only [State.logAdd]; split <;> rfl
@[simp] theorem State.logAdd_setFail (s : State) (e : Event) : (s.logAdd e).setFail = s.setFail := by
  simp only [State.logAdd]; split <;> rfl
@[simp] theorem State.logAdd_bg (s : State) (e : Event) : (s.logAdd e).bg = s.bg := by
  simp only [State.logAdd]; split <;> rfl
@[simp] theorem State.logAdd_bankA (s : State) (e : Event) : (s.logAdd e).bankA = s.bankA := by
  simp only [State.logAdd]; split <;> rfl
@[simp] theorem State.logAdd_bankB (s : State) (e : Event) : (s.logAdd e).bankB = s.bankB := by
  simp only [State.logAdd]; split <;> rfl
@[simp] theorem State.logAdd_verify (s : State) (e : Event) : (s.logAdd e).verify = s.verify := by
  simp only [State.logAdd]; split <;> rfl
@[simp] theorem State.logAdd_advance (s : State) (e : Event) : (s.logAdd e).advance = s.advance := by
  simp only [State.logAdd]; split <;> rfl
@[simp] theorem State.logAdd_points (s : State) (e : Event) : (s.logAdd e).points = s.points := by
  simp only [State.logAdd]; split <;> rfl
@[simp] theorem State.logAdd_health (s : State) (e : Event) : (s.logAdd e).health = s.health := by
  simp only [State.logAdd]; split <;> rfl
@[simp] theorem State.logAdd_pending (s : State) (e : Event) : (s.logAdd e).pending = s.pending := by
  simp only [State.logAdd]; split <;> rfl
@[simp] theorem State.logAdd_fresh (s : State) (e : Event) : (s.logAdd e).fresh = s.fresh := by
  simp only [State.logAdd]; split <;> rfl

@[simp] theorem State.emitFull_fuse (s : State) (code source : BitVec 16) (payload : List Byte) (ct : CT) (hist : Bool) : (s.emitFull code source payload ct hist).fuse = s.fuse := by
  simp only [State.emitFull]; split <;> simp
@[simp] theorem State.emitFull_sup (s : State) (code source : BitVec 16) (payload : List Byte) (ct : CT) (hist : Bool) : (s.emitFull code source payload ct hist).sup = s.sup := by
  simp only [State.emitFull]; split <;> simp
@[simp] theorem State.emitFull_time (s : State) (code source : BitVec 16) (payload : List Byte) (ct : CT) (hist : Bool) : (s.emitFull code source payload ct hist).time = s.time := by
  simp only [State.emitFull]; split <;> simp
@[simp] theorem State.emitFull_chan (s : State) (code source : BitVec 16) (payload : List Byte) (ct : CT) (hist : Bool) : (s.emitFull code source payload ct hist).chan = s.chan := by
  simp only [State.emitFull]; split <;> simp
@[simp] theorem State.emitFull_tt (s : State) (code source : BitVec 16) (payload : List Byte) (ct : CT) (hist : Bool) : (s.emitFull code source payload ct hist).tt = s.tt := by
  simp only [State.emitFull]; split <;> simp
@[simp] theorem State.emitFull_hs (s : State) (code source : BitVec 16) (payload : List Byte) (ct : CT) (hist : Bool) : (s.emitFull code source payload ct hist).hs = s.hs := by
  simp only [State.emitFull]; split <;> simp
@[simp] theorem State.emitFull_sq (s : State) (code source : BitVec 16) (payload : List Byte) (ct : CT) (hist : Bool) : (s.emitFull code source payload ct hist).sq = s.sq := by
  simp only [State.emitFull]; split <;> simp
@[simp] theorem State.emitFull_port (s : State) (code source : BitVec 16) (payload : List Byte) (ct : CT) (hist : Bool) : (s.emitFull code source payload ct hist).port = s.port := by
  simp only [State.emitFull]; split <;> simp
@[simp] theorem State.emitFull_plat (s : State) (code source : BitVec 16) (payload : List Byte) (ct : CT) (hist : Bool) : (s.emitFull code source payload ct hist).plat = s.plat := by
  simp only [State.emitFull]; split <;> simp
@[simp] theorem State.emitFull_core (s : State) (code source : BitVec 16) (payload : List Byte) (ct : CT) (hist : Bool) : (s.emitFull code source payload ct hist).core = s.core := by
  simp only [State.emitFull]; split <;> simp
@[simp] theorem State.emitFull_sidx (s : State) (code source : BitVec 16) (payload : List Byte) (ct : CT) (hist : Bool) : (s.emitFull code source payload ct hist).sidx = s.sidx := by
  simp only [State.emitFull]; split <;> simp
@[simp] theorem State.emitFull_phase (s : State) (code source : BitVec 16) (payload : List Byte) (ct : CT) (hist : Bool) : (s.emitFull code source payload ct hist).phase = s.phase := by
  simp only [State.emitFull]; split <;> simp
@[simp] theorem State.emitFull_snapCt (s : State) (code source : BitVec 16) (payload : List Byte) (ct : CT) (hist : Bool) : (s.emitFull code source payload ct hist).snapCt = s.snapCt := by
  simp only [State.emitFull]; split <;> simp
@[simp] theorem State.emitFull_snapPh (s : State) (code source : BitVec 16) (payload : List Byte) (ct : CT) (hist : Bool) : (s.emitFull code source payload ct hist).snapPh = s.snapPh := by
  simp only [State.emitFull]; split <;> simp
@[simp] theorem State.emitFull_stamps (s : State) (code source : BitVec 16) (payload : List Byte) (ct : CT) (hist : Bool) : (s.emitFull code source payload ct hist).stamps = s.stamps := by
  simp only [State.emitFull]; split <;> simp
@[simp] theorem State.emitFull_firsts (s : State) (code source : BitVec 16) (payload : List Byte) (ct : CT) (hist : Bool) : (s.emitFull code source payload ct hist).firsts = s.firsts := by
  simp only [State.emitFull]; split <;> simp
@[simp] theorem State.emitFull_sfHeld (s : State) (code source : BitVec 16) (payload : List Byte) (ct : CT) (hist : Bool) : (s.emitFull code source payload ct hist).sfHeld = s.sfHeld := by
  simp only [State.emitFull]; split <;> simp
@[simp] theorem State.emitFull_trips (s : State) (code source : BitVec 16) (payload : List Byte) (ct : CT) (hist : Bool) : (s.emitFull code source payload ct hist).trips = s.trips := by
  simp only [State.emitFull]; split <;> simp
@[simp] theorem State.emitFull_sketches (s : State) (code source : BitVec 16) (payload : List Byte) (ct : CT) (hist : Bool) : (s.emitFull code source payload ct hist).sketches = s.sketches := by
  simp only [State.emitFull]; split <;> simp
@[simp] theorem State.emitFull_hk (s : State) (code source : BitVec 16) (payload : List Byte) (ct : CT) (hist : Bool) : (s.emitFull code source payload ct hist).hk = s.hk := by
  simp only [State.emitFull]; split <;> simp
@[simp] theorem State.emitFull_tw (s : State) (code source : BitVec 16) (payload : List Byte) (ct : CT) (hist : Bool) : (s.emitFull code source payload ct hist).tw = s.tw := by
  simp only [State.emitFull]; split <;> simp
@[simp] theorem State.emitFull_loc (s : State) (code source : BitVec 16) (payload : List Byte) (ct : CT) (hist : Bool) : (s.emitFull code source payload ct hist).loc = s.loc := by
  simp only [State.emitFull]; split <;> simp
@[simp] theorem State.emitFull_net (s : State) (code source : BitVec 16) (payload : List Byte) (ct : CT) (hist : Bool) : (s.emitFull code source payload ct hist).net = s.net := by
  simp only [State.emitFull]; split <;> simp
@[simp] theorem State.emitFull_inbox (s : State) (code source : BitVec 16) (payload : List Byte) (ct : CT) (hist : Bool) : (s.emitFull code source payload ct hist).inbox = s.inbox := by
  simp only [State.emitFull]; split <;> simp
@[simp] theorem State.emitFull_waiting (s : State) (code source : BitVec 16) (payload : List Byte) (ct : CT) (hist : Bool) : (s.emitFull code source payload ct hist).waiting = s.waiting := by
  simp only [State.emitFull]; split <;> simp
@[simp] theorem State.emitFull_active (s : State) (code source : BitVec 16) (payload : List Byte) (ct : CT) (hist : Bool) : (s.emitFull code source payload ct hist).active = s.active := by
  simp only [State.emitFull]; split <;> simp
@[simp] theorem State.emitFull_claim (s : State) (code source : BitVec 16) (payload : List Byte) (ct : CT) (hist : Bool) : (s.emitFull code source payload ct hist).claim = s.claim := by
  simp only [State.emitFull]; split <;> simp
@[simp] theorem State.emitFull_setFail (s : State) (code source : BitVec 16) (payload : List Byte) (ct : CT) (hist : Bool) : (s.emitFull code source payload ct hist).setFail = s.setFail := by
  simp only [State.emitFull]; split <;> simp
@[simp] theorem State.emitFull_bg (s : State) (code source : BitVec 16) (payload : List Byte) (ct : CT) (hist : Bool) : (s.emitFull code source payload ct hist).bg = s.bg := by
  simp only [State.emitFull]; split <;> simp
@[simp] theorem State.emitFull_bankA (s : State) (code source : BitVec 16) (payload : List Byte) (ct : CT) (hist : Bool) : (s.emitFull code source payload ct hist).bankA = s.bankA := by
  simp only [State.emitFull]; split <;> simp
@[simp] theorem State.emitFull_bankB (s : State) (code source : BitVec 16) (payload : List Byte) (ct : CT) (hist : Bool) : (s.emitFull code source payload ct hist).bankB = s.bankB := by
  simp only [State.emitFull]; split <;> simp
@[simp] theorem State.emitFull_verify (s : State) (code source : BitVec 16) (payload : List Byte) (ct : CT) (hist : Bool) : (s.emitFull code source payload ct hist).verify = s.verify := by
  simp only [State.emitFull]; split <;> simp
@[simp] theorem State.emitFull_advance (s : State) (code source : BitVec 16) (payload : List Byte) (ct : CT) (hist : Bool) : (s.emitFull code source payload ct hist).advance = s.advance := by
  simp only [State.emitFull]; split <;> simp
@[simp] theorem State.emitFull_points (s : State) (code source : BitVec 16) (payload : List Byte) (ct : CT) (hist : Bool) : (s.emitFull code source payload ct hist).points = s.points := by
  simp only [State.emitFull]; split <;> simp
@[simp] theorem State.emitFull_health (s : State) (code source : BitVec 16) (payload : List Byte) (ct : CT) (hist : Bool) : (s.emitFull code source payload ct hist).health = s.health := by
  simp only [State.emitFull]; split <;> simp
@[simp] theorem State.emitFull_pending (s : State) (code source : BitVec 16) (payload : List Byte) (ct : CT) (hist : Bool) : (s.emitFull code source payload ct hist).pending = s.pending := by
  simp only [State.emitFull]; split <;> simp
@[simp] theorem State.emitFull_fresh (s : State) (code source : BitVec 16) (payload : List Byte) (ct : CT) (hist : Bool) : (s.emitFull code source payload ct hist).fresh = s.fresh := by
  simp only [State.emitFull]; split <;> simp

@[simp] theorem State.emit_fuse (s : State) (code source : BitVec 16) (payload : List Byte) : (s.emit code source payload).fuse = s.fuse := State.emitFull_fuse s code source payload _ _
@[simp] theorem State.emit_sup (s : State) (code source : BitVec 16) (payload : List Byte) : (s.emit code source payload).sup = s.sup := State.emitFull_sup s code source payload _ _
@[simp] theorem State.emit_time (s : State) (code source : BitVec 16) (payload : List Byte) : (s.emit code source payload).time = s.time := State.emitFull_time s code source payload _ _
@[simp] theorem State.emit_chan (s : State) (code source : BitVec 16) (payload : List Byte) : (s.emit code source payload).chan = s.chan := State.emitFull_chan s code source payload _ _
@[simp] theorem State.emit_tt (s : State) (code source : BitVec 16) (payload : List Byte) : (s.emit code source payload).tt = s.tt := State.emitFull_tt s code source payload _ _
@[simp] theorem State.emit_hs (s : State) (code source : BitVec 16) (payload : List Byte) : (s.emit code source payload).hs = s.hs := State.emitFull_hs s code source payload _ _
@[simp] theorem State.emit_sq (s : State) (code source : BitVec 16) (payload : List Byte) : (s.emit code source payload).sq = s.sq := State.emitFull_sq s code source payload _ _
@[simp] theorem State.emit_port (s : State) (code source : BitVec 16) (payload : List Byte) : (s.emit code source payload).port = s.port := State.emitFull_port s code source payload _ _
@[simp] theorem State.emit_plat (s : State) (code source : BitVec 16) (payload : List Byte) : (s.emit code source payload).plat = s.plat := State.emitFull_plat s code source payload _ _
@[simp] theorem State.emit_core (s : State) (code source : BitVec 16) (payload : List Byte) : (s.emit code source payload).core = s.core := State.emitFull_core s code source payload _ _
@[simp] theorem State.emit_sidx (s : State) (code source : BitVec 16) (payload : List Byte) : (s.emit code source payload).sidx = s.sidx := State.emitFull_sidx s code source payload _ _
@[simp] theorem State.emit_phase (s : State) (code source : BitVec 16) (payload : List Byte) : (s.emit code source payload).phase = s.phase := State.emitFull_phase s code source payload _ _
@[simp] theorem State.emit_snapCt (s : State) (code source : BitVec 16) (payload : List Byte) : (s.emit code source payload).snapCt = s.snapCt := State.emitFull_snapCt s code source payload _ _
@[simp] theorem State.emit_snapPh (s : State) (code source : BitVec 16) (payload : List Byte) : (s.emit code source payload).snapPh = s.snapPh := State.emitFull_snapPh s code source payload _ _
@[simp] theorem State.emit_stamps (s : State) (code source : BitVec 16) (payload : List Byte) : (s.emit code source payload).stamps = s.stamps := State.emitFull_stamps s code source payload _ _
@[simp] theorem State.emit_firsts (s : State) (code source : BitVec 16) (payload : List Byte) : (s.emit code source payload).firsts = s.firsts := State.emitFull_firsts s code source payload _ _
@[simp] theorem State.emit_sfHeld (s : State) (code source : BitVec 16) (payload : List Byte) : (s.emit code source payload).sfHeld = s.sfHeld := State.emitFull_sfHeld s code source payload _ _
@[simp] theorem State.emit_trips (s : State) (code source : BitVec 16) (payload : List Byte) : (s.emit code source payload).trips = s.trips := State.emitFull_trips s code source payload _ _
@[simp] theorem State.emit_sketches (s : State) (code source : BitVec 16) (payload : List Byte) : (s.emit code source payload).sketches = s.sketches := State.emitFull_sketches s code source payload _ _
@[simp] theorem State.emit_hk (s : State) (code source : BitVec 16) (payload : List Byte) : (s.emit code source payload).hk = s.hk := State.emitFull_hk s code source payload _ _
@[simp] theorem State.emit_tw (s : State) (code source : BitVec 16) (payload : List Byte) : (s.emit code source payload).tw = s.tw := State.emitFull_tw s code source payload _ _
@[simp] theorem State.emit_loc (s : State) (code source : BitVec 16) (payload : List Byte) : (s.emit code source payload).loc = s.loc := State.emitFull_loc s code source payload _ _
@[simp] theorem State.emit_net (s : State) (code source : BitVec 16) (payload : List Byte) : (s.emit code source payload).net = s.net := State.emitFull_net s code source payload _ _
@[simp] theorem State.emit_inbox (s : State) (code source : BitVec 16) (payload : List Byte) : (s.emit code source payload).inbox = s.inbox := State.emitFull_inbox s code source payload _ _
@[simp] theorem State.emit_waiting (s : State) (code source : BitVec 16) (payload : List Byte) : (s.emit code source payload).waiting = s.waiting := State.emitFull_waiting s code source payload _ _
@[simp] theorem State.emit_active (s : State) (code source : BitVec 16) (payload : List Byte) : (s.emit code source payload).active = s.active := State.emitFull_active s code source payload _ _
@[simp] theorem State.emit_claim (s : State) (code source : BitVec 16) (payload : List Byte) : (s.emit code source payload).claim = s.claim := State.emitFull_claim s code source payload _ _
@[simp] theorem State.emit_setFail (s : State) (code source : BitVec 16) (payload : List Byte) : (s.emit code source payload).setFail = s.setFail := State.emitFull_setFail s code source payload _ _
@[simp] theorem State.emit_bg (s : State) (code source : BitVec 16) (payload : List Byte) : (s.emit code source payload).bg = s.bg := State.emitFull_bg s code source payload _ _
@[simp] theorem State.emit_bankA (s : State) (code source : BitVec 16) (payload : List Byte) : (s.emit code source payload).bankA = s.bankA := State.emitFull_bankA s code source payload _ _
@[simp] theorem State.emit_bankB (s : State) (code source : BitVec 16) (payload : List Byte) : (s.emit code source payload).bankB = s.bankB := State.emitFull_bankB s code source payload _ _
@[simp] theorem State.emit_verify (s : State) (code source : BitVec 16) (payload : List Byte) : (s.emit code source payload).verify = s.verify := State.emitFull_verify s code source payload _ _
@[simp] theorem State.emit_advance (s : State) (code source : BitVec 16) (payload : List Byte) : (s.emit code source payload).advance = s.advance := State.emitFull_advance s code source payload _ _
@[simp] theorem State.emit_points (s : State) (code source : BitVec 16) (payload : List Byte) : (s.emit code source payload).points = s.points := State.emitFull_points s code source payload _ _
@[simp] theorem State.emit_health (s : State) (code source : BitVec 16) (payload : List Byte) : (s.emit code source payload).health = s.health := State.emitFull_health s code source payload _ _
@[simp] theorem State.emit_pending (s : State) (code source : BitVec 16) (payload : List Byte) : (s.emit code source payload).pending = s.pending := State.emitFull_pending s code source payload _ _
@[simp] theorem State.emit_fresh (s : State) (code source : BitVec 16) (payload : List Byte) : (s.emit code source payload).fresh = s.fresh := State.emitFull_fresh s code source payload _ _

@[simp] theorem State.emitSt_fuse (s : State) (code : BitVec 16) (payload : List Byte) : (s.emitSt code payload).fuse = s.fuse := State.emit_fuse s code _ payload
@[simp] theorem State.emitSt_sup (s : State) (code : BitVec 16) (payload : List Byte) : (s.emitSt code payload).sup = s.sup := State.emit_sup s code _ payload
@[simp] theorem State.emitSt_time (s : State) (code : BitVec 16) (payload : List Byte) : (s.emitSt code payload).time = s.time := State.emit_time s code _ payload
@[simp] theorem State.emitSt_chan (s : State) (code : BitVec 16) (payload : List Byte) : (s.emitSt code payload).chan = s.chan := State.emit_chan s code _ payload
@[simp] theorem State.emitSt_tt (s : State) (code : BitVec 16) (payload : List Byte) : (s.emitSt code payload).tt = s.tt := State.emit_tt s code _ payload
@[simp] theorem State.emitSt_hs (s : State) (code : BitVec 16) (payload : List Byte) : (s.emitSt code payload).hs = s.hs := State.emit_hs s code _ payload
@[simp] theorem State.emitSt_sq (s : State) (code : BitVec 16) (payload : List Byte) : (s.emitSt code payload).sq = s.sq := State.emit_sq s code _ payload
@[simp] theorem State.emitSt_port (s : State) (code : BitVec 16) (payload : List Byte) : (s.emitSt code payload).port = s.port := State.emit_port s code _ payload
@[simp] theorem State.emitSt_plat (s : State) (code : BitVec 16) (payload : List Byte) : (s.emitSt code payload).plat = s.plat := State.emit_plat s code _ payload
@[simp] theorem State.emitSt_core (s : State) (code : BitVec 16) (payload : List Byte) : (s.emitSt code payload).core = s.core := State.emit_core s code _ payload
@[simp] theorem State.emitSt_sidx (s : State) (code : BitVec 16) (payload : List Byte) : (s.emitSt code payload).sidx = s.sidx := State.emit_sidx s code _ payload
@[simp] theorem State.emitSt_phase (s : State) (code : BitVec 16) (payload : List Byte) : (s.emitSt code payload).phase = s.phase := State.emit_phase s code _ payload
@[simp] theorem State.emitSt_snapCt (s : State) (code : BitVec 16) (payload : List Byte) : (s.emitSt code payload).snapCt = s.snapCt := State.emit_snapCt s code _ payload
@[simp] theorem State.emitSt_snapPh (s : State) (code : BitVec 16) (payload : List Byte) : (s.emitSt code payload).snapPh = s.snapPh := State.emit_snapPh s code _ payload
@[simp] theorem State.emitSt_stamps (s : State) (code : BitVec 16) (payload : List Byte) : (s.emitSt code payload).stamps = s.stamps := State.emit_stamps s code _ payload
@[simp] theorem State.emitSt_firsts (s : State) (code : BitVec 16) (payload : List Byte) : (s.emitSt code payload).firsts = s.firsts := State.emit_firsts s code _ payload
@[simp] theorem State.emitSt_sfHeld (s : State) (code : BitVec 16) (payload : List Byte) : (s.emitSt code payload).sfHeld = s.sfHeld := State.emit_sfHeld s code _ payload
@[simp] theorem State.emitSt_trips (s : State) (code : BitVec 16) (payload : List Byte) : (s.emitSt code payload).trips = s.trips := State.emit_trips s code _ payload
@[simp] theorem State.emitSt_sketches (s : State) (code : BitVec 16) (payload : List Byte) : (s.emitSt code payload).sketches = s.sketches := State.emit_sketches s code _ payload
@[simp] theorem State.emitSt_hk (s : State) (code : BitVec 16) (payload : List Byte) : (s.emitSt code payload).hk = s.hk := State.emit_hk s code _ payload
@[simp] theorem State.emitSt_tw (s : State) (code : BitVec 16) (payload : List Byte) : (s.emitSt code payload).tw = s.tw := State.emit_tw s code _ payload
@[simp] theorem State.emitSt_loc (s : State) (code : BitVec 16) (payload : List Byte) : (s.emitSt code payload).loc = s.loc := State.emit_loc s code _ payload
@[simp] theorem State.emitSt_net (s : State) (code : BitVec 16) (payload : List Byte) : (s.emitSt code payload).net = s.net := State.emit_net s code _ payload
@[simp] theorem State.emitSt_inbox (s : State) (code : BitVec 16) (payload : List Byte) : (s.emitSt code payload).inbox = s.inbox := State.emit_inbox s code _ payload
@[simp] theorem State.emitSt_waiting (s : State) (code : BitVec 16) (payload : List Byte) : (s.emitSt code payload).waiting = s.waiting := State.emit_waiting s code _ payload
@[simp] theorem State.emitSt_active (s : State) (code : BitVec 16) (payload : List Byte) : (s.emitSt code payload).active = s.active := State.emit_active s code _ payload
@[simp] theorem State.emitSt_claim (s : State) (code : BitVec 16) (payload : List Byte) : (s.emitSt code payload).claim = s.claim := State.emit_claim s code _ payload
@[simp] theorem State.emitSt_setFail (s : State) (code : BitVec 16) (payload : List Byte) : (s.emitSt code payload).setFail = s.setFail := State.emit_setFail s code _ payload
@[simp] theorem State.emitSt_bg (s : State) (code : BitVec 16) (payload : List Byte) : (s.emitSt code payload).bg = s.bg := State.emit_bg s code _ payload
@[simp] theorem State.emitSt_bankA (s : State) (code : BitVec 16) (payload : List Byte) : (s.emitSt code payload).bankA = s.bankA := State.emit_bankA s code _ payload
@[simp] theorem State.emitSt_bankB (s : State) (code : BitVec 16) (payload : List Byte) : (s.emitSt code payload).bankB = s.bankB := State.emit_bankB s code _ payload
@[simp] theorem State.emitSt_verify (s : State) (code : BitVec 16) (payload : List Byte) : (s.emitSt code payload).verify = s.verify := State.emit_verify s code _ payload
@[simp] theorem State.emitSt_advance (s : State) (code : BitVec 16) (payload : List Byte) : (s.emitSt code payload).advance = s.advance := State.emit_advance s code _ payload
@[simp] theorem State.emitSt_points (s : State) (code : BitVec 16) (payload : List Byte) : (s.emitSt code payload).points = s.points := State.emit_points s code _ payload
@[simp] theorem State.emitSt_health (s : State) (code : BitVec 16) (payload : List Byte) : (s.emitSt code payload).health = s.health := State.emit_health s code _ payload
@[simp] theorem State.emitSt_pending (s : State) (code : BitVec 16) (payload : List Byte) : (s.emitSt code payload).pending = s.pending := State.emit_pending s code _ payload
@[simp] theorem State.emitSt_fresh (s : State) (code : BitVec 16) (payload : List Byte) : (s.emitSt code payload).fresh = s.fresh := State.emit_fresh s code _ payload

@[simp] theorem State.raiseHealth_fuse (s : State) (cause unit detail value : Nat) : (s.raiseHealth cause unit detail value).fuse = s.fuse := by
  simp only [State.raiseHealth, State.emitSt_fuse]; split <;> rfl
@[simp] theorem State.raiseHealth_time (s : State) (cause unit detail value : Nat) : (s.raiseHealth cause unit detail value).time = s.time := by
  simp only [State.raiseHealth, State.emitSt_time]; split <;> rfl
@[simp] theorem State.raiseHealth_chan (s : State) (cause unit detail value : Nat) : (s.raiseHealth cause unit detail value).chan = s.chan := by
  simp only [State.raiseHealth, State.emitSt_chan]; split <;> rfl
@[simp] theorem State.raiseHealth_tt (s : State) (cause unit detail value : Nat) : (s.raiseHealth cause unit detail value).tt = s.tt := by
  simp only [State.raiseHealth, State.emitSt_tt]; split <;> rfl
@[simp] theorem State.raiseHealth_hs (s : State) (cause unit detail value : Nat) : (s.raiseHealth cause unit detail value).hs = s.hs := by
  simp only [State.raiseHealth, State.emitSt_hs]; split <;> rfl
@[simp] theorem State.raiseHealth_sq (s : State) (cause unit detail value : Nat) : (s.raiseHealth cause unit detail value).sq = s.sq := by
  simp only [State.raiseHealth, State.emitSt_sq]; split <;> rfl
@[simp] theorem State.raiseHealth_port (s : State) (cause unit detail value : Nat) : (s.raiseHealth cause unit detail value).port = s.port := by
  simp only [State.raiseHealth, State.emitSt_port]; split <;> rfl
@[simp] theorem State.raiseHealth_plat (s : State) (cause unit detail value : Nat) : (s.raiseHealth cause unit detail value).plat = s.plat := by
  simp only [State.raiseHealth, State.emitSt_plat]; split <;> rfl
@[simp] theorem State.raiseHealth_core (s : State) (cause unit detail value : Nat) : (s.raiseHealth cause unit detail value).core = s.core := by
  simp only [State.raiseHealth, State.emitSt_core]; split <;> rfl
@[simp] theorem State.raiseHealth_sidx (s : State) (cause unit detail value : Nat) : (s.raiseHealth cause unit detail value).sidx = s.sidx := by
  simp only [State.raiseHealth, State.emitSt_sidx]; split <;> rfl
@[simp] theorem State.raiseHealth_phase (s : State) (cause unit detail value : Nat) : (s.raiseHealth cause unit detail value).phase = s.phase := by
  simp only [State.raiseHealth, State.emitSt_phase]; split <;> rfl
@[simp] theorem State.raiseHealth_snapCt (s : State) (cause unit detail value : Nat) : (s.raiseHealth cause unit detail value).snapCt = s.snapCt := by
  simp only [State.raiseHealth, State.emitSt_snapCt]; split <;> rfl
@[simp] theorem State.raiseHealth_snapPh (s : State) (cause unit detail value : Nat) : (s.raiseHealth cause unit detail value).snapPh = s.snapPh := by
  simp only [State.raiseHealth, State.emitSt_snapPh]; split <;> rfl
@[simp] theorem State.raiseHealth_stamps (s : State) (cause unit detail value : Nat) : (s.raiseHealth cause unit detail value).stamps = s.stamps := by
  simp only [State.raiseHealth, State.emitSt_stamps]; split <;> rfl
@[simp] theorem State.raiseHealth_firsts (s : State) (cause unit detail value : Nat) : (s.raiseHealth cause unit detail value).firsts = s.firsts := by
  simp only [State.raiseHealth, State.emitSt_firsts]; split <;> rfl
@[simp] theorem State.raiseHealth_sfHeld (s : State) (cause unit detail value : Nat) : (s.raiseHealth cause unit detail value).sfHeld = s.sfHeld := by
  simp only [State.raiseHealth, State.emitSt_sfHeld]; split <;> rfl
@[simp] theorem State.raiseHealth_trips (s : State) (cause unit detail value : Nat) : (s.raiseHealth cause unit detail value).trips = s.trips := by
  simp only [State.raiseHealth, State.emitSt_trips]; split <;> rfl
@[simp] theorem State.raiseHealth_sketches (s : State) (cause unit detail value : Nat) : (s.raiseHealth cause unit detail value).sketches = s.sketches := by
  simp only [State.raiseHealth, State.emitSt_sketches]; split <;> rfl
@[simp] theorem State.raiseHealth_hk (s : State) (cause unit detail value : Nat) : (s.raiseHealth cause unit detail value).hk = s.hk := by
  simp only [State.raiseHealth, State.emitSt_hk]; split <;> rfl
@[simp] theorem State.raiseHealth_tw (s : State) (cause unit detail value : Nat) : (s.raiseHealth cause unit detail value).tw = s.tw := by
  simp only [State.raiseHealth, State.emitSt_tw]; split <;> rfl
@[simp] theorem State.raiseHealth_loc (s : State) (cause unit detail value : Nat) : (s.raiseHealth cause unit detail value).loc = s.loc := by
  simp only [State.raiseHealth, State.emitSt_loc]; split <;> rfl
@[simp] theorem State.raiseHealth_net (s : State) (cause unit detail value : Nat) : (s.raiseHealth cause unit detail value).net = s.net := by
  simp only [State.raiseHealth, State.emitSt_net]; split <;> rfl
@[simp] theorem State.raiseHealth_inbox (s : State) (cause unit detail value : Nat) : (s.raiseHealth cause unit detail value).inbox = s.inbox := by
  simp only [State.raiseHealth, State.emitSt_inbox]; split <;> rfl
@[simp] theorem State.raiseHealth_waiting (s : State) (cause unit detail value : Nat) : (s.raiseHealth cause unit detail value).waiting = s.waiting := by
  simp only [State.raiseHealth, State.emitSt_waiting]; split <;> rfl
@[simp] theorem State.raiseHealth_active (s : State) (cause unit detail value : Nat) : (s.raiseHealth cause unit detail value).active = s.active := by
  simp only [State.raiseHealth, State.emitSt_active]; split <;> rfl
@[simp] theorem State.raiseHealth_claim (s : State) (cause unit detail value : Nat) : (s.raiseHealth cause unit detail value).claim = s.claim := by
  simp only [State.raiseHealth, State.emitSt_claim]; split <;> rfl
@[simp] theorem State.raiseHealth_setFail (s : State) (cause unit detail value : Nat) : (s.raiseHealth cause unit detail value).setFail = s.setFail := by
  simp only [State.raiseHealth, State.emitSt_setFail]; split <;> rfl
@[simp] theorem State.raiseHealth_bg (s : State) (cause unit detail value : Nat) : (s.raiseHealth cause unit detail value).bg = s.bg := by
  simp only [State.raiseHealth, State.emitSt_bg]; split <;> rfl
@[simp] theorem State.raiseHealth_bankA (s : State) (cause unit detail value : Nat) : (s.raiseHealth cause unit detail value).bankA = s.bankA := by
  simp only [State.raiseHealth, State.emitSt_bankA]; split <;> rfl
@[simp] theorem State.raiseHealth_bankB (s : State) (cause unit detail value : Nat) : (s.raiseHealth cause unit detail value).bankB = s.bankB := by
  simp only [State.raiseHealth, State.emitSt_bankB]; split <;> rfl
@[simp] theorem State.raiseHealth_verify (s : State) (cause unit detail value : Nat) : (s.raiseHealth cause unit detail value).verify = s.verify := by
  simp only [State.raiseHealth, State.emitSt_verify]; split <;> rfl
@[simp] theorem State.raiseHealth_advance (s : State) (cause unit detail value : Nat) : (s.raiseHealth cause unit detail value).advance = s.advance := by
  simp only [State.raiseHealth, State.emitSt_advance]; split <;> rfl
@[simp] theorem State.raiseHealth_points (s : State) (cause unit detail value : Nat) : (s.raiseHealth cause unit detail value).points = s.points := by
  simp only [State.raiseHealth, State.emitSt_points]; split <;> rfl
@[simp] theorem State.raiseHealth_pending (s : State) (cause unit detail value : Nat) : (s.raiseHealth cause unit detail value).pending = s.pending := by
  simp only [State.raiseHealth, State.emitSt_pending]; split <;> rfl
@[simp] theorem State.raiseHealth_fresh (s : State) (cause unit detail value : Nat) : (s.raiseHealth cause unit detail value).fresh = s.fresh := by
  simp only [State.raiseHealth, State.emitSt_fresh]; split <;> rfl

@[simp] theorem State.healthClear_fuse (s : State) (cause : Nat) : (s.healthClear cause).fuse = s.fuse := (rfl)
@[simp] theorem State.healthClear_time (s : State) (cause : Nat) : (s.healthClear cause).time = s.time := (rfl)
@[simp] theorem State.healthClear_chan (s : State) (cause : Nat) : (s.healthClear cause).chan = s.chan := (rfl)
@[simp] theorem State.healthClear_tt (s : State) (cause : Nat) : (s.healthClear cause).tt = s.tt := (rfl)
@[simp] theorem State.healthClear_hs (s : State) (cause : Nat) : (s.healthClear cause).hs = s.hs := (rfl)
@[simp] theorem State.healthClear_sq (s : State) (cause : Nat) : (s.healthClear cause).sq = s.sq := (rfl)
@[simp] theorem State.healthClear_port (s : State) (cause : Nat) : (s.healthClear cause).port = s.port := (rfl)
@[simp] theorem State.healthClear_plat (s : State) (cause : Nat) : (s.healthClear cause).plat = s.plat := (rfl)
@[simp] theorem State.healthClear_core (s : State) (cause : Nat) : (s.healthClear cause).core = s.core := (rfl)
@[simp] theorem State.healthClear_sidx (s : State) (cause : Nat) : (s.healthClear cause).sidx = s.sidx := (rfl)
@[simp] theorem State.healthClear_phase (s : State) (cause : Nat) : (s.healthClear cause).phase = s.phase := (rfl)
@[simp] theorem State.healthClear_snapCt (s : State) (cause : Nat) : (s.healthClear cause).snapCt = s.snapCt := (rfl)
@[simp] theorem State.healthClear_snapPh (s : State) (cause : Nat) : (s.healthClear cause).snapPh = s.snapPh := (rfl)
@[simp] theorem State.healthClear_stamps (s : State) (cause : Nat) : (s.healthClear cause).stamps = s.stamps := (rfl)
@[simp] theorem State.healthClear_firsts (s : State) (cause : Nat) : (s.healthClear cause).firsts = s.firsts := (rfl)
@[simp] theorem State.healthClear_sfHeld (s : State) (cause : Nat) : (s.healthClear cause).sfHeld = s.sfHeld := (rfl)
@[simp] theorem State.healthClear_trips (s : State) (cause : Nat) : (s.healthClear cause).trips = s.trips := (rfl)
@[simp] theorem State.healthClear_sketches (s : State) (cause : Nat) : (s.healthClear cause).sketches = s.sketches := (rfl)
@[simp] theorem State.healthClear_hk (s : State) (cause : Nat) : (s.healthClear cause).hk = s.hk := (rfl)
@[simp] theorem State.healthClear_host (s : State) (cause : Nat) : (s.healthClear cause).host = s.host := (rfl)
@[simp] theorem State.healthClear_tw (s : State) (cause : Nat) : (s.healthClear cause).tw = s.tw := (rfl)
@[simp] theorem State.healthClear_loc (s : State) (cause : Nat) : (s.healthClear cause).loc = s.loc := (rfl)
@[simp] theorem State.healthClear_net (s : State) (cause : Nat) : (s.healthClear cause).net = s.net := (rfl)
@[simp] theorem State.healthClear_inbox (s : State) (cause : Nat) : (s.healthClear cause).inbox = s.inbox := (rfl)
@[simp] theorem State.healthClear_waiting (s : State) (cause : Nat) : (s.healthClear cause).waiting = s.waiting := (rfl)
@[simp] theorem State.healthClear_active (s : State) (cause : Nat) : (s.healthClear cause).active = s.active := (rfl)
@[simp] theorem State.healthClear_claim (s : State) (cause : Nat) : (s.healthClear cause).claim = s.claim := (rfl)
@[simp] theorem State.healthClear_ssn (s : State) (cause : Nat) : (s.healthClear cause).ssn = s.ssn := (rfl)
@[simp] theorem State.healthClear_resume (s : State) (cause : Nat) : (s.healthClear cause).resume = s.resume := (rfl)
@[simp] theorem State.healthClear_seqTick (s : State) (cause : Nat) : (s.healthClear cause).seqTick = s.seqTick := (rfl)
@[simp] theorem State.healthClear_setFail (s : State) (cause : Nat) : (s.healthClear cause).setFail = s.setFail := (rfl)
@[simp] theorem State.healthClear_bg (s : State) (cause : Nat) : (s.healthClear cause).bg = s.bg := (rfl)
@[simp] theorem State.healthClear_store (s : State) (cause : Nat) : (s.healthClear cause).store = s.store := (rfl)
@[simp] theorem State.healthClear_bankA (s : State) (cause : Nat) : (s.healthClear cause).bankA = s.bankA := (rfl)
@[simp] theorem State.healthClear_bankB (s : State) (cause : Nat) : (s.healthClear cause).bankB = s.bankB := (rfl)
@[simp] theorem State.healthClear_verify (s : State) (cause : Nat) : (s.healthClear cause).verify = s.verify := (rfl)
@[simp] theorem State.healthClear_advance (s : State) (cause : Nat) : (s.healthClear cause).advance = s.advance := (rfl)
@[simp] theorem State.healthClear_points (s : State) (cause : Nat) : (s.healthClear cause).points = s.points := (rfl)
@[simp] theorem State.healthClear_pending (s : State) (cause : Nat) : (s.healthClear cause).pending = s.pending := (rfl)
@[simp] theorem State.healthClear_fresh (s : State) (cause : Nat) : (s.healthClear cause).fresh = s.fresh := (rfl)

@[simp] theorem State.queueReply_fuse (s : State) (h : HostPort) (r : Reply) : (s.queueReply h r).fuse = s.fuse := (rfl)
@[simp] theorem State.queueReply_sup (s : State) (h : HostPort) (r : Reply) : (s.queueReply h r).sup = s.sup := (rfl)
@[simp] theorem State.queueReply_time (s : State) (h : HostPort) (r : Reply) : (s.queueReply h r).time = s.time := (rfl)
@[simp] theorem State.queueReply_chan (s : State) (h : HostPort) (r : Reply) : (s.queueReply h r).chan = s.chan := (rfl)
@[simp] theorem State.queueReply_tt (s : State) (h : HostPort) (r : Reply) : (s.queueReply h r).tt = s.tt := (rfl)
@[simp] theorem State.queueReply_hs (s : State) (h : HostPort) (r : Reply) : (s.queueReply h r).hs = s.hs := (rfl)
@[simp] theorem State.queueReply_sq (s : State) (h : HostPort) (r : Reply) : (s.queueReply h r).sq = s.sq := (rfl)
@[simp] theorem State.queueReply_port (s : State) (h : HostPort) (r : Reply) : (s.queueReply h r).port = s.port := (rfl)
@[simp] theorem State.queueReply_plat (s : State) (h : HostPort) (r : Reply) : (s.queueReply h r).plat = s.plat := (rfl)
@[simp] theorem State.queueReply_core (s : State) (h : HostPort) (r : Reply) : (s.queueReply h r).core = s.core := (rfl)
@[simp] theorem State.queueReply_sidx (s : State) (h : HostPort) (r : Reply) : (s.queueReply h r).sidx = s.sidx := (rfl)
@[simp] theorem State.queueReply_phase (s : State) (h : HostPort) (r : Reply) : (s.queueReply h r).phase = s.phase := (rfl)
@[simp] theorem State.queueReply_snapCt (s : State) (h : HostPort) (r : Reply) : (s.queueReply h r).snapCt = s.snapCt := (rfl)
@[simp] theorem State.queueReply_snapPh (s : State) (h : HostPort) (r : Reply) : (s.queueReply h r).snapPh = s.snapPh := (rfl)
@[simp] theorem State.queueReply_stamps (s : State) (h : HostPort) (r : Reply) : (s.queueReply h r).stamps = s.stamps := (rfl)
@[simp] theorem State.queueReply_firsts (s : State) (h : HostPort) (r : Reply) : (s.queueReply h r).firsts = s.firsts := (rfl)
@[simp] theorem State.queueReply_sfHeld (s : State) (h : HostPort) (r : Reply) : (s.queueReply h r).sfHeld = s.sfHeld := (rfl)
@[simp] theorem State.queueReply_trips (s : State) (h : HostPort) (r : Reply) : (s.queueReply h r).trips = s.trips := (rfl)
@[simp] theorem State.queueReply_sketches (s : State) (h : HostPort) (r : Reply) : (s.queueReply h r).sketches = s.sketches := (rfl)
@[simp] theorem State.queueReply_hk (s : State) (h : HostPort) (r : Reply) : (s.queueReply h r).hk = s.hk := (rfl)
@[simp] theorem State.queueReply_tw (s : State) (h : HostPort) (r : Reply) : (s.queueReply h r).tw = s.tw := (rfl)
@[simp] theorem State.queueReply_loc (s : State) (h : HostPort) (r : Reply) : (s.queueReply h r).loc = s.loc := (rfl)
@[simp] theorem State.queueReply_net (s : State) (h : HostPort) (r : Reply) : (s.queueReply h r).net = s.net := (rfl)
@[simp] theorem State.queueReply_inbox (s : State) (h : HostPort) (r : Reply) : (s.queueReply h r).inbox = s.inbox := (rfl)
@[simp] theorem State.queueReply_waiting (s : State) (h : HostPort) (r : Reply) : (s.queueReply h r).waiting = s.waiting := (rfl)
@[simp] theorem State.queueReply_active (s : State) (h : HostPort) (r : Reply) : (s.queueReply h r).active = s.active := (rfl)
@[simp] theorem State.queueReply_claim (s : State) (h : HostPort) (r : Reply) : (s.queueReply h r).claim = s.claim := (rfl)
@[simp] theorem State.queueReply_ssn (s : State) (h : HostPort) (r : Reply) : (s.queueReply h r).ssn = s.ssn := (rfl)
@[simp] theorem State.queueReply_resume (s : State) (h : HostPort) (r : Reply) : (s.queueReply h r).resume = s.resume := (rfl)
@[simp] theorem State.queueReply_seqTick (s : State) (h : HostPort) (r : Reply) : (s.queueReply h r).seqTick = s.seqTick := (rfl)
@[simp] theorem State.queueReply_setFail (s : State) (h : HostPort) (r : Reply) : (s.queueReply h r).setFail = s.setFail := (rfl)
@[simp] theorem State.queueReply_bg (s : State) (h : HostPort) (r : Reply) : (s.queueReply h r).bg = s.bg := (rfl)
@[simp] theorem State.queueReply_store (s : State) (h : HostPort) (r : Reply) : (s.queueReply h r).store = s.store := (rfl)
@[simp] theorem State.queueReply_bankA (s : State) (h : HostPort) (r : Reply) : (s.queueReply h r).bankA = s.bankA := (rfl)
@[simp] theorem State.queueReply_bankB (s : State) (h : HostPort) (r : Reply) : (s.queueReply h r).bankB = s.bankB := (rfl)
@[simp] theorem State.queueReply_verify (s : State) (h : HostPort) (r : Reply) : (s.queueReply h r).verify = s.verify := (rfl)
@[simp] theorem State.queueReply_advance (s : State) (h : HostPort) (r : Reply) : (s.queueReply h r).advance = s.advance := (rfl)
@[simp] theorem State.queueReply_points (s : State) (h : HostPort) (r : Reply) : (s.queueReply h r).points = s.points := (rfl)
@[simp] theorem State.queueReply_health (s : State) (h : HostPort) (r : Reply) : (s.queueReply h r).health = s.health := (rfl)
@[simp] theorem State.queueReply_pending (s : State) (h : HostPort) (r : Reply) : (s.queueReply h r).pending = s.pending := (rfl)
@[simp] theorem State.queueReply_fresh (s : State) (h : HostPort) (r : Reply) : (s.queueReply h r).fresh = s.fresh := (rfl)

@[simp] theorem State.replyTag_fuse (s : State) (p : Packet) (op st : BitVec 16) (payload : List Byte) : (s.replyTag p op st payload).fuse = s.fuse := (rfl)
@[simp] theorem State.replyTag_sup (s : State) (p : Packet) (op st : BitVec 16) (payload : List Byte) : (s.replyTag p op st payload).sup = s.sup := (rfl)
@[simp] theorem State.replyTag_time (s : State) (p : Packet) (op st : BitVec 16) (payload : List Byte) : (s.replyTag p op st payload).time = s.time := (rfl)
@[simp] theorem State.replyTag_chan (s : State) (p : Packet) (op st : BitVec 16) (payload : List Byte) : (s.replyTag p op st payload).chan = s.chan := (rfl)
@[simp] theorem State.replyTag_tt (s : State) (p : Packet) (op st : BitVec 16) (payload : List Byte) : (s.replyTag p op st payload).tt = s.tt := (rfl)
@[simp] theorem State.replyTag_hs (s : State) (p : Packet) (op st : BitVec 16) (payload : List Byte) : (s.replyTag p op st payload).hs = s.hs := (rfl)
@[simp] theorem State.replyTag_sq (s : State) (p : Packet) (op st : BitVec 16) (payload : List Byte) : (s.replyTag p op st payload).sq = s.sq := (rfl)
@[simp] theorem State.replyTag_port (s : State) (p : Packet) (op st : BitVec 16) (payload : List Byte) : (s.replyTag p op st payload).port = s.port := (rfl)
@[simp] theorem State.replyTag_plat (s : State) (p : Packet) (op st : BitVec 16) (payload : List Byte) : (s.replyTag p op st payload).plat = s.plat := (rfl)
@[simp] theorem State.replyTag_core (s : State) (p : Packet) (op st : BitVec 16) (payload : List Byte) : (s.replyTag p op st payload).core = s.core := (rfl)
@[simp] theorem State.replyTag_sidx (s : State) (p : Packet) (op st : BitVec 16) (payload : List Byte) : (s.replyTag p op st payload).sidx = s.sidx := (rfl)
@[simp] theorem State.replyTag_phase (s : State) (p : Packet) (op st : BitVec 16) (payload : List Byte) : (s.replyTag p op st payload).phase = s.phase := (rfl)
@[simp] theorem State.replyTag_snapCt (s : State) (p : Packet) (op st : BitVec 16) (payload : List Byte) : (s.replyTag p op st payload).snapCt = s.snapCt := (rfl)
@[simp] theorem State.replyTag_snapPh (s : State) (p : Packet) (op st : BitVec 16) (payload : List Byte) : (s.replyTag p op st payload).snapPh = s.snapPh := (rfl)
@[simp] theorem State.replyTag_stamps (s : State) (p : Packet) (op st : BitVec 16) (payload : List Byte) : (s.replyTag p op st payload).stamps = s.stamps := (rfl)
@[simp] theorem State.replyTag_firsts (s : State) (p : Packet) (op st : BitVec 16) (payload : List Byte) : (s.replyTag p op st payload).firsts = s.firsts := (rfl)
@[simp] theorem State.replyTag_sfHeld (s : State) (p : Packet) (op st : BitVec 16) (payload : List Byte) : (s.replyTag p op st payload).sfHeld = s.sfHeld := (rfl)
@[simp] theorem State.replyTag_trips (s : State) (p : Packet) (op st : BitVec 16) (payload : List Byte) : (s.replyTag p op st payload).trips = s.trips := (rfl)
@[simp] theorem State.replyTag_sketches (s : State) (p : Packet) (op st : BitVec 16) (payload : List Byte) : (s.replyTag p op st payload).sketches = s.sketches := (rfl)
@[simp] theorem State.replyTag_hk (s : State) (p : Packet) (op st : BitVec 16) (payload : List Byte) : (s.replyTag p op st payload).hk = s.hk := (rfl)
@[simp] theorem State.replyTag_tw (s : State) (p : Packet) (op st : BitVec 16) (payload : List Byte) : (s.replyTag p op st payload).tw = s.tw := (rfl)
@[simp] theorem State.replyTag_loc (s : State) (p : Packet) (op st : BitVec 16) (payload : List Byte) : (s.replyTag p op st payload).loc = s.loc := (rfl)
@[simp] theorem State.replyTag_net (s : State) (p : Packet) (op st : BitVec 16) (payload : List Byte) : (s.replyTag p op st payload).net = s.net := (rfl)
@[simp] theorem State.replyTag_inbox (s : State) (p : Packet) (op st : BitVec 16) (payload : List Byte) : (s.replyTag p op st payload).inbox = s.inbox := (rfl)
@[simp] theorem State.replyTag_waiting (s : State) (p : Packet) (op st : BitVec 16) (payload : List Byte) : (s.replyTag p op st payload).waiting = s.waiting := (rfl)
@[simp] theorem State.replyTag_active (s : State) (p : Packet) (op st : BitVec 16) (payload : List Byte) : (s.replyTag p op st payload).active = s.active := (rfl)
@[simp] theorem State.replyTag_claim (s : State) (p : Packet) (op st : BitVec 16) (payload : List Byte) : (s.replyTag p op st payload).claim = s.claim := (rfl)
@[simp] theorem State.replyTag_ssn (s : State) (p : Packet) (op st : BitVec 16) (payload : List Byte) : (s.replyTag p op st payload).ssn = s.ssn := (rfl)
@[simp] theorem State.replyTag_resume (s : State) (p : Packet) (op st : BitVec 16) (payload : List Byte) : (s.replyTag p op st payload).resume = s.resume := (rfl)
@[simp] theorem State.replyTag_seqTick (s : State) (p : Packet) (op st : BitVec 16) (payload : List Byte) : (s.replyTag p op st payload).seqTick = s.seqTick := (rfl)
@[simp] theorem State.replyTag_setFail (s : State) (p : Packet) (op st : BitVec 16) (payload : List Byte) : (s.replyTag p op st payload).setFail = s.setFail := (rfl)
@[simp] theorem State.replyTag_bg (s : State) (p : Packet) (op st : BitVec 16) (payload : List Byte) : (s.replyTag p op st payload).bg = s.bg := (rfl)
@[simp] theorem State.replyTag_store (s : State) (p : Packet) (op st : BitVec 16) (payload : List Byte) : (s.replyTag p op st payload).store = s.store := (rfl)
@[simp] theorem State.replyTag_bankA (s : State) (p : Packet) (op st : BitVec 16) (payload : List Byte) : (s.replyTag p op st payload).bankA = s.bankA := (rfl)
@[simp] theorem State.replyTag_bankB (s : State) (p : Packet) (op st : BitVec 16) (payload : List Byte) : (s.replyTag p op st payload).bankB = s.bankB := (rfl)
@[simp] theorem State.replyTag_verify (s : State) (p : Packet) (op st : BitVec 16) (payload : List Byte) : (s.replyTag p op st payload).verify = s.verify := (rfl)
@[simp] theorem State.replyTag_advance (s : State) (p : Packet) (op st : BitVec 16) (payload : List Byte) : (s.replyTag p op st payload).advance = s.advance := (rfl)
@[simp] theorem State.replyTag_points (s : State) (p : Packet) (op st : BitVec 16) (payload : List Byte) : (s.replyTag p op st payload).points = s.points := (rfl)
@[simp] theorem State.replyTag_health (s : State) (p : Packet) (op st : BitVec 16) (payload : List Byte) : (s.replyTag p op st payload).health = s.health := (rfl)
@[simp] theorem State.replyTag_pending (s : State) (p : Packet) (op st : BitVec 16) (payload : List Byte) : (s.replyTag p op st payload).pending = s.pending := (rfl)
@[simp] theorem State.replyTag_fresh (s : State) (p : Packet) (op st : BitVec 16) (payload : List Byte) : (s.replyTag p op st payload).fresh = s.fresh := (rfl)

@[simp] theorem State.accept_fuse (s : State) (c : Held) : (s.accept c).fuse = s.fuse := (rfl)
@[simp] theorem State.accept_sup (s : State) (c : Held) : (s.accept c).sup = s.sup := (rfl)
@[simp] theorem State.accept_time (s : State) (c : Held) : (s.accept c).time = s.time := (rfl)
@[simp] theorem State.accept_chan (s : State) (c : Held) : (s.accept c).chan = s.chan := (rfl)
@[simp] theorem State.accept_tt (s : State) (c : Held) : (s.accept c).tt = s.tt := (rfl)
@[simp] theorem State.accept_hs (s : State) (c : Held) : (s.accept c).hs = s.hs := (rfl)
@[simp] theorem State.accept_sq (s : State) (c : Held) : (s.accept c).sq = s.sq := (rfl)
@[simp] theorem State.accept_port (s : State) (c : Held) : (s.accept c).port = s.port := (rfl)
@[simp] theorem State.accept_plat (s : State) (c : Held) : (s.accept c).plat = s.plat := (rfl)
@[simp] theorem State.accept_core (s : State) (c : Held) : (s.accept c).core = s.core := (rfl)
@[simp] theorem State.accept_sidx (s : State) (c : Held) : (s.accept c).sidx = s.sidx := (rfl)
@[simp] theorem State.accept_phase (s : State) (c : Held) : (s.accept c).phase = s.phase := (rfl)
@[simp] theorem State.accept_snapCt (s : State) (c : Held) : (s.accept c).snapCt = s.snapCt := (rfl)
@[simp] theorem State.accept_snapPh (s : State) (c : Held) : (s.accept c).snapPh = s.snapPh := (rfl)
@[simp] theorem State.accept_stamps (s : State) (c : Held) : (s.accept c).stamps = s.stamps := (rfl)
@[simp] theorem State.accept_firsts (s : State) (c : Held) : (s.accept c).firsts = s.firsts := (rfl)
@[simp] theorem State.accept_sfHeld (s : State) (c : Held) : (s.accept c).sfHeld = s.sfHeld := (rfl)
@[simp] theorem State.accept_trips (s : State) (c : Held) : (s.accept c).trips = s.trips := (rfl)
@[simp] theorem State.accept_sketches (s : State) (c : Held) : (s.accept c).sketches = s.sketches := (rfl)
@[simp] theorem State.accept_hk (s : State) (c : Held) : (s.accept c).hk = s.hk := (rfl)
@[simp] theorem State.accept_tw (s : State) (c : Held) : (s.accept c).tw = s.tw := (rfl)
@[simp] theorem State.accept_loc (s : State) (c : Held) : (s.accept c).loc = s.loc := (rfl)
@[simp] theorem State.accept_net (s : State) (c : Held) : (s.accept c).net = s.net := (rfl)
@[simp] theorem State.accept_inbox (s : State) (c : Held) : (s.accept c).inbox = s.inbox := (rfl)
@[simp] theorem State.accept_waiting (s : State) (c : Held) : (s.accept c).waiting = s.waiting := (rfl)
@[simp] theorem State.accept_claim (s : State) (c : Held) : (s.accept c).claim = s.claim := (rfl)
@[simp] theorem State.accept_ssn (s : State) (c : Held) : (s.accept c).ssn = s.ssn := (rfl)
@[simp] theorem State.accept_resume (s : State) (c : Held) : (s.accept c).resume = s.resume := (rfl)
@[simp] theorem State.accept_seqTick (s : State) (c : Held) : (s.accept c).seqTick = s.seqTick := (rfl)
@[simp] theorem State.accept_setFail (s : State) (c : Held) : (s.accept c).setFail = s.setFail := (rfl)
@[simp] theorem State.accept_bg (s : State) (c : Held) : (s.accept c).bg = s.bg := (rfl)
@[simp] theorem State.accept_store (s : State) (c : Held) : (s.accept c).store = s.store := (rfl)
@[simp] theorem State.accept_bankA (s : State) (c : Held) : (s.accept c).bankA = s.bankA := (rfl)
@[simp] theorem State.accept_bankB (s : State) (c : Held) : (s.accept c).bankB = s.bankB := (rfl)
@[simp] theorem State.accept_verify (s : State) (c : Held) : (s.accept c).verify = s.verify := (rfl)
@[simp] theorem State.accept_advance (s : State) (c : Held) : (s.accept c).advance = s.advance := (rfl)
@[simp] theorem State.accept_points (s : State) (c : Held) : (s.accept c).points = s.points := (rfl)
@[simp] theorem State.accept_health (s : State) (c : Held) : (s.accept c).health = s.health := (rfl)
@[simp] theorem State.accept_pending (s : State) (c : Held) : (s.accept c).pending = s.pending := (rfl)
@[simp] theorem State.accept_fresh (s : State) (c : Held) : (s.accept c).fresh = s.fresh := (rfl)

@[simp] theorem State.complete_fuse (s : State) (r : CmdRef) (st : BitVec 16) (result : List Byte) : (s.complete r st result).fuse = s.fuse := by
  simp only [State.complete]; split <;> simp
@[simp] theorem State.complete_sup (s : State) (r : CmdRef) (st : BitVec 16) (result : List Byte) : (s.complete r st result).sup = s.sup := by
  simp only [State.complete]; split <;> simp
@[simp] theorem State.complete_time (s : State) (r : CmdRef) (st : BitVec 16) (result : List Byte) : (s.complete r st result).time = s.time := by
  simp only [State.complete]; split <;> simp
@[simp] theorem State.complete_chan (s : State) (r : CmdRef) (st : BitVec 16) (result : List Byte) : (s.complete r st result).chan = s.chan := by
  simp only [State.complete]; split <;> simp
@[simp] theorem State.complete_tt (s : State) (r : CmdRef) (st : BitVec 16) (result : List Byte) : (s.complete r st result).tt = s.tt := by
  simp only [State.complete]; split <;> simp
@[simp] theorem State.complete_hs (s : State) (r : CmdRef) (st : BitVec 16) (result : List Byte) : (s.complete r st result).hs = s.hs := by
  simp only [State.complete]; split <;> simp
@[simp] theorem State.complete_sq (s : State) (r : CmdRef) (st : BitVec 16) (result : List Byte) : (s.complete r st result).sq = s.sq := by
  simp only [State.complete]; split <;> simp
@[simp] theorem State.complete_port (s : State) (r : CmdRef) (st : BitVec 16) (result : List Byte) : (s.complete r st result).port = s.port := by
  simp only [State.complete]; split <;> simp
@[simp] theorem State.complete_plat (s : State) (r : CmdRef) (st : BitVec 16) (result : List Byte) : (s.complete r st result).plat = s.plat := by
  simp only [State.complete]; split <;> simp
@[simp] theorem State.complete_core (s : State) (r : CmdRef) (st : BitVec 16) (result : List Byte) : (s.complete r st result).core = s.core := by
  simp only [State.complete]; split <;> simp
@[simp] theorem State.complete_sidx (s : State) (r : CmdRef) (st : BitVec 16) (result : List Byte) : (s.complete r st result).sidx = s.sidx := by
  simp only [State.complete]; split <;> simp
@[simp] theorem State.complete_phase (s : State) (r : CmdRef) (st : BitVec 16) (result : List Byte) : (s.complete r st result).phase = s.phase := by
  simp only [State.complete]; split <;> simp
@[simp] theorem State.complete_snapCt (s : State) (r : CmdRef) (st : BitVec 16) (result : List Byte) : (s.complete r st result).snapCt = s.snapCt := by
  simp only [State.complete]; split <;> simp
@[simp] theorem State.complete_snapPh (s : State) (r : CmdRef) (st : BitVec 16) (result : List Byte) : (s.complete r st result).snapPh = s.snapPh := by
  simp only [State.complete]; split <;> simp
@[simp] theorem State.complete_stamps (s : State) (r : CmdRef) (st : BitVec 16) (result : List Byte) : (s.complete r st result).stamps = s.stamps := by
  simp only [State.complete]; split <;> simp
@[simp] theorem State.complete_firsts (s : State) (r : CmdRef) (st : BitVec 16) (result : List Byte) : (s.complete r st result).firsts = s.firsts := by
  simp only [State.complete]; split <;> simp
@[simp] theorem State.complete_sfHeld (s : State) (r : CmdRef) (st : BitVec 16) (result : List Byte) : (s.complete r st result).sfHeld = s.sfHeld := by
  simp only [State.complete]; split <;> simp
@[simp] theorem State.complete_trips (s : State) (r : CmdRef) (st : BitVec 16) (result : List Byte) : (s.complete r st result).trips = s.trips := by
  simp only [State.complete]; split <;> simp
@[simp] theorem State.complete_sketches (s : State) (r : CmdRef) (st : BitVec 16) (result : List Byte) : (s.complete r st result).sketches = s.sketches := by
  simp only [State.complete]; split <;> simp
@[simp] theorem State.complete_hk (s : State) (r : CmdRef) (st : BitVec 16) (result : List Byte) : (s.complete r st result).hk = s.hk := by
  simp only [State.complete]; split <;> simp
@[simp] theorem State.complete_tw (s : State) (r : CmdRef) (st : BitVec 16) (result : List Byte) : (s.complete r st result).tw = s.tw := by
  simp only [State.complete]; split <;> simp
@[simp] theorem State.complete_loc (s : State) (r : CmdRef) (st : BitVec 16) (result : List Byte) : (s.complete r st result).loc = s.loc := by
  simp only [State.complete]; split <;> simp
@[simp] theorem State.complete_net (s : State) (r : CmdRef) (st : BitVec 16) (result : List Byte) : (s.complete r st result).net = s.net := by
  simp only [State.complete]; split <;> simp
@[simp] theorem State.complete_inbox (s : State) (r : CmdRef) (st : BitVec 16) (result : List Byte) : (s.complete r st result).inbox = s.inbox := by
  simp only [State.complete]; split <;> simp
@[simp] theorem State.complete_waiting (s : State) (r : CmdRef) (st : BitVec 16) (result : List Byte) : (s.complete r st result).waiting = s.waiting := by
  simp only [State.complete]; split <;> simp
@[simp] theorem State.complete_claim (s : State) (r : CmdRef) (st : BitVec 16) (result : List Byte) : (s.complete r st result).claim = s.claim := by
  simp only [State.complete]; split <;> simp
@[simp] theorem State.complete_setFail (s : State) (r : CmdRef) (st : BitVec 16) (result : List Byte) : (s.complete r st result).setFail = s.setFail := by
  simp only [State.complete]; split <;> simp
@[simp] theorem State.complete_bg (s : State) (r : CmdRef) (st : BitVec 16) (result : List Byte) : (s.complete r st result).bg = s.bg := by
  simp only [State.complete]; split <;> simp
@[simp] theorem State.complete_store (s : State) (r : CmdRef) (st : BitVec 16) (result : List Byte) : (s.complete r st result).store = s.store := by
  simp only [State.complete]; split <;> simp
@[simp] theorem State.complete_bankA (s : State) (r : CmdRef) (st : BitVec 16) (result : List Byte) : (s.complete r st result).bankA = s.bankA := by
  simp only [State.complete]; split <;> simp
@[simp] theorem State.complete_bankB (s : State) (r : CmdRef) (st : BitVec 16) (result : List Byte) : (s.complete r st result).bankB = s.bankB := by
  simp only [State.complete]; split <;> simp
@[simp] theorem State.complete_verify (s : State) (r : CmdRef) (st : BitVec 16) (result : List Byte) : (s.complete r st result).verify = s.verify := by
  simp only [State.complete]; split <;> simp
@[simp] theorem State.complete_advance (s : State) (r : CmdRef) (st : BitVec 16) (result : List Byte) : (s.complete r st result).advance = s.advance := by
  simp only [State.complete]; split <;> simp
@[simp] theorem State.complete_points (s : State) (r : CmdRef) (st : BitVec 16) (result : List Byte) : (s.complete r st result).points = s.points := by
  simp only [State.complete]; split <;> simp
@[simp] theorem State.complete_health (s : State) (r : CmdRef) (st : BitVec 16) (result : List Byte) : (s.complete r st result).health = s.health := by
  simp only [State.complete]; split <;> simp
@[simp] theorem State.complete_pending (s : State) (r : CmdRef) (st : BitVec 16) (result : List Byte) : (s.complete r st result).pending = s.pending := by
  simp only [State.complete]; split <;> simp
@[simp] theorem State.complete_fresh (s : State) (r : CmdRef) (st : BitVec 16) (result : List Byte) : (s.complete r st result).fresh = s.fresh := by
  simp only [State.complete]; split <;> simp

@[simp] theorem State.completeOpt_fuse (s : State) (r : Option CmdRef) (st : BitVec 16) (result : List Byte) : (s.completeOpt r st result).fuse = s.fuse := by
  cases r <;> simp [State.completeOpt]
@[simp] theorem State.completeOpt_sup (s : State) (r : Option CmdRef) (st : BitVec 16) (result : List Byte) : (s.completeOpt r st result).sup = s.sup := by
  cases r <;> simp [State.completeOpt]
@[simp] theorem State.completeOpt_time (s : State) (r : Option CmdRef) (st : BitVec 16) (result : List Byte) : (s.completeOpt r st result).time = s.time := by
  cases r <;> simp [State.completeOpt]
@[simp] theorem State.completeOpt_chan (s : State) (r : Option CmdRef) (st : BitVec 16) (result : List Byte) : (s.completeOpt r st result).chan = s.chan := by
  cases r <;> simp [State.completeOpt]
@[simp] theorem State.completeOpt_tt (s : State) (r : Option CmdRef) (st : BitVec 16) (result : List Byte) : (s.completeOpt r st result).tt = s.tt := by
  cases r <;> simp [State.completeOpt]
@[simp] theorem State.completeOpt_hs (s : State) (r : Option CmdRef) (st : BitVec 16) (result : List Byte) : (s.completeOpt r st result).hs = s.hs := by
  cases r <;> simp [State.completeOpt]
@[simp] theorem State.completeOpt_sq (s : State) (r : Option CmdRef) (st : BitVec 16) (result : List Byte) : (s.completeOpt r st result).sq = s.sq := by
  cases r <;> simp [State.completeOpt]
@[simp] theorem State.completeOpt_port (s : State) (r : Option CmdRef) (st : BitVec 16) (result : List Byte) : (s.completeOpt r st result).port = s.port := by
  cases r <;> simp [State.completeOpt]
@[simp] theorem State.completeOpt_plat (s : State) (r : Option CmdRef) (st : BitVec 16) (result : List Byte) : (s.completeOpt r st result).plat = s.plat := by
  cases r <;> simp [State.completeOpt]
@[simp] theorem State.completeOpt_core (s : State) (r : Option CmdRef) (st : BitVec 16) (result : List Byte) : (s.completeOpt r st result).core = s.core := by
  cases r <;> simp [State.completeOpt]
@[simp] theorem State.completeOpt_sidx (s : State) (r : Option CmdRef) (st : BitVec 16) (result : List Byte) : (s.completeOpt r st result).sidx = s.sidx := by
  cases r <;> simp [State.completeOpt]
@[simp] theorem State.completeOpt_phase (s : State) (r : Option CmdRef) (st : BitVec 16) (result : List Byte) : (s.completeOpt r st result).phase = s.phase := by
  cases r <;> simp [State.completeOpt]
@[simp] theorem State.completeOpt_snapCt (s : State) (r : Option CmdRef) (st : BitVec 16) (result : List Byte) : (s.completeOpt r st result).snapCt = s.snapCt := by
  cases r <;> simp [State.completeOpt]
@[simp] theorem State.completeOpt_snapPh (s : State) (r : Option CmdRef) (st : BitVec 16) (result : List Byte) : (s.completeOpt r st result).snapPh = s.snapPh := by
  cases r <;> simp [State.completeOpt]
@[simp] theorem State.completeOpt_stamps (s : State) (r : Option CmdRef) (st : BitVec 16) (result : List Byte) : (s.completeOpt r st result).stamps = s.stamps := by
  cases r <;> simp [State.completeOpt]
@[simp] theorem State.completeOpt_firsts (s : State) (r : Option CmdRef) (st : BitVec 16) (result : List Byte) : (s.completeOpt r st result).firsts = s.firsts := by
  cases r <;> simp [State.completeOpt]
@[simp] theorem State.completeOpt_sfHeld (s : State) (r : Option CmdRef) (st : BitVec 16) (result : List Byte) : (s.completeOpt r st result).sfHeld = s.sfHeld := by
  cases r <;> simp [State.completeOpt]
@[simp] theorem State.completeOpt_trips (s : State) (r : Option CmdRef) (st : BitVec 16) (result : List Byte) : (s.completeOpt r st result).trips = s.trips := by
  cases r <;> simp [State.completeOpt]
@[simp] theorem State.completeOpt_sketches (s : State) (r : Option CmdRef) (st : BitVec 16) (result : List Byte) : (s.completeOpt r st result).sketches = s.sketches := by
  cases r <;> simp [State.completeOpt]
@[simp] theorem State.completeOpt_hk (s : State) (r : Option CmdRef) (st : BitVec 16) (result : List Byte) : (s.completeOpt r st result).hk = s.hk := by
  cases r <;> simp [State.completeOpt]
@[simp] theorem State.completeOpt_tw (s : State) (r : Option CmdRef) (st : BitVec 16) (result : List Byte) : (s.completeOpt r st result).tw = s.tw := by
  cases r <;> simp [State.completeOpt]
@[simp] theorem State.completeOpt_loc (s : State) (r : Option CmdRef) (st : BitVec 16) (result : List Byte) : (s.completeOpt r st result).loc = s.loc := by
  cases r <;> simp [State.completeOpt]
@[simp] theorem State.completeOpt_net (s : State) (r : Option CmdRef) (st : BitVec 16) (result : List Byte) : (s.completeOpt r st result).net = s.net := by
  cases r <;> simp [State.completeOpt]
@[simp] theorem State.completeOpt_inbox (s : State) (r : Option CmdRef) (st : BitVec 16) (result : List Byte) : (s.completeOpt r st result).inbox = s.inbox := by
  cases r <;> simp [State.completeOpt]
@[simp] theorem State.completeOpt_waiting (s : State) (r : Option CmdRef) (st : BitVec 16) (result : List Byte) : (s.completeOpt r st result).waiting = s.waiting := by
  cases r <;> simp [State.completeOpt]
@[simp] theorem State.completeOpt_claim (s : State) (r : Option CmdRef) (st : BitVec 16) (result : List Byte) : (s.completeOpt r st result).claim = s.claim := by
  cases r <;> simp [State.completeOpt]
@[simp] theorem State.completeOpt_setFail (s : State) (r : Option CmdRef) (st : BitVec 16) (result : List Byte) : (s.completeOpt r st result).setFail = s.setFail := by
  cases r <;> simp [State.completeOpt]
@[simp] theorem State.completeOpt_bg (s : State) (r : Option CmdRef) (st : BitVec 16) (result : List Byte) : (s.completeOpt r st result).bg = s.bg := by
  cases r <;> simp [State.completeOpt]
@[simp] theorem State.completeOpt_store (s : State) (r : Option CmdRef) (st : BitVec 16) (result : List Byte) : (s.completeOpt r st result).store = s.store := by
  cases r <;> simp [State.completeOpt]
@[simp] theorem State.completeOpt_bankA (s : State) (r : Option CmdRef) (st : BitVec 16) (result : List Byte) : (s.completeOpt r st result).bankA = s.bankA := by
  cases r <;> simp [State.completeOpt]
@[simp] theorem State.completeOpt_bankB (s : State) (r : Option CmdRef) (st : BitVec 16) (result : List Byte) : (s.completeOpt r st result).bankB = s.bankB := by
  cases r <;> simp [State.completeOpt]
@[simp] theorem State.completeOpt_verify (s : State) (r : Option CmdRef) (st : BitVec 16) (result : List Byte) : (s.completeOpt r st result).verify = s.verify := by
  cases r <;> simp [State.completeOpt]
@[simp] theorem State.completeOpt_advance (s : State) (r : Option CmdRef) (st : BitVec 16) (result : List Byte) : (s.completeOpt r st result).advance = s.advance := by
  cases r <;> simp [State.completeOpt]
@[simp] theorem State.completeOpt_points (s : State) (r : Option CmdRef) (st : BitVec 16) (result : List Byte) : (s.completeOpt r st result).points = s.points := by
  cases r <;> simp [State.completeOpt]
@[simp] theorem State.completeOpt_health (s : State) (r : Option CmdRef) (st : BitVec 16) (result : List Byte) : (s.completeOpt r st result).health = s.health := by
  cases r <;> simp [State.completeOpt]
@[simp] theorem State.completeOpt_pending (s : State) (r : Option CmdRef) (st : BitVec 16) (result : List Byte) : (s.completeOpt r st result).pending = s.pending := by
  cases r <;> simp [State.completeOpt]
@[simp] theorem State.completeOpt_fresh (s : State) (r : Option CmdRef) (st : BitVec 16) (result : List Byte) : (s.completeOpt r st result).fresh = s.fresh := by
  cases r <;> simp [State.completeOpt]

end Sys2Proof.Machine
end

