-- ==== Sys2Proof/Laws/Fixed1.lean ====
section
/-! SUPPORT. What an operation leaves alone (part 1 of 4): sealed Varnish, the queue of commands, and the memories that
power-down keeps, by `State.fixed`; and that every command answers a next state. Modules: Ops, Timetable, PortOps, Time, StoreOps, Gcm, Verify, HotSwap. -/
namespace Sys2Proof.Machine

@[simp] theorem State.fixed_mk
    x_fuse x_sup x_time x_chan x_tt x_hs x_sq x_port x_plat x_core x_sidx x_phase x_snapCt x_snapPh x_stamps x_firsts
    x_sfHeld x_trips x_sketches x_hk x_host x_tw x_loc x_net x_inbox x_waiting x_active x_claim x_ssn x_resume x_seqTick
    x_setFail x_bg x_store x_bankA x_bankB x_verify x_advance x_points x_health x_pending x_fresh : State.fixed ⟨x_fuse,
    x_sup, x_time, x_chan, x_tt, x_hs, x_sq, x_port, x_plat, x_core, x_sidx, x_phase, x_snapCt, x_snapPh, x_stamps,
    x_firsts, x_sfHeld, x_trips, x_sketches, x_hk, x_host, x_tw, x_loc, x_net, x_inbox, x_waiting, x_active, x_claim, x_ssn,
    x_resume, x_seqTick, x_setFail, x_bg, x_store, x_bankA, x_bankB, x_verify, x_advance, x_points, x_health, x_pending,
    x_fresh⟩ =
  (x_fuse.noArb, x_pending, [x_store.copyA.mem, x_store.copyB.mem, x_store.user, x_bankA.mem, x_bankB.mem]) := rfl
@[simp] theorem State.fixed_fold (s : State) : (s.fuse.noArb, s.pending, [s.store.copyA.mem, s.store.copyB.mem,
    s.store.user, s.bankA.mem, s.bankB.mem]) = s.fixed := rfl
@[simp] theorem Varnish.noArb_arb (v : Varnish) (x : BitVec 64) : ({ v with arb := x } : Varnish).noArb = v.noArb := rfl
@[simp] theorem State.forPorts_fixed (s : State) (f : PortId → State → State) (h : ∀ n s, (f n s).fixed = s.fixed) :
    (s.forPorts f).fixed = s.fixed := by
  unfold State.forPorts
  induction allPorts generalizing s with
  | nil => rfl
  | cons n t ih => simp [ih, h]
@[simp] theorem foldl_fixed {α : Type} (f : State → α → State) (h : ∀ s a, (f s a).fixed = s.fixed) (l : List α) (s : State)
    : (l.foldl f s).fixed = s.fixed := by
  induction l generalizing s with
  | nil => rfl
  | cons n t ih => simp [ih, h]
theorem State.storeKeep_fixed (s : State) (st : Store) (h : [st.copyA.mem, st.copyB.mem, st.user] = [s.store.copyA.mem,
    s.store.copyB.mem, s.store.user]) :
    State.fixed { s with store := st } = s.fixed := by
  simp only [List.cons.injEq, and_true] at h
  obtain ⟨h1, h2, h3⟩ := h
  show (s.fuse.noArb, s.pending, [st.copyA.mem, st.copyB.mem, st.user, s.bankA.mem, s.bankB.mem]) =
    (s.fuse.noArb, s.pending, [s.store.copyA.mem, s.store.copyB.mem, s.store.user, s.bankA.mem, s.bankB.mem])
  rw [h1, h2, h3]

@[simp] theorem State.modPort_fixed (s : State) (n : PortId) (f : Port → Port) : (State.modPort s n f).fixed = s.fixed := by
  simp [State.modPort]

@[simp] theorem State.modChan_fixed (s : State) (c : Fin 128) (f : Channel → Channel) : (State.modChan s c f).fixed =
    s.fixed := by
  simp [State.modChan]

@[simp] theorem State.modPlat_fixed (s : State) (k : PlatId) (f : Platform → Platform) : (State.modPlat s k f).fixed =
    s.fixed := by
  simp [State.modPlat]

@[simp] theorem State.modCore_fixed (s : State) (c : CoreId) (f : VCore → VCore) : (State.modCore s c f).fixed = s.fixed :=
    by
  simp [State.modCore]

@[simp] theorem State.modRail_fixed (s : State) (x : RailId) (f : Rail → Rail) : (State.modRail s x f).fixed = s.fixed := by
  simp [State.modRail]

@[simp] theorem State.modTc_fixed (s : State) (n : PortId) (f : TypeC → TypeC) : (State.modTc s n f).fixed = s.fixed := by
  simp [State.modTc]

@[simp] theorem State.modPp_fixed (s : State) (n : PortId) (f : Path → Path) : (State.modPp s n f).fixed = s.fixed := by
  simp [State.modPp]

@[simp] theorem State.modPd_fixed (s : State) (n : PortId) (f : Pd → Pd) : (State.modPd s n f).fixed = s.fixed := by
  simp [State.modPd]

@[simp] theorem State.modCt_fixed (s : State) (n : PortId) (f : Contract → Contract) : (State.modCt s n f).fixed = s.fixed
    := by
  simp [State.modCt]

@[simp] theorem State.modRs_fixed (s : State) (n : PortId) (f : Swap → Swap) : (State.modRs s n f).fixed = s.fixed := by
  simp [State.modRs]

@[simp] theorem State.modAlt_fixed (s : State) (n : PortId) (f : Alt → Alt) : (State.modAlt s n f).fixed = s.fixed := by
  simp [State.modAlt]

@[simp] theorem State.modMs_fixed (s : State) (n : PortId) (f : Measure → Measure) : (State.modMs s n f).fixed = s.fixed :=
    by
  simp [State.modMs]

@[simp] theorem State.requestPage_fixed (s : State) (r : PageReq) : (State.requestPage s r).fixed = s.fixed := by
  simp [State.requestPage]

@[simp] theorem State.programOpenPage_fixed (s : State) : (State.programOpenPage s).fixed = s.fixed := by
  simp [State.programOpenPage]

@[simp] theorem State.logAdd_fixed (s : State) (e : Event) : (State.logAdd s e).fixed = s.fixed := by
  unfold State.logAdd
  (repeat' split) <;> simp [apply_ite State.fixed, apply_ite Prod.fst]

@[simp] theorem State.seqPut_fixed (s : State) (rank j : Nat) : (State.seqPut s rank j).fixed = s.fixed := by
  simp [State.seqPut]

@[simp] theorem State.seqEnd_fixed (s : State) : (State.seqEnd s).fixed = s.fixed := by
  simp [State.seqEnd]

@[simp] theorem State.emitFull_fixed (s : State) (code source : BitVec 16) (payload : List Byte) (ct : CT) (hist : Bool) :
    (State.emitFull s code source payload ct hist).fixed = s.fixed := by
  unfold State.emitFull
  split
  · exact (State.logAdd_fixed _ _).trans (State.seqPut_fixed s (eventRank code source payload) _)
  · exact State.seqPut_fixed s (eventRank code source payload) _

@[simp] theorem State.emit_fixed (s : State) (code source : BitVec 16) (payload : List Byte) : (State.emit s code source
    payload).fixed = s.fixed := by
  simp [State.emit]

@[simp] theorem State.emitSt_fixed (s : State) (code : BitVec 16) (payload : List Byte) : (State.emitSt s code
    payload).fixed = s.fixed := by
  simp [State.emitSt]

@[simp] theorem State.raiseHealth_fixed (s : State) (cause unit detail : Nat) (value : Nat) : (State.raiseHealth s cause
    unit detail value).fixed = s.fixed := by
  unfold State.raiseHealth
  split <;> simp

@[simp] theorem State.healthClear_fixed (s : State) (cause : Nat) : (State.healthClear s cause).fixed = s.fixed := by
  simp [State.healthClear]

@[simp] theorem State.modHost_fixed (s : State) (h : HostPort) (f : HostFe → HostFe) : (State.modHost s h f).fixed = s.fixed
    := by
  simp [State.modHost]

@[simp] theorem State.queueReply_fixed (s : State) (h : HostPort) (r : Reply) : (State.queueReply s h r).fixed = s.fixed :=
    by
  simp [State.queueReply]

@[simp] theorem State.replyTag_fixed (s : State) (p : Packet) (op st : BitVec 16) (payload : List Byte) : (State.replyTag s
    p op st payload).fixed = s.fixed := by
  simp [State.replyTag]

@[simp] theorem State.accept_fixed (s : State) (c : Held) : (State.accept s c).fixed = s.fixed := by
  simp [State.accept]

@[simp] theorem State.complete_fixed (s : State) (r : CmdRef) (st : BitVec 16) (result : List Byte) : (State.complete s r st
    result).fixed = s.fixed := by
  unfold State.complete
  split <;> simp

@[simp] theorem State.completeOpt_fixed (s : State) (r : Option CmdRef) (st : BitVec 16) (result : List Byte) :
    (State.completeOpt s r st result).fixed = s.fixed := by
  unfold State.completeOpt
  split <;> simp

@[simp] theorem State.sketchPlace_fixed (s : State) (x : Sketch) : (State.sketchPlace s x).1.fixed = s.fixed := by
  unfold State.sketchPlace
  repeat' (first
    | with_reducible rfl
    | (simp [apply_ite State.fixed, apply_ite Prod.fst]; done)
    | split
    | simp [apply_ite State.fixed, apply_ite Prod.fst]
    | (intros; exact State.takeMsg_fixed ‹_›)
    | (intros; exact State.bookPort_of ‹_›)
    | (intros; simp [State.bookPort_of ‹_›]; done)
    | refine (State.bookRoleOff_fixed _ _ _ _ _ ‹_›).trans ?_
    | refine (foldl_fixed _ (fun _ _ => ?_) _ _).trans ?_
    | refine State.forPorts_fixed _ _ (fun _ _ => ?_)
    | refine State.feedFirst_fixed _ _ (fun _ => ?_))

@[simp] theorem State.takeSlots_fixed (s : State) : (State.takeSlots s).fixed = s.fixed := by
  simp [State.takeSlots]

@[simp] theorem State.holdTrigger_fixed (s : State) (n : PortId) (c : Cause) : (State.holdTrigger s n c).fixed = s.fixed :=
    by
  unfold State.holdTrigger
  repeat' (first
    | with_reducible rfl
    | (simp [apply_ite State.fixed, apply_ite Prod.fst]; done)
    | split
    | simp [apply_ite State.fixed, apply_ite Prod.fst]
    | (intros; exact State.takeMsg_fixed ‹_›)
    | (intros; exact State.bookPort_of ‹_›)
    | (intros; simp [State.bookPort_of ‹_›]; done)
    | refine (State.bookRoleOff_fixed _ _ _ _ _ ‹_›).trans ?_
    | refine (foldl_fixed _ (fun _ _ => ?_) _ _).trans ?_
    | refine State.forPorts_fixed _ _ (fun _ _ => ?_)
    | refine State.feedFirst_fixed _ _ (fun _ => ?_))

@[simp] theorem State.sketchTrigger_fixed (s : State) (n : PortId) (c : Cause) : (State.sketchTrigger s n c).fixed = s.fixed
    := by
  unfold State.sketchTrigger
  (repeat' split) <;> simp [apply_ite State.fixed, apply_ite Prod.fst]

@[simp] theorem State.sketchNow_fixed (s : State) (n : PortId) (c : Cause) : (State.sketchNow s n c).1.fixed = s.fixed := by
  unfold State.sketchNow
  repeat' (first
    | with_reducible rfl
    | (simp [apply_ite State.fixed, apply_ite Prod.fst]; done)
    | split
    | simp [apply_ite State.fixed, apply_ite Prod.fst]
    | (intros; exact State.takeMsg_fixed ‹_›)
    | (intros; exact State.bookPort_of ‹_›)
    | (intros; simp [State.bookPort_of ‹_›]; done)
    | refine (State.bookRoleOff_fixed _ _ _ _ _ ‹_›).trans ?_
    | refine (foldl_fixed _ (fun _ _ => ?_) _ _).trans ?_
    | refine State.forPorts_fixed _ _ (fun _ _ => ?_)
    | refine State.feedFirst_fixed _ _ (fun _ => ?_))

@[simp] theorem State.settleOne_fixed (s : State) (x : Fin 256 × Nat) : (State.settleOne s x).fixed = s.fixed := by
  unfold State.settleOne
  (repeat' split) <;> simp [apply_ite State.fixed, apply_ite Prod.fst]

@[simp] theorem State.resettle_fixed (s : State) : (State.resettle s).fixed = s.fixed := by
  simp [State.resettle]

@[simp] theorem State.book_fixed (s : State) (a : Asker) (b : Booking) : (State.book s a b).1.fixed = s.fixed := by
  unfold State.book
  repeat' (first
    | with_reducible rfl
    | (simp [apply_ite State.fixed, apply_ite Prod.fst]; done)
    | split
    | simp [apply_ite State.fixed, apply_ite Prod.fst]
    | (intros; exact State.takeMsg_fixed ‹_›)
    | (intros; exact State.bookPort_of ‹_›)
    | (intros; simp [State.bookPort_of ‹_›]; done)
    | refine (State.bookRoleOff_fixed _ _ _ _ _ ‹_›).trans ?_
    | refine (foldl_fixed _ (fun _ _ => ?_) _ _).trans ?_
    | refine State.forPorts_fixed _ _ (fun _ _ => ?_)
    | refine State.feedFirst_fixed _ _ (fun _ => ?_))

@[simp] theorem State.bookPort_fixed (s : State) (n : PortId) (k : Kind) (dur : Nat) (req : Option CT) (step : Int) (inc :
    Nat) : (State.bookPort s n k dur req step inc).1.fixed = s.fixed := by
  unfold State.bookPort
  repeat' (first
    | with_reducible rfl
    | (simp [apply_ite State.fixed, apply_ite Prod.fst]; done)
    | split
    | simp [apply_ite State.fixed, apply_ite Prod.fst]
    | (intros; exact State.takeMsg_fixed ‹_›)
    | (intros; exact State.bookPort_of ‹_›)
    | (intros; simp [State.bookPort_of ‹_›]; done)
    | refine (State.bookRoleOff_fixed _ _ _ _ _ ‹_›).trans ?_
    | refine (foldl_fixed _ (fun _ _ => ?_) _ _).trans ?_
    | refine State.forPorts_fixed _ _ (fun _ _ => ?_)
    | refine State.feedFirst_fixed _ _ (fun _ => ?_))
theorem State.bookPort_of {s : State} {n : PortId} {k : Kind} {dur : Nat} {req : Option CT} {step : Int} {inc : Nat} {t :
    State} {b : Booked}
    (h : s.bookPort n k dur req step inc = (t, b)) : t.fixed = s.fixed := by
  have hb := State.bookPort_fixed s n k dur req step inc
  rw [h] at hb; exact hb
theorem State.takeMsg_fixed {s : State} {n : PortId} {ok : PdBody → Bool} {m : PdMsg} {e : Bool} {t : State}
    (h : s.takeMsg n ok = some (m, e, t)) : t.fixed = s.fixed := by
  unfold State.takeMsg at h
  simp only at h
  split at h
  · cases h; simp
  · split at h
    · split at h
      · cases h; simp
      · cases h
    · split at h
      · split at h
        · cases h; simp
        · cases h
      · cases h

@[simp] theorem State.cancelWhere_fixed (s : State) (p : Entry → Bool) : (State.cancelWhere s p).fixed = s.fixed := by
  simp [State.cancelWhere]

@[simp] theorem State.cancelPort_fixed (s : State) (n : PortId) : (State.cancelPort s n).fixed = s.fixed := by
  simp [State.cancelPort]

@[simp] theorem State.cancelKind_fixed (s : State) (n : PortId) (k : Kind) : (State.cancelKind s n k).fixed = s.fixed := by
  simp [State.cancelKind]

@[simp] theorem State.cancelEntry_fixed (s : State) (n : PortId) (i : Option (Fin 256)) : (State.cancelEntry s n i).fixed =
    s.fixed := by
  unfold State.cancelEntry
  (repeat' split) <;> simp [apply_ite State.fixed, apply_ite Prod.fst]

@[simp] theorem State.ttCancelEvent_fixed (s : State) (reason : Nat) (placed cancelled : List (Fin 256)) :
    (State.ttCancelEvent s reason placed cancelled).fixed = s.fixed := by
  unfold State.ttCancelEvent
  split <;> simp

@[simp] theorem State.warnCancel_fixed (s : State) : (State.warnCancel s).fixed = s.fixed := by
  simp [State.warnCancel]

@[simp] theorem State.fireEntry_fixed (s : State) (i : Fin 256) : (State.fireEntry s i).fixed = s.fixed := by
  simp [State.fireEntry]

@[simp] theorem State.ledgerClear_fixed (s : State) : (State.ledgerClear s).fixed = s.fixed := by
  simp [State.ledgerClear]

@[simp] theorem State.replaceEntry_fixed (s : State) (acc : List (Fin 256) × List (Fin 256)) (i : Fin 256) :
    (State.replaceEntry s acc i).1.fixed = s.fixed := by
  unfold State.replaceEntry
  repeat' (first
    | with_reducible rfl
    | (simp [apply_ite State.fixed, apply_ite Prod.fst]; done)
    | split
    | simp [apply_ite State.fixed, apply_ite Prod.fst]
    | (intros; exact State.takeMsg_fixed ‹_›)
    | (intros; exact State.bookPort_of ‹_›)
    | (intros; simp [State.bookPort_of ‹_›]; done)
    | refine (State.bookRoleOff_fixed _ _ _ _ _ ‹_›).trans ?_
    | refine (foldl_fixed _ (fun _ _ => ?_) _ _).trans ?_
    | refine State.forPorts_fixed _ _ (fun _ _ => ?_)
    | refine State.feedFirst_fixed _ _ (fun _ => ?_))

@[simp] theorem State.replaceAll_fixed (s : State) (l : List (Fin 256)) (r : List (Fin 256) × List (Fin 256)) :
    (s.replaceAll l r).1.fixed = s.fixed := by
  induction l generalizing s r with
  | nil => rfl
  | cons i t ih =>
    unfold State.replaceAll
    simp [ih]
@[simp] theorem State.applyTtCfg_fixed (s : State) (nlog : BitVec 3) (budget : BitVec 10) : (s.applyTtCfg nlog
    budget).1.fixed = s.fixed := by
  unfold State.applyTtCfg
  repeat' (first
    | with_reducible rfl
    | (simp [apply_ite State.fixed, apply_ite Prod.fst]; done)
    | split
    | simp [apply_ite State.fixed, apply_ite Prod.fst]
    | (intros; exact State.takeMsg_fixed ‹_›)
    | (intros; exact State.bookPort_of ‹_›)
    | (intros; simp [State.bookPort_of ‹_›]; done)
    | refine (State.bookRoleOff_fixed _ _ _ _ _ ‹_›).trans ?_
    | refine (foldl_fixed _ (fun _ _ => ?_) _ _).trans ?_
    | refine State.forPorts_fixed _ _ (fun _ _ => ?_)
    | refine State.feedFirst_fixed _ _ (fun _ => ?_))

theorem execTtGo_fixed (core : CoreId) (s : State) : Goes s (execTtGo core s) := by
  unfold execTtGo
  split <;> simp [Goes]

@[simp] theorem State.placeGo_fixed (s : State) (core : CoreId) : (State.placeGo s core).fixed = s.fixed := by
  unfold State.placeGo
  repeat' (first
    | with_reducible rfl
    | (simp [apply_ite State.fixed, apply_ite Prod.fst]; done)
    | split
    | simp [apply_ite State.fixed, apply_ite Prod.fst]
    | (intros; exact State.takeMsg_fixed ‹_›)
    | (intros; exact State.bookPort_of ‹_›)
    | (intros; simp [State.bookPort_of ‹_›]; done)
    | refine (State.bookRoleOff_fixed _ _ _ _ _ ‹_›).trans ?_
    | refine (foldl_fixed _ (fun _ _ => ?_) _ _).trans ?_
    | refine State.forPorts_fixed _ _ (fun _ _ => ?_)
    | refine State.feedFirst_fixed _ _ (fun _ => ?_))

@[simp] theorem State.placeGos_fixed (s : State) : (State.placeGos s).fixed = s.fixed := by
  simp [State.placeGos]

theorem execTtCancel_fixed (core : CoreId) (index : Byte) (s : State) : Goes s (execTtCancel core index s) := by
  unfold execTtCancel
  (repeat' split) <;> simp [Goes, apply_ite State.fixed, apply_ite Prod.fst]

@[simp] theorem State.ttCfgSet_fixed (s : State) (value : Word) : (State.ttCfgSet s value).fixed = s.fixed := by
  simp [State.ttCfgSet]

theorem execTtCfgWrite_fixed (core : CoreId) (value : Word) (s : State) : Goes s (execTtCfgWrite core value s) := by
  unfold execTtCfgWrite
  split <;> simp [Goes]

theorem execReserveGrant_fixed (index : Fin 256) (s : State) : Goes s (execReserveGrant index s) := by
  unfold execReserveGrant
  split <;> simp [Goes]

@[simp] theorem State.shedEvent_fixed (s : State) (phase : Nat) : (State.shedEvent s phase).fixed = s.fixed := by
  simp [State.shedEvent]

@[simp] theorem State.shedEnd_fixed (s : State) : (State.shedEnd s).fixed = s.fixed := by
  unfold State.shedEnd
  split <;> simp

@[simp] theorem State.typecEvent_fixed (s : State) (n : PortId) : (State.typecEvent s n).fixed = s.fixed := by
  simp [State.typecEvent]

@[simp] theorem State.pathEvent_fixed (s : State) (n : PortId) (reason cause : Nat) : (State.pathEvent s n reason
    cause).fixed = s.fixed := by
  simp [State.pathEvent]

@[simp] theorem State.contractEvent_fixed (s : State) (n : PortId) (reason : Nat) : (State.contractEvent s n reason).fixed =
    s.fixed := by
  simp [State.contractEvent]

@[simp] theorem State.altEvent_fixed (s : State) (n : PortId) (reason : Nat) : (State.altEvent s n reason).fixed = s.fixed
    := by
  simp [State.altEvent]

@[simp] theorem State.sendMsg_fixed (s : State) (n : PortId) (ty : Sop) (body : PdBody) (ams : Bool) : (State.sendMsg s n ty
    body ams).fixed = s.fixed := by
  simp [State.sendMsg]

@[simp] theorem State.sendWaited_fixed (s : State) (n : PortId) (b : PdBody) : (State.sendWaited s n b).fixed = s.fixed := by
  simp [State.sendWaited]

@[simp] theorem State.askHr_fixed (s : State) (n : PortId) : (State.askHr s n).fixed = s.fixed := by
  simp [State.askHr]

@[simp] theorem State.openPath_fixed (s : State) (n : PortId) (disch trip prot : Bool) : (State.openPath s n disch trip
    prot).fixed = s.fixed := by
  unfold State.openPath
  (repeat' split) <;> simp [apply_ite State.fixed, apply_ite Prod.fst]

@[simp] theorem State.lockoffCheck_fixed (s : State) (n : PortId) : (State.lockoffCheck s n).fixed = s.fixed := by
  unfold State.lockoffCheck
  (repeat' split) <;> simp [apply_ite State.fixed, apply_ite Prod.fst]

@[simp] theorem State.endContract_fixed (s : State) (n : PortId) : (State.endContract s n).fixed = s.fixed := by
  unfold State.endContract
  repeat' (first
    | with_reducible rfl
    | (simp [apply_ite State.fixed, apply_ite Prod.fst]; done)
    | split
    | simp [apply_ite State.fixed, apply_ite Prod.fst]
    | (intros; exact State.takeMsg_fixed ‹_›)
    | (intros; exact State.bookPort_of ‹_›)
    | (intros; simp [State.bookPort_of ‹_›]; done)
    | refine (State.bookRoleOff_fixed _ _ _ _ _ ‹_›).trans ?_
    | refine (foldl_fixed _ (fun _ _ => ?_) _ _).trans ?_
    | refine State.forPorts_fixed _ _ (fun _ _ => ?_)
    | refine State.feedFirst_fixed _ _ (fun _ => ?_))

@[simp] theorem State.planAbort_fixed (s : State) (n : PortId) : (State.planAbort s n).fixed = s.fixed := by
  unfold State.planAbort
  split <;> simp

@[simp] theorem State.queueScript_fixed (s : State) (n : PortId) (ev : BitVec 4) : (State.queueScript s n ev).fixed =
    s.fixed := by
  unfold State.queueScript
  split <;> simp

@[simp] theorem State.reqScript_fixed (s : State) (n : PortId) (ev : BitVec 4) : (State.reqScript s n ev).fixed = s.fixed :=
    by
  unfold State.reqScript
  (repeat' split) <;> simp [apply_ite State.fixed, apply_ite Prod.fst]

@[simp] theorem State.exitRun_fixed (s : State) (n : PortId) : (State.exitRun s n).fixed = s.fixed := by
  unfold State.exitRun
  split <;> simp

@[simp] theorem State.dropScripts_fixed (s : State) (n : PortId) (stop all : Bool) : (State.dropScripts s n stop all).fixed
    = s.fixed := by
  simp [State.dropScripts]

@[simp] theorem State.altComplete_fixed (s : State) (n : PortId) : (State.altComplete s n).fixed = s.fixed := by
  simp [State.altComplete]

@[simp] theorem State.modeEnd_fixed (s : State) (n : PortId) : (State.modeEnd s n).fixed = s.fixed := by
  unfold State.modeEnd
  split <;> simp

@[simp] theorem State.altDetach_fixed (s : State) (n : PortId) : (State.altDetach s n).fixed = s.fixed := by
  unfold State.altDetach
  (repeat' split) <;> simp [apply_ite State.fixed, apply_ite Prod.fst]

@[simp] theorem State.altHardReset_fixed (s : State) (n : PortId) : (State.altHardReset s n).fixed = s.fixed := by
  simp [State.altHardReset]

@[simp] theorem State.amsEnd_fixed (s : State) (n : PortId) : (State.amsEnd s n).fixed = s.fixed := by
  simp [State.amsEnd]

@[simp] theorem State.swapEndWith_fixed (s : State) (n : PortId) (result : Nat) (st : BitVec 16) : (State.swapEndWith s n
    result st).fixed = s.fixed := by
  unfold State.swapEndWith
  (repeat' split) <;> simp [apply_ite State.fixed, apply_ite Prod.fst]

@[simp] theorem State.swapEnd_fixed (s : State) (n : PortId) (result : Nat) : (State.swapEnd s n result).fixed = s.fixed :=
    by
  simp [State.swapEnd]

@[simp] theorem State.swapRefused_fixed (s : State) (n : PortId) : (State.swapRefused s n).fixed = s.fixed := by
  simp [State.swapRefused]

@[simp] theorem State.vconnApply_fixed (s : State) (n : PortId) : (State.vconnApply s n).fixed = s.fixed := by
  simp [State.vconnApply]

@[simp] theorem State.vconnAttach_fixed (s : State) (n : PortId) : (State.vconnAttach s n).fixed = s.fixed := by
  simp [State.vconnAttach]

@[simp] theorem State.eprNoVconn_fixed (s : State) (n : PortId) : (State.eprNoVconn s n).fixed = s.fixed := by
  unfold State.eprNoVconn
  split <;> simp

@[simp] theorem State.vconnRelease_fixed (s : State) (n : PortId) : (State.vconnRelease s n).fixed = s.fixed := by
  unfold State.vconnRelease
  repeat' (first
    | with_reducible rfl
    | (simp [apply_ite State.fixed, apply_ite Prod.fst]; done)
    | split
    | simp [apply_ite State.fixed, apply_ite Prod.fst]
    | (intros; exact State.takeMsg_fixed ‹_›)
    | (intros; exact State.bookPort_of ‹_›)
    | (intros; simp [State.bookPort_of ‹_›]; done)
    | refine (State.bookRoleOff_fixed _ _ _ _ _ ‹_›).trans ?_
    | refine (foldl_fixed _ (fun _ _ => ?_) _ _).trans ?_
    | refine State.forPorts_fixed _ _ (fun _ _ => ?_)
    | refine State.feedFirst_fixed _ _ (fun _ => ?_))

@[simp] theorem State.load5_fixed (s : State) (n : PortId) : (State.load5 s n).fixed = s.fixed := by
  simp [State.load5]

@[simp] theorem State.bookPath_fixed (s : State) (n : PortId) : (State.bookPath s n).fixed = s.fixed := by
  unfold State.bookPath
  (repeat' split) <;> simp [apply_ite State.fixed, apply_ite Prod.fst]

@[simp] theorem State.tellRole_fixed (s : State) (n : PortId) : (State.tellRole s n).fixed = s.fixed := by
  unfold State.tellRole
  (repeat' split) <;> simp [apply_ite State.fixed, apply_ite Prod.fst]

@[simp] theorem State.tellOwner_fixed (s : State) (e : Entry) : (State.tellOwner s e).fixed = s.fixed := by
  unfold State.tellOwner
  (repeat' split) <;> simp [apply_ite State.fixed, apply_ite Prod.fst]

@[simp] theorem State.tell_fixed (s : State) (old : Timetable) (l : List (Fin 256)) : (State.tell s old l).fixed = s.fixed
    := by
  unfold State.tell
  repeat' (first
    | with_reducible rfl
    | (simp [apply_ite State.fixed, apply_ite Prod.fst]; done)
    | split
    | simp [apply_ite State.fixed, apply_ite Prod.fst]
    | (intros; exact State.takeMsg_fixed ‹_›)
    | (intros; exact State.bookPort_of ‹_›)
    | (intros; simp [State.bookPort_of ‹_›]; done)
    | refine (State.bookRoleOff_fixed _ _ _ _ _ ‹_›).trans ?_
    | refine (foldl_fixed _ (fun _ _ => ?_) _ _).trans ?_
    | refine State.forPorts_fixed _ _ (fun _ _ => ?_)
    | refine State.feedFirst_fixed _ _ (fun _ => ?_))

@[simp] theorem State.planMoved_fixed (s : State) (moved cancelled : List (Fin 256)) : (State.planMoved s moved
    cancelled).fixed = s.fixed := by
  unfold State.planMoved
  repeat' (first
    | with_reducible rfl
    | (simp [apply_ite State.fixed, apply_ite Prod.fst]; done)
    | split
    | simp [apply_ite State.fixed, apply_ite Prod.fst]
    | (intros; exact State.takeMsg_fixed ‹_›)
    | (intros; exact State.bookPort_of ‹_›)
    | (intros; simp [State.bookPort_of ‹_›]; done)
    | refine (State.bookRoleOff_fixed _ _ _ _ _ ‹_›).trans ?_
    | refine (foldl_fixed _ (fun _ _ => ?_) _ _).trans ?_
    | refine State.forPorts_fixed _ _ (fun _ _ => ?_)
    | refine State.feedFirst_fixed _ _ (fun _ => ?_))

@[simp] theorem State.newsEnd_fixed (s : State) : (State.newsEnd s).fixed = s.fixed := by
  simp [State.newsEnd]

@[simp] theorem State.protCancel_fixed (s : State) (n : PortId) : (State.protCancel s n).fixed = s.fixed := by
  simp [State.protCancel]

@[simp] theorem State.standbyEnd_fixed (s : State) (n : PortId) (code : BitVec 12) : (State.standbyEnd s n code).fixed =
    s.fixed := by
  unfold State.standbyEnd
  repeat' (first
    | with_reducible rfl
    | (simp [apply_ite State.fixed, apply_ite Prod.fst]; done)
    | split
    | simp [apply_ite State.fixed, apply_ite Prod.fst]
    | (intros; exact State.takeMsg_fixed ‹_›)
    | (intros; exact State.bookPort_of ‹_›)
    | (intros; simp [State.bookPort_of ‹_›]; done)
    | refine (State.bookRoleOff_fixed _ _ _ _ _ ‹_›).trans ?_
    | refine (foldl_fixed _ (fun _ _ => ?_) _ _).trans ?_
    | refine State.forPorts_fixed _ _ (fun _ _ => ?_)
    | refine State.feedFirst_fixed _ _ (fun _ => ?_))

@[simp] theorem State.enterUnatt_fixed (s : State) (n : PortId) (dest : TcState) : (State.enterUnatt s n dest).fixed =
    s.fixed := by
  unfold State.enterUnatt
  (repeat' split) <;> simp [apply_ite State.fixed, apply_ite Prod.fst]

@[simp] theorem State.toUnatt_fixed (s : State) (n : PortId) (snk : Bool) : (State.toUnatt s n snk).fixed = s.fixed := by
  simp [State.toUnatt]

@[simp] theorem State.toUnattHome_fixed (s : State) (n : PortId) : (State.toUnattHome s n).fixed = s.fixed := by
  simp [State.toUnattHome]

@[simp] theorem State.enterAttached_fixed (s : State) (n : PortId) (st : TcState) (o : Orient) (pt : Partner) (ra : Bool) :
    (State.enterAttached s n st o pt ra).fixed = s.fixed := by
  simp [State.enterAttached]

@[simp] theorem State.detach_fixed (s : State) (n : PortId) (vbus : Bool) : (State.detach s n vbus).fixed = s.fixed := by
  unfold State.detach
  split <;> simp

@[simp] theorem State.errRecov_fixed (s : State) (n : PortId) : (State.errRecov s n).fixed = s.fixed := by
  unfold State.errRecov
  split <;> simp

@[simp] theorem State.swapFail_fixed (s : State) (n : PortId) : (State.swapFail s n).fixed = s.fixed := by
  unfold State.swapFail
  split <;> simp

@[simp] theorem State.disablePort_fixed (s : State) (n : PortId) : (State.disablePort s n).fixed = s.fixed := by
  unfold State.disablePort
  (repeat' split) <;> simp [apply_ite State.fixed, apply_ite Prod.fst]

@[simp] theorem State.tripConsequence_fixed (s : State) (n : PortId) : (State.tripConsequence s n).fixed = s.fixed := by
  unfold State.tripConsequence
  (repeat' split) <;> simp [apply_ite State.fixed, apply_ite Prod.fst]

@[simp] theorem State.retryCount_fixed (s : State) (n : PortId) : (State.retryCount s n).fixed = s.fixed := by
  simp [State.retryCount]

@[simp] theorem State.tripRank_fixed (s : State) (n : PortId) (c : Cause) : (State.tripRank s n c).fixed = s.fixed := by
  unfold State.tripRank
  (repeat' split) <;> simp [apply_ite State.fixed, apply_ite Prod.fst]

@[simp] theorem State.trip_fixed (s : State) (n : PortId) (c : Cause) : (State.trip s n c).fixed = s.fixed := by
  unfold State.trip
  (repeat' split) <;> simp [apply_ite State.fixed, apply_ite Prod.fst]

@[simp] theorem State.tripsEnd_fixed (s : State) : (State.tripsEnd s).fixed = s.fixed := by
  unfold State.tripsEnd
  (repeat' split) <;> simp [apply_ite State.fixed, apply_ite Prod.fst]

@[simp] theorem State.hardReset_fixed (s : State) (n : PortId) (sent : Bool) : (State.hardReset s n sent).fixed = s.fixed :=
    by
  unfold State.hardReset
  (repeat' split) <;> simp [apply_ite State.fixed, apply_ite Prod.fst]

@[simp] theorem State.timeEvent_fixed (s : State) : (State.timeEvent s).fixed = s.fixed := by
  simp [State.timeEvent]

@[simp] theorem State.shiftSpans_fixed (s : State) (d : CT) : (State.shiftSpans s d).fixed = s.fixed := by
  simp [State.shiftSpans]

@[simp] theorem State.shiftHeld_fixed (s : State) (d : CT) : (State.shiftHeld s d).fixed = s.fixed := by
  simp [State.shiftHeld]

@[simp] theorem State.tick_fixed (s : State) (clk : Nat) : (State.tick s clk).fixed = s.fixed := by
  simp [State.tick]

theorem execCadTick_fixed (edge : CadEdge) (s : State) : Goes s (execCadTick edge s) := by
  unfold execCadTick
  (repeat' split) <;> simp [Goes, apply_ite State.fixed, apply_ite Prod.fst]

theorem execGeneratedTick_fixed (clk : Nat) (s : State) : Goes s (execGeneratedTick clk s) := by
  unfold execGeneratedTick
  (repeat' split) <;> simp [Goes, apply_ite State.fixed, apply_ite Prod.fst]

@[simp] theorem State.enterHoldover_fixed (s : State) (cause : BitVec 4) : (State.enterHoldover s cause).fixed = s.fixed :=
    by
  unfold State.enterHoldover
  split <;> simp

theorem execCadAbsent_fixed (s : State) : Goes s (execCadAbsent s) := by
  unfold execCadAbsent
  split <;> simp [Goes]

theorem execCadOutOfTolerance_fixed (c1 c2 : Nat) (s : State) : Goes s (execCadOutOfTolerance c1 c2 s) := by
  unfold execCadOutOfTolerance
  split <;> simp [Goes]

theorem execCadQualified_fixed (counts : List Nat) (s : State) : Goes s (execCadQualified counts s) := by
  unfold execCadQualified
  split <;> simp [Goes]

theorem execFrmAbsent_fixed (s : State) : Goes s (execFrmAbsent s) := by
  unfold execFrmAbsent
  split <;> simp [Goes]

theorem execCrystalLost_fixed (s : State) : Goes s (execCrystalLost s) := by
  unfold execCrystalLost
  (repeat' split) <;> simp [Goes, apply_ite State.fixed, apply_ite Prod.fst]

theorem execSlewEnd_fixed (s : State) : Goes s (execSlewEnd s) := by
  unfold execSlewEnd
  split <;> simp [Goes]

theorem State.time_fixed (s : State) (t : Time) : State.fixed { s with time := t } = s.fixed := rfl
@[simp] theorem State.acquireMarker_fixed (s : State) (rise : CT) (superframe : Bool) : (s.acquireMarker rise
    superframe).fixed = s.fixed := by
  unfold State.acquireMarker
  dsimp only
  split
  · split
    · rfl
    · split
      · exact (State.time_fixed _ _).trans (State.shiftSpans_fixed ..)
      · exact State.time_fixed _ _
  · split
    · split
      · exact (State.timeEvent_fixed _).trans ((State.time_fixed _ _).trans (State.shiftHeld_fixed ..))
      · exact State.time_fixed _ _
    · split
      · rfl
      · exact State.time_fixed _ _

@[simp] theorem State.judgeMarker_fixed (s : State) (rise : CT) (ofs : BitVec 32) (superframe : Bool) : (State.judgeMarker s
    rise ofs superframe).fixed = s.fixed := by
  unfold State.judgeMarker
  (repeat' split) <;> simp [apply_ite State.fixed, apply_ite Prod.fst]

theorem execFrmMarker_fixed (rise : CT) (width : Nat) (s : State) : Goes s (execFrmMarker rise width s) := by
  unfold execFrmMarker
  (repeat' split) <;> simp [Goes, apply_ite State.fixed, apply_ite Prod.fst]

theorem execFrmCapRead_fixed (s : State) : Goes s (execFrmCapRead s) := by
  simp [execFrmCapRead, Goes]

@[simp] theorem State.slotCheck_fixed (s : State) : (State.slotCheck s).fixed = s.fixed := by
  unfold State.slotCheck
  (repeat' split) <;> simp [apply_ite State.fixed, apply_ite Prod.fst]

theorem execSlotLatch_fixed (samples : List (BitVec 6)) (s : State) : Goes s (execSlotLatch samples s) := by
  unfold execSlotLatch
  (repeat' split) <;> simp [Goes, apply_ite State.fixed, apply_ite Prod.fst]

@[simp] theorem State.slotReport_fixed (s : State) : (State.slotReport s).fixed = s.fixed := by
  unfold State.slotReport
  split <;> simp

theorem execSlotChange_fixed (value : BitVec 6) (s : State) : Goes s (execSlotChange value s) := by
  unfold execSlotChange
  split <;> simp [Goes]

@[simp] theorem State.chanAction_fixed (s : State) (ch : Fin 128) (code : BitVec 3) : (State.chanAction s ch code).fixed =
    s.fixed := by
  unfold State.chanAction
  repeat' (first
    | with_reducible rfl
    | (simp [apply_ite State.fixed, apply_ite Prod.fst]; done)
    | split
    | simp [apply_ite State.fixed, apply_ite Prod.fst]
    | (intros; exact State.takeMsg_fixed ‹_›)
    | (intros; exact State.bookPort_of ‹_›)
    | (intros; simp [State.bookPort_of ‹_›]; done)
    | refine (State.bookRoleOff_fixed _ _ _ _ _ ‹_›).trans ?_
    | refine (foldl_fixed _ (fun _ _ => ?_) _ _).trans ?_
    | refine State.forPorts_fixed _ _ (fun _ _ => ?_)
    | refine State.feedFirst_fixed _ _ (fun _ => ?_))

theorem execChannelWrap_fixed (ch : Fin 128) (s : State) : Goes s (execChannelWrap ch s) := by
  unfold execChannelWrap
  split <;> simp [Goes]

@[simp] theorem State.program_fixed (s : State) (ch : Fin 128) (p n : Nat) : (State.program s ch p n).fixed = s.fixed := by
  simp [State.program]

@[simp] theorem State.programPolicy_fixed (s : State) (k : PlatId) : (State.programPolicy s k).fixed = s.fixed := by
  simp [State.programPolicy]

@[simp] theorem State.programPort_fixed (s : State) (n : PortId) : (State.programPort s n).fixed = s.fixed := by
  simp [State.programPort]

theorem execChnCtrlWrite_fixed (core : CoreId) (ch : Fin 128) (value : Word) (s : State) : Goes s (execChnCtrlWrite core ch
    value s) := by
  unfold execChnCtrlWrite
  split <;> simp [Goes]

@[simp] theorem State.w1cTime_fixed (s : State) (v : Word) : (State.w1cTime s v).fixed = s.fixed := by
  unfold State.w1cTime
  split <;> simp

@[simp] theorem State.w1cCap_fixed (s : State) (v : Word) : (State.w1cCap s v).fixed = s.fixed := by
  unfold State.w1cCap
  split <;> simp

@[simp] theorem State.modReq_fixed (s : State) (c : CoreId) (f : TtReq → TtReq) : (State.modReq s c f).fixed = s.fixed := by
  simp [State.modReq]

theorem execRegisterWrite_fixed (core : CoreId) (r : CoreReg) (value : Word) (s : State) : Goes s (execRegisterWrite core r
    value s) := by
  unfold execRegisterWrite
  (repeat' split) <;> simp [Goes, apply_ite State.fixed, apply_ite Prod.fst]

@[simp] theorem State.latchSave_fixed (s : State) : (State.latchSave s).fixed = s.fixed := by
  simp [State.latchSave]

@[simp] theorem State.nextRecord_fixed (s : State) (r : Record) : (State.nextRecord s r).fixed = s.fixed := by
  simp [State.nextRecord]

@[simp] theorem State.startSave_fixed (s : State) (warn : Bool) : (State.startSave s warn).fixed = s.fixed := by
  unfold State.startSave
  (repeat' split) <;> simp [apply_ite State.fixed, apply_ite Prod.fst]

@[simp] theorem State.setBank_fixed (s : State) (b : Bank) (f : ImageBank → ImageBank) (h : ∀ x, (f x).mem = x.mem) :
    (s.setBank b f).fixed = s.fixed := by
  unfold State.setBank
  cases b <;> simp [h]

@[simp] theorem State.startCommit_fixed (s : State) (cfg : Mem) (cmd : Option CmdRef) (w1c : List (BitVec 16 × Word)) :
    (State.startCommit s cfg cmd w1c).fixed = s.fixed := by
  simp [State.startCommit]

@[simp] theorem State.recallEvent_fixed (s : State) (copy reset : Nat) (seq : Word) : (State.recallEvent s copy reset
    seq).fixed = s.fixed := by
  simp [State.recallEvent]

@[simp] theorem State.recallAct_fixed (s : State) : (State.recallAct s).fixed = s.fixed := by
  simp [State.recallAct]

@[simp] theorem State.afterCommit_fixed (s : State) : (State.afterCommit s).fixed = s.fixed := by
  unfold State.afterCommit
  (repeat' split) <;> simp [apply_ite State.fixed, apply_ite Prod.fst]

@[simp] theorem State.recallBegin_fixed (s : State) : (State.recallBegin s).fixed = s.fixed := by
  unfold State.recallBegin
  (repeat' split) <;> simp [apply_ite State.fixed, apply_ite Prod.fst]

@[simp] theorem State.selWrite_fixed (s : State) (b : Bank) : (State.selWrite s b).fixed = s.fixed := by
  simp [State.selWrite]

@[simp] theorem State.advanceCutShort_fixed (s : State) : (State.advanceCutShort s).fixed = s.fixed := by
  unfold State.advanceCutShort
  split <;> simp

@[simp] theorem State.hsRecord_fixed (s : State) (selfPlaced : Bool) : (State.hsRecord s selfPlaced).fixed = s.fixed := by
  simp [State.hsRecord]

@[simp] theorem State.hsGoto_fixed (s : State) (st : HsState) : (State.hsGoto s st).fixed = s.fixed := by
  simp [State.hsGoto]

@[simp] theorem State.seeVin_fixed (s : State) (vin : Nat) : (State.seeVin s vin).fixed = s.fixed := by
  simp [State.seeVin]

@[simp] theorem State.inrushEnd_fixed (s : State) : (State.inrushEnd s).fixed = s.fixed := by
  simp [State.inrushEnd]

@[simp] theorem Store.spoil_copyA (st : Store) (p : Nat) : (st.spoil p).copyA.mem = st.copyA.mem := by
  simp [Store.spoil, apply_ite Copy.mem]
@[simp] theorem Store.spoil_copyB (st : Store) (p : Nat) : (st.spoil p).copyB.mem = st.copyB.mem := by
  simp [Store.spoil, apply_ite Copy.mem]
@[simp] theorem Store.spoil_user (st : Store) (p : Nat) : (st.spoil p).user = st.user := rfl
@[simp] theorem Store.tear_copyA (st : Store) (r : PageReq) (k : Nat) : (st.tear r k).copyA.mem = st.copyA.mem := by simp
    [Store.tear]
@[simp] theorem Store.tear_copyB (st : Store) (r : PageReq) (k : Nat) : (st.tear r k).copyB.mem = st.copyB.mem := by simp
    [Store.tear]
@[simp] theorem Store.tear_user (st : Store) (r : PageReq) (k : Nat) : (st.tear r k).user = st.user := by simp [Store.tear]
@[simp] theorem Store.kept_copyA (st : Store) (k : Nat) : (st.kept k).copyA.mem = st.copyA.mem := by
  simp only [Store.kept, Store.cut]; split <;> simp
@[simp] theorem Store.kept_copyB (st : Store) (k : Nat) : (st.kept k).copyB.mem = st.copyB.mem := by
  simp only [Store.kept, Store.cut]; split <;> simp
@[simp] theorem Store.kept_user (st : Store) (k : Nat) : (st.kept k).user = st.user := by
  simp only [Store.kept, Store.cut]; split <;> simp
@[simp] theorem Store.warnCut_copyA (st : Store) : st.warnCut.copyA = st.copyA := rfl
@[simp] theorem Store.warnCut_copyB (st : Store) : st.warnCut.copyB = st.copyB := rfl
@[simp] theorem Store.warnCut_user (st : Store) : st.warnCut.user = st.user := rfl
@[simp] theorem State.wipe_fixed (s : State) : s.wipe.fixed = s.fixed := by
  simp [State.wipe]

@[simp] theorem State.hsFirst_fixed (s : State) : (State.hsFirst s).fixed = s.fixed := by
  unfold State.hsFirst
  split <;> simp

@[simp] theorem State.newInsertion_fixed (s : State) : (State.newInsertion s).fixed = s.fixed := by
  simp [State.newInsertion]

@[simp] theorem State.warnStore_fixed (s : State) : (State.warnStore s).fixed = s.fixed := by
  unfold State.warnStore
  (repeat' split) <;> simp [apply_ite State.fixed, apply_ite Prod.fst]

@[simp] theorem State.warnVerify_fixed (s : State) : (State.warnVerify s).fixed = s.fixed := by
  simp [State.warnVerify]

@[simp] theorem State.primerStop_fixed (s : State) : (State.primerStop s).fixed = s.fixed := by
  unfold State.primerStop
  (repeat' split) <;> simp [apply_ite State.fixed, apply_ite Prod.fst]

@[simp] theorem State.frsBegin_fixed (s : State) (n : PortId) : (State.frsBegin s n).fixed = s.fixed := by
  unfold State.frsBegin
  (repeat' split) <;> simp [apply_ite State.fixed, apply_ite Prod.fst]

@[simp] theorem State.standbyZero_fixed (s : State) (n : PortId) : (State.standbyZero s n).fixed = s.fixed := by
  unfold State.standbyZero
  split <;> simp

@[simp] theorem State.warnPort_fixed (n : PortId) (s : State) : (State.warnPort n s).fixed = s.fixed := by
  unfold State.warnPort
  (repeat' split) <;> simp [apply_ite State.fixed, apply_ite Prod.fst]

@[simp] theorem State.warnOn_fixed (s : State) (lvl sag opn : Bool) : (State.warnOn s lvl sag opn).fixed = s.fixed := by
  unfold State.warnOn
  split <;> simp

@[simp] theorem State.warnOff_fixed (s : State) : (State.warnOff s).fixed = s.fixed := by
  unfold State.warnOff
  repeat' (first
    | with_reducible rfl
    | (simp [apply_ite State.fixed, apply_ite Prod.fst]; done)
    | split
    | simp [apply_ite State.fixed, apply_ite Prod.fst]
    | (intros; exact State.takeMsg_fixed ‹_›)
    | (intros; exact State.bookPort_of ‹_›)
    | (intros; simp [State.bookPort_of ‹_›]; done)
    | refine (State.bookRoleOff_fixed _ _ _ _ _ ‹_›).trans ?_
    | refine (foldl_fixed _ (fun _ _ => ?_) _ _).trans ?_
    | refine State.forPorts_fixed _ _ (fun _ _ => ?_)
    | refine State.feedFirst_fixed _ _ (fun _ => ?_))

@[simp] theorem State.hsMark_fixed (s : State) : (State.hsMark s).fixed = s.fixed := by
  simp [State.hsMark]

@[simp] theorem State.hsOpen_fixed (s : State) (st : HsState) : (State.hsOpen s st).fixed = s.fixed := by
  unfold State.hsOpen
  (repeat' split) <;> simp [apply_ite State.fixed, apply_ite Prod.fst]

@[simp] theorem State.hsLatch_fixed (s : State) : (State.hsLatch s).fixed = s.fixed := by
  unfold State.hsLatch
  split <;> simp

@[simp] theorem State.hsFault_fixed (s : State) (c : HsCause) : (State.hsFault s c).fixed = s.fixed := by
  unfold State.hsFault
  (repeat' split) <;> simp [apply_ite State.fixed, apply_ite Prod.fst]

@[simp] theorem State.segmentFired_fixed (s : State) (selfPlaced : Bool) : (State.segmentFired s selfPlaced).fixed = s.fixed
    := by
  unfold State.segmentFired
  (repeat' split) <;> simp [apply_ite State.fixed, apply_ite Prod.fst]

theorem execInrushSegment_fixed (s : State) : Goes s (execInrushSegment s) := by
  unfold execInrushSegment
  (repeat' split) <;> simp [Goes, apply_ite State.fixed, apply_ite Prod.fst]

@[simp] theorem State.hsReport_fixed (s : State) : (State.hsReport s).fixed = s.fixed := by
  have h (a b c d : Nat) (t : State) : (t.raiseHealth a b c d).fixed = t.fixed := by simp
  have k (t : State) : (if t.hs.derateDue then { t with hs := { t.hs with derateDue := false } }.raiseHealth 5 0xFF 3 0
      else t).fixed = t.fixed := by
    split
    · exact h _ _ _ _ _
    · rfl
  unfold State.hsReport
  split
  · refine (k _).trans ?_
    split
    · exact h _ _ _ _ _
    · rfl
  · rfl

@[simp] theorem State.healthIf_fixed (s : State) (c : Bool) (cause detail value : Nat) : (State.healthIf s c cause detail
    value).fixed = s.fixed := by
  unfold State.healthIf
  split <;> simp

@[simp] theorem State.nlogReport_fixed (s : State) : (State.nlogReport s).fixed = s.fixed := by
  simp [State.nlogReport]

@[simp] theorem State.hsBook_fixed (s : State) (k : Nat) : (State.hsBook s k).1.fixed = s.fixed := by
  simp [State.hsBook]

@[simp] theorem State.hsBooking_fixed (m k : Nat) (s : State) : (State.hsBooking m k s).fixed = s.fixed := by
  induction m generalizing k s with
  | zero => simp [State.hsBooking]
  | succ m ih =>
    have hb := State.hsBook_fixed s k
    unfold State.hsBooking
    split
    · rename_i h
      rw [h] at hb; exact hb
    · repeat' (first | (simp [ih]; done) | split | simp [ih])
@[simp] theorem execHsBookingRequest_fixed (s : State) : Goes s (execHsBookingRequest s) := by
  unfold execHsBookingRequest
  repeat' (first
    | (simp [Goes, apply_ite State.fixed, apply_ite Prod.fst]; done)
    | split
    | simp [Goes, apply_ite State.fixed, apply_ite Prod.fst]
    | (intros; exact State.takeMsg_fixed ‹_›)
    | (intros; exact State.bookPort_of ‹_›)
    | refine (State.bookRoleOff_fixed _ _ _ _ _ ‹_›).trans ?_
    | refine (foldl_fixed _ (fun _ _ => ?_) _ _).trans ?_
    | refine State.forPorts_fixed _ _ (fun _ _ => ?_)
    | refine State.feedFirst_fixed _ _ (fun _ => ?_))

theorem execQualifyTime_fixed (vin : Nat) (s : State) : Goes s (execQualifyTime vin s) := by
  unfold execQualifyTime
  (repeat' split) <;> simp [Goes, apply_ite State.fixed, apply_ite Prod.fst]

@[simp] theorem State.toInrush_fixed (s : State) (noLock : Bool) : (State.toInrush s noLock).fixed = s.fixed := by
  simp [State.toInrush]

theorem execPhaseExit_fixed (s : State) : Goes s (execPhaseExit s) := by
  unfold execPhaseExit
  split <;> simp [Goes]

theorem execPhTo_fixed (s : State) : Goes s (execPhTo s) := by
  unfold execPhTo
  (repeat' split) <;> simp [Goes, apply_ite State.fixed, apply_ite Prod.fst]

theorem execInrushDone_fixed (vin vout : Nat) (s : State) : Goes s (execInrushDone vin vout s) := by
  unfold execInrushDone
  split <;> simp [Goes]

theorem execPgQ_fixed (vin vout gate : Nat) (s : State) : Goes s (execPgQ vin vout gate s) := by
  unfold execPgQ
  split <;> simp [Goes]

theorem execBpFastTrip_fixed (vsns : Int) (s : State) : Goes s (execBpFastTrip vsns s) := by
  unfold execBpFastTrip
  split <;> simp [Goes]

theorem execBreakerRegulation_fixed (vsns : Int) (s : State) : Goes s (execBreakerRegulation vsns s) := by
  unfold execBreakerRegulation
  split <;> simp [Goes]

theorem execBreakerFault_fixed (vsns : Int) (s : State) : Goes s (execBreakerFault vsns s) := by
  unfold execBreakerFault
  split <;> simp [Goes]

theorem execInrTo_fixed (s : State) : Goes s (execInrTo s) := by
  unfold execInrTo
  split <;> simp [Goes]

theorem execBpReverseTrip_fixed (vsns : Int) (s : State) : Goes s (execBpReverseTrip vsns s) := by
  unfold execBpReverseTrip
  (repeat' split) <;> simp [Goes, apply_ite State.fixed, apply_ite Prod.fst]

theorem execFeedLost_fixed (vin : Nat) (s : State) : Goes s (execFeedLost vin s) := by
  unfold execFeedLost
  (repeat' split) <;> simp [Goes, apply_ite State.fixed, apply_ite Prod.fst]

theorem execFeedReturn_fixed (vin : Nat) (s : State) : Goes s (execFeedReturn vin s) := by
  unfold execFeedReturn
  (repeat' split) <;> simp [Goes, apply_ite State.fixed, apply_ite Prod.fst]

theorem execHoldTExpiry_fixed (s : State) : Goes s (execHoldTExpiry s) := by
  unfold execHoldTExpiry
  split <;> simp [Goes]

theorem execRetryTExpiry_fixed (s : State) : Goes s (execRetryTExpiry s) := by
  unfold execRetryTExpiry
  split <;> simp [Goes]

theorem execRetryCntClear_fixed (s : State) : Goes s (execRetryCntClear s) := by
  unfold execRetryCntClear
  split <;> simp [Goes]

theorem execWarnNAssert_fixed (cause : WarnCause) (s : State) : Goes s (execWarnNAssert cause s) := by
  unfold execWarnNAssert
  (repeat' split) <;> simp [Goes, apply_ite State.fixed, apply_ite Prod.fst]

theorem execSagSuspend_fixed (fall : Nat) (s : State) : Goes s (execSagSuspend fall s) := by
  unfold execSagSuspend
  split <;> simp [Goes]

theorem execSagClear_fixed (s : State) : Goes s (execSagClear s) := by
  simp [execSagClear, Goes]

@[simp] theorem State.hsEvent_fixed (s : State) (h : HsHist) : (State.hsEvent s h).fixed = s.fixed := by
  simp [State.hsEvent]

@[simp] theorem State.sqEvent_fixed (s : State) (h : SqHist) : (State.sqEvent s h).fixed = s.fixed := by
  simp [State.sqEvent]

@[simp] theorem State.historyCopy_fixed (s : State) : (State.historyCopy s).fixed = s.fixed := by
  unfold State.historyCopy
  split <;> simp

theorem execHistoryCopy_fixed (s : State) : Goes s (execHistoryCopy s) := by
  simp [execHistoryCopy, Goes]

end Sys2Proof.Machine
end

