-- ==== Sys2Proof/Laws/Fixed2.lean ====
section
/-! SUPPORT. What an operation leaves alone (part 2 of 4): sealed Varnish, the queue of commands, and the memories that
power-down keeps, by `State.fixed`; and that every command answers a next state. Modules: Sequencer, HealthOps, Attach, PowerPath, Contract, Thermal, Swap, Alt. -/
namespace Sys2Proof.Machine

@[simp] theorem State.sqRecord_fixed (s : State) (rail : Nat) (f : SqFlag) : (State.sqRecord s rail f).fixed = s.fixed := by
  simp [State.sqRecord]

@[simp] theorem State.sqGoto_fixed (s : State) (st : SqState) : (State.sqGoto s st).fixed = s.fixed := by
  unfold State.sqGoto
  (repeat' split) <;> simp [apply_ite State.fixed, apply_ite Prod.fst]

@[simp] theorem State.allOffPorts_fixed (s : State) : (State.allOffPorts s).fixed = s.fixed := by
  simp [State.allOffPorts]

@[simp] theorem State.shutdownStep_fixed (k : Nat) (s : State) : (State.shutdownStep k s).fixed = s.fixed := by
  induction k generalizing s with
  | zero => rfl
  | succ k ih =>
    unfold State.shutdownStep
    repeat' (first | (simp [ih]; done) | split)
@[simp] theorem State.sqShutdown_fixed (s : State) (c : SqCause) (rail : Nat) : (s.sqShutdown c rail).fixed = s.fixed := by
  simp only [State.sqShutdown, State.shutdownStep_fixed]
  simp [State.allOffPorts]

@[simp] theorem State.alloffDone_fixed (s : State) : (State.alloffDone s).fixed = s.fixed := by
  unfold State.alloffDone
  (repeat' split) <;> simp [apply_ite State.fixed, apply_ite Prod.fst]

@[simp] theorem State.sqAlloff_fixed (s : State) (c : SqCause) (rail : Nat) : (State.sqAlloff s c rail).fixed = s.fixed := by
  simp [State.sqAlloff]

@[simp] theorem State.feedFirst_fixed (s : State) (lower : State → State) (h : ∀ s, (lower s).fixed = s.fixed) :
    (s.feedFirst lower).fixed = s.fixed := by
  unfold State.feedFirst
  split <;> simp [h]

@[simp] theorem State.wentDown_fixed (s : State) : (State.wentDown s).fixed = s.fixed := by
  simp [State.wentDown]

@[simp] theorem State.beginStep_fixed (s : State) (k : Nat) : (State.beginStep s k).fixed = s.fixed := by
  simp [State.beginStep]

theorem execSqStart_fixed (s : State) : Goes s (execSqStart s) := by
  unfold execSqStart
  (repeat' split) <;> simp [Goes, apply_ite State.fixed, apply_ite Prod.fst]

theorem execSqRaise_fixed (s : State) : Goes s (execSqRaise s) := by
  unfold execSqRaise
  (repeat' split) <;> simp [Goes, apply_ite State.fixed, apply_ite Prod.fst]

theorem execSqEnableRise_fixed (x : RailId) (s : State) : Goes s (execSqEnableRise x s) := by
  unfold execSqEnableRise
  repeat' (first
    | (simp [Goes, apply_ite State.fixed, apply_ite Prod.fst]; done)
    | split
    | simp [Goes, apply_ite State.fixed, apply_ite Prod.fst]
    | (intros; exact State.takeMsg_fixed ‹_›)
    | (intros; exact State.bookPort_of ‹_›)
    | refine (State.bookRoleOff_fixed _ _ _ _ _ ‹_›).trans ?_
    | refine (foldl_fixed _ (fun _ _ => ?_) _ _).trans ?_
    | refine State.forPorts_fixed _ _ (fun _ _ => ?_)
    | refine State.feedFirst_fixed _ _ (fun _ => ?_))

@[simp] theorem State.railFault_fixed (s : State) (x : RailId) : (State.railFault s x).fixed = s.fixed := by
  simp [State.railFault]

theorem execSqPgFilter_fixed (x : RailId) (level : Bool) (s : State) : Goes s (execSqPgFilter x level s) := by
  unfold execSqPgFilter
  (repeat' split) <;> simp [Goes, apply_ite State.fixed, apply_ite Prod.fst]

theorem execRailQualify_fixed (x : RailId) (s : State) : Goes s (execRailQualify x s) := by
  unfold execRailQualify
  repeat' (first
    | (simp [Goes, apply_ite State.fixed, apply_ite Prod.fst]; done)
    | split
    | simp [Goes, apply_ite State.fixed, apply_ite Prod.fst]
    | (intros; exact State.takeMsg_fixed ‹_›)
    | (intros; exact State.bookPort_of ‹_›)
    | refine (State.bookRoleOff_fixed _ _ _ _ _ ‹_›).trans ?_
    | refine (foldl_fixed _ (fun _ _ => ?_) _ _).trans ?_
    | refine State.forPorts_fixed _ _ (fun _ _ => ?_)
    | refine State.feedFirst_fixed _ _ (fun _ => ?_))

theorem execUpToExpiry_fixed (x : RailId) (s : State) : Goes s (execUpToExpiry x s) := by
  unfold execUpToExpiry
  split <;> simp [Goes]

theorem execSqFeedAlloff_fixed (s : State) : Goes s (execSqFeedAlloff s) := by
  simp [execSqFeedAlloff, Goes]

theorem execSqPeerAlloff_fixed (s : State) : Goes s (execSqPeerAlloff s) := by
  unfold execSqPeerAlloff
  split <;> simp [Goes]

theorem execSqRailFault_fixed (x : RailId) (s : State) : Goes s (execSqRailFault x s) := by
  unfold execSqRailFault
  (repeat' split) <;> simp [Goes, apply_ite State.fixed, apply_ite Prod.fst]

theorem execSqCinFall_fixed (s : State) : Goes s (execSqCinFall s) := by
  unfold execSqCinFall
  (repeat' split) <;> simp [Goes, apply_ite State.fixed, apply_ite Prod.fst]

theorem execSqCinRise_fixed (s : State) : Goes s (execSqCinRise s) := by
  simp [execSqCinRise, Goes]

theorem execSqRetiRise_fixed (s : State) : Goes s (execSqRetiRise s) := by
  unfold execSqRetiRise
  (repeat' split) <;> simp [Goes, apply_ite State.fixed, apply_ite Prod.fst]

theorem execRetToExpiry_fixed (s : State) : Goes s (execRetToExpiry s) := by
  unfold execRetToExpiry
  split <;> simp [Goes]

theorem execDisToExpiry_fixed (x : RailId) (s : State) : Goes s (execDisToExpiry x s) := by
  unfold execDisToExpiry
  (repeat' split) <;> simp [Goes, apply_ite State.fixed, apply_ite Prod.fst]

theorem execRailDischarged_fixed (x : RailId) (s : State) : Goes s (execRailDischarged x s) := by
  unfold execRailDischarged
  (repeat' split) <;> simp [Goes, apply_ite State.fixed, apply_ite Prod.fst]

theorem execAlloffPulseEnd_fixed (s : State) : Goes s (execAlloffPulseEnd s) := by
  unfold execAlloffPulseEnd
  split <;> simp [Goes]

theorem execAoDelayExpiry_fixed (s : State) : Goes s (execAoDelayExpiry s) := by
  unfold execAoDelayExpiry
  split <;> simp [Goes]

theorem execDownRestart_fixed (s : State) : Goes s (execDownRestart s) := by
  unfold execDownRestart
  split <;> simp [Goes]

theorem execAoCntClear_fixed (s : State) : Goes s (execAoCntClear s) := by
  unfold execAoCntClear
  split <;> simp [Goes]

theorem execSqFaultNArm_fixed (s : State) : Goes s (execSqFaultNArm s) := by
  unfold execSqFaultNArm
  split <;> simp [Goes]

theorem execSqHostShutdown_fixed (s : State) : Goes s (execSqHostShutdown s) := by
  unfold execSqHostShutdown
  split <;> simp [Goes]

@[simp] theorem State.claimSet_fixed (s : State) (n : PortId) (new : Option HostPort) (cause : Nat) : (State.claimSet s n
    new cause).fixed = s.fixed := by
  unfold State.claimSet
  split <;> simp

@[simp] theorem State.testHealth_fixed (s : State) (n : PortId) (test : Nat) (ct : CT) : (State.testHealth s n test
    ct).fixed = s.fixed := by
  simp [State.testHealth]

@[simp] theorem State.retireCmds_fixed (s : State) (n : PortId) : (State.retireCmds s n).fixed = s.fixed := by
  simp [State.retireCmds]

@[simp] theorem State.retire_fixed (s : State) (n : PortId) (test : Nat) (ct : CT) : (State.retire s n test ct).fixed =
    s.fixed := by
  simp [State.retire]

@[simp] theorem State.testFail_fixed (s : State) (n : PortId) (test : Fin 6) : (State.testFail s n test).fixed = s.fixed :=
    by
  unfold State.testFail
  (repeat' split) <;> simp [apply_ite State.fixed, apply_ite Prod.fst]

@[simp] theorem State.failsDue_fixed (s : State) : (State.failsDue s).fixed = s.fixed := by
  unfold State.failsDue
  repeat' (first
    | with_reducible rfl
    | (simp [apply_ite State.fixed, apply_ite Prod.fst]; done)
    | split
    | simp [apply_ite State.fixed, apply_ite Prod.fst]
    | (intros; exact State.takeMsg_fixed ‹_›)
    | (intros; exact State.bookPort_of ‹_›)
    | (intros; simp [State.bookPort_of ‹_›]; done)
    | refine (State.bookRoleOff_fixed _ _ _ _ _ ‹_›).trans ?_
    | refine (foldl_fixed _ (fun _ _ => ?_) _ _).trans ?_
    | refine State.forPorts_fixed _ _ (fun _ _ => ?_)
    | refine State.feedFirst_fixed _ _ (fun _ => ?_))

@[simp] theorem State.openBook_fixed (s : State) (n : PortId) : (State.openBook s n).fixed = s.fixed := by
  simp [State.openBook]

@[simp] theorem State.portOpen_fixed (s : State) (n : PortId) : (State.portOpen s n).fixed = s.fixed := by
  simp [State.portOpen]

theorem execPortOpen_fixed (n : PortId) (s : State) : Goes s (execPortOpen n s) := by
  unfold execPortOpen
  split <;> simp [Goes]

theorem execConverterPowerGood_fixed (n : PortId) (undet : Bool) (s : State) : Goes s (execConverterPowerGood n undet s) :=
    by
  unfold execConverterPowerGood
  (repeat' split) <;> simp [Goes, apply_ite State.fixed, apply_ite Prod.fst]

theorem execConverterStartCheck_fixed (n : PortId) (s : State) : Goes s (execConverterStartCheck n s) := by
  unfold execConverterStartCheck
  split <;> simp [Goes]

@[simp] theorem State.enterTry_fixed (s : State) (n : PortId) (st : TcState) (o : Orient) : (State.enterTry s n st o).fixed
    = s.fixed := by
  simp [State.enterTry]

@[simp] theorem State.toAttSrc_fixed (s : State) (n : PortId) (a b : CcRead) : (State.toAttSrc s n a b).fixed = s.fixed := by
  simp [State.toAttSrc]

@[simp] theorem State.toAttSnk_fixed (s : State) (n : PortId) (a b : CcRead) : (State.toAttSnk s n a b).fixed = s.fixed := by
  simp [State.toAttSnk]

@[simp] theorem State.toAudio_fixed (s : State) (n : PortId) : (State.toAudio s n).fixed = s.fixed := by
  simp [State.toAudio]

@[simp] theorem State.waitVbus_fixed (s : State) (n : PortId) : (State.waitVbus s n).fixed = s.fixed := by
  simp [State.waitVbus]

@[simp] theorem State.ccDecide_fixed (s : State) (n : PortId) (a b : CcRead) (vbus : Nat) : (State.ccDecide s n a b
    vbus).fixed = s.fixed := by
  unfold State.ccDecide
  repeat' (first
    | with_reducible rfl
    | (simp [apply_ite State.fixed, apply_ite Prod.fst]; done)
    | split
    | simp [apply_ite State.fixed, apply_ite Prod.fst]
    | (intros; exact State.takeMsg_fixed ‹_›)
    | (intros; exact State.bookPort_of ‹_›)
    | (intros; simp [State.bookPort_of ‹_›]; done)
    | refine (State.bookRoleOff_fixed _ _ _ _ _ ‹_›).trans ?_
    | refine (foldl_fixed _ (fun _ _ => ?_) _ _).trans ?_
    | refine State.forPorts_fixed _ _ (fun _ _ => ?_)
    | refine State.feedFirst_fixed _ _ (fun _ => ?_))

@[simp] theorem State.tryDecide_fixed (s : State) (n : PortId) (a b : CcRead) (vbus : Nat) : (State.tryDecide s n a b
    vbus).fixed = s.fixed := by
  unfold State.tryDecide
  repeat' (first
    | with_reducible rfl
    | (simp [apply_ite State.fixed, apply_ite Prod.fst]; done)
    | split
    | simp [apply_ite State.fixed, apply_ite Prod.fst]
    | (intros; exact State.takeMsg_fixed ‹_›)
    | (intros; exact State.bookPort_of ‹_›)
    | (intros; simp [State.bookPort_of ‹_›]; done)
    | refine (State.bookRoleOff_fixed _ _ _ _ _ ‹_›).trans ?_
    | refine (foldl_fixed _ (fun _ _ => ?_) _ _).trans ?_
    | refine State.forPorts_fixed _ _ (fun _ _ => ?_)
    | refine State.feedFirst_fixed _ _ (fun _ => ?_))

@[simp] theorem State.setCc_fixed (s : State) (n : PortId) (a b : CcRead) : (State.setCc s n a b).fixed = s.fixed := by
  simp [State.setCc]

theorem execCcDetect_fixed (n : PortId) (mv1 mv2 : Nat) (s : State) : Goes s (execCcDetect n mv1 mv2 s) := by
  unfold execCcDetect
  repeat' (first
    | (simp [Goes, apply_ite State.fixed, apply_ite Prod.fst]; done)
    | split
    | simp [Goes, apply_ite State.fixed, apply_ite Prod.fst]
    | (intros; exact State.takeMsg_fixed ‹_›)
    | (intros; exact State.bookPort_of ‹_›)
    | refine (State.bookRoleOff_fixed _ _ _ _ _ ‹_›).trans ?_
    | refine (foldl_fixed _ (fun _ _ => ?_) _ _).trans ?_
    | refine State.forPorts_fixed _ _ (fun _ _ => ?_)
    | refine State.feedFirst_fixed _ _ (fun _ => ?_))

@[simp] theorem State.holdIt_fixed (s : State) (n : PortId) : (State.holdIt s n).fixed = s.fixed := by
  simp [State.holdIt]

theorem execTccdebounce_fixed (n : PortId) (cc1 cc2 : Nat) (vbus : Nat) (s : State) : Goes s (execTccdebounce n cc1 cc2 vbus
    s) := by
  unfold execTccdebounce
  (repeat' split) <;> simp [Goes, apply_ite State.fixed, apply_ite Prod.fst]

theorem execTtryccdebounce_fixed (n : PortId) (cc1 cc2 : Nat) (vbus : Nat) (s : State) : Goes s (execTtryccdebounce n cc1
    cc2 vbus s) := by
  unfold execTtryccdebounce
  (repeat' split) <;> simp [Goes, apply_ite State.fixed, apply_ite Prod.fst]

theorem execTpddebounce_fixed (n : PortId) (s : State) : Goes s (execTpddebounce n s) := by
  unfold execTpddebounce
  split <;> simp [Goes]

@[simp] theorem State.tryEnd_fixed (s : State) (n : PortId) : (State.tryEnd s n).fixed = s.fixed := by
  unfold State.tryEnd
  repeat' (first
    | with_reducible rfl
    | (simp [apply_ite State.fixed, apply_ite Prod.fst]; done)
    | split
    | simp [apply_ite State.fixed, apply_ite Prod.fst]
    | (intros; exact State.takeMsg_fixed ‹_›)
    | (intros; exact State.bookPort_of ‹_›)
    | (intros; simp [State.bookPort_of ‹_›]; done)
    | refine (State.bookRoleOff_fixed _ _ _ _ _ ‹_›).trans ?_
    | refine (foldl_fixed _ (fun _ _ => ?_) _ _).trans ?_
    | refine State.forPorts_fixed _ _ (fun _ _ => ?_)
    | refine State.feedFirst_fixed _ _ (fun _ => ?_))

theorem execTdrptry_fixed (n : PortId) (s : State) : Goes s (execTdrptry n s) := by
  unfold execTdrptry
  split <;> simp [Goes]

theorem execTtrytimeout_fixed (n : PortId) (s : State) : Goes s (execTtrytimeout n s) := by
  unfold execTtrytimeout
  (repeat' split) <;> simp [Goes, apply_ite State.fixed, apply_ite Prod.fst]

@[simp] theorem State.heldDecide_fixed (s : State) (n : PortId) (cc1 cc2 vbus : Nat) : (State.heldDecide s n cc1 cc2
    vbus).fixed = s.fixed := by
  unfold State.heldDecide
  repeat' (first
    | with_reducible rfl
    | (simp [apply_ite State.fixed, apply_ite Prod.fst]; done)
    | split
    | simp [apply_ite State.fixed, apply_ite Prod.fst]
    | (intros; exact State.takeMsg_fixed ‹_›)
    | (intros; exact State.bookPort_of ‹_›)
    | (intros; simp [State.bookPort_of ‹_›]; done)
    | refine (State.bookRoleOff_fixed _ _ _ _ _ ‹_›).trans ?_
    | refine (foldl_fixed _ (fun _ _ => ?_) _ _).trans ?_
    | refine State.forPorts_fixed _ _ (fun _ _ => ?_)
    | refine State.feedFirst_fixed _ _ (fun _ => ?_))

theorem execTsrcdisconnect_fixed (n : PortId) (s : State) : Goes s (execTsrcdisconnect n s) := by
  unfold execTsrcdisconnect
  (repeat' split) <;> simp [Goes, apply_ite State.fixed, apply_ite Prod.fst]

theorem execVbusLoss_fixed (n : PortId) (mv : Nat) (s : State) : Goes s (execVbusLoss n mv s) := by
  unfold execVbusLoss
  (repeat' split) <;> simp [Goes, apply_ite State.fixed, apply_ite Prod.fst]

theorem execVbusSafe0v_fixed (n : PortId) (mv : Nat) (s : State) : Goes s (execVbusSafe0v n mv s) := by
  unfold execVbusSafe0v
  (repeat' split) <;> simp [Goes, apply_ite State.fixed, apply_ite Prod.fst]

theorem execTerrorrecovery_fixed (n : PortId) (s : State) : Goes s (execTerrorrecovery n s) := by
  unfold execTerrorrecovery
  split <;> simp [Goes]

theorem execTSrcEnd_fixed (n : PortId) (s : State) : Goes s (execTSrcEnd n s) := by
  unfold execTSrcEnd
  split <;> simp [Goes]

theorem execComparatorBlankEnd_fixed (n : PortId) (s : State) : Goes s (execComparatorBlankEnd n s) := by
  simp [execComparatorBlankEnd, Goes]

theorem execDacReadback_fixed (n : PortId) (diff : Nat) (s : State) : Goes s (execDacReadback n diff s) := by
  unfold execDacReadback
  split <;> simp [Goes]

theorem execSinkThresholdStep_fixed (n : PortId) (mv : Nat) (s : State) : Goes s (execSinkThresholdStep n mv s) := by
  unfold execSinkThresholdStep
  split <;> simp [Goes]

theorem execRpLevelChange_fixed (n : PortId) (s : State) : Goes s (execRpLevelChange n s) := by
  simp [execRpLevelChange, Goes]

theorem execPathBookingRetry_fixed (n : PortId) (s : State) : Goes s (execPathBookingRetry n s) := by
  unfold execPathBookingRetry
  split <;> simp [Goes]

theorem execPathGrantLimit_fixed (n : PortId) (s : State) : Goes s (execPathGrantLimit n s) := by
  unfold execPathGrantLimit
  (repeat' split) <;> simp [Goes, apply_ite State.fixed, apply_ite Prod.fst]

theorem execVconnOc_fixed (n : PortId) (s : State) : Goes s (execVconnOc n s) := by
  unfold execVconnOc
  (repeat' split) <;> simp [Goes, apply_ite State.fixed, apply_ite Prod.fst]

@[simp] theorem State.trimGrant_fixed (s : State) (n : PortId) : (State.trimGrant s n).fixed = s.fixed := by
  unfold State.trimGrant
  (repeat' split) <;> simp [apply_ite State.fixed, apply_ite Prod.fst]

theorem execTrimSet_fixed (n : PortId) (s : State) : Goes s (execTrimSet n s) := by
  unfold execTrimSet
  (repeat' split) <;> simp [Goes, apply_ite State.fixed, apply_ite Prod.fst]

@[simp] theorem State.planStep_fixed (s : State) (n : PortId) : (State.planStep s n).fixed = s.fixed := by
  unfold State.planStep
  split <;> simp

theorem execSetGrant_fixed (n : PortId) (s : State) : Goes s (execSetGrant n s) := by
  unfold execSetGrant
  (repeat' split) <;> simp [Goes, apply_ite State.fixed, apply_ite Prod.fst]

@[simp] theorem State.openRetry_fixed (s : State) (n : PortId) : (State.openRetry s n).fixed = s.fixed := by
  unfold State.openRetry
  split <;> simp

@[simp] theorem State.vconnTry_fixed (s : State) (n : PortId) : (State.vconnTry s n).fixed = s.fixed := by
  unfold State.vconnTry
  (repeat' split) <;> simp [apply_ite State.fixed, apply_ite Prod.fst]

@[simp] theorem State.closePath_fixed (s : State) (n : PortId) : (State.closePath s n).fixed = s.fixed := by
  unfold State.closePath
  (repeat' split) <;> simp [apply_ite State.fixed, apply_ite Prod.fst]

theorem execPathGrant_fixed (n : PortId) (s : State) : Goes s (execPathGrant n s) := by
  unfold execPathGrant
  (repeat' split) <;> simp [Goes, apply_ite State.fixed, apply_ite Prod.fst]

theorem execClosingDone_fixed (n : PortId) (near far : Nat) (s : State) : Goes s (execClosingDone n near far s) := by
  unfold execClosingDone
  split <;> simp [Goes]

theorem execCloseFail_fixed (n : PortId) (s : State) : Goes s (execCloseFail n s) := by
  unfold execCloseFail
  split <;> simp [Goes]

theorem execCpgLost_fixed (n : PortId) (s : State) : Goes s (execCpgLost n s) := by
  simp [execCpgLost, Goes]

theorem execPortFastTrip_fixed (n : PortId) (vds : Int) (s : State) : Goes s (execPortFastTrip n vds s) := by
  unfold execPortFastTrip
  split <;> simp [Goes]

theorem execPortReverseTrip_fixed (n : PortId) (vds : Int) (s : State) : Goes s (execPortReverseTrip n vds s) := by
  unfold execPortReverseTrip
  split <;> simp [Goes]

theorem execI2tTrip_fixed (n : PortId) (s : State) : Goes s (execI2tTrip n s) := by
  unfold execI2tTrip
  split <;> simp [Goes]

theorem execFtCodeTakeover_fixed (n : PortId) (s : State) : Goes s (execFtCodeTakeover n s) := by
  simp [execFtCodeTakeover, Goes]

@[simp] theorem State.calBook_fixed (s : State) (n : PortId) : (State.calBook s n).fixed = s.fixed := by
  unfold State.calBook
  (repeat' split) <;> simp [apply_ite State.fixed, apply_ite Prod.fst]

theorem execCalGrant_fixed (n : PortId) (s : State) : Goes s (execCalGrant n s) := by
  unfold execCalGrant
  (repeat' split) <;> simp [Goes, apply_ite State.fixed, apply_ite Prod.fst]

@[simp] theorem State.dischargeDone_fixed (s : State) (n : PortId) : (State.dischargeDone s n).fixed = s.fixed := by
  simp [State.dischargeDone]

theorem execDischargeTimeout_fixed (n : PortId) (s : State) : Goes s (execDischargeTimeout n s) := by
  unfold execDischargeTimeout
  (repeat' split) <;> simp [Goes, apply_ite State.fixed, apply_ite Prod.fst]

theorem execRetryExpiry_fixed (n : PortId) (s : State) : Goes s (execRetryExpiry n s) := by
  unfold execRetryExpiry
  (repeat' split) <;> simp [Goes, apply_ite State.fixed, apply_ite Prod.fst]

theorem execHardwareTestFail_fixed (n : PortId) (test : Fin 6) (s : State) : Goes s (execHardwareTestFail n test s) := by
  unfold execHardwareTestFail
  split <;> simp [Goes]

theorem execVconnPresentChange_fixed (k : PlatId) (mv : Nat) (s : State) : Goes s (execVconnPresentChange k mv s) := by
  simp [execVconnPresentChange, Goes]

@[simp] theorem State.capsSend_fixed (s : State) (n : PortId) (op : Nat) : (State.capsSend s n op).fixed = s.fixed := by
  simp [State.capsSend]

@[simp] theorem State.policyBegin_fixed (s : State) : (State.policyBegin s).fixed = s.fixed := by
  unfold State.policyBegin
  split <;> simp

@[simp] theorem State.policyAsk_fixed (s : State) (what : PolicyAsk) : (State.policyAsk s what).fixed = s.fixed := by
  unfold State.policyAsk
  split <;> simp

@[simp] theorem State.offerSend_fixed (s : State) (n : PortId) : (State.offerSend s n).fixed = s.fixed := by
  unfold State.offerSend
  split <;> simp

theorem execCapabilitiesSend_fixed (n : PortId) (s : State) : Goes s (execCapabilitiesSend n s) := by
  unfold execCapabilitiesSend
  split <;> simp [Goes]

@[simp] theorem State.riseSend_fixed (s : State) (n : PortId) (op : Nat) : (State.riseSend s n op).fixed = s.fixed := by
  unfold State.riseSend
  split <;> simp

theorem execOfferRiseCaps_fixed (n : PortId) (s : State) : Goes s (execOfferRiseCaps n s) := by
  unfold execOfferRiseCaps
  (repeat' split) <;> simp [Goes, apply_ite State.fixed, apply_ite Prod.fst]

@[simp] theorem State.shedWith_fixed (s : State) (target : PortId → Nat) : (State.shedWith s target).fixed = s.fixed := by
  simp [State.shedWith]

@[simp] theorem State.shedStart_fixed (s : State) : (State.shedStart s).fixed = s.fixed := by
  unfold State.shedStart
  (repeat' split) <;> simp [apply_ite State.fixed, apply_ite Prod.fst]

@[simp] theorem State.capsReply_fixed (s : State) (n : PortId) (epr : Bool) (op : Nat) : (State.capsReply s n epr op).fixed
    = s.fixed := by
  simp [State.capsReply]

@[simp] theorem State.policyTake_fixed (s : State) (what : PolicyAsk) (ok : Bool) : (State.policyTake s what ok).fixed =
    s.fixed := by
  unfold State.policyTake
  (repeat' split) <;> simp [apply_ite State.fixed, apply_ite Prod.fst]

@[simp] theorem State.policyAnswer_fixed (s : State) (ok : Bool) : (State.policyAnswer s ok).fixed = s.fixed := by
  unfold State.policyAnswer
  (repeat' split) <;> simp [apply_ite State.fixed, apply_ite Prod.fst]

theorem execShedTimeout_fixed (n : PortId) (s : State) : Goes s (execShedTimeout n s) := by
  unfold execShedTimeout
  (repeat' split) <;> simp [Goes, apply_ite State.fixed, apply_ite Prod.fst]

@[simp] theorem State.thermalSet_fixed (s : State) (n : PortId) : (State.thermalSet s n).fixed = s.fixed := by
  unfold State.thermalSet
  (repeat' split) <;> simp [apply_ite State.fixed, apply_ite Prod.fst]

theorem execThermalLimitRemove_fixed (n : PortId) (s : State) : Goes s (execThermalLimitRemove n s) := by
  unfold execThermalLimitRemove
  split <;> simp [Goes]

@[simp] theorem State.answerReq_fixed (s : State) (n : PortId) (b : PdBody) : (State.answerReq s n b).fixed = s.fixed := by
  simp [State.answerReq]

@[simp] theorem State.waitReq_fixed (s : State) (n : PortId) (budget : Bool) : (State.waitReq s n budget).fixed = s.fixed :=
    by
  unfold State.waitReq
  split <;> simp

@[simp] theorem State.planTake_fixed (s : State) (n : PortId) (q : Plan) : (State.planTake s n q).fixed = s.fixed := by
  simp [State.planTake]

@[simp] theorem State.evaluate_fixed (s : State) (n : PortId) (r : Rdo) (kind : CtKind) (v1 i10 imax : Nat) :
    (State.evaluate s n r kind v1 i10 imax).fixed = s.fixed := by
  unfold State.evaluate
  repeat' (first
    | with_reducible rfl
    | (simp [apply_ite State.fixed, apply_ite Prod.fst]; done)
    | split
    | simp [apply_ite State.fixed, apply_ite Prod.fst]
    | (intros; exact State.takeMsg_fixed ‹_›)
    | (intros; exact State.bookPort_of ‹_›)
    | (intros; simp [State.bookPort_of ‹_›]; done)
    | refine (State.bookRoleOff_fixed _ _ _ _ _ ‹_›).trans ?_
    | refine (foldl_fixed _ (fun _ _ => ?_) _ _).trans ?_
    | refine State.forPorts_fixed _ _ (fun _ _ => ?_)
    | refine State.feedFirst_fixed _ _ (fun _ => ?_))

@[simp] theorem State.requestOne_fixed (s : State) (n : PortId) : (State.requestOne s n).fixed = s.fixed := by
  unfold State.requestOne
  repeat' (first
    | with_reducible rfl
    | (simp [apply_ite State.fixed, apply_ite Prod.fst]; done)
    | split
    | simp [apply_ite State.fixed, apply_ite Prod.fst]
    | (intros; exact State.takeMsg_fixed ‹_›)
    | (intros; exact State.bookPort_of ‹_›)
    | (intros; simp [State.bookPort_of ‹_›]; done)
    | refine (State.bookRoleOff_fixed _ _ _ _ _ ‹_›).trans ?_
    | refine (foldl_fixed _ (fun _ _ => ?_) _ _).trans ?_
    | refine State.forPorts_fixed _ _ (fun _ _ => ?_)
    | refine State.feedFirst_fixed _ _ (fun _ => ?_))

theorem execRequest_fixed (n : PortId) (s : State) : Goes s (execRequest n s) := by
  simp [execRequest, Goes]

theorem execEprModeEnter_fixed (n : PortId) (s : State) : Goes s (execEprModeEnter n s) := by
  unfold execEprModeEnter
  repeat' (first
    | (simp [Goes, apply_ite State.fixed, apply_ite Prod.fst]; done)
    | split
    | simp [Goes, apply_ite State.fixed, apply_ite Prod.fst]
    | (intros; exact State.takeMsg_fixed ‹_›)
    | (intros; exact State.bookPort_of ‹_›)
    | refine (State.bookRoleOff_fixed _ _ _ _ _ ‹_›).trans ?_
    | refine (foldl_fixed _ (fun _ _ => ?_) _ _).trans ?_
    | refine State.forPorts_fixed _ _ (fun _ _ => ?_)
    | refine State.feedFirst_fixed _ _ (fun _ => ?_))

@[simp] theorem State.eprFinish_fixed (s : State) (n : PortId) : (State.eprFinish s n).fixed = s.fixed := by
  unfold State.eprFinish
  (repeat' split) <;> simp [apply_ite State.fixed, apply_ite Prod.fst]

@[simp] theorem State.planDone_fixed (s : State) (n : PortId) (q : Plan) : (State.planDone s n q).fixed = s.fixed := by
  unfold State.planDone
  split <;> simp

theorem execTransitionCheck_fixed (n : PortId) (meanVc : Nat) (s : State) : Goes s (execTransitionCheck n meanVc s) := by
  unfold execTransitionCheck
  (repeat' split) <;> simp [Goes, apply_ite State.fixed, apply_ite Prod.fst]

theorem execConvFail_fixed (n : PortId) (s : State) : Goes s (execConvFail n s) := by
  unfold execConvFail
  split <;> simp [Goes]

theorem execRampGrant_fixed (n : PortId) (s : State) : Goes s (execRampGrant n s) := by
  unfold execRampGrant
  split <;> simp [Goes]

theorem execDischargeAssistEnd_fixed (n : PortId) (_mv : Nat) (s : State) : Goes s (execDischargeAssistEnd n _mv s) := by
  unfold execDischargeAssistEnd
  split <;> simp [Goes]

@[simp] theorem State.sinkBook_fixed (s : State) (n : PortId) : (State.sinkBook s n).fixed = s.fixed := by
  unfold State.sinkBook
  (repeat' split) <;> simp [apply_ite State.fixed, apply_ite Prod.fst]

@[simp] theorem State.stopBook_fixed (s : State) (n : PortId) (then' : PdBody) : (State.stopBook s n then').fixed = s.fixed
    := by
  unfold State.stopBook
  (repeat' split) <;> simp [apply_ite State.fixed, apply_ite Prod.fst]

@[simp] theorem State.stopSend_fixed (s : State) (n : PortId) : (State.stopSend s n).fixed = s.fixed := by
  unfold State.stopSend
  (repeat' split) <;> simp [apply_ite State.fixed, apply_ite Prod.fst]

theorem execSinkGrant_fixed (n : PortId) (s : State) : Goes s (execSinkGrant n s) := by
  unfold execSinkGrant
  split <;> simp [Goes]

theorem execSinkStopRetry_fixed (n : PortId) (s : State) : Goes s (execSinkStopRetry n s) := by
  unfold execSinkStopRetry
  (repeat' split) <;> simp [Goes, apply_ite State.fixed, apply_ite Prod.fst]

theorem execSinkPartialRebook_fixed (n : PortId) (s : State) : Goes s (execSinkPartialRebook n s) := by
  unfold execSinkPartialRebook
  split <;> simp [Goes]

theorem execRegenStop_fixed (vsns : Int) (s : State) : Goes s (execRegenStop vsns s) := by
  unfold execRegenStop
  repeat' (first
    | (simp [Goes, apply_ite State.fixed, apply_ite Prod.fst]; done)
    | split
    | simp [Goes, apply_ite State.fixed, apply_ite Prod.fst]
    | (intros; exact State.takeMsg_fixed ‹_›)
    | (intros; exact State.bookPort_of ‹_›)
    | refine (State.bookRoleOff_fixed _ _ _ _ _ ‹_›).trans ?_
    | refine (foldl_fixed _ (fun _ _ => ?_) _ _).trans ?_
    | refine State.forPorts_fixed _ _ (fun _ _ => ?_)
    | refine State.feedFirst_fixed _ _ (fun _ => ?_))

theorem execRegenRebook_fixed (s : State) : Goes s (execRegenRebook s) := by
  unfold execRegenRebook
  split <;> simp [Goes]

@[simp] theorem State.sinkRequest_fixed (s : State) (n : PortId) (r : Rdo) : (State.sinkRequest s n r).fixed = s.fixed := by
  simp [State.sinkRequest]

@[simp] theorem State.standbyLeave_fixed (s : State) (n : PortId) (then' : PdBody) : (State.standbyLeave s n then').fixed =
    s.fixed := by
  simp [State.standbyLeave]

@[simp] theorem State.sinkDecide_fixed (s : State) (n : PortId) (answer : Bool) : (State.sinkDecide s n answer).fixed =
    s.fixed := by
  unfold State.sinkDecide
  repeat' (first
    | with_reducible rfl
    | (simp [apply_ite State.fixed, apply_ite Prod.fst]; done)
    | split
    | simp [apply_ite State.fixed, apply_ite Prod.fst]
    | (intros; exact State.takeMsg_fixed ‹_›)
    | (intros; exact State.bookPort_of ‹_›)
    | (intros; simp [State.bookPort_of ‹_›]; done)
    | refine (State.bookRoleOff_fixed _ _ _ _ _ ‹_›).trans ?_
    | refine (foldl_fixed _ (fun _ _ => ?_) _ _).trans ?_
    | refine State.forPorts_fixed _ _ (fun _ _ => ?_)
    | refine State.feedFirst_fixed _ _ (fun _ => ?_))

theorem execSourceCapabilities_fixed (n : PortId) (s : State) : Goes s (execSourceCapabilities n s) := by
  unfold execSourceCapabilities
  repeat' (first
    | (simp [Goes, apply_ite State.fixed, apply_ite Prod.fst]; done)
    | split
    | simp [Goes, apply_ite State.fixed, apply_ite Prod.fst]
    | (intros; exact State.takeMsg_fixed ‹_›)
    | (intros; exact State.bookPort_of ‹_›)
    | refine (State.bookRoleOff_fixed _ _ _ _ _ ‹_›).trans ?_
    | refine (foldl_fixed _ (fun _ _ => ?_) _ _).trans ?_
    | refine State.forPorts_fixed _ _ (fun _ _ => ?_)
    | refine State.feedFirst_fixed _ _ (fun _ => ?_))

@[simp] theorem State.sinkReady_fixed (s : State) (n : PortId) : (State.sinkReady s n).fixed = s.fixed := by
  unfold State.sinkReady
  split <;> simp

@[simp] theorem State.thermJudge_fixed (s : State) (n : PortId) : (State.thermJudge s n).fixed = s.fixed := by
  unfold State.thermJudge
  (repeat' split) <;> simp [apply_ite State.fixed, apply_ite Prod.fst]

theorem execRpairEstimate_fixed (n : PortId) (s : State) : Goes s (execRpairEstimate n s) := by
  unfold execRpairEstimate
  split <;> simp [Goes]

@[simp] theorem State.calApply_fixed (s : State) (n : PortId) (r : Rat) : (State.calApply s n r).fixed = s.fixed := by
  simp [State.calApply]

@[simp] theorem State.calReports_fixed (s : State) (n : PortId) : (State.calReports s n).fixed = s.fixed := by
  unfold State.calReports
  (repeat' split) <;> simp [apply_ite State.fixed, apply_ite Prod.fst]

theorem execCalResult_fixed (n : PortId) (pre pulse post dss : Rat) (dropBus dropConn : Int) (s : State) : Goes s
    (execCalResult n pre pulse post dss dropBus dropConn s) := by
  unfold execCalResult
  (repeat' split) <;> simp [Goes, apply_ite State.fixed, apply_ite Prod.fst]

theorem execTrimLoop_fixed (n : PortId) (s : State) : Goes s (execTrimLoop n s) := by
  unfold execTrimLoop
  (repeat' split) <;> simp [Goes, apply_ite State.fixed, apply_ite Prod.fst]

@[simp] theorem State.swapGo_fixed (s : State) (n : PortId) (c : SwapCode) (st : SwapStep) : (State.swapGo s n c st).fixed =
    s.fixed := by
  simp [State.swapGo]

@[simp] theorem State.swapStep_fixed (s : State) (n : PortId) (st : SwapStep) : (State.swapStep s n st).fixed = s.fixed := by
  simp [State.swapStep]

@[simp] theorem State.swapQuiet_fixed (s : State) (n : PortId) : (State.swapQuiet s n).fixed = s.fixed := by
  simp [State.swapQuiet]

@[simp] theorem State.bookRoleOff_fixed (s : State) (n : PortId) (ahead : CT) (limit : Nat) (t : State) (h : s.bookRoleOff n
    ahead limit = some t) : t.fixed = s.fixed := by
  unfold State.bookRoleOff at h
  simp only at h
  split at h
  · rename_i heq
    split at h
    · cases h
      simp [State.bookPort_of heq]
    · cases h
  · cases h

@[simp] theorem State.typeCSource_fixed (s : State) (n : PortId) (lvl : Nat) : (State.typeCSource s n lvl).fixed = s.fixed
    := by
  simp [State.typeCSource]

@[simp] theorem State.becomeSink_fixed (s : State) (n : PortId) : (State.becomeSink s n).fixed = s.fixed := by
  simp [State.becomeSink]

@[simp] theorem State.becomeSource_fixed (s : State) (n : PortId) (lvl : Nat) : (State.becomeSource s n lvl).fixed = s.fixed
    := by
  simp [State.becomeSource]

@[simp] theorem State.swapContractEnd_fixed (s : State) (n : PortId) : (State.swapContractEnd s n).fixed = s.fixed := by
  simp [State.swapContractEnd]

theorem execPrSwap_fixed (n : PortId) (s : State) : Goes s (execPrSwap n s) := by
  unfold execPrSwap
  repeat' (first
    | (simp [Goes, apply_ite State.fixed, apply_ite Prod.fst]; done)
    | split
    | simp [Goes, apply_ite State.fixed, apply_ite Prod.fst]
    | (intros; exact State.takeMsg_fixed ‹_›)
    | (intros; exact State.bookPort_of ‹_›)
    | refine (State.bookRoleOff_fixed _ _ _ _ _ ‹_›).trans ?_
    | refine (foldl_fixed _ (fun _ _ => ?_) _ _).trans ?_
    | refine State.forPorts_fixed _ _ (fun _ _ => ?_)
    | refine State.feedFirst_fixed _ _ (fun _ => ?_))

theorem execDrSwap_fixed (n : PortId) (s : State) : Goes s (execDrSwap n s) := by
  unfold execDrSwap
  repeat' (first
    | (simp [Goes, apply_ite State.fixed, apply_ite Prod.fst]; done)
    | split
    | simp [Goes, apply_ite State.fixed, apply_ite Prod.fst]
    | (intros; exact State.takeMsg_fixed ‹_›)
    | (intros; exact State.bookPort_of ‹_›)
    | refine (State.bookRoleOff_fixed _ _ _ _ _ ‹_›).trans ?_
    | refine (foldl_fixed _ (fun _ _ => ?_) _ _).trans ?_
    | refine State.forPorts_fixed _ _ (fun _ _ => ?_)
    | refine State.feedFirst_fixed _ _ (fun _ => ?_))

theorem execVconnSwap_fixed (n : PortId) (s : State) : Goes s (execVconnSwap n s) := by
  unfold execVconnSwap
  repeat' (first
    | (simp [Goes, apply_ite State.fixed, apply_ite Prod.fst]; done)
    | split
    | simp [Goes, apply_ite State.fixed, apply_ite Prod.fst]
    | (intros; exact State.takeMsg_fixed ‹_›)
    | (intros; exact State.bookPort_of ‹_›)
    | refine (State.bookRoleOff_fixed _ _ _ _ _ ‹_›).trans ?_
    | refine (foldl_fixed _ (fun _ _ => ?_) _ _).trans ?_
    | refine State.forPorts_fixed _ _ (fun _ _ => ?_)
    | refine State.feedFirst_fixed _ _ (fun _ => ?_))

theorem execFrSwap_fixed (n : PortId) (s : State) : Goes s (execFrSwap n s) := by
  unfold execFrSwap
  repeat' (first
    | (simp [Goes, apply_ite State.fixed, apply_ite Prod.fst]; done)
    | split
    | simp [Goes, apply_ite State.fixed, apply_ite Prod.fst]
    | (intros; exact State.takeMsg_fixed ‹_›)
    | (intros; exact State.bookPort_of ‹_›)
    | refine (State.bookRoleOff_fixed _ _ _ _ _ ‹_›).trans ?_
    | refine (foldl_fixed _ (fun _ _ => ?_) _ _).trans ?_
    | refine State.forPorts_fixed _ _ (fun _ _ => ?_)
    | refine State.feedFirst_fixed _ _ (fun _ => ?_))

@[simp] theorem State.swapAsk_fixed (s : State) (n : PortId) (k : SwapKind) (cmd : Option CmdRef) : (State.swapAsk s n k
    cmd).fixed = s.fixed := by
  unfold State.swapAsk
  (repeat' split) <;> simp [apply_ite State.fixed, apply_ite Prod.fst]

theorem execSwapStart_fixed (n : PortId) (k : SwapKind) (s : State) : Goes s (execSwapStart n k s) := by
  unfold execSwapStart
  split <;> simp [Goes]

@[simp] theorem State.drDone_fixed (s : State) (n : PortId) : (State.drDone s n).fixed = s.fixed := by
  simp [State.drDone]

@[simp] theorem State.vconnSwapOn_fixed (s : State) (n : PortId) : (State.vconnSwapOn s n).fixed = s.fixed := by
  simp [State.vconnSwapOn]

@[simp] theorem State.bookRoleOn_fixed (s : State) (n : PortId) : (State.bookRoleOn s n).fixed = s.fixed := by
  unfold State.bookRoleOn
  (repeat' split) <;> simp [apply_ite State.fixed, apply_ite Prod.fst]

@[simp] theorem State.standbyTry_fixed (s : State) (n : PortId) : (State.standbyTry s n).fixed = s.fixed := by
  unfold State.standbyTry
  repeat' (first
    | with_reducible rfl
    | (simp [apply_ite State.fixed, apply_ite Prod.fst]; done)
    | split
    | simp [apply_ite State.fixed, apply_ite Prod.fst]
    | (intros; exact State.takeMsg_fixed ‹_›)
    | (intros; exact State.bookPort_of ‹_›)
    | (intros; simp [State.bookPort_of ‹_›]; done)
    | refine (State.bookRoleOff_fixed _ _ _ _ _ ‹_›).trans ?_
    | refine (foldl_fixed _ (fun _ _ => ?_) _ _).trans ?_
    | refine State.forPorts_fixed _ _ (fun _ _ => ?_)
    | refine State.feedFirst_fixed _ _ (fun _ => ?_))

theorem execRoleGrant_fixed (n : PortId) (s : State) : Goes s (execRoleGrant n s) := by
  unfold execRoleGrant
  repeat' (first
    | (simp [Goes, apply_ite State.fixed, apply_ite Prod.fst]; done)
    | split
    | simp [Goes, apply_ite State.fixed, apply_ite Prod.fst]
    | (intros; exact State.takeMsg_fixed ‹_›)
    | (intros; exact State.bookPort_of ‹_›)
    | refine (State.bookRoleOff_fixed _ _ _ _ _ ‹_›).trans ?_
    | refine (foldl_fixed _ (fun _ _ => ?_) _ _).trans ?_
    | refine State.forPorts_fixed _ _ (fun _ _ => ?_)
    | refine State.feedFirst_fixed _ _ (fun _ => ?_))

theorem execPsRdy_fixed (n : PortId) (s : State) : Goes s (execPsRdy n s) := by
  unfold execPsRdy
  repeat' (first
    | (simp [Goes, apply_ite State.fixed, apply_ite Prod.fst]; done)
    | split
    | simp [Goes, apply_ite State.fixed, apply_ite Prod.fst]
    | (intros; exact State.takeMsg_fixed ‹_›)
    | (intros; exact State.bookPort_of ‹_›)
    | refine (State.bookRoleOff_fixed _ _ _ _ _ ‹_›).trans ?_
    | refine (foldl_fixed _ (fun _ _ => ?_) _ _).trans ?_
    | refine State.forPorts_fixed _ _ (fun _ _ => ?_)
    | refine State.feedFirst_fixed _ _ (fun _ => ?_))

@[simp] theorem State.fellToSafe_fixed (s : State) (n : PortId) : (State.fellToSafe s n).fixed = s.fixed := by
  simp [State.fellToSafe]

theorem execTurntableTimeout_fixed (n : PortId) (s : State) : Goes s (execTurntableTimeout n s) := by
  unfold execTurntableTimeout
  repeat' (first
    | (simp [Goes, apply_ite State.fixed, apply_ite Prod.fst]; done)
    | split
    | simp [Goes, apply_ite State.fixed, apply_ite Prod.fst]
    | (intros; exact State.takeMsg_fixed ‹_›)
    | (intros; exact State.bookPort_of ‹_›)
    | refine (State.bookRoleOff_fixed _ _ _ _ _ ‹_›).trans ?_
    | refine (foldl_fixed _ (fun _ _ => ?_) _ _).trans ?_
    | refine State.forPorts_fixed _ _ (fun _ _ => ?_)
    | refine State.feedFirst_fixed _ _ (fun _ => ?_))

theorem execPrSwapRoleTimeout_fixed (n : PortId) (s : State) : Goes s (execPrSwapRoleTimeout n s) := by
  unfold execPrSwapRoleTimeout
  split <;> simp [Goes]

theorem execNewSourceVbusReady_fixed (n : PortId) (mv : Nat) (s : State) : Goes s (execNewSourceVbusReady n mv s) := by
  unfold execNewSourceVbusReady
  (repeat' split) <;> simp [Goes, apply_ite State.fixed, apply_ite Prod.fst]

theorem execVconnSourceReached_fixed (n : PortId) (mv : Nat) (s : State) : Goes s (execVconnSourceReached n mv s) := by
  unfold execVconnSourceReached
  (repeat' split) <;> simp [Goes, apply_ite State.fixed, apply_ite Prod.fst]

theorem execVconnSwapFail_fixed (n : PortId) (s : State) : Goes s (execVconnSwapFail n s) := by
  unfold execVconnSwapFail
  split <;> simp [Goes]

@[simp] theorem State.rampRebook_fixed (s : State) (n : PortId) : (State.rampRebook s n).fixed = s.fixed := by
  unfold State.rampRebook
  repeat' (first
    | with_reducible rfl
    | (simp [apply_ite State.fixed, apply_ite Prod.fst]; done)
    | split
    | simp [apply_ite State.fixed, apply_ite Prod.fst]
    | (intros; exact State.takeMsg_fixed ‹_›)
    | (intros; exact State.bookPort_of ‹_›)
    | (intros; simp [State.bookPort_of ‹_›]; done)
    | refine (State.bookRoleOff_fixed _ _ _ _ _ ‹_›).trans ?_
    | refine (foldl_fixed _ (fun _ _ => ?_) _ _).trans ?_
    | refine State.forPorts_fixed _ _ (fun _ _ => ?_)
    | refine State.feedFirst_fixed _ _ (fun _ => ?_))

theorem execFrsSignalEnd_fixed (n : PortId) (s : State) : Goes s (execFrsSignalEnd n s) := by
  unfold execFrsSignalEnd
  split <;> simp [Goes]

theorem execFrSwapWait_fixed (n : PortId) (s : State) : Goes s (execFrSwapWait n s) := by
  unfold execFrSwapWait
  split <;> simp [Goes]

theorem execFrsSignal_fixed (n : PortId) (s : State) : Goes s (execFrsSignal n s) := by
  unfold execFrsSignal
  split <;> simp [Goes]

theorem execFrsNosig_fixed (n : PortId) (s : State) : Goes s (execFrsNosig n s) := by
  unfold execFrsNosig
  split <;> simp [Goes]

theorem execFrsStandbyDetach_fixed (n : PortId) (mv : Nat) (s : State) : Goes s (execFrsStandbyDetach n mv s) := by
  unfold execFrsStandbyDetach
  split <;> simp [Goes]

theorem execBookingRetry_fixed (n : PortId) (s : State) : Goes s (execBookingRetry n s) := by
  unfold execBookingRetry
  repeat' (first
    | (simp [Goes, apply_ite State.fixed, apply_ite Prod.fst]; done)
    | split
    | simp [Goes, apply_ite State.fixed, apply_ite Prod.fst]
    | (intros; exact State.takeMsg_fixed ‹_›)
    | (intros; exact State.bookPort_of ‹_›)
    | refine (State.bookRoleOff_fixed _ _ _ _ _ ‹_›).trans ?_
    | refine (foldl_fixed _ (fun _ _ => ?_) _ _).trans ?_
    | refine State.forPorts_fixed _ _ (fun _ _ => ?_)
    | refine State.feedFirst_fixed _ _ (fun _ => ?_))

theorem execWarnNRelease_fixed (vin : Nat) (sagClear : Bool) (s : State) : Goes s (execWarnNRelease vin sagClear s) := by
  unfold execWarnNRelease
  split <;> simp [Goes]

@[simp] theorem State.pointsLoad_fixed (s : State) : (State.pointsLoad s).fixed = s.fixed := by
  unfold State.pointsLoad
  repeat' (first
    | with_reducible rfl
    | (simp [apply_ite State.fixed, apply_ite Prod.fst]; done)
    | split
    | simp [apply_ite State.fixed, apply_ite Prod.fst]
    | (intros; exact State.takeMsg_fixed ‹_›)
    | (intros; exact State.bookPort_of ‹_›)
    | (intros; simp [State.bookPort_of ‹_›]; done)
    | refine (State.bookRoleOff_fixed _ _ _ _ _ ‹_›).trans ?_
    | refine (foldl_fixed _ (fun _ _ => ?_) _ _).trans ?_
    | refine State.forPorts_fixed _ _ (fun _ _ => ?_)
    | refine State.feedFirst_fixed _ _ (fun _ => ?_))

@[simp] theorem State.vdmSend_fixed (s : State) (n : PortId) (step : AltStep) (c : VdmCmd) (svid : BitVec 16) (arg : Nat) :
    (State.vdmSend s n step c svid arg).fixed = s.fixed := by
  simp [State.vdmSend]

@[simp] theorem State.altIdle_fixed (s : State) (n : PortId) : (State.altIdle s n).fixed = s.fixed := by
  simp [State.altIdle]

@[simp] theorem State.entryDecide_fixed (s : State) (n : PortId) : (State.entryDecide s n).fixed = s.fixed := by
  unfold State.entryDecide
  (repeat' split) <;> simp [apply_ite State.fixed, apply_ite Prod.fst]

@[simp] theorem State.discoveryGo_fixed (s : State) (n : PortId) : (State.discoveryGo s n).fixed = s.fixed := by
  simp [State.discoveryGo]

theorem execDiscoveryStart_fixed (n : PortId) (s : State) : Goes s (execDiscoveryStart n s) := by
  unfold execDiscoveryStart
  (repeat' split) <;> simp [Goes, apply_ite State.fixed, apply_ite Prod.fst]

@[simp] theorem State.enterFailed_fixed (s : State) (n : PortId) : (State.enterFailed s n).fixed = s.fixed := by
  simp [State.enterFailed]

@[simp] theorem State.modeEntered_fixed (s : State) (n : PortId) (m : AltMode) (pin : Fin 4) (step : AltStep) :
    (State.modeEntered s n m pin step).fixed = s.fixed := by
  simp [State.modeEntered]

@[simp] theorem State.modeExit_fixed (s : State) (n : PortId) : (State.modeExit s n).fixed = s.fixed := by
  unfold State.modeExit
  (repeat' split) <;> simp [apply_ite State.fixed, apply_ite Prod.fst]

@[simp] theorem State.altLeave_fixed (s : State) (n : PortId) : (State.altLeave s n).fixed = s.fixed := by
  unfold State.altLeave
  (repeat' split) <;> simp [apply_ite State.fixed, apply_ite Prod.fst]

@[simp] theorem State.altRecheck_fixed (s : State) (n : PortId) : (State.altRecheck s n).fixed = s.fixed := by
  unfold State.altRecheck
  (repeat' split) <;> simp [apply_ite State.fixed, apply_ite Prod.fst]

@[simp] theorem State.hpdSee_fixed (s : State) (n : PortId) (high : Bool) : (State.hpdSee s n high).fixed = s.fixed := by
  unfold State.hpdSee
  (repeat' split) <;> simp [apply_ite State.fixed, apply_ite Prod.fst]

@[simp] theorem State.vdmNone_fixed (s : State) (n : PortId) : (State.vdmNone s n).fixed = s.fixed := by
  unfold State.vdmNone
  split <;> simp

@[simp] theorem State.vdmAnswer_fixed (s : State) (n : PortId) (b : PdBody) : (State.vdmAnswer s n b).fixed = s.fixed := by
  unfold State.vdmAnswer
  (repeat' split) <;> simp [apply_ite State.fixed, apply_ite Prod.fst]

theorem execVdmAck_fixed (n : PortId) (s : State) : Goes s (execVdmAck n s) := by
  unfold execVdmAck
  repeat' (first
    | (simp [Goes, apply_ite State.fixed, apply_ite Prod.fst]; done)
    | split
    | simp [Goes, apply_ite State.fixed, apply_ite Prod.fst]
    | (intros; exact State.takeMsg_fixed ‹_›)
    | (intros; exact State.bookPort_of ‹_›)
    | refine (State.bookRoleOff_fixed _ _ _ _ _ ‹_›).trans ?_
    | refine (foldl_fixed _ (fun _ _ => ?_) _ _).trans ?_
    | refine State.forPorts_fixed _ _ (fun _ _ => ?_)
    | refine State.feedFirst_fixed _ _ (fun _ => ?_))

theorem execVdmTimeout_fixed (n : PortId) (s : State) : Goes s (execVdmTimeout n s) := by
  unfold execVdmTimeout
  split <;> simp [Goes]

@[simp] theorem State.usbAccepted_fixed (s : State) (n : PortId) : (State.usbAccepted s n).fixed = s.fixed := by
  unfold State.usbAccepted
  split <;> simp

theorem execAttention_fixed (n : PortId) (s : State) : Goes s (execAttention n s) := by
  unfold execAttention
  repeat' (first
    | (simp [Goes, apply_ite State.fixed, apply_ite Prod.fst]; done)
    | split
    | simp [Goes, apply_ite State.fixed, apply_ite Prod.fst]
    | (intros; exact State.takeMsg_fixed ‹_›)
    | (intros; exact State.bookPort_of ‹_›)
    | refine (State.bookRoleOff_fixed _ _ _ _ _ ‹_›).trans ?_
    | refine (foldl_fixed _ (fun _ _ => ?_) _ _).trans ?_
    | refine State.forPorts_fixed _ _ (fun _ _ => ?_)
    | refine State.feedFirst_fixed _ _ (fun _ => ?_))

@[simp] theorem State.scriptEnded_fixed (s : State) : (State.scriptEnded s).fixed = s.fixed := by
  unfold State.scriptEnded
  (repeat' split) <;> simp [apply_ite State.fixed, apply_ite Prod.fst]

@[simp] theorem State.scriptNext_fixed (s : State) : (State.scriptNext s).fixed = s.fixed := by
  unfold State.scriptNext
  (repeat' split) <;> simp [apply_ite State.fixed, apply_ite Prod.fst]

@[simp] theorem State.ptsFailed_fixed (s : State) (h : Script) : (State.ptsFailed s h).fixed = s.fixed := by
  unfold State.ptsFailed
  (repeat' split) <;> simp [apply_ite State.fixed, apply_ite Prod.fst]

@[simp] theorem State.attemptFailed_fixed (s : State) : (State.attemptFailed s).fixed = s.fixed := by
  unfold State.attemptFailed
  (repeat' split) <;> simp [apply_ite State.fixed, apply_ite Prod.fst]

theorem execScriptStart_fixed (s : State) : Goes s (execScriptStart s) := by
  unfold execScriptStart
  (repeat' split) <;> simp [Goes, apply_ite State.fixed, apply_ite Prod.fst]

@[simp] theorem State.scriptStopped_fixed (s : State) : (State.scriptStopped s).fixed = s.fixed := by
  unfold State.scriptStopped
  split <;> simp

@[simp] theorem State.scriptWrite_fixed (s : State) (acked : Bool) : (State.scriptWrite s acked).fixed = s.fixed := by
  unfold State.scriptWrite
  (repeat' split) <;> simp [apply_ite State.fixed, apply_ite Prod.fst]

theorem execScriptWrite_fixed (acked : Bool) (s : State) : Goes s (execScriptWrite acked s) := by
  unfold execScriptWrite
  split <;> simp [Goes]

theorem execScriptWriteRetry_fixed (acked : Bool) (s : State) : Goes s (execScriptWriteRetry acked s) := by
  unfold execScriptWriteRetry
  split <;> simp [Goes]

theorem execScriptDelay_fixed (s : State) : Goes s (execScriptDelay s) := by
  unfold execScriptDelay
  (repeat' split) <;> simp [Goes, apply_ite State.fixed, apply_ite Prod.fst]

theorem execArbitrationLoss_fixed (_ownAddress : Bool) (s : State) : Goes s (execArbitrationLoss _ownAddress s) := by
  unfold execArbitrationLoss
  repeat' (first
    | (simp [Goes, apply_ite State.fixed, apply_ite Prod.fst]; done)
    | split
    | simp [Goes, apply_ite State.fixed, apply_ite Prod.fst]
    | (intros; exact State.takeMsg_fixed ‹_›)
    | (intros; exact State.bookPort_of ‹_›)
    | refine (State.bookRoleOff_fixed _ _ _ _ _ ‹_›).trans ?_
    | refine (foldl_fixed _ (fun _ _ => ?_) _ _).trans ?_
    | refine State.forPorts_fixed _ _ (fun _ _ => ?_)
    | refine State.feedFirst_fixed _ _ (fun _ => ?_))

theorem execAuxBusStuck_fixed (sclLow sdaStillLow : Bool) (s : State) : Goes s (execAuxBusStuck sclLow sdaStillLow s) := by
  unfold execAuxBusStuck
  (repeat' split) <;> simp [Goes, apply_ite State.fixed, apply_ite Prod.fst]

end Sys2Proof.Machine
end

