-- ==== Sys2Proof/Laws/Fixed3.lean ====
section
/-! SUPPORT. What an operation leaves alone (part 3 of 4): sealed Varnish, the queue of commands, and the memories that
power-down keeps, by `State.fixed`; and that every command answers a next state. Modules: Pd, Measure, Registers, Store, Image, Supply, Protocol, Transport. -/
namespace Sys2Proof.Machine

@[simp] theorem State.modCtx_fixed (s : State) (n : PortId) (ty : Sop) (f : Context → Context) : (State.modCtx s n ty
    f).fixed = s.fixed := by
  simp [State.modCtx]

@[simp] theorem State.rdySent_fixed (s : State) (n : PortId) : (State.rdySent s n).fixed = s.fixed := by
  simp [State.rdySent]

@[simp] theorem State.vconnSwapDone_fixed (s : State) (n : PortId) : (State.vconnSwapDone s n).fixed = s.fixed := by
  simp [State.vconnSwapDone]

@[simp] theorem State.onSent_fixed (s : State) (n : PortId) (m : OutMsg) : (State.onSent s n m).fixed = s.fixed := by
  unfold State.onSent
  repeat' (first
    | with_reducible rfl
    | (simp [apply_ite State.fixed, apply_ite Prod.fst]; done)
    | split
    | simp [apply_ite State.fixed, apply_ite Prod.fst]
    | (intros; exact State.takeMsg_fixed ‹_›)
    | (intros; exact State.bookPort_of ‹_›)
    | (intros; simp [State.bookPort_of ‹_›]; done)
    | refine (State.bookRoleOff_fixed _ _ _ _ _ ‹_›).trans ?_
    | refine (foldl_fixed _ (fun _ _ => ?_) _ _).trans ?_
    | refine State.forPorts_fixed _ _ (fun _ _ => ?_)
    | refine State.feedFirst_fixed _ _ (fun _ => ?_))

@[simp] theorem State.notSent_fixed (s : State) (n : PortId) (m : OutMsg) (failed : Bool) : (State.notSent s n m
    failed).fixed = s.fixed := by
  unfold State.notSent
  (repeat' split) <;> simp [apply_ite State.fixed, apply_ite Prod.fst]

@[simp] theorem State.txDone_fixed (s : State) (n : PortId) (ty : Sop) (m : OutMsg) (r : Report) : (State.txDone s n ty m
    r).fixed = s.fixed := by
  unfold State.txDone
  (repeat' split) <;> simp [apply_ite State.fixed, apply_ite Prod.fst]

@[simp] theorem State.coreTakes_fixed (s : State) (n : PortId) (m : PdMsg) : (State.coreTakes s n m).fixed = s.fixed := by
  unfold State.coreTakes
  (repeat' split) <;> simp [apply_ite State.fixed, apply_ite Prod.fst]

@[simp] theorem State.deliver_fixed (s : State) (n : PortId) (m : PdMsg) (eng : Bool) : (State.deliver s n m eng).fixed =
    s.fixed := by
  unfold State.deliver
  (repeat' split) <;> simp [apply_ite State.fixed, apply_ite Prod.fst]

@[simp] theorem State.unsample_fixed (s : State) (n : PortId) : (State.unsample s n).fixed = s.fixed := by
  unfold State.unsample
  split <;> simp

@[simp] theorem State.displace_fixed (s : State) (n : PortId) (ty : Sop) : (State.displace s n ty).fixed = s.fixed := by
  unfold State.displace
  repeat' (first
    | with_reducible rfl
    | (simp [apply_ite State.fixed, apply_ite Prod.fst]; done)
    | split
    | simp [apply_ite State.fixed, apply_ite Prod.fst]
    | (intros; exact State.takeMsg_fixed ‹_›)
    | (intros; exact State.bookPort_of ‹_›)
    | (intros; simp [State.bookPort_of ‹_›]; done)
    | refine (State.bookRoleOff_fixed _ _ _ _ _ ‹_›).trans ?_
    | refine (foldl_fixed _ (fun _ _ => ?_) _ _).trans ?_
    | refine State.forPorts_fixed _ _ (fun _ _ => ?_)
    | refine State.feedFirst_fixed _ _ (fun _ => ?_))

@[simp] theorem State.displaceAll_fixed (s : State) (n : PortId) : (State.displaceAll s n).fixed = s.fixed := by
  simp [State.displaceAll]

@[simp] theorem State.chunkAbort_fixed (s : State) (n : PortId) (ty : Sop) : (State.chunkAbort s n ty).fixed = s.fixed := by
  unfold State.chunkAbort
  repeat' (first
    | with_reducible rfl
    | (simp [apply_ite State.fixed, apply_ite Prod.fst]; done)
    | split
    | simp [apply_ite State.fixed, apply_ite Prod.fst]
    | (intros; exact State.takeMsg_fixed ‹_›)
    | (intros; exact State.bookPort_of ‹_›)
    | (intros; simp [State.bookPort_of ‹_›]; done)
    | refine (State.bookRoleOff_fixed _ _ _ _ _ ‹_›).trans ?_
    | refine (foldl_fixed _ (fun _ _ => ?_) _ _).trans ?_
    | refine State.forPorts_fixed _ _ (fun _ _ => ?_)
    | refine State.feedFirst_fixed _ _ (fun _ => ?_))

@[simp] theorem State.ack_fixed (s : State) (n : PortId) (ty : Sop) (id : BitVec 3) : (State.ack s n ty id).fixed = s.fixed
    := by
  simp [State.ack]

@[simp] theorem State.seen_fixed (s : State) (n : PortId) (m : PdMsg) : (State.seen s n m).fixed = s.fixed := by
  simp [State.seen]

@[simp] theorem State.chunkIn_fixed (s : State) (n : PortId) (m : PdMsg) (k : Nat) (last eng : Bool) : (State.chunkIn s n m
    k last eng).fixed = s.fixed := by
  unfold State.chunkIn
  split <;> simp

theorem execPdMessage_fixed (n : PortId) (m : PdMsg) (s : State) : Goes s (execPdMessage n m s) := by
  unfold execPdMessage
  (repeat' split) <;> simp [Goes, apply_ite State.fixed, apply_ite Prod.fst]

theorem execTransmitRequest_fixed (n : PortId) (s : State) : Goes s (execTransmitRequest n s) := by
  unfold execTransmitRequest
  repeat' (first
    | (simp [Goes, apply_ite State.fixed, apply_ite Prod.fst]; done)
    | split
    | simp [Goes, apply_ite State.fixed, apply_ite Prod.fst]
    | (intros; exact State.takeMsg_fixed ‹_›)
    | (intros; exact State.bookPort_of ‹_›)
    | refine (State.bookRoleOff_fixed _ _ _ _ _ ‹_›).trans ?_
    | refine (foldl_fixed _ (fun _ _ => ?_) _ _).trans ?_
    | refine State.forPorts_fixed _ _ (fun _ _ => ?_)
    | refine State.feedFirst_fixed _ _ (fun _ => ?_))

@[simp] theorem State.txGo_fixed (s : State) (n : PortId) (m : OutMsg) : (State.txGo s n m).fixed = s.fixed := by
  unfold State.txGo
  (repeat' split) <;> simp [apply_ite State.fixed, apply_ite Prod.fst]

theorem execLineIdle_fixed (n : PortId) (s : State) : Goes s (execLineIdle n s) := by
  unfold execLineIdle
  (repeat' split) <;> simp [Goes, apply_ite State.fixed, apply_ite Prod.fst]

theorem execTsinktx_fixed (n : PortId) (s : State) : Goes s (execTsinktx n s) := by
  unfold execTsinktx
  repeat' (first
    | (simp [Goes, apply_ite State.fixed, apply_ite Prod.fst]; done)
    | split
    | simp [Goes, apply_ite State.fixed, apply_ite Prod.fst]
    | (intros; exact State.takeMsg_fixed ‹_›)
    | (intros; exact State.bookPort_of ‹_›)
    | refine (State.bookRoleOff_fixed _ _ _ _ _ ‹_›).trans ?_
    | refine (foldl_fixed _ (fun _ _ => ?_) _ _).trans ?_
    | refine State.forPorts_fixed _ _ (fun _ _ => ?_)
    | refine State.feedFirst_fixed _ _ (fun _ => ?_))

theorem execSinktxokSample_fixed (n : PortId) (mv : Nat) (s : State) : Goes s (execSinktxokSample n mv s) := by
  unfold execSinktxokSample
  repeat' (first
    | (simp [Goes, apply_ite State.fixed, apply_ite Prod.fst]; done)
    | split
    | simp [Goes, apply_ite State.fixed, apply_ite Prod.fst]
    | (intros; exact State.takeMsg_fixed ‹_›)
    | (intros; exact State.bookPort_of ‹_›)
    | refine (State.bookRoleOff_fixed _ _ _ _ _ ‹_›).trans ?_
    | refine (foldl_fixed _ (fun _ _ => ?_) _ _).trans ?_
    | refine State.forPorts_fixed _ _ (fun _ _ => ?_)
    | refine State.feedFirst_fixed _ _ (fun _ => ?_))

theorem execSinktxDiscard_fixed (n : PortId) (s : State) : Goes s (execSinktxDiscard n s) := by
  unfold execSinktxDiscard
  (repeat' split) <;> simp [Goes, apply_ite State.fixed, apply_ite Prod.fst]

@[simp] theorem State.txEnd_fixed (s : State) (n : PortId) (ty : Sop) (m : OutMsg) (r : Report) : (State.txEnd s n ty m
    r).fixed = s.fixed := by
  unfold State.txEnd
  split <;> simp

theorem execGoodcrc_fixed (n : PortId) (ty : Sop) (id : BitVec 3) (s : State) : Goes s (execGoodcrc n ty id s) := by
  unfold execGoodcrc
  repeat' (first
    | (simp [Goes, apply_ite State.fixed, apply_ite Prod.fst]; done)
    | split
    | simp [Goes, apply_ite State.fixed, apply_ite Prod.fst]
    | (intros; exact State.takeMsg_fixed ‹_›)
    | (intros; exact State.bookPort_of ‹_›)
    | refine (State.bookRoleOff_fixed _ _ _ _ _ ‹_›).trans ?_
    | refine (foldl_fixed _ (fun _ _ => ?_) _ _).trans ?_
    | refine State.forPorts_fixed _ _ (fun _ _ => ?_)
    | refine State.feedFirst_fixed _ _ (fun _ => ?_))

theorem execTreceive_fixed (n : PortId) (ty : Sop) (s : State) : Goes s (execTreceive n ty s) := by
  unfold execTreceive
  repeat' (first
    | (simp [Goes, apply_ite State.fixed, apply_ite Prod.fst]; done)
    | split
    | simp [Goes, apply_ite State.fixed, apply_ite Prod.fst]
    | (intros; exact State.takeMsg_fixed ‹_›)
    | (intros; exact State.bookPort_of ‹_›)
    | refine (State.bookRoleOff_fixed _ _ _ _ _ ‹_›).trans ?_
    | refine (foldl_fixed _ (fun _ _ => ?_) _ _).trans ?_
    | refine State.forPorts_fixed _ _ (fun _ _ => ?_)
    | refine State.feedFirst_fixed _ _ (fun _ => ?_))

theorem execChunkRequest_fixed (n : PortId) (ty : Sop) (k : ChunkAsk) (s : State) : Goes s (execChunkRequest n ty k s) := by
  unfold execChunkRequest
  (repeat' split) <;> simp [Goes, apply_ite State.fixed, apply_ite Prod.fst]

theorem execChunkTimer_fixed (n : PortId) (ty : Sop) (s : State) : Goes s (execChunkTimer n ty s) := by
  unfold execChunkTimer
  split <;> simp [Goes]

theorem execHardResetSend_fixed (n : PortId) (s : State) : Goes s (execHardResetSend n s) := by
  unfold execHardResetSend
  split <;> simp [Goes]

theorem execHardResetReceived_fixed (n : PortId) (s : State) : Goes s (execHardResetReceived n s) := by
  unfold execHardResetReceived
  split <;> simp [Goes]

@[simp] theorem State.atSafe0v_fixed (s : State) (n : PortId) : (State.atSafe0v s n).fixed = s.fixed := by
  unfold State.atSafe0v
  split <;> simp

theorem execTpshardreset_fixed (n : PortId) (s : State) : Goes s (execTpshardreset n s) := by
  unfold execTpshardreset
  (repeat' split) <;> simp [Goes, apply_ite State.fixed, apply_ite Prod.fst]

@[simp] theorem State.hrStep4_fixed (s : State) (n : PortId) : (State.hrStep4 s n).fixed = s.fixed := by
  unfold State.hrStep4
  split <;> simp

theorem execTsrcrecover_fixed (n : PortId) (s : State) : Goes s (execTsrcrecover n s) := by
  unfold execTsrcrecover
  split <;> simp [Goes]

theorem execSinkVbusWait_fixed (n : PortId) (s : State) : Goes s (execSinkVbusWait n s) := by
  unfold execSinkVbusWait
  split <;> simp [Goes]

theorem execVbusPresent_fixed (n : PortId) (mv : Nat) (s : State) : Goes s (execVbusPresent n mv s) := by
  unfold execVbusPresent
  repeat' (first
    | (simp [Goes, apply_ite State.fixed, apply_ite Prod.fst]; done)
    | split
    | simp [Goes, apply_ite State.fixed, apply_ite Prod.fst]
    | (intros; exact State.takeMsg_fixed ‹_›)
    | (intros; exact State.bookPort_of ‹_›)
    | refine (State.bookRoleOff_fixed _ _ _ _ _ ‹_›).trans ?_
    | refine (foldl_fixed _ (fun _ _ => ?_) _ _).trans ?_
    | refine State.forPorts_fixed _ _ (fun _ _ => ?_)
    | refine State.feedFirst_fixed _ _ (fun _ => ?_))

theorem execTnoresponse_fixed (n : PortId) (s : State) : Goes s (execTnoresponse n s) := by
  unfold execTnoresponse
  (repeat' split) <;> simp [Goes, apply_ite State.fixed, apply_ite Prod.fst]

theorem execDischargeEnd_fixed (n : PortId) (mv : Nat) (s : State) : Goes s (execDischargeEnd n mv s) := by
  unfold execDischargeEnd
  (repeat' split) <;> simp [Goes, apply_ite State.fixed, apply_ite Prod.fst]

theorem execCableReset_fixed (n : PortId) (s : State) : Goes s (execCableReset n s) := by
  unfold execCableReset
  split <;> simp [Goes]

theorem execCableResetReceived_fixed (_n : PortId) (s : State) : Goes s (execCableResetReceived _n s) := by
  simp [execCableResetReceived, Goes]

@[simp] theorem State.softCore_fixed (s : State) (n : PortId) : (State.softCore s n).fixed = s.fixed := by
  unfold State.softCore
  (repeat' split) <;> simp [apply_ite State.fixed, apply_ite Prod.fst]

theorem execSoftReset_fixed (n : PortId) (s : State) : Goes s (execSoftReset n s) := by
  unfold execSoftReset
  split
  · exact ⟨_, rfl, rfl⟩
  · rename_i m e u h
    refine ⟨_, rfl, ?_⟩
    rw [← State.takeMsg_fixed h]
    dsimp only
    repeat' split
    all_goals simp only [State.softCore_fixed, State.sendMsg_fixed, State.modPd_fixed, State.amsEnd_fixed, State.modCt_fixed,
      State.planAbort_fixed, State.modCtx_fixed]

theorem execEprKeepalive_fixed (n : PortId) (s : State) : Goes s (execEprKeepalive n s) := by
  unfold execEprKeepalive
  repeat' (first
    | (simp [Goes, apply_ite State.fixed, apply_ite Prod.fst]; done)
    | split
    | simp [Goes, apply_ite State.fixed, apply_ite Prod.fst]
    | (intros; exact State.takeMsg_fixed ‹_›)
    | (intros; exact State.bookPort_of ‹_›)
    | refine (State.bookRoleOff_fixed _ _ _ _ _ ‹_›).trans ?_
    | refine (foldl_fixed _ (fun _ _ => ?_) _ _).trans ?_
    | refine State.forPorts_fixed _ _ (fun _ _ => ?_)
    | refine State.feedFirst_fixed _ _ (fun _ => ?_))

theorem execEprKeepaliveSend_fixed (n : PortId) (s : State) : Goes s (execEprKeepaliveSend n s) := by
  unfold execEprKeepaliveSend
  split <;> simp [Goes]

theorem execNotSupportedRequest_fixed (n : PortId) (s : State) : Goes s (execNotSupportedRequest n s) := by
  unfold execNotSupportedRequest
  repeat' (first
    | (simp [Goes, apply_ite State.fixed, apply_ite Prod.fst]; done)
    | split
    | simp [Goes, apply_ite State.fixed, apply_ite Prod.fst]
    | (intros; exact State.takeMsg_fixed ‹_›)
    | (intros; exact State.bookPort_of ‹_›)
    | refine (State.bookRoleOff_fixed _ _ _ _ _ ‹_›).trans ?_
    | refine (foldl_fixed _ (fun _ _ => ?_) _ _).trans ?_
    | refine State.forPorts_fixed _ _ (fun _ _ => ?_)
    | refine State.feedFirst_fixed _ _ (fun _ => ?_))

@[simp] theorem State.capsAnswer_fixed (s : State) (n : PortId) (b : PdBody) : (State.capsAnswer s n b).fixed = s.fixed := by
  unfold State.capsAnswer
  (repeat' split) <;> simp [apply_ite State.fixed, apply_ite Prod.fst]

theorem execGetCapabilities_fixed (n : PortId) (s : State) : Goes s (execGetCapabilities n s) := by
  unfold execGetCapabilities
  repeat' (first
    | (simp [Goes, apply_ite State.fixed, apply_ite Prod.fst]; done)
    | split
    | simp [Goes, apply_ite State.fixed, apply_ite Prod.fst]
    | (intros; exact State.takeMsg_fixed ‹_›)
    | (intros; exact State.bookPort_of ‹_›)
    | refine (State.bookRoleOff_fixed _ _ _ _ _ ‹_›).trans ?_
    | refine (foldl_fixed _ (fun _ _ => ?_) _ _).trans ?_
    | refine State.forPorts_fixed _ _ (fun _ _ => ?_)
    | refine State.feedFirst_fixed _ _ (fun _ => ?_))

theorem execGetSinkCapSend_fixed (n : PortId) (s : State) : Goes s (execGetSinkCapSend n s) := by
  unfold execGetSinkCapSend
  (repeat' split) <;> simp [Goes, apply_ite State.fixed, apply_ite Prod.fst]

theorem execDiscoverIdentityUfp_fixed (n : PortId) (s : State) : Goes s (execDiscoverIdentityUfp n s) := by
  unfold execDiscoverIdentityUfp
  repeat' (first
    | (simp [Goes, apply_ite State.fixed, apply_ite Prod.fst]; done)
    | split
    | simp [Goes, apply_ite State.fixed, apply_ite Prod.fst]
    | (intros; exact State.takeMsg_fixed ‹_›)
    | (intros; exact State.bookPort_of ‹_›)
    | refine (State.bookRoleOff_fixed _ _ _ _ _ ‹_›).trans ?_
    | refine (foldl_fixed _ (fun _ _ => ?_) _ _).trans ?_
    | refine State.forPorts_fixed _ _ (fun _ _ => ?_)
    | refine State.feedFirst_fixed _ _ (fun _ => ?_))

theorem execDiscoverIdentityCable_fixed (n : PortId) (s : State) : Goes s (execDiscoverIdentityCable n s) := by
  unfold execDiscoverIdentityCable
  (repeat' split) <;> simp [Goes, apply_ite State.fixed, apply_ite Prod.fst]

@[simp] theorem State.noIdentity_fixed (s : State) (n : PortId) : (State.noIdentity s n).fixed = s.fixed := by
  unfold State.noIdentity
  (repeat' split) <;> simp [apply_ite State.fixed, apply_ite Prod.fst]

theorem execAccept_fixed (n : PortId) (s : State) : Goes s (execAccept n s) := by
  unfold execAccept
  repeat' (first
    | (simp [Goes, apply_ite State.fixed, apply_ite Prod.fst]; done)
    | split
    | simp [Goes, apply_ite State.fixed, apply_ite Prod.fst]
    | (intros; exact State.takeMsg_fixed ‹_›)
    | (intros; exact State.bookPort_of ‹_›)
    | refine (State.bookRoleOff_fixed _ _ _ _ _ ‹_›).trans ?_
    | refine (foldl_fixed _ (fun _ _ => ?_) _ _).trans ?_
    | refine State.forPorts_fixed _ _ (fun _ _ => ?_)
    | refine State.feedFirst_fixed _ _ (fun _ => ?_))

theorem execSwapAnswer_fixed (n : PortId) (s : State) : Goes s (execSwapAnswer n s) := by
  unfold execSwapAnswer
  repeat' (first
    | (simp [Goes, apply_ite State.fixed, apply_ite Prod.fst]; done)
    | split
    | simp [Goes, apply_ite State.fixed, apply_ite Prod.fst]
    | (intros; exact State.takeMsg_fixed ‹_›)
    | (intros; exact State.bookPort_of ‹_›)
    | refine (State.bookRoleOff_fixed _ _ _ _ _ ‹_›).trans ?_
    | refine (foldl_fixed _ (fun _ _ => ?_) _ _).trans ?_
    | refine State.forPorts_fixed _ _ (fun _ _ => ?_)
    | refine State.feedFirst_fixed _ _ (fun _ => ?_))

theorem execPolicyTimer_fixed (n : PortId) (t : PolicyTimer) (s : State) : Goes s (execPolicyTimer n t s) := by
  unfold execPolicyTimer
  repeat' (first
    | (simp [Goes, apply_ite State.fixed, apply_ite Prod.fst]; done)
    | split
    | simp [Goes, apply_ite State.fixed, apply_ite Prod.fst]
    | (intros; exact State.takeMsg_fixed ‹_›)
    | (intros; exact State.bookPort_of ‹_›)
    | refine (State.bookRoleOff_fixed _ _ _ _ _ ‹_›).trans ?_
    | refine (foldl_fixed _ (fun _ _ => ?_) _ _).trans ?_
    | refine State.forPorts_fixed _ _ (fun _ _ => ?_)
    | refine State.feedFirst_fixed _ _ (fun _ => ?_))

@[simp] theorem State.queueTrace_fixed (s : State) (n : PortId) (f : TrFrame) : (State.queueTrace s n f).fixed = s.fixed :=
    by
  unfold State.queueTrace
  (repeat' split) <;> simp [apply_ite State.fixed, apply_ite Prod.fst]

@[simp] theorem State.flushTrace_fixed (n : PortId) (k : Nat) (s : State) : (State.flushTrace n k s).fixed = s.fixed := by
  induction k generalizing s with
  | zero => rfl
  | succ k ih =>
    unfold State.flushTrace
    repeat' (first | (simp [ih]; done) | split)
@[simp] theorem State.traceCut_fixed (s : State) (n : PortId) : (s.traceCut n).fixed = s.fixed := by
  unfold State.traceCut
  repeat' (first
    | with_reducible rfl
    | (simp [apply_ite State.fixed, apply_ite Prod.fst]; done)
    | split
    | simp [apply_ite State.fixed, apply_ite Prod.fst]
    | (intros; exact State.takeMsg_fixed ‹_›)
    | (intros; exact State.bookPort_of ‹_›)
    | (intros; simp [State.bookPort_of ‹_›]; done)
    | refine (State.bookRoleOff_fixed _ _ _ _ _ ‹_›).trans ?_
    | refine (foldl_fixed _ (fun _ _ => ?_) _ _).trans ?_
    | refine State.forPorts_fixed _ _ (fun _ _ => ?_)
    | refine State.feedFirst_fixed _ _ (fun _ => ?_))

theorem execFrameAssembly_fixed (n : PortId) (s : State) : Goes s (execFrameAssembly n s) := by
  simp [execFrameAssembly, Goes]

@[simp] theorem State.hsMeas_fixed (s : State) (vin vsns : BitVec 16) : (State.hsMeas s vin vsns).fixed = s.fixed := by
  unfold State.hsMeas
  (repeat' split) <;> simp [apply_ite State.fixed, apply_ite Prod.fst]

@[simp] theorem State.keepFirst_fixed (s : State) : (State.keepFirst s).fixed = s.fixed := by
  unfold State.keepFirst
  split <;> simp

theorem execSampleInstant_fixed (samples : Vector PortSample 24) (vin vsns : BitVec 16) (s : State) : Goes s
    (execSampleInstant samples vin vsns s) := by
  unfold execSampleInstant
  split <;> simp [Goes]

theorem execSketchComplete_fixed (k : PlatId) (slot : Fin 8) (s : State) : Goes s (execSketchComplete k slot s) := by
  simp [execSketchComplete, Goes]

theorem execHousekeepingScan_fixed (hk : HkScan) (s : State) : Goes s (execHousekeepingScan hk s) := by
  unfold execHousekeepingScan
  split <;> simp [Goes]

@[simp] theorem State.snapshot_fixed (s : State) : (State.snapshot s).fixed = s.fixed := by
  simp [State.snapshot]

theorem execEnSnap_fixed (core : CoreId) (s : State) : Goes s (execEnSnap core s) := by
  unfold execEnSnap
  split <;> simp [Goes]

@[simp] theorem State.energyReport_fixed (s : State) : (State.energyReport s).fixed = s.fixed := by
  unfold State.energyReport
  split <;> simp

@[simp] theorem State.drpMatch_fixed (s : State) (n : PortId) : (State.drpMatch s n).fixed = s.fixed := by
  unfold State.drpMatch
  (repeat' split) <;> simp [apply_ite State.fixed, apply_ite Prod.fst]

@[simp] theorem State.portMatch_fixed (s : State) (n : PortId) (j : Nat) : (State.portMatch s n j).fixed = s.fixed := by
  unfold State.portMatch
  split <;> simp

theorem execChannelMatch_fixed (ch : Fin 128) (s : State) : Goes s (execChannelMatch ch s) := by
  unfold execChannelMatch
  (repeat' split) <;> simp [Goes, apply_ite State.fixed, apply_ite Prod.fst]

@[simp] theorem State.epochApply_fixed (s : State) : (State.epochApply s).fixed = s.fixed := by
  unfold State.epochApply
  split <;> simp

@[simp] theorem State.trTake_fixed (s : State) (n : PortId) (w : Word) : (State.trTake s n w).fixed = s.fixed := by
  unfold State.trTake
  split <;> simp

@[simp] theorem State.withRun_fixed (s : State) (m : Mem) : (State.withRun s m).fixed = s.fixed := by
  simp [State.withRun]

theorem execSuperframeStart_fixed (s : State) : Goes s (execSuperframeStart s) := by
  unfold execSuperframeStart
  split
  · have e := State.applyTtCfg_fixed s.epochApply s.sfTakes.2.1 s.sfTakes.2.2
    rw [State.epochApply_fixed] at e
    simp [Goes, e]
  · exact ⟨_, rfl, rfl⟩

theorem execLinkUp_fixed (s : State) : Goes s (execLinkUp s) := by
  unfold execLinkUp
  split <;> simp [Goes]

@[simp] theorem State.laneLost_fixed (s : State) : (State.laneLost s).fixed = s.fixed := by
  unfold State.laneLost
  repeat' (first
    | with_reducible rfl
    | (simp [apply_ite State.fixed, apply_ite Prod.fst]; done)
    | split
    | simp [apply_ite State.fixed, apply_ite Prod.fst]
    | (intros; exact State.takeMsg_fixed ‹_›)
    | (intros; exact State.bookPort_of ‹_›)
    | (intros; simp [State.bookPort_of ‹_›]; done)
    | refine (State.bookRoleOff_fixed _ _ _ _ _ ‹_›).trans ?_
    | refine (foldl_fixed _ (fun _ _ => ?_) _ _).trans ?_
    | refine State.forPorts_fixed _ _ (fun _ _ => ?_)
    | refine State.feedFirst_fixed _ _ (fun _ => ?_))

theorem execLinkDown_fixed (s : State) : Goes s (execLinkDown s) := by
  simp [execLinkDown, Goes]

theorem execArpRequest_fixed (senderMac : BitVec 48) (senderIp targetIp : BitVec 32) (s : State) : Goes s (execArpRequest
    senderMac senderIp targetIp s) := by
  unfold execArpRequest
  split <;> simp [Goes]

theorem execFrameDiscard_fixed (_f : NetFrame) (s : State) : Goes s (execFrameDiscard _f s) := by
  simp [execFrameDiscard, Goes]

@[simp] theorem State.w1cRails_fixed (s : State) (a : Bool) (v : Word) : (State.w1cRails s a v).fixed = s.fixed := by
  simp [State.w1cRails]

@[simp] theorem State.w1c_fixed (s : State) (o : Obj) (rid : Nat) (v : Word) : (State.w1c s o rid v).fixed = s.fixed := by
  unfold State.w1c
  (repeat' split) <;> simp [apply_ite State.fixed, apply_ite Prod.fst]

@[simp] theorem State.twTake_fixed (s : State) (i : Fin 3) : (State.twTake s i).fixed = s.fixed := by
  simp [State.twTake]

@[simp] theorem State.twTakeOne_fixed (s : State) (i : Fin 3) : (State.twTakeOne s i).fixed = s.fixed := by
  unfold State.twTakeOne
  split <;> simp

@[simp] theorem State.twTakeFree_fixed (s : State) : (State.twTakeFree s).fixed = s.fixed := by
  simp [State.twTakeFree]

@[simp] theorem State.cportTake_fixed (s : State) : (State.cportTake s).fixed = s.fixed := by
  unfold State.cportTake
  (repeat' split) <;> simp [apply_ite State.fixed, apply_ite Prod.fst]

@[simp] theorem State.calPeriodSet_fixed (s : State) (n : PortId) : (State.calPeriodSet s n).fixed = s.fixed := by
  simp [State.calPeriodSet]

@[simp] theorem State.cfgApply_fixed (s old : State) (by' : Option HostPort) : (State.cfgApply s old by').fixed = s.fixed :=
    by
  unfold State.cfgApply
  (repeat' split) <;> simp [apply_ite State.fixed, apply_ite Prod.fst]

@[simp] theorem State.commitDone_fixed (s : State) : (State.commitDone s).fixed = s.fixed := by
  unfold State.commitDone
  split <;> simp

@[simp] theorem State.commitEnd_fixed (s : State) (ok : Bool) : (State.commitEnd s ok).fixed = s.fixed := by
  unfold State.commitEnd
  (repeat' split) <;> simp [apply_ite State.fixed, apply_ite Prod.fst]

@[simp] theorem State.commitFound_fixed (s : State) : (State.commitFound s).fixed = s.fixed := by
  unfold State.commitFound
  split <;> simp

@[simp] theorem State.opFails_fixed (s : State) (r : PageReq) : (State.opFails s r).fixed = s.fixed := by
  unfold State.opFails
  (repeat' split) <;> simp [apply_ite State.fixed, apply_ite Prod.fst]

@[simp] theorem State.saveNext_fixed (s : State) : (State.saveNext s).fixed = s.fixed := by
  unfold State.saveNext
  (repeat' split) <;> simp [apply_ite State.fixed, apply_ite Prod.fst]

@[simp] theorem State.wearCheck_fixed (s : State) : (State.wearCheck s).fixed = s.fixed := by
  unfold State.wearCheck
  (repeat' split) <;> simp [apply_ite State.fixed, apply_ite Prod.fst]

@[simp] theorem State.opDone_fixed (s : State) (r : PageReq) : (State.opDone s r).fixed = s.fixed := by
  unfold State.opDone
  (repeat' split) <;> simp [apply_ite State.fixed, apply_ite Prod.fst]

theorem execStoreProgramStart_fixed (vhold : Nat) (s : State) : Goes s (execStoreProgramStart vhold s) := by
  unfold execStoreProgramStart
  refine ⟨_, rfl, ?_⟩
  split
  · split
    · dsimp only
      split
      · exact State.storeKeep_fixed s _ rfl
      · split
        · exact State.storeKeep_fixed s _ (by simp [Store.saveEnd])
        · exact (State.opFails_fixed ..).trans (State.storeKeep_fixed s _ rfl)
    · rfl
  · rfl

theorem execProgramAbandon_fixed (s : State) : Goes s (execProgramAbandon s) := by
  unfold execProgramAbandon
  split <;> simp [Goes]

theorem execUncorrectableRecall_fixed (s : State) : Goes s (execUncorrectableRecall s) := by
  unfold execUncorrectableRecall
  (repeat' split) <;> simp [Goes, apply_ite State.fixed, apply_ite Prod.fst]

@[simp] theorem State.coldRecall_fixed (s : State) : s.coldRecall.fixed = s.fixed := by
  unfold State.coldRecall
  dsimp only
  split
  · exact (State.recallEvent_fixed _ _ _ _).trans (State.storeKeep_fixed s _ rfl)
  · split
    · exact ((State.startCommit_fixed ..).trans (State.recallEvent_fixed ..)).trans (State.storeKeep_fixed s _ rfl)
    · split
      · exact ((State.logAdd_fixed ..).trans (State.recallEvent_fixed ..)).trans (State.storeKeep_fixed s _ rfl)
      · exact (State.recallEvent_fixed _ _ _ _).trans (State.storeKeep_fixed s _ rfl)

@[simp] theorem State.loadCounters_fixed (s : State) : (State.loadCounters s).fixed = s.fixed := by
  unfold State.loadCounters
  split <;> simp

@[simp] theorem State.logResume_fixed (s : State) : (State.logResume s).fixed = s.fixed := by
  unfold State.logResume
  split <;> simp

@[simp] theorem State.scrubStart_fixed (s : State) (cmd : Option CmdRef) : (State.scrubStart s cmd).fixed = s.fixed := by
  simp [State.scrubStart]

@[simp] theorem State.scrubEnd_fixed (s : State) (c u : Nat) (cmd : Option CmdRef) : (State.scrubEnd s c u cmd).fixed =
    s.fixed := by
  unfold State.scrubEnd
  (repeat' split) <;> simp [apply_ite State.fixed, apply_ite Prod.fst]

theorem execScrubDue_fixed (s : State) : Goes s (execScrubDue s) := by
  unfold execScrubDue
  split <;> simp [Goes]

@[simp] theorem State.badPage_fixed (s : State) (page : Nat) (gs : List (Fin 33)) : (State.badPage s page gs).fixed =
    s.fixed := by
  unfold State.badPage
  (repeat' split) <;> simp [apply_ite State.fixed, apply_ite Prod.fst]

theorem execScrubPage_fixed (corrected uncorrectable : List (Fin 33)) (s : State) : Goes s (execScrubPage corrected
    uncorrectable s) := by
  unfold execScrubPage
  (repeat' split) <;> simp [Goes, apply_ite State.fixed, apply_ite Prod.fst]

theorem execHourlySave_fixed (s : State) : Goes s (execHourlySave s) := by
  unfold execHourlySave
  split <;> simp [Goes]

theorem execSsnSave_fixed (s : State) : Goes s (execSsnSave s) := by
  unfold execSsnSave
  split <;> simp [Goes]

@[simp] theorem State.kernelEvent_fixed (s : State) (c : CoreId) : (State.kernelEvent s c).fixed = s.fixed := by
  simp [State.kernelEvent]

@[simp] theorem State.coreStop_fixed (s : State) (c : CoreId) : (State.coreStop s c).fixed = s.fixed := by
  unfold State.coreStop
  (repeat' split) <;> simp [apply_ite State.fixed, apply_ite Prod.fst]

theorem execVerifyDone_fixed (s : State) : Goes s (execVerifyDone s) := by
  unfold execVerifyDone
  split <;> simp [Goes]

theorem execRollbackAdvanceDone_fixed (s : State) : Goes s (execRollbackAdvanceDone s) := by
  unfold execRollbackAdvanceDone
  split <;> simp [Goes]

@[simp] theorem State.undetAt_fixed (s : State) (rail : Nat) (x : Schmitt) : (State.undetAt s rail x).fixed = s.fixed := by
  unfold State.undetAt
  split <;> simp

@[simp] theorem State.firstSample_fixed (s : State) (pg : Vector Schmitt 12) (cin reti faultN : Schmitt) :
    (State.firstSample s pg cin reti faultN).fixed = s.fixed := by
  simp [State.firstSample]

theorem execPreRegulatorStart_fixed (uncorr marginUncorr differ : Bool) (pg : Vector Schmitt 12) (cin reti faultN : Schmitt)
    (s : State) : Goes s (execPreRegulatorStart uncorr marginUncorr differ pg cin reti faultN s) := by
  unfold execPreRegulatorStart
  split <;> simp [Goes]

theorem execPreRegulatorReset_fixed (s : State) : Goes s (execPreRegulatorReset s) := by
  simp [execPreRegulatorReset, Goes]

theorem execHvSupplyLoss_fixed (s : State) : Goes s (execHvSupplyLoss s) := by
  simp [execHvSupplyLoss, Goes]

theorem execVcpReady_fixed (mv : Nat) (s : State) : Goes s (execVcpReady mv s) := by
  unfold execVcpReady
  (repeat' split) <;> simp [Goes, apply_ite State.fixed, apply_ite Prod.fst]

@[simp] theorem State.vcpOpen_fixed (s : State) (n : PortId) : (State.vcpOpen s n).fixed = s.fixed := by
  unfold State.vcpOpen
  (repeat' split) <;> simp [apply_ite State.fixed, apply_ite Prod.fst]

theorem execVcpFault_fixed (mv : Nat) (s : State) : Goes s (execVcpFault mv s) := by
  unfold execVcpFault
  (repeat' split) <;> simp [Goes, apply_ite State.fixed, apply_ite Prod.fst]

@[simp] theorem State.forget_fixed (s : State) (p : CmdRef → Bool) : (State.forget s p).fixed = s.fixed := by
  simp [State.forget]

@[simp] theorem State.answerHeld_fixed (s : State) (p : Held → Bool) : (State.answerHeld s p).fixed = s.fixed := by
  unfold State.answerHeld
  (repeat' split) <;> simp [apply_ite State.fixed, apply_ite Prod.fst]

@[simp] theorem State.coresDown_fixed (s : State) : (State.coresDown s).fixed = s.fixed := by
  simp [State.coresDown]

@[simp] theorem State.holdEnter_fixed (s : State) (ks : PlatId → Bool) : (State.holdEnter s ks).fixed = s.fixed := by
  unfold State.holdEnter
  (repeat' split) <;> simp [apply_ite State.fixed, apply_ite Prod.fst]

@[simp] theorem State.primerStart_fixed (s : State) (warm : Bool) (named : Option Bank) : (State.primerStart s warm
    named).fixed = s.fixed := by
  simp [State.primerStart]

@[simp] theorem State.frontEnds_fixed (s : State) : (State.frontEnds s).fixed = s.fixed := by
  simp [State.frontEnds]

theorem execLogicDieRelease_fixed (vdd33 vdd09 vddnt : Nat) (resetN : Bool) (s : State) : Goes s (execLogicDieRelease vdd33
    vdd09 vddnt resetN s) := by
  unfold execLogicDieRelease
  split <;> simp [Goes]

@[simp] theorem State.logicReset_fixed (s : State) : (State.logicReset s).fixed = s.fixed := by
  simp [State.logicReset]

theorem execLogicSupplyReset_fixed (which : Supply) (mv : Nat) (s : State) : Goes s (execLogicSupplyReset which mv s) := by
  unfold execLogicSupplyReset
  split <;> simp [Goes]

@[simp] theorem State.resetPin_fixed (s : State) : (State.resetPin s).fixed = s.fixed := by
  simp [State.resetPin]

theorem execResetN_fixed (lowNs : Nat) (s : State) : Goes s (execResetN lowNs s) := by
  unfold execResetN
  (repeat' split) <;> simp [Goes, apply_ite State.fixed, apply_ite Prod.fst]

@[simp] theorem State.restartAll_fixed (s : State) (named : Option Bank) : (State.restartAll s named).fixed = s.fixed := by
  simp [State.restartAll]

@[simp] theorem State.sbDog_fixed (s : State) : (State.sbDog s).fixed = s.fixed := by
  unfold State.sbDog
  split <;> simp

theorem execSbWatchdog_fixed (s : State) : Goes s (execSbWatchdog s) := by
  simp [execSbWatchdog, Goes]

@[simp] theorem State.platDog_fixed (s : State) (k : PlatId) : (State.platDog s k).fixed = s.fixed := by
  unfold State.platDog
  (repeat' split) <;> simp [apply_ite State.fixed, apply_ite Prod.fst]

theorem execPlatformWatchdog_fixed (k : PlatId) (s : State) : Goes s (execPlatformWatchdog k s) := by
  simp [execPlatformWatchdog, Goes]

theorem execRestartBegin_fixed (s : State) : Goes s (execRestartBegin s) := by
  unfold execRestartBegin
  (repeat' split) <;> simp [Goes, apply_ite State.fixed, apply_ite Prod.fst]

theorem execRestartAbandoned_fixed (s : State) : Goes s (execRestartAbandoned s) := by
  unfold execRestartAbandoned
  split <;> simp [Goes]

theorem execLinkSilence_fixed (s : State) : Goes s (execLinkSilence s) := by
  unfold execLinkSilence
  split <;> simp [Goes]

@[simp] theorem State.heldCopy_fixed (s : State) (k : PlatId) : (State.heldCopy s k).fixed = s.fixed := by
  unfold State.heldCopy
  split <;> simp

@[simp] theorem State.detachRun_fixed (s : State) (n : PortId) : (State.detachRun s n).fixed = s.fixed := by
  unfold State.detachRun
  split <;> simp

@[simp] theorem State.linkBack_fixed (s : State) : (State.linkBack s).fixed = s.fixed := by
  unfold State.linkBack
  (repeat' split) <;> simp [apply_ite State.fixed, apply_ite Prod.fst]

theorem execLinkReturn_fixed (s : State) : Goes s (execLinkReturn s) := by
  unfold execLinkReturn
  split <;> simp [Goes]

theorem execHoldOverLimit_fixed (n : PortId) (s : State) : Goes s (execHoldOverLimit n s) := by
  unfold execHoldOverLimit
  (repeat' split) <;> simp [Goes, apply_ite State.fixed, apply_ite Prod.fst]

@[simp] theorem State.readReport_fixed (n : PortId) (s : State) (ty : Sop) : (State.readReport n s ty).fixed = s.fixed := by
  unfold State.readReport
  (repeat' split) <;> simp [apply_ite State.fixed, apply_ite Prod.fst]

@[simp] theorem State.readQueue_fixed (n : PortId) (s : State) : (State.readQueue n s).fixed = s.fixed := by
  simp [State.readQueue]

@[simp] theorem State.backCommon_fixed (s : State) (n : PortId) (c1 c2 vbus : Nat) : (State.backCommon s n c1 c2 vbus).fixed
    = s.fixed := by
  unfold State.backCommon
  repeat' (first
    | with_reducible rfl
    | (simp [apply_ite State.fixed, apply_ite Prod.fst]; done)
    | split
    | simp [apply_ite State.fixed, apply_ite Prod.fst]
    | (intros; exact State.takeMsg_fixed ‹_›)
    | (intros; exact State.bookPort_of ‹_›)
    | (intros; simp [State.bookPort_of ‹_›]; done)
    | refine (State.bookRoleOff_fixed _ _ _ _ _ ‹_›).trans ?_
    | refine (foldl_fixed _ (fun _ _ => ?_) _ _).trans ?_
    | refine State.forPorts_fixed _ _ (fun _ _ => ?_)
    | refine State.feedFirst_fixed _ _ (fun _ => ?_))

@[simp] theorem State.backCore_fixed (s : State) (n : PortId) : (s.backCore n).fixed = s.fixed := by
  unfold State.backCore
  have hr : ([Sop.sop, .sop1, .sop2].foldl (State.readReport n) s).fixed = s.fixed :=
    foldl_fixed _ (fun s a => State.readReport_fixed n s a) _ _
  simp only [apply_ite State.fixed, State.altLeave_fixed, State.vdmSend_fixed, State.standbyTry_fixed,
    State.altRecheck_fixed,
    State.exitRun_fixed, State.softCore_fixed, State.readQueue_fixed, ite_self, hr]

theorem execTakeBack_fixed (k : PlatId) (cc1 cc2 vbus : Nat) (s : State) : Goes s (execTakeBack k cc1 cc2 vbus s) := by
  unfold execTakeBack
  (repeat' split) <;> simp [Goes, apply_ite State.fixed, apply_ite Prod.fst]

@[simp] theorem State.startEvent_fixed (s : State) (kind : Nat) (failed : Option Bank) (pl : Nat) : (State.startEvent s kind
    failed pl).fixed = s.fixed := by
  simp [State.startEvent]

@[simp] theorem State.serviceReport_fixed (s : State) : (State.serviceReport s).fixed = s.fixed := by
  unfold State.serviceReport
  split <;> simp

@[simp] theorem State.startReports_fixed (s : State) (mainDiffer : Bool) : (State.startReports s mainDiffer).fixed = s.fixed
    := by
  unfold State.startReports
  (repeat' split) <;> simp [apply_ite State.fixed, apply_ite Prod.fst]

@[simp] theorem State.warmRecall_fixed (s : State) : s.warmRecall.fixed = s.fixed := by
  unfold State.warmRecall
  cases activeCopy s.store with
  | none => exact State.storeKeep_fixed s _ rfl
  | some i =>
    dsimp only
    by_cases h : (decide (s.running.fmtMin ≤ (copyOf s.store i).fmt) && decide ((copyOf s.store i).fmt ≤ s.running.fmtMax))
    = true
    · rw [if_pos h]; exact State.storeKeep_fixed s _ rfl
    · rw [if_neg h]; exact State.coldRecall_fixed s

@[simp] theorem State.cportNow_fixed (s : State) : (State.cportNow s).fixed = s.fixed := by
  simp [State.cportNow]

@[simp] theorem State.coldStart_fixed (s : State) : (State.coldStart s).fixed = s.fixed := by
  simp [State.coldStart]

@[simp] theorem State.startSb_fixed (s : State) (warm : Bool) (b' : Bank) (body : List Byte) (failed : Option Bank) (differ
    : Bool) : (State.startSb s warm b' body failed differ).fixed = s.fixed := by
  unfold State.startSb
  (repeat' split) <;> simp [apply_ite State.fixed, apply_ite Prod.fst]

@[simp] theorem State.toService_fixed (s : State) : (State.toService s).fixed = s.fixed := by
  simp [State.toService]

@[simp] theorem State.reloadOne_fixed (s : State) : (State.reloadOne s).fixed = s.fixed := by
  unfold State.reloadOne
  (repeat' split) <;> simp [apply_ite State.fixed, apply_ite Prod.fst]

@[simp] theorem State.readThermo_fixed (s : State) (oneRef : BitVec 64) : (State.readThermo s oneRef).fixed = s.fixed := by
  simp [State.readThermo]

theorem execPrimerCompletion_fixed (uncorr : Bool) (differ : MainReads) (s : State) : Goes s (execPrimerCompletion uncorr
    differ s) := by
  unfold execPrimerCompletion
  repeat' (first
    | (simp [Goes, apply_ite State.fixed, apply_ite Prod.fst]; done)
    | split
    | simp [Goes, apply_ite State.fixed, apply_ite Prod.fst]
    | (intros; exact State.takeMsg_fixed ‹_›)
    | (intros; exact State.bookPort_of ‹_›)
    | refine (State.bookRoleOff_fixed _ _ _ _ _ ‹_›).trans ?_
    | refine (foldl_fixed _ (fun _ _ => ?_) _ _).trans ?_
    | refine State.forPorts_fixed _ _ (fun _ _ => ?_)
    | refine State.feedFirst_fixed _ _ (fun _ => ?_))

theorem execServiceLevelChange_fixed (level : Bool) (s : State) : Goes s (execServiceLevelChange level s) := by
  simp [execServiceLevelChange, Goes]

theorem execLifeHour_fixed (t : Int) (s : State) : Goes s (execLifeHour t s) := by
  unfold execLifeHour
  split <;> simp [Goes]

@[simp] theorem State.testPass_fixed (s : State) (n : PortId) (st : TcState) : (State.testPass s n st).fixed = s.fixed := by
  unfold State.testPass
  (repeat' split) <;> simp [apply_ite State.fixed, apply_ite Prod.fst]

theorem execSelftestDone_fixed (n : PortId) (failed : BitVec 6) (s : State) : Goes s (execSelftestDone n failed s) := by
  unfold execSelftestDone
  (repeat' split) <;> simp [Goes, apply_ite State.fixed, apply_ite Prod.fst]

@[simp] theorem State.refuseFront_fixed (s : State) (op : BitVec 16) (p : Packet) (from' : Option Origin) (st : BitVec 16) :
    (State.refuseFront s op p from' st).fixed = s.fixed := by
  unfold State.refuseFront
  split <;> simp

@[simp] theorem State.arrive_fixed (s : State) (op : BitVec 16) (p : Packet) (from' : Option Origin) : (State.arrive s op p
    from').fixed = s.fixed := by
  unfold State.arrive
  (repeat' split) <;> simp [apply_ite State.fixed, apply_ite Prod.fst]

@[simp] theorem State.receive_fixed (s : State) (h : HostPort) (bs : List Byte) (from' : Option Origin) : (State.receive s h
    bs from').fixed = s.fixed := by
  unfold State.receive
  (repeat' split) <;> simp [apply_ite State.fixed, apply_ite Prod.fst]

theorem opcodeRow_fixed (op : BitVec 16) (judge : Judge) (effect : Effect) (p : Packet) (s : State)
    (h : ∀ s c, (effect s c).fixed = s.fixed) : Goes s (opcodeRow op judge effect p s) := by
  have hb : ∀ s c, (State.begin' s c judge effect).fixed = s.fixed := by
    intro s c; unfold State.begin'; split <;> simp [h]
  have ht : ∀ s c, (State.takeFront s c judge effect).fixed = s.fixed := by
    intro s c; unfold State.takeFront; simp only
    repeat' (first | (simp [hb]; done) | split)
  unfold opcodeRow
  refine ⟨_, rfl, ?_⟩
  repeat' (first | (simp [ht]; done) | split)

@[simp] theorem State.ok_fixed (s : State) (c : Held) (result : List Byte) : (State.ok s c result).fixed = s.fixed := by
  simp [State.ok]

@[simp] theorem State.popReply_fixed (s : State) (h : HostPort) : (State.popReply s h).fixed = s.fixed := by
  simp [State.popReply]

@[simp] theorem State.popEvent_fixed (s : State) (h : HostPort) : (State.popEvent s h).fixed = s.fixed := by
  unfold State.popEvent
  split <;> simp

@[simp] theorem State.modTw_fixed (s : State) (bus : TwBus) (f : TwoWire → TwoWire) : (State.modTw s bus f).fixed = s.fixed
    := by
  simp [State.modTw]

@[simp] theorem State.twBusy_fixed (s : State) (bus : TwBus) : (State.twBusy s bus).fixed = s.fixed := by
  unfold State.twBusy
  split <;> simp

@[simp] theorem State.twUsed_fixed (s : State) (bus : TwBus) (stop : Bool) : (State.twUsed s bus stop).fixed = s.fixed := by
  simp [State.twUsed]

@[simp] theorem State.twEffect_fixed (s : State) (bus : TwBus) (bs : List Byte) : (State.twEffect s bus bs).fixed = s.fixed
    := by
  simp [State.twEffect]

theorem execTwoWireWrite_fixed (bus : TwBus) (bytes : List Byte) (fin : TwEnd) (s : State) : Goes s (execTwoWireWrite bus
    bytes fin s) := by
  unfold execTwoWireWrite
  (repeat' split) <;> simp [Goes, apply_ite State.fixed, apply_ite Prod.fst]

theorem execTwoWireRead_fixed (bus : TwBus) (count : Nat) (s : State) : Goes s (execTwoWireRead bus count s) := by
  unfold execTwoWireRead
  (repeat' split) <;> simp [Goes, apply_ite State.fixed, apply_ite Prod.fst]

theorem execAlertResponse_fixed (bus : TwBus) (won : Bool) (s : State) : Goes s (execAlertResponse bus won s) := by
  unfold execAlertResponse
  (repeat' split) <;> simp [Goes, apply_ite State.fixed, apply_ite Prod.fst]

theorem execTwoWireTimeout_fixed (bus : TwBus) (s : State) : Goes s (execTwoWireTimeout bus s) := by
  unfold execTwoWireTimeout
  (repeat' split) <;> simp [Goes, apply_ite State.fixed, apply_ite Prod.fst]

theorem execBusFree_fixed (bus : TwBus) (s : State) : Goes s (execBusFree bus s) := by
  unfold execBusFree
  (repeat' split) <;> simp [Goes, apply_ite State.fixed, apply_ite Prod.fst]

theorem execRplDone_fixed (bus : TwBus) (s : State) : Goes s (execRplDone bus s) := by
  unfold execRplDone
  split <;> simp [Goes]

theorem execEvtDone_fixed (bus : TwBus) (s : State) : Goes s (execEvtDone bus s) := by
  unfold execEvtDone
  split <;> simp [Goes]

theorem execSend_fixed (bus : TwBus) (s : State) : Goes s (execSend bus s) := by
  unfold execSend
  (repeat' split) <;> simp [Goes, apply_ite State.fixed, apply_ite Prod.fst]

@[simp] theorem State.localOut_fixed (s : State) (bs : List Byte) : (State.localOut s bs).fixed = s.fixed := by
  simp [State.localOut]

theorem execStatus_fixed (s : State) : Goes s (execStatus s) := by
  unfold execStatus
  split <;> simp [Goes]

theorem execLocalSend_fixed (bytes : List Byte) (clean : Bool) (s : State) : Goes s (execLocalSend bytes clean s) := by
  unfold execLocalSend
  (repeat' split) <;> simp [Goes, apply_ite State.fixed, apply_ite Prod.fst]

@[simp] theorem State.localRead_fixed (s : State) (frame : List Byte) (clocked : Nat) : (State.localRead s frame
    clocked).1.fixed = s.fixed := by
  unfold State.localRead
  split <;> simp

theorem execReadReply_fixed (clocked : Nat) (s : State) : Goes s (execReadReply clocked s) := by
  unfold execReadReply
  (repeat' split) <;> simp [Goes, apply_ite State.fixed, apply_ite Prod.fst]

theorem execReadEvent_fixed (clocked : Nat) (s : State) : Goes s (execReadEvent clocked s) := by
  unfold execReadEvent
  (repeat' split) <;> simp [Goes, apply_ite State.fixed, apply_ite Prod.fst]

theorem execNetFrame_fixed (f : NetFrame) (s : State) : Goes s (execNetFrame f s) := by
  unfold execNetFrame
  split <;> simp [Goes]

@[simp] theorem State.pushEnd_fixed (s : State) (k : PlatId) : (State.pushEnd s k).fixed = s.fixed := by
  unfold State.pushEnd
  split <;> simp

@[simp] theorem State.laneSent_fixed (s : State) : (State.laneSent s).fixed = s.fixed := by
  unfold State.laneSent
  (repeat' split) <;> simp [apply_ite State.fixed, apply_ite Prod.fst]

theorem State.rankOne_fixed (s : State) (t : State) (h : s.rankOne = some t) : t.fixed = s.fixed := by
  unfold State.rankOne at h
  dsimp only at h
  repeat' split at h
  all_goals first
    | (cases h; simp; done)
    | cases h

@[simp] theorem State.pushFrame_fixed (s : State) (k : PlatId) (slot : Fin 8) (x : Sketch) (m : Nat) : (State.pushFrame s k
    slot x m).fixed = s.fixed := by
  simp [State.pushFrame]

theorem State.rankFour_fixed (s : State) (t : State) (h : s.rankFour = some t) : t.fixed = s.fixed := by
  unfold State.rankFour at h
  obtain ⟨k, -, hk⟩ := List.exists_of_findSome?_eq_some h
  split at hk
  · cases hk
  · obtain ⟨x, -, rfl⟩ := Option.map_eq_some_iff.mp hk
    simp

@[simp] theorem State.laneNext_fixed (s : State) : s.laneNext.fixed = s.fixed := by
  unfold State.laneNext
  split
  · exact State.rankOne_fixed _ _ ‹_›
  · split
    · simp
    · simp
    · split
      · cases h : s.rankFour with
        | none => rfl
        | some t => exact State.rankFour_fixed _ _ h
      · rfl

theorem execLaneFrameBoundary_fixed (s : State) : Goes s (execLaneFrameBoundary s) := by
  unfold execLaneFrameBoundary
  (repeat' split) <;> simp [Goes, apply_ite State.fixed, apply_ite Prod.fst]

theorem execOverflow_fixed (h : HostPort) (s : State) : Goes s (execOverflow h s) := by
  unfold execOverflow
  repeat' (first
    | (simp [Goes, apply_ite State.fixed, apply_ite Prod.fst]; done)
    | split
    | simp [Goes, apply_ite State.fixed, apply_ite Prod.fst]
    | (intros; exact State.takeMsg_fixed ‹_›)
    | (intros; exact State.bookPort_of ‹_›)
    | refine (State.bookRoleOff_fixed _ _ _ _ _ ‹_›).trans ?_
    | refine (foldl_fixed _ (fun _ _ => ?_) _ _).trans ?_
    | refine State.forPorts_fixed _ _ (fun _ _ => ?_)
    | refine State.feedFirst_fixed _ _ (fun _ => ?_))

end Sys2Proof.Machine
end

