-- ==== Sys2Proof/Laws/Fixed4.lean ====
section
/-! SUPPORT. What an operation leaves alone (part 4 of 4): sealed Varnish, the queue of commands, and the memories that
power-down keeps, by `State.fixed`; and that every command answers a next state. Modules: HostStation, HostStore, HostTrace, Operands, Flags, Kernel, Vavis, HostCores, Begin. -/
namespace Sys2Proof.Machine

@[simp] theorem effIdentity_fixed  (s : State) (c : Held) : (effIdentity s c).fixed = s.fixed := by
  simp [effIdentity]

theorem execIdentity_fixed (p : Packet) (s : State) : Goes s (execIdentity p s) :=
  opcodeRow_fixed _ _ _ _ _ (fun s c => by simp)

@[simp] theorem effClaim_fixed  (s : State) (c : Held) : (effClaim s c).fixed = s.fixed := by
  simp [effClaim]

theorem execClaim_fixed (p : Packet) (s : State) : Goes s (execClaim p s) :=
  opcodeRow_fixed _ _ _ _ _ (fun s c => by simp)

@[simp] theorem effRelease_fixed  (s : State) (c : Held) : (effRelease s c).fixed = s.fixed := by
  unfold effRelease
  (repeat' split) <;> simp [apply_ite State.fixed, apply_ite Prod.fst]

theorem execRelease_fixed (p : Packet) (s : State) : Goes s (execRelease p s) :=
  opcodeRow_fixed _ _ _ _ _ (fun s c => by simp)

@[simp] theorem effClaimBreak_fixed  (s : State) (c : Held) : (effClaimBreak s c).fixed = s.fixed := by
  simp [effClaimBreak]

theorem execClaimBreak_fixed (p : Packet) (s : State) : Goes s (execClaimBreak p s) :=
  opcodeRow_fixed _ _ _ _ _ (fun s c => by simp)

@[simp] theorem effSubscribe_fixed  (s : State) (c : Held) : (effSubscribe s c).fixed = s.fixed := by
  unfold effSubscribe
  split <;> simp

theorem execSubscribe_fixed (p : Packet) (s : State) : Goes s (execSubscribe p s) :=
  opcodeRow_fixed _ _ _ _ _ (fun s c => by simp)

@[simp] theorem effRestart_fixed  (s : State) (c : Held) : (effRestart s c).fixed = s.fixed := by
  simp [effRestart]

theorem execRestart_fixed (p : Packet) (s : State) : Goes s (execRestart p s) :=
  opcodeRow_fixed _ _ _ _ _ (fun s c => by simp)

@[simp] theorem effReadRegs_fixed  (s : State) (c : Held) : (effReadRegs s c).fixed = s.fixed := by
  unfold effReadRegs
  split <;> simp

theorem execReadRegs_fixed (gg : Byte) (p : Packet) (s : State) : Goes s (execReadRegs gg p s) :=
  opcodeRow_fixed _ _ _ _ _ (fun s c => by simp)

@[simp] theorem effWriteRegs_fixed  (s : State) (c : Held) : (effWriteRegs s c).fixed = s.fixed := by
  unfold effWriteRegs
  (repeat' split) <;> simp [apply_ite State.fixed, apply_ite Prod.fst]

theorem execWriteRegs_fixed (gg : Byte) (p : Packet) (s : State) : Goes s (execWriteRegs gg p s) :=
  opcodeRow_fixed _ _ _ _ _ (fun s c => by simp)

@[simp] theorem effSwap_fixed  (s : State) (c : Held) : (effSwap s c).fixed = s.fixed := by
  unfold effSwap
  split <;> simp

theorem execSwap_fixed (p : Packet) (s : State) : Goes s (execSwap p s) :=
  opcodeRow_fixed _ _ _ _ _ (fun s c => by simp)

@[simp] theorem effAltMode_fixed  (s : State) (c : Held) : (effAltMode s c).fixed = s.fixed := by
  unfold effAltMode
  (repeat' split) <;> simp [apply_ite State.fixed, apply_ite Prod.fst]

theorem execAltMode_fixed (p : Packet) (s : State) : Goes s (execAltMode p s) :=
  opcodeRow_fixed _ _ _ _ _ (fun s c => by simp)

@[simp] theorem effPathClear_fixed  (s : State) (c : Held) : (effPathClear s c).fixed = s.fixed := by
  unfold effPathClear
  (repeat' split) <;> simp [apply_ite State.fixed, apply_ite Prod.fst]

theorem execPathClear_fixed (p : Packet) (s : State) : Goes s (execPathClear p s) :=
  opcodeRow_fixed _ _ _ _ _ (fun s c => by simp)

@[simp] theorem effReadTime_fixed  (s : State) (c : Held) : (effReadTime s c).fixed = s.fixed := by
  simp [effReadTime]

theorem execReadTime_fixed (p : Packet) (s : State) : Goes s (execReadTime p s) :=
  opcodeRow_fixed _ _ _ _ _ (fun s c => by simp)

@[simp] theorem effSetEpoch_fixed  (s : State) (c : Held) : (effSetEpoch s c).fixed = s.fixed := by
  simp [effSetEpoch]

theorem execSetEpoch_fixed (p : Packet) (s : State) : Goes s (execSetEpoch p s) :=
  opcodeRow_fixed _ _ _ _ _ (fun s c => by simp)

@[simp] theorem effReadChannel_fixed  (s : State) (c : Held) : (effReadChannel s c).fixed = s.fixed := by
  simp [effReadChannel]

theorem execReadChannel_fixed (p : Packet) (s : State) : Goes s (execReadChannel p s) :=
  opcodeRow_fixed _ _ _ _ _ (fun s c => by simp)

@[simp] theorem effReadEntries_fixed  (s : State) (c : Held) : (effReadEntries s c).fixed = s.fixed := by
  simp [effReadEntries]

theorem execReadEntries_fixed (p : Packet) (s : State) : Goes s (execReadEntries p s) :=
  opcodeRow_fixed _ _ _ _ _ (fun s c => by simp)

@[simp] theorem effStoreInfo_fixed  (s : State) (c : Held) : (effStoreInfo s c).fixed = s.fixed := by
  simp [effStoreInfo]

theorem execStoreInfo_fixed (p : Packet) (s : State) : Goes s (execStoreInfo p s) :=
  opcodeRow_fixed _ _ _ _ _ (fun s c => by simp)

@[simp] theorem effPaletteRead_fixed  (s : State) (c : Held) : (effPaletteRead s c).fixed = s.fixed := by
  simp [effPaletteRead]

theorem execPaletteRead_fixed (p : Packet) (s : State) : Goes s (execPaletteRead p s) :=
  opcodeRow_fixed _ _ _ _ _ (fun s c => by simp)

@[simp] theorem effPaletteWrite_fixed  (s : State) (c : Held) : (effPaletteWrite s c).fixed = s.fixed := by
  simp [effPaletteWrite]

theorem execPaletteWrite_fixed (p : Packet) (s : State) : Goes s (execPaletteWrite p s) :=
  opcodeRow_fixed _ _ _ _ _ (fun s c => by simp)

@[simp] theorem State.readFixes_fixed (s : State) (k : Nat) : (State.readFixes s k).fixed = s.fixed := by
  simp [State.readFixes]

@[simp] theorem effUserRead_fixed  (s : State) (c : Held) : (effUserRead s c).fixed = s.fixed := by
  simp [effUserRead]

theorem execUserRead_fixed (p : Packet) (s : State) : Goes s (execUserRead p s) :=
  opcodeRow_fixed _ _ _ _ _ (fun s c => by simp)

@[simp] theorem effUserWrite_fixed  (s : State) (c : Held) : (effUserWrite s c).fixed = s.fixed := by
  simp [effUserWrite]

theorem execUserWrite_fixed (p : Packet) (s : State) : Goes s (execUserWrite p s) :=
  opcodeRow_fixed _ _ _ _ _ (fun s c => by simp)

@[simp] theorem effUserProtect_fixed  (s : State) (c : Held) : (effUserProtect s c).fixed = s.fixed := by
  simp [effUserProtect]

theorem execUserProtect_fixed (p : Packet) (s : State) : Goes s (execUserProtect p s) :=
  opcodeRow_fixed _ _ _ _ _ (fun s c => by simp)

@[simp] theorem effScrub_fixed  (s : State) (c : Held) : (effScrub s c).fixed = s.fixed := by
  simp [effScrub]

theorem execScrub_fixed (p : Packet) (s : State) : Goes s (execScrub p s) :=
  opcodeRow_fixed _ _ _ _ _ (fun s c => by simp)

@[simp] theorem effWearReset_fixed  (s : State) (c : Held) : (effWearReset s c).fixed = s.fixed := by
  simp [effWearReset]

theorem execWearReset_fixed (p : Packet) (s : State) : Goes s (execWearReset p s) :=
  opcodeRow_fixed _ _ _ _ _ (fun s c => by simp)

@[simp] theorem State.fillPages_fixed (s : State) (job : PageJob) (fill : Byte) (c : CmdRef) (r : List Byte) (l : List Nat) :
    (s.fillPages job fill c r l).fixed = s.fixed := by
  induction l generalizing s with
  | nil => exact State.complete_fixed _ _ _ _
  | cons p t ih =>
    cases t with
    | nil =>
      rw [State.fillPages]
      exact State.requestPage_fixed _ _
    | cons q u => exact (ih _).trans (State.requestPage_fixed _ _)
@[simp] theorem State.logEmpty_fixed (s : State) (c : CmdRef) : (s.logEmpty c).fixed = s.fixed := by
  unfold State.logEmpty
  rw [State.fillPages_fixed]; rfl

@[simp] theorem effFormat_fixed  (s : State) (c : Held) : (effFormat s c).fixed = s.fixed := by
  unfold effFormat
  split <;> simp

theorem execFormat_fixed (p : Packet) (s : State) : Goes s (execFormat p s) :=
  opcodeRow_fixed _ _ _ _ _ (fun s c => by simp)

@[simp] theorem effHealthStatus_fixed  (s : State) (c : Held) : (effHealthStatus s c).fixed = s.fixed := by
  simp [effHealthStatus]

theorem execHealthStatus_fixed (p : Packet) (s : State) : Goes s (execHealthStatus p s) :=
  opcodeRow_fixed _ _ _ _ _ (fun s c => by simp)

@[simp] theorem effLogRead_fixed  (s : State) (c : Held) : (effLogRead s c).fixed = s.fixed := by
  simp [effLogRead]

theorem execLogRead_fixed (p : Packet) (s : State) : Goes s (execLogRead p s) :=
  opcodeRow_fixed _ _ _ _ _ (fun s c => by simp)

@[simp] theorem effLogClear_fixed  (s : State) (c : Held) : (effLogClear s c).fixed = s.fixed := by
  simp [effLogClear]

theorem execLogClear_fixed (p : Packet) (s : State) : Goes s (execLogClear p s) :=
  opcodeRow_fixed _ _ _ _ _ (fun s c => by simp)

@[simp] theorem effOdometerRead_fixed  (s : State) (c : Held) : (effOdometerRead s c).fixed = s.fixed := by
  simp [effOdometerRead]

theorem execOdometerRead_fixed (p : Packet) (s : State) : Goes s (execOdometerRead p s) :=
  opcodeRow_fixed _ _ _ _ _ (fun s c => by simp)

@[simp] theorem stationFaults_fixed (s : State) (failed : BitVec 4) (bank : Fin 2) (count : Nat) : (stationFaults s failed
    bank count).fixed = s.fixed := by
  unfold stationFaults
  (repeat' split) <;> simp [apply_ite State.fixed, apply_ite Prod.fst]

@[simp] theorem effSelftest_fixed (station : BitVec 4) (bank : Fin 2) (count : Nat) (s : State) (c : Held) : (effSelftest
    station bank count s c).fixed = s.fixed := by
  unfold effSelftest
  split <;> simp

theorem execSelftest_fixed (p : Packet) (station : BitVec 4) (bank : Fin 2) (count : Nat) (s : State) : Goes s (execSelftest
    p station bank count s) :=
  opcodeRow_fixed _ _ _ _ _ (fun s c => by simp)

@[simp] theorem effEnergySnapshot_fixed  (s : State) (c : Held) : (effEnergySnapshot s c).fixed = s.fixed := by
  simp [effEnergySnapshot]

theorem execEnergySnapshot_fixed (p : Packet) (s : State) : Goes s (execEnergySnapshot p s) :=
  opcodeRow_fixed _ _ _ _ _ (fun s c => by simp)

@[simp] theorem effHkRead_fixed  (s : State) (c : Held) : (effHkRead s c).fixed = s.fixed := by
  simp [effHkRead]

theorem execHkRead_fixed (p : Packet) (s : State) : Goes s (execHkRead p s) :=
  opcodeRow_fixed _ _ _ _ _ (fun s c => by simp)

@[simp] theorem effSketchList_fixed  (s : State) (c : Held) : (effSketchList s c).fixed = s.fixed := by
  simp [effSketchList]

theorem execSketchList_fixed (p : Packet) (s : State) : Goes s (execSketchList p s) :=
  opcodeRow_fixed _ _ _ _ _ (fun s c => by simp)

@[simp] theorem effSketchRead_fixed  (s : State) (c : Held) : (effSketchRead s c).fixed = s.fixed := by
  unfold effSketchRead
  split <;> simp

theorem execSketchRead_fixed (p : Packet) (s : State) : Goes s (execSketchRead p s) :=
  opcodeRow_fixed _ _ _ _ _ (fun s c => by simp)

@[simp] theorem effSketchPush_fixed  (s : State) (c : Held) : (effSketchPush s c).fixed = s.fixed := by
  unfold effSketchPush
  split <;> simp

theorem execSketchPush_fixed (p : Packet) (s : State) : Goes s (execSketchPush p s) :=
  opcodeRow_fixed _ _ _ _ _ (fun s c => by simp)

@[simp] theorem effSketchTrigger_fixed  (s : State) (c : Held) : (effSketchTrigger s c).fixed = s.fixed := by
  unfold effSketchTrigger
  split <;> simp

theorem execSketchTrigger_fixed (p : Packet) (s : State) : Goes s (execSketchTrigger p s) :=
  opcodeRow_fixed _ _ _ _ _ (fun s c => by simp)

@[simp] theorem effSketchRelease_fixed  (s : State) (c : Held) : (effSketchRelease s c).fixed = s.fixed := by
  unfold effSketchRelease
  (repeat' split) <;> simp [apply_ite State.fixed, apply_ite Prod.fst]

theorem execSketchRelease_fixed (p : Packet) (s : State) : Goes s (execSketchRelease p s) :=
  opcodeRow_fixed _ _ _ _ _ (fun s c => by simp)

@[simp] theorem effSeqClear_fixed  (s : State) (c : Held) : (effSeqClear s c).fixed = s.fixed := by
  simp [effSeqClear]

theorem execSeqClear_fixed (p : Packet) (s : State) : Goes s (execSeqClear p s) :=
  opcodeRow_fixed _ _ _ _ _ (fun s c => by simp)

@[simp] theorem effSeqShutdown_fixed  (s : State) (c : Held) : (effSeqShutdown s c).fixed = s.fixed := by
  simp [effSeqShutdown]

theorem execSeqShutdown_fixed (p : Packet) (s : State) : Goes s (execSeqShutdown p s) :=
  opcodeRow_fixed _ _ _ _ _ (fun s c => by simp)

@[simp] theorem State.modV_fixed (s : State) (c : Ctx) (f : VCtx → VCtx) : (State.modV s c f).fixed = s.fixed := by
  simp [State.modV]

@[simp] theorem State.spend_fixed (s : State) (c : Ctx) (n : Nat) : (State.spend s c n).fixed = s.fixed := by
  unfold State.spend
  split <;> simp

@[simp] theorem State.cutOff_fixed (s : State) (c : Ctx) : (State.cutOff s c).fixed = s.fixed := by
  simp [State.cutOff]

theorem State.vStore_fixed (s : State) (c : Ctx) (addr : Word) (bs : List Byte) (t : State) (h : s.vStore c addr bs = some
    t) :
    t.fixed = s.fixed := by
  unfold State.vStore at h
  dsimp only at h
  repeat' split at h
  all_goals first
    | (cases h; simp; done)
    | cases h

@[simp] theorem State.kernelEnd_fixed (s : State) (c : CoreId) (st : KState) : (State.kernelEnd s c st).fixed = s.fixed := by
  unfold State.kernelEnd
  (repeat' split) <;> simp [apply_ite State.fixed, apply_ite Prod.fst]

@[simp] theorem State.trap'_fixed (s : State) (c : Ctx) : (State.trap' s c).fixed = s.fixed := by
  unfold State.trap'
  (repeat' split) <;> simp [apply_ite State.fixed, apply_ite Prod.fst]

theorem execKernelBudget_fixed (core : CoreId) (s : State) : Goes s (execKernelBudget core s) := by
  unfold execKernelBudget
  split <;> simp [Goes]

@[simp] theorem State.filterBegin_fixed (s : State) (k : PlatId) (grp blk : Nat) (sums : List Int) : (State.filterBegin s k
    grp blk sums).fixed = s.fixed := by
  simp [State.filterBegin]

theorem execFilterInvocation_fixed (k : PlatId) (s : State) : Goes s (execFilterInvocation k s) := by
  unfold execFilterInvocation
  (repeat' split) <;> simp [Goes, apply_ite State.fixed, apply_ite Prod.fst]

@[simp] theorem State.commitOut_fixed (s : State) (k : PlatId) : (State.commitOut s k).fixed = s.fixed := by
  unfold State.commitOut
  (repeat' split) <;> simp [apply_ite State.fixed, apply_ite Prod.fst]

@[simp] theorem State.yieldEnd_fixed (s : State) (c : CoreId) : (State.yieldEnd s c).fixed = s.fixed := by
  unfold State.yieldEnd
  repeat' (first
    | with_reducible rfl
    | (simp [apply_ite State.fixed, apply_ite Prod.fst]; done)
    | split
    | simp [apply_ite State.fixed, apply_ite Prod.fst]
    | (intros; exact State.takeMsg_fixed ‹_›)
    | (intros; exact State.bookPort_of ‹_›)
    | (intros; simp [State.bookPort_of ‹_›]; done)
    | refine (State.bookRoleOff_fixed _ _ _ _ _ ‹_›).trans ?_
    | refine (foldl_fixed _ (fun _ _ => ?_) _ _).trans ?_
    | refine State.forPorts_fixed _ _ (fun _ _ => ?_)
    | refine State.feedFirst_fixed _ _ (fun _ => ?_))

@[simp] theorem State.trapIn_fixed (s : State) (c : Ctx) (stall : Nat) (x : VCtx) : (State.trapIn s c stall x).fixed =
    s.fixed := by
  unfold State.trapIn
  (repeat' split) <;> simp [apply_ite State.fixed, apply_ite Prod.fst]

theorem State.issueRun_fixed (s : State) (c : Ctx) (reads : List Reg) (acc : Option (Fin 2)) (g : State → VCtx → Option
    (State × VCtx × Nat))
    (h : ∀ s x s' y n, g s x = some (s', y, n) → s'.fixed = s.fixed) : Goes s (s.issueRun c reads acc g) := by
  unfold State.issueRun
  refine ⟨_, rfl, ?_⟩
  split
  · rfl
  · dsimp only
    split
    · simp
    · rename_i s' y n heq
      split
      · simp [h _ _ _ _ _ heq]
      · simp

theorem State.vRun_fixed (s : State) (c : Ctx) (reads : List Reg) (acc : Option (Fin 2)) (n : Nat) (f : VCtx → VCtx) :
    Goes s (s.vRun c reads acc n f) := by
  unfold State.vRun
  exact State.issueRun_fixed _ _ _ _ _ (by intro s x s' y n h; cases h; rfl)

theorem State.ctlRun_fixed (s : State) (c : Ctx) (reads : List Reg) (g : VCtx → Option (VCtx × Nat)) : Goes s (s.ctlRun c
    reads g) := by
  unfold State.ctlRun
  refine State.issueRun_fixed _ _ _ _ _ ?_
  intro s x s' y n h
  split at h
  · cases h
  · cases hg : g x <;> simp [hg] at h
    exact h.1 ▸ rfl

theorem execNop_fixed (c : Ctx) (s : State) : Goes s (execNop c s) :=
  State.vRun_fixed ..

theorem execAdd_fixed (c : Ctx) (d a b : Reg) (m : MMode) (s : State) : Goes s (execAdd c d a b m s) :=
  State.vRun_fixed ..

theorem execSub_fixed (c : Ctx) (d a b : Reg) (m : MMode) (s : State) : Goes s (execSub c d a b m s) :=
  State.vRun_fixed ..

theorem execNeg_fixed (c : Ctx) (d a : Reg) (m : MMode) (s : State) : Goes s (execNeg c d a m s) :=
  State.vRun_fixed ..

theorem execAbs_fixed (c : Ctx) (d a : Reg) (m : MMode) (s : State) : Goes s (execAbs c d a m s) :=
  State.vRun_fixed ..

theorem execMin_fixed (c : Ctx) (d a b : Reg) (s : State) : Goes s (execMin c d a b s) :=
  State.vRun_fixed ..

theorem execMax_fixed (c : Ctx) (d a b : Reg) (s : State) : Goes s (execMax c d a b s) :=
  State.vRun_fixed ..

theorem execCmp_fixed (c : Ctx) (a b : Reg) (s : State) : Goes s (execCmp c a b s) :=
  State.vRun_fixed ..

theorem execAnd_fixed (c : Ctx) (d a b : Reg) (s : State) : Goes s (execAnd c d a b s) :=
  State.vRun_fixed ..

theorem execOr_fixed (c : Ctx) (d a b : Reg) (s : State) : Goes s (execOr c d a b s) :=
  State.vRun_fixed ..

theorem execXor_fixed (c : Ctx) (d a b : Reg) (s : State) : Goes s (execXor c d a b s) :=
  State.vRun_fixed ..

theorem execShl_fixed (c : Ctx) (d a b : Reg) (m : MMode) (s : State) : Goes s (execShl c d a b m s) :=
  State.vRun_fixed ..

theorem execShr_fixed (c : Ctx) (d a b : Reg) (r : RMode) (s : State) : Goes s (execShr c d a b r s) :=
  State.vRun_fixed ..

theorem execShrl_fixed (c : Ctx) (d a b : Reg) (s : State) : Goes s (execShrl c d a b s) :=
  State.vRun_fixed ..

theorem execShli_fixed (c : Ctx) (d a : Reg) (m : MMode) (sh : BitVec 5) (s : State) : Goes s (execShli c d a m sh s) :=
  State.vRun_fixed ..

theorem execShri_fixed (c : Ctx) (d a : Reg) (r : RMode) (sh : BitVec 5) (s : State) : Goes s (execShri c d a r sh s) :=
  State.vRun_fixed ..

theorem execShrli_fixed (c : Ctx) (d a : Reg) (sh : BitVec 5) (s : State) : Goes s (execShrli c d a sh s) :=
  State.vRun_fixed ..

theorem execMov_fixed (c : Ctx) (d a : Reg) (s : State) : Goes s (execMov c d a s) :=
  State.vRun_fixed ..

theorem execDiv_fixed (c : Ctx) (d a b : Reg) (s : State) : Goes s (execDiv c d a b s) :=
  State.vRun_fixed ..

theorem execIdiv_fixed (c : Ctx) (d a b : Reg) (m : MMode) (s : State) : Goes s (execIdiv c d a b m s) :=
  State.vRun_fixed ..

theorem execAddi_fixed (c : Ctx) (d a : Reg) (imm : BitVec 18) (s : State) : Goes s (execAddi c d a imm s) :=
  State.vRun_fixed ..

theorem execAndi_fixed (c : Ctx) (d a : Reg) (imm : BitVec 18) (s : State) : Goes s (execAndi c d a imm s) :=
  State.vRun_fixed ..

theorem execOri_fixed (c : Ctx) (d a : Reg) (imm : BitVec 18) (s : State) : Goes s (execOri c d a imm s) :=
  State.vRun_fixed ..

theorem execLui_fixed (c : Ctx) (d : Reg) (imm : BitVec 22) (s : State) : Goes s (execLui c d imm s) :=
  State.vRun_fixed ..

theorem execLd_fixed (c : Ctx) (d a : Reg) (imm : BitVec 18) (s : State) : Goes s (execLd c d a imm s) :=
  State.issueRun_fixed _ _ _ _ _ (by intro s x s' y n h; obtain ⟨w, -, hw⟩ := Option.map_eq_some_iff.mp h; cases hw; rfl)

theorem execLdh_fixed (c : Ctx) (d a : Reg) (imm : BitVec 18) (s : State) : Goes s (execLdh c d a imm s) :=
  State.issueRun_fixed _ _ _ _ _ (by intro s x s' y n h; obtain ⟨w, -, hw⟩ := Option.map_eq_some_iff.mp h; cases hw; rfl)

theorem execSt_fixed (c : Ctx) (d a : Reg) (imm : BitVec 18) (s : State) : Goes s (execSt c d a imm s) :=
  State.issueRun_fixed _ _ _ _ _ (by
    intro s x s' y n h; obtain ⟨w, hv, hw⟩ := Option.map_eq_some_iff.mp h; cases hw; exact State.vStore_fixed _ _ _ _ _ hv)

theorem execSth_fixed (c : Ctx) (d a : Reg) (imm : BitVec 18) (s : State) : Goes s (execSth c d a imm s) :=
  State.issueRun_fixed _ _ _ _ _ (by
    intro s x s' y n h; obtain ⟨w, hv, hw⟩ := Option.map_eq_some_iff.mp h; cases hw; exact State.vStore_fixed _ _ _ _ _ hv)

theorem execLdp_fixed (c : Ctx) (d a : Reg) (imm : BitVec 18) (s : State) : Goes s (execLdp c d a imm s) :=
  State.issueRun_fixed _ _ _ _ _ (by intro s x s' y n h; obtain ⟨w, -, hw⟩ := Option.map_eq_some_iff.mp h; cases hw; rfl)

theorem execMul_fixed (c : Ctx) (a b : Reg) (s : State) : Goes s (execMul c a b s) :=
  State.vRun_fixed ..

theorem execFmul_fixed (c : Ctx) (a b : Reg) (m : MMode) (s : State) : Goes s (execFmul c a b m s) :=
  State.vRun_fixed ..

theorem execProductWrite_fixed (c : Ctx) (s : State) : Goes s (execProductWrite c s) := by
  simp [execProductWrite, Goes]

theorem execMac_fixed (c : Ctx) (k : Bool) (a b : Reg) (m : MMode) (r : RMode) (s : State) : Goes s (execMac c k a b m r s)
    :=
  State.vRun_fixed ..

theorem execMsu_fixed (c : Ctx) (k : Bool) (a b : Reg) (m : MMode) (r : RMode) (s : State) : Goes s (execMsu c k a b m r s)
    :=
  State.vRun_fixed ..

theorem execMacm_fixed (c : Ctx) (k : Bool) (a b : Reg) (m : MMode) (r : RMode) (s : State) : Goes s (execMacm c k a b m r
    s) :=
  State.issueRun_fixed _ _ _ _ _ (by
    intro s x s' y n h
    dsimp only at h
    split at h
    · cases h; rfl
    · cases h)

theorem execAclr_fixed (c : Ctx) (k : Bool) (s : State) : Goes s (execAclr c k s) :=
  State.vRun_fixed ..

theorem execAccl_fixed (c : Ctx) (k : Bool) (a : Reg) (s : State) : Goes s (execAccl c k a s) :=
  State.vRun_fixed ..

theorem execAccs_fixed (c : Ctx) (k : Bool) (d : Reg) (m : MMode) (r : RMode) (sh : BitVec 5) (s : State) : Goes s (execAccs
    c k d m r sh s) :=
  State.vRun_fixed ..

theorem execAccx_fixed (c : Ctx) (k : Bool) (d : Reg) (s : State) : Goes s (execAccx c k d s) :=
  State.vRun_fixed ..

theorem execAccsh_fixed (c : Ctx) (k : Bool) (r : RMode) (sh : BitVec 5) (s : State) : Goes s (execAccsh c k r sh s) :=
  State.vRun_fixed ..

theorem execMvs_fixed (c : Ctx) (d : Reg) (index : Fin 16) (s : State) : Goes s (execMvs c d index s) :=
  State.vRun_fixed ..

theorem execSmv_fixed (c : Ctx) (index : Fin 16) (a : Reg) (s : State) : Goes s (execSmv c index a s) :=
  State.vRun_fixed ..

theorem execB_fixed (c : Ctx) (off : BitVec 26) (s : State) : Goes s (execB c off s) :=
  State.ctlRun_fixed ..

theorem execCall_fixed (c : Ctx) (off : BitVec 26) (s : State) : Goes s (execCall c off s) :=
  State.ctlRun_fixed ..

theorem execRet_fixed (c : Ctx) (s : State) : Goes s (execRet c s) :=
  State.ctlRun_fixed ..

theorem execBc_fixed (c : Ctx) (cond : Fin 16) (off : BitVec 18) (s : State) : Goes s (execBc c cond off s) :=
  State.ctlRun_fixed ..

theorem execLoop_fixed (c : Ctx) (k : Fin 3) (count : Count) (endOff : BitVec 11) (s : State) : Goes s (execLoop c k count
    endOff s) :=
  State.ctlRun_fixed ..

theorem execRep_fixed (c : Ctx) (count : Count) (s : State) : Goes s (execRep c count s) :=
  State.ctlRun_fixed ..

theorem execTtRead_fixed (c : Ctx) (s : State) : Goes s (execTtRead c s) :=
  State.ctlRun_fixed ..

theorem execBudget_fixed (c : Ctx) (s : State) : Goes s (execBudget c s) :=
  State.ctlRun_fixed ..

theorem execYield_fixed (c : Ctx) (s : State) : Goes s (execYield c s) := by
  unfold execYield
  (repeat' split) <;> simp [Goes, apply_ite State.fixed, apply_ite Prod.fst]

theorem execWait_fixed (c : Ctx) (s : State) : Goes s (execWait c s) := by
  unfold execWait
  split
  · exact State.ctlRun_fixed _ _ _ _
  · exact State.issueRun_fixed _ _ _ _ _ (by
      intro s x s' y n h
      split at h
      · cases h
      · cases h; simp)

theorem execIllegalInstruction_fixed (c : Ctx) (word : Word) (s : State) : Goes s (execIllegalInstruction c word s) := by
  unfold execIllegalInstruction
  split <;> simp [Goes]

@[simp] theorem State.slotReplace_fixed (s : State) (c : CoreId) (f : KSlot → KSlot) : (State.slotReplace s c f).fixed =
    s.fixed := by
  unfold State.slotReplace
  (repeat' split) <;> simp [apply_ite State.fixed, apply_ite Prod.fst]

@[simp] theorem effKernelList_fixed  (s : State) (c : Held) : (effKernelList s c).fixed = s.fixed := by
  simp [effKernelList]

theorem execKernelList_fixed (p : Packet) (s : State) : Goes s (execKernelList p s) :=
  opcodeRow_fixed _ _ _ _ _ (fun s c => by simp)

@[simp] theorem effKernelWrite_fixed  (s : State) (c : Held) : (effKernelWrite s c).fixed = s.fixed := by
  simp [effKernelWrite]

theorem execKernelWrite_fixed (p : Packet) (s : State) : Goes s (execKernelWrite p s) :=
  opcodeRow_fixed _ _ _ _ _ (fun s c => by simp)

@[simp] theorem effKernelStart_fixed  (s : State) (c : Held) : (effKernelStart s c).fixed = s.fixed := by
  simp [effKernelStart]

theorem execKernelStart_fixed (p : Packet) (s : State) : Goes s (execKernelStart p s) :=
  opcodeRow_fixed _ _ _ _ _ (fun s c => by simp)

@[simp] theorem effKernelUnload_fixed  (s : State) (c : Held) : (effKernelUnload s c).fixed = s.fixed := by
  simp [effKernelUnload]

theorem execKernelUnload_fixed (p : Packet) (s : State) : Goes s (execKernelUnload p s) :=
  opcodeRow_fixed _ _ _ _ _ (fun s c => by simp)

@[simp] theorem effImageInfo_fixed  (s : State) (c : Held) : (effImageInfo s c).fixed = s.fixed := by
  simp [effImageInfo]

theorem execImageInfo_fixed (p : Packet) (s : State) : Goes s (execImageInfo p s) :=
  opcodeRow_fixed _ _ _ _ _ (fun s c => by simp)

@[simp] theorem effImageVerify_fixed  (s : State) (c : Held) : (effImageVerify s c).fixed = s.fixed := by
  unfold effImageVerify
  split <;> simp

theorem execImageVerify_fixed (p : Packet) (s : State) : Goes s (execImageVerify p s) :=
  opcodeRow_fixed _ _ _ _ _ (fun s c => by simp)

@[simp] theorem effBankSelect_fixed  (s : State) (c : Held) : (effBankSelect s c).fixed = s.fixed := by
  unfold effBankSelect
  (repeat' split) <;> simp [apply_ite State.fixed, apply_ite Prod.fst]

theorem execBankSelect_fixed (p : Packet) (s : State) : Goes s (execBankSelect p s) :=
  opcodeRow_fixed _ _ _ _ _ (fun s c => by simp)

@[simp] theorem effRollbackAdvance_fixed  (s : State) (c : Held) : (effRollbackAdvance s c).fixed = s.fixed := by
  simp [effRollbackAdvance]

theorem execRollbackAdvance_fixed (p : Packet) (s : State) : Goes s (execRollbackAdvance p s) :=
  opcodeRow_fixed _ _ _ _ _ (fun s c => by simp)

end Sys2Proof.Machine
end

