-- ==== Sys2Proof/Laws/Mem.lean ====
section
/-! SUPPORT. Memory: every write keeps the canonical form, a read gives what was written, and a write leaves every other
address alone. -/
namespace Sys2Proof.Machine

variable {d : Nat → Byte}

theorem Mem.above_mono {a b : Nat} {m : Mem} (h : Mem.above b m = true) (hab : a ≤ b) : Mem.above a m = true := by
  cases m with
  | nil => rfl
  | cons e t => simp only [Mem.above, decide_eq_true_eq] at *; omega

theorem Mem.above_set {a k : Nat} {b : Byte} {m : Mem} (h : Mem.above k m = true) (hw : Mem.wf d m = true) (hk : k < a) :
    Mem.above k (Mem.set d m a b) = true := by
  cases m with
  | nil =>
    unfold Mem.set
    split
    · rfl
    · simpa [Mem.above] using hk
  | cons e t =>
    obtain ⟨j, x⟩ := e
    simp only [Mem.above, decide_eq_true_eq] at h
    simp only [Mem.wf, Bool.and_eq_true] at hw
    unfold Mem.set
    split
    · split
      · simpa [Mem.above] using h
      · simpa [Mem.above] using hk
    · split
      · split
        · exact Mem.above_mono hw.1.1 (by omega)
        · simpa [Mem.above] using hk
      · simpa [Mem.above] using h

/-- A byte written keeps the canonical form. -/
theorem Mem.set_wf (m : Mem) (a : Nat) (b : Byte) (h : Mem.wf d m = true) : Mem.wf d (Mem.set d m a b) = true := by
  induction m with
  | nil =>
    unfold Mem.set
    split
    · rfl
    · simpa [Mem.wf, Mem.above] using ‹_›
  | cons e t ih =>
    obtain ⟨k, x⟩ := e
    have hw := h
    simp only [Mem.wf, Bool.and_eq_true, Bool.not_eq_true', decide_eq_false_iff_not] at h
    unfold Mem.set
    split
    · split
      · exact hw
      · rename_i hlt hne
        simp only [Mem.wf, Mem.above, Bool.and_eq_true, decide_eq_true_eq, Bool.not_eq_true', decide_eq_false_iff_not]
        exact ⟨⟨hlt, hne⟩, h⟩
    · split
      · split
        · exact h.2
        · rename_i heq hne
          subst heq
          simp only [Mem.wf, Bool.and_eq_true, Bool.not_eq_true', decide_eq_false_iff_not]
          exact ⟨⟨h.1.1, hne⟩, h.2⟩
      · simp only [Mem.wf, Bool.and_eq_true, Bool.not_eq_true', decide_eq_false_iff_not]
        exact ⟨⟨Mem.above_set h.1.1 h.2 (by omega), h.1.2⟩, ih h.2⟩

/-- Bytes written keep the canonical form. -/
theorem Mem.write_wf (m : Mem) (a : Nat) (bs : List Byte) (h : Mem.wf d m = true) : Mem.wf d (Mem.write d m a bs) = true := by
  induction bs generalizing m a with
  | nil => exact h
  | cons b t ih => exact ih _ _ (Mem.set_wf m a b h)

@[simp] theorem Mem.nil_wf : Mem.wf d [] = true := rfl

theorem Mem.get_above {a : Nat} {m : Mem} (h : Mem.above a m = true) : Mem.get d m a = d a := by
  cases m with
  | nil => rfl
  | cons e t =>
    simp only [Mem.above, decide_eq_true_eq] at h
    unfold Mem.get
    rw [if_neg (by omega), if_pos h]

/-- The byte written is read back. -/
theorem Mem.get_set_same (m : Mem) (a : Nat) (b : Byte) (h : Mem.wf d m = true) : Mem.get d (Mem.set d m a b) a = b := by
  induction m with
  | nil =>
    unfold Mem.set
    split
    · simp_all [Mem.get]
    · simp [Mem.get]
  | cons e t ih =>
    obtain ⟨k, x⟩ := e
    simp only [Mem.wf, Bool.and_eq_true] at h
    unfold Mem.set
    split
    · split
      · rename_i hlt he
        rw [he]
        exact Mem.get_above (by simpa [Mem.above] using hlt)
      · simp [Mem.get]
    · split
      · split
        · rename_i ha he
          subst ha
          rw [he]
          exact Mem.get_above h.1.1
        · simp [Mem.get]
      · rename_i h1 h2
        rw [Mem.get, if_neg h2, if_neg h1]
        exact ih h.2

/-- Every other address reads as before. -/
theorem Mem.get_set_other (m : Mem) (a c : Nat) (b : Byte) (h : Mem.wf d m = true) (hc : c ≠ a) :
    Mem.get d (Mem.set d m a b) c = Mem.get d m c := by
  induction m with
  | nil =>
    unfold Mem.set
    split
    · rfl
    · simp [Mem.get, hc]
  | cons e t ih =>
    obtain ⟨k, x⟩ := e
    simp only [Mem.wf, Bool.and_eq_true] at h
    unfold Mem.set
    split
    · split
      · rfl
      · rename_i hlt hne
        rw [Mem.get, if_neg hc]
        split
        · rename_i hca
          rw [Mem.get, if_neg (by omega), if_pos (by omega)]
        · rfl
    · split
      · rename_i ha
        subst ha
        split
        · rw [Mem.get, if_neg hc]
          split
          · exact Mem.get_above (Mem.above_mono h.1.1 (by omega))
          · rfl
        · simp [Mem.get, hc]
      · rw [Mem.get, Mem.get]
        rw [ih h.2]

/-- A write leaves every address below it. -/
theorem Mem.get_write_below (m : Mem) (a c : Nat) (bs : List Byte) (h : Mem.wf d m = true) (hc : c < a) :
    Mem.get d (Mem.write d m a bs) c = Mem.get d m c := by
  induction bs generalizing m a with
  | nil => rfl
  | cons b t ih =>
    rw [Mem.write, ih _ _ (Mem.set_wf m a b h) (by omega)]
    exact Mem.get_set_other m a c b h (by omega)

/-- Bytes below a write read as before. -/
theorem Mem.read_write_below (m : Mem) (a c k : Nat) (bs : List Byte) (h : Mem.wf d m = true) (hc : c + k ≤ a) :
    Mem.read d (Mem.write d m a bs) c k = Mem.read d m c k := by
  induction k generalizing c with
  | zero => rfl
  | succ k ih => rw [Mem.read, Mem.read, Mem.get_write_below m a c bs h (by omega), ih (c + 1) (by omega)]

/-- The bytes written are read back. -/
theorem Mem.read_write_same (m : Mem) (a : Nat) (bs : List Byte) (h : Mem.wf d m = true) :
    Mem.read d (Mem.write d m a bs) a bs.length = bs := by
  induction bs generalizing m a with
  | nil => rfl
  | cons b t ih =>
    have hw := Mem.set_wf (d := d) m a b h
    rw [List.length_cons, Mem.read, Mem.write, Mem.get_write_below _ _ _ _ hw (by omega), Mem.get_set_same m a b h, ih _ _ hw]

/-- What bytes of a number spell. -/
theorem leNat_leBytes (k x : Nat) : leNat (leBytes k x) = x % 256 ^ k := by
  induction k generalizing x with
  | zero => simp [leBytes, leNat, Nat.mod_one]
  | succ k ih =>
    rw [leBytes, leNat, ih, BitVec.toNat_ofNat, show (256 : Nat) ^ (k + 1) = 256 * 256 ^ k from Nat.pow_succ', Nat.mod_mul]

/-- A word written is read back. -/
theorem Mem.word_write_same (m : Mem) (a : Nat) (x : Word) (h : Mem.wf d m = true) :
    Mem.word d (Mem.write d m a (leBytes 4 x.toNat)) a = x := by
  have e := Mem.read_write_same (d := d) m a (leBytes 4 x.toNat) h
  rw [show (leBytes 4 x.toNat).length = 4 from rfl] at e
  rw [Mem.word, e, leNat_leBytes]
  exact BitVec.eq_of_toNat_eq (by have := x.isLt; simp; omega)

end Sys2Proof.Machine
end

