-- ==== Sys2Proof/Laws/Vavis.lean ====
section
/-! SUPPORT. What one Vavis instruction can do: the frame of an instruction, of a store, of a trap and of a control transfer. -/

set_option linter.all false
set_option maxRecDepth 20000

open Sys2Proof Sys2Proof.Machine

namespace Sys2Proof.Machine

@[simp] theorem VCtx.putProd_v (x : VCtx) (p) : (x.putProd p).v = x.v := rfl
@[simp] theorem VCtx.putProd_fl (x : VCtx) (p) : (x.putProd p).fl = x.fl := rfl
@[simp] theorem VCtx.putProd_acc (x : VCtx) (p) : (x.putProd p).acc = x.acc := rfl
@[simp] theorem VCtx.putProd_rnd (x : VCtx) (p) : (x.putProd p).rnd = x.rnd := rfl
@[simp] theorem VCtx.putProd_sat (x : VCtx) (p) : (x.putProd p).sat = x.sat := rfl
@[simp] theorem VCtx.putProd_pc (x : VCtx) (p) : (x.putProd p).pc = x.pc := rfl
@[simp] theorem VCtx.putProd_loops (x : VCtx) (p) : (x.putProd p).loops = x.loops := rfl
@[simp] theorem VCtx.putProd_rpt (x : VCtx) (p) : (x.putProd p).rpt = x.rpt := rfl
@[simp] theorem VCtx.settle_v (x : VCtx) : x.settle.v = x.v := by unfold VCtx.settle; dsimp only; split <;> simp [-Fin.getElem_fin]
@[simp] theorem VCtx.settle_fl (x : VCtx) : x.settle.fl = x.fl := by unfold VCtx.settle; dsimp only; split <;> simp [-Fin.getElem_fin]
@[simp] theorem VCtx.settle_acc (x : VCtx) : x.settle.acc = x.acc := by unfold VCtx.settle; dsimp only; split <;> simp [-Fin.getElem_fin]
@[simp] theorem VCtx.settle_rnd (x : VCtx) : x.settle.rnd = x.rnd := by unfold VCtx.settle; dsimp only; split <;> simp [-Fin.getElem_fin]
@[simp] theorem VCtx.settle_sat (x : VCtx) : x.settle.sat = x.sat := by unfold VCtx.settle; dsimp only; split <;> simp [-Fin.getElem_fin]
@[simp] theorem VCtx.settle_pc (x : VCtx) : x.settle.pc = x.pc := by unfold VCtx.settle; dsimp only; split <;> simp [-Fin.getElem_fin]
@[simp] theorem VCtx.settle_loops (x : VCtx) : x.settle.loops = x.loops := by unfold VCtx.settle; dsimp only; split <;> simp [-Fin.getElem_fin]
@[simp] theorem VCtx.settle_rpt (x : VCtx) : x.settle.rpt = x.rpt := by unfold VCtx.settle; dsimp only; split <;> simp [-Fin.getElem_fin]
@[simp] theorem VCtx.issue_v (x : VCtx) (r a) : (x.issue r a).v = x.v := by unfold VCtx.issue; simp [-Fin.getElem_fin]
@[simp] theorem VCtx.issue_fl (x : VCtx) (r a) : (x.issue r a).fl = x.fl := by unfold VCtx.issue; simp [-Fin.getElem_fin]
@[simp] theorem VCtx.issue_acc (x : VCtx) (r a) : (x.issue r a).acc = x.acc := by unfold VCtx.issue; simp [-Fin.getElem_fin]
@[simp] theorem VCtx.issue_rnd (x : VCtx) (r a) : (x.issue r a).rnd = x.rnd := by unfold VCtx.issue; simp [-Fin.getElem_fin]
@[simp] theorem VCtx.issue_sat (x : VCtx) (r a) : (x.issue r a).sat = x.sat := by unfold VCtx.issue; simp [-Fin.getElem_fin]
@[simp] theorem VCtx.issue_pc (x : VCtx) (r a) : (x.issue r a).pc = x.pc := by unfold VCtx.issue; simp [-Fin.getElem_fin]
@[simp] theorem VCtx.issue_loops (x : VCtx) (r a) : (x.issue r a).loops = x.loops := by unfold VCtx.issue; simp [-Fin.getElem_fin]
@[simp] theorem VCtx.issue_rpt (x : VCtx) (r a) : (x.issue r a).rpt = x.rpt := by unfold VCtx.issue; simp [-Fin.getElem_fin]
@[simp] theorem VCtx.issue_atEnd (x : VCtx) (r a) : (x.issue r a).atEnd = x.atEnd := by unfold VCtx.atEnd; simp [-Fin.getElem_fin]
/-- The zero-overhead loop test changes the pc and the loops only (19 R521). -/
theorem loopTest_keep (l) (x : VCtx) : (loopTest l x).v = x.v ∧ (loopTest l x).fl = x.fl ∧ (loopTest l x).acc = x.acc ∧ (loopTest l x).rnd = x.rnd ∧ (loopTest l x).sat = x.sat ∧ (loopTest l x).cyc = x.cyc ∧ (loopTest l x).prods = x.prods ∧ (loopTest l x).loaded = x.loaded ∧ (loopTest l x).mph = x.mph ∧ (loopTest l x).mpl = x.mpl := by
  induction l generalizing x with
  | nil => simp [-Fin.getElem_fin, loopTest]
  | cons a t ih =>
    simp only [loopTest]
    split
    · split
      · simp [-Fin.getElem_fin]
      · simpa [-Fin.getElem_fin] using ih _
    · exact ih _

/-- Going to the next instruction changes the pc, the loops and the repeat only (19 R521, R522). -/
theorem next_keep (x : VCtx) : (x.next).v = x.v ∧ (x.next).fl = x.fl ∧ (x.next).acc = x.acc ∧ (x.next).rnd = x.rnd ∧ (x.next).sat = x.sat ∧ (x.next).cyc = x.cyc ∧ (x.next).prods = x.prods ∧ (x.next).loaded = x.loaded ∧ (x.next).mph = x.mph ∧ (x.next).mpl = x.mpl := by
  unfold VCtx.next; split
  · simp [-Fin.getElem_fin]
  · simpa [-Fin.getElem_fin] using loopTest_keep _ _

@[simp] theorem next_v (x : VCtx) : x.next.v = x.v := (next_keep x).1
@[simp] theorem next_fl (x : VCtx) : x.next.fl = x.fl := (next_keep x).2.1
@[simp] theorem next_acc (x : VCtx) : x.next.acc = x.acc := (next_keep x).2.2.1
@[simp] theorem next_rnd (x : VCtx) : x.next.rnd = x.rnd := (next_keep x).2.2.2.1
@[simp] theorem next_sat (x : VCtx) : x.next.sat = x.sat := (next_keep x).2.2.2.2.1
@[simp] theorem next_cyc (x : VCtx) : x.next.cyc = x.cyc := (next_keep x).2.2.2.2.2.1
@[simp] theorem next_prods (x : VCtx) : x.next.prods = x.prods := (next_keep x).2.2.2.2.2.2.1
@[simp] theorem next_loaded (x : VCtx) : x.next.loaded = x.loaded := (next_keep x).2.2.2.2.2.2.2.1
@[simp] theorem next_mph (x : VCtx) : x.next.mph = x.mph := (next_keep x).2.2.2.2.2.2.2.2.1
@[simp] theorem next_mpl (x : VCtx) : x.next.mpl = x.mpl := (next_keep x).2.2.2.2.2.2.2.2.2
theorem KSlot.spend_keep (k : KSlot) (c : CoreId) (f n : Nat) : (k.spend c f n).st = k.st ∧ (k.spend c f n).busy = k.busy ∧ (k.spend c f n).code = k.code ∧ (k.spend c f n).inw = k.inw ∧ (k.spend c f n).data = k.data ∧ (k.spend c f n).outw = k.outw := by
  unfold KSlot.spend; split; · simp [-Fin.getElem_fin]
  split <;> simp [-Fin.getElem_fin]
/-- Cycles within the budget leave the invocation running (19 R531). -/
theorem KSlot.spend_room (k : KSlot) (c : CoreId) (f n : Nat) (hs : k.spent = false) (h : n < k.room c f) : (k.spend c f n).spent = false := by
  have hn : ¬ k.room c f ≤ n := by omega
  unfold KSlot.spend; split
  · exact hs
  · split <;> simp [hs, hn]
theorem vset_self {α : Type} {n : Nat} (v : Vector α n) (i : Fin n) (x : α) (h : i.val < n) : (v.set i.val x h)[i] = x := by simp [-Fin.getElem_fin, Fin.getElem_fin]
theorem vset_ne {α : Type} {n : Nat} (v : Vector α n) (i k : Fin n) (x : α) (h : i.val < n) (hk : ¬ k = i) : (v.set i.val x h)[k] = v[k] := by
  rw [Fin.getElem_fin, Fin.getElem_fin, Vector.getElem_set_ne]; intro e; exact hk (Fin.ext e.symm)
/-- A context that can run an instruction is not halted, and its budget covers the cycles (19 R531). -/
theorem canRun_cases {s : State} {c : Ctx} {reads acc n} (h : s.canRun c reads acc n = true) :
    s.halted c = false ∧ s.within c (((s.vctx c).issue reads acc).cyc - (s.vctx c).cyc + n) = true := by
  simpa [State.canRun] using h

/-- An instruction whose own effect answers: its core alone changes, its memories do not, and its context is the effect with its cycles counted (19 R515). -/
theorem issueRun_next (s : State) (c : Ctx) (reads acc) (g : State → VCtx → Option (State × VCtx × Nat)) (y : VCtx) (n : Nat) (hr : s.canRun c reads acc n = true)
   (hg : g s ((s.vctx c).issue reads acc) = some (s, y, n)) :
   ∃ t, s.issueRun c reads acc g = .next t ∧ s.onlyCore t c ∧ s.sameMem t c ∧ t.vctx c = { y with cyc := ((s.vctx c).issue reads acc).cyc + n } := by
  obtain ⟨hh, hw⟩ := canRun_cases hr
  refine ⟨_, rfl, ?_⟩
  simp only [hh, hg, hw]
  clear hr hw
  obtain ⟨core, kern⟩ := c
  cases kern
  · simp [-Fin.getElem_fin, State.spend, State.onlyCore, State.sameMem, State.modV, State.modCore, State.vctx, vset_self]
    intro k hk; exact vset_ne _ _ _ _ _ hk
  · simp [-Fin.getElem_fin, State.spend, State.onlyCore, State.sameMem, State.modV, State.modCore, State.vctx, State.frameNo, KSlot.spend_keep, vset_self]
    intro k hk; rw [vset_ne _ _ _ _ _ hk]

/-- An arithmetic instruction ends with the registers, flags and accumulators its function gives. -/
theorem vRun_ran (s : State) (c : Ctx) (reads acc) (n : Nat) (f : VCtx → VCtx) (hr : s.canRun c reads acc n = true) (v fl a)
  (h : ∀ x : VCtx, x.v = (s.vctx c).v → x.fl = (s.vctx c).fl → x.acc = (s.vctx c).acc → x.rnd = (s.vctx c).rnd → x.sat = (s.vctx c).sat → (f x).v = v ∧ (f x).fl = fl ∧ (f x).acc = a ∧ (f x).rnd = x.rnd ∧ (f x).sat = x.sat) :
  ∃ t, s.vRun c reads acc n f = .next t ∧ s.ran t c v fl a := by
  obtain ⟨t, h1, h2, h3, h4⟩ := issueRun_next s c reads acc (fun s x => some (s, (f x).next, n)) _ _ hr rfl
  refine ⟨t, h1, h2, h3, ?_⟩
  have := h ((s.vctx c).issue reads acc) (by simp [-Fin.getElem_fin]) (by simp [-Fin.getElem_fin]) (by simp [-Fin.getElem_fin]) (by simp [-Fin.getElem_fin]) (by simp [-Fin.getElem_fin])
  simp [-Fin.getElem_fin, State.regsAre, h4, this]

theorem VCtx.issue_w (s : State) (c : Ctx) (r a) : ((s.vctx c).issue r a).v = (s.vctx c).v := by simp [-Fin.getElem_fin]
/-- A store of a firmware context changes its data memory and nothing else of the core. -/
theorem next_store_fw (s : State) (core : CoreId) (reads) (F : State → VCtx → Option State) (m : Mem) (hr : s.canRun ⟨core, false⟩ reads none 1 = true)
  (hF : F s ((s.vctx ⟨core, false⟩).issue reads none) = some (s.modCore core fun v => { v with data := m })) :
  ∃ t, s.issueRun ⟨core, false⟩ reads none (fun s x => (F s x).map fun s' => (s', x.next, 1)) = .next t ∧ s.onlyCore t ⟨core, false⟩ ∧
    s.regsAre t ⟨core, false⟩ (s.vctx ⟨core, false⟩).v (s.vctx ⟨core, false⟩).fl (s.vctx ⟨core, false⟩).acc ∧ t.core[core].data = m ∧ t.core[core].slot = s.core[core].slot := by
  obtain ⟨hh, hw⟩ := canRun_cases hr
  refine ⟨_, rfl, ?_⟩
  simp only [hh, hF, hw, Option.map_some]
  simp [-Fin.getElem_fin, State.spend, State.onlyCore, State.regsAre, State.modV, State.modCore, State.vctx, vset_self]
  intro k hk; rw [vset_ne _ _ _ _ _ hk]

/-- A store of a kernel changes the data or the OUT window of its slot and nothing else of the core (19 R527). -/
theorem next_store_kn (s : State) (core : CoreId) (reads) (F : State → VCtx → Option State) (m o : Mem) (hr : s.canRun ⟨core, true⟩ reads none 1 = true)
  (hF : F s ((s.vctx ⟨core, true⟩).issue reads none) = some (s.modCore core fun v => { v with slot := { v.slot with data := m, outw := o } })) :
  ∃ t, s.issueRun ⟨core, true⟩ reads none (fun s x => (F s x).map fun s' => (s', x.next, 1)) = .next t ∧ s.onlyCore t ⟨core, true⟩ ∧
    s.regsAre t ⟨core, true⟩ (s.vctx ⟨core, true⟩).v (s.vctx ⟨core, true⟩).fl (s.vctx ⟨core, true⟩).acc ∧ t.core[core].slot.data = m ∧ t.core[core].slot.outw = o ∧ t.core[core].data = s.core[core].data := by
  obtain ⟨hh, hw⟩ := canRun_cases hr
  refine ⟨_, rfl, ?_⟩
  simp only [hh, hF, hw, Option.map_some]
  simp [-Fin.getElem_fin, State.spend, State.onlyCore, State.regsAre, State.modV, State.modCore, State.vctx, vset_self, State.frameNo, KSlot.spend_keep]
  intro k hk; rw [vset_ne _ _ _ _ _ hk]

theorem leBytes_len (k n : Nat) : (leBytes k n).length = k := by
  induction k generalizing n with
  | zero => rfl
  | succ k ih => simp [-Fin.getElem_fin, leBytes, ih]
theorem vStore_fw (s : State) (core : CoreId) (a : Word) (k n : Nat) (h1 : a.toNat % k = 0) (h2 : inside a.toNat k (Config.dataBase core) (fwDataSize core) = true) :
  s.vStore ⟨core, false⟩ a (leBytes k n) = some (s.modCore core fun v => { v with data := Mem.write zeroByte s.core[core].data (a.toNat - Config.dataBase core) (leBytes k n) }) := by
  simp [-Fin.getElem_fin, State.vStore, leBytes_len, h1, h2, State.modCore]
theorem vStore_data (s : State) (core : CoreId) (a : Word) (k n : Nat) (h1 : a.toNat % k = 0) (h2 : inside a.toNat k 0x10000 8192 = true) :
  s.vStore ⟨core, true⟩ a (leBytes k n) = some (s.modCore core fun v => { v with slot := { v.slot with data := Mem.write zeroByte s.core[core].slot.data (a.toNat - 0x10000) (leBytes k n), outw := s.core[core].slot.outw } }) := by
  simp [-Fin.getElem_fin, State.vStore, leBytes_len, h1, h2, State.modCore]
theorem vStore_out (s : State) (core : CoreId) (a : Word) (k n : Nat) (h1 : a.toNat % k = 0) (h2 : inside a.toNat k 0x21000 1024 = true) :
  s.vStore ⟨core, true⟩ a (leBytes k n) = some (s.modCore core fun v => { v with slot := { v.slot with data := s.core[core].slot.data, outw := Mem.write zeroByte s.core[core].slot.outw (a.toNat - 0x21000) (leBytes k n) } }) := by
  have h3 : inside a.toNat k 0x10000 8192 = false := by simp [-Fin.getElem_fin, inside] at *; omega
  simp [-Fin.getElem_fin, State.vStore, leBytes_len, h1, h2, h3, State.modCore]
/-- A trap of a kernel ends it as faulted; its OUT block and the ports stay (19 R518). -/
theorem trap_kernel (s : State) (c : Ctx) (hk : c.kernel = true) (hs : c.core ≠ coreSB) (hb : s.core[c.core].slot.busy = true) :
   (s.trap' c).core[c.core].slot.st = .faulted ∧ (s.trap' c).core[c.core].slot.busy = false ∧ (s.trap' c).core[c.core].slot.outw = s.core[c.core].slot.outw ∧ (s.trap' c).core[c.core].slot.data = s.core[c.core].slot.data ∧ (s.trap' c).port = s.port ∧ (s.trap' c).plat = s.plat ∧ (s.trap' c).tt = s.tt := by
  obtain ⟨core, kern⟩ := c
  simp only at hk hs hb; subst hk
  have e : ∀ (z : State) (k), (z.completeOpt k stOk (leBytes 4 0)).core = z.core := by intro z k; simp [-Fin.getElem_fin]
  simp [-Fin.getElem_fin, State.trap', State.kernelEnd, State.modV, State.modCore, vset_self, hb, hs, State.kernelEvent, VCore.leave]

/-- An instruction that traps in a kernel ends the kernel (19 R518); the trap's cycle is one of its budget (log entry 163). -/
theorem issueRun_trap (s : State) (c : Ctx) (reads acc) (g : State → VCtx → Option (State × VCtx × Nat)) (hr : s.canRun c reads acc 2 = true)
   (hg : g s ((s.vctx c).issue reads acc) = none) (hk : c.kernel = true) (hs : c.core ≠ coreSB) (hb : s.core[c.core].slot.busy = true) :
   ∃ t, s.issueRun c reads acc g = .next t ∧ t.core[c.core].slot.st = .faulted ∧ t.core[c.core].slot.busy = false ∧ t.core[c.core].slot.outw = s.core[c.core].slot.outw ∧ t.core[c.core].slot.data = s.core[c.core].slot.data ∧ t.port = s.port ∧ t.plat = s.plat ∧ t.tt = s.tt := by
  obtain ⟨hh, hw⟩ := canRun_cases hr
  obtain ⟨core, kern⟩ := c
  simp only at hk hs hb; subst hk
  have hsp : s.core[core].slot.spent = false := by simp [State.halted, hb] at hh; exact hh.2
  obtain ⟨x, hx⟩ : ∃ x, x = (s.vctx ⟨core, true⟩).issue reads acc := ⟨_, rfl⟩
  obtain ⟨stall, hst⟩ : ∃ n, n = x.cyc - (s.vctx ⟨core, true⟩).cyc := ⟨_, rfl⟩
  rw [← hx] at hg hw
  rw [← hst] at hw
  have hlt : stall + 1 < s.core[core].slot.room core s.frameNo := by
    simp [-Fin.getElem_fin, State.within] at hw; omega
  have h1 : s.within ⟨core, true⟩ (stall + 1) = true := by
    simp [-Fin.getElem_fin, State.within]; omega
  obtain ⟨z, hz⟩ : ∃ z, z = (s.modV ⟨core, true⟩ fun _ => { x with cyc := x.cyc + 1 }).spend ⟨core, true⟩ (stall + 1) := ⟨_, rfl⟩
  have hzc : z.core[core].slot = s.core[core].slot.spend core s.frameNo (stall + 1) := by
    subst hz; simp [-Fin.getElem_fin, State.spend, State.modV, State.modCore, vset_self, State.frameNo]
  have hzb : z.core[core].slot.busy = true := by rw [hzc, (KSlot.spend_keep _ _ _ _).2.1, hb]
  have hzh : z.halted ⟨core, true⟩ = false := by
    have := KSlot.spend_room _ _ _ _ hsp hlt
    rw [← hzc] at this
    simp only [State.halted, hzb, this]; rfl
  have e : s.issueRun ⟨core, true⟩ reads acc g = .next (z.trap' ⟨core, true⟩) := by
    simp only [State.issueRun, State.trapIn, ← hx, ← hst, ← hz, hh, hg, h1, hzh]; rfl
  have hk := trap_kernel z ⟨core, true⟩ rfl hs hzb
  rw [show z.port = s.port by subst hz; rfl, show z.plat = s.plat by subst hz; rfl, show z.tt = s.tt by subst hz; rfl] at hk
  simp only [hzc, (KSlot.spend_keep s.core[core].slot core s.frameNo (stall + 1)).2.2.2.2] at hk
  exact ⟨_, e, hk⟩

/-- A control transfer that is not the last instruction of a loop answers its own effect (19 R521). -/
theorem ctlRun_next (s : State) (c : Ctx) (reads) (g : VCtx → Option (VCtx × Nat)) (he : (s.vctx c).atEnd = false) (y : VCtx) (n : Nat) (hr : s.canRun c reads none n = true)
   (hg : g ((s.vctx c).issue reads none) = some (y, n)) :
   ∃ t, s.ctlRun c reads g = .next t ∧ s.onlyCore t c ∧ s.sameMem t c ∧ t.vctx c = { y with cyc := ((s.vctx c).issue reads none).cyc + n } :=
  issueRun_next s c reads none (fun s x => if x.atEnd then none else (g x).map fun y => (s, y)) y n hr (by simp [-Fin.getElem_fin, he, hg])

/-- A control transfer at a loop end, or one that its own rule stops, traps (19 R521). -/
theorem ctlRun_trap (s : State) (c : Ctx) (reads) (g : VCtx → Option (VCtx × Nat)) (hr : s.canRun c reads none 2 = true)
   (hg : (s.vctx c).atEnd = true ∨ g ((s.vctx c).issue reads none) = none) (hk : c.kernel = true) (hs : c.core ≠ coreSB) (hb : s.core[c.core].slot.busy = true) :
   ∃ t, s.ctlRun c reads g = .next t ∧ t.core[c.core].slot.st = .faulted ∧ t.core[c.core].slot.busy = false ∧ t.core[c.core].slot.outw = s.core[c.core].slot.outw ∧ t.core[c.core].slot.data = s.core[c.core].slot.data ∧ t.port = s.port ∧ t.plat = s.plat ∧ t.tt = s.tt :=
  issueRun_trap s c reads none (fun s x => if x.atEnd then none else (g x).map fun y => (s, y)) hr (by rcases hg with h | h <;> simp [-Fin.getElem_fin, h]) hk hs hb

theorem loopTest_idle (l) (x : VCtx) (h : ∀ k : Fin 3, x.loops[k].active = false) : loopTest l x = { x with pc := x.pc + 4 } := by
  induction l with
  | nil => rfl
  | cons a t ih => simp [-Fin.getElem_fin, loopTest, h a, ih]
/-- With no loop active and no repeat, the next instruction is four bytes on (19 R519). -/
theorem next_idle (x : VCtx) (h : ∀ k : Fin 3, x.loops[k].active = false) (hr : x.rpt ≤ 1) : x.next = { x with pc := x.pc + 4, rpt := 0 } := by
  have : ¬ 1 < x.rpt := by omega
  simp only [VCtx.next, this, if_false]
  rw [loopTest_idle _ _ (by simpa [-Fin.getElem_fin] using h)]

/-- A branch changes the pc, the loops and the repeat only (19 R520). -/
theorem branch_regs (x : VCtx) (t : Word) : (x.branch t).v = x.v ∧ (x.branch t).fl = x.fl ∧ (x.branch t).acc = x.acc ∧ (x.branch t).rnd = x.rnd ∧ (x.branch t).sat = x.sat ∧ (x.branch t).pc = t ∧ (x.branch t).rpt = 0 := by
  unfold VCtx.branch; dsimp only; split <;> simp [-Fin.getElem_fin]

/-- A branch inside every active loop keeps the loops (19 R521). -/
theorem branch_in (x : VCtx) (t : Word) (h : ∀ k : Fin 3, x.loops[k].active = true → x.loops[k].holds t = true) : (x.branch t).loops = x.loops := by
  unfold VCtx.branch; dsimp only; split
  · rfl
  · rename_i k hk; have := List.find?_some hk; simp [-Fin.getElem_fin] at this; have := h k this.1; simp_all [-Fin.getElem_fin]

/-- A branch out of a loop ends it (19 R521). -/
theorem branch_out (x : VCtx) (t : Word) (k : Fin 3) (h : x.loops[k].active = true) (h2 : x.loops[k].holds t = false) : (x.branch t).loops[k].active = false := by
  unfold VCtx.branch; dsimp only; split
  · rename_i hk; have := List.find?_eq_none.mp hk k (by simp [-Fin.getElem_fin]); simp_all [-Fin.getElem_fin]
  · rename_i j hj
    have hle : j ≤ k := by
      rw [List.find?_eq_some_iff_append] at hj
      obtain ⟨_, as, bs, e, h3⟩ := hj
      revert h3 e h h2
      clear * -
      intro h h2 e h3
      by_contra hc
      have hlt : k < j := not_le.mp hc
      have hm : k ∈ as := by
        have hs : List.Pairwise (· < ·) (List.finRange 3) := List.pairwise_lt_finRange 3
        rw [e] at hs
        have hk : k ∈ as ++ j :: bs := by rw [← e]; simp [-Fin.getElem_fin]
        rcases List.mem_append.mp hk with q | q
        · exact q
        · rcases List.mem_cons.mp q with q | q
          · omega
          · have := (List.pairwise_append.mp hs).2.1
            have := (List.pairwise_cons.mp this).1 k q
            exact absurd this (by omega)
      have := h3 k hm
      simp [-Fin.getElem_fin, h, h2] at this
    simp only [Fin.getElem_fin, Vector.getElem_ofFn]
    rw [if_pos (by simpa [-Fin.getElem_fin] using hle)]

/-- YIELD at the end of INIT leaves the kernel running and the core free (19 R531). -/
theorem yield_init (s : State) (c : Ctx) (hh : s.halted c = false) (hk : c.kernel = true) (he : (s.vctx c).atEnd = false) (hb : s.core[c.core].slot.busy = true) (hs : s.core[c.core].slot.st = .staged) (hc : s.core[c.core].slot.initCharge + 1 < initBudget) :
  ∃ t, exec (.yield c) s = .next t ∧ t.core[c.core].slot.st = .running ∧ t.core[c.core].slot.busy = false ∧ t.port = s.port ∧ t.tt = s.tt := by
  simp only [exec, execYield]
  refine ⟨_, rfl, ?_⟩
  obtain ⟨core, kern⟩ := c
  simp only at hk hb hs hc; subst hk
  have hsp : s.core[core].slot.spent = false := by simp [State.halted, hb] at hh; exact hh.2
  have hlt : 1 < s.core[core].slot.room core s.frameNo := by simp only [KSlot.room, hs, if_true]; omega
  have h2 : ∀ x, ((s.modV ⟨core, true⟩ fun _ => x).spend ⟨core, true⟩ 1).halted ⟨core, true⟩ = false := by
    intro x
    have := KSlot.spend_room _ core s.frameNo 1 hsp hlt
    simpa [-Fin.getElem_fin, State.halted, State.spend, State.modV, State.modCore, State.frameNo, vset_self, (KSlot.spend_keep _ _ _ _).2.1, hb] using this
  simp only [hh, VCtx.issue_atEnd, he, h2]
  simp [-Fin.getElem_fin, State.yieldEnd, State.spend, State.modV, State.modCore, vset_self, (KSlot.spend_keep _ _ _ _).1, (KSlot.spend_keep _ _ _ _).2.1, hb, hs, State.kernelEvent, VCore.leave]

/-- The form of issueRun_next a completion statement cites. -/
theorem issueRun_post (s : State) (c : Ctx) (reads acc) (g : State → VCtx → Option (State × VCtx × Nat)) (P : State → Prop) (y : VCtx) (n : Nat) (hr : s.canRun c reads acc n = true)
   (hg : g s ((s.vctx c).issue reads acc) = some (s, y, n))
   (h : ∀ t, s.onlyCore t c → s.sameMem t c → t.vctx c = { y with cyc := ((s.vctx c).issue reads acc).cyc + n } → P t) :
   ∃ t, s.issueRun c reads acc g = .next t ∧ P t := by
  obtain ⟨t, g1, g2, g3, g4⟩ := issueRun_next s c reads acc g y n hr hg
  exact ⟨t, g1, h t g2 g3 g4⟩

/-- The form of ctlRun_next a completion statement cites. -/
theorem ctlRun_post (s : State) (c : Ctx) (reads) (g : VCtx → Option (VCtx × Nat)) (P : State → Prop) (he : (s.vctx c).atEnd = false) (y : VCtx) (n : Nat) (hr : s.canRun c reads none n = true)
   (hg : g ((s.vctx c).issue reads none) = some (y, n))
   (h : ∀ t, s.onlyCore t c → s.sameMem t c → t.vctx c = { y with cyc := ((s.vctx c).issue reads none).cyc + n } → P t) :
   ∃ t, s.ctlRun c reads g = .next t ∧ P t := by
  obtain ⟨t, g1, g2, g3, g4⟩ := ctlRun_next s c reads g he y n hr hg
  exact ⟨t, g1, h t g2 g3 g4⟩

theorem modV_self (s : State) (c : Ctx) : (s.modV c fun _ => s.vctx c) = s := by
  have e : ∀ (core : CoreId), s.core.set core.val s.core[core] core.isLt = s.core := by intro core; exact Vector.set_getElem_self _
  obtain ⟨core, kern⟩ := c
  cases kern <;> simp [-Fin.getElem_fin, State.modV, State.vctx, State.modCore, e]

end Sys2Proof.Machine
end

