-- ==== Sys2Proof/Laws/Rows.lean ====
section
/-! SUPPORT. What an opcode row can do at its turn: its checks, its refusal, its reply, its waiting; and the operations claims and the store share. -/

set_option linter.all false
set_option maxRecDepth 20000

open Sys2Proof Sys2Proof.Machine

namespace Sys2Proof.Machine

/-- An opcode row at its turn, with every check met, takes its effect (17 R458, R465). -/
theorem row_turn (op : BitVec 16) (j : Judge) (e : Effect) (p : Packet) (s : State) (h1 : s.turn op p) (h2 : s.coreCheck op p = none) (hj : j s.rest p = none) :
  ∃ ct, opcodeRow op j e p s = .next (e s.rest ⟨op, p, ct⟩) := by
  unfold State.turn at h1
  cases hi : s.inbox with
  | nil => simp [-Fin.getElem_fin, hi] at h1
  | cons c l =>
    simp only [hi] at h1
    obtain ⟨a, b, h3, h4⟩ := h1
    obtain ⟨o, p', ct⟩ := c
    simp only at a b; subst a; subst b
    refine ⟨ct, ?_⟩
    have hany : (s.inbox.any fun c => c.op = o && c.p = p') = true := by simp [-Fin.getElem_fin, hi]
    have e1 : ({ s with inbox := s.inbox.tail } : State) = s.rest := rfl
    have e2 : s.rest.coreCheck o p' = none := h2
    have e3 : s.rest.waiting = s.waiting := rfl
    have ht : ∀ c : Held, s.takeFront c j e = (if checkOnly c.p then s.rest.replyTag c.p c.op (((s.rest.coreCheck c.op c.p).or (j s.rest c.p)).getD stOk) [] else if s.rest.mustWait s.rest.waiting c then { s.rest with waiting := s.rest.waiting ++ [c] } else s.rest.begin' c j e) := fun c => rfl
    have hgoal : opcodeRow o j e p' s = .next (match s.inbox with | c :: _ => if c.op = o && c.p = p' && !s.outranked c then s.takeFront c j e else s | [] => s) := by
      unfold opcodeRow; dsimp only; rw [if_pos (by simp [-Fin.getElem_fin, hany])]; try rfl
    rw [hgoal, hi]
    simp only [decide_true, Bool.and_self, Bool.not_false, h4.2, if_true, ht, h3, Bool.false_eq_true, if_false, e3, h4.1, State.begin', e2, hj, Option.or_none]

theorem rest_host (s : State) : s.rest.host = s.host := rfl
theorem reads_ok (s : State) (p : Packet) (op : BitVec 16) (r : List Byte) (ct) : s.reads (s.rest.ok ⟨op, p, ct⟩ r) p op r := by
  refine ⟨?_, ?_, ?_, ?_⟩
  · simp [-Fin.getElem_fin, State.answered, State.ok, State.replyTag, State.modHost, vset_self, rest_host]
  · rfl
  · intro i hi; simp only [State.ok, State.replyTag, State.modHost, rest_host]; exact vset_ne _ _ _ _ _ hi
  · simp [-Fin.getElem_fin, State.ok, State.replyTag, State.modHost, vset_self, rest_host]
theorem answered_ok (s z : State) (p : Packet) (op : BitVec 16) (r : List Byte) (ct) (h1 : z.host[p.host.ix].replies = s.host[p.host.ix].replies) (h2 : z.host[p.host.ix].held = s.host[p.host.ix].held) : s.answered (z.ok ⟨op, p, ct⟩ r) p op stOk r := by
  simp [-Fin.getElem_fin, State.answered, State.ok, State.replyTag, State.modHost, vset_self, h1, h2]
theorem accept_host (s : State) (c : Held) : (s.accept c).host[c.p.host.ix].replies = s.host[c.p.host.ix].replies ++ [{ tag := c.p.tag, status := stAccepted, opcode := c.op, payload := [] }] ∧ (s.accept c).active = s.active ++ [c] := by
  simp [-Fin.getElem_fin, State.accept, State.modHost, vset_self]
theorem accepted_of (s z : State) (p : Packet) (op : BitVec 16) (ct) (h1 : z.host[p.host.ix].replies = (s.rest.accept ⟨op, p, ct⟩).host[p.host.ix].replies) (h2 : z.active = (s.rest.accept ⟨op, p, ct⟩).active) : s.accepted z p op := by
  have := accept_host s.rest ⟨op, p, ct⟩
  simp only at this
  exact ⟨by rw [h1, this.1, rest_host], by rw [h2, this.2]; simp [-Fin.getElem_fin, CmdRef.of]; rfl⟩
theorem slotNamed_of (s : State) (p : Packet) (k : PlatId) (i : Fin 8) (x : Sketch) (h1 : Obj.ofTarget p.target = some (.plat k)) (h2 : (p.payload.headD 0).toNat = i.val) (h3 : s.plat[k].slots[i] = some x) : s.slotNamed p = some (k, i, x) := by
  have h4 : platOfTarget p.target = some k := by simp [-Fin.getElem_fin, platOfTarget, h1]
  have h5 : (p.payload.headD 0).toNat < 8 := by rw [h2]; exact i.isLt
  have h6 : (⟨(p.payload.headD 0).toNat, h5⟩ : Fin 8) = i := Fin.ext h2
  unfold State.slotNamed
  simp only [h4, h5, dif_pos, h6, h3]; rfl
def refOf (op : BitVec 16) (p : Packet) : CmdRef := { host := p.host, tag := p.tag, op := op, target := p.target }
theorem claimSet_claim (s : State) (n m : PortId) (new) (c : Nat) : (s.claimSet n new c).claim[m] = if m = n then new else s.claim[m] := by
  have h : (s.claimSet n new c).claim = if s.claim[n] = new then s.claim else s.claim.set n.val new n.isLt := by
    unfold State.claimSet; split <;> simp [-Fin.getElem_fin]
  simp only [h]
  by_cases e : s.claim[n] = new
  · simp only [e, if_true]; split
    · rename_i e2; subst e2; exact e
    · rfl
  · simp only [e, if_false]; split
    · rename_i e2; subst e2; exact vset_self _ _ _ _
    · rename_i e2; exact vset_ne _ _ _ _ _ e2
/-- Claiming a set of ports leaves every other port's claim (15 R415). -/
theorem claimFold (l : List PortId) (s : State) (m : PortId) (new) (c : Nat) : (l.foldl (fun s n => s.claimSet n new c) s).claim[m] = if m ∈ l then new else s.claim[m] := by
  induction l generalizing s with
  | nil => simp [-Fin.getElem_fin]
  | cons a t ih =>
    simp only [List.foldl_cons, ih, claimSet_claim, List.mem_cons]
    by_cases h1 : m ∈ t <;> by_cases h2 : m = a <;> simp [-Fin.getElem_fin, h1, h2]

/-- Releasing a set of ports releases those the host holds (15 R416). -/
theorem claimFoldR (l : List PortId) (hl : l.Nodup) (s : State) (m : PortId) (h : HostPort) (c : Nat) : (l.foldl (fun s n => if s.claim[n] = some h then s.claimSet n none c else s) s).claim[m] = if m ∈ l ∧ s.claim[m] = some h then none else s.claim[m] := by
  induction l generalizing s with
  | nil => simp [-Fin.getElem_fin]
  | cons a t ih =>
    have ha := (List.nodup_cons.mp hl).1
    simp only [List.foldl_cons, ih (List.nodup_cons.mp hl).2, List.mem_cons]
    by_cases h0 : s.claim[a] = some h
    · simp only [h0, if_true, claimSet_claim]
      by_cases h2 : m = a
      · subst h2; simp [-Fin.getElem_fin, ha, h0]
      · simp [-Fin.getElem_fin, h2]
    · simp only [h0, if_false]
      by_cases h2 : m = a
      · subst h2; simp [-Fin.getElem_fin, ha, h0]
      · simp [-Fin.getElem_fin, h2]

theorem mem_maskPorts (m : Nat) (n : PortId) : n ∈ maskPorts m ↔ m.testBit n.val = true := by simp [-Fin.getElem_fin, maskPorts, allPorts]
theorem maskPorts_nodup (m : Nat) : (maskPorts m).Nodup := (List.nodup_finRange 24).filter _
theorem portOf_target (t : BitVec 16) (n : PortId) (h : Obj.ofTarget t = some (.port n)) : portOfTarget t = some n := by simp [-Fin.getElem_fin, portOfTarget, h]
theorem platOf_target (t : BitVec 16) (k : PlatId) (h : Obj.ofTarget t = some (.plat k)) : platOfTarget t = some k := by simp [-Fin.getElem_fin, platOfTarget, h]
theorem ok_claim (s : State) (c r) : (s.ok c r).claim = s.claim := rfl
theorem accepted_self (s : State) (p : Packet) (op : BitVec 16) (ct) : s.accepted (s.rest.accept ⟨op, p, ct⟩) p op := accepted_of s _ p op ct rfl rfl
theorem answered_repl (s z : State) (p : Packet) (op : BitVec 16) (r : List Byte) (ct) (h : z.host = s.host) : s.answered (z.ok ⟨op, p, ct⟩ r) p op stOk r := answered_ok s z p op r ct (by rw [h]) (by rw [h])
theorem refOf_eq (op : BitVec 16) (p : Packet) (ct) : CmdRef.of ⟨op, p, ct⟩ = { host := p.host, tag := p.tag, op := op, target := p.target } := rfl
/-- A fill of pages books one page write for each. -/
theorem fillPages_queue (job : PageJob) (fill : Byte) (c : CmdRef) (r : List Byte) (l : List Nat) (hl : l ≠ []) (s : State) :
   (s.fillPages job fill c r l).store.queue.length = s.store.queue.length + l.length ∧ (s.fillPages job fill c r l).host = s.host ∧ (s.fillPages job fill c r l).active = s.active ∧ (s.fillPages job fill c r l).port = s.port ∧ (s.fillPages job fill c r l).store.user = s.store.user ∧ (s.fillPages job fill c r l).store.page = s.store.page := by
  induction l generalizing s with
  | nil => exact absurd rfl hl
  | cons a t ih =>
    cases t with
    | nil => simp [-Fin.getElem_fin, State.fillPages, State.requestPage]
    | cons b t =>
      obtain ⟨i1, i2, i3, i4, i5, i6⟩ := ih (by simp [-Fin.getElem_fin]) (s.requestPage { job := job, page := a, data := .bytes (Mem.write zeroByte [] 0 (List.replicate 256 fill)), retried := false, cmd := some c, final := false })
      have e : s.fillPages job fill c r (a :: b :: t) = (s.requestPage { job := job, page := a, data := .bytes (Mem.write zeroByte [] 0 (List.replicate 256 fill)), retried := false, cmd := some c, final := false }).fillPages job fill c r (b :: t) := rfl
      rw [e]
      refine ⟨?_, by rw [i2]; rfl, by rw [i3]; rfl, by rw [i4]; rfl, by rw [i5]; rfl, by rw [i6]; rfl⟩
      rw [i1]; simp [-Fin.getElem_fin, State.requestPage]; omega

theorem reqFold (l : List PageReq) (s : State) : l.foldl (fun s r => s.requestPage r) s = { s with store := { s.store with queue := s.store.queue ++ l } } := by
  induction l generalizing s with
  | nil => simp [-Fin.getElem_fin]
  | cons a t ih => simp only [List.foldl_cons, ih]; simp [-Fin.getElem_fin, State.requestPage]
theorem rest_port (s : State) : s.rest.port = s.port := rfl
theorem rest_claim (s : State) : s.rest.claim = s.claim := rfl
theorem rest_net (s : State) : s.rest.net = s.net := rfl
theorem rest_store (s : State) : s.rest.store = s.store := rfl
theorem rest_core (s : State) : s.rest.core = s.core := rfl
theorem bankOf_arg (s : State) (p : Packet) (b : Bank) (h : s.bankArg p = some b) : bankOf (p.payload.headD 0) = some b := by
  unfold State.bankArg at h
  cases hp : p.payload with
  | nil => simp [-Fin.getElem_fin, hp] at h
  | cons a t =>
    cases t with
    | nil => simp [-Fin.getElem_fin, hp] at h
    | cons z t =>
      simp only [hp] at h
      split at h
      · cases hb : bankOf a with
        | none => simp [-Fin.getElem_fin, hb] at h
        | some c => simp [-Fin.getElem_fin, hb, Option.filter] at h; simp [-Fin.getElem_fin, hb, h.2]
      · cases h
theorem raiseHealth_station (s : State) (a b c : Nat) (d : Nat) : (s.raiseHealth a b c d).health.station = s.health.station := by
  simp only [State.raiseHealth]; split <;> simp [-Fin.getElem_fin]
theorem stationFaults_station (s : State) (x : BitVec 4) (b : Fin 2) (k : Nat) : (stationFaults s x b k).health.station = s.health.station := by
  simp only [stationFaults]; split <;> split <;> simp [-Fin.getElem_fin, raiseHealth_station]
/-- With nothing under way on the lane, its ending changes nothing. -/
theorem lane_quiet (s : State) (h1 : s.net.sending = none) (h2 : ∀ k : PlatId, s.plat[k].pushCut = false) (hc : s.net.cportAfter = none) : s.laneSent = s := by
  have h3 : ({ s with net := { s.net with sending := none } } : State) = s := by
    have : ({ s.net with sending := none } : Net) = s.net := by cases hn : s.net; simp_all [-Fin.getElem_fin]
    rw [this]
  have h4 : ∀ l : List PlatId, l.foldl (fun (s : State) (k : PlatId) => if s.plat[k].pushCut then s.pushEnd k else s) s = s := by
    intro l; induction l with
    | nil => rfl
    | cons a t ih => simp only [List.foldl_cons, h2, Bool.false_eq_true, if_false, ih]
  have h5 : s.cportTake = s := by simp only [State.cportTake, hc]
  unfold State.laneSent
  simp only [h1, h3, h4, h5]

theorem inboxAdd_mem (s : State) (c : Held) (l : List Held) : c ∈ s.inboxAdd c l := by
  induction l with
  | nil => simp [-Fin.getElem_fin, State.inboxAdd]
  | cons a t ih => simp only [State.inboxAdd]; split <;> simp [-Fin.getElem_fin, ih]
theorem inboxAdd_len (s : State) (c : Held) (l : List Held) : (s.inboxAdd c l).length = l.length + 1 := by
  induction l with
  | nil => simp [-Fin.getElem_fin, State.inboxAdd]
  | cons a t ih => simp only [State.inboxAdd]; split <;> simp [-Fin.getElem_fin, ih]
/-- An opcode row acts on the command at the front of the inbox. -/
theorem row_front (op : BitVec 16) (j : Judge) (e : Effect) (p : Packet) (s : State) (ct : CT) (l : List Held) (hi : s.inbox = ⟨op, p, ct⟩ :: l) (ho : s.outranked ⟨op, p, ct⟩ = false) : opcodeRow op j e p s = .next (s.takeFront ⟨op, p, ct⟩ j e) := by
  have hany : (s.inbox.any fun c => c.op = op && c.p = p) = true := by simp [-Fin.getElem_fin, hi]
  have hgoal : opcodeRow op j e p s = .next (match s.inbox with | c :: _ => if c.op = op && c.p = p && !s.outranked c then s.takeFront c j e else s | [] => s) := by
    unfold opcodeRow; dsimp only; rw [if_pos (by simp [-Fin.getElem_fin, hany])]; try rfl
  rw [hgoal, hi]; simp [-Fin.getElem_fin, ho]

/-- An opcode row whose command a higher-ranked host's is to overtake within its tick waits (15 R419). -/
theorem row_outranked (op : BitVec 16) (j : Judge) (e : Effect) (p : Packet) (s : State) (ct : CT) (l : List Held) (hi : s.inbox = ⟨op, p, ct⟩ :: l) (ho : s.outranked ⟨op, p, ct⟩ = true) : opcodeRow op j e p s = .next s := by
  have hany : (s.inbox.any fun c => c.op = op && c.p = p) = true := by simp [-Fin.getElem_fin, hi]
  have hgoal : opcodeRow op j e p s = .next (match s.inbox with | c :: _ => if c.op = op && c.p = p && !s.outranked c then s.takeFront c j e else s | [] => s) := by
    unfold opcodeRow; dsimp only; rw [if_pos (by simp [-Fin.getElem_fin, hany])]; try rfl
  rw [hgoal, hi]; simp [-Fin.getElem_fin, ho]

/-- An opcode row at its turn that a check turns away is answered with that check's status (17 R458). -/
theorem row_refuse (op : BitVec 16) (j : Judge) (e : Effect) (p : Packet) (s : State) (st : BitVec 16) (h1 : s.turn op p) (h2 : (s.rest.coreCheck op p).or (j s.rest p) = some st) :
  ∃ ct : CT, opcodeRow op j e p s = .next (s.rest.replyTag p op st []) := by
  unfold State.turn at h1
  cases hi : s.inbox with
  | nil => simp [-Fin.getElem_fin, hi] at h1
  | cons c l =>
    simp only [hi] at h1
    obtain ⟨a, b, h3, h4⟩ := h1
    obtain ⟨o, p', ct⟩ := c
    simp only at a b; subst a; subst b
    refine ⟨ct, ?_⟩
    rw [row_front o j e p' s ct l hi h4.2]
    have : s.takeFront ⟨o, p', ct⟩ j e = (if checkOnly p' then s.rest.replyTag p' o (((s.rest.coreCheck o p').or (j s.rest p')).getD stOk) [] else if s.rest.mustWait s.waiting ⟨o, p', ct⟩ then { s.rest with waiting := s.rest.waiting ++ [⟨o, p', ct⟩] } else s.rest.begin' ⟨o, p', ct⟩ j e) := rfl
    rw [this]
    simp only [h3, h4.1, Bool.false_eq_true, if_false, State.begin', h2]

/-- A CHECK_ONLY command is answered with the status of the checks and has no effect (17 R461). -/
theorem row_check (op : BitVec 16) (j : Judge) (e : Effect) (p : Packet) (s : State) (ct : CT) (l : List Held) (hi : s.inbox = ⟨op, p, ct⟩ :: l) (ho : s.outranked ⟨op, p, ct⟩ = false) (hc : checkOnly p = true) : opcodeRow op j e p s = .next (s.rest.replyTag p op (((s.rest.coreCheck op p).or (j s.rest p)).getD stOk) []) := by
  rw [row_front op j e p s ct l hi ho]
  have : s.takeFront ⟨op, p, ct⟩ j e = (if checkOnly p then s.rest.replyTag p op (((s.rest.coreCheck op p).or (j s.rest p)).getD stOk) [] else if s.rest.mustWait s.waiting ⟨op, p, ct⟩ then { s.rest with waiting := s.rest.waiting ++ [⟨op, p, ct⟩] } else s.rest.begin' ⟨op, p, ct⟩ j e) := rfl
  rw [this]; simp only [hc, if_true]

/-- A command behind an earlier write to its port waits (17 R465). -/
theorem row_wait (op : BitVec 16) (j : Judge) (e : Effect) (p : Packet) (s : State) (ct : CT) (l : List Held) (hi : s.inbox = ⟨op, p, ct⟩ :: l) (ho : s.outranked ⟨op, p, ct⟩ = false) (hc : checkOnly p = false) (hw : s.rest.mustWait s.waiting ⟨op, p, ct⟩ = true) : opcodeRow op j e p s = .next { s with inbox := l, waiting := s.waiting ++ [⟨op, p, ct⟩] } := by
  rw [row_front op j e p s ct l hi ho]
  have : s.takeFront ⟨op, p, ct⟩ j e = (if checkOnly p then s.rest.replyTag p op (((s.rest.coreCheck op p).or (j s.rest p)).getD stOk) [] else if s.rest.mustWait s.waiting ⟨op, p, ct⟩ then { s.rest with waiting := s.rest.waiting ++ [⟨op, p, ct⟩] } else s.rest.begin' ⟨op, p, ct⟩ j e) := rfl
  rw [this]; simp only [hc, hw, Bool.false_eq_true, if_false, if_true]
  simp [-Fin.getElem_fin, State.rest, hi]

def servedBy (s : State) (op : BitVec 16) (o : Obj) : Bool := match o with
  | .port n => bit s.fuse.present n && (op = 0x0803 || !bit s.health.retired n)
  | _ => true
/-- The core's checks in their order (17 R458). -/
theorem coreCheck_eq (s : State) (op : BitVec 16) (p : Packet) (i : OpInfo) (o : Obj) (h : opInfo op = some i) (h2 : Obj.ofTarget p.target = some o) :
  s.coreCheck op p = (if !i.kinds.contains o.kind then some stBadOpcode else if !servedBy s op o then some stPortRetired
      else if !s.hasClass p.host (cmdClass op i p) then some stDenied
      else if (s.claimPort op i p).any fun n => s.claim[n] ≠ some p.host then some stOwned
      else if !i.len p.payload.length then some stBadLength else none) := by
  unfold State.coreCheck; rw [h]; dsimp only; rw [h2]; rfl

theorem served_ok (s : State) (op : BitVec 16) (o : Obj) (h : ∀ n : PortId, o = .port n → bit s.fuse.present n = true ∧ (op = 0x0803 ∨ bit s.health.retired n = false)) : servedBy s op o = true := by
  cases o with
  | port n => obtain ⟨a, b⟩ := h n rfl; rcases b with b | b <;> simp [-Fin.getElem_fin, servedBy, a, b]
  | plat k => rfl
  | station => rfl
/-- Putting one flag changes that flag only. -/
theorem bit_flPut (fl : Byte) (i j : Nat) (b : Bool) (hi : i < 8) (hj : j < 8) : bit (flPut fl i b) j = if j = i then b else bit fl j := by
  unfold flPut bit
  cases b <;> interval_cases i <;> interval_cases j <;> simp [-Fin.getElem_fin, BitVec.getLsbD_or, BitVec.getLsbD_and, BitVec.getLsbD_not]


end Sys2Proof.Machine
end

