-- ==== Sys2Proof/WellFormed.lean ====
section
/-! DEFINITION. Which commands are well formed: the operands lie in the ranges the manual gives them. -/
namespace Sys2Proof

/-- The count of a LOOP is CNT12 or a register, its END 1 to 2047 (R507, R519). -/
def Count.ok (limit : Nat) : Count → Bool
  | .imm n => decide (n < limit)
  | .reg _ => true

/-- A power data object in the ranges of the messages that carry it (R290, R323). -/
def Pdo.ok : Pdo → Bool
  | .fixed mv i10 => decide (mv < 51200) && decide (i10 < 1024)
  | .pps lo hi i50 => decide (lo ≤ hi) && decide (hi < 25600) && decide (i50 < 128)
  | .avs lo hi w => decide (lo ≤ hi) && decide (hi < 51200) && decide (w < 256)
  | .zero => true

/-- A request names an object position of R290. -/
def Rdo.ok (r : Rdo) : Bool := decide (1 ≤ r.pos) && decide (r.pos ≤ 15) && decide (r.opI < 1024) && decide (r.maxI < 1024)

def PdBody.ok : PdBody → Bool
  | .request r | .eprRequest r => r.ok
  | .sourceCaps _ os | .eprSourceCaps _ os | .sinkCaps _ _ os | .eprSinkCaps os => os.all Pdo.ok
  | _ => true

/-- A message of up to 260 bytes, in chunks numbered 0 to 9 (R270, R279). -/
def PdMsg.ok (m : PdMsg) : Bool :=
  decide (m.len ≤ 260) && m.body.ok &&
  match m.chunk with
  | none => true
  | some (k, _) => decide (k ≤ 9)

/-- The groups of READ_REGS and WRITE_REGS (R482). -/
def regsGroup (gg : Byte) : Bool := gg = 1 || gg = 2 || gg = 3 || gg = 5 || gg = 6

/-- The operands of a command lie in the ranges the manual gives. -/
def Instr.wf : Instr → Bool
  | .slotLatch samples => decide (samples.length = 16)
  | .cadQualified counts => decide (counts.length = 16)
  | .pdMessage _ m => m.ok
  | .chunkRequest _ _ k => decide (k.num ≤ 9)
  | .frmMarker _ width => decide (1 ≤ width)
  | .twoWireWrite _ bytes _ => decide (bytes.length ≤ 258)
  | .scrubPage corrected uncorrectable => corrected.all fun g => !uncorrectable.contains g
  | .readRegs gg _ | .writeRegs gg _ => regsGroup gg
  | .loop _ _ count endOff => count.ok 4096 && decide (endOff ≠ 0)
  | .rep _ count => count.ok 65536
  | .bc _ cond _ => decide (cond.val ≤ 11) || decide (cond.val = 15)
  | _ => true

end Sys2Proof
end

