-- ==== Sys2Proof/Tests/Slice0.lean ====
section
/-! SUPPORT. Tests: a witness for the hypotheses of every statement, and checks of single commands against the manual. -/
set_option maxRecDepth 8000
namespace Sys2Proof.Machine

def aMsg (b : PdBody) : PdMsg := { sop := .sop, id := 0, rev := 0b10, body := b, len := 0, chunk := none }
/-- Entries of the Timetable, all alike. -/
def State.withEntries (s : State) (e : Entry) : State := { s with tt := { s.tt with entries := Vector.replicate 256 (some e) } }
/-- Words of the running configuration over their default values. -/
def State.withWords (s : State) (l : List (Nat × Word)) : State :=
  { s with store := { s.store with run := l.foldl (fun m x => Mem.write cfgDefault m x.1 (leBytes 4 x.2.toNat)) s.store.run } }

/-- Port 0's TC_CFG with role source, sink or both. -/
def State.roled (s : State) (role : Word) : State := s.withWords [(0x80, 0x03800000 &&& 0x3FFFFFFF ||| role <<< 30)]
def Port.asks (p : Port) (b : PdBody) : Port := { p with pd := { p.pd with rxq := [aMsg b] } }
def Port.engAsks (p : Port) (b : PdBody) : Port := { p with pd := { p.pd with eng := [aMsg b] } }

def State.withSketch (s : State) (x : Sketch) : State :=
  { s with plat := s.plat.set 0 { s.plat[0] with slots := Vector.replicate 8 (some x) } }
def State.holding (s : State) (op : BitVec 16) (p : Packet) : State :=
  { s with host := s.host.set p.host.ix { HostFe.reset with held := [p.tag] }, inbox := [⟨op, p, 0⟩],
           sup := { s.sup with service := true }, claim := Vector.replicate 24 (some p.host) }
/-- Port 0 claimed by MA. -/
def State.claimed (s : State) : State := { s with claim := Vector.replicate 24 (some .ma) }
def State.tw0 (s : State) (f : TwoWire → TwoWire) : State := { s with tw := s.tw.set 0 (f s.tw[0]) }
def State.kctx (s : State) (f : VCtx → VCtx) (g : KSlot → KSlot) : State :=
  { s with core := s.core.set 0 { s.core[0] with kn := f s.core[0].kn, slot := g s.core[0].slot } }

end Sys2Proof.Machine

namespace Sys2Proof.Tests
open Sys2Proof Sys2Proof.Machine

/-! ### States for the witnesses -/

/-- The card in its slot: both dies up, every core up, slot 0, the link alive. -/
def upSupplies : Supplies :=
  { Supplies.reset with hvUp := true, vcpOk := true, logicUp := true, linkSilent := false, primer := .done,
                        primerEver := true, runFlag := true, slotId := some 0, runBank := some .a }
def upState : State :=
  { State.reset with sup := upSupplies, core := Vector.replicate 5 { VCore.reset with up := true } }

/-- Port 0 is `p`. -/
def withPort (p : Port) : State := { upState with port := upState.port.set 0 p }
def inHs (st : HsState) : State := { upState with hs := { upState.hs with st := st } }
def anEntry : Entry := { owner := 0, kind := .reserve, dur := 8, step := 1, inc := 1, todo := [(0, 1)], fired := 0, last := 0 }
def aCmd : CmdRef := { host := .ls, tag := 1, op := 0x0712, target := 0xFFFF }

def closedState : State := withPort { Port.reset with pp := { Path.reset with st := .closed } }
def closingState : State := withPort { Port.reset with pp := { Path.reset with st := .closing } }
def dischargeState : State := withPort { Port.reset with pp := { Path.reset with st := .discharge } }
def heldState : State := withPort { Port.reset with hold := true, tc := { TypeC.reset with st := .attSrc } }
def busyRestart : State :=
  { withPort { Port.reset with pd := { Pd.reset with hrReq := true } } with
    sup := { upState.sup with restartReq := some { bank := none, cmd := aCmd } } }
def testState : State := withPort { Port.reset with test := some (aCmd, .disabled) }
def lockedState : State := { upState with time := { upState.time with st := .locked, cadOk := true } }
def inPhase : State := { inHs .phase with fuse := { State.reset.fuse with hs2 := 0x20, hs3 := 1 } }
def onState : State := inHs .on
def segDue : State := (inHs .inrush).withEntries { anEntry with owner := ownHs, kind := .inrush }
def segSelf : State :=
  { inHs .inrush with sup := { upState.sup with linkSilent := true }, time := { upState.time with ct := 32 } }
/-- Two rails, in steps 0 and 1. -/
def railFuse : Varnish :=
  { Varnish.reset with sqCfg := 0x80000000, sqRail := (Vector.replicate 12 0).set 0 0x80000000 |>.set 1 0x88000000 }
def inSq (st : SqState) (r : Vector Rail 12) : State :=
  { onState with fuse := railFuse, sq := { Sequencer.reset with st := st, rails := r } }
def railOn : Rail := { Rail.reset with en := true, pg := true }
def raising : State := inSq .raise (Vector.replicate 12 { Rail.reset with waiting := true })
def raisingTwo : State := { inSq .raise (Vector.replicate 12 railOn) with fuse := { railFuse with sqRail := Vector.replicate 12 0x80000000 } }
def raisingFirst : State := inSq .raise (Vector.replicate 12 { railOn with upTo := true })
def raisingLast : State :=
  let s := inSq .raise (Vector.replicate 12 { railOn with upTo := true })
  { s with sq := { s.sq with stepNow := 1 } }
def running : State :=
  let s := inSq .run (Vector.replicate 12 { railOn with qualified := true })
  { s with sq := { s.sq with faultDriven := false } }
def falling : State := inSq .shutdown (Vector.replicate 12 { Rail.reset with discharged := false, disTo := true })

/-- The Timetable's budget is below a segment. -/
def inrushDear : State := { inHs .inrush with tt := { upState.tt with budget := 1 } }

def opening : State :=
  (withPort { Port.reset with tc := { TypeC.reset with opening := .starting }, pp := { Path.reset with cen := true } }).roled 0
def openPort : State := withPort { Port.reset with tc := { TypeC.reset with opening := .opened, st := .unattSrc } }
def tcPort (t : TypeC) : State := withPort { Port.reset with tc := t }
def srcPort (st : TcState) : State := tcPort { TypeC.reset with st := st, cfg := 0 }
def tryPort (st : TcState) (t : Word) : State := tcPort { TypeC.reset with st := st, cfg := t <<< 28 }
def heldPort (st : TcState) : State := withPort { Port.reset with hold := true, tc := { TypeC.reset with st := st } }
def lockoffPort : State :=
  withPort { Port.reset with tc := { TypeC.reset with st := .attSrc, pathRetry := true }, pp := { Path.reset with st := .lockoff } }
def limitPort : State := tcPort { TypeC.reset with st := .attSrc, pathLimit := true }
def pathDue : State :=
  (withPort { Port.reset with tc := { TypeC.reset with st := .attSrc }, pp := { Path.reset with cpg := true } }).withEntries
    { anEntry with kind := .path }
def setDue : State := (tcPort { TypeC.reset with opening := .booked }).withEntries { anEntry with kind := .set }

def aPlan : Plan :=
  { kind := .sprFixed, pos := 2, v0 := 5000, v1 := 9000, i10 := 300, k := 1, fired := 1, entry := none, small := false,
    first := 0, last := 0, newK := 108, imax := 3000, accepted := true, inc := 48, eprCap := false }
/-- A source in an explicit contract of 5 V. -/
def sourcePort : Port :=
  { Port.reset with
    tc := { TypeC.reset with st := .attSrc, orient := .cc1, opening := .opened, cfg := 0x03800000 }
    pp := { Path.reset with st := .closed, cpg := true, cen := true, code := 250 }
    pd := { Pd.reset with contract := true, ctx := Vector.replicate 3 { Context.reset with rev := 0b10 } }
    ct := { Contract.reset with kind := .sprFixed, pos := 1, mv := 5000, i10 := 300, imax := 3000 }
    rs := { Swap.reset with pr := .source, dr := .dfp } }
def sinkPort : Port :=
  { sourcePort with tc := { sourcePort.tc with st := .attSnk }, pp := { sourcePort.pp with sink := true },
                    ct := { sourcePort.ct with kind := .sinkFixed }, rs := { Swap.reset with pr := .sink, dr := .ufp } }
def sourcing : State := withPort { sourcePort with ct := { sourcePort.ct with target := some 60 } }
def sourcingWaits : State := withPort { sourcePort with ct := { sourcePort.ct with waits := 3 } }
def requestBad : State := withPort (sourcePort.asks (.request ⟨3, 10, 10, 0, false⟩))
def requestDear : State :=
  let s := withPort ({ sourcePort with pd := { sourcePort.pd with objs := [.fixed 5000 300, .fixed 20000 500] } }.asks
    (.request ⟨2, 500, 500, 0, false⟩))
  { s with port := (Vector.replicate 24 { Port.reset with ct := { Contract.reset with commit := 401 } }).set 0 s.port[0] }
def eprAsked : State := withPort ({ sourcePort with pd := { sourcePort.pd with contract := false } }.asks .eprEnter)
def rampDue : State :=
  (withPort { sourcePort with ct := { sourcePort.ct with plan := some aPlan } }).withEntries { anEntry with kind := .ramp }
def planEnded : State := withPort { sourcePort with ct := { sourcePort.ct with plan := some { aPlan with fired := 1, k := 1 } } }
def shedPort : State := withPort { sourcePort with ct := { sourcePort.ct with shed := true, target := some 60, commit := 100 } }
def capsSeen : State :=
  withPort ({ sinkPort with pd := { sinkPort.pd with contract := false } }.asks
    (.sourceCaps ⟨false, false, false, false, false⟩ [.fixed 5000 300]))
def sinkDue : State :=
  (withPort sinkPort).withEntries { anEntry with kind := .sink }

def asksUnattached (b : PdBody) : State := withPort (Port.reset.asks b)
/-- No swap is accepted. -/
def asksAttached (b : PdBody) : State := (withPort (sourcePort.asks b)).withWords [(0x90, 0)]
def asksWilling (b : PdBody) : State := withPort (sourcePort.asks b)
def swapPort (c : SwapCode) (st : SwapStep) : State :=
  withPort { sourcePort with rs := { sourcePort.rs with code := c, step := st } }
def rdyPort (c : SwapCode) : State :=
  withPort ({ sourcePort with rs := { sourcePort.rs with code := c, step := .partnerRdy } }.asks .psRdy)
def frAsked : State :=
  withPort ({ sourcePort with rs := { sourcePort.rs with code := .frsSource, step := .frWait } }.asks .frSwap)
def roleDue (c : SwapCode) : State :=
  (withPort { sourcePort with rs := { sourcePort.rs with code := c, step := .role, entry := some 0 } }).withEntries
    { anEntry with kind := .role }
def risePort : State := swapPort .prSnkSrc .rise
def stbyPort : State := withPort { sinkPort with rs := { sinkPort.rs with stby := true } }
def altAsked (b : PdBody) (st : AltStep) : State :=
  withPort ({ sourcePort with alt := { Alt.reset with step := st } }.asks b)
def attentionHeld : State :=
  withPort { sourcePort.engAsks (.vdm .attention 0xFF01 0) with alt := { Alt.reset with mode := .displayPort, step := .mounted } }
def attentionSeen : State :=
  withPort { sourcePort.asks (.vdm .attention 0xFF01 0) with alt := { Alt.reset with mode := .displayPort, step := .mounted } }

def aScript : Script := { port := 0, event := 1, asked := 0, steps := [0x40000000, 0x40000000], num := 0, fails := 0, losses := 0 }
def aDelay : Script := { aScript with steps := [0x80000000, 0x80000000] }
def scriptState (running delay : Bool) : State :=
  { upState with points := { upState.points with queue := [aScript], running := running, delay := delay } }
/-- Port 1 is in hold-over with the script at the head; port 0's script waits behind it. -/
def heldScripts : State :=
  { upState with port := upState.port.set 1 { Port.reset with hold := true }
                 points := { upState.points with queue := [{ aScript with port := 1 }, aScript] } }
def delayState : State := { upState with points := { upState.points with queue := [aDelay], running := true } }

def queueFull : State :=
  let p := Port.asks { sourcePort with hold := false } .getSourceCap
  withPort { p with pd := { p.pd with rxq := List.replicate 4 (aMsg .getSourceCap) } }
def sourceWith (b : PdBody) : State := withPort (sourcePort.asks b)
def engineWith (b : PdBody) : State := withPort (sourcePort.engAsks b)
def anOut : OutMsg := { sop := .sop, body := .getSinkCap, ams := false }
def sendingPort : State := withPort { sourcePort with pd := { sourcePort.pd with outbox := [anOut] } }
def inTx (m : OutMsg) (st : TxState) (chunk : BitVec 4) : State :=
  withPort { sourcePort with pd := sourcePort.pd.modCtx .sop fun c => { c with cur := some m, tx := st, chunk := chunk } }
def waitingPort : State := inTx anOut .waitIdle 0
def armedWaiting (t : PdTimer) : State :=
  withPort { sourcePort with pd :=
    { sourcePort.pd.modCtx .sop fun c => { c with cur := some anOut, tx := .waitIdle } with timers := [t] } }
def sentPort : State := inTx anOut .waitGoodcrc 0
def chunkPort : State := inTx { anOut with body := .eprSourceCaps ⟨false, false, false, false, true⟩ (List.replicate 11 .zero) } .chunking 1
def avoidingPort : State := inTx { anOut with ams := true } .waitIdle 0
def firstChunk : State := inTx { anOut with body := .eprSourceCaps ⟨false, false, false, false, true⟩ (List.replicate 11 .zero) } .waitGoodcrc 0
def eprSink : State := withPort { sinkPort with pd := { sinkPort.pd with epr := true } }
def cablePort : State := withPort { sourcePort with tc := { sourcePort.tc with vconnOn := true } }
def hrPort : State := withPort { sourcePort with pd := { sourcePort.pd with hrReq := true } }
def hrTimer (t : PdTimer) : State := withPort { sourcePort with pd := { sourcePort.pd with timers := [t] } }
def acceptPort (c : SwapCode) (st : SwapStep) : State :=
  withPort ({ sourcePort with rs := { sourcePort.rs with code := c, step := st } }.asks .accept)
def refusePort : State :=
  withPort ({ sourcePort with rs := { sourcePort.rs with code := .dr, step := .asked } }.asks .reject)
def aSketch : Sketch :=
  { port := 0, cause := .command, second := none, held := false, holdover := false, pstate := .closed, trigPh := 0, trigCt := 0,
    trigIdx := 0, rEst := 2000, ftCode := 0, dropped := 0, volt := 5000, curr := 300, prot := 0, recs := [], stamps := [],
    complete := false }
def sketchState : State := upState.withSketch aSketch
def assembling : State :=
  withPort { sourcePort with ms := { Measure.reset with trace := { Trace.reset with held :=
    [{ cfg := 0x8F040000, seq := 0, flags := 0, rEst := 2000, tFet := 0, groups := [], cut := 0, kernel := false, waitGroup := false,
       waitAsm := true }] } } }
def linked : State := { upState.withWords [(0x5C, 0x0A000001)] with net := { upState.net with link := true } }
def aPage (j : PageJob) : PageReq := { job := j, page := 256, data := .bytes [], retried := false, cmd := none, final := false }

/-! ### States in which a command's turn has come -/

def pkt (payload : List Byte) (target : BitVec 16) : Packet :=
  { host := .ma, tag := 1, flags := 0x40, target := target, payload := payload }
def checkPkt : Packet := { pkt [] 0xFFFF with flags := 0x41 }
def entryBytes (rid : Nat) (mask : Nat) : List Byte := leBytes 2 rid ++ [0, 0] ++ leBytes 4 0 ++ leBytes 4 mask
def turnOf (op : BitVec 16) (p : Packet) : State :=
  upState.holding op p
def turnSketch (op : BitVec 16) (p : Packet) : State := (upState.withSketch { aSketch with complete := true }).holding op p
def turnSwap (st : TcState) (op : BitVec 16) (p : Packet) : State :=
  ((withPort { sourcePort with tc := { sourcePort.tc with st := st } })).holding op p
def turnVconn (op : BitVec 16) (p : Packet) : State :=
  let s := withPort sourcePort
  { s with plat := Vector.replicate 4 { Platform.reset with vconn := true } }.holding op p
def turnAlt (op : BitVec 16) (p : Packet) : State := (withPort sourcePort).holding op p
def turnAltExit (op : BitVec 16) (p : Packet) : State :=
  (withPort { sourcePort with alt := { Alt.reset with mode := .displayPort, step := .exiting } }).holding op p
def turnLockoff (op : BitVec 16) (p : Packet) : State := lockoffPort.holding op p
def turnLatched (op : BitVec 16) (p : Packet) : State := (inSq .latched (Vector.replicate 12 Rail.reset)).holding op p
def turnRun (op : BitVec 16) (p : Packet) : State := running.holding op p
/-! ### The rest -/

def calDue : State := (withPort sourcePort).withEntries { anEntry with kind := .cal }
/-- The three sample sets of a pulse at tick 100 are complete: 20 before it, 30 in it with a drop and a current, 20 after it. -/
def pulsedWith (p : Port) (v : Int) (d : Nat) : State :=
  let x (v : Int) (d : Nat) : Sample := { vc := 0, vb := 0, vds := BitVec.ofInt 16 v, i := 0, dss := BitVec.ofNat 16 d }
  { withPort { p with pp := { p.pp with
      pulse := some (100, 200)
      hist := List.replicate 20 (x 0 0) ++ List.replicate 30 (x v d) ++ List.replicate 20 (x 0 0) } } with
    stamps := List.replicate 20 (150, 0) ++ List.replicate 30 (110, 0) ++ List.replicate 20 (50, 0) }
def pulsed : State := pulsedWith sourcePort 0 0
def eprReady : State :=
  (withPort ({ sourcePort with tc := { sourcePort.tc with vconnOn := true },
                               pd := { sourcePort.pd with rdoEpr := true, cable := 0xB9000000 } }.asks .eprEnter)).withWords [(0x24, 4800)]
def eprSpent : State :=
  (withPort ({ sourcePort with tc := { sourcePort.tc with vconnOn := true },
                               pd := { sourcePort.pd with rdoEpr := true, cable := 0xB9140000 } }.asks .eprEnter)).withWords [(0x24, 4800)]
def vconnAsked : State :=
  let s := asksWilling .vconnSwap
  { s with plat := Vector.replicate 4 { Platform.reset with vconn := true } }
def committing : State :=
  { upState with store := { Store.reset with
      commit := some { cfg := [], seq := 2, toA := false, cmd := none, w1c := [], landed := none } } }
/-- A copy whose magic number and CRC agree with what it holds. -/
def copyMem : Mem := Mem.write zeroByte [] 0 [0x41, 0x50]
def sealedCopy (m : Mem) : Copy :=
  { mem := Mem.write zeroByte m 0x1FFC (leBytes 4 (crc32c (Mem.read zeroByte m 0 0x1FFC)).toNat) }
def anyCopy : Copy := sealedCopy copyMem
theorem copyMem_wf : Mem.wf zeroByte copyMem = true := by decide
theorem sealedCopy_sound (m : Mem) (h : Mem.wf zeroByte m = true) (hm : leNat (Mem.read zeroByte m 0 2) = 0x5041) :
    (sealedCopy m).magic = true ∧ (sealedCopy m).crcOk = true :=
  ⟨decide_eq_true ((congrArg leNat (Mem.read_write_below m 0x1FFC 0 2 _ h (by decide))).trans hm),
   decide_eq_true ((congrArg crc32c (Mem.read_write_below m 0x1FFC 0 0x1FFC _ h (Nat.le_refl _))).trans
      (Mem.word_write_same m 0x1FFC _ h).symm)⟩
theorem anyCopy_sound : anyCopy.magic = true ∧ anyCopy.crcOk = true := sealedCopy_sound copyMem copyMem_wf (by decide)
/-- Copy B is valid where it is that copy and no page of it was cut short or reads uncorrectable. -/
theorem copyOk_one (st : Store) (h : st.copyB = anyCopy)
    (hp : ((List.range 32).all fun k => !st.cutPage (copyPage 1 + k) && !st.badData (copyPage 1 + k)) = true) :
    st.copyOk 1 = true := by
  have hc : st.copyOk 1 = (st.copyB.magic && st.copyB.crcOk &&
    (List.range 32).all fun k => !st.cutPage (copyPage 1 + k) && !st.badData (copyPage 1 + k)) := rfl
  rw [hc, h, anyCopy_sound.1, anyCopy_sound.2, hp]
  rfl
theorem activeCopy_of (st : Store) (h : st.copyOk 1 = true) (hl : st.late ≠ some false) : activeCopy st ≠ none := by
  unfold activeCopy
  rw [h]
  have : decide (st.late ≠ some false) = true := decide_eq_true hl
  simp only [this, Bool.and_self, ne_eq]
  split <;> simp_all <;> split <;> simp
theorem committing_active (c : Option Commit) :
    activeCopy { committing.store with copyB := anyCopy, commit := c } ≠ none :=
  activeCopy_of _ (copyOk_one _ rfl (by simp only [Store.cutPage, Store.badData]; rfl)) (fun h => nomatch h)
/-- The last page of a commit is being programmed, and the copy is sound. -/
def landing : State :=
  { committing with store := { committing.store with copyB := anyCopy, prog := some { aPage .commit with page := 31, final := true } } }
theorem landing_ok (r : PageReq) (h : r.page = 31) : (landing.store.land r).copyOk 1 = true := by
  have hb : (landing.store.land r).copyB = anyCopy := by
    unfold Store.land
    rw [h]
    rfl
  have hg : (landing.store.land r).gens = [(31, 1)] := by unfold Store.land; rw [h]; rfl
  have hm : (landing.store.land r).marks = [(31, 1)] := by unfold Store.land; rw [h]; rfl
  have hd : (landing.store.land r).bad = [] := by unfold Store.land; rw [h]; rfl
  refine copyOk_one _ hb ?_
  simp only [Store.cutPage, Store.badData, hg, hm, hd]
  decide
def activeCmd : Held := { op := 0x0712, p := { host := .ls, tag := 1, flags := 0x40, target := 0xFFFF, payload := [] }, stamp := 0 }

def aPkg : List Byte :=
  let h := leBytes 2 0x564B ++ [1, 2] ++ leBytes 4 7 ++ leBytes 4 4 ++ leBytes 4 0 ++ leBytes 4 0 ++ leBytes 4 0 ++ leBytes 4 0
  let b := h ++ leBytes 4 (BitVec.toNat (crc32c (h ++ leBytes 4 0))) ++ leBytes 4 0
  b
def turnStaged (op : BitVec 16) (p : Packet) : State :=
  (turnOf op p).modCore coreSB fun v => { v with slot := { v.slot with staging := Mem.write zeroByte [] 0 aPkg } }
def turnRunning (op : BitVec 16) (p : Packet) : State :=
  (turnOf op p).modCore coreSB fun v => { v with slot := { v.slot with st := .running } }
def turnVerified (op : BitVec 16) (p : Packet) : State := { turnOf op p with bankB := { ImageBank.reset with st := 2 } }
/-- The running image names anti-rollback level 1. -/
def turnArb (op : BitVec 16) (p : Packet) : State :=
  { turnOf op p with bankA := { ImageBank.reset with mem := Mem.write zeroByte [] 0 (List.replicate 20 1) } }
def waitState : State :=
  { upState with inbox := [⟨0x0210, pkt [1] 0, 0⟩], active := [⟨0x0210, pkt [1] 0, 0⟩] }
def waitingOwned : State := { upState with waiting := [⟨0x0210, pkt [1] 0, 0⟩], claim := Vector.replicate 24 (some .mb) }
def waitingClear : State :=
  { (withPort { Port.reset with pp := { Path.reset with st := .lockoff } }).claimed with waiting := [⟨0x0230, pkt [] 0, 0⟩] }
def absentPort : State := { upState with fuse := { Varnish.reset with present := 0xFFFFFE } }
def observeHost : State := { upState with setFail := true }

def twState (w : Byte) : State :=
  { upState with tw := upState.tw.set 0 { TwoWire.reset 0x2C000000 with winsel := w, cmdLen := 12, cfg := 0x04000000 } }
def twBusy (w : Byte) : State := (twState w).tw0 fun t => { t with cmdFree := false }
def twPec : State := (twState 0).tw0 fun t => { t with cfg := 0x10000000 }
def twTmo : State := (twState 0).tw0 fun t => { t with cfg := 0x08000000 }
def alerting : State :=
  { twState 0 with host := upState.host.set 0 { HostFe.reset with replies := [{ tag := 1, status := 0, opcode := 0, payload := [] }] } }
def twDone : State := (twState 0).tw0 fun t => { t with rplDone := true }
def twEvtDone : State := (twState 0).tw0 fun t => { t with evtDone := true }
def twSend : State := (twState 0).tw0 fun t => { t with send := true, cmdFree := false }
def logicState : State := { State.reset with sup := { Supplies.reset with logicUp := true } }
def localWaiting : State :=
  { upState with ssn := 1, host := upState.host.set 2 { HostFe.reset with
      replies := [{ tag := 1, status := 0, opcode := 0, payload := [] }]
      events := [{ code := 0x0101, ssn := 0, ct := 0, source := 0xFFFF, flags := 0, tag := 0, payload := [] }] } }
def netState : State :=
  { linked with net := { linked.net with cport := 4000 }
                fuse := { Varnish.reset with hp0 := 0x80000000 ||| State.reset.hpFuse0, hp1 := State.reset.hpFuse1 } }
def netCommand : NetFrame :=
  { fcsOk := true, dstMac := 0, srcMac := 1, options := false, fragment := false, srcIp := 2, dstIp := 0x0A000001, srcPort := 5,
    dstPort := 4000, udpSumOk := true, payload := packetBytes 0x0300 (pkt [] 0xFFFF) }
def aFrame : NetFrame := netCommand
def overflowed : State := { upState with host := upState.host.set 2 { HostFe.reset with lost := some (3, 5, 3) } }

/-! ### Vavis -/

def sevens : State :=
  { upState with core := Vector.replicate 5 { VCore.reset with up := true, fw := { VCtx.reset with v := Vector.replicate 16 7 } } }
/-- The kernel context of PC0 with v1 and v2 in its data window. -/
def pointing : State :=
  upState.kctx (fun x => { x with v := (x.v.set 1 0x10000).set 2 0x10004 }) fun k => { k with st := .running, busy := true }
/-- The kernel of PC0 runs: v2 points into its data window, v3 into OUT, v4 nowhere. -/
def kernelPointing : State :=
  upState.kctx (fun x => { x with v := ((x.v.set 2 0x10000).set 3 0x21000).set 4 3 }) fun k => { k with st := .running, busy := true }
def kernelInit : State := upState.kctx id fun k => { k with st := .staged, busy := true }
def kernelSpent : State := upState.kctx id fun k => { k with st := .staged, busy := true, initCharge := 1000000, spent := true }
/-- No cycle is left to the kernel, which has not stopped yet. -/
def kernelLast : State := upState.kctx id fun k => { k with st := .staged, busy := true, initCharge := 1000000 }
def atLoopEnd : State :=
  kernelPointing.kctx (fun x => { x with loops := x.loops.set 0 { start := 0, stop := 0, count := 2, active := true } }) id
/-- The kernel's next word is a B. -/
def repBeforeControl : State :=
  kernelPointing.kctx id fun k => { k with code := Mem.write zeroByte [] 4 (leBytes 4 (0x28 * 2 ^ 26)) }
def product (k : Nat) : State :=
  { upState with core := upState.core.set 0 { upState.core[0] with fw := { upState.core[0].fw with prods := [(k, 5)] } } }
def productReady : State := product 0
def productSoon : State := product 3
def filtering : State :=
  let s := (withPort { sourcePort with ms := { Measure.reset with trace := { Trace.reset with cfg := 0xA0040000 } } }).kctx id fun k =>
    { k with st := .running }
  { s with sidx := 32 }
def filteringBusy : State := filtering.kctx id fun k => { k with busy := true }

/-- A source in a contract of 5 V and 3 A is asked for 9 V and 3 A. -/
def requestRamp : State :=
  withPort (Port.asks { sourcePort with pd := { sourcePort.pd with objs := [.fixed 5000 300, .fixed 9000 300] } }
    (.request ⟨2, 300, 300, 0, false⟩))
/-- A sink that draws is offered 9 V. -/
def capsDraw : State :=
  withPort (Port.asks { sinkPort with ct := { sinkPort.ct with draw := 40 } }
    (.sourceCaps ⟨false, false, false, false, false⟩ [.fixed 9000 300]))
/-- The ROLE grant of a swap to source is due with the path open and the converter good. -/
def roleOn : State :=
  (withPort { sinkPort with pp := { sinkPort.pp with st := .opn, cpg := true }
                            rs := { sinkPort.rs with code := .prSnkSrc, step := .rise, entry := some 0 } }).withEntries
    { anEntry with kind := .role }
/-- The partner sources VCONN, and the cable has not been asked. -/
def vconnWanted : State :=
  { withPort { sinkPort with tc := { sinkPort.tc with pdCfg := 0x10000000 }, rs := { sinkPort.rs with partnerVc := true } } with
    plat := Vector.replicate 4 { Platform.reset with vconn := true } }
def aScriptOri : Script := { aScript with steps := [0x40000000, 0x20000000, 0x40000000] }
def scriptOri : State := { upState with points := { upState.points with queue := [aScriptOri], running := true } }
/-- The modes are answered to a port whose role is UFP by now. -/
def noModes : State :=
  withPort ({ sourcePort with rs := { sourcePort.rs with dr := .ufp }, alt := { Alt.reset with step := .modes } }.asks
    (.vdmAck .discoverModes 1))
/-- The context of SOP has seen MessageID 0. -/
def pdRepeat : State := withPort { sourcePort with pd := sourcePort.pd.modCtx .sop fun c => { c with rxValid := true } }
def pdHeld : State := withPort { sourcePort with hold := true }
/-- A source-only port is asked for sink capabilities. -/
def sourceOnlyAsked : State :=
  withPort (Port.asks { sourcePort with tc := { sourcePort.tc with cfg := 0x43800000 } } .getSinkCap)
/-- A Points table with every script of port 0, and both modes enabled. -/
def scriptTable : List (Nat × Word) :=
  [(0xC80, 0x11000001), (0xC84, 0x40100000), (0xC88, 0x21000001), (0xC8C, 0x40100000), (0xC90, 0x51000001), (0xC94, 0x40100000),
   (0xC98, 0x61000001), (0xC9C, 0x40100000), (0xCA0, 0x71000001), (0xCA4, 0x40100000), (0xCA8, 0x81000001), (0xCAC, 0x40100000),
   (0xCB0, 0x91000001), (0xCB4, 0x40100000), (0x94, 0xFE000000)]
def scripted (s : State) : State := { s.withWords scriptTable with points := { s.points with ok := true } }
/-- A port that may enter either mode is at a step of its discovery, with an answer at hand. -/
def modeAsked (b : PdBody) (st : AltStep) : State :=
  scripted (withPort ({ sourcePort with pd := { sourcePort.pd with cable := 0x01000000, cableUsb4 := true },
                                        alt := { Alt.reset with step := st, pins := 1, partnerUsb4 := true } }.asks b))
def vdmArmed (st : AltStep) : State :=
  withPort { sourcePort with alt := { Alt.reset with step := st }, pd := { sourcePort.pd with timers := [.vdm] } }
/-- FRS standby's ROLE booking is due in a contract in which it may begin. -/
def standbyDue : State :=
  ((withPort { sinkPort with
      rs := { sinkPort.rs with code := .none, entry := some 0, frsCur := 1 }, ct := { sinkPort.ct with draw := 0, mv := 5000 }
      pp := { sinkPort.pp with st := .closed, sink := true },
      pd := { sinkPort.pd with contract := true } }).withWords [(0x98, 0xFFFFFFFF), (0x9C, 0xFFFFFFFF), (0x90, 0xFFFFFFFF)]).withEntries
    { anEntry with kind := .role }

/-- The next state of a command that has one. -/
def after : Out → State
  | .next t => t
  | _ => State.reset

/-! ### The manual's worked examples -/

/-- R454: the CRC of "123456789". -/
theorem test_crc32c : crc32c [0x31, 0x32, 0x33, 0x34, 0x35, 0x36, 0x37, 0x38, 0x39] = 0xE3069283 := by decide +kernel

/-- Chapter 05: a ramp of +180 W in increments of 40 W, with frames 0 and 3 already used. -/
theorem test_ramp_increments :
    let s := { upState with sup := { upSupplies with slotId := some 5 }, time := { upState.time with ct := 300 },
                            tt := { upState.tt with ledger := [(0, 680), (3, 680)] } }
    let r := s.book (.core 1) { owner := 9, kind := .ramp, dur := 16, req := some 700, step := 720, inc := 160 }
    (r.1.tt.entries[0].map fun e => e.todo.map Prod.fst) = some [2688, 4736, 8832, 10880, 12928] ∧
    r.2 = .granted 0 2688 12928 := by decide +kernel

/-- Chapter 11: 5 V at 15 W to 48 V at 240 W, VSTEP 2.0 V: 22 increments of 41 units. -/
theorem test_ramp_shape :
    (planShape 800 2000 5000 48000 60 960 false).k = 22 ∧ (planShape 800 2000 5000 48000 60 960 false).inc = 41 ∧
    (planShape 800 2000 5000 48000 60 960 false).step = 902 := by decide +kernel

/-- Chapter 09: FT_I 8.0 A at 5.10 and 5.20 mΩ. -/
theorem test_fast_trip_code :
    ftCodeFor { Path.reset with prot := 160 <<< 24, rEst := 5100 } = 261 ∧
    ftCodeFor { Path.reset with prot := 160 <<< 24, rEst := 5200 } = 266 := by decide +kernel

/-- Chapter 22: at 95 °C an hour counts one hour. -/
theorem test_life_reference : lifeRate 1520 = 2 ^ 32 := by
  have h : (100 / 36815 - 1 / (((1520 : Int) : Rat) / 16 + 27315 / 100) : Rat) = 0 := by decide +kernel
  have e : roundFree (2 ^ 32 * expQ 0) = 2 ^ 32 := by
    have : (2 ^ 32 * expQ 0 : Rat) = ((2 ^ 32 : Int) : Rat) := by decide +kernel
    simp [this, roundFree]
  unfold lifeRate; rw [h, Rat.mul_zero, e]; rfl
/-- Chapter 22: the factors at 75, 105 and 115 °C, with k = 8.617 × 10⁻⁵ eV/K. -/
theorem test_life_factors : let x (t : Rat) : Rat := 7 / 10 / (8617 / 100000000) * (100 / 36815 - 1 / (t + 27315 / 100))
    (expQ (x 75) * 1000).floor = 281 ∧ (expQ (x 105) * 1000).floor = 1792 ∧ (expQ (x 115) * 1000).floor = 3117 := by decide +kernel

/-- Chapter 04: port 7 of the calibration stagger, 512 000 tk. -/
theorem test_stagger : (Channel.reset.stagger 512000 7).phase = 362667 ∧ (Channel.reset.stagger 512000 7).reload = 511999 := by
  decide +kernel

/-- Chapters 02 and 16: the addresses of slots 11 and 3, and the alert response of slot 3. -/
theorem test_slot_address :
    State.twAddr { upState with sup := { upSupplies with slotId := some 11 } } .ma = some 0x4B ∧
    State.twAddr { upState with sup := { upSupplies with slotId := some 3 } } .ma = some 0x43 := by decide +kernel
theorem test_alert_answer :
    (after (execAlertResponse .ma true { alerting with sup := { upSupplies with slotId := some 3 } })).tw[0].out = [0x86] := by decide +kernel

/-- Chapter 17: STATUS of an idle LOCAL port, and CT of READ_TIME's reply. -/
theorem test_local_status : upState.localStatus = 0x42 := by decide +kernel
theorem test_read_time :
    (after (execReadTime (pkt [] 0xFFFF) { turnOf 0x0300 (pkt [] 0xFFFF) with
      time := { upState.time with ct := 0x0123456789AB } })).host[0].replies.map Reply.payload =
    [[0xAB, 0x89, 0x67, 0x45, 0x23, 0x01, 0, 0]] := by
  decide +kernel

/-- Chapter 18: the WRITE_REGS of TRY is accepted, and the commit it starts changes TRY alone. -/
theorem test_try_write :
    let p := pkt [0x01, 0x02, 0, 0, 0, 0, 0, 0x10, 0, 0, 0, 0x30] 7
    let t := after (execWriteRegs 2 p (turnOf 0x0202 p))
    t.host[0].replies.map Reply.status = [stAccepted] ∧
    t.store.commit.map (fun c => Mem.word cfgDefault c.cfg (portOff 7 0)) = some 0x13800000 := by decide +kernel

/-- Chapter 19: eight products of 16 001 and 0.125, and ACCS by 4. -/
theorem test_moving_average :
    roundShift .halfEven (16001 * 0x10000000) 31 = 2000 ∧ roundShift .halfEven 16000 4 = 1000 := by decide +kernel

/-- Chapter 20: SEQ 0 is newer than SEQ 0xFFFF_FFFF. -/
theorem test_newer : newer 0 0xFFFFFFFF = true ∧ newer 0xFFFFFFFF 0 = false := by decide

/-! ### Vavis at its limits (R510, R511, R514) -/

def withFw (a b : Word) : State :=
  { upState with core := Vector.replicate 5 { VCore.reset with up := true, fw := { VCtx.reset with v := (VCtx.reset.v.set 1 a).set 2 b } } }
/-- v3, and FL, after an instruction of PC0's firmware. -/
def v3fl : Out → Word × Byte
  | .next t => (t.core[0].fw.v[3], t.core[0].fw.fl)
  | _ => (0, 0)
theorem test_mac : (after (execMac ⟨0, false⟩ false 1 2 .follow .halfEven (withFw 16001 0x10000000))).core[0].fw.acc[0] = 2000 := by
  decide +kernel
theorem test_add_saturates : v3fl (execAdd ⟨0, false⟩ 3 1 2 .saturating (withFw 0x7FFFFFFF 1)) = (0x7FFFFFFF, 0x18) := by
  decide +kernel
theorem test_add_wraps : v3fl (execAdd ⟨0, false⟩ 3 1 2 .modular (withFw 0x7FFFFFFF 1)) = (0x80000000, 0x1A) := by decide +kernel
theorem test_abs_of_least : v3fl (execAbs ⟨0, false⟩ 3 1 .saturating (withFw 0x80000000 0)) = (0x7FFFFFFF, 0x18) := by decide +kernel
theorem test_div_by_zero : v3fl (execDiv ⟨0, false⟩ 3 1 2 (withFw 5 0)) = (0x7FFFFFFF, 0x98) := by decide +kernel

/-! ### Ill-formed commands are refused by WellFormed -/

theorem test_wf_slot_latch : (Instr.slotLatch [1, 2]).wf = false := by decide
theorem test_wf_cad_qualified : (Instr.cadQualified [25000]).wf = false := by decide
theorem test_wf_marker : (Instr.frmMarker 5 0).wf = false := by decide
theorem test_wf_message_length : (Instr.pdMessage 0 { aMsg .accept with len := 261 }).wf = false := by decide
theorem test_wf_message_chunk : (Instr.pdMessage 0 { aMsg .accept with chunk := some (10, true) }).wf = false := by decide
theorem test_wf_request_position : (Instr.pdMessage 0 (aMsg (.request ⟨0, 10, 10, 0, false⟩))).wf = false := by decide
theorem test_wf_fixed_object :
    (Instr.pdMessage 0 (aMsg (.sourceCaps ⟨false, false, false, false, false⟩ [.fixed 51200 100]))).wf = false := by decide
theorem test_wf_pps_object : (Instr.pdMessage 0 (aMsg (.sinkCaps false 0 [.pps 9000 5000 60]))).wf = false := by decide
theorem test_wf_avs_object : (Instr.pdMessage 0 (aMsg (.eprSinkCaps [.avs 15000 48000 256]))).wf = false := by decide
theorem test_wf_chunk_request : (Instr.chunkRequest 0 .sop ⟨1, 10⟩).wf = false := by decide
theorem test_wf_two_wire : (Instr.twoWireWrite .ma (List.replicate 259 0) .stop).wf = false := by decide +kernel
theorem test_wf_read_group : (Instr.readRegs 4 (pkt [] 0)).wf = false := by decide
theorem test_wf_write_group : (Instr.writeRegs 8 (pkt [] 0)).wf = false := by decide
theorem test_wf_scrub_page : (Instr.scrubPage [3] [4, 3]).wf = false ∧ (Instr.scrubPage [3] [4]).wf = true := by decide
theorem test_wf_loop_end : (Instr.loop ⟨0, true⟩ 0 (.imm 2) 0).wf = false := by decide
theorem test_wf_loop_count : (Instr.loop ⟨0, true⟩ 0 (.imm 4096) 5).wf = false := by decide
theorem test_wf_rep_count : (Instr.rep ⟨0, true⟩ (.imm 65536)).wf = false := by decide
theorem test_wf_condition : (Instr.bc ⟨0, true⟩ 12 5).wf = false := by decide
theorem test_wf_holds : (Instr.loop ⟨0, true⟩ 0 (.imm 2) 5).wf = true ∧ (Instr.chunkRequest 0 .sop ⟨1, 9⟩).wf = true := by decide

/-- The table gives no row any bits: no word spells a command, and withFetchWord places none. -/
theorem test_no_word (s : State) (n w : Nat) : decodeTableWord n w = none ∧ s.withFetchWord n w = s := ⟨rfl, rfl⟩

/-- Words of code written out from the formats of R507: ADD v3, v2, v1; ADDI v3, v2, 0x1FFFF; ACLR acc1; B five words on; and an
ADD with M = 0b11, which is illegal (R508). -/
theorem test_vavis_words (c : Ctx) :
    vavisDecode c 0x04C84000 = some (execAdd c 3 2 1 .follow) ∧ vavisDecode c 0x50C9FFFF = some (execAddi c 3 2 0x1FFFF) ∧
    vavisDecode c 0x80000010 = some (execAclr c true) ∧ vavisDecode c 0xA0000005 = some (execB c 5) ∧
    vavisDecode c 0x04C87000 = none := ⟨rfl, rfl, rfl, rfl, rfl⟩

/-- AES-256: two bytes of the S-box, the first word of the key expansion example and a column of FIPS 197; and a product of the
second test case of the specification of GCM. -/
theorem test_aes_sub : aesSub 0x53 = 0xED ∧ aesSub 0 = 0x63 := by decide +kernel
theorem test_aes_key :
    (keyWords 1 8 1 (pieces 4 8 [0x60, 0x3D, 0xEB, 0x10, 0x15, 0xCA, 0x71, 0xBE, 0x2B, 0x73, 0xAE, 0xF0, 0x85, 0x7D, 0x77, 0x81,
      0x1F, 0x35, 0x2C, 0x07, 0x3B, 0x61, 0x08, 0xD7, 0x2D, 0x98, 0x10, 0xA3, 0x09, 0x14, 0xDF, 0xF4]).reverse).headD [] =
    [0x9B, 0xA3, 0x54, 0x11] := by decide +kernel
theorem test_aes_column : mixColumn [0xDB, 0x13, 0x53, 0x45] = [0x8E, 0x4D, 0xA1, 0xBC] := by decide +kernel
theorem test_ghash_product :
    ghashMul 128 0x0388DACE60B6A392F328C2B971B2FE78 0x66E94BD4EF8A2C3B884CFA59CA342B2E = 0x5E2EC746917062882C85B0685353DEB7 := by
  decide +kernel

/-- The check value of the CRC-32 of Ethernet over the digits 1 to 9. -/
theorem test_fcs :
    ~~~(([0x31, 0x32, 0x33, 0x34, 0x35, 0x36, 0x37, 0x38, 0x39] : List Byte).foldl fcsByte 0xFFFFFFFF) = 0xCBF43926 := by decide +kernel
/-! ### A witness for the hypotheses of every clause of every statement -/

theorem witness_EveryStepKeepsForm :
    ∃ (s t : State), s.nvOk = true ∧ step s = .next t :=
  ⟨State.reset, State.reset, by decide, rfl⟩

theorem witness_SuppliesAndInsertion :
    (∃ (s : State) (u m d : Bool) (pg : Vector Schmitt 12) (cin reti fn : Schmitt), s.sup.hvUp = false) ∧
    (∃ (s : State) (u m d : Bool) (pg : Vector Schmitt 12) (cin reti fn : Schmitt), s.sup.hvUp = true) :=
  ⟨⟨State.reset, false, false, false, Vector.replicate 12 .low, .low, .low, .low, by decide⟩,
   ⟨upState, false, false, false, Vector.replicate 12 .low, .low, .low, .low, by decide⟩⟩

theorem witness_ChargePump :
    (∃ (s : State) (mv : Nat), s.sup.hvUp = true ∧ 11000 ≤ mv) ∧
    (∃ (s : State) (mv : Nat), (s.sup.hvUp = false ∨ mv < 11000)) ∧
    (∃ (s : State) (mv : Nat), s.sup.hvUp = true ∧ s.sup.vcpOk = true ∧ mv < 10000 ∧
      (s.hsFrom.1.closedPath = true ∨ ∃ n : PortId, s.port[n].pp.st = .closing ∨ s.port[n].pp.st = .closed)) ∧
    (∃ (s : State) (mv : Nat), (s.sup.hvUp = false ∨ s.sup.vcpOk = false ∨ 10000 ≤ mv ∨ (s.hsFrom.1.closedPath = false ∧
      ∀ n : PortId, s.port[n].pp.st ≠ .closing ∧ s.port[n].pp.st ≠ .closed))) :=
  ⟨⟨upState, 11000, by decide⟩,
   ⟨upState, 9000, by decide⟩,
   ⟨closedState, 9000, by decide⟩,
   ⟨upState, 9000, by decide⟩⟩

theorem witness_LogicDieResets :
    (∃ (s : State) (a b c : Nat), s.sup.hvUp = true ∧ s.sup.logicUp = false ∧ 3050 < a ∧ 840 < b ∧ 840 < c) ∧
    (∃ (s : State) (a b c : Nat) (r : Bool),
      (s.sup.hvUp = false ∨ s.sup.logicUp = true ∨ r = false ∨ a ≤ 3050 ∨ b ≤ 840 ∨ c ≤ 840)) ∧
    (∃ (s : State) (w : Supply) (mv : Nat), s.sup.logicUp = true ∧ mv < fallsBelow w) ∧
    (∃ (s : State) (w : Supply) (mv : Nat), (s.sup.logicUp = false ∨ fallsBelow w ≤ mv)) ∧
    (∃ (s : State) (ns : Nat), s.sup.logicUp = true ∧ 1040 ≤ ns) ∧
    (∃ (s : State) (ns : Nat), (s.sup.logicUp = false ∨ ns < 960)) ∧
    (∃ (s : State) (ns : Nat), s.sup.logicUp = true ∧ 960 ≤ ns ∧ ns < 1040) ∧
    (∃ (s : State), s.sbUp = true) ∧
    (∃ (s : State), s.sbUp = false) ∧
    (∃ (s : State) (k : PlatId), (s.core[coreOf k]).up = true) ∧
    (∃ (s : State) (k : PlatId), (s.core[coreOf k]).up = false) :=
  ⟨⟨{ State.reset with sup := { Supplies.reset with hvUp := true } }, 3100, 900, 900, by decide⟩,
   ⟨upState, 3100, 900, 900, true, by decide⟩,
   ⟨upState, .vdd09, 800, by decide⟩,
   ⟨upState, .vdd09, 900, by decide⟩,
   ⟨upState, 2000, by decide⟩,
   ⟨upState, 100, by decide⟩,
   ⟨upState, 1000, by decide⟩,
   ⟨upState, by decide⟩,
   ⟨State.reset, by decide⟩,
   ⟨upState, 0, by decide⟩,
   ⟨State.reset, 0, by decide⟩⟩

theorem witness_HoldOverAndLink :
    (∃ (s : State), s.sup.hvUp = true ∧ s.sup.linkSilent = false) ∧
    (∃ (s : State), (s.sup.hvUp = false ∨ s.sup.linkSilent = true)) ∧
    (∃ (s : State), s.sup.logicUp = true ∧ s.sup.linkSilent = true) ∧
    (∃ (s : State), (s.sup.logicUp = false ∨ s.sup.linkSilent = false)) ∧
    (∃ (s : State) (n : PortId), s.notBack n = true ∧ s.sup.primer ≠ .service ∧ s.port[n].tc.st.attached = true) ∧
    (∃ (s : State) (n : PortId), s.notBack n = true ∧ s.sup.primer = .service) ∧
    (∃ (s : State) (n : PortId), (s.notBack n = false ∨ (s.sup.primer ≠ .service ∧ s.port[n].tc.st.attached = false))) ∧
    (∃ (s : State) (k : PlatId) (n : PortId) (c1 c2 : Nat) (v : Nat), s.nextBack k = some n ∧ s.sbUp = true ∧
      s.sup.linkSilent = false ∧ s.plat[k].fallback = false ∧ (s.core[coreOf k]).up = true) ∧
    (∃ (s : State) (k : PlatId) (n : PortId) (c1 c2 : Nat) (v : Nat), s.nextBack k = some n ∧ s.sbUp = true ∧
      s.sup.linkSilent = false ∧ s.plat[k].fallback = true) ∧
    (∃ (s : State) (k : PlatId) (c1 c2 : Nat) (v : Nat),
      (s.nextBack k = none ∨ s.sbUp = false ∨ s.sup.linkSilent = true ∨ (s.plat[k].fallback = false ∧
      s.core[coreOf k].up = false))) :=
  ⟨⟨upState, by decide⟩,
   ⟨State.reset, by decide⟩,
   ⟨{ upState with sup := { upState.sup with linkSilent := true } }, by decide⟩,
   ⟨upState, by decide⟩,
   ⟨heldState, 0, by decide⟩,
   ⟨{ heldState with sup := { heldState.sup with primer := .service } }, 0, by decide⟩,
   ⟨upState, 0, by decide⟩,
   ⟨heldState, 0, 0, 0, 0, 0, by decide⟩,
   ⟨{ heldState with plat := heldState.plat.set 0 { heldState.plat[0] with fallback := true, takeBack := some 0 } }, 0,
    0, 0, 0, 0, by decide⟩,
   ⟨upState, 0, 0, 0, 0, by decide⟩⟩

theorem witness_PrimerAndRestarts :
    (∃ (s : State) (w : Bool) (b : Option Bank) (d : MainReads), s.sup.primer = .running w b) ∧
    (∃ (s : State) (w : Bool) (b : Option Bank) (d : MainReads), s.sup.primer = .running w b) ∧
    (∃ (s : State) (u : Bool) (d : MainReads) (k : PlatId) (l : List PlatId), s.sup.primer = .done ∧
      s.sup.reload = k :: l ∧ s.hs.warn = false) ∧
    (∃ (s : State) (u : Bool) (d : MainReads), (s.sup.primer = .off ∨ s.sup.primer = .service ∨ (s.sup.primer = .done ∧
      (s.sup.reload = [] ∨ s.hs.warn = true)))) ∧
    (∃ (s : State) (r : RestartReq), s.sup.restartReq = some r ∧ s.sbUp = true ∧ (allPorts.any s.portBusy) = false ∧
      s.advance = []) ∧
    (∃ (s : State), (s.sup.restartReq = none ∨ s.sbUp = false ∨ (allPorts.any s.portBusy) = true ∨ s.advance ≠ [])) ∧
    (∃ (s : State) (r : RestartReq) (n : PortId), s.sup.restartReq = some r ∧ allPorts.find? s.portBusy = some n) ∧
    (∃ (s : State), (s.sup.restartReq = none ∨ allPorts.find? s.portBusy = none)) ∧
    (∃ (s : State) (x : Int), s.sbUp = true) ∧
    (∃ (s : State) (x : Int), s.sbUp = false) ∧
    (∃ (s : State) (n : PortId) (f : BitVec 6) (c : CmdRef) (st : TcState), s.port[n].test = some (c, st)) ∧
    (∃ (s : State) (n : PortId) (f : BitVec 6), s.port[n].test = none) :=
  ⟨⟨{ upState with sup := { upState.sup with primer := .running false none } }, false, none, ⟨false, 0⟩, by decide⟩,
   ⟨{ upState with sup := { upState.sup with primer := .running false none } }, false, none, ⟨false, 1⟩, by decide⟩,
   ⟨{ upState with sup := { upState.sup with reload := [0] } }, false, ⟨false, 0⟩, 0, [], by decide⟩,
   ⟨upState, false, ⟨false, 0⟩, by decide⟩,
   ⟨{ upState with sup := { upState.sup with restartReq := some { bank := none, cmd := { host := .ma, tag := 0, op := 0x120, target := 0xFFFF } } } },
    _, rfl, by decide⟩,
   ⟨upState, by decide⟩,
   ⟨busyRestart, _, 0, rfl, by decide⟩,
   ⟨upState, by decide⟩,
   ⟨upState, 0, by decide⟩,
   ⟨State.reset, 0, by decide⟩,
   ⟨testState, 0, 0, _, _, rfl⟩,
   ⟨upState, 0, 0, by decide⟩⟩

theorem witness_ChassisTicks :
    (∃ (s : State) (x : Nat) (b : Bool), s.sup.hvUp = true ∧ s.time.st = .locked) ∧
    (∃ (s : State), s.sup.hvUp = true ∧ s.fromCad = false ∧ s.time.st ≠ .slew) ∧
    (∃ (s : State) (x : Nat), (s.sup.hvUp = false ∨ s.fromCad = true ∨ s.time.owed / 524288 ≠ x)) ∧
    (∃ (s : State) (x : Nat) (b : Bool), s.sup.hvUp = true ∧ s.time.st = .slew) ∧
    (∃ (s : State) (x : Nat) (b : Bool), s.sup.hvUp = true ∧ s.fromCad = false ∧ (s.time.st = .holdover →
      s.time.cause ≠ 4)) ∧
    (∃ (s : State) (x : Nat) (b : Bool), s.sup.hvUp = true) ∧
    (∃ (s : State) (x : Nat) (b : Bool), s.sup.hvUp = false) :=
  ⟨⟨{ upState with time := { upState.time with st := .locked } }, 12, true, by decide⟩,
   ⟨{ upState with time := { upState.time with st := .holdover } }, by decide⟩,
   ⟨{ upState with time := { upState.time with st := .locked } }, 12, by decide⟩,
   ⟨{ upState with time := { upState.time with st := .slew, slewOfs := 2, ct := 2046 } }, 12, true, by decide⟩,
   ⟨{ upState with time := { upState.time with st := .holdover } }, 12, true, by decide⟩,
   ⟨{ upState with time := { upState.time with st := .locked } }, 12, true, by decide⟩,
   ⟨State.reset, 12, true, by decide⟩⟩

theorem witness_ChassisStates :
    (∃ (s : State), s.sup.hvUp = true ∧ (s.time.st = .locked ∨ s.time.st = .slew)) ∧
    (∃ (s : State), s.sup.hvUp = true ∧ (s.time.st = .acquire ∨ s.time.st = .holdover)) ∧
    (∃ (s : State) (a b : Nat), s.sup.hvUp = true ∧ (s.time.st = .locked ∨ s.time.st = .slew) ∧ s.time.xtalOk = true ∧
      cadInside a = false ∧ cadInside b = false) ∧
    (∃ (s : State) (a b : Nat), (s.sup.hvUp = false ∨ s.time.xtalOk = false ∨ cadInside a = true ∨ cadInside b = true)) ∧
    (∃ (s : State) (l : List Nat), s.sup.hvUp = true ∧ s.time.xtalOk = true ∧ l.length = 16 ∧ l.all cadInside = true) ∧
    (∃ (s : State) (l : List Nat), (s.sup.hvUp = false ∨ s.time.xtalOk = false ∨ l.all cadInside = false)) ∧
    (∃ (s : State), s.sup.hvUp = true ∧ (s.time.st = .locked ∨ s.time.st = .slew) ∧ s.time.xtalOk = true) ∧
    (∃ (s : State), (s.sup.hvUp = false ∨ s.time.xtalOk = false ∨ s.time.st = .acquire ∨ s.time.st = .holdover)) ∧
    (∃ (s : State), s.sup.hvUp = true ∧ s.time.xtalOk = true ∧ s.time.st ≠ .holdover) ∧
    (∃ (s : State), s.sup.hvUp = true ∧ s.time.xtalOk = true ∧ s.time.st = .holdover) ∧
    (∃ (s : State), (s.sup.hvUp = false ∨ s.time.xtalOk = false)) ∧
    (∃ (s : State), s.time.st = .slew ∧ s.time.slewOfs = 0) ∧
    (∃ (s : State), (s.time.st ≠ .slew ∨ s.time.slewOfs ≠ 0)) ∧
    (∃ (s : State) (m : Marker), s.time.frmDone = some m ∧ s.time.st ≠ .acquire) ∧
    (∃ (s : State) (m : Marker), s.time.frmDone = some m ∧ m.width ≠ 1 ∧ m.width ≠ 3) ∧
    (∃ (s : State) (m : Marker), s.time.frmDone = some m ∧ m.width = 1 ∧ s.time.st = .locked ∧ m.ofs = 0 ∧
      m.rise.toNat % 2048 = 0) ∧
    (∃ (s : State) (m : Marker), s.time.frmDone = some m ∧ m.width = 1 ∧ s.time.st = .locked ∧ m.ofs = 0 ∧
      m.rise.toNat % 2048 ≠ 0) ∧
    (∃ (s : State) (m : Marker), s.time.frmDone = some m ∧ m.width = 3 ∧ s.time.st = .holdover ∧ s.time.cadOk = true ∧
      s.time.cause ≠ 4) ∧
    (∃ (s : State) (m : Marker), s.time.frmDone = some m ∧ m.width = 1 ∧ s.time.st = .acquire ∧ s.time.frameLock = false) ∧
    (∃ (s : State) (m : Marker), s.time.frmDone = some m ∧ m.width = 3 ∧ s.time.st = .acquire ∧ s.time.frameLock = true ∧
      m.rise.toNat % 2048 = 0) ∧
    (∃ (s : State) (r : CT) (w : Nat), (s.time.frmDone.all fun m => m.rise ≠ r || m.width ≠ w) = true) :=
  ⟨⟨lockedState, by decide⟩,
   ⟨upState, by decide⟩,
   ⟨lockedState, 24000, 24000, by decide⟩,
   ⟨upState, 25000, 24000, by decide⟩,
   ⟨lockedState, List.replicate 16 25000, by decide⟩,
   ⟨upState, [1], by decide⟩,
   ⟨lockedState, by decide⟩,
   ⟨upState, by decide⟩,
   ⟨lockedState, by decide⟩,
   ⟨{ upState with time := { upState.time with st := .holdover } }, by decide⟩,
   ⟨State.reset, by decide⟩,
   ⟨{ upState with time := { upState.time with st := .slew } }, by decide⟩,
   ⟨upState, by decide⟩,
   ⟨{ lockedState with time := { lockedState.time with frmDone := some { rise := 5, fall := 6, width := 1, ofs := 0 } } },
    { rise := 5, fall := 6, width := 1, ofs := 0 }, rfl, by decide⟩,
   ⟨{ lockedState with time := { lockedState.time with frmDone := some { rise := 5, fall := 7, width := 2, ofs := 0 } } },
    { rise := 5, fall := 7, width := 2, ofs := 0 }, rfl, by decide⟩,
   ⟨{ lockedState with time := { lockedState.time with frmDone := some { rise := 4096, fall := 4097, width := 1, ofs := 0 } } },
    { rise := 4096, fall := 4097, width := 1, ofs := 0 }, rfl, by decide⟩,
   ⟨{ lockedState with time := { lockedState.time with frmDone := some { rise := 5, fall := 6, width := 1, ofs := 0 } } },
    { rise := 5, fall := 6, width := 1, ofs := 0 }, rfl, by decide⟩,
   ⟨{ lockedState with time := { lockedState.time with st := .holdover, cause := 1, frmDone := some { rise := 5, fall := 8, width := 3, ofs := 0 } } },
    { rise := 5, fall := 8, width := 3, ofs := 0 }, rfl, by decide⟩,
   ⟨{ upState with time := { upState.time with frmDone := some { rise := 5, fall := 6, width := 1, ofs := 0 } } },
    { rise := 5, fall := 6, width := 1, ofs := 0 }, rfl, by decide⟩,
   ⟨{ upState with time := { upState.time with frameLock := true, frmDone := some { rise := 4096, fall := 4099, width := 3, ofs := 0 } } },
    { rise := 4096, fall := 4099, width := 3, ofs := 0 }, rfl, by decide⟩,
   ⟨upState, 0, 1, by decide⟩⟩

theorem witness_SlotsAndSuperframes :
    (∃ (s : State) (v : BitVec 6), s.sup.hvUp = true ∧ s.sup.slotId = none) ∧
    (∃ (s : State) (l : List (BitVec 6)), (s.sup.hvUp = false ∨ s.sup.slotId ≠ none ∨ l.length ≠ 16 ∨ (∃ x ∈ l,
      x ≠ l.headD 0))) ∧
    (∃ (s : State) (v w : BitVec 6), s.sup.slotId = some v ∧ s.sup.slotPins ≠ some w) ∧
    (∃ (s : State) (w : BitVec 6), (s.sup.slotId = none ∨ some w = s.sup.slotPins)) ∧
    (∃ (s : State), s.sup.hvUp = true ∧ s.time.ct.toNat % 2 ^ 21 = 0 ∧ s.time.epochPend = none) ∧
    (∃ (s : State) (v : BitVec 27) (c : Option CmdRef), s.sup.hvUp = true ∧ s.time.ct.toNat % 2 ^ 21 = 0 ∧
      s.time.epochPend = some (v, c)) ∧
    (∃ (s : State), (s.sup.hvUp = false ∨ s.time.ct.toNat % 2 ^ 21 ≠ 0)) ∧
    (∃ (s : State) (c : CoreId), c ≠ coreSB) :=
  ⟨⟨{ upState with sup := { upState.sup with slotId := none } }, 3, by decide⟩,
   ⟨upState, [1, 2], by decide⟩,
   ⟨{ upState with sup := { upState.sup with slotId := some 1 } }, 1, 2, by decide⟩,
   ⟨State.reset, 0, by decide⟩,
   ⟨upState, by decide⟩,
   ⟨{ upState with time := { upState.time with epochPend := some (5, none) } }, 5, none, by decide⟩,
   ⟨State.reset, by decide⟩,
   ⟨upState, 0, by decide⟩⟩

theorem witness_CounterChannels :
    (∃ (s : State) (ch : Fin 128), s.chan[ch].dueM = true ∧ 96 ≤ ch.val) ∧
    (∃ (s : State) (ch : Fin 128), s.chan[ch].dueM = true ∧ ch.val < 96) ∧
    (∃ (s : State) (ch : Fin 128), s.chan[ch].dueM = false) ∧
    (∃ (s : State) (ch : Fin 128), s.chan[ch].dueW = true) ∧
    (∃ (s : State) (ch : Fin 128), s.chan[ch].dueW = false) ∧
    (∃ (s : State) (c : CoreId) (ch : Fin 128) (v : Word), chanOwner ch ≠ c) ∧
    (∃ (s : State) (c : CoreId) (ch : Fin 128) (v : Word) (r : CoreReg), chanOwner ch ≠ c ∧ r ∈ [.chReload ch, .chBuf ch,
      .chMatch ch, .chPhase ch]) ∧
    (∃ (s : State) (c : CoreId) (v : Word) (r : CoreReg), c ≠ coreSB ∧ r ∈ [.timeStat, .frmCap]) :=
  ⟨⟨{ upState with chan := Vector.replicate 128 { Channel.reset with dueM := true } }, 100, by decide⟩,
   ⟨{ upState with chan := Vector.replicate 128 { Channel.reset with dueM := true } }, 10, by decide⟩,
   ⟨upState, 0, by decide⟩,
   ⟨{ upState with chan := Vector.replicate 128 { Channel.reset with dueW := true } }, 100, by decide⟩,
   ⟨upState, 0, by decide⟩,
   ⟨upState, 4, 0, 0, by decide⟩,
   ⟨upState, 4, 0, 7, .chBuf 0, by decide⟩,
   ⟨upState, 0, 7, .timeStat, by decide⟩⟩

theorem witness_TimetableRequests :
    (∃ (s : State) (c : CoreId), s.tt.gos.contains c = false) ∧
    (∃ (s : State) (c : CoreId), s.tt.gos.contains c = true) ∧
    (∃ (s : State) (x : Nat) (b : Bool) (c : CoreId), s.sup.hvUp = true ∧ s.time.st = .locked ∧
      s.tt.gos.contains c = true) ∧
    (∃ (s : State) (i : Fin 256) (e : Entry), s.tt.entries[i] = some e) ∧
    (∃ (s : State) (i : Fin 256) (e : Entry) (p : PortId), s.tt.entries[i] = some e ∧ e.owner = p.val) ∧
    (∃ (s : State) (i : Fin 256) (e : Entry) (c : CoreId), s.tt.entries[i] = some e ∧ c ≠ coreSB ∧
      (allPorts.all fun p => e.owner ≠ p.val || coreOf (platOf p) ≠ c) = true) ∧
    (∃ (s : State) (c : CoreId) (i : Fin 256), s.tt.entries[i] = none) ∧
    (∃ (s : State) (c : CoreId) (v : Word), c ≠ coreSB) ∧
    (∃ (s : State) (i : Fin 256) (e : Entry) (g : CT × Int), s.tt.entries[i] = some e ∧ e.kind = .reserve ∧
      e.todo.head? = some g ∧ due s.time.ct g.1 = true ∧ s.cancelComes i e = false) ∧
    (∃ (s : State) (i : Fin 256) (e : Entry), s.tt.entries[i] = some e ∧ s.cancelComes i e = true) ∧
    (∃ (s : State) (i : Fin 256),
      (s.tt.entries[i].any fun e => e.kind = .reserve && e.todo.head?.any fun g => due s.time.ct g.1) = false) :=
  ⟨⟨upState, 1, by decide⟩,
   ⟨{ upState with tt := { upState.tt with gos := [1] } }, 1, by decide⟩,
   ⟨{ lockedState with tt := { lockedState.tt with gos := [1] } }, 12, false, 1, by decide⟩,
   ⟨{ upState with tt := { upState.tt with entries := Vector.replicate 256 (some anEntry) } }, 3, anEntry, by decide⟩,
   ⟨{ upState with tt := { upState.tt with entries := Vector.replicate 256 (some anEntry) } }, 3, anEntry, 0, by decide⟩,
   ⟨{ upState with tt := { upState.tt with entries := Vector.replicate 256 (some anEntry) } }, 3, anEntry, 2, by decide⟩,
   ⟨upState, 0, 0, by decide⟩,
   ⟨upState, 0, 7, by decide⟩,
   ⟨{ upState with tt := { upState.tt with entries := Vector.replicate 256 (some anEntry) } }, 0, anEntry, (0, 1),
    by decide⟩,
   ⟨{ upState with tt := { upState.tt with entries := Vector.replicate 256 (some anEntry) }, pending := [.ttCancel 0 0] },
    0, anEntry, by decide⟩,
   ⟨upState, 0, by decide⟩⟩

theorem witness_HotSwapStates :
    (∃ (s : State) (vin : Nat), s.hs.st = .qualify ∧ s.sup.hvUp = true ∧ s.vinInside vin = true) ∧
    (∃ (s : State) (vin : Nat), (s.hs.st ≠ .qualify ∨ s.sup.hvUp = false ∨ s.vinInside vin = false)) ∧
    (∃ (s : State), s.hs.st = .phase ∧ s.sup.slotId ≠ none ∧ s.time.frameLock = true) ∧
    (∃ (s : State), s.hs.st = .phase ∧ s.sup.slotId ≠ none ∧ s.time.frameLock = false ∧ s.hs.phTo = true ∧
      s.nocadGo = true) ∧
    (∃ (s : State), (s.hs.st ≠ .phase ∨ s.sup.slotId = none ∨ (s.time.frameLock = false ∧
      (s.hs.phTo = false ∨ s.nocadGo = false)))) ∧
    (∃ (s : State), s.hs.st = .phase ∧ s.sup.slotId ≠ none ∧ (s.time.frameLock = true ∨ s.nocadGo = true)) ∧
    (∃ (s : State), s.hs.st = .phase ∧ (s.sup.slotId = none ∨ (s.time.frameLock = false ∧ s.nocadGo = false))) ∧
    (∃ (s : State), s.hs.st ≠ .phase) ∧
    (∃ (s : State) (vin vout : Nat), s.hs.st = .inrush ∧ vin < vout + s.pgDv) ∧
    (∃ (s : State) (vin vout : Nat), (s.hs.st ≠ .inrush ∨ vout + s.pgDv ≤ vin)) ∧
    (∃ (s : State) (vin vout gate : Nat), s.hs.st = .settle ∧ vin < vout + s.pgDv ∧ vout + 8000 ≤ gate) ∧
    (∃ (s : State) (vin vout gate : Nat), (s.hs.st ≠ .settle ∨ vout + s.pgDv ≤ vin ∨ gate < vout + 8000)) ∧
    (∃ (s : State), s.hs.st = .faultWait) ∧
    (∃ (s : State), s.hs.st ≠ .faultWait) ∧
    (∃ (s : State) (vin : Nat), s.hs.st = .feedLost ∧ s.vinInside vin = true) ∧
    (∃ (s : State) (vin : Nat), (s.hs.st ≠ .feedLost ∨ s.vinInside vin = false)) ∧
    (∃ (s : State), s.hs.st = .on) ∧
    (∃ (s : State), s.hs.st ≠ .on) ∧
    (∃ (s : State) (fall : Nat), s.hs.st = .inrush ∧ s.sagDv ≤ fall) ∧
    (∃ (s : State) (fall : Nat), (s.hs.st ≠ .inrush ∨ fall < s.sagDv)) ∧
    (∃ (s : State) (v : Int), (s.hs.st = .settle ∨ s.hs.st = .on)) ∧
    (∃ (s : State) (v : Int), s.hs.st ≠ .settle ∧ s.hs.st ≠ .on) :=
  ⟨⟨upState, 48000, by decide⟩,
   ⟨upState, 0, by decide⟩,
   ⟨{ inPhase with time := { upState.time with frameLock := true } }, by decide⟩,
   ⟨{ inPhase with hs := { inPhase.hs with phTo := true } }, by decide⟩,
   ⟨upState, by decide⟩,
   ⟨inPhase, by decide⟩,
   ⟨{ inPhase with fuse := { State.reset.fuse with hs3 := 1 } }, by decide⟩,
   ⟨upState, by decide⟩,
   ⟨{ upState with hs := { upState.hs with st := .inrush } }, 48000, 48000, by decide⟩,
   ⟨upState, 0, 0, by decide⟩,
   ⟨{ upState with hs := { upState.hs with st := .settle } }, 48000, 48000, 56000, by decide⟩,
   ⟨upState, 0, 0, 0, by decide⟩,
   ⟨{ upState with hs := { upState.hs with st := .faultWait } }, by decide⟩,
   ⟨upState, by decide⟩,
   ⟨{ upState with hs := { upState.hs with st := .feedLost } }, 48000, by decide⟩,
   ⟨upState, 48000, by decide⟩,
   ⟨onState, by decide⟩,
   ⟨upState, by decide⟩,
   ⟨{ upState with hs := { upState.hs with st := .inrush } }, 9000, by decide⟩,
   ⟨upState, 0, by decide⟩,
   ⟨onState, 0, by decide⟩,
   ⟨upState, 0, by decide⟩⟩

theorem witness_HotSwapFaults :
    (∃ (s : State) (v : Int), s.hs.st.closedPath = true ∧ s.ftV ≤ v) ∧
    (∃ (s : State) (v : Int), (v < s.ftV ∨ s.hsFrom.1.closedPath = false)) ∧
    (∃ (s : State) (v : Int), (s.hs.st = .settle ∨ s.hs.st = .on) ∧ s.hs.regulating = true ∧ s.cbV ≤ v) ∧
    (∃ (s : State) (v : Int), (v < s.cbV ∨ s.hsFrom.2 = false ∨ (s.hsFrom.1 ≠ .settle ∧ s.hsFrom.1 ≠ .on))) ∧
    (∃ (s : State), s.hs.st = .inrush) ∧
    (∃ (s : State), s.hsFrom.1 ≠ .inrush) ∧
    (∃ (s : State) (v : Int), s.hs.st.closedPath = true ∧ v < -s.rcV ∧
      2 ≤ (s.hs.revTrips.filter fun x => (s.time.ct - x).toNat < 2048000).length) ∧
    (∃ (s : State) (v : Int), s.hs.st.closedPath = true ∧ v < -s.rcV ∧
      (s.hs.revTrips.filter fun x => (s.time.ct - x).toNat < 2048000).length < 2) ∧
    (∃ (s : State) (v : Int), (-s.rcV ≤ v ∨ s.hsFrom.1.closedPath = false)) ∧
    (∃ (s : State) (vin : Nat), s.hs.st.closedPath = true ∧ (vin < s.uvF ∨ s.ovV < vin)) ∧
    (∃ (s : State) (vin : Nat), (s.hs.st.closedPath = false ∨ (s.uvF ≤ vin ∧ vin ≤ s.ovV))) ∧
    (∃ (s : State), (s.hs.st = .feedLost ∨ s.hs.removal = true)) ∧
    (∃ (s : State), s.hs.st ≠ .feedLost ∧ s.hs.removal = false) :=
  ⟨⟨onState, 100000, by decide⟩,
   ⟨upState, 0, by decide⟩,
   ⟨{ onState with hs := { onState.hs with regulating := true } }, 100000, by decide⟩,
   ⟨upState, 0, by decide⟩,
   ⟨{ upState with hs := { upState.hs with st := .inrush, inrTo := true } }, by decide⟩,
   ⟨upState, by decide⟩,
   ⟨{ onState with hs := { onState.hs with revTrips := [0, 0] } }, -100000, by decide⟩,
   ⟨onState, -100000, by decide⟩,
   ⟨upState, 0, by decide⟩,
   ⟨onState, 1000, by decide⟩,
   ⟨upState, 0, by decide⟩,
   ⟨{ upState with hs := { upState.hs with st := .feedLost } }, by decide⟩,
   ⟨upState, by decide⟩⟩

theorem witness_WarningAndSegments :
    (∃ (s : State) (vin : Nat), s.hs.st = .on ∧ s.hs.warn = false ∧ vin < s.warnLvl) ∧
    (∃ (s : State) (fall : Nat), s.hs.st = .on ∧ s.hs.warn = false ∧ s.sagDv ≤ fall) ∧
    (∃ (s : State) (c : WarnCause),
      (s.hs.st ≠ .on ∨ s.hs.warn = true ∨ (match c with | .level vin => s.warnLvl ≤ vin | .sag fall => fall < s.sagDv))) ∧
    (∃ (s : State) (vin : Nat), s.hs.warn = true ∧ s.hs.st = .on ∧ s.warnLvl + 1000 ≤ vin) ∧
    (∃ (s : State) (vin : Nat) (b : Bool), (s.hs.warn = false ∨ s.hs.st ≠ .on ∨ b = false ∨ vin < s.warnLvl + 1000)) ∧
    (∃ (s : State) (i : Fin 256), s.hs.st = .inrush ∧ s.dueEntry ownHs .inrush = some i ∧ s.hs.suspended = false ∧
      s.sup.vcpOk = true) ∧
    (∃ (s : State) (i : Fin 256), s.hs.st = .inrush ∧ s.dueEntry ownHs .inrush = some i ∧
      (s.hs.suspended = true ∨ s.sup.vcpOk = false)) ∧
    (∃ (s : State), s.hs.st = .inrush ∧ s.dueEntry ownHs .inrush = none ∧ s.selfPlacing = true ∧ s.hs.suspended = false ∧
      s.sup.vcpOk = true ∧ s.time.ct.toNat % 2048 = s.selfStart + s.selfLen / 4 ∧ s.windowTaken = false ∧
      s.hs.lastSeg ≠ some (s.time.ct.toNat / 2048)) ∧
    (∃ (s : State), (s.hs.st ≠ .inrush ∨ (s.dueEntry ownHs .inrush = none ∧
      (s.selfPlacing = false ∨ s.hs.suspended = true ∨ s.sup.vcpOk = false ∨ s.windowTaken = true ∨ s.hs.lastSeg = some (s.time.ct.toNat / 2048) ∨ s.time.ct.toNat % 2048 ≠ s.selfStart + s.selfLen / 4)))) ∧
    (∃ (s : State), s.hs.st = .inrush ∧ s.selfPlacing = false ∧ (s.tt.pick fun e => e.owner = ownHs).length < 2 ∧
      (s.hsBook (kHs s.hsUnits)).2.ok = true) ∧
    (∃ (s : State), s.hs.st = .inrush ∧ s.selfPlacing = false ∧ (s.tt.pick fun e => e.owner = ownHs).length < 2 ∧
      (s.hsBook (kHs s.hsUnits)).2 = .refused stBudgetRefused ∧ s.hs.halved = 3) ∧
    (∃ (s : State), s.hs.st = .inrush ∧ s.selfPlacing = false ∧ (s.tt.pick fun e => e.owner = ownHs).length < 2 ∧
      (s.hsBook (kHs s.hsUnits)).2 = .refused stBudgetRefused ∧ s.hs.halved < 3) ∧
    (∃ (s : State), (s.hs.st ≠ .inrush ∨ s.selfPlacing = true ∨ 2 ≤ (s.tt.pick fun e => e.owner = ownHs).length)) ∧
    (∃ (s : State), s.sbUp = true ∧ s.sup.linkSilent = false) ∧
    (∃ (s : State), (s.sbUp = false ∨ s.sup.linkSilent = true)) :=
  ⟨⟨onState, 1000, by decide⟩,
   ⟨onState, 9000, by decide⟩,
   ⟨upState, .level 0, Or.inl (by decide)⟩,
   ⟨{ onState with hs := { onState.hs with warn := true } }, 60000, by decide⟩,
   ⟨upState, 0, true, Or.inl (by decide)⟩,
   ⟨segDue, 0, by decide⟩,
   ⟨{ segDue with hs := { segDue.hs with suspended := true } }, 0, by decide, by decide, Or.inl (by decide)⟩,
   ⟨segSelf, by decide⟩,
   ⟨upState, Or.inl (by decide)⟩,
   ⟨inHs .inrush, by decide +kernel⟩,
   ⟨{ inrushDear with hs := { inrushDear.hs with halved := 3 } }, by decide +kernel⟩,
   ⟨inrushDear, by decide +kernel⟩,
   ⟨upState, Or.inl (by decide)⟩,
   ⟨upState, by decide⟩,
   ⟨State.reset, Or.inl (by decide)⟩⟩

theorem witness_SequencerStart :
    (∃ (s : State), s.sq.st = .idle ∧ s.sup.hvUp = true ∧ s.sqSetOk = true ∧ s.hs.st = .on) ∧
    (∃ (s : State), s.sq.st = .idle ∧ s.sup.hvUp = true ∧ s.sqSetOk = false) ∧
    (∃ (s : State), (s.sq.st ≠ .idle ∨ s.sup.hvUp = false ∨ (s.sqSetOk = true ∧ s.pgood = false))) ∧
    (∃ (s : State) (k : Nat), s.pgood = true ∧ s.startAllowed = true ∧ s.nextStep 0 = some k) ∧
    (∃ (s : State), (s.pgood = false ∨ s.startAllowed = false)) ∧
    (∃ (s : State) (x : RailId), s.sq.st = .raise ∧ s.sq.rails[x].waiting = true ∧ (s.sqWin = true →
      s.atWindowStart x = true)) ∧
    (∃ (s : State) (x : RailId), (s.sq.st ≠ .raise ∨ s.sq.rails[x].waiting = false ∨ (s.sqWin = true ∧
      s.atWindowStart x = false))) ∧
    (∃ (s : State) (x y : RailId), s.sq.st = .raise ∧ s.pgood = true ∧ s.used x = true ∧ s.sq.rails[x].en = true ∧
      s.sq.rails[x].pg = true ∧ s.sq.rails[x].qualified = false ∧ s.used y = true ∧ s.stepOf y = s.sq.stepNow ∧
      s.sq.rails[y].qualified = false ∧ x ≠ y) ∧
    (∃ (s : State) (x : RailId) (k : Nat), s.sq.st = .raise ∧ s.pgood = true ∧ s.used x = true ∧
      s.sq.rails[x].en = true ∧ s.sq.rails[x].pg = true ∧ s.sq.rails[x].qualified = false ∧
      s.stepOf x = s.sq.stepNow ∧ ((∀ y : RailId, s.used y = true → s.stepOf y = s.sq.stepNow →
      y = x ∨ s.sq.rails[y].qualified = true)) ∧ s.nextStep (s.sq.stepNow + 1) = some k) ∧
    (∃ (s : State) (x : RailId), s.sq.st = .raise ∧ s.pgood = true ∧ s.used x = true ∧ s.sq.rails[x].en = true ∧
      s.sq.rails[x].pg = true ∧ s.sq.rails[x].qualified = false ∧ ((∀ y : RailId, s.used y = true →
      s.stepOf y = s.sq.stepNow → y = x ∨ s.sq.rails[y].qualified = true)) ∧ s.nextStep (s.sq.stepNow + 1) = none) ∧
    (∃ (s : State) (x : RailId),
      (s.sq.st ≠ .raise ∨ s.used x = false ∨ s.sq.rails[x].en = false ∨ s.sq.rails[x].pg = false ∨ s.sq.rails[x].qualified = true)) ∧
    (∃ (s : State), s.sq.st = .retryWait) ∧
    (∃ (s : State), s.sq.st ≠ .retryWait) ∧
    (∃ (s : State), s.sq.st = .down ∧ s.sq.cause = .host ∧ s.sq.restart ≠ 0) ∧
    (∃ (s : State), (s.sq.st ≠ .down ∨ s.sq.cause ≠ .host ∨ s.sq.restart = 0)) ∧
    (∃ (s : State), s.sq.st = .run) ∧
    (∃ (s : State), s.sq.st ≠ .run) :=
  ⟨⟨onState, by decide⟩,
   ⟨{ onState with fuse := { State.reset.fuse with sqCfg := 0x80000000 } }, by decide⟩,
   ⟨running, Or.inl (by decide)⟩,
   ⟨{ onState with sq := { onState.sq with st := .waitCin } }, 0, by decide⟩,
   ⟨upState, Or.inl (by decide)⟩,
   ⟨raising, 0, by decide⟩,
   ⟨upState, 0, Or.inl (by decide)⟩,
   ⟨raisingTwo, 0, 2, by decide⟩,
   ⟨raisingFirst, 0, 1, by decide⟩,
   ⟨raisingLast, 1, by decide⟩,
   ⟨upState, 0, Or.inl (by decide)⟩,
   ⟨{ onState with sq := { onState.sq with st := .retryWait } }, by decide⟩,
   ⟨running, by decide⟩,
   ⟨{ onState with sq := { onState.sq with st := .down, cause := .host, restart := 5 } }, by decide⟩,
   ⟨running, by decide⟩,
   ⟨{ onState with sq := { onState.sq with st := .run, aoCnt := 2 } }, by decide⟩,
   ⟨upState, by decide⟩⟩

theorem witness_SequencerAllOff :
    (∃ (s : State), s.sq.st.live = true ∧ s.pgood = false) ∧
    (∃ (s : State), (s.sq.st.live = false ∨ s.pgood = true)) ∧
    (∃ (s : State), s.sq.st.live = true ∧ s.sq.armed = true ∧ s.pgood = true) ∧
    (∃ (s : State), (s.sq.st.live = false ∨ s.sq.armed = false)) ∧
    (∃ (s : State) (x : RailId), (s.sq.st = .raise ∨ s.sq.st = .run) ∧ s.pgood = true ∧ s.used x = true ∧
      s.sq.rails[x].en = true ∧ s.sq.rails[x].qualified = true) ∧
    (∃ (s : State) (x : RailId), ((s.sq.st ≠ .raise ∧
      s.sq.st ≠ .run) ∨ s.used x = false ∨ s.sq.rails[x].en = false ∨ s.sq.rails[x].qualified = false)) ∧
    (∃ (s : State) (x : RailId), (s.sq.st = .raise ∨ s.sq.st = .run) ∧ s.pgood = true ∧ s.used x = true ∧
      s.sq.rails[x].en = true ∧ s.sq.rails[x].qualified = true) ∧
    (∃ (s : State) (x : RailId), s.pgood = false ∧ s.sq.st.live = true ∧ s.used x = true ∧ s.sq.rails[x].en = true ∧
      s.sq.rails[x].qualified = true ∧ s.sq.st ≠ .shutdown) ∧
    (∃ (s : State) (x : RailId), s.sq.st = .shutdown ∧ s.pgood = true ∧ s.used x = true ∧ s.sq.rails[x].en = true ∧
      s.sq.rails[x].pg = true) ∧
    (∃ (s : State) (x : RailId), (s.used x = false ∨ s.sq.rails[x].en = false ∨ s.sq.st.live = false)) ∧
    (∃ (s : State), s.sq.st ≠ .idle) ∧
    (∃ (s : State), s.sq.st = .idle) ∧
    (∃ (s : State), s.sq.faultDriven = false) ∧
    (∃ (s : State), s.sq.faultDriven = true) :=
  ⟨⟨{ upState with sq := { upState.sq with st := .run } }, by decide⟩,
   ⟨onState, Or.inl (by decide)⟩,
   ⟨{ onState with sq := { onState.sq with st := .run, armed := true } }, by decide⟩,
   ⟨onState, Or.inl (by decide)⟩,
   ⟨running, 0, by decide⟩,
   ⟨onState, 0, Or.inl (by decide)⟩,
   ⟨running, 0, by decide⟩,
   ⟨{ upState with fuse := railFuse, sq := running.sq }, 0, by decide⟩,
   ⟨{ running with sq := { running.sq with st := .shutdown } }, 0, by decide⟩,
   ⟨onState, 0, by decide⟩,
   ⟨running, by decide⟩,
   ⟨upState, by decide⟩,
   ⟨running, by decide⟩,
   ⟨{ upState with sq := { upState.sq with faultDriven := true } }, by decide⟩⟩

theorem witness_SequencerShutdown :
    (∃ (s : State) (x : RailId), s.sq.st = .raise ∧ s.pgood = true ∧ s.sq.rails[x].upTo = true ∧
      s.sq.rails[x].qualified = false) ∧
    (∃ (s : State) (x : RailId), (s.sq.rails[x].upTo = false ∨ (s.sq.st ≠ .raise ∧ s.sq.st ≠ .run))) ∧
    (∃ (s : State), s.usesCin = true ∧ (s.sq.st = .raise ∨ s.sq.st = .run) ∧ s.pgood = true) ∧
    (∃ (s : State), (s.usesCin = false ∨ (s.sq.st ≠ .raise ∧ s.sq.st ≠ .run))) ∧
    (∃ (s : State), s.sq.st = .run ∧ s.sq.hostPend = true ∧ s.pgood = true) ∧
    (∃ (s : State), (s.sq.st ≠ .run ∨ s.sq.hostPend = false)) ∧
    (∃ (s : State), (s.sq.reti = true ∨ s.sq.st ≠ .shutdown ∨ s.sq.retTo = false)) ∧
    (∃ (s : State), s.sq.reti = false ∧ s.sq.st = .shutdown ∧ s.sq.retTo = true ∧ s.pgood = true) ∧
    (∃ (s : State), s.sq.st = .shutdown ∧ s.sq.retTo = true ∧ s.pgood = true) ∧
    (∃ (s : State), (s.sq.st ≠ .shutdown ∨ s.sq.retTo = false)) ∧
    (∃ (s : State) (x : RailId), s.used x = true ∧ s.sq.rails[x].disTo = true ∧ s.sq.rails[x].discharged = false ∧
      s.sq.rails[x].en = false ∧ (s.sq.st.live = false ∨ s.pgood = true)) ∧
    (∃ (s : State) (x : RailId), (s.used x = false ∨ s.sq.rails[x].disTo = false ∨ s.sq.rails[x].discharged = true)) ∧
    (∃ (s : State) (x : RailId), s.used x = true ∧ s.sq.rails[x].en = false ∧ s.sq.rails[x].pg = false ∧
      s.sq.rails[x].discharged = false ∧ (s.sq.st.live = false ∨ s.pgood = true)) ∧
    (∃ (s : State) (x : RailId),
      (s.used x = false ∨ s.sq.rails[x].en = true ∨ s.sq.rails[x].pg = true ∨ s.sq.rails[x].discharged = true)) :=
  ⟨⟨raisingLast, 1, by decide⟩,
   ⟨onState, 0, by decide⟩,
   ⟨{ running with fuse := { State.reset.fuse with sqCfg := 0xC0000000 } }, by decide⟩,
   ⟨running, Or.inl (by decide)⟩,
   ⟨{ running with sq := { running.sq with hostPend := true } }, by decide⟩,
   ⟨running, by decide⟩,
   ⟨upState, by decide⟩,
   ⟨{ running with sq := { running.sq with st := .shutdown, retTo := true, reti := false } }, by decide⟩,
   ⟨{ running with sq := { running.sq with st := .shutdown, retTo := true } }, by decide⟩,
   ⟨running, by decide⟩,
   ⟨falling, 0, by decide⟩,
   ⟨onState, 0, by decide⟩,
   ⟨falling, 0, by decide⟩,
   ⟨onState, 0, by decide⟩⟩

theorem witness_OpeningOfPorts :
    (∃ (s : State) (n : PortId), s.mayOpen n = true ∧ s.openTurn n = true) ∧
    (∃ (s : State) (n : PortId), (s.mayOpen n = false ∨ s.openTurn n = false)) ∧
    (∃ (s : State) (n : PortId) (u : Bool), s.port[n].tc.opening = .starting ∧ s.port[n].pp.cen = true) ∧
    (∃ (s : State) (n : PortId) (u : Bool), (s.port[n].tc.opening ≠ .starting ∨ s.port[n].pp.cen = false)) ∧
    (∃ (s : State) (n : PortId), s.port[n].tc.opening = .starting) ∧
    (∃ (s : State) (n : PortId), s.port[n].tc.opening ≠ .starting) ∧
    (∃ (s : State) (n : PortId) (d : Nat), s.port[n].tc.opening = .opened ∧ 4 < d) ∧
    (∃ (s : State) (n : PortId) (d : Nat), (s.port[n].tc.opening ≠ .opened ∨ d ≤ 4)) ∧
    (∃ (s : State) (n : PortId) (a b : Nat), s.port[n].tc.blank = true) ∧
    (∃ (s : State) (n : PortId) (a b : Nat), s.port[n].tc.blank = false ∧ s.port[n].tc.st = .unattSrc ∧
      ((s.port[n].tc.readCc a) = .rd ∨ (s.port[n].tc.readCc a) = .ra ∨ (s.port[n].tc.readCc b) = .rd ∨ (s.port[n].tc.readCc b) = .ra)) ∧
    (∃ (s : State) (n : PortId) (a b : Nat), s.port[n].tc.blank = false ∧ s.port[n].tc.st = .unattSnk ∧
      rpAny (s.port[n].tc.readCc a) (s.port[n].tc.readCc b) = true) ∧
    (∃ (s : State) (n : PortId) (mv : Nat), s.port[n].tc.st.sinkPins = true ∧ s.port[n].pd.armed .sinkSample = false ∧
      s.port[n].tc.sinkStep ≠ 2) ∧
    (∃ (s : State) (n : PortId) (mv : Nat), s.port[n].tc.st.sinkPins = true ∧ s.port[n].pd.armed .sinkSample = false ∧
      s.port[n].tc.blank = false ∧ s.port[n].tc.sinkStep = 2) ∧
    (∃ (s : State) (n : PortId) (mv : Nat), (s.port[n].tc.st.sinkPins = false ∨ s.port[n].pd.armed .sinkSample = true)) ∧
    (∃ (s : State) (n : PortId) (l : BitVec 2), s.port[n].tc.st.sinkPins = true ∧ s.port[n].tc.rpPend = some l) ∧
    (∃ (s : State) (n : PortId), (s.port[n].tc.st.sinkPins = false ∨ s.port[n].tc.rpPend = none)) ∧
    (∃ (s : State) (n : PortId), s.port[n].tc.st = .unattSrc ∧ roleOf s.port[n].tc.cfg = 0) ∧
    (∃ (s : State) (n : PortId), (s.port[n].tc.st ≠ .unattSrc ∨ roleOf s.port[n].tc.cfg ≠ 0)) ∧
    (∃ (s : State) (n : PortId) (a b : Nat), s.port[n].tc.blank = false ∧ s.port[n].tc.st = .trywaitSrc ∧
      s.port[n].tc.tryEnded = true ∧ rdSeen (s.port[n].tc.readCc a) (s.port[n].tc.readCc b) = false) ∧
    (∃ (s : State) (n : PortId) (a b : Nat), s.port[n].tc.blank = false ∧ s.port[n].tc.st ≠ .unattSrc ∧
      s.port[n].tc.st ≠ .unattSnk ∧ s.port[n].tc.st ≠ .trywaitSrc ∧
      (s.port[n].tc.cc1 ≠ (s.port[n].tc.readCc a) ∨ s.port[n].tc.cc2 ≠ (s.port[n].tc.readCc b))) :=
  ⟨⟨upState, 0, by decide⟩,
   ⟨State.reset, 0, Or.inl (by decide)⟩,
   ⟨opening, 0, true, by decide⟩,
   ⟨upState, 0, true, Or.inl (by decide)⟩,
   ⟨opening, 0, by decide⟩,
   ⟨upState, 0, by decide⟩,
   ⟨openPort, 0, 5, by decide⟩,
   ⟨upState, 0, 4, Or.inr (by decide)⟩,
   ⟨{ upState with port := upState.port.set 0 { Port.reset with tc := { TypeC.reset with blank := true } } }, 0, 500,
    3000, by decide⟩,
   ⟨{ withPort { Port.reset with tc := { TypeC.reset with st := .unattSrc, rpOffer := 3 } } with sidx := 0 }, 0, 1000,
    3000, by decide⟩,
   ⟨srcPort .unattSnk, 0, 1300, 0, by decide⟩,
   ⟨srcPort .unattSnk, 0, 700, by decide⟩,
   ⟨{ upState with port := upState.port.set 0 { Port.reset with tc := { TypeC.reset with st := .unattSnk, sinkStep := 2 } } },
    0, 1300, by decide⟩,
   ⟨upState, 0, 0, Or.inl (by decide)⟩,
   ⟨{ upState with port := upState.port.set 0 { Port.reset with tc := { TypeC.reset with st := .unattSnk, rpPend := some 3 } } },
    0, 3, by decide⟩,
   ⟨upState, 0, Or.inr (by decide)⟩,
   ⟨srcPort .unattSrc, 0, by decide⟩,
   ⟨upState, 0, Or.inl (by decide)⟩,
   ⟨withPort { Port.reset with tc := { TypeC.reset with st := .trywaitSrc, tryEnded := true } }, 0, 0, 0, by decide⟩,
   ⟨withPort { Port.reset with tc := { TypeC.reset with st := .attwaitSrc, rpOffer := 3 } }, 0, 1000, 3000, by decide⟩⟩

theorem witness_AttachAndDetach :
    (∃ (s : State) (n : PortId) (a b v : Nat), s.notBack n = false ∧ s.port[n].tc.st = .attwaitSrc ∧
      rdSeen (s.port[n].tc.readPins a b).1 (s.port[n].tc.readPins a b).2 = true ∧ v ≤ 800 ∧
      tryOf s.port[n].tc.cfg ≠ 2) ∧
    (∃ (s : State) (n : PortId) (a b v : Nat), s.notBack n = false ∧ s.port[n].tc.st = .attwaitSrc ∧
      rdSeen (s.port[n].tc.readPins a b).1 (s.port[n].tc.readPins a b).2 = true ∧ v ≤ 800 ∧
      tryOf s.port[n].tc.cfg = 2) ∧
    (∃ (s : State) (n : PortId) (a b v : Nat), s.notBack n = false ∧ s.port[n].tc.st = .attwaitSnk ∧
      rpOne (s.port[n].tc.readPins a b).1 (s.port[n].tc.readPins a b).2 = true ∧ 4000 ≤ v ∧
      tryOf s.port[n].tc.cfg ≠ 1) ∧
    (∃ (s : State) (n : PortId) (a b v : Nat), s.notBack n = false ∧ s.port[n].tc.st = .attwaitSnk ∧
      rpOne (s.port[n].tc.readPins a b).1 (s.port[n].tc.readPins a b).2 = true ∧ 4000 ≤ v ∧
      tryOf s.port[n].tc.cfg = 1) ∧
    (∃ (s : State) (n : PortId) (a b v : Nat), s.notBack n = false ∧ s.port[n].tc.st = .attwaitSrc ∧
      rdSeen (s.port[n].tc.readPins a b).1 (s.port[n].tc.readPins a b).2 = true ∧ 800 < v) ∧
    (∃ (s : State) (n : PortId) (a b v : Nat), s.notBack n = false ∧ s.port[n].tc.st = .attwaitSrc ∧
      (s.port[n].tc.readPins a b).1 = .rd ∧ (s.port[n].tc.readPins a b).2 = .rd ∧ debugEn s.port[n].tc.cfg = true) ∧
    (∃ (s : State) (n : PortId) (a b v : Nat), s.notBack n = false ∧ s.port[n].tc.st = .attwaitSrc ∧
      (s.port[n].tc.readPins a b).1 = .ra ∧ (s.port[n].tc.readPins a b).2 = .ra ∧ audioEn s.port[n].tc.cfg = true) ∧
    (∃ (s : State) (n : PortId) (a b v : Nat), s.notBack n = false ∧ s.port[n].tc.st = .attwaitSrc ∧
      rdSeen (s.port[n].tc.readPins a b).1 (s.port[n].tc.readPins a b).2 = false ∧
      ((s.port[n].tc.readPins a b).1 = .opn ∨ (s.port[n].tc.readPins a b).2 = .opn ∨ (debugEn s.port[n].tc.cfg = false ∧
      audioEn s.port[n].tc.cfg = false))) ∧
    (∃ (s : State) (n : PortId) (a b v : Nat), s.notBack n = true ∧ s.port[n].tc.st.holdsAttach = true) ∧
    (∃ (s : State) (n : PortId) (a b v : Nat), s.notBack n = false ∧ s.port[n].tc.st.holdsAttach = false ∧
      s.port[n].tc.st ≠ .audio ∧ s.port[n].tc.blank = true) ∧
    (∃ (s : State) (n : PortId) (a b v : Nat), s.notBack n = false ∧
      (s.port[n].tc.st = .trySrc ∨ s.port[n].tc.st = .trywaitSrc) ∧
      rdSeen (s.port[n].tc.readPins a b).1 (s.port[n].tc.readPins a b).2 = true) ∧
    (∃ (s : State) (n : PortId) (a b v : Nat), s.notBack n = false ∧ s.port[n].tc.st = .trySnk ∧
      rpOne (s.port[n].tc.readPins a b).1 (s.port[n].tc.readPins a b).2 = true) ∧
    (∃ (s : State) (n : PortId),
      (s.port[n].tc.st = .attwaitSrc ∨ s.port[n].tc.st = .attwaitSnk ∨ s.port[n].tc.st = .trywaitSnk)) ∧
    (∃ (s : State) (n : PortId), s.port[n].tc.st ≠ .attwaitSrc ∧ s.port[n].tc.st ≠ .attwaitSnk ∧
      s.port[n].tc.st ≠ .trywaitSnk) ∧
    (∃ (s : State) (n : PortId), s.port[n].tc.st = .trySrc ∧ s.port[n].tc.holdAttach = false ∧
      rdSeen s.port[n].tc.cc1 s.port[n].tc.cc2 = false) ∧
    (∃ (s : State) (n : PortId), s.port[n].tc.st = .trySnk ∧ rpOne s.port[n].tc.cc1 s.port[n].tc.cc2 = false ∧
      s.port[n].tc.holdAttach = false) ∧
    (∃ (s : State) (n : PortId), ((s.port[n].tc.st = .trySrc ∧
      rdSeen s.port[n].tc.cc1 s.port[n].tc.cc2 = true) ∨ (s.port[n].tc.st = .trySnk ∧
      rpOne s.port[n].tc.cc1 s.port[n].tc.cc2 = true)) ∧ s.port[n].tc.holdAttach = false) ∧
    (∃ (s : State) (n : PortId), s.port[n].tc.st = .trywaitSrc ∧ s.port[n].tc.holdAttach = false) ∧
    (∃ (s : State) (n : PortId), s.port[n].tc.holdAttach = true ∧ s.notBack n = true ∧ s.port[n].tc.st.holdsAttach = true) ∧
    (∃ (s : State) (n : PortId),
      (s.port[n].tc.st.holdsAttach = false ∨ s.port[n].tc.st = .attwaitSrc ∨ s.port[n].tc.st = .attwaitSnk) ∧
      s.notBack n = false) ∧
    (∃ (s : State) (n : PortId), (s.port[n].tc.st = .trySnk ∨ s.port[n].tc.st = .trywaitSrc) ∧
      s.port[n].tc.holdAttach = false) ∧
    (∃ (s : State) (n : PortId), ((s.port[n].tc.st ≠ .trySnk ∧
      s.port[n].tc.st ≠ .trywaitSrc) ∨ (s.port[n].tc.holdAttach = true ∧ s.notBack n = true))) ∧
    (∃ (s : State) (n : PortId), s.port[n].tc.st.isSource = true ∧ s.port[n].rs.step = .idle) ∧
    (∃ (s : State) (n : PortId), s.port[n].rs.step ≠ .idle ∧
      (s.port[n].tc.rpOffer = 0 ∨ s.port[n].tc.st.attached = false)) ∧
    (∃ (s : State) (n : PortId), s.port[n].rs.step = .idle ∧ s.port[n].tc.st.isSource = false) ∧
    (∃ (s : State) (n : PortId) (v : Nat), (s.port[n].tc.st = .attSnk ∨ s.port[n].tc.st = .debugSnk) ∧ v < 3670 ∧
      s.port[n].rs.step = .idle ∧ s.port[n].rs.stby = false ∧ s.port[n].pd.hrPend = false) ∧
    (∃ (s : State) (n : PortId) (v : Nat), ((s.port[n].tc.st ≠ .attSnk ∧
      s.port[n].tc.st ≠ .debugSnk) ∨ 3670 ≤ v ∨ s.port[n].rs.step ≠ .idle ∨ s.port[n].rs.stby = true ∨ s.port[n].pd.hrPend = true)) ∧
    (∃ (s : State) (n : PortId) (v : Nat), s.notBack n = false ∧ s.port[n].tc.st = .attwaitSrc ∧
      s.port[n].tc.debDone = true ∧ v ≤ 800 ∧ rdSeen s.port[n].tc.cc1 s.port[n].tc.cc2 = true ∧
      tryOf s.port[n].tc.cfg ≠ 2) ∧
    (∃ (s : State) (n : PortId) (v : Nat), (s.port[n].tc.st ≠ .attwaitSrc ∨ s.port[n].tc.debDone = false ∨ 800 < v)) ∧
    (∃ (s : State) (n : PortId), s.port[n].tc.st = .errRecov) ∧
    (∃ (s : State) (n : PortId), s.port[n].tc.st ≠ .errRecov) ∧
    (∃ (s : State) (n : PortId), s.port[n].tc.st.attached = true ∧ s.port[n].tc.pathRetry = true ∧
      (s.port[n].pp.st = .lockoff ∨ s.port[n].pp.retryRun = true ∨ s.port[n].pp.vcpWait = true)) ∧
    (∃ (s : State) (n : PortId), s.port[n].tc.st.attached = true ∧ s.port[n].tc.pathRetry = true ∧
      s.port[n].pp.st ≠ .lockoff ∧ s.port[n].pp.retryRun = false ∧ s.port[n].pp.vcpWait = false ∧
      s.port[n].hold = false) ∧
    (∃ (s : State) (n : PortId), (s.port[n].tc.st.attached = false ∨ s.port[n].tc.pathRetry = false)) ∧
    (∃ (s : State) (n : PortId), s.port[n].tc.st.isSource = true ∧ s.port[n].tc.pathLimit = true ∧
      s.port[n].pp.retryRun = false ∧ s.port[n].pp.st ≠ .lockoff) ∧
    (∃ (s : State) (n : PortId),
      (s.port[n].tc.st.isSource = false ∨ s.port[n].tc.pathLimit = false ∨ s.port[n].pp.retryRun = true ∨ s.port[n].pp.st = .lockoff)) ∧
    (∃ (s : State) (n : PortId), s.port[n].tc.vconnOn = true) ∧
    (∃ (s : State) (n : PortId), s.port[n].tc.vconnOn = false) ∧
    (∃ (s : State) (n : PortId) (a b v : Nat), s.notBack n = false ∧ s.port[n].tc.st.holdsAttach = false ∧
      s.port[n].tc.blank = true) :=
  ⟨⟨{ withPort { Port.reset with tc := { TypeC.reset with st := .attwaitSrc, rpOffer := 3, cfg := 0 } } with sidx := 0 },
    0, 1000, 3000, 0, by decide⟩,
   ⟨{ withPort { Port.reset with tc := { TypeC.reset with st := .attwaitSrc, rpOffer := 3, cfg := 0x20000000 } } with sidx := 0 },
    0, 1000, 3000, 0, by decide⟩,
   ⟨srcPort .attwaitSnk, 0, 1300, 0, 5000, by decide⟩,
   ⟨tryPort .attwaitSnk 1, 0, 1300, 0, 5000, by decide⟩,
   ⟨{ withPort { Port.reset with tc := { TypeC.reset with st := .attwaitSrc, rpOffer := 3, cfg := 0 } } with sidx := 0 },
    0, 1000, 3000, 900, by decide⟩,
   ⟨{ withPort { Port.reset with tc := { TypeC.reset with st := .attwaitSrc, rpOffer := 3, cfg := 0x01000000 } } with sidx := 0 },
    0, 1000, 1000, 900, by decide⟩,
   ⟨{ withPort { Port.reset with tc := { TypeC.reset with st := .attwaitSrc, rpOffer := 3, cfg := 0x02000000 } } with sidx := 0 },
    0, 100, 100, 900, by decide⟩,
   ⟨{ withPort { Port.reset with tc := { TypeC.reset with st := .attwaitSrc, rpOffer := 3, cfg := 0 } } with sidx := 0 },
    0, 3000, 3000, 900, by decide⟩,
   ⟨heldPort .attwaitSrc, 0, 0, 0, 0, by decide⟩,
   ⟨{ upState with port := upState.port.set 0 { Port.reset with tc := { TypeC.reset with blank := true } } }, 0, 0, 0,
    0, by decide⟩,
   ⟨{ withPort { Port.reset with tc := { TypeC.reset with st := .trySrc, rpOffer := 3, cfg := 0 } } with sidx := 0 }, 0,
    1000, 3000, 0, by decide⟩,
   ⟨srcPort .trySnk, 0, 1300, 0, 5000, by decide⟩,
   ⟨srcPort .attwaitSrc, 0, by decide⟩,
   ⟨upState, 0, by decide⟩,
   ⟨srcPort .trySrc, 0, by decide⟩,
   ⟨srcPort .trySnk, 0, by decide⟩,
   ⟨withPort { Port.reset with tc := { TypeC.reset with st := .trySrc, cc1 := .rd } }, 0, Or.inl (by decide), by decide⟩,
   ⟨srcPort .trywaitSrc, 0, by decide⟩,
   ⟨withPort { Port.reset with hold := true, tc := { TypeC.reset with st := .trySrc, holdAttach := true } }, 0,
    by decide⟩,
   ⟨upState, 0, Or.inl (by decide), by decide⟩,
   ⟨srcPort .trySnk, 0, by decide⟩,
   ⟨upState, 0, by decide⟩,
   ⟨srcPort .attSrc, 0, by decide⟩,
   ⟨{ upState with port := upState.port.set 0 { Port.reset with rs := { Swap.reset with step := .asked } } }, 0,
    by decide, Or.inl (by decide)⟩,
   ⟨upState, 0, by decide⟩,
   ⟨srcPort .attSnk, 0, 0, by decide⟩,
   ⟨upState, 0, 0, Or.inl (by decide)⟩,
   ⟨{ upState with port := upState.port.set 0 { Port.reset with tc := { TypeC.reset with st := .attwaitSrc, debDone := true, cc1 := .rd } } },
    0, 100, by decide⟩,
   ⟨upState, 0, 0, Or.inl (by decide)⟩,
   ⟨srcPort .errRecov, 0, by decide⟩,
   ⟨upState, 0, by decide⟩,
   ⟨lockoffPort, 0, by decide⟩,
   ⟨tcPort { TypeC.reset with st := .attSrc, pathRetry := true }, 0, by decide⟩,
   ⟨upState, 0, Or.inl (by decide)⟩,
   ⟨limitPort, 0, by decide⟩,
   ⟨upState, 0, Or.inl (by decide)⟩,
   ⟨{ upState with port := upState.port.set 0 { Port.reset with tc := { TypeC.reset with vconnOn := true } } }, 0,
    by decide⟩,
   ⟨upState, 0, by decide⟩,
   ⟨{ upState with port := upState.port.set 0 { Port.reset with tc := { TypeC.reset with blank := true } } }, 0, 0, 0,
    0, by decide⟩⟩

theorem witness_PortTrips :
    (∃ (s : State) (n : PortId) (v : Int), (s.port[n].pp.st = .closing ∨ s.port[n].pp.st = .closed) ∧
      15625 * (s.port[n].pp.ftCode.toNat : Int) ≤ 100 * s.port[n].pp.along v) ∧
    (∃ (s : State) (n : PortId) (v : Int),
      (100 * s.port[n].pp.along v < 15625 * (s.port[n].pp.ftCode.toNat : Int) ∨ (s.port[n].pp.st ≠ .closing ∧
      s.port[n].pp.st ≠ .closed ∧ s.port[n].pp.trips.head? ≠ some s.time.ct))) ∧
    (∃ (s : State) (n : PortId) (v : Int), s.port[n].pp.st ≠ .closing ∧ s.port[n].pp.st ≠ .closed ∧
      s.port[n].pp.trips.head? = some s.time.ct ∧
      15625 * (s.port[n].pp.ftCode.toNat : Int) ≤ 100 * s.port[n].pp.along v) ∧
    (∃ (s : State) (n : PortId) (v : Int), (s.port[n].pp.st = .closing ∨ s.port[n].pp.st = .closed) ∧
      s.port[n].pp.revLimit ≤ ((-(s.port[n].pp.along v) : Int) : Rat)) ∧
    (∃ (s : State) (n : PortId) (v : Int),
      (((-(s.port[n].pp.along v) : Int) : Rat) < s.port[n].pp.revLimit ∨ (s.port[n].pp.st ≠ .closing ∧
      s.port[n].pp.st ≠ .closed ∧ s.port[n].pp.trips.head? ≠ some s.time.ct))) ∧
    (∃ (s : State) (n : PortId), (s.port[n].pp.st = .closing ∨ s.port[n].pp.st = .closed) ∧ s.port[n].pp.i2tOver = true) ∧
    (∃ (s : State) (n : PortId), (s.port[n].pp.i2tOver = false ∨ (s.port[n].pp.st ≠ .closing ∧
      s.port[n].pp.st ≠ .closed ∧ s.port[n].pp.trips.head? ≠ some s.time.ct))) ∧
    (∃ (s : State) (n : PortId), (s.port[n].pp.st = .closing ∨ s.port[n].pp.st = .closed)) ∧
    (∃ (s : State) (n : PortId), ((s.port[n].pp.st ≠ .closing ∧ s.port[n].pp.st ≠ .closed ∧
      s.port[n].pp.trips.head? ≠ some s.time.ct))) ∧
    (∃ (s : State) (n : PortId), s.port[n].pp.st = .closing) ∧
    (∃ (s : State) (n : PortId), s.port[n].pp.st ≠ .closing) :=
  ⟨⟨closedState, 0, 100000, by decide⟩,
   ⟨closedState, 0, -100000, Or.inl (by decide)⟩,
   ⟨withPort { Port.reset with pp := { Path.reset with st := .discharge, trips := [0] } }, 0, 100000, by decide⟩,
   ⟨closedState, 0, -100000, by decide⟩,
   ⟨upState, 0, 0, by decide⟩,
   ⟨{ closedState with port := closedState.port.map fun p => { p with pp := { p.pp with prot := 0 } } }, 0,
    by decide +kernel⟩,
   ⟨upState, 0, by decide⟩,
   ⟨closedState, 0, by decide⟩,
   ⟨upState, 0, by decide⟩,
   ⟨closingState, 0, by decide⟩,
   ⟨upState, 0, by decide⟩⟩

theorem witness_PathsAndSetpoints :
    (∃ (s : State) (n : PortId) (i : Fin 256), s.dueEntry n.val .path = some i ∧ s.port[n].pp.st = .opn ∧
      s.port[n].tc.st.attached = true ∧ s.mayClose n = true ∧ s.port[n].pp.cpg = true) ∧
    (∃ (s : State) (n : PortId) (i : Fin 256), s.dueEntry n.val .path = some i ∧ s.port[n].pp.st = .opn ∧
      s.port[n].tc.st.attached = true ∧ s.mayClose n = true ∧ s.port[n].pp.cpg = false) ∧
    (∃ (s : State) (n : PortId) (i : Fin 256), s.dueEntry n.val .path = some i ∧ s.port[n].pp.st = .opn ∧
      s.port[n].tc.st.attached = true ∧ s.mayClose n = false) ∧
    (∃ (s : State) (n : PortId) (i : Fin 256), s.dueEntry n.val .path = some i ∧
      (s.port[n].pp.st ≠ .opn ∨ s.port[n].tc.st.attached = false)) ∧
    (∃ (s : State) (n : PortId), s.dueEntry n.val .path = none) ∧
    (∃ (s : State) (n : PortId) (i : Fin 256), s.dueEntry n.val .set = some i ∧ s.port[n].ct.plan = none ∧
      s.port[n].tc.opening = .booked) ∧
    (∃ (s : State) (n : PortId) (i : Fin 256), s.dueEntry n.val .set = some i ∧ s.port[n].ct.plan = none ∧
      s.port[n].tc.opening ≠ .booked ∧ s.port[n].pp.trimPend = 0 ∧ s.port[n].pp.sink = false ∧ s.port[n].ct.mv ≠ 0 ∧
      s.port[n].pp.lim = 0) ∧
    (∃ (s : State) (n : PortId) (i : Fin 256), s.dueEntry n.val .set = some i ∧ s.port[n].ct.plan = none ∧
      s.port[n].tc.opening ≠ .booked ∧ s.port[n].pp.trimPend ≠ 0 ∧ s.trimStopped n = false ∧
      s.port[n].pp.sink = true ∧ s.port[n].pp.lim = 0) ∧
    (∃ (s : State) (n : PortId), s.dueEntry n.val .set = none) ∧
    (∃ (s : State) (n : PortId) (a b : Nat), s.port[n].pp.st = .closing ∧ a ≤ b + 100 ∧ b ≤ a + 100) ∧
    (∃ (s : State) (n : PortId) (a b : Nat), (s.port[n].pp.st ≠ .closing ∨ b + 100 < a ∨ a + 100 < b)) ∧
    (∃ (s : State) (n : PortId), s.port[n].pp.st = .discharge) ∧
    (∃ (s : State) (n : PortId), s.port[n].pp.st ≠ .discharge) ∧
    (∃ (s : State) (n : PortId), s.chan[(⟨4 * n.val + 3, by omega⟩ : Fin 128)].run = false ∧
      s.port[n].tc.pathRetry = false) ∧
    (∃ (s : State) (n : PortId), s.chan[(⟨4 * n.val + 3, by omega⟩ : Fin 128)].run = false ∧
      s.port[n].tc.pathRetry = true ∧ s.port[n].tc.st.attached = true ∧ s.port[n].pp.st = .tripped ∧
      s.port[n].pp.vcpWait = false ∧ s.port[n].hold = false) ∧
    (∃ (s : State) (n : PortId), s.chan[(⟨4 * n.val + 3, by omega⟩ : Fin 128)].run = true) ∧
    (∃ (s : State) (n : PortId) (c : BitVec 10), s.port[n].pp.ftPend = some c ∧ s.port[n].pp.ftHold = none) ∧
    (∃ (s : State) (n : PortId) (c : BitVec 10), s.port[n].pp.ftHold = some c ∧ s.port[n].pp.pulse = none) ∧
    (∃ (s : State) (n : PortId), s.port[n].pp.ftPend = none ∧ s.port[n].pp.ftHold = none) ∧
    (∃ (s : State) (n : PortId),
      (s.coreRuns n = false ∨ s.port[n].pp.trimPend = 0 ∨ s.port[n].pp.st ≠ .closed ∨ s.port[n].pp.sink = true ∨ s.trimStopped n = true)) ∧
    (∃ (s : State) (n : PortId), s.port[n].pp.trimPend ≠ 0 ∧ s.port[n].pp.st = .closed ∧ s.port[n].pp.sink = false ∧
      s.trimStopped n = false ∧ s.coreRuns n = true) ∧
    (∃ (s : State) (n : PortId) (k : Fin 6), s.inService n = true) ∧
    (∃ (s : State) (n : PortId) (k : Fin 6), s.inService n = false) :=
  ⟨⟨pathDue, 0, 0, by decide⟩,
   ⟨{ pathDue with port := pathDue.port.map fun p => { p with pp := { p.pp with cpg := false } } }, 0, 0,
    by decide +kernel⟩,
   ⟨{ pathDue with sup := { pathDue.sup with vcpOk := false } }, 0, 0, by decide⟩,
   ⟨(withPort Port.reset).withEntries { anEntry with kind := .path }, 0, 0, by decide⟩,
   ⟨upState, 0, by decide⟩,
   ⟨setDue, 0, 0, by decide⟩,
   ⟨(withPort sourcePort).withEntries { anEntry with kind := .set }, 0, 0, by decide⟩,
   ⟨(withPort { sinkPort with pp := { sinkPort.pp with trimPend := 3 } }).withEntries { anEntry with kind := .set }, 0,
    0, by decide⟩,
   ⟨upState, 0, by decide⟩,
   ⟨closingState, 0, 5000, 5000, by decide⟩,
   ⟨upState, 0, 0, 0, Or.inl (by decide)⟩,
   ⟨dischargeState, 0, by decide⟩,
   ⟨upState, 0, by decide⟩,
   ⟨{ upState with port := upState.port.set 0 { Port.reset with pp := { Path.reset with st := .tripped, retryRun := true } } },
    0, by decide⟩,
   ⟨withPort { Port.reset with tc := { TypeC.reset with st := .attSrc, pathRetry := true }, pp := { Path.reset with st := .tripped, retryRun := true } },
    0, by decide⟩,
   ⟨{ upState with chan := Vector.replicate 128 { Channel.reset with run := true } }, 0, by decide⟩,
   ⟨{ upState with port := upState.port.set 0 { Port.reset with pp := { Path.reset with ftPend := some 7 } } }, 0, 7,
    by decide⟩,
   ⟨withPort { Port.reset with pp := { Path.reset with ftHold := some 7 } }, 0, 7, by decide⟩,
   ⟨upState, 0, by decide⟩,
   ⟨upState, 0, Or.inr (Or.inl (by decide))⟩,
   ⟨{ closedState with port := closedState.port.map fun p => { p with pp := { p.pp with trimPend := 3 } } }, 0,
    by decide +kernel⟩,
   ⟨upState, 0, 0, by decide⟩,
   ⟨absentPort, 0, 0, by decide⟩⟩

theorem witness_CalibrationAndTrim :
    (∃ (s : State) (n : PortId) (i : Fin 256), s.dueEntry n.val .cal = some i ∧ s.port[n].pp.st = .closed ∧
      s.port[n].pp.sink = false ∧ s.port[n].pp.trimPend = 0 ∧ s.port[n].pp.meanAbs 20 ≤ 4000 ∧
      s.port[n].pp.i2tOver = false ∧ s.port[n].rs.pr ≠ .sink) ∧
    (∃ (s : State) (n : PortId) (i : Fin 256), s.dueEntry n.val .cal = some i ∧ s.port[n].pp.trimPend = 0 ∧
      (s.port[n].rs.pr = .sink ∨ s.port[n].pp.st ≠ .closed ∨ s.port[n].pp.sink = true ∨ 4000 < s.port[n].pp.meanAbs 20 ∨ s.port[n].pp.i2tOver = true)) ∧
    (∃ (s : State) (n : PortId), s.dueEntry n.val .cal = none) ∧
    (∃ (s : State) (n : PortId) (e f : Int) (a b c d : Rat),
      (s.port[n].pp.pulse.bind fun x => s.calSets n x.1) ≠ some (a, b, c, d)) ∧
    (∃ (s : State) (n : PortId) (e f : Int) (a b c d : Rat), s.port[n].pp.pulse ≠ none ∧
      (s.port[n].pp.pulse.bind fun x => s.calSets n x.1) = some (a, b, c, d) ∧ calValue s.port[n].pp a b c d = none ∧
      s.port[n].pp.rejRun < 7) ∧
    (∃ (s : State) (n : PortId) (e f : Int) (a b c d : Rat), s.port[n].pp.pulse ≠ none ∧
      (s.port[n].pp.pulse.bind fun x => s.calSets n x.1) = some (a, b, c, d) ∧ calValue s.port[n].pp a b c d = none ∧
      7 ≤ s.port[n].pp.rejRun ∧ s.coreRuns n = true) ∧
    (∃ (s : State) (n : PortId) (e f : Int) (a b c d r : Rat), s.port[n].pp.pulse ≠ none ∧
      (s.port[n].pp.pulse.bind fun x => s.calSets n x.1) = some (a, b, c, d) ∧
      calValue s.port[n].pp a b c d = some r ∧ s.coreRuns n = false) ∧
    (∃ (s : State) (n : PortId) (e f : Int) (a b c d r : Rat), s.port[n].pp.pulse ≠ none ∧
      (s.port[n].pp.pulse.bind fun x => s.calSets n x.1) = some (a, b, c, d) ∧
      calValue s.port[n].pp a b c d = some r ∧ s.coreRuns n = true) ∧
    (∃ (s : State) (n : PortId), s.coreRuns n = false) ∧
    (∃ (s : State) (n : PortId), s.coreRuns n = true ∧ s.thermRef n = none) ∧
    (∃ (s : State) (n : PortId),
      (s.coreRuns n = false ∨ s.port[n].pp.st ≠ .closed ∨ s.port[n].pp.sink = true ∨ s.port[n].ct.mv = 0 ∨ s.trimStopped n = true)) ∧
    (∃ (s : State) (n : PortId), s.coreRuns n = true ∧ s.port[n].pp.st = .closed ∧ s.port[n].pp.sink = false ∧
      s.port[n].ct.mv ≠ 0 ∧ s.trimStopped n = false ∧ s.port[n].ct.kind ≠ .pps ∧ s.port[n].ct.kind ≠ .avs) ∧
    (∃ (s : State) (n : PortId), s.coreRuns n = true ∧ s.port[n].pp.st = .closed ∧ s.port[n].pp.sink = false ∧
      s.port[n].ct.mv ≠ 0 ∧ s.trimStopped n = false ∧ (s.port[n].ct.kind = .pps ∨ s.port[n].ct.kind = .avs) ∧
      (102 * s.port[n].ct.i10 : Nat) ≤ 10 * s.port[n].pp.meanAbs 5000) :=
  ⟨⟨calDue, 0, 0, by decide +kernel⟩,
   ⟨{ pathDue with tt := { pathDue.tt with entries := Vector.replicate 256 (some { anEntry with owner := 0, kind := .cal }) } },
    0, 0, by decide, by decide, Or.inr (Or.inl (by decide))⟩,
   ⟨upState, 0, by decide⟩,
   ⟨upState, 0, 0, 0, 0, 0, 0, 0, by decide⟩,
   ⟨pulsed, 0, 0, 0, 0, 0, 0, 0, by decide +kernel⟩,
   ⟨pulsedWith { sourcePort with pp := { sourcePort.pp with rejRun := 7 } } 0 0, 0, 0, 0, 0, 0, 0, 0, by decide +kernel⟩,
   ⟨{ pulsedWith sourcePort 1000 12500 with core := State.reset.core }, 0, 5, 5, 0, 78125 / 16, 0, 250000, 78125 / 16,
    by decide +kernel⟩,
   ⟨pulsedWith sourcePort 1000 12500, 0, 5, 5, 0, 78125 / 16, 0, 250000, 78125 / 16, by decide +kernel⟩,
   ⟨State.reset, 0, by decide⟩,
   ⟨(withPort sourcePort).withWords [(0xAC, 0)], 0, by decide⟩,
   ⟨upState, 0, by decide⟩,
   ⟨withPort { sourcePort with ct := { sourcePort.ct with mv := 20 } }, 0, by decide +kernel⟩,
   ⟨withPort { sourcePort with ct := { sourcePort.ct with kind := .pps, i10 := 0 } }, 0, by decide +kernel,
    by decide +kernel, by decide +kernel, by decide +kernel, by decide +kernel, Or.inl (by decide +kernel),
    by decide +kernel⟩⟩

theorem witness_SourceContracts :
    (∃ (s : State) (n : PortId), s.maySendCaps n = true ∧ s.capsLeft n = true ∧ s.shedAhead n = [] ∧
      ((s.underTarget n).isSome = true ∨ s.policyRuns = false)) ∧
    (∃ (s : State) (n : PortId), (s.maySendCaps n = false ∨ s.capsLeft n = false)) ∧
    (∃ (s : State) (n : PortId), s.maySendCaps n = true ∧ s.capsLeft n = true ∧ s.shedAhead n = [] ∧
      s.underTarget n = none ∧ s.policyRuns = true) ∧
    (∃ (s : State) (n : PortId), s.maySendCaps n = true ∧ 3 ≤ s.port[n].ct.waits ∧
      ((s.underTarget n).isSome = true ∨ s.policyRuns = false)) ∧
    (∃ (s : State) (n : PortId), s.maySendCaps n = true ∧ s.port[n].ct.waits < 3 ∧ s.riseDue n = true ∧
      s.policyRuns = false ∧ s.port[n].ct.offer + 40 ≤ s.offerCeil n) ∧
    (∃ (s : State) (n : PortId), (s.maySendCaps n = false ∨ (s.port[n].ct.waits < 3 ∧
      (s.riseDue n = false ∨ (s.policyRuns = false ∧ s.offerCeil n < s.port[n].ct.offer + 40))))) ∧
    (∃ (s u : State) (n : PortId) (m : PdMsg), s.firstRequest n = true ∧ s.takeMsg n isRequest = some (m, false, u) ∧
      u.port[n].tc.st.isSource = true ∧ u.port[n].pd.asked m.body = none) ∧
    (∃ (s u : State) (n : PortId) (m : PdMsg) (r : Rdo) (k : CtKind) (v i im : Nat), s.firstRequest n = true ∧
      s.takeMsg n isRequest = some (m, false, u) ∧ u.port[n].tc.st.isSource = true ∧ u.port[n].ct.plan = none ∧
      u.port[n].rs.step = .idle ∧ u.port[n].pd.asked m.body = some (r, k, v, i, im) ∧
      u.headroom < ((max 60 (units v i) : Nat) : Int) - u.kp n) ∧
    (∃ (s u : State) (n : PortId) (m : PdMsg) (r : Rdo) (k : CtKind) (v i im : Nat), s.firstRequest n = true ∧
      s.takeMsg n isRequest = some (m, false, u) ∧ u.port[n].tc.st.isSource = true ∧
      (u.port[n].ct.plan ≠ none ∨ u.port[n].rs.step ≠ .idle) ∧ u.port[n].pd.asked m.body = some (r, k, v, i, im)) ∧
    (∃ (s u : State) (n : PortId) (m : PdMsg) (r : Rdo) (k : CtKind) (v i im : Nat), s.firstRequest n = true ∧
      s.takeMsg n isRequest = some (m, false, u) ∧ u.port[n].tc.st.isSource = true ∧ u.port[n].ct.plan = none ∧
      u.port[n].rs.step = .idle ∧ u.port[n].pd.asked m.body = some (r, k, v, i, im) ∧ u.port[n].ct.therm = none ∧
      u.bg.shedding = false ∧ ((max 60 (units v i) : Nat) : Int) - u.kp n ≤ u.headroom ∧
      u.port[n].pd.contract = true ∧ u.port[n].ct.mv = v ∧ u.kp n = max 60 (units v i)) ∧
    (∃ (s u : State) (n : PortId) (m : PdMsg) (r : Rdo) (k : CtKind) (v i im : Nat) (sh : Shape) (e : Fin 256) (f l : CT),
      s.firstRequest n = true ∧ s.takeMsg n isRequest = some (m, false, u) ∧ u.port[n].tc.st.isSource = true ∧
      u.port[n].ct.plan = none ∧ u.port[n].rs.step = .idle ∧ u.port[n].pd.asked m.body = some (r, k, v, i, im) ∧
      u.port[n].ct.therm = none ∧ u.bg.shedding = false ∧ ((max 60 (units v i) : Nat) : Int) - u.kp n ≤ u.headroom ∧
      u.port[n].pd.contract = true ∧ u.port[n].ct.mv ≠ v ∧
      planShape u.stepBudget (vStepMv (u.pcCfg n)) u.port[n].ct.mv v (units u.port[n].ct.mv u.port[n].ct.i10) (units v i) (decide (k ∈ [CtKind.pps,
      CtKind.avs]) && decide (u.port[n].ct.kind = k)) = sh ∧
      (u.bookPort n (if sh.isSet then .set else .ramp) 4 (some (u.time.ct + 61440)) sh.step sh.inc).2 = .granted e f l ∧
      planFits u.time.ct f l sh.limit (tRespTk (u.pcCfg n)) = true) ∧
    (∃ (s : State) (n : PortId), s.firstRequest n = true ∧ s.takeMsg n isRequest = none) ∧
    (∃ (s u : State) (n : PortId) (m : PdMsg), s.takeMsg n (fun b => b = .eprEnter) = some (m, false, u) ∧
      u.eprReason n = none ∧ bits u.port[n].pd.cable 23 16 < 20) ∧
    (∃ (s u : State) (n : PortId) (m : PdMsg) (r : Nat), s.takeMsg n (fun b => b = .eprEnter) = some (m, false, u) ∧
      u.eprReason n = some r) ∧
    (∃ (s u : State) (n : PortId) (m : PdMsg), s.takeMsg n (fun b => b = .eprEnter) = some (m, false, u) ∧
      u.eprReason n = none ∧ 20 ≤ bits u.port[n].pd.cable 23 16) ∧
    (∃ (s : State) (n : PortId), s.takeMsg n (fun b => b = .eprEnter) = none) ∧
    (∃ (s : State) (n : PortId) (i : Fin 256) (q : Plan), s.dueEntry n.val .ramp = some i ∧ s.port[n].ct.plan = some q ∧
      s.port[n].pp.trimPend = 0 ∧ s.port[n].pp.lim = 0) ∧
    (∃ (s : State) (n : PortId), s.dueEntry n.val .ramp = none) ∧
    (∃ (s : State) (n : PortId) (v : Nat) (q : Plan), s.port[n].ct.plan = some q ∧ q.ended = true ∧ settled q v = true) ∧
    (∃ (s : State) (n : PortId) (v : Nat), (s.port[n].ct.plan.any fun q => q.ended && settled q v) = false) ∧
    (∃ (s : State) (n : PortId) (q : Plan), s.port[n].ct.plan = some q ∧ q.ended = true) ∧
    (∃ (s : State) (n : PortId), (s.port[n].ct.plan.any Plan.ended) = false) ∧
    (∃ (s : State) (n : PortId) (x : Nat), s.port[n].ct.shed = true ∧ s.port[n].ct.shedTimer = true ∧
      s.port[n].ct.plan = none ∧ s.port[n].ct.target = some x ∧ x < s.port[n].ct.commit) ∧
    (∃ (s : State) (n : PortId),
      (s.port[n].ct.shed = false ∨ s.port[n].ct.shedTimer = false ∨ s.port[n].ct.plan ≠ none ∨ s.port[n].ct.target = none)) ∧
    (∃ (s : State) (n : PortId) (v : Nat), s.port[n].rs.step ≠ .fall) ∧
    (∃ (s : State) (n : PortId) (v : Nat), s.port[n].rs.step = .fall) ∧
    (∃ (s : State) (n : PortId) (x : Int), s.port[n].ct.therm ≠ none ∧ s.tFet n = some x ∧ x < s.portS16 n 0x32 - 160) ∧
    (∃ (s : State) (n : PortId), (s.port[n].ct.therm = none ∨ s.tFet n = none)) :=
  ⟨⟨sourcing, 0, by decide⟩,
   ⟨upState, 0, Or.inl (by decide)⟩,
   ⟨{ withPort sourcePort with core := upState.core.map fun c => { c with slot := { c.slot with st := .running } } }, 0,
    by decide +kernel⟩,
   ⟨sourcingWaits, 0, by decide⟩,
   ⟨withPort { sourcePort with pd := { sourcePort.pd with objs := [.fixed 5000 300] } }, 0, by decide +kernel⟩,
   ⟨upState, 0, Or.inl (by decide)⟩,
   ⟨requestBad, _, 0, _, by decide +kernel, rfl, by decide⟩,
   ⟨requestDear, _, 0, _, ⟨2, 500, 500, 0, false⟩, .sprFixed, 20000, 500, 5000, by decide +kernel, rfl,
    by decide +kernel⟩,
   ⟨withPort (Port.asks { sourcePort with pd := { sourcePort.pd with objs := [.fixed 5000 300] }, rs := { sourcePort.rs with step := .asked } } (.request ⟨1,
    300, 300, 0, false⟩)), _, 0, _, ⟨1, 300, 300, 0, false⟩, .sprFixed, 5000, 300, 3000, by decide +kernel, rfl,
    by decide +kernel⟩,
   ⟨withPort (Port.asks { sourcePort with pd := { sourcePort.pd with objs := [.fixed 5000 300] } } (.request ⟨1, 300,
    300, 0, false⟩)), _, 0, _, ⟨1, 300, 300, 0, false⟩, .sprFixed, 5000, 300, 3000, by decide +kernel, rfl,
    by decide +kernel⟩,
   ⟨requestRamp, _, 0, _, ⟨2, 300, 300, 0, false⟩, .sprFixed, 9000, 300, 3000, ⟨2, 24, 48, false, 512000⟩, 0, 61440,
    63488, by decide +kernel, rfl, by decide +kernel⟩,
   ⟨upState, 0, by decide +kernel⟩,
   ⟨eprReady, _, 0, _, rfl, by decide⟩,
   ⟨eprAsked, _, 0, _, 1, rfl, by decide⟩,
   ⟨eprSpent, _, 0, _, rfl, by decide +kernel⟩,
   ⟨upState, 0, by decide⟩,
   ⟨rampDue, 0, 0, aPlan, by decide⟩,
   ⟨upState, 0, by decide⟩,
   ⟨planEnded, 0, 9000, _, rfl, by decide⟩,
   ⟨upState, 0, 0, by decide⟩,
   ⟨planEnded, 0, _, rfl, by decide⟩,
   ⟨upState, 0, by decide⟩,
   ⟨{ shedPort with port := shedPort.port.map fun p => { p with ct := { p.ct with shedTimer := true } } }, 0, 60,
    by decide +kernel⟩,
   ⟨upState, 0, Or.inl (by decide)⟩,
   ⟨upState, 0, 0, by decide⟩,
   ⟨swapPort .prSrcSnk .fall, 0, 0, by decide⟩,
   ⟨{ withPort { sourcePort with ct := { sourcePort.ct with therm := some 60 }, pp := { sourcePort.pp with rEst := 2000, learned := some (2000, 400) } } with store := State.reset.store },
    0, 400, by decide +kernel⟩,
   ⟨upState, 0, Or.inl (by decide)⟩⟩

theorem witness_SinkContracts :
    (∃ (s u : State) (n : PortId) (m : PdMsg) (r : Rdo), s.takeMsg n isCaps = some (m, false, u) ∧
      u.port[n].tc.st.isSource = false ∧ u.sinkAsk n (capsObjs m.body) = some r ∧ u.port[n].pd.contract = false) ∧
    (∃ (s u : State) (n : PortId) (m : PdMsg) (r : Rdo), s.takeMsg n isCaps = some (m, false, u) ∧
      u.port[n].tc.st.isSource = false ∧ u.sinkAsk n (capsObjs m.body) = some r ∧ u.port[n].pd.contract = true ∧
      r.mv ≠ u.port[n].ct.mv ∧ u.port[n].rs.stby = false ∧ 0 < u.port[n].ct.draw ∧
      (((u.cancelKind n .sink).bookPort n .sink 4 none u.port[n].ct.draw (if u.port[n].ct.draw ≤ u.stepBudget then 0 else 200)).2.ok) = true) ∧
    (∃ (s u : State) (n : PortId) (m : PdMsg), s.takeMsg n isCaps = some (m, true, u) ∧ u.port[n].tc.st.isSource = false) ∧
    (∃ (s u : State) (n : PortId) (m : PdMsg), s.takeMsg n isCaps = some (m, false, u) ∧ u.port[n].tc.st.isSource = true) ∧
    (∃ (s : State) (n : PortId), s.takeMsg n isCaps = none) ∧
    (∃ (s : State) (n : PortId) (i : Fin 256) (e : Entry) (a : CT) (p : Int), s.dueEntry n.val .sink = some i ∧
      s.tt.entries[i] = some e ∧ e.todo.head? = some (a, p) ∧ s.port[n].ct.stopFor = none) ∧
    (∃ (s : State) (n : PortId) (i : Fin 256) (e : Entry) (a : CT) (p : Int) (b : PdBody),
      s.dueEntry n.val .sink = some i ∧ s.tt.entries[i] = some e ∧ e.todo.head? = some (a, p) ∧
      s.port[n].ct.stopFor = some b ∧ ((s.port[n].ct.draw : Int) - p).toNat = 0 ∧ s.port[n].ct.stopRetry = false ∧
      (s.fireEntry i).sinkPending n = 0 ∧ s.port[n].pd.reqSent = none ∧ s.port[n].rs.leaving = false) ∧
    (∃ (s : State) (n : PortId), s.dueEntry n.val .sink = none) ∧
    (∃ (s : State) (n : PortId) (b : PdBody), s.port[n].ct.stopFor = some b ∧ s.port[n].ct.stopRetry = true ∧
      s.port[n].ct.draw = 0) ∧
    (∃ (s : State) (n : PortId), (s.port[n].ct.stopFor = none ∨ s.port[n].ct.stopRetry = false)) ∧
    (∃ (s : State) (n : PortId),
      (s.sbUp = false ∨ s.port[n].ct.kind ≠ .sinkFixed ∨ s.port[n].pp.st ≠ .closed ∨ s.sinkRoom = 0)) ∧
    (∃ (s : State) (n : PortId), s.sbUp = true ∧ s.port[n].ct.kind = .sinkFixed ∧ s.port[n].pp.st = .closed ∧
      s.port[n].pp.sink = true ∧ s.port[n].rs.stby = false ∧ s.port[n].rs.leaving = false ∧
      s.port[n].ct.regenHold = false ∧ s.port[n].rs.step = .idle ∧ s.port[n].ct.stopFor = none ∧
      s.port[n].pd.reqSent = none ∧
      0 < min (s.port[n].ct.intended - (s.port[n].ct.draw + s.sinkPending n)) s.sinkRoom) ∧
    (∃ (s : State) (v : Int) (n : PortId), v ≤ 0 ∧ s.sup.hvUp = true ∧ s.port[n].pp.sink = true) ∧
    (∃ (s : State) (v : Int), (0 < v ∨ s.sup.hvUp = false)) ∧
    (∃ (s : State) (n : PortId), s.sbUp = true) ∧
    (∃ (s : State), s.sbUp = false) :=
  ⟨⟨capsSeen, _, 0, _, _, rfl, by decide, rfl, by decide⟩,
   ⟨capsDraw, _, 0, _, _, rfl, by decide +kernel, rfl, by decide +kernel⟩,
   ⟨withPort (sinkPort.engAsks (.sourceCaps ⟨false, false, false, false, false⟩ [.fixed 5000 300])), _, 0, _, rfl,
    by decide +kernel⟩,
   ⟨sourceWith (.sourceCaps ⟨false, false, false, false, false⟩ []), _, 0, _, rfl, by decide⟩,
   ⟨upState, 0, by decide⟩,
   ⟨sinkDue, 0, 0, _, _, _, by decide, rfl, rfl, by decide⟩,
   ⟨(withPort { sinkPort with ct := { sinkPort.ct with stopFor := some .prSwap } }).withEntries { anEntry with kind := .sink },
    0, 0, _, _, _, .prSwap, by decide, rfl, rfl, rfl, by decide +kernel⟩,
   ⟨upState, 0, by decide⟩,
   ⟨{ upState with port := upState.port.set 0 { Port.reset with ct := { Contract.reset with stopFor := some .prSwap, stopRetry := true } } },
    0, _, rfl, by decide⟩,
   ⟨upState, 0, Or.inl (by decide)⟩,
   ⟨upState, 0, by decide⟩,
   ⟨{ withPort { sinkPort with ct := { sinkPort.ct with intended := 4 } } with hs := { upState.hs with power := [1000000000] } },
    0, by decide +kernel⟩,
   ⟨{ upState with port := upState.port.set 0 { Port.reset with pp := { Path.reset with sink := true } } }, -1, 0,
    by decide⟩,
   ⟨upState, 1, Or.inl (by decide)⟩,
   ⟨upState, 0, by decide⟩,
   ⟨State.reset, by decide⟩⟩

theorem witness_SwapRequests :
    (∃ (s u : State) (n : PortId) (m : PdMsg) (e : Bool), s.takeMsg n (fun b => b = .prSwap) = some (m, e, u) ∧
      (e = true ∨ u.swapFree n = false)) ∧
    (∃ (s u : State) (n : PortId) (m : PdMsg) (e : Bool), s.takeMsg n (fun b => b = .prSwap) = some (m, e, u) ∧
      e = false ∧ u.swapFree n = true ∧ prsAcc (u.rsCfg n) = false) ∧
    (∃ (s u : State) (n : PortId) (m : PdMsg) (e : Bool), s.takeMsg n (fun b => b = .prSwap) = some (m, e, u) ∧
      e = false ∧ u.swapFree n = true ∧ prsAcc (u.rsCfg n) = true ∧ u.port[n].tc.st = .attSnk ∧ u.port[n].ct.draw = 0) ∧
    (∃ (s u : State) (n : PortId) (m : PdMsg) (e : Bool), s.takeMsg n (fun b => b = .prSwap) = some (m, e, u) ∧
      e = false ∧ u.swapFree n = true ∧ prsAcc (u.rsCfg n) = true ∧ u.port[n].tc.st = .attSrc ∧
      u.pMeasFits n = true ∧ (u.bookRoleOff n 61440 73728).isSome = true) ∧
    (∃ (s u : State) (n : PortId) (m : PdMsg) (e : Bool), s.takeMsg n (fun b => b = .prSwap) = some (m, e, u) ∧
      e = false ∧ u.swapFree n = true ∧ prsAcc (u.rsCfg n) = true ∧ u.port[n].tc.st = .attSrc ∧
      (u.pMeasFits n = false ∨ u.bookRoleOff n 61440 73728 = none)) ∧
    (∃ (s : State) (n : PortId), s.takeMsg n (fun b => b = .prSwap) = none) ∧
    (∃ (s u : State) (n : PortId) (m : PdMsg) (e : Bool), s.takeMsg n (fun b => b = .drSwap) = some (m, e, u) ∧
      e = false ∧ u.swapFree n = true ∧ u.port[n].alt.mode = .none ∧ drsAcc (u.rsCfg n) = true) ∧
    (∃ (s u : State) (n : PortId) (m : PdMsg) (e : Bool), s.takeMsg n (fun b => b = .drSwap) = some (m, e, u) ∧
      e = false ∧ u.swapFree n = true ∧ u.port[n].alt.mode ≠ .none) ∧
    (∃ (s u : State) (n : PortId) (m : PdMsg) (e : Bool), s.takeMsg n (fun b => b = .drSwap) = some (m, e, u) ∧
      e = false ∧ u.swapFree n = true ∧ u.port[n].alt.mode = .none ∧ drsAcc (u.rsCfg n) = false) ∧
    (∃ (s u : State) (n : PortId) (m : PdMsg) (e : Bool), s.takeMsg n (fun b => b = .drSwap) = some (m, e, u) ∧
      (e = true ∨ u.swapFree n = false)) ∧
    (∃ (s : State) (n : PortId), s.takeMsg n (fun b => b = .drSwap) = none) ∧
    (∃ (s u : State) (n : PortId) (m : PdMsg) (e : Bool), s.takeMsg n (fun b => b = .vconnSwap) = some (m, e, u) ∧
      e = false ∧ u.swapFree n = true ∧ vcsAcc (u.rsCfg n) = true ∧ u.port[n].tc.vconnOn = false ∧
      u.vconnRoom n = true) ∧
    (∃ (s u : State) (n : PortId) (m : PdMsg) (e : Bool), s.takeMsg n (fun b => b = .vconnSwap) = some (m, e, u) ∧
      e = false ∧ u.swapFree n = true ∧ vcsAcc (u.rsCfg n) = true ∧ u.port[n].tc.vconnOn = true) ∧
    (∃ (s u : State) (n : PortId) (m : PdMsg) (e : Bool), s.takeMsg n (fun b => b = .vconnSwap) = some (m, e, u) ∧
      e = false ∧ u.swapFree n = true ∧ vcsAcc (u.rsCfg n) = false) ∧
    (∃ (s u : State) (n : PortId) (m : PdMsg) (e : Bool), s.takeMsg n (fun b => b = .vconnSwap) = some (m, e, u) ∧
      (e = true ∨ u.swapFree n = false ∨ (vcsAcc (u.rsCfg n) = true ∧ u.port[n].tc.vconnOn = false ∧
      u.vconnRoom n = false))) ∧
    (∃ (s : State) (n : PortId), s.takeMsg n (fun b => b = .vconnSwap) = none) ∧
    (∃ (s u : State) (n : PortId) (m : PdMsg) (e : Bool), s.takeMsg n (fun b => b = .frSwap) = some (m, e, u) ∧
      u.port[n].rs.code = .frsSource ∧ (u.port[n].rs.step = .frWait ∨ u.port[n].rs.step = .signal)) ∧
    (∃ (s u : State) (n : PortId) (m : PdMsg) (e : Bool), s.takeMsg n (fun b => b = .frSwap) = some (m, e, u) ∧
      u.port[n].rs.step = .idle) ∧
    (∃ (s u : State) (n : PortId) (m : PdMsg) (e : Bool), s.takeMsg n (fun b => b = .frSwap) = some (m, e, u) ∧
      u.port[n].rs.step ≠ .idle ∧ u.port[n].rs.code ≠ .frsSource) ∧
    (∃ (s : State) (n : PortId), s.takeMsg n (fun b => b = .frSwap) = none) ∧
    (∃ (s : State) (n : PortId), s.served n = true ∧ s.swapFree n = true ∧ s.port[n].pd.contract = true ∧
      s.plat[platOf n].fallback = false ∧ s.swapWanted n .data = true) ∧
    (∃ (s : State) (n : PortId), s.served n = true ∧ s.swapFree n = true ∧ s.port[n].pd.contract = true ∧
      s.plat[platOf n].fallback = false ∧ s.swapWanted n .power = true ∧ s.port[n].tc.st = .attSrc) ∧
    (∃ (s : State) (n : PortId), s.served n = true ∧ s.swapFree n = true ∧ s.plat[platOf n].fallback = false ∧
      s.swapWanted n .vconn = true) ∧
    (∃ (s : State) (n : PortId) (k : SwapKind),
      (s.swapWanted n k = false ∨ s.served n = false ∨ s.swapFree n = false ∨ s.plat[platOf n].fallback = true)) :=
  ⟨⟨asksUnattached .prSwap, _, 0, _, _, rfl, by decide⟩,
   ⟨asksAttached .prSwap, _, 0, _, _, rfl, by decide⟩,
   ⟨withPort (sinkPort.asks .prSwap), _, 0, _, _, rfl, by decide⟩,
   ⟨asksWilling .prSwap, _, 0, _, _, rfl, by decide +kernel⟩,
   ⟨{ asksWilling .prSwap with hs := { upState.hs with warn := true } }, _, 0, _, _, rfl, by decide +kernel⟩,
   ⟨upState, 0, by decide⟩,
   ⟨asksWilling .drSwap, _, 0, _, _, rfl, by decide⟩,
   ⟨withPort { sourcePort.asks .drSwap with alt := { Alt.reset with mode := .usb4, step := .mounted } }, _, 0, _, _,
    rfl, by decide⟩,
   ⟨asksAttached .drSwap, _, 0, _, _, rfl, by decide⟩,
   ⟨asksUnattached .drSwap, _, 0, _, _, rfl, by decide⟩,
   ⟨upState, 0, by decide⟩,
   ⟨vconnAsked, _, 0, _, _, rfl, by decide⟩,
   ⟨withPort (Port.asks { sourcePort with tc := { sourcePort.tc with vconnOn := true } } .vconnSwap), _, 0, _, _, rfl,
    by decide⟩,
   ⟨asksAttached .vconnSwap, _, 0, _, _, rfl, by decide⟩,
   ⟨asksUnattached .vconnSwap, _, 0, _, _, rfl, by decide⟩,
   ⟨upState, 0, by decide⟩,
   ⟨frAsked, _, 0, _, _, rfl, by decide⟩,
   ⟨asksWilling .frSwap, _, 0, _, _, rfl, by decide⟩,
   ⟨withPort (Port.asks { sourcePort with rs := { sourcePort.rs with step := .asked } } .frSwap), _, 0, _, _, rfl,
    by decide⟩,
   ⟨upState, 0, by decide⟩,
   ⟨(withPort sourcePort).withWords [(0x90, 0xF1000000)], 0, by decide⟩,
   ⟨(withPort sourcePort).withWords [(0x90, 0xF4000000)], 0, by decide +kernel⟩,
   ⟨vconnWanted, 0, by decide +kernel⟩,
   ⟨upState, 0, .data, by decide⟩⟩

theorem witness_TheTurntable :
    (∃ (s : State) (n : PortId) (i : Fin 256), s.dueEntry n.val .role = some i ∧ s.port[n].rs.entry = some i ∧
      s.port[n].rs.leaving = false ∧ s.port[n].rs.code = .prSrcSnk) ∧
    (∃ (s : State) (n : PortId) (i : Fin 256), s.dueEntry n.val .role = some i ∧ s.port[n].rs.entry = some i ∧
      s.port[n].rs.leaving = false ∧ s.port[n].rs.code = .prSnkSrc ∧ s.port[n].pp.st = .opn ∧ s.mayClose n = true ∧
      s.port[n].pp.cpg = true) ∧
    (∃ (s : State) (n : PortId) (i : Fin 256), s.dueEntry n.val .role = some i ∧ s.port[n].rs.entry = some i ∧
      s.port[n].rs.leaving = false ∧ s.port[n].rs.code = .prSnkSrc ∧ (s.port[n].pp.st ≠ .opn ∨ s.mayClose n = false)) ∧
    (∃ (s : State) (n : PortId) (i : Fin 256), s.dueEntry n.val .role = some i ∧ s.port[n].rs.entry = some i ∧
      s.port[n].rs.leaving = false ∧ s.port[n].rs.code = .none ∧ (s.fireEntry i).standbyFits n = true) ∧
    (∃ (s : State) (n : PortId) (i : Fin 256), s.dueEntry n.val .role = some i ∧ s.port[n].rs.entry = some i ∧
      s.port[n].rs.leaving = false ∧ s.port[n].rs.code = .none ∧ (s.fireEntry i).standbyFits n = false) ∧
    (∃ (s : State) (n : PortId) (i : Fin 256), s.dueEntry n.val .role = some i ∧ s.port[n].rs.entry = some i ∧
      s.port[n].rs.leaving = true) ∧
    (∃ (s : State) (n : PortId), s.dueEntry n.val .role = none) ∧
    (∃ (s u : State) (n : PortId) (m : PdMsg) (e : Bool), s.takeMsg n (fun b => b = .psRdy) = some (m, e, u) ∧
      u.port[n].rs.step = .partnerRdy ∧ u.port[n].rs.code = .prSrcSnk) ∧
    (∃ (s u : State) (n : PortId) (m : PdMsg) (e : Bool), s.takeMsg n (fun b => b = .psRdy) = some (m, e, u) ∧
      u.port[n].rs.step = .partnerRdy ∧ u.port[n].rs.code = .vconnOff) ∧
    (∃ (s u : State) (n : PortId) (m : PdMsg) (e : Bool), s.takeMsg n (fun b => b = .psRdy) = some (m, e, u) ∧
      u.port[n].rs.step = .partnerRdy ∧ u.port[n].rs.code = .frsSource) ∧
    (∃ (s u : State) (n : PortId) (m : PdMsg) (e : Bool), s.takeMsg n (fun b => b = .psRdy) = some (m, e, u) ∧
      u.port[n].rs.step = .partnerRdy ∧ u.port[n].rs.code = .prSnkSrc ∧ u.hs.warn = false) ∧
    (∃ (s u : State) (n : PortId) (m : PdMsg) (e : Bool) (r : Rdo), s.takeMsg n (fun b => b = .psRdy) = some (m, e, u) ∧
      u.port[n].rs.step = .idle ∧ u.port[n].pd.reqSent = some r) ∧
    (∃ (s u : State) (n : PortId) (m : PdMsg) (e : Bool), s.takeMsg n (fun b => b = .psRdy) = some (m, e, u) ∧
      u.port[n].rs.step = .idle ∧ u.port[n].pd.reqSent = none) ∧
    (∃ (s : State) (n : PortId), s.takeMsg n (fun b => b = .psRdy) = none) ∧
    (∃ (s : State) (n : PortId) (v : Nat), s.port[n].rs.step = .rise ∧ 4750 ≤ v ∧ v ≤ 5500 ∧
      s.port[n].rs.code = .prSnkSrc ∧ (s.port[n].pp.st = .closing ∨ s.port[n].pp.st = .closed) ∧
      s.port[n].rs.entry = none ∧ s.port[n].rs.retry = false) ∧
    (∃ (s : State) (n : PortId) (v : Nat), (s.port[n].rs.step ≠ .rise ∨ v < 4750 ∨ 5500 < v)) ∧
    (∃ (s : State) (n : PortId) (v : Nat), s.port[n].rs.step = .rise ∧ 4750 ≤ v ∧ v ≤ 5500 ∧ s.port[n].rs.code = .frsSink) ∧
    (∃ (s : State) (n : PortId) (v : Nat), s.port[n].rs.code = .vconnOn ∧ s.port[n].rs.step = .rise ∧ 4750 ≤ v) ∧
    (∃ (s : State) (n : PortId) (v : Nat), (s.port[n].rs.code ≠ .vconnOn ∨ s.port[n].rs.step ≠ .rise ∨ v < 4750)) ∧
    (∃ (s : State) (n : PortId), s.port[n].rs.code = .vconnOn ∧ s.port[n].rs.step = .rise) ∧
    (∃ (s : State) (n : PortId), (s.port[n].rs.code ≠ .vconnOn ∨ s.port[n].rs.step ≠ .rise)) ∧
    (∃ (s : State) (n : PortId), s.port[n].tc.st.attached = true ∧ s.port[n].rs.code = .prSnkSrc ∧
      s.port[n].rs.step = .rise) ∧
    (∃ (s : State) (n : PortId), (s.port[n].rs.code ≠ .prSnkSrc ∨ s.port[n].rs.step ≠ .rise)) ∧
    (∃ (s : State) (n : PortId), s.port[n].tc.st.attached = true ∧
      (s.port[n].rs.step = .frAccept ∨ s.port[n].rs.step = .partnerRdy ∧ s.port[n].rs.code ≠ .vconnOff)) ∧
    (∃ (s : State) (n : PortId), s.port[n].rs.step = .partnerRdy ∧ s.port[n].rs.code = .vconnOff) ∧
    (∃ (s : State) (n : PortId), s.port[n].rs.step = .fall) ∧
    (∃ (s : State) (n : PortId), s.port[n].rs.step ≠ .fall ∧ s.port[n].rs.step ≠ .partnerRdy ∧
      s.port[n].rs.step ≠ .frAccept) ∧
    (∃ (s : State) (n : PortId), s.port[n].tc.opening ≠ .retry ∧ s.port[n].rs.retry = false) ∧
    (∃ (s : State) (n : PortId), s.port[n].tc.opening = .retry ∧ s.port[n].rs.retry = false ∧ s.coreRuns n = true) ∧
    (∃ (s : State) (n : PortId), s.port[n].rs.retry = false ∧ (s.port[n].tc.opening ≠ .retry ∨ s.coreRuns n = false)) ∧
    (∃ (s : State) (n : PortId), s.port[n].tc.opening ≠ .retry ∧ s.port[n].rs.code = .prSnkSrc ∧
      s.port[n].rs.step = .rise ∧ s.port[n].rs.retry = true) :=
  ⟨⟨roleDue .prSrcSnk, 0, 0, by decide⟩,
   ⟨roleOn, 0, 0, by decide⟩,
   ⟨roleDue .prSnkSrc, 0, 0, by decide⟩,
   ⟨standbyDue, 0, 0, by decide +kernel⟩,
   ⟨roleDue .none, 0, 0, by decide +kernel⟩,
   ⟨(withPort { sinkPort with rs := { sinkPort.rs with stby := true, leaving := true, entry := some 0 } }).withEntries { anEntry with kind := .role },
    0, 0, by decide⟩,
   ⟨upState, 0, by decide⟩,
   ⟨rdyPort .prSrcSnk, _, 0, _, true, rfl, by decide⟩,
   ⟨rdyPort .vconnOff, _, 0, _, true, rfl, by decide⟩,
   ⟨rdyPort .frsSource, _, 0, _, true, rfl, by decide⟩,
   ⟨rdyPort .prSnkSrc, _, 0, _, true, rfl, by decide⟩,
   ⟨withPort (Port.asks { sinkPort with pd := { sinkPort.pd with reqSent := some ⟨1, 300, 300, 5000, false⟩ } } .psRdy),
    _, 0, _, _, _, rfl, by decide, rfl⟩,
   ⟨withPort (sourcePort.asks .psRdy), _, 0, _, _, rfl, by decide⟩,
   ⟨upState, 0, by decide⟩,
   ⟨risePort, 0, 5000, by decide⟩,
   ⟨upState, 0, 0, Or.inl (by decide)⟩,
   ⟨swapPort .frsSink .rise, 0, 5000, by decide⟩,
   ⟨swapPort .vconnOn .rise, 0, 4800, by decide⟩,
   ⟨upState, 0, 0, Or.inl (by decide)⟩,
   ⟨swapPort .vconnOn .rise, 0, by decide⟩,
   ⟨upState, 0, Or.inl (by decide)⟩,
   ⟨risePort, 0, by decide⟩,
   ⟨upState, 0, Or.inl (by decide)⟩,
   ⟨swapPort .frsSink .frAccept, 0, by decide⟩,
   ⟨swapPort .vconnOff .partnerRdy, 0, by decide⟩,
   ⟨swapPort .prSrcSnk .fall, 0, by decide⟩,
   ⟨upState, 0, by decide⟩,
   ⟨upState, 0, by decide⟩,
   ⟨{ upState with port := upState.port.set 0 { Port.reset with tc := { TypeC.reset with opening := .retry } } }, 0,
    by decide⟩,
   ⟨State.reset, 0, by decide⟩,
   ⟨withPort { sinkPort with rs := { sinkPort.rs with code := .prSnkSrc, step := .rise, retry := true } }, 0, by decide⟩⟩

theorem witness_FastRoleSwap :
    (∃ (s : State) (n : PortId), s.port[n].rs.code = .frsSource ∧ s.port[n].rs.step = .signal) ∧
    (∃ (s : State) (n : PortId), (s.port[n].rs.code ≠ .frsSource ∨ s.port[n].rs.step ≠ .signal)) ∧
    (∃ (s : State) (n : PortId), s.port[n].rs.code = .frsSource ∧ s.port[n].rs.step = .frWait) ∧
    (∃ (s : State) (n : PortId), (s.port[n].rs.code ≠ .frsSource ∨ s.port[n].rs.step ≠ .frWait)) ∧
    (∃ (s : State) (n : PortId), s.port[n].rs.stby = true ∧ s.port[n].rs.step = .idle) ∧
    (∃ (s : State) (n : PortId), (s.port[n].rs.stby = false ∨ s.port[n].rs.step ≠ .idle)) ∧
    (∃ (s : State) (n : PortId), s.port[n].rs.stby = true) ∧
    (∃ (s : State) (n : PortId), s.port[n].rs.stby = false) ∧
    (∃ (s : State) (n : PortId) (v : Nat), s.port[n].rs.stby = true ∧ v < 201) ∧
    (∃ (s : State) (n : PortId) (v : Nat), (s.port[n].rs.stby = false ∨ 201 ≤ v)) :=
  ⟨⟨swapPort .frsSource .signal, 0, by decide⟩,
   ⟨upState, 0, Or.inl (by decide)⟩,
   ⟨swapPort .frsSource .frWait, 0, by decide⟩,
   ⟨upState, 0, Or.inl (by decide)⟩,
   ⟨stbyPort, 0, by decide⟩,
   ⟨upState, 0, Or.inl (by decide)⟩,
   ⟨stbyPort, 0, by decide⟩,
   ⟨upState, 0, by decide⟩,
   ⟨stbyPort, 0, 100, by decide⟩,
   ⟨upState, 0, 100, Or.inl (by decide)⟩⟩

theorem witness_AlternateModes :
    (∃ (s : State) (n : PortId), s.served n = true ∧ s.swapFree n = true ∧ s.port[n].pd.contract = true ∧
      s.plat[platOf n].fallback = false ∧ s.port[n].alt.step = .idle ∧ s.port[n].alt.tried = false ∧
      altAuto (s.altCfg n) = true ∧ s.modesAllowed n = true ∧ s.swapWanted n .power = false ∧
      s.swapWanted n .data = false ∧ s.swapPending n = false) ∧
    (∃ (s : State) (n : PortId),
      (s.port[n].alt.tried = true ∨ s.served n = false ∨ s.swapFree n = false ∨ s.port[n].pd.contract = false ∨ s.plat[platOf n].fallback = true ∨ s.port[n].alt.step ≠ .idle ∨ altAuto (s.altCfg n) = false ∨ s.modesAllowed n = false ∨ s.swapWanted n .power = true ∨ s.swapWanted n .data = true)) ∧
    (∃ (s u : State) (n : PortId) (m : PdMsg) (e b : Bool), s.takeMsg n isVdmAnswer = some (m, e, u) ∧ m.sop = .sop ∧
      m.body = .partnerIdentity b ∧ u.port[n].alt.step = .identity) ∧
    (∃ (s u : State) (n : PortId) (m : PdMsg) (e : Bool) (l : List (BitVec 16)), s.takeMsg n isVdmAnswer = some (m, e,
      u) ∧ m.sop = .sop ∧ m.body = .svidsAck l ∧ u.port[n].alt.step = .svids ∧ l.contains 0xFF01 = true) ∧
    (∃ (s u : State) (n : PortId) (m : PdMsg) (e : Bool) (x : Nat), s.takeMsg n isVdmAnswer = some (m, e, u) ∧
      m.sop = .sop ∧ m.body = .vdmAck .discoverModes x ∧ u.port[n].alt.step = .modes ∧ u.modesAllowed n = false) ∧
    (∃ (s u : State) (n : PortId) (m : PdMsg) (e : Bool) (x : Nat), s.takeMsg n isVdmAnswer = some (m, e, u) ∧
      m.sop = .sop ∧ m.body = .vdmAck .enterMode x ∧ u.port[n].alt.step = .enterMode ∧ u.mayEnterDp n = true) ∧
    (∃ (s u : State) (n : PortId) (m : PdMsg) (e : Bool) (x : Nat), s.takeMsg n isVdmAnswer = some (m, e, u) ∧
      m.sop = .sop ∧ m.body = .vdmAck .enterMode x ∧ u.port[n].alt.step = .enterMode ∧ u.mayEnterDp n = false ∧
      u.port[n].rs.dr = .dfp) ∧
    (∃ (s u : State) (n : PortId) (m : PdMsg) (e : Bool) (x : Nat), s.takeMsg n isVdmAnswer = some (m, e, u) ∧
      m.sop = .sop ∧ m.body = .vdmAck .enterMode x ∧ u.port[n].alt.step = .enterMode ∧ u.port[n].rs.dr = .ufp) ∧
    (∃ (s u : State) (n : PortId) (m : PdMsg) (e : Bool) (x : Nat), s.takeMsg n isVdmAnswer = some (m, e, u) ∧
      m.sop = .sop ∧ m.body = .vdmAck .dpStatus x ∧ u.port[n].alt.step = .status ∧ u.port[n].alt.mode = .displayPort) ∧
    (∃ (s u : State) (n : PortId) (m : PdMsg) (e : Bool) (x : Nat), s.takeMsg n isVdmAnswer = some (m, e, u) ∧
      m.sop = .sop ∧ m.body = .vdmAck .dpConfigure x ∧ u.port[n].alt.step = .configure) ∧
    (∃ (s u : State) (n : PortId) (m : PdMsg) (e : Bool) (x : Nat), s.takeMsg n isVdmAnswer = some (m, e, u) ∧
      m.sop = .sop ∧ m.body = .vdmAck .exitMode x ∧ u.port[n].alt.step = .exiting) ∧
    (∃ (s u : State) (n : PortId) (m : PdMsg) (e : Bool) (c : VdmCmd), s.takeMsg n isVdmAnswer = some (m, e, u) ∧
      m.sop = .sop ∧ m.body = .vdmNak c ∧ u.port[n].alt.step = .enterMode) ∧
    (∃ (s : State) (n : PortId), s.takeMsg n isVdmAnswer = none) ∧
    (∃ (s : State) (n : PortId), s.served n = true ∧ (s.port[n].alt.step = .enterMode ∨ s.port[n].alt.step = .enterUsb) ∧
      s.port[n].pd.armed .vdm = true) ∧
    (∃ (s : State) (n : PortId), s.served n = true ∧ s.port[n].alt.step = .exiting ∧ s.port[n].pd.armed .vdm = true) ∧
    (∃ (s : State) (n : PortId), (s.served n = false ∨ s.port[n].pd.armed .vdm = false)) ∧
    (∃ (s u : State) (n : PortId) (m : PdMsg), s.takeMsg n isAttention = some (m, true, u)) ∧
    (∃ (s u : State) (n : PortId) (m : PdMsg) (x : VdmCmd) (v : BitVec 16) (a : Nat), s.takeMsg n isAttention = some (m,
      false, u) ∧ m.body = .vdm x v a ∧ u.port[n].alt.mode = .displayPort) ∧
    (∃ (s u : State) (n : PortId) (m : PdMsg), s.takeMsg n isAttention = some (m, false, u) ∧
      u.port[n].alt.mode ≠ .displayPort) ∧
    (∃ (s : State) (n : PortId), s.takeMsg n isAttention = none) :=
  ⟨⟨(withPort { sourcePort with pd := { sourcePort.pd with cable := 0x01000000 } }).withWords [(0x94, 0xFE000000)], 0,
    by decide +kernel⟩,
   ⟨{ upState with port := upState.port.set 0 { Port.reset with alt := { Alt.reset with tried := true } } }, 0,
    Or.inl (by decide)⟩,
   ⟨altAsked (.partnerIdentity true) .identity, _, 0, _, false, _, rfl, rfl, rfl, by decide⟩,
   ⟨altAsked (.svidsAck [0xFF01]) .svids, _, 0, _, false, _, rfl, rfl, rfl, by decide⟩,
   ⟨noModes, _, 0, _, false, _, rfl, rfl, rfl, by decide +kernel⟩,
   ⟨modeAsked (.vdmAck .enterMode 0) .enterMode, _, 0, _, false, _, rfl, rfl, rfl, by decide +kernel⟩,
   ⟨altAsked (.vdmAck .enterMode 0) .enterMode, _, 0, _, false, _, rfl, rfl, rfl, by decide +kernel⟩,
   ⟨withPort (Port.asks { sourcePort with rs := { sourcePort.rs with dr := .ufp }, alt := { Alt.reset with step := .enterMode } } (.vdmAck .enterMode 0)),
    _, 0, _, false, _, rfl, rfl, rfl, by decide⟩,
   ⟨withPort (Port.asks { sourcePort with alt := { Alt.reset with mode := .displayPort, step := .status } } (.vdmAck .dpStatus 0)),
    _, 0, _, false, _, rfl, rfl, rfl, by decide⟩,
   ⟨altAsked (.vdmAck .dpConfigure 0) .configure, _, 0, _, false, _, rfl, rfl, rfl, by decide⟩,
   ⟨altAsked (.vdmAck .exitMode 0) .exiting, _, 0, _, false, _, rfl, rfl, rfl, by decide⟩,
   ⟨altAsked (.vdmNak .enterMode) .enterMode, _, 0, _, false, _, rfl, rfl, rfl, by decide⟩,
   ⟨upState, 0, by decide⟩,
   ⟨vdmArmed .enterMode, 0, by decide⟩,
   ⟨vdmArmed .exiting, 0, by decide⟩,
   ⟨State.reset, 0, Or.inl (by decide)⟩,
   ⟨attentionHeld, _, 0, _, rfl⟩,
   ⟨attentionSeen, _, 0, _, _, _, _, rfl, rfl, by decide⟩,
   ⟨withPort (sourcePort.asks (.vdm .attention 0xFF01 0)), _, 0, _, rfl, by decide⟩,
   ⟨upState, 0, by decide⟩⟩

theorem witness_PointsScripts :
    (∃ (s : State) (h : Script) (l : List Script) (w : Word) (r : List Word), s.points.queue = h :: l ∧
      s.points.running = false ∧ s.scriptReady h = true ∧ h.steps = w :: r ∧
      oriSkips s.port[h.port].tc.orient w = false ∧ bits w 31 30 ≠ 0) ∧
    (∃ (s : State) (h : Script) (l : List Script), s.points.queue = h :: l ∧ s.points.running = false ∧
      s.scriptReady h = true ∧ h.steps = [] ∧ h.event ≠ 1) ∧
    (∃ (s : State) (g h : Script) (l : List Script) (w : Word) (r : List Word), s.points.queue = g :: h :: l ∧
      s.scriptReady g = false ∧ s.scriptReady h = true ∧ h.steps = w :: r ∧
      oriSkips s.port[h.port].tc.orient w = false ∧ bits w 31 30 ≠ 0) ∧
    (∃ (s : State), ((∀ h ∈ s.points.queue, s.scriptReady h = false) ∨ s.curScript.isSome = true)) ∧
    (∃ (s : State) (h : Script) (l : List Script) (w x : Word) (r : List Word), s.points.queue = h :: l ∧
      s.points.running = true ∧ s.points.delay = false ∧ h.steps = w :: x :: r ∧ bits w 31 30 = 1 ∧
      s.scriptReady h = true ∧ s.points.busFree = true ∧ s.points.sclStuck = false ∧
      oriSkips s.port[h.port].tc.orient x = false ∧ bits x 31 30 ≠ 0) ∧
    (∃ (s : State) (h : Script) (l : List Script) (w x y : Word) (r : List Word), s.points.queue = h :: l ∧
      s.points.running = true ∧ s.points.delay = false ∧ h.steps = w :: x :: y :: r ∧ bits w 31 30 = 1 ∧
      s.scriptReady h = true ∧ s.points.busFree = true ∧ s.points.sclStuck = false ∧
      oriSkips s.port[h.port].tc.orient x = true ∧ oriSkips s.port[h.port].tc.orient y = false ∧ bits y 31 30 ≠ 0) ∧
    (∃ (s : State) (h : Script) (l : List Script) (w : Word) (r : List Word), s.points.queue = h :: l ∧
      s.points.running = true ∧ s.points.delay = false ∧ h.steps = w :: r ∧
      r.head?.all (fun x => decide (bits x 31 30 = 0) && !oriSkips s.port[h.port].tc.orient x) = true ∧
      bits w 31 30 = 1 ∧ s.scriptReady h = true ∧ s.points.busFree = true ∧ s.points.sclStuck = false ∧ h.event ≠ 1) ∧
    (∃ (s : State) (h : Script) (l : List Script) (w x : Word) (r : List Word), s.points.queue = h :: l ∧
      s.points.running = true ∧ s.points.delay = false ∧ h.steps = w :: x :: r ∧ bits w 31 30 = 1 ∧
      s.scriptReady h = true ∧ s.points.busFree = true ∧ s.points.sclStuck = false ∧ h.fails < 3) ∧
    (∃ (s : State) (h : Script) (l : List Script) (w x : Word) (r : List Word), s.points.queue = h :: l ∧
      s.points.running = true ∧ s.points.delay = false ∧ h.steps = w :: x :: r ∧ bits w 31 30 = 1 ∧
      s.scriptReady h = true ∧ s.points.busFree = true ∧ s.points.sclStuck = false ∧ h.fails = 3) ∧
    (∃ (s : State) (a : Bool), (s.points.delay = true ∨ (s.points.queue = [] ∧
      s.points.running = false) ∨ s.curStep.any (fun x => decide (bits x.2 31 30 ≠ 1) || !s.points.busFree || s.points.sclStuck) = true)) ∧
    (∃ (s : State) (h : Script) (l : List Script) (w x : Word) (r : List Word), s.points.queue = h :: l ∧
      s.points.running = true ∧ s.points.delay = true ∧ h.steps = w :: x :: r ∧ bits w 31 30 = 1 ∧
      s.scriptReady h = true ∧ s.points.busFree = true ∧ s.points.sclStuck = false ∧
      oriSkips s.port[h.port].tc.orient x = false ∧ bits x 31 30 ≠ 0) ∧
    (∃ (s : State) (a : Bool), s.points.delay = false) ∧
    (∃ (s : State) (h : Script) (l : List Script) (w x : Word) (r : List Word), s.points.queue = h :: l ∧
      s.points.running = true ∧ h.steps = w :: x :: r ∧ bits w 31 30 = 2 ∧ s.scriptReady h = true ∧
      oriSkips s.port[h.port].tc.orient x = false ∧ bits x 31 30 ≠ 0) ∧
    (∃ (s : State), (s.points.queue = [] ∨ s.points.running = false)) ∧
    (∃ (s : State) (o : Bool) (h : Script) (l : List Script) (w : Word) (r : List Word), s.points.queue = h :: l ∧
      s.points.running = true ∧ h.steps = w :: r ∧ bits w 31 30 = 1 ∧ s.scriptReady h = true ∧
      s.points.busFree = true ∧ s.points.sclStuck = false ∧ h.losses < 31) ∧
    (∃ (s : State) (o : Bool) (h : Script) (l : List Script) (w : Word) (r : List Word), s.points.queue = h :: l ∧
      s.points.running = true ∧ h.steps = w :: r ∧ bits w 31 30 = 1 ∧ s.scriptReady h = true ∧
      s.points.busFree = true ∧ s.points.sclStuck = false ∧ 31 ≤ h.losses ∧ h.fails < 3) ∧
    (∃ (s : State) (o : Bool), (s.points.queue = [] ∨ s.points.running = false ∨ s.points.busFree = false)) ∧
    (∃ (s : State) (b : Bool), (s.points.queue = [] ∨ s.points.running = false)) ∧
    (∃ (s : State), s.sbUp = true ∧ (s.points.queue = [] ∨ s.points.running = false)) :=
  ⟨⟨scriptState false false, aScript, [], _, _, by decide, by decide, by decide, rfl, by decide⟩,
   ⟨{ upState with points := { upState.points with queue := [{ aScript with steps := [], event := 5 }] } }, _, _, rfl,
    by decide⟩,
   ⟨heldScripts, _, _, _, _, _, rfl, by decide, by decide, rfl, by decide⟩,
   ⟨upState, Or.inl (by decide)⟩,
   ⟨scriptState true false, aScript, [], 0x40000000, 0x40000000, [], by decide⟩,
   ⟨scriptOri, _, _, _, _, _, _, rfl, by decide, by decide, rfl, by decide⟩,
   ⟨{ upState with points := { upState.points with queue := [{ aScript with steps := [0x40000000], event := 5 }], running := true, busFree := true } },
    _, _, _, _, rfl, by decide, by decide, rfl, rfl, by decide⟩,
   ⟨scriptState true false, aScript, [], 0x40000000, 0x40000000, [], by decide⟩,
   ⟨{ scriptState true false with points := { (scriptState true false).points with queue := [{ aScript with fails := 3 }] } },
    _, _, _, _, _, rfl, by decide, by decide, rfl, by decide⟩,
   ⟨upState, false, Or.inr (Or.inl (by decide))⟩,
   ⟨scriptState true true, aScript, [], 0x40000000, 0x40000000, [], by decide⟩,
   ⟨upState, true, by decide⟩,
   ⟨delayState, aDelay, [], 0x80000000, 0x80000000, [], by decide⟩,
   ⟨upState, Or.inl (by decide)⟩,
   ⟨scriptState true false, false, aScript, [], 0x40000000, [0x40000000], by decide⟩,
   ⟨{ scriptState true false with points := { (scriptState true false).points with queue := [{ aScript with losses := 31 }] } },
    false, _, _, _, _, rfl, by decide, rfl, by decide⟩,
   ⟨upState, false, Or.inl (by decide)⟩,
   ⟨upState, false, Or.inl (by decide)⟩,
   ⟨upState, by decide, Or.inl (by decide)⟩⟩

theorem witness_PdReceiving :
    (∃ (s : State) (n : PortId) (m : PdMsg), m.valid = true ∧ s.ctxActive n m.sop = false) ∧
    (∃ (s : State) (n : PortId) (m : PdMsg), m.valid = true ∧ s.ctxActive n m.sop = true ∧
      (s.ctx n m.sop).rxValid = true ∧ (s.ctx n m.sop).rxId = m.id) ∧
    (∃ (s : State) (n : PortId) (m : PdMsg), m.valid = false) ∧
    (∃ (s : State) (n : PortId) (m : PdMsg), m.valid = true ∧ s.ctxActive n m.sop = true ∧
      ((s.ctx n m.sop).rxValid = false ∨ (s.ctx n m.sop).rxId ≠ m.id) ∧ (s.seen n m).engTakes n m = false ∧
      m.body ≠ .softReset ∧ 4 ≤ s.port[n].pd.rxq.length + s.port[n].pd.rxDone) ∧
    (∃ (s : State) (n : PortId) (m : PdMsg), m.valid = true ∧ s.ctxActive n m.sop = true ∧
      ((s.ctx n m.sop).rxValid = false ∨ (s.ctx n m.sop).rxId ≠ m.id) ∧ (s.seen n m).engTakes n m = false ∧
      m.body ≠ .softReset ∧ s.port[n].pd.rxq.length + s.port[n].pd.rxDone < 4 ∧ m.chunk = none ∧ ((∀ ty,
      (s.ctx n ty).tx = .idle ∧ (s.ctx n ty).rxPart = none)) ∧ s.port[n].ct.plan = none ∧
      s.port[n].ct.rdyOut = false ∧ (rowless m.body = false ∨ s.served n = false)) ∧
    (∃ (s : State) (n : PortId) (m : PdMsg), m.valid = true ∧ s.ctxActive n m.sop = true ∧
      ((s.ctx n m.sop).rxValid = false ∨ (s.ctx n m.sop).rxId ≠ m.id) ∧ (s.seen n m).engTakes n m = true ∧
      m.chunk = none ∧ ((∀ ty, (s.ctx n ty).tx = .idle ∧ (s.ctx n ty).rxPart = none))) ∧
    (∃ (s : State) (n : PortId) (m : PdMsg), m.valid = true ∧ s.ctxActive n m.sop = true ∧
      ((s.ctx n m.sop).rxValid = false ∨ (s.ctx n m.sop).rxId ≠ m.id) ∧ (s.seen n m).engTakes n m = false ∧
      m.body ≠ .softReset ∧ s.port[n].pd.rxq.length + s.port[n].pd.rxDone < 4 ∧ m.chunk = none ∧ ((∀ ty,
      (s.ctx n ty).tx = .idle ∧ (s.ctx n ty).rxPart = none)) ∧ s.served n = true ∧ s.port[n].ct.rdyOut = true ∧
      s.port[n].rs.code ≠ .frsSource) ∧
    (∃ (s : State) (n : PortId) (m : PdMsg), m.valid = true ∧ s.ctxActive n m.sop = true ∧
      ((s.ctx n m.sop).rxValid = false ∨ (s.ctx n m.sop).rxId ≠ m.id) ∧ (s.seen n m).engTakes n m = false ∧
      m.body ≠ .softReset ∧ s.port[n].pd.rxq.length + s.port[n].pd.rxDone < 4 ∧ m.chunk = some (0, false) ∧ ((∀ ty,
      (s.ctx n ty).tx = .idle ∧ (s.ctx n ty).rxPart = none))) ∧
    (∃ (s : State) (n : PortId) (m : PdMsg) (k : Nat) (l : Bool), m.valid = true ∧ s.ctxActive n m.sop = true ∧
      ((s.ctx n m.sop).rxValid = false ∨ (s.ctx n m.sop).rxId ≠ m.id) ∧ (s.seen n m).engTakes n m = false ∧
      m.body ≠ .softReset ∧ s.port[n].pd.rxq.length + s.port[n].pd.rxDone < 4 ∧ m.chunk = some (k, l) ∧ ((∀ ty,
      (s.ctx n ty).tx = .idle ∧ (s.ctx n ty).rxPart = none)) ∧ k ≠ 0) ∧
    (∃ (s u : State) (n : PortId) (m : PdMsg) (e : Bool), s.takeMsg n (fun b => b = .softReset) = some (m, e, u) ∧
      m.sop = .sop1) ∧
    (∃ (s u : State) (n : PortId) (m : PdMsg) (e : Bool), s.takeMsg n (fun b => b = .softReset) = some (m, e, u) ∧
      m.sop = .sop) ∧
    (∃ (s : State) (n : PortId), s.takeMsg n (fun b => b = .softReset) = none) ∧
    (∃ (s u : State) (n : PortId) (m : PdMsg) (e : Bool), s.takeMsg n (fun b => b = .eprKeepAlive) = some (m, e, u) ∧
      (u.ctx n m.sop).rev ≠ 1) ∧
    (∃ (s : State) (n : PortId), s.takeMsg n (fun b => b = .eprKeepAlive) = none) ∧
    (∃ (s u : State) (n : PortId) (m : PdMsg) (e : Bool),
      s.takeMsg n (fun b => unsupported b || rev3Only b && (s.ctx n .sop).rev = 0b01) = some (m, e, u)) ∧
    (∃ (s : State) (n : PortId), s.takeMsg n (fun b => unsupported b || rev3Only b && (s.ctx n .sop).rev = 0b01) = none) ∧
    (∃ (s u : State) (n : PortId) (m : PdMsg), s.takeMsg n isGetCap = some (m, false, u) ∧
      (rev3Only m.body = false ∨ (u.ctx n .sop).rev ≠ 0b01) ∧ u.capsGiven n m.body = true ∧ m.body = .getSinkCap) ∧
    (∃ (s u : State) (n : PortId) (m : PdMsg), s.takeMsg n isGetCap = some (m, false, u) ∧
      (rev3Only m.body = false ∨ (u.ctx n .sop).rev ≠ 0b01) ∧ u.capsGiven n m.body = true ∧ m.body = .getSourceCap ∧
      ((u.underTarget n).isSome = true ∨ u.policyRuns = false)) ∧
    (∃ (s u : State) (n : PortId) (m : PdMsg), s.takeMsg n isGetCap = some (m, false, u) ∧
      (rev3Only m.body = false ∨ (u.ctx n .sop).rev ≠ 0b01) ∧ u.capsGiven n m.body = false) ∧
    (∃ (s u : State) (n : PortId) (m : PdMsg), s.takeMsg n isGetCap = some (m, true, u) ∧
      (rev3Only m.body = false ∨ (u.ctx n .sop).rev ≠ 0b01)) ∧
    (∃ (s : State) (n : PortId), s.takeMsg n isGetCap = none) ∧
    (∃ (s u : State) (n : PortId) (m : PdMsg) (c : VdmCmd) (v : BitVec 16) (a : Nat), s.takeMsg n isUfpVdm = some (m,
      false, u) ∧ m.body = .vdm c v a) ∧
    (∃ (s u : State) (n : PortId) (m : PdMsg) (c : VdmCmd) (v : BitVec 16) (a : Nat), s.takeMsg n isUfpVdm = some (m,
      true, u) ∧ m.body = .vdm c v a ∧ c ≠ .discoverIdentity) ∧
    (∃ (s : State) (n : PortId), s.takeMsg n isUfpVdm = none) :=
  ⟨⟨upState, 0, aMsg .getSourceCap, by decide⟩,
   ⟨pdRepeat, 0, aMsg .getSourceCap, by decide⟩,
   ⟨upState, 0, { aMsg .getSourceCap with valid := false }, by decide⟩,
   ⟨queueFull, 0, aMsg .getSourceCap, by decide⟩,
   ⟨sourcing, 0, aMsg .getSourceCap, by decide, by decide, by decide, by decide, by decide, by decide, by decide,
    by intro ty; cases ty <;> decide, by decide⟩,
   ⟨pdHeld, 0, aMsg .getSourceCap, by decide, by decide, by decide, by decide, by decide,
    by intro ty; cases ty <;> decide⟩,
   ⟨withPort { sourcePort with ct := { sourcePort.ct with rdyOut := true } }, 0, aMsg .getSourceCap, by decide,
    by decide, by decide, by decide, by decide, by decide, by decide, by intro ty; cases ty <;> decide, by decide⟩,
   ⟨sourcing, 0, { aMsg (.other 0) with chunk := some (0, false) }, by decide, by decide, by decide, by decide,
    by decide, by decide, by decide, by intro ty; cases ty <;> decide⟩,
   ⟨sourcing, 0, { aMsg (.other 0) with chunk := some (2, false) }, 2, false, by decide, by decide, by decide,
    by decide, by decide, by decide, by decide, by intro ty; cases ty <;> decide, by decide⟩,
   ⟨withPort { sourcePort with pd := { sourcePort.pd with rxq := [{ aMsg .softReset with sop := .sop1 }] } }, _, 0, _,
    false, rfl, by decide⟩,
   ⟨sourceWith .softReset, _, 0, _, false, rfl, by decide⟩,
   ⟨upState, 0, by decide⟩,
   ⟨sourceWith .eprKeepAlive, _, 0, _, false, rfl, by decide⟩,
   ⟨upState, 0, by decide⟩,
   ⟨sourceWith .securityRequest, _, 0, _, false, rfl⟩,
   ⟨upState, 0, by decide⟩,
   ⟨sourceWith .getSinkCap, _, 0, _, rfl, by decide⟩,
   ⟨sourceWith .getSourceCap, _, 0, _, rfl, by decide⟩,
   ⟨sourceOnlyAsked, _, 0, _, rfl, by decide⟩,
   ⟨engineWith .getSourceCap, _, 0, _, rfl, by decide⟩,
   ⟨upState, 0, by decide⟩,
   ⟨sourceWith (.vdm .discoverIdentity 0xFF00 0), _, 0, _, _, _, _, rfl, rfl⟩,
   ⟨engineWith (.vdm .discoverSvids 0xFF00 0), _, 0, _, _, _, _, rfl, rfl, by decide⟩,
   ⟨upState, 0, by decide⟩⟩

theorem witness_PdTransmitting :
    (∃ (s : State) (n : PortId) (m : OutMsg) (l : List OutMsg), s.port[n].pd.outbox = m :: l ∧
      s.ctxActive n m.sop = true ∧ s.mayBegin n m = true) ∧
    (∃ (s : State) (n : PortId), s.port[n].pd.outbox = []) ∧
    (∃ (s : State) (n : PortId) (m : OutMsg), s.waiting1 n = some m ∧ (s.port[n].hold = false ∨ m.ams = false) ∧
      s.avoids n m = false ∧ m.body ≠ .softReset) ∧
    (∃ (s : State) (n : PortId) (m : OutMsg), s.waiting1 n = some m ∧ s.port[n].hold = false ∧ s.avoids n m = true ∧
      s.port[n].pd.armed .tSinkTx = false ∧ s.port[n].pd.armed .sinkSample = false ∧ s.port[n].tc.st.isSource = true) ∧
    (∃ (s : State) (n : PortId) (m : OutMsg), s.waiting1 n = some m ∧ s.port[n].hold = false ∧ s.avoids n m = true ∧
      s.port[n].pd.armed .tSinkTx = false ∧ s.port[n].pd.armed .sinkSample = false ∧ s.port[n].tc.st.isSource = false) ∧
    (∃ (s : State) (n : PortId) (m : OutMsg), s.waiting1 n = some m ∧ s.port[n].hold = true ∧ m.ams = true) ∧
    (∃ (s : State) (n : PortId), s.waiting1 n = none) ∧
    (∃ (s : State) (n : PortId) (m : OutMsg), s.port[n].pd.armed .tSinkTx = true ∧ s.waiting1 n = some m ∧
      m.body ≠ .softReset) ∧
    (∃ (s : State) (n : PortId), s.port[n].pd.armed .tSinkTx = false) ∧
    (∃ (s : State) (n : PortId) (v : Nat) (m : OutMsg), s.port[n].pd.armed .sinkSample = true ∧ 1230 < v ∧
      s.waiting1 n = some m ∧ m.body ≠ .softReset ∧ s.port[n].tc.blank = false) ∧
    (∃ (s : State) (n : PortId) (v : Nat),
      (s.port[n].pd.armed .sinkSample = false ∨ s.port[n].tc.blank = true ∨ v ≤ 1230)) ∧
    (∃ (s : State) (n : PortId) (m : OutMsg), s.port[n].pd.armed .sinkSample = true ∧ s.waiting1 n = some m ∧
      m.sop = .sop ∧ (s.ctx n .sop).cur = some m) ∧
    (∃ (s : State) (n : PortId), s.port[n].pd.armed .sinkSample = false) ∧
    (∃ (s : State) (n : PortId) (ty : Sop) (id : BitVec 3) (m : OutMsg), (s.ctx n ty).cur = some m ∧
      (s.ctx n ty).tx = .waitGoodcrc ∧ (s.ctx n ty).txId = id ∧ s.ctxActive n ty = true ∧
      (s.ctx n ty).rxPart = none ∧ (s.ctx n ty).chunk.toNat + 1 < chunksOf m.body) ∧
    (∃ (s : State) (n : PortId) (ty : Sop) (id : BitVec 3) (m : OutMsg), (s.ctx n ty).cur = some m ∧
      (s.ctx n ty).tx = .waitGoodcrc ∧ (s.ctx n ty).txId = id ∧ s.ctxActive n ty = true ∧
      (s.ctx n ty).rxPart = none ∧ chunksOf m.body ≤ (s.ctx n ty).chunk.toNat + 1 ∧ isChunkReq m.body = false) ∧
    (∃ (s : State) (n : PortId) (ty : Sop) (id : BitVec 3) (m : OutMsg), (s.ctx n ty).cur = some m ∧
      (s.ctx n ty).tx = .waitGoodcrc ∧ (s.ctx n ty).txId = id ∧ s.ctxActive n ty = true ∧
      (s.ctx n ty).rxPart ≠ none ∧ isChunkReq m.body = true) ∧
    (∃ (s : State) (n : PortId) (ty : Sop) (id : BitVec 3),
      ((s.ctx n ty).cur = none ∨ (s.ctx n ty).tx ≠ .waitGoodcrc ∨ (s.ctx n ty).txId ≠ id ∨ s.ctxActive n ty = false)) ∧
    (∃ (s : State) (n : PortId) (ty : Sop) (m : OutMsg), (s.ctx n ty).cur = some m ∧ (s.ctx n ty).tx = .waitGoodcrc ∧
      (s.ctx n ty).retry.toNat < nRetry (s.ctx n ty).rev (revMax s.port[n].tc.pdCfg)) ∧
    (∃ (s : State) (n : PortId) (ty : Sop) (m : OutMsg), (s.ctx n ty).cur = some m ∧ (s.ctx n ty).tx = .waitGoodcrc ∧
      nRetry (s.ctx n ty).rev (revMax s.port[n].tc.pdCfg) ≤ (s.ctx n ty).retry.toNat ∧ (s.ctx n ty).rxPart = none ∧
      isChunkReq m.body = false) ∧
    (∃ (s : State) (n : PortId) (ty : Sop), ((s.ctx n ty).cur = none ∨ (s.ctx n ty).tx ≠ .waitGoodcrc)) ∧
    (∃ (s : State) (n : PortId) (ty : Sop) (id : BitVec 3) (k : Nat), s.ctxActive n ty = true ∧
      ((s.ctx n ty).rxValid = false ∨ (s.ctx n ty).rxId ≠ id) ∧ (s.ctx n ty).tx = .chunking ∧
      (s.ctx n ty).cur ≠ none ∧ (s.ctx n ty).chunk.toNat = k) ∧
    (∃ (s : State) (n : PortId) (ty : Sop) (id : BitVec 3) (k : Nat), s.ctxActive n ty = true ∧
      ((s.ctx n ty).rxValid = false ∨ (s.ctx n ty).rxId ≠ id) ∧ (s.ctx n ty).tx = .chunking ∧
      (s.ctx n ty).cur ≠ none ∧ (s.ctx n ty).chunk.toNat ≠ k) ∧
    (∃ (s : State) (n : PortId) (ty : Sop) (id : BitVec 3) (k : Nat), s.ctxActive n ty = false) ∧
    (∃ (s : State) (n : PortId) (ty : Sop), (s.ctx n ty).chunked = true) ∧
    (∃ (s : State) (n : PortId) (ty : Sop), (s.ctx n ty).chunked = false) ∧
    (∃ (s : State) (n : PortId), s.port[n].pd.epr = true ∧ s.port[n].rs.pr = .sink) ∧
    (∃ (s : State) (n : PortId), (s.port[n].pd.epr = false ∨ s.port[n].rs.pr ≠ .sink)) ∧
    (∃ (s : State) (n : PortId), s.served n = true ∧ s.port[n].pd.contract = true ∧ s.port[n].pd.sentGetSink = false ∧
      s.port[n].rs.step = .idle ∧ s.port[n].ct.plan = none ∧ s.port[n].tc.st.isSource = true ∧
      frsTxEn (s.rsCfg n) = true ∧ (s.ctx n .sop).rev = 2) ∧
    (∃ (s : State) (n : PortId),
      (s.port[n].pd.sentGetSink = true ∨ s.served n = false ∨ s.port[n].pd.contract = false ∨ s.port[n].rs.step ≠ .idle ∨ s.port[n].ct.plan ≠ none ∨ (s.ctx n .sop).rev ≠ 2)) ∧
    (∃ (s : State) (n : PortId), s.served n = true ∧ s.ctxActive n .sop1 = true ∧ cableDisc s.port[n].tc.pdCfg = true ∧
      (s.port[n].pp.st = .closing ∨ s.port[n].pp.st = .closed) ∧ s.diCnt n < 20 ∧
      (bit s.port[n].pd.cable 24 = false ∨ s.port[n].pd.eprEntry = true) ∧
      s.port[n].pd.armed .discoverIdentity = false ∧ s.port[n].pd.outbox.any isCableAsk = false ∧
      (s.ctx n .sop1).cur = none) ∧
    (∃ (s : State) (n : PortId),
      (s.served n = false ∨ s.ctxActive n .sop1 = false ∨ cableDisc s.port[n].tc.pdCfg = false ∨ s.port[n].pp.st.live = false ∨ 20 ≤ s.diCnt n ∨ (bit s.port[n].pd.cable 24 = true ∧
      s.port[n].pd.eprEntry = false) ∨ s.port[n].pd.armed .discoverIdentity = true) ∧
      (s.port[n].pd.eprEntry = false ∨ s.port[n].tc.vconnOn = true ∨ s.served n = false)) ∧
    (∃ (s : State) (n : PortId), s.served n = true ∧ s.port[n].pd.eprEntry = true ∧ s.port[n].tc.vconnOn = false ∧
      s.ctxActive n .sop1 = false) :=
  ⟨⟨sendingPort, 0, _, _, rfl, by decide⟩,
   ⟨upState, 0, by decide⟩,
   ⟨waitingPort, 0, _, rfl, by decide⟩,
   ⟨avoidingPort, 0, _, rfl, by decide⟩,
   ⟨withPort { sinkPort with pd := sinkPort.pd.modCtx .sop fun c => { c with cur := some { anOut with ams := true }, tx := .waitIdle } },
    0, _, rfl, by decide⟩,
   ⟨withPort { sourcePort with hold := true, pd := sourcePort.pd.modCtx .sop fun c => { c with cur := some { anOut with ams := true }, tx := .waitIdle } },
    0, _, rfl, by decide⟩,
   ⟨upState, 0, by decide⟩,
   ⟨armedWaiting .tSinkTx, 0, anOut, by decide⟩,
   ⟨upState, 0, by decide⟩,
   ⟨armedWaiting .sinkSample, 0, 1300, anOut, by decide⟩,
   ⟨upState, 0, 1230, Or.inr (Or.inr (by decide))⟩,
   ⟨armedWaiting .sinkSample, 0, anOut, by decide⟩,
   ⟨upState, 0, by decide⟩,
   ⟨firstChunk, 0, .sop, 0, _, rfl, by decide⟩,
   ⟨sentPort, 0, .sop, 0, _, rfl, by decide⟩,
   ⟨withPort { sourcePort with pd := sourcePort.pd.modCtx .sop fun c => { c with cur := some { anOut with body := .chunkRequest 1 }, tx := .waitGoodcrc, rxPart := some (.other 0) } },
    0, .sop, 0, _, rfl, by decide⟩,
   ⟨upState, 0, .sop, 3, Or.inl (by decide)⟩,
   ⟨sentPort, 0, .sop, _, rfl, by decide⟩,
   ⟨withPort { sourcePort with pd := sourcePort.pd.modCtx .sop fun c => { c with cur := some anOut, tx := .waitGoodcrc, retry := 3 } },
    0, .sop, _, rfl, by decide⟩,
   ⟨upState, 0, .sop, by decide⟩,
   ⟨chunkPort, 0, .sop, 0, 1, by decide⟩,
   ⟨chunkPort, 0, .sop, 0, 2, by decide⟩,
   ⟨upState, 0, .sop, 0, 0, by decide⟩,
   ⟨chunkPort, 0, .sop, by decide⟩,
   ⟨upState, 0, .sop, by decide⟩,
   ⟨eprSink, 0, by decide⟩,
   ⟨upState, 0, Or.inl (by decide)⟩,
   ⟨withPort sourcePort, 0, by decide⟩,
   ⟨upState, 0, by decide⟩,
   ⟨cablePort, 0, by decide⟩,
   ⟨upState, 0, Or.inr (Or.inl (by decide)), by decide⟩,
   ⟨withPort { sourcePort with pd := { sourcePort.pd with eprEntry := true } }, 0, by decide⟩⟩

theorem witness_HardAndCableReset :
    (∃ (s : State) (n : PortId), s.port[n].pd.hrReq = true ∧ s.port[n].tc.st.attached = true) ∧
    (∃ (s : State) (n : PortId), (s.port[n].pd.hrReq = false ∨ s.port[n].tc.st.attached = false)) ∧
    (∃ (s : State) (n : PortId), s.ctxActive n .sop = true) ∧
    (∃ (s : State) (n : PortId), s.ctxActive n .sop = false) ∧
    (∃ (s : State) (n : PortId), s.port[n].pd.armed .psHardReset = true) ∧
    (∃ (s : State) (n : PortId), s.port[n].pd.armed .psHardReset = false) ∧
    (∃ (s : State) (n : PortId), s.port[n].pd.armed .srcRecover = true) ∧
    (∃ (s : State) (n : PortId), s.port[n].pd.armed .srcRecover = false) ∧
    (∃ (s : State) (n : PortId), s.port[n].pd.armed .sinkVbus = true ∧ s.port[n].tc.st.attached = true) ∧
    (∃ (s : State) (n : PortId), s.port[n].pd.armed .sinkVbus = false) ∧
    (∃ (s : State) (n : PortId) (v : Nat), 4000 ≤ v ∧ s.port[n].pd.armed .sinkVbus = true) ∧
    (∃ (s : State) (n : PortId) (v : Nat), (v < 4000 ∨ (s.port[n].pd.armed .sinkVbus = false ∧
      s.port[n].tc.debDone = false))) ∧
    (∃ (s : State) (n : PortId) (v : Nat), 4000 ≤ v ∧ s.port[n].pd.armed .sinkVbus = false ∧
      s.port[n].tc.debDone = true ∧ s.port[n].tc.st = .attwaitSnk ∧ s.notBack n = false ∧
      rpOne s.port[n].tc.cc1 s.port[n].tc.cc2 = true ∧ tryOf s.port[n].tc.cfg ≠ 1) ∧
    (∃ (s : State) (n : PortId), s.port[n].pd.armed .noResponse = true ∧ s.served n = true ∧ s.port[n].pp.st ≠ .lockoff ∧
      s.port[n].pd.hrTries < 2) ∧
    (∃ (s : State) (n : PortId), s.port[n].pd.armed .noResponse = true ∧ s.served n = true ∧ s.port[n].pp.st ≠ .lockoff ∧
      2 ≤ s.port[n].pd.hrTries ∧ s.port[n].tc.st.attached = true) ∧
    (∃ (s : State) (n : PortId),
      (s.port[n].pd.armed .noResponse = false ∨ s.served n = false ∨ s.port[n].pp.st = .lockoff)) ∧
    (∃ (s : State) (n : PortId) (v : Nat), v ≤ 800 ∧ s.port[n].rs.step = .fall) ∧
    (∃ (s : State) (n : PortId) (v : Nat), v ≤ 800 ∧ s.port[n].rs.step ≠ .fall ∧ s.port[n].pp.st = .discharge) ∧
    (∃ (s : State) (n : PortId) (v : Nat), (800 < v ∨ (s.port[n].rs.step ≠ .fall ∧ s.port[n].pp.st ≠ .discharge))) ∧
    (∃ (s : State) (n : PortId), s.served n = true ∧ s.port[n].rs.dr = .dfp ∧ s.port[n].tc.vconnOn = true) ∧
    (∃ (s : State) (n : PortId), (s.served n = false ∨ s.port[n].rs.dr ≠ .dfp ∨ s.port[n].tc.vconnOn = false)) :=
  ⟨⟨hrPort, 0, by decide⟩,
   ⟨upState, 0, Or.inl (by decide)⟩,
   ⟨hrPort, 0, by decide⟩,
   ⟨upState, 0, by decide⟩,
   ⟨hrTimer .psHardReset, 0, by decide⟩,
   ⟨upState, 0, by decide⟩,
   ⟨hrTimer .srcRecover, 0, by decide⟩,
   ⟨upState, 0, by decide⟩,
   ⟨hrTimer .sinkVbus, 0, by decide⟩,
   ⟨upState, 0, by decide⟩,
   ⟨hrTimer .sinkVbus, 0, 5000, by decide⟩,
   ⟨upState, 0, 3999, Or.inl (by decide)⟩,
   ⟨withPort { Port.reset with tc := { TypeC.reset with st := .attwaitSnk, debDone := true, cc1 := .rp30 } }, 0, 5000,
    by decide⟩,
   ⟨hrTimer .noResponse, 0, by decide⟩,
   ⟨withPort { sourcePort with pd := { sourcePort.pd with timers := [.noResponse], hrTries := 2 } }, 0, by decide⟩,
   ⟨upState, 0, by decide⟩,
   ⟨swapPort .prSrcSnk .fall, 0, 500, by decide⟩,
   ⟨dischargeState, 0, 500, by decide⟩,
   ⟨upState, 0, 801, Or.inl (by decide)⟩,
   ⟨cablePort, 0, by decide⟩,
   ⟨upState, 0, by decide⟩⟩

theorem witness_PdAnswersAndTimers :
    (∃ (s u : State) (n : PortId) (m : PdMsg) (e : Bool), s.takeMsg n (fun b => b = .accept) = some (m, e, u) ∧
      u.port[n].rs.step = .frAccept) ∧
    (∃ (s u : State) (n : PortId) (m : PdMsg) (e : Bool), s.takeMsg n (fun b => b = .accept) = some (m, e, u) ∧
      u.port[n].rs.step = .asked ∧ (u.port[n].rs.code = .prSnkSrc ∨ u.port[n].rs.code = .vconnOff)) ∧
    (∃ (s u : State) (n : PortId) (m : PdMsg) (e : Bool), s.takeMsg n (fun b => b = .accept) = some (m, e, u) ∧
      u.port[n].rs.step = .asked ∧ u.port[n].rs.code = .dr) ∧
    (∃ (s u : State) (n : PortId) (m : PdMsg) (e : Bool), s.takeMsg n (fun b => b = .accept) = some (m, e, u) ∧
      u.port[n].rs.step = .asked ∧ u.port[n].rs.code = .vconnOn) ∧
    (∃ (s u : State) (n : PortId) (m : PdMsg) (e : Bool), s.takeMsg n (fun b => b = .accept) = some (m, e, u) ∧
      u.port[n].rs.step = .asked ∧ u.port[n].rs.code = .prSrcSnk) ∧
    (∃ (s u : State) (n : PortId) (m : PdMsg) (e : Bool), s.takeMsg n (fun b => b = .accept) = some (m, e, u) ∧
      u.port[n].rs.step = .idle ∧ u.port[n].alt.step = .enterUsb ∧ u.mayEnterUsb4 n = true) ∧
    (∃ (s u : State) (n : PortId) (m : PdMsg) (e : Bool), s.takeMsg n (fun b => b = .accept) = some (m, e, u) ∧
      u.port[n].rs.step = .idle ∧ u.port[n].alt.step = .enterUsb ∧ u.mayEnterUsb4 n = false) ∧
    (∃ (s : State) (n : PortId), s.takeMsg n (fun b => b = .accept) = none) ∧
    (∃ (s u : State) (n : PortId) (m : PdMsg) (e : Bool), s.takeMsg n (fun b => (swapNo b).isSome) = some (m, e, u) ∧
      u.port[n].rs.step = .asked) ∧
    (∃ (s u : State) (n : PortId) (m : PdMsg) (e : Bool), s.takeMsg n (fun b => (swapNo b).isSome) = some (m, e, u) ∧
      u.port[n].rs.step ≠ .asked ∧ u.port[n].alt.step = .idle ∧ u.port[n].pd.reqSent ≠ none) ∧
    (∃ (s : State) (n : PortId), s.takeMsg n (fun b => (swapNo b).isSome) = none) ∧
    (∃ (s : State) (n : PortId) (x : PolicyTimer), ((s.served n = false ∧
      s.port[n].hold = false) ∨ s.port[n].pd.armed (policyPd x) = false ∨ (s.served n = false ∧ x ≠ .tripHardReset))) ∧
    (∃ (s : State) (n : PortId), s.served n = true ∧ s.port[n].pd.armed .tripHardReset = true) ∧
    (∃ (s : State) (n : PortId), s.served n = true ∧ s.port[n].pd.armed .senderResponse = true ∧
      s.port[n].rs.step = .idle ∧ s.port[n].alt.step = .idle) ∧
    (∃ (s : State) (n : PortId), s.served n = true ∧ s.port[n].pd.armed .senderResponse = true ∧
      s.port[n].rs.step = .asked) ∧
    (∃ (s : State) (n : PortId), s.served n = true ∧ s.port[n].pd.armed .srcEprKeepAlive = true ∧ s.port[n].pd.epr = true) ∧
    (∃ (s : State) (n : PortId), s.served n = true ∧ s.port[n].pd.armed .discoverIdentity = true ∧ 20 ≤ s.diCnt n ∧
      bit s.port[n].pd.cable 24 = false) ∧
    (∃ (s : State) (n : PortId) (r : Rdo), s.served n = true ∧ s.port[n].pd.armed .sinkRequest = true ∧
      s.sinkAsk n s.port[n].pd.partnerObjs = some r ∧ s.port[n].rs.pr = .sink ∧ s.port[n].pd.reqSent = none ∧
      s.port[n].ct.stopFor = none ∧ (s.port[n].pd.contract = false ∨ r.mv = s.port[n].ct.mv)) ∧
    (∃ (s : State) (n : PortId), s.served n = true ∧ s.port[n].pd.armed .swapSourceStart = true ∧
      (s.modPd n fun d => d.disarm .swapSourceStart).maySendCaps n = true ∧ s.port[n].pd.contract = false ∧
      s.port[n].pd.capsCnt < 50 ∧ ((s.underTarget n).isSome = true ∨ s.policyRuns = false)) ∧
    (∃ (s : State) (n : PortId), s.served n = true ∧ s.port[n].pd.armed .typeCSendSourceCap = true ∧
      (s.modPd n fun d => d.disarm .typeCSendSourceCap).maySendCaps n = true ∧ s.port[n].pd.contract = false ∧
      s.port[n].pd.capsCnt < 50 ∧ ((s.underTarget n).isSome = true ∨ s.policyRuns = false)) :=
  ⟨⟨acceptPort .frsSink .frAccept, _, 0, _, true, rfl, by decide⟩,
   ⟨acceptPort .prSnkSrc .asked, _, 0, _, true, rfl, by decide⟩,
   ⟨acceptPort .dr .asked, _, 0, _, true, rfl, by decide⟩,
   ⟨acceptPort .vconnOn .asked, _, 0, _, true, rfl, by decide⟩,
   ⟨acceptPort .prSrcSnk .asked, _, 0, _, true, rfl, by decide⟩,
   ⟨modeAsked .accept .enterUsb, _, 0, _, _, rfl, by decide +kernel⟩,
   ⟨altAsked .accept .enterUsb, _, 0, _, _, rfl, by decide +kernel⟩,
   ⟨upState, 0, by decide⟩,
   ⟨refusePort, _, 0, _, false, rfl, by decide⟩,
   ⟨withPort (Port.asks { sinkPort with pd := { sinkPort.pd with reqSent := some ⟨1, 300, 300, 5000, false⟩ } } .reject),
    _, 0, _, _, rfl, by decide⟩,
   ⟨upState, 0, by decide⟩,
   ⟨upState, 0, .tripHardReset, by decide⟩,
   ⟨hrTimer .tripHardReset, 0, by decide⟩,
   ⟨hrTimer .senderResponse, 0, by decide⟩,
   ⟨withPort { sourcePort with pd := { sourcePort.pd with timers := [.senderResponse] }, rs := { sourcePort.rs with step := .asked } },
    0, by decide⟩,
   ⟨withPort { sourcePort with pd := { sourcePort.pd with timers := [.srcEprKeepAlive], epr := true } }, 0, by decide⟩,
   ⟨withPort { sourcePort with pd := { sourcePort.pd with timers := [.discoverIdentity], cable := 0x140000 } }, 0,
    by decide⟩,
   ⟨withPort { sinkPort with pd := { sinkPort.pd with timers := [.sinkRequest], partnerObjs := [.fixed 5000 300] } }, 0,
    _, by decide, by decide, rfl, by decide⟩,
   ⟨withPort { sourcePort with pd := { sourcePort.pd with timers := [.swapSourceStart], contract := false } }, 0,
    by decide⟩,
   ⟨withPort { sourcePort with pd := { sourcePort.pd with timers := [.typeCSendSourceCap], contract := false } }, 0,
    by decide⟩⟩

theorem witness_MeasurementAndLink :
    (∃ (s : State) (x : Vector PortSample 24) (a b : BitVec 16) (n : PortId), s.sup.hvUp = true) ∧
    (∃ (s : State) (x : Vector PortSample 24) (a b : BitVec 16), s.sup.hvUp = true ∧ s.sidx % 5 = 0) ∧
    (∃ (s : State) (x : Vector PortSample 24) (a b : BitVec 16), s.sup.hvUp = true ∧ s.sidx % 5 ≠ 0) ∧
    (∃ (s : State) (x : Vector PortSample 24) (a b : BitVec 16), s.sup.hvUp = false) ∧
    (∃ (s : State) (k : HkScan), s.sup.hvUp = true) ∧
    (∃ (s : State) (k : HkScan), s.sup.hvUp = false) ∧
    (∃ (s : State) (k : PlatId) (i : Fin 8) (x : Sketch), s.plat[k].slots[i] = some x ∧ 4096 ≤ x.recs.length) ∧
    (∃ (s : State) (k : PlatId) (i : Fin 8) (x : Sketch), s.plat[k].slots[i] = some x ∧ x.recs.length < 4096) ∧
    (∃ (s : State) (n : PortId) (f : TrFrame), s.port[n].ms.trace.held = [f] ∧ f.waitGroup = false) ∧
    (∃ (s : State) (n : PortId), s.port[n].ms.trace.held = []) ∧
    (∃ (s : State), s.hostOn .net = true) ∧
    (∃ (s : State), s.hostOn .net = false) ∧
    (∃ (s : State) (m : BitVec 48) (a : BitVec 32), s.hostOn .net = true ∧ s.net.link = true ∧ s.netSip ≠ 0) ∧
    (∃ (s : State) (m : BitVec 48) (a b : BitVec 32), (b ≠ s.netSip ∨ s.net.link = false ∨ s.hostOn .net = false)) :=
  ⟨⟨upState, Vector.replicate 24 ⟨0, 0, 0, 0⟩, 0, 0, 0, rfl⟩,
   ⟨upState, Vector.replicate 24 ⟨0, 0, 0, 0⟩, 0, 0, rfl, by decide⟩,
   ⟨{ upState with sidx := 6 }, Vector.replicate 24 ⟨0, 0, 0, 0⟩, 0, 0, rfl, by decide⟩,
   ⟨State.reset, Vector.replicate 24 ⟨0, 0, 0, 0⟩, 0, 0, rfl⟩,
   ⟨upState, State.reset.hk, by decide⟩,
   ⟨State.reset, State.reset.hk, by decide⟩,
   ⟨upState.withSketch { aSketch with recs := List.replicate 4096 ⟨0, 0, 0, 0, 0⟩ }, 0, 0, _, rfl,
    by rw [List.length_replicate]⟩,
   ⟨sketchState, 0, 0, _, rfl, by decide⟩,
   ⟨assembling, 0, _, rfl, by decide⟩,
   ⟨upState, 0, by decide⟩,
   ⟨upState, by decide⟩,
   ⟨State.reset, by decide⟩,
   ⟨linked, 1, 2, by decide⟩,
   ⟨upState, 1, 2, 3, by decide⟩⟩

theorem witness_StorePrograms :
    (∃ (s : State) (v : Nat) (r q : PageReq), s.sup.hvUp = true ∧ s.store.prog = none ∧
      nextProg s.store.queue (!s.hs.warn && decide (30000 ≤ v)) = some r ∧ s.store.resolve r = some q) ∧
    (∃ (s : State) (v : Nat),
      (s.store.prog ≠ none ∨ s.sup.hvUp = false ∨ nextProg s.store.queue (!s.hs.warn && decide (30000 ≤ v)) = none)) ∧
    (∃ (s : State) (v : Nat) (r q : PageReq), s.sup.hvUp = true ∧ s.store.prog = none ∧ (s.hs.warn = true ∨ v < 30000) ∧
      s.store.queue.find? (fun x => decide (x.job = .save)) = some r ∧ s.store.resolve r = some q) ∧
    (∃ (s : State) (v off : Nat) (bs : List Byte) (r : PageReq), s.sup.hvUp = true ∧ s.store.prog = none ∧
      nextProg s.store.queue (!s.hs.warn && decide (30000 ≤ v)) = some r ∧ r.job = .user ∧ 256 ≤ r.page ∧
      r.page < 512 ∧ r.data = .patch off bs ∧ off + bs.length ≤ 256 ∧ s.store.torn r.page = false ∧
      s.store.badData r.page = false) ∧
    (∃ (s : State) (v off : Nat) (bs : List Byte) (r : PageReq), s.sup.hvUp = true ∧ s.store.prog = none ∧
      nextProg s.store.queue (!s.hs.warn && decide (30000 ≤ v)) = some r ∧ r.job = .user ∧ r.data = .patch off bs ∧
      s.store.torn r.page = true ∧ bs.length ≠ 256) ∧
    (∃ (s : State) (r : PageReq), s.store.prog = some r ∧ r.job = .user ∧ r.final = false ∧ 256 ≤ r.page ∧ r.page < 512 ∧
      s.store.saveAgain = false) ∧
    (∃ (s : State) (r : PageReq), s.store.prog = some r ∧ r.job = .commit ∧ r.final = false ∧ r.page < 64 ∧
      s.store.saveAgain = false) ∧
    (∃ (s : State) (r : PageReq) (c : Commit), s.store.prog = some r ∧ r.job = .commit ∧ r.final = true ∧
      s.store.commit = some c ∧ s.store.saveAgain = false ∧ s.store.recallDue = false ∧
      (s.store.land r).copyOk (if c.toA then 0 else 1) = true ∧ s.sbUp = true) ∧
    (∃ (s : State) (r : PageReq) (c : Commit), s.store.prog = some r ∧ r.job = .commit ∧ r.final = true ∧
      s.store.commit = some c ∧ s.store.saveAgain = false ∧ s.store.recallDue = false ∧
      (s.store.land r).copyOk (if c.toA then 0 else 1) = false ∧ s.sbUp = true) ∧
    (∃ (s : State) (r : PageReq) (c : Commit), s.store.prog = some r ∧ r.job = .commit ∧ r.final = true ∧
      s.store.commit = some c ∧ s.store.saveAgain = false ∧ s.sbUp = false) ∧
    (∃ (s : State) (r : PageReq), s.store.prog = some r ∧ r.job = .control ∧ r.final = false ∧
      (r.page = 512 ∨ r.page = 513) ∧ s.store.saveAgain = false) ∧
    (∃ (s : State) (r : PageReq) (x : Record), s.store.prog = some r ∧ r.job = .save ∧ 64 ≤ r.page ∧ r.page < 128 ∧
      s.store.saving = some x ∧ x.pages = 3 ∧ s.store.saveAgain = false ∧
      s.store.queue.any (fun q => decide (q.job = .save)) = false) ∧
    (∃ (s : State) (r : PageReq), s.store.prog = some r ∧ r.job ≠ .save ∧ r.retried = false) ∧
    (∃ (s : State) (r : PageReq), s.store.prog = some r ∧ r.job = .user ∧ r.retried = true ∧ s.store.saveAgain = false ∧
      s.store.inActive r.page = false) ∧
    (∃ (s : State) (r : PageReq) (x : Record), s.store.prog = some r ∧ r.job = .save ∧ 64 ≤ r.page ∧ r.page < 128 ∧
      s.store.saving = some x ∧ x.pages < 4 ∧ s.store.saveAgain = false) ∧
    (∃ (s : State) (b : Bool), s.store.prog = none) ∧
    (∃ (s : State) (r : PageReq), s.store.queue.find? (fun x => decide (x.job ≠ .save)) = some r ∧ r.job = .user) ∧
    (∃ (s : State), s.store.queue.find? (fun x => decide (x.job ≠ .save)) = none) ∧
    (∃ (s : State), s.sbUp = true ∧ s.store.recallDue = false ∧ s.store.commit ≠ none ∧ activeCopy s.store ≠ none) ∧
    (∃ (s : State), s.sbUp = true ∧ s.store.recallDue = false ∧ s.store.commit = none ∧ activeCopy s.store ≠ none) ∧
    (∃ (s : State), (s.store.recallDue = true ∨ s.sbUp = false ∨ activeCopy s.store = none)) ∧
    (∃ (s : State) (p c u : Nat) (cmd : Option CmdRef), s.store.scrub = some (p, c, u, cmd) ∧ s.store.prog = none ∧
      p + 1 < 514) ∧
    (∃ (s : State) (p c u : Nat) (g : Fin 33) (l : List (Fin 33)) (cmd : Option CmdRef), s.store.scrub = some (p, c, u,
      cmd) ∧ s.store.prog = none ∧ p + 1 < 514 ∧ (g :: l).Nodup) ∧
    (∃ (s : State) (p c u : Nat) (g : Fin 33) (l k : List (Fin 33)) (cmd : Option CmdRef), s.store.scrub = some (p, c, u,
      cmd) ∧ s.store.prog = none ∧ p + 1 < 514 ∧ activeCopy s.store = none) ∧
    (∃ (s : State) (c u : Nat), s.store.scrub = some (513, c, u, none) ∧ s.store.prog = none) ∧
    (∃ (s : State) (a b : List (Fin 33)), (s.store.scrub = none ∨ s.store.prog ≠ none)) ∧
    (∃ (s : State), s.sbUp = true ∧ s.store.scrub = none ∧ 30 * 86400 * samplesPerSecond ≤ s.health.sinceScrub) ∧
    (∃ (s : State), (s.sbUp = false ∨ s.store.scrub ≠ none ∨ s.health.sinceScrub < 30 * 86400 * samplesPerSecond)) ∧
    (∃ (s : State), s.sup.hvUp = true ∧ s.store.saving = none ∧ s.store.prog = none) ∧
    (∃ (s : State), s.sup.hvUp = true ∧ s.store.saving = none ∧ s.store.prog ≠ none) ∧
    (∃ (s : State), (s.sup.hvUp = false ∨ s.store.saving ≠ none)) ∧
    (∃ (s : State), s.sup.hvUp = true ∧ s.store.saving = none ∧ s.store.prog = none ∧
      2 ^ 19 ≤ (s.ssn - 1 - s.store.ssnLatch).toNat) ∧
    (∃ (s : State), ((s.ssn - 1 - s.store.ssnLatch).toNat < 2 ^ 19 ∨ s.sup.hvUp = false ∨ s.store.saving ≠ none)) ∧
    (∃ (s : State) (b : Bank) (c : CmdRef) (l : List (Bank × CmdRef)), s.verify = (b, c) :: l ∧
      s.active.any (fun x => decide (CmdRef.of x = c)) = true) ∧
    (∃ (s : State), s.verify = []) ∧
    (∃ (s : State) (c : CmdRef) (l : List CmdRef), s.advance = c :: l ∧
      s.active.any (fun x => decide (CmdRef.of x = c)) = true) ∧
    (∃ (s : State), s.advance = []) :=
  ⟨⟨{ upState with store := { Store.reset with queue := [aPage .user] } }, 30000, aPage .user, aPage .user, by decide⟩,
   ⟨{ upState with store := { Store.reset with prog := some (aPage .user) } }, 30000, Or.inl (by decide)⟩,
   ⟨{ upState with store := { Store.reset with queue := [aPage .save] }, hs := { upState.hs with warn := true } }, 0,
    aPage .save, aPage .save, by decide⟩,
   ⟨{ upState with store := { Store.reset with queue := [{ aPage .user with data := .patch 3 [7, 8] }] } }, 30000, 3,
    [7, 8], { aPage .user with data := .patch 3 [7, 8] }, by decide⟩,
   ⟨{ upState with store := { Store.reset with gens := [(256, 1)], queue := [{ aPage .user with data := .patch 3 [7, 8] }] } },
    30000, 3, [7, 8], { aPage .user with data := .patch 3 [7, 8] }, by decide⟩,
   ⟨{ upState with store := { Store.reset with prog := some (aPage .user) } }, _, rfl, by decide⟩,
   ⟨{ upState with store := { Store.reset with prog := some { aPage .commit with page := 3 } } }, _, rfl, by decide⟩,
   ⟨landing, _, _, rfl, by decide +kernel, by decide +kernel, rfl, by decide +kernel, by decide +kernel,
    landing_ok _ rfl, by decide +kernel⟩,
   ⟨{ upState with store := { Store.reset with prog := some { aPage .commit with page := 31, final := true }, commit := some ⟨[], 1, true, none, [], none⟩ } },
    _, _, rfl, by decide, by decide, rfl, by decide +kernel⟩,
   ⟨{ State.reset with store := { Store.reset with prog := some { aPage .commit with page := 31, final := true }, commit := some ⟨[], 1, true, none, [], none⟩ } },
    _, _, rfl, by decide, by decide, rfl, by decide⟩,
   ⟨{ upState with store := { Store.reset with prog := some { aPage .control with page := 513 } } }, _, rfl, by decide⟩,
   ⟨{ upState with store := { Store.reset with prog := some { aPage .save with page := 67 }, saving := some ⟨1, [], 3⟩ } },
    _, _, rfl, by decide, by decide, by decide, rfl, by decide⟩,
   ⟨{ upState with store := { Store.reset with prog := some (aPage .user) } }, _, rfl, by decide⟩,
   ⟨{ upState with store := { Store.reset with prog := some { aPage .user with retried := true } } }, _, rfl,
    by decide +kernel⟩,
   ⟨{ upState with store := { Store.reset with prog := some { aPage .save with page := 64 }, saving := some ⟨1, [], 0⟩ } },
    _, _, rfl, by decide, by decide, by decide, rfl, by decide⟩,
   ⟨upState, true, by decide⟩,
   ⟨{ upState with store := { Store.reset with queue := [aPage .user] } }, aPage .user, by decide⟩,
   ⟨upState, by decide⟩,
   ⟨{ committing with store := { committing.store with copyB := anyCopy } }, by decide, by decide, by decide,
    committing_active _⟩,
   ⟨{ committing with store := { committing.store with copyB := anyCopy, commit := none } }, by decide, by decide,
    by decide, committing_active _⟩,
   ⟨upState, Or.inr (Or.inr (by decide))⟩,
   ⟨{ upState with store := { Store.reset with scrub := some (0, 0, 0, none) } }, _, _, _, _, rfl, by decide⟩,
   ⟨{ upState with store := { Store.reset with scrub := some (0, 0, 0, none) } }, _, _, _, 1, [2], _, rfl, by decide⟩,
   ⟨{ upState with store := { Store.reset with scrub := some (0, 0, 0, none) } }, _, _, _, 1, [2], [2, 3], _, rfl,
    by decide +kernel⟩,
   ⟨{ upState with store := { Store.reset with scrub := some (513, 0, 0, none) } }, _, _, rfl, by decide⟩,
   ⟨upState, [], [], Or.inl (by decide)⟩,
   ⟨{ upState with health := { upState.health with sinceScrub := 30 * 86400 * samplesPerSecond } }, by decide⟩,
   ⟨upState, by decide⟩,
   ⟨upState, by decide⟩,
   ⟨{ upState with store := { Store.reset with prog := some (aPage .user) } }, by decide⟩,
   ⟨State.reset, Or.inl (by decide)⟩,
   ⟨{ upState with ssn := 0x100000 }, by decide⟩,
   ⟨State.reset, Or.inr (Or.inl (by decide))⟩,
   ⟨{ upState with verify := [(.a, aCmd)], active := [activeCmd] }, _, _, _, rfl, by decide⟩,
   ⟨upState, by decide⟩,
   ⟨{ upState with advance := [aCmd], active := [activeCmd] }, _, _, rfl, by decide⟩,
   ⟨upState, by decide⟩⟩

theorem witness_StationReads :
    (∃ (s : State) (p : Packet), s.turn 0x0100 p ∧ s.coreCheck 0x0100 p = none) ∧
    (∃ (s : State) (p : Packet) (o : Obj), s.turn 0x0101 p ∧ s.coreCheck 0x0101 p = none ∧
      Obj.ofTarget p.target = some o ∧ ((ridsOf p.payload).all fun r => ridOk 1 o.kind r) = true) ∧
    (∃ (s : State) (p : Packet) (o : Obj), s.turn 0x0201 p ∧ s.coreCheck 0x0201 p = none ∧
      Obj.ofTarget p.target = some o ∧ ((ridsOf p.payload).all fun r => ridOk 2 o.kind r) = true) ∧
    (∃ (s : State) (p : Packet) (o : Obj), s.turn 0x0301 p ∧ s.coreCheck 0x0301 p = none ∧
      Obj.ofTarget p.target = some o ∧ ((ridsOf p.payload).all fun r => ridOk 3 o.kind r) = true) ∧
    (∃ (s : State) (p : Packet) (o : Obj), s.turn 0x0501 p ∧ s.coreCheck 0x0501 p = none ∧
      Obj.ofTarget p.target = some o ∧ ((ridsOf p.payload).all fun r => ridOk 5 o.kind r) = true) ∧
    (∃ (s : State) (p : Packet) (o : Obj), s.turn 0x0601 p ∧ s.coreCheck 0x0601 p = none ∧
      Obj.ofTarget p.target = some o ∧ ((ridsOf p.payload).all fun r => ridOk 6 o.kind r) = true) ∧
    (∃ (s : State) (p : Packet), s.turn 0x0300 p ∧ s.coreCheck 0x0300 p = none) ∧
    (∃ (s : State) (p : Packet) (k : Fin 128), s.turn 0x0304 p ∧ s.coreCheck 0x0304 p = none ∧
      (p.payload.headD 0).toNat = k.val) ∧
    (∃ (s : State) (p : Packet), s.turn 0x0305 p ∧ s.coreCheck 0x0305 p = none ∧ 1 ≤ (p.payload.getD 1 0).toNat ∧
      (p.payload.getD 1 0).toNat ≤ 64 ∧ (p.payload.getD 0 0).toNat + (p.payload.getD 1 0).toNat ≤ 256) ∧
    (∃ (s : State) (p : Packet), s.turn 0x0400 p ∧ s.coreCheck 0x0400 p = none ∧ s.store.recalling = false) ∧
    (∃ (s : State) (p : Packet), s.turn 0x0410 p ∧ s.coreCheck 0x0410 p = none ∧ 1 ≤ le16 p.payload 2 ∧
      le16 p.payload 2 ≤ 1024 ∧ le16 p.payload 0 + le16 p.payload 2 ≤ 8192 ∧ s.store.recalling = false) ∧
    (∃ (s : State) (p : Packet), s.turn 0x0420 p ∧ s.coreCheck 0x0420 p = none ∧ 1 ≤ le16 p.payload 4 ∧
      le16 p.payload 4 ≤ 1024 ∧ le32 p.payload 0 + le16 p.payload 4 ≤ 65536 ∧ s.store.recalling = false ∧
      s.store.prog = none ∧ (userRange (le32 p.payload 0) (le16 p.payload 4)).any s.store.torn = false ∧
      groupsOver s.store.bad (le32 p.payload 0) (le16 p.payload 4) = [] ∧
      groupsOver s.store.weak (le32 p.payload 0) (le16 p.payload 4) = []) ∧
    (∃ (s : State) (p : Packet), s.turn 0x0800 p ∧ s.coreCheck 0x0800 p = none) ∧
    (∃ (s : State) (p : Packet), s.turn 0x0801 p ∧ s.coreCheck 0x0801 p = none) ∧
    (∃ (s : State) (p : Packet), s.turn 0x0804 p ∧ s.coreCheck 0x0804 p = none ∧ Obj.ofTarget p.target = some .station) ∧
    (∃ (s : State) (p : Packet) (n : PortId), s.turn 0x0804 p ∧ s.coreCheck 0x0804 p = none ∧
      Obj.ofTarget p.target = some (.port n)) ∧
    (∃ (s : State) (p : Packet), s.turn 0x0500 p ∧ s.coreCheck 0x0500 p = none) ∧
    (∃ (s : State) (p : Packet), s.turn 0x0503 p ∧ s.coreCheck 0x0503 p = none) ∧
    (∃ (s : State) (p : Packet), s.turn 0x0510 p ∧ s.coreCheck 0x0510 p = none) ∧
    (∃ (s : State) (p : Packet) (k : PlatId) (i : Fin 8) (x : Sketch), s.turn 0x0511 p ∧ s.coreCheck 0x0511 p = none ∧
      Obj.ofTarget p.target = some (.plat k) ∧ (p.payload.headD 0).toNat = i.val ∧ s.plat[k].slots[i] = some x ∧
      p.payload.getD 1 0 = 0 ∧ 1 ≤ le16 p.payload 6 ∧ le16 p.payload 6 ≤ 1024 ∧
      le32 p.payload 2 + le16 p.payload 6 ≤ 32832) ∧
    (∃ (s : State) (p : Packet), s.turn 0x0700 p ∧ s.coreCheck 0x0700 p = none) ∧
    (∃ (s : State) (p : Packet), s.turn 0x0710 p ∧ s.coreCheck 0x0710 p = none) :=
  ⟨⟨turnOf 0x0100 (pkt [] 0xFFFF), pkt [] 0xFFFF, And.intro rfl (And.intro rfl (And.intro rfl (by decide))), by decide⟩,
   ⟨turnOf 0x0101 (pkt [0x00, 0x01] 0xFFFF), pkt [0x00, 0x01] 0xFFFF, .station,
    And.intro rfl (And.intro rfl (And.intro rfl (by decide))), by decide⟩,
   ⟨turnOf 0x0201 (pkt [0x00, 0x02] 0), pkt [0x00, 0x02] 0, .port 0,
    And.intro rfl (And.intro rfl (And.intro rfl (by decide))), by decide⟩,
   ⟨turnOf 0x0301 (pkt [0x00, 0x03] 0xFFFF), pkt [0x00, 0x03] 0xFFFF, .station,
    And.intro rfl (And.intro rfl (And.intro rfl (by decide))), by decide⟩,
   ⟨turnOf 0x0501 (pkt [0x00, 0x05] 0), pkt [0x00, 0x05] 0, .port 0,
    And.intro rfl (And.intro rfl (And.intro rfl (by decide))), by decide⟩,
   ⟨turnOf 0x0601 (pkt [0x00, 0x06] 0xFFFF), pkt [0x00, 0x06] 0xFFFF, .station,
    And.intro rfl (And.intro rfl (And.intro rfl (by decide))), by decide⟩,
   ⟨turnOf 0x0300 (pkt [] 0xFFFF), pkt [] 0xFFFF, And.intro rfl (And.intro rfl (And.intro rfl (by decide))), by decide⟩,
   ⟨turnOf 0x0304 (pkt [5] 0xFFFF), pkt [5] 0xFFFF, 5, And.intro rfl (And.intro rfl (And.intro rfl (by decide))),
    by decide⟩,
   ⟨turnOf 0x0305 (pkt [0, 2] 0xFFFF), pkt [0, 2] 0xFFFF, And.intro rfl (And.intro rfl (And.intro rfl (by decide))),
    by decide⟩,
   ⟨turnOf 0x0400 (pkt [] 0xFFFF), pkt [] 0xFFFF, And.intro rfl (And.intro rfl (And.intro rfl (by decide))), by decide⟩,
   ⟨turnOf 0x0410 (pkt [0, 0, 4, 0] 0xFFFF), pkt [0, 0, 4, 0] 0xFFFF,
    And.intro rfl (And.intro rfl (And.intro rfl (by decide))), by decide⟩,
   ⟨turnOf 0x0420 (pkt [0, 0, 0, 0, 4, 0] 0xFFFF), pkt [0, 0, 0, 0, 4, 0] 0xFFFF,
    And.intro rfl (And.intro rfl (And.intro rfl (by decide))), by decide, by decide, by decide, by decide, by decide,
    by decide, by rfl, by rfl, by rfl⟩,
   ⟨turnOf 0x0800 (pkt [] 0xFFFF), pkt [] 0xFFFF, And.intro rfl (And.intro rfl (And.intro rfl (by decide))), by decide⟩,
   ⟨turnOf 0x0801 (pkt [0, 0, 0, 0] 0xFFFF), pkt [0, 0, 0, 0] 0xFFFF,
    And.intro rfl (And.intro rfl (And.intro rfl (by decide))), by decide⟩,
   ⟨turnOf 0x0804 (pkt [] 0xFFFF), pkt [] 0xFFFF, And.intro rfl (And.intro rfl (And.intro rfl (by decide))), by decide⟩,
   ⟨turnOf 0x0804 (pkt [] 0), pkt [] 0, 0, And.intro rfl (And.intro rfl (And.intro rfl (by decide))), by decide⟩,
   ⟨turnOf 0x0500 (pkt [] 0xFFFF), pkt [] 0xFFFF, And.intro rfl (And.intro rfl (And.intro rfl (by decide))), by decide⟩,
   ⟨turnOf 0x0503 (pkt [] 0xFFFF), pkt [] 0xFFFF, And.intro rfl (And.intro rfl (And.intro rfl (by decide))), by decide⟩,
   ⟨turnOf 0x0510 (pkt [] 0xFFFF), pkt [] 0xFFFF, And.intro rfl (And.intro rfl (And.intro rfl (by decide))), by decide⟩,
   ⟨turnSketch 0x0511 (pkt [0, 0, 0, 0, 0, 0, 4, 0] 0x0100), pkt [0, 0, 0, 0, 0, 0, 4, 0] 0x0100, 0, 0, _,
    And.intro rfl (And.intro rfl (And.intro rfl (by decide))), by decide, by decide, by decide, rfl, by decide⟩,
   ⟨turnOf 0x0700 (pkt [] 0xFFFF), pkt [] 0xFFFF, And.intro rfl (And.intro rfl (And.intro rfl (by decide))), by decide⟩,
   ⟨turnOf 0x0710 (pkt [] 0xFFFF), pkt [] 0xFFFF, And.intro rfl (And.intro rfl (And.intro rfl (by decide))), by decide⟩⟩

theorem witness_StationActions :
    (∃ (s : State) (p : Packet), s.turn 0x0120 p ∧ s.coreCheck 0x0120 p = none ∧ s.restartBars = false) ∧
    (∃ (s : State) (p : Packet), s.turn 0x0303 p ∧ s.coreCheck 0x0303 p = none ∧ le32 p.payload 0 < 134217728 ∧
      s.time.epochPend = none) ∧
    (∃ (s : State) (p : Packet) (o : Obj), s.turn 0x0102 p ∧ s.coreCheck 0x0102 p = none ∧
      Obj.ofTarget p.target = some o ∧ (entriesOf p.payload).filter RegWrite.pal ≠ [] ∧ judgeWriteRegs 1 s p = none) ∧
    (∃ (s : State) (p : Packet) (o : Obj), s.turn 0x0102 p ∧ s.coreCheck 0x0102 p = none ∧
      Obj.ofTarget p.target = some o ∧ (entriesOf p.payload).filter RegWrite.pal = [] ∧ judgeWriteRegs 1 s p = none) ∧
    (∃ (s : State) (p : Packet) (o : Obj), s.turn 0x0202 p ∧ s.coreCheck 0x0202 p = none ∧
      Obj.ofTarget p.target = some o ∧ (entriesOf p.payload).filter RegWrite.pal ≠ [] ∧ judgeWriteRegs 2 s p = none) ∧
    (∃ (s : State) (p : Packet) (o : Obj), s.turn 0x0202 p ∧ s.coreCheck 0x0202 p = none ∧
      Obj.ofTarget p.target = some o ∧ (entriesOf p.payload).filter RegWrite.pal = [] ∧ judgeWriteRegs 2 s p = none) ∧
    (∃ (s : State) (p : Packet) (o : Obj), s.turn 0x0302 p ∧ s.coreCheck 0x0302 p = none ∧
      Obj.ofTarget p.target = some o ∧ (entriesOf p.payload).filter RegWrite.pal ≠ [] ∧ judgeWriteRegs 3 s p = none) ∧
    (∃ (s : State) (p : Packet) (o : Obj), s.turn 0x0302 p ∧ s.coreCheck 0x0302 p = none ∧
      Obj.ofTarget p.target = some o ∧ (entriesOf p.payload).filter RegWrite.pal = [] ∧ judgeWriteRegs 3 s p = none) ∧
    (∃ (s : State) (p : Packet) (o : Obj), s.turn 0x0502 p ∧ s.coreCheck 0x0502 p = none ∧
      Obj.ofTarget p.target = some o ∧ (entriesOf p.payload).filter RegWrite.pal ≠ [] ∧ judgeWriteRegs 5 s p = none) ∧
    (∃ (s : State) (p : Packet) (o : Obj), s.turn 0x0502 p ∧ s.coreCheck 0x0502 p = none ∧
      Obj.ofTarget p.target = some o ∧ (entriesOf p.payload).filter RegWrite.pal = [] ∧ judgeWriteRegs 5 s p = none) ∧
    (∃ (s : State) (p : Packet) (o : Obj), s.turn 0x0602 p ∧ s.coreCheck 0x0602 p = none ∧
      Obj.ofTarget p.target = some o ∧ (entriesOf p.payload).filter RegWrite.pal = [] ∧ judgeWriteRegs 6 s p = none) ∧
    (∃ (s : State) (p : Packet), s.turn 0x0110 p ∧ s.coreCheck 0x0110 p = none ∧ 1 ≤ claimMask p ∧
      claimMask p < 16777216 ∧ (∀ n ∈ maskPorts (claimMask p), s.inService n = true ∧
      (s.claim[n] = none ∨ s.claim[n] = some p.host))) ∧
    (∃ (s : State) (p : Packet), s.turn 0x0111 p ∧ s.coreCheck 0x0111 p = none ∧ 1 ≤ claimMask p ∧ claimMask p < 16777216) ∧
    (∃ (s : State) (p : Packet), s.turn 0x0112 p ∧ s.coreCheck 0x0112 p = none ∧ 1 ≤ claimMask p ∧ claimMask p < 16777216) ∧
    (∃ (s : State) (p : Packet), s.turn 0x0118 p ∧ s.coreCheck 0x0118 p = none) :=
  ⟨⟨turnOf 0x0120 (pkt [] 0xFFFF), pkt [] 0xFFFF, And.intro rfl (And.intro rfl (And.intro rfl (by decide))), by decide⟩,
   ⟨turnOf 0x0303 (pkt [1, 0, 0, 0] 0xFFFF), pkt [1, 0, 0, 0] 0xFFFF,
    And.intro rfl (And.intro rfl (And.intro rfl (by decide))), by decide⟩,
   ⟨turnOf 0x0102 (pkt (entryBytes 0x0103 0x0F) 0xFFFF), pkt (entryBytes 0x0103 0x0F) 0xFFFF, .station,
    And.intro rfl (And.intro rfl (And.intro rfl (by decide))), by decide⟩,
   ⟨turnOf 0x0102 (pkt (entryBytes 0x0120 0x00010000) 0xFFFF), pkt (entryBytes 0x0120 0x00010000) 0xFFFF, .station,
    And.intro rfl (And.intro rfl (And.intro rfl (by decide))), by decide⟩,
   ⟨turnOf 0x0202 (pkt (entryBytes 0x0220 0x01000000) 0), pkt (entryBytes 0x0220 0x01000000) 0, .port 0,
    And.intro rfl (And.intro rfl (And.intro rfl (by decide))), by decide⟩,
   ⟨turnOf 0x0202 (pkt (entryBytes 0x020A 0x08000000) 0), pkt (entryBytes 0x020A 0x08000000) 0, .port 0,
    And.intro rfl (And.intro rfl (And.intro rfl (by decide))), by decide⟩,
   ⟨turnOf 0x0302 (pkt (entryBytes 0x0310 0x0F) 0xFFFF), pkt (entryBytes 0x0310 0x0F) 0xFFFF, .station,
    And.intro rfl (And.intro rfl (And.intro rfl (by decide))), by decide⟩,
   ⟨turnOf 0x0302 (pkt (entryBytes 0x0300 0x00010000) 0xFFFF), pkt (entryBytes 0x0300 0x00010000) 0xFFFF, .station,
    And.intro rfl (And.intro rfl (And.intro rfl (by decide))), by decide⟩,
   ⟨turnOf 0x0502 (pkt (entryBytes 0x0508 0x40000000) 0), pkt (entryBytes 0x0508 0x40000000) 0, .port 0,
    And.intro rfl (And.intro rfl (And.intro rfl (by decide))), by decide⟩,
   ⟨turnOf 0x0502 (pkt (entryBytes 0x0504 1) 0), pkt (entryBytes 0x0504 1) 0, .port 0,
    And.intro rfl (And.intro rfl (And.intro rfl (by decide))), by decide⟩,
   ⟨turnOf 0x0602 (pkt (entryBytes 0x0610 0x00020000) 0xFFFF), pkt (entryBytes 0x0610 0x00020000) 0xFFFF, .station,
    And.intro rfl (And.intro rfl (And.intro rfl (by decide))), by decide⟩,
   ⟨turnOf 0x0110 (pkt [3, 0, 0, 0] 0xFFFF), pkt [3, 0, 0, 0] 0xFFFF,
    And.intro rfl (And.intro rfl (And.intro rfl (by decide))), by decide⟩,
   ⟨turnOf 0x0111 (pkt [3, 0, 0, 0] 0xFFFF), pkt [3, 0, 0, 0] 0xFFFF,
    And.intro rfl (And.intro rfl (And.intro rfl (by decide))), by decide⟩,
   ⟨turnOf 0x0112 (pkt [3, 0, 0, 0] 0xFFFF), pkt [3, 0, 0, 0] 0xFFFF,
    And.intro rfl (And.intro rfl (And.intro rfl (by decide))), by decide⟩,
   ⟨turnOf 0x0118 (pkt [3] 0xFFFF), pkt [3] 0xFFFF, And.intro rfl (And.intro rfl (And.intro rfl (by decide))), by decide⟩⟩

theorem witness_PortActions :
    (∃ (s : State) (p : Packet) (n : PortId), s.turn 0x0210 p ∧ s.coreCheck 0x0210 p = none ∧
      Obj.ofTarget p.target = some (.port n) ∧ swapKind (p.payload.headD 0).toNat = some .power ∧
      judgeSwap s p = none ∧ s.port[n].tc.st = .attSrc) ∧
    (∃ (s : State) (p : Packet) (n : PortId), s.turn 0x0210 p ∧ s.coreCheck 0x0210 p = none ∧
      Obj.ofTarget p.target = some (.port n) ∧ swapKind (p.payload.headD 0).toNat = some .power ∧
      judgeSwap s p = none ∧ s.port[n].tc.st ≠ .attSrc) ∧
    (∃ (s : State) (p : Packet) (n : PortId), s.turn 0x0210 p ∧ s.coreCheck 0x0210 p = none ∧
      Obj.ofTarget p.target = some (.port n) ∧ swapKind (p.payload.headD 0).toNat = some .data ∧ judgeSwap s p = none) ∧
    (∃ (s : State) (p : Packet) (n : PortId), s.turn 0x0210 p ∧ s.coreCheck 0x0210 p = none ∧
      Obj.ofTarget p.target = some (.port n) ∧ swapKind (p.payload.headD 0).toNat = some .vconn ∧
      judgeSwap s p = none) ∧
    (∃ (s : State) (p : Packet) (n : PortId), s.turn 0x0220 p ∧ s.coreCheck 0x0220 p = none ∧
      Obj.ofTarget p.target = some (.port n) ∧ p.payload.headD 0 = 0 ∧ judgeAltMode s p = none ∧
      s.mayDiscover n = true) ∧
    (∃ (s : State) (p : Packet) (n : PortId), s.turn 0x0220 p ∧ s.coreCheck 0x0220 p = none ∧
      Obj.ofTarget p.target = some (.port n) ∧ p.payload.headD 0 = 0 ∧ judgeAltMode s p = none ∧
      s.port[n].pd.contract = false) ∧
    (∃ (s : State) (p : Packet) (n : PortId), s.turn 0x0220 p ∧ s.coreCheck 0x0220 p = none ∧
      Obj.ofTarget p.target = some (.port n) ∧ p.payload.headD 0 = 1 ∧ judgeAltMode s p = none ∧
      (s.port[n].alt.step = .exiting ∨ s.port[n].alt.step = .exitSafe)) ∧
    (∃ (s : State) (p : Packet) (n : PortId), s.turn 0x0230 p ∧ s.coreCheck 0x0230 p = none ∧
      Obj.ofTarget p.target = some (.port n) ∧ s.port[n].pp.st = .lockoff ∧
      (s.port[n].tc.st.attached = false ∨ s.port[n].tc.pathRetry = false)) ∧
    (∃ (s : State) (p : Packet) (n : PortId), s.turn 0x0230 p ∧ s.coreCheck 0x0230 p = none ∧
      Obj.ofTarget p.target = some (.port n) ∧ s.port[n].pp.st = .lockoff ∧ s.port[n].tc.st.attached = true ∧
      s.port[n].tc.pathRetry = true) :=
  ⟨⟨turnSwap .attSrc 0x0210 (pkt [1] 0), pkt [1] 0, 0,
    And.intro rfl (And.intro rfl (And.intro rfl (by decide +kernel))), by decide +kernel⟩,
   ⟨turnSwap .attSnk 0x0210 (pkt [1] 0), pkt [1] 0, 0, And.intro rfl (And.intro rfl (And.intro rfl (by decide))),
    by decide⟩,
   ⟨turnSwap .attSrc 0x0210 (pkt [2] 0), pkt [2] 0, 0, And.intro rfl (And.intro rfl (And.intro rfl (by decide))),
    by decide⟩,
   ⟨turnVconn 0x0210 (pkt [3] 0), pkt [3] 0, 0, And.intro rfl (And.intro rfl (And.intro rfl (by decide))), by decide⟩,
   ⟨turnAlt 0x0220 (pkt [0] 0), pkt [0] 0, 0, And.intro rfl (And.intro rfl (And.intro rfl (by decide))), by decide⟩,
   ⟨(withPort { sourcePort with pd := { sourcePort.pd with contract := false } }).holding 0x0220 (pkt [0] 0), pkt [0] 0,
    0, And.intro rfl (And.intro rfl (And.intro rfl (by decide))), by decide⟩,
   ⟨turnAltExit 0x0220 (pkt [1] 0), pkt [1] 0, 0, And.intro rfl (And.intro rfl (And.intro rfl (by decide))), by decide⟩,
   ⟨(withPort { Port.reset with pp := { Path.reset with st := .lockoff } }).holding 0x0230 (pkt [] 0), pkt [] 0, 0,
    And.intro rfl (And.intro rfl (And.intro rfl (by decide))), by decide⟩,
   ⟨turnLockoff 0x0230 (pkt [] 0), pkt [] 0, 0, And.intro rfl (And.intro rfl (And.intro rfl (by decide))), by decide⟩⟩

theorem witness_StoreActions :
    (∃ (s : State) (p : Packet), s.turn 0x0411 p ∧ s.coreCheck 0x0411 p = none ∧ judgePaletteWrite s p = none ∧
      s.store.recalling = false ∧ s.store.newer = false) ∧
    (∃ (s : State) (p : Packet), s.turn 0x0421 p ∧ s.coreCheck 0x0421 p = none ∧ judgeUserWrite s p = none ∧
      judgeUserPages s p = none ∧ s.store.recalling = false) ∧
    (∃ (s : State) (p : Packet), s.turn 0x0422 p ∧ s.coreCheck 0x0422 p = none ∧ (p.payload.headD 0).toNat ≤ 3 ∧
      s.store.recalling = false) ∧
    (∃ (s : State) (p : Packet), s.turn 0x0430 p ∧ s.coreCheck 0x0430 p = none ∧ s.store.scrub = none ∧
      s.store.recalling = false) ∧
    (∃ (s : State) (p : Packet), s.turn 0x0431 p ∧ s.coreCheck 0x0431 p = none ∧ s.store.recalling = false) ∧
    (∃ (s : State) (p : Packet), s.turn 0x0432 p ∧ s.coreCheck 0x0432 p = none ∧ (p.payload.headD 0).toNat = 0 ∧
      s.store.recalling = false ∧ 256 ≤ protStart (protNow s.store)) ∧
    (∃ (s : State) (p : Packet), s.turn 0x0432 p ∧ s.coreCheck 0x0432 p = none ∧ (p.payload.headD 0).toNat = 1 ∧
      s.store.recalling = false) ∧
    (∃ (s : State) (p : Packet), s.turn 0x0802 p ∧ s.coreCheck 0x0802 p = none) ∧
    (∃ (s : State) (p : Packet), s.turn 0x0432 p ∧ s.coreCheck 0x0432 p = none ∧ (p.payload.headD 0).toNat = 2 ∧
      s.store.recalling = false) ∧
    (∃ (s : State) (p : Packet) (x : BitVec 4) (b : Fin 2) (k : Nat) (n : PortId), s.turn 0x0803 p ∧
      s.coreCheck 0x0803 p = none ∧ Obj.ofTarget p.target = some (.port n) ∧
      (s.port[n].tc.st = .disabled ∨ s.port[n].tc.st.unatt = true)) ∧
    (∃ (s : State) (p : Packet) (x : BitVec 4) (b : Fin 2) (k : Nat), s.turn 0x0803 p ∧ s.coreCheck 0x0803 p = none ∧
      Obj.ofTarget p.target = some .station) :=
  ⟨⟨turnOf 0x0411 (pkt [0x28, 0, 0, 0, 0] 0xFFFF), pkt [0x28, 0, 0, 0, 0] 0xFFFF,
    And.intro rfl (And.intro rfl (And.intro rfl (by decide))), by decide⟩,
   ⟨turnOf 0x0421 (pkt [0, 0, 0, 0, 5] 0xFFFF), pkt [0, 0, 0, 0, 5] 0xFFFF,
    And.intro rfl (And.intro rfl (And.intro rfl (by decide))), by decide⟩,
   ⟨turnOf 0x0422 (pkt [2] 0xFFFF), pkt [2] 0xFFFF, And.intro rfl (And.intro rfl (And.intro rfl (by decide))), by decide⟩,
   ⟨turnOf 0x0430 (pkt [] 0xFFFF), pkt [] 0xFFFF, And.intro rfl (And.intro rfl (And.intro rfl (by decide))), by decide⟩,
   ⟨turnOf 0x0431 (pkt [] 0xFFFF), pkt [] 0xFFFF, And.intro rfl (And.intro rfl (And.intro rfl (by decide))), by decide⟩,
   ⟨turnOf 0x0432 (pkt [0] 0xFFFF), pkt [0] 0xFFFF, And.intro rfl (And.intro rfl (And.intro rfl (by decide))), by decide⟩,
   ⟨turnOf 0x0432 (pkt [1] 0xFFFF), pkt [1] 0xFFFF, And.intro rfl (And.intro rfl (And.intro rfl (by decide))), by decide⟩,
   ⟨turnOf 0x0802 (pkt [] 0xFFFF), pkt [] 0xFFFF, And.intro rfl (And.intro rfl (And.intro rfl (by decide))), by decide⟩,
   ⟨turnOf 0x0432 (pkt [2] 0xFFFF), pkt [2] 0xFFFF, And.intro rfl (And.intro rfl (And.intro rfl (by decide))), by decide⟩,
   ⟨turnOf 0x0803 (pkt [] 0), pkt [] 0, 0, 0, 0, 0, And.intro rfl (And.intro rfl (And.intro rfl (by decide))), by decide⟩,
   ⟨turnOf 0x0803 (pkt [] 0xFFFF), pkt [] 0xFFFF, 3, 0, 0, And.intro rfl (And.intro rfl (And.intro rfl (by decide))),
    by decide⟩⟩

theorem witness_KernelAndImageActions :
    (∃ (s : State) (p : Packet), s.turn 0x0701 p ∧ s.coreCheck 0x0701 p = none ∧
      le32 p.payload 0 + (p.payload.length - 4) ≤ 24608) ∧
    (∃ (s : State) (p : Packet), s.turn 0x0702 p ∧ s.coreCheck 0x0702 p = none ∧ judgeKernelStart s p = none ∧
      s.core[slotOfTarget p.target].slot.st = .empty ∧ s.core[slotOfTarget p.target].slot.busy = false ∧
      s.core[slotOfTarget p.target].slot.host = none) ∧
    (∃ (s : State) (p : Packet), s.turn 0x0703 p ∧ s.coreCheck 0x0703 p = none ∧
      s.core[slotOfTarget p.target].slot.st ≠ .empty ∧ s.core[slotOfTarget p.target].slot.busy = false ∧
      s.core[slotOfTarget p.target].slot.host = none) ∧
    (∃ (s : State) (p : Packet) (b : Bank), s.turn 0x0711 p ∧ s.coreCheck 0x0711 p = none ∧ s.bankArg p = some b ∧
      (s.verify.any fun v => decide (v.1 = b)) = false ∧ le32 p.payload 2 + (p.payload.length - 6) ≤ 1048576) ∧
    (∃ (s : State) (p : Packet) (b : Bank), s.turn 0x0712 p ∧ s.coreCheck 0x0712 p = none ∧ s.bankArg p = some b) ∧
    (∃ (s : State) (p : Packet) (b : Bank), s.turn 0x0713 p ∧ s.coreCheck 0x0713 p = none ∧ s.bankArg p = some b ∧
      (s.bank b).st = 2 ∧ s.restartBars = false ∧ s.sup.primer ≠ .service) ∧
    (∃ (s : State) (p : Packet), s.turn 0x0714 p ∧ s.coreCheck 0x0714 p = none ∧ s.sup.runBank ≠ none ∧
      s.arbSealed < s.running.arbLevel) ∧
    (∃ (s : State) (p : Packet) (k : PlatId) (i : Fin 8) (x : Sketch), s.turn 0x0512 p ∧ s.coreCheck 0x0512 p = none ∧
      Obj.ofTarget p.target = some (.plat k) ∧ (p.payload.headD 0).toNat = i.val ∧ p.payload.getD 1 0 = 0 ∧
      s.plat[k].slots[i] = some x ∧ x.complete = true ∧ s.plat[k].push = none) ∧
    (∃ (s : State) (p : Packet) (n : PortId) (i : Fin 8), s.turn 0x0513 p ∧ s.coreCheck 0x0513 p = none ∧
      Obj.ofTarget p.target = some (.port n) ∧ s.sup.linkSilent = false ∧ fillingSlot s.plat[platOf n] n = none ∧
      freeSlot s.plat[platOf n] = some i) ∧
    (∃ (s : State) (p : Packet) (k : PlatId) (i : Fin 8) (x : Sketch), s.turn 0x0514 p ∧ s.coreCheck 0x0514 p = none ∧
      Obj.ofTarget p.target = some (.plat k) ∧ (p.payload.headD 0).toNat = i.val ∧ p.payload.getD 1 0 = 0 ∧
      s.plat[k].slots[i] = some x ∧ x.complete = true ∧ s.plat[k].push = none) ∧
    (∃ (s : State) (p : Packet), s.turn 0x0610 p ∧ s.coreCheck 0x0610 p = none ∧ s.sq.st = .latched) ∧
    (∃ (s : State) (p : Packet), s.turn 0x0611 p ∧ s.coreCheck 0x0611 p = none ∧ s.sq.st = .run) :=
  ⟨⟨turnOf 0x0701 (pkt [0, 0, 0, 0, 7] 0xFFFF), pkt [0, 0, 0, 0, 7] 0xFFFF,
    And.intro rfl (And.intro rfl (And.intro rfl (by decide))), by decide⟩,
   ⟨turnStaged 0x0702 (pkt (leBytes 4 36) 0xFFFF), pkt (leBytes 4 36) 0xFFFF,
    And.intro rfl (And.intro rfl (And.intro rfl (by decide +kernel))), by decide +kernel⟩,
   ⟨turnRunning 0x0703 (pkt [] 0xFFFF), pkt [] 0xFFFF, And.intro rfl (And.intro rfl (And.intro rfl (by decide))),
    by decide⟩,
   ⟨turnOf 0x0711 (pkt [1, 0, 0, 0, 0, 0, 9] 0xFFFF), pkt [1, 0, 0, 0, 0, 0, 9] 0xFFFF, .b,
    And.intro rfl (And.intro rfl (And.intro rfl (by decide))), by decide⟩,
   ⟨turnOf 0x0712 (pkt [1, 0] 0xFFFF), pkt [1, 0] 0xFFFF, .b, And.intro rfl (And.intro rfl (And.intro rfl (by decide))),
    by decide⟩,
   ⟨turnVerified 0x0713 (pkt [1, 0] 0xFFFF), pkt [1, 0] 0xFFFF, .b,
    And.intro rfl (And.intro rfl (And.intro rfl (by decide))), by decide⟩,
   ⟨turnArb 0x0714 (pkt [] 0xFFFF), pkt [] 0xFFFF, And.intro rfl (And.intro rfl (And.intro rfl (by decide))), by decide⟩,
   ⟨turnSketch 0x0512 (pkt [0, 0] 0x0100), pkt [0, 0] 0x0100, 0, 0, { aSketch with complete := true },
    And.intro rfl (And.intro rfl (And.intro rfl (by decide))), by decide⟩,
   ⟨turnOf 0x0513 (pkt [] 0), pkt [] 0, 0, 0, And.intro rfl (And.intro rfl (And.intro rfl (by decide))), by decide⟩,
   ⟨turnSketch 0x0514 (pkt [0, 0] 0x0100), pkt [0, 0] 0x0100, 0, 0, { aSketch with complete := true },
    And.intro rfl (And.intro rfl (And.intro rfl (by decide))), by decide⟩,
   ⟨turnLatched 0x0610 (pkt [] 0xFFFF), pkt [] 0xFFFF, And.intro rfl (And.intro rfl (And.intro rfl (by decide))),
    by decide⟩,
   ⟨turnRun 0x0611 (pkt [1, 0] 0xFFFF), pkt [1, 0] 0xFFFF, And.intro rfl (And.intro rfl (And.intro rfl (by decide))),
    by decide⟩⟩

theorem witness_TwoWireTransfers :
    (∃ (s : State) (bus : TwBus) (a : Nat) (w : Byte), s.twAddr bus = some a ∧ s.hostOn bus.host = true ∧
      pecOn s.tw[bus.ix] = false ∧ ptrMode s.tw[bus.ix] = false ∧ listedWindow w.toNat = true) ∧
    (∃ (s : State) (bus : TwBus) (a : Nat) (o b : Byte), s.twAddr bus = some a ∧ s.hostOn bus.host = true ∧
      pecOn s.tw[bus.ix] = false ∧ ptrMode s.tw[bus.ix] = false ∧ s.tw[bus.ix].winsel = 0x10 ∧
      s.tw[bus.ix].cmdFree = true ∧ o ≠ 0xFF) ∧
    (∃ (s : State) (bus : TwBus) (a : Nat) (o b : Byte), s.twAddr bus = some a ∧ s.hostOn bus.host = true ∧
      pecOn s.tw[bus.ix] = false ∧ ptrMode s.tw[bus.ix] = false ∧ s.tw[bus.ix].winsel = 0x10 ∧
      s.tw[bus.ix].cmdFree = false ∧ o ≠ 0xFF) ∧
    (∃ (s : State) (bus : TwBus) (a : Nat), s.twAddr bus = some a ∧ s.hostOn bus.host = true ∧
      pecOn s.tw[bus.ix] = false ∧ ptrMode s.tw[bus.ix] = false ∧ s.tw[bus.ix].winsel = 0 ∧
      s.tw[bus.ix].cmdFree = true ∧ 1 ≤ s.tw[bus.ix].cmdLen.toNat ∧ s.tw[bus.ix].cmdLen.toNat ≤ 1275) ∧
    (∃ (s : State) (bus : TwBus) (a : Nat), s.twAddr bus = some a ∧ s.hostOn bus.host = true ∧
      pecOn s.tw[bus.ix] = false ∧ ptrMode s.tw[bus.ix] = false ∧ s.tw[bus.ix].winsel = 0 ∧
      s.tw[bus.ix].cmdFree = false) ∧
    (∃ (s : State) (bus : TwBus) (a : Nat) (l : List Byte), s.twAddr bus = some a ∧ s.hostOn bus.host = true ∧
      pecOn s.tw[bus.ix] = true ∧ ptrMode s.tw[bus.ix] = false ∧ l ≠ [] ∧ l.length ≤ 257 ∧
      crc8 (s.tw[bus.ix].pre ++ BitVec.ofNat 8 (2 * a) :: l.dropLast) ≠ l.getLastD 0) ∧
    (∃ (s : State) (bus : TwBus) (a : Nat) (l : List Byte), s.twAddr bus = some a ∧ s.hostOn bus.host = true) ∧
    (∃ (s : State) (bus : TwBus) (l : List Byte) (e : TwEnd), (s.twAddr bus = none ∨ s.hostOn bus.host = false)) ∧
    (∃ (s : State) (bus : TwBus) (a : Nat), s.twAddr bus = some a ∧ s.hostOn bus.host = true ∧
      pecOn s.tw[bus.ix] = false ∧ ptrMode s.tw[bus.ix] = false ∧ s.tw[bus.ix].ptr.toNat ≠ 255) ∧
    (∃ (s : State) (bus : TwBus) (k : Nat), (s.twAddr bus = none ∨ s.hostOn bus.host = false)) ∧
    (∃ (s : State) (bus : TwBus) (a : Nat), s.twAddr bus = some a ∧ s.alertN bus = true ∧ pecOn s.tw[bus.ix] = false) ∧
    (∃ (s : State) (bus : TwBus) (b : Bool), (s.alertN bus = false ∨ b = false)) ∧
    (∃ (s : State) (bus : TwBus), s.hostOn bus.host = true ∧ tmoOn s.tw[bus.ix] = true) ∧
    (∃ (s : State) (bus : TwBus), tmoOn s.tw[bus.ix] = false) ∧
    (∃ (s : State) (bus : TwBus), s.sup.logicUp = true ∧ s.tw[bus.ix].due = true) ∧
    (∃ (s : State) (bus : TwBus), s.sup.logicUp = true ∧ s.tw[bus.ix].due = false) ∧
    (∃ (s : State) (bus : TwBus), s.tw[bus.ix].rplDone = true ∧ s.net.cportAfter = none) ∧
    (∃ (s : State) (bus : TwBus), s.tw[bus.ix].rplDone = false) ∧
    (∃ (s : State) (bus : TwBus), s.tw[bus.ix].evtDone = true ∧ s.tw[bus.ix].rplDone = false) ∧
    (∃ (s : State) (bus : TwBus), s.tw[bus.ix].rplDone = true) ∧
    (∃ (s : State) (bus : TwBus), s.tw[bus.ix].send = true ∧ s.tw[bus.ix].rplDone = false ∧ s.tw[bus.ix].evtDone = false) ∧
    (∃ (s : State) (bus : TwBus), (s.tw[bus.ix].rplDone = true ∨ s.tw[bus.ix].evtDone = true)) ∧
    (∃ (s : State) (bus : TwBus) (a : Nat) (w q : Byte), s.twAddr bus = some a ∧ s.hostOn bus.host = true ∧
      pecOn s.tw[bus.ix] = true ∧ ptrMode s.tw[bus.ix] = false ∧ listedWindow w.toNat = true ∧
      q = crc8 (s.tw[bus.ix].pre ++ [BitVec.ofNat 8 (2 * a), 0xFF, w])) ∧
    (∃ (s : State) (bus : TwBus) (a : Nat) (o : Byte), s.twAddr bus = some a ∧ s.hostOn bus.host = true ∧
      ptrMode s.tw[bus.ix] = false) ∧
    (∃ (s : State) (bus : TwBus) (a : Nat) (o b : Byte), s.twAddr bus = some a ∧ s.hostOn bus.host = true ∧
      pecOn s.tw[bus.ix] = false ∧ ptrMode s.tw[bus.ix] = true ∧ s.tw[bus.ix].cmdFree = true ∧ o ≠ 0xFF) ∧
    (∃ (s : State) (bus : TwBus) (a k : Nat), s.twAddr bus = some a ∧ s.hostOn bus.host = true ∧
      pecOn s.tw[bus.ix] = true) :=
  ⟨⟨twState 0, .ma, 64, 0x10, by decide⟩,
   ⟨twState 0x10, .ma, 64, 5, 0xAB, by decide⟩,
   ⟨twBusy 0x10, .ma, 64, 5, 0xAB, by decide⟩,
   ⟨twState 0, .ma, 64, by decide⟩,
   ⟨twBusy 0, .ma, 64, by decide⟩,
   ⟨twPec, .ma, 64, [8, 1, 0], by decide⟩,
   ⟨twState 0, .ma, 64, [8], by decide⟩,
   ⟨State.reset, .ma, [], .stop, .inl (by decide)⟩,
   ⟨twState 0, .ma, 64, by decide⟩,
   ⟨State.reset, .ma, 1, .inl (by decide)⟩,
   ⟨alerting, .ma, 64, by decide⟩,
   ⟨upState, .ma, true, .inl (by decide)⟩,
   ⟨twTmo, .ma, by decide⟩,
   ⟨twState 0, .ma, by decide⟩,
   ⟨upState.tw0 fun t => { t with due := true }, .ma, by decide⟩,
   ⟨upState, .aux, by decide⟩,
   ⟨twDone, .ma, by decide⟩,
   ⟨upState, .ma, by decide⟩,
   ⟨twEvtDone, .ma, by decide⟩,
   ⟨twDone, .ma, by decide⟩,
   ⟨twSend, .ma, by decide⟩,
   ⟨twDone, .ma, .inl (by decide)⟩,
   ⟨twPec, .ma, 64, 0x10, _, by decide, by decide, by decide, by decide, by decide, rfl⟩,
   ⟨twState 0, .ma, 64, 5, by decide⟩,
   ⟨(twState 0).tw0 fun t => { t with cfg := 0x80000000 }, .ma, 64, 31, 7, by decide⟩,
   ⟨twPec, .ma, 64, 40, by decide⟩⟩

theorem witness_LocalNetAndLane :
    (∃ (s : State), s.hostOn .ls = true) ∧
    (∃ (s : State), s.hostOn .ls = false) ∧
    (∃ (s : State) (l : List Byte) (b : Bool), s.hostOn .ls = true ∧
      (b = false ∨ s.loc.cmdFree = false ∨ 1036 < l.length)) ∧
    (∃ (s : State) (l : List Byte), s.hostOn .ls = true ∧ s.loc.cmdFree = true ∧ l.length ≤ 1036 ∧ frameCheck l = none ∧
      s.frontCheck (parseOp l) (parsePacket .ls l) = none ∧ (opInfo (parseOp l)).isSome = true) ∧
    (∃ (s : State) (k : Nat), s.hostOn .ls = true ∧ s.rplFrame .ls ≠ [] ∧ k % 8 = 0 ∧
      2 + (s.rplFrame .ls).length ≤ k / 8 ∧ s.net.cportAfter = none) ∧
    (∃ (s : State) (k : Nat), s.hostOn .ls = true ∧ (k / 8 < 2 + (s.rplFrame .ls).length ∨ k % 8 ≠ 0)) ∧
    (∃ (s : State) (k : Nat), s.hostOn .ls = true ∧ s.evtFrame .ls ≠ [] ∧ k % 8 = 0 ∧ 2 + (s.evtFrame .ls).length ≤ k / 8) ∧
    (∃ (s : State) (k : Nat), s.hostOn .ls = true ∧ (k / 8 < 2 + (s.evtFrame .ls).length ∨ k % 8 ≠ 0)) ∧
    (∃ (s : State) (f : NetFrame),
      (s.net.link = false ∨ s.net.cport = 0 ∨ f.fcsOk = false ∨ f.dstMac ≠ s.netSmac ∨ f.options = true ∨ f.fragment = true ∨ f.dstIp ≠ s.netSip ∨ f.dstPort ≠ s.net.cport ∨ f.udpSumOk = false)) ∧
    (∃ (s : State) (f : NetFrame), s.net.link = true ∧ s.net.cport ≠ 0 ∧ f.fcsOk = true ∧ f.dstMac = s.netSmac ∧
      f.options = false ∧ f.fragment = false ∧ f.dstIp = s.netSip ∧ f.dstPort = s.net.cport ∧ f.udpSumOk = true ∧
      s.hostOn .net = true ∧ frameCheck f.payload = none ∧
      s.frontCheck (parseOp f.payload) (parsePacket .net f.payload) = none ∧
      (opInfo (parseOp f.payload)).isSome = true) ∧
    (∃ (s : State) (f : LaneFrame) (r : List LaneFrame), s.net.sending = none ∧ (∀ k : PlatId,
      s.plat[k].pushCut = false) ∧ s.net.link = true ∧ s.net.urgent = f :: r ∧ s.hostOn .net = true) ∧
    (∃ (s : State) (r : Reply) (q : List Reply) (x : BitVec 48 × BitVec 32 × BitVec 16), s.net.sending = none ∧
      (∀ k : PlatId, s.plat[k].pushCut = false) ∧ s.net.link = true ∧ s.net.urgent = [] ∧
      s.host[HostPort.net.ix].replies = r :: q ∧ (takeOrigin r.tag s.net.origin).1 = some x ∧
      s.net.cportAfter = none ∧ s.hostOn .net = true) ∧
    (∃ (s : State) (e : Event) (q : List Event), s.net.sending = none ∧ (∀ k : PlatId, s.plat[k].pushCut = false) ∧
      s.net.link = true ∧ s.net.urgent = [] ∧ s.host[HostPort.net.ix].replies = [] ∧
      s.host[HostPort.net.ix].events = e :: q ∧ s.net.dest.isSome = true ∧ s.hostOn .net = true ∧
      s.settled .net = s.host[HostPort.net.ix].events) ∧
    (∃ (s : State) (f : LaneFrame) (r : List LaneFrame), s.net.sending = none ∧ (∀ k : PlatId,
      s.plat[k].pushCut = false) ∧ s.net.link = true ∧ s.net.urgent = [] ∧ s.host[HostPort.net.ix].replies = [] ∧
      s.host[HostPort.net.ix].events = [] ∧ s.net.reports = f :: r ∧ s.hostOn .net = true) ∧
    (∃ (s : State) (f : LaneFrame) (r : List LaneFrame), s.net.sending = none ∧ (∀ k : PlatId,
      s.plat[k].pushCut = false) ∧ s.net.link = true ∧ s.net.urgent = [] ∧ s.host[HostPort.net.ix].replies = [] ∧
      s.host[HostPort.net.ix].events = [] ∧ s.net.reports = [] ∧ s.net.traces = f :: r ∧ s.hostOn .net = true) ∧
    (∃ (s : State), s.net.sending = none ∧ (∀ k : PlatId, s.plat[k].pushCut = false) ∧
      (s.net.link = false ∨ s.hostOn .net = false) ∧ s.net.cportAfter = none) ∧
    (∃ (s : State) (h : HostPort), s.net.sending = none ∧ (∀ k : PlatId, s.plat[k].pushCut = false) ∧
      (s.net.link = false ∨ s.hostOn .net = false) ∧ s.net.cportAfter = some h ∧ s.host[h.ix].replies = []) ∧
    (∃ (s : State) (q : HostPort) (a b : Word) (k : Nat), s.host[q.ix].lost = some (a, b, k) ∧
      s.host[q.ix].events.length + s.host[q.ix].reserved < 64) ∧
    (∃ (s : State) (q : HostPort), (s.host[q.ix].lost = none ∨ 64 ≤ s.host[q.ix].events.length + s.host[q.ix].reserved)) ∧
    (∃ (s : State) (f : LaneFrame) (n : PortId) (k : Nat) (h : List Byte) (r : List (List (BitVec 16))),
      f = .trace n k h r ∧ s.net.sending = some f) ∧
    (∃ (s : State) (r : Reply) (m : BitVec 48) (ip : Word) (p : BitVec 16), s.net.sending = some (.reply r m ip p)) :=
  ⟨⟨upState, by decide⟩,
   ⟨State.reset, by decide⟩,
   ⟨upState, [1], false, by decide, .inl rfl⟩,
   ⟨upState, packetBytes 0x0300 (pkt [] 0xFFFF), by decide⟩,
   ⟨localWaiting, 800, by decide⟩,
   ⟨localWaiting, 1, by decide⟩,
   ⟨localWaiting, 800, by decide⟩,
   ⟨localWaiting, 1, by decide⟩,
   ⟨State.reset, aFrame, .inl (by decide)⟩,
   ⟨netState, netCommand, by decide⟩,
   ⟨{ upState with net := { upState.net with link := true, urgent := [.arp 1 2] } }, _, _, by decide, by decide,
    by decide, rfl, by decide⟩,
   ⟨{ upState with net := { upState.net with link := true, origin := [(1, 5, 6, 7)] }, host := upState.host.set 4 { HostFe.reset with replies := [⟨1, 0, 0, []⟩] } },
    _, _, _, by decide, by decide, by decide, by decide, rfl, rfl, by decide⟩,
   ⟨{ upState with ssn := 1, net := { upState.net with link := true, dest := some (5, 6, 7) }, host := upState.host.set 4 { HostFe.reset with events := [⟨0, 0, 0, 0, 0, 0, []⟩] } },
    _, _, by decide, by decide, by decide, by decide, by decide, rfl, by decide⟩,
   ⟨{ upState with net := { upState.net with link := true, reports := [.arp 1 2] } }, _, _, by decide, by decide,
    by decide, by decide, by decide, by decide, rfl, by decide⟩,
   ⟨{ upState with net := { upState.net with link := true, traces := [.arp 1 2] } }, _, _, by decide, by decide,
    by decide, by decide, by decide, by decide, by decide, rfl, by decide⟩,
   ⟨State.reset, by decide⟩,
   ⟨{ upState with net := { upState.net with cportAfter := some .ls } }, .ls, by decide, by decide, by decide, rfl,
    by decide⟩,
   ⟨overflowed, .ls, _, _, _, rfl, by decide⟩,
   ⟨upState, .ls, .inl (by decide)⟩,
   ⟨{ upState with net := { upState.net with sending := some (.trace 0 0 [] []) } }, _, 0, 0, [], [], rfl, rfl⟩,
   ⟨{ upState with net := { upState.net with sending := some (.reply ⟨1, 0, 0, []⟩ 1 2 3) } }, _, 1, 2, 3, rfl⟩⟩

theorem witness_ChecksOfCommands :
    (∃ (s : State) (op st : BitVec 16) (j : Judge) (e : Effect) (p : Packet), s.turn op p ∧
      (s.rest.coreCheck op p).or (j s.rest p) = some st ∧ st ≠ stOk) ∧
    (∃ (s : State) (op : BitVec 16) (j : Judge) (e : Effect) (p : Packet) (ct : CT) (l : List Held), s.inbox = ⟨op, p,
      ct⟩ :: l ∧ s.outranked ⟨op, p, ct⟩ = false ∧ checkOnly p = true) ∧
    (∃ (s : State) (op : BitVec 16) (j : Judge) (e : Effect) (p : Packet) (ct : CT) (l : List Held), s.inbox = ⟨op, p,
      ct⟩ :: l ∧ s.outranked ⟨op, p, ct⟩ = false ∧ checkOnly p = false ∧ s.rest.mustWait s.waiting ⟨op, p, ct⟩ = true) ∧
    (∃ (s : State) (op : BitVec 16) (j : Judge) (e : Effect) (p : Packet) (ct : CT) (l : List Held), s.inbox = ⟨op, p,
      ct⟩ :: l ∧ s.outranked ⟨op, p, ct⟩ = true) ∧
    (∃ (s : State) (op : BitVec 16) (p : Packet), opInfo op = none) ∧
    (∃ (s : State) (op : BitVec 16) (p : Packet) (i : OpInfo), opInfo op = some i ∧ Obj.ofTarget p.target = none) ∧
    (∃ (s : State) (op : BitVec 16) (p : Packet) (i : OpInfo) (o : Obj), opInfo op = some i ∧
      Obj.ofTarget p.target = some o ∧ o.kind ∉ i.kinds) ∧
    (∃ (s : State) (op : BitVec 16) (p : Packet) (i : OpInfo) (n : PortId), opInfo op = some i ∧
      Obj.ofTarget p.target = some (.port n) ∧ 2 ∈ i.kinds ∧ bit s.fuse.present n = false) ∧
    (∃ (s : State) (op : BitVec 16) (p : Packet) (i : OpInfo) (o : Obj), opInfo op = some i ∧
      Obj.ofTarget p.target = some o ∧ o.kind ∈ i.kinds ∧ ((∀ n : PortId, o = .port n → bit s.fuse.present n = true ∧
      (op = 0x0803 ∨ bit s.health.retired n = false))) ∧ s.hasClass p.host (cmdClass op i p) = false) ∧
    (∃ (s : State) (op : BitVec 16) (p : Packet) (i : OpInfo) (o : Obj), opInfo op = some i ∧
      Obj.ofTarget p.target = some o ∧ o.kind ∈ i.kinds ∧ ((∀ n : PortId, o = .port n → bit s.fuse.present n = true ∧
      (op = 0x0803 ∨ bit s.health.retired n = false))) ∧ s.hasClass p.host (cmdClass op i p) = true ∧ ((∃ n,
      s.claimPort op i p = some n ∧ s.claim[n] ≠ some p.host))) ∧
    (∃ (s : State) (op : BitVec 16) (p : Packet) (i : OpInfo) (o : Obj), opInfo op = some i ∧
      Obj.ofTarget p.target = some o ∧ o.kind ∈ i.kinds ∧ ((∀ n : PortId, o = .port n → bit s.fuse.present n = true ∧
      (op = 0x0803 ∨ bit s.health.retired n = false))) ∧ s.hasClass p.host (cmdClass op i p) = true ∧ ((∀ n,
      s.claimPort op i p = some n → s.claim[n] = some p.host)) ∧ i.len p.payload.length = false) ∧
    (∃ (s : State) (op : BitVec 16) (p : Packet) (i : OpInfo) (o : Obj), opInfo op = some i ∧
      Obj.ofTarget p.target = some o ∧ o.kind ∈ i.kinds ∧ ((∀ n : PortId, o = .port n → bit s.fuse.present n = true ∧
      (op = 0x0803 ∨ bit s.health.retired n = false))) ∧ s.hasClass p.host (cmdClass op i p) = true ∧ ((∀ n,
      s.claimPort op i p = some n → s.claim[n] = some p.host)) ∧ i.len p.payload.length = true) ∧
    (∃ (s : State), s.readyAt [] s.waiting = none) ∧
    (∃ (s : State) (c : Held) (a r : List Held) (st : BitVec 16), s.readyAt [] s.waiting = some (a, c, r) ∧
      s.coreCheck c.op c.p = some st ∧ st ≠ stOk) ∧
    (∃ (s : State) (c : Held) (a r : List Held) (n : PortId), s.readyAt [] s.waiting = some (a, c, r) ∧ c.op = 0x0230 ∧
      s.coreCheck c.op c.p = none ∧ Obj.ofTarget c.p.target = some (.port n) ∧ s.port[n].pp.st = .lockoff ∧
      (s.port[n].tc.st.attached = false ∨ s.port[n].tc.pathRetry = false)) :=
  ⟨⟨turnOf 0x0305 (pkt [0, 0] 0xFFFF), 0x0305, stBadParam, judgeReadEntries, effReadEntries, pkt [0, 0] 0xFFFF,
    And.intro rfl (And.intro rfl (And.intro rfl (by decide))), by decide⟩,
   ⟨{ upState with inbox := [⟨0x0300, checkPkt, 0⟩] }, 0x0300, noJudge, effReadTime, checkPkt, _, _, rfl, by decide⟩,
   ⟨waitState, 0x0210, noJudge, effSwap, pkt [1] 0, _, _, rfl, by decide⟩,
   ⟨{ upState with inbox := [⟨0x0101, { pkt [] 0 with host := .mb }, upState.time.ct⟩], pending := [.identity (pkt [] 0)] },
    0x0101, noJudge, effReadTime, { pkt [] 0 with host := .mb }, _, _, rfl, by decide⟩,
   ⟨upState, 0x0999, pkt [] 0, by decide⟩,
   ⟨upState, 0x0300, pkt [] 0x0200, _, rfl, by decide⟩,
   ⟨upState, 0x0300, pkt [] 0, _, _, rfl, rfl, by decide⟩,
   ⟨absentPort, 0x0210, pkt [1] 0, _, _, rfl, rfl, by decide⟩,
   ⟨observeHost, 0x0303, pkt [0, 0, 0, 0] 0xFFFF, _, _, rfl, rfl, by decide⟩,
   ⟨upState, 0x0210, pkt [1] 0, _, _, rfl, rfl, by decide, by decide, by decide, ⟨0, by decide, by decide⟩⟩,
   ⟨upState, 0x0300, pkt [1] 0xFFFF, _, _, rfl, rfl, by decide⟩,
   ⟨upState, 0x0300, pkt [] 0xFFFF, _, _, rfl, rfl, by decide⟩,
   ⟨upState, by decide⟩,
   ⟨waitingOwned, _, _, _, stOwned, rfl, by decide⟩,
   ⟨waitingClear, _, _, _, 0, rfl, rfl, by decide⟩⟩

theorem witness_RefusedBeforeItsTag :
    (∃ (s : State) (l : List Byte) (st : BitVec 16), s.hostOn .ls = true ∧ s.loc.cmdFree = true ∧ l.length ≤ 1036 ∧
      (frameCheck l).or (s.frontCheck (parseOp l) (parsePacket .ls l)) = some st) ∧
    (∃ (s : State) (bus : TwBus) (l : List Byte) (st : BitVec 16), s.tw[bus.ix].send = true ∧
      s.tw[bus.ix].rplDone = false ∧ s.tw[bus.ix].evtDone = false ∧ s.hostOn bus.host = true ∧
      l = Mem.read zeroByte s.tw[bus.ix].buf 0 s.tw[bus.ix].cmdLen.toNat ∧
      (frameCheck l).or (s.frontCheck (parseOp l) (parsePacket bus.host l)) = some st) ∧
    (∃ (s : State) (f : NetFrame) (st : BitVec 16), s.net.link = true ∧ s.net.cport ≠ 0 ∧ f.fcsOk = true ∧
      f.dstMac = s.netSmac ∧ f.options = false ∧ f.fragment = false ∧ f.dstIp = s.netSip ∧ f.dstPort = s.net.cport ∧
      f.udpSumOk = true ∧ s.hostOn .net = true ∧
      (frameCheck f.payload).or (s.frontCheck (parseOp f.payload) (parsePacket .net f.payload)) = some st) :=
  ⟨⟨upState, [1], stBadLength, by decide⟩,
   ⟨twSend, .ma, _, stBadCrc, by decide, by decide, by decide, by decide, rfl, by decide⟩,
   ⟨netState, { netCommand with payload := [1] }, stBadLength, by decide⟩⟩

theorem witness_RepBeforeControl :
    ∃ (s : State) (c : Ctx) (count : Count), s.canRun c (countReads count) none 2 = true ∧
      bits (s.codeWord c ((s.vctx c).pc + 4)) 31 26 ∈ [0x28, 0x29, 0x2A, 0x2B, 0x2C, 0x2D, 0x30, 0x31, 0x32] :=
  ⟨repBeforeControl, ⟨0, true⟩, .imm 1, by decide⟩

theorem witness_KernelInvocations :
    (∃ (s : State) (k : PlatId), s.core[coreOf k].up = true ∧ s.core[coreOf k].slot.st = .running ∧
      ((List.finRange 6).any fun j => s.filters (portAt k j)) = true ∧ 16 ≤ s.sidx ∧
      s.core[coreOf k].slot.busy = false) ∧
    (∃ (s : State) (k : PlatId), s.core[coreOf k].up = true ∧ s.core[coreOf k].slot.st = .running ∧
      ((List.finRange 6).any fun j => s.filters (portAt k j)) = true ∧ 16 ≤ s.sidx ∧
      s.core[coreOf k].slot.busy = true) ∧
    (∃ (s : State) (k : PlatId), (s.core[coreOf k].slot.st ≠ .running ∨ s.core[coreOf k].up = false)) ∧
    (∃ (s : State) (c : CoreId), c ≠ coreSB ∧ s.core[c].slot.busy = true ∧ s.core[c].slot.spent = true) ∧
    (∃ (s : State) (c : CoreId), (s.core[c].slot.spent = false ∨ s.core[c].slot.busy = false)) :=
  ⟨⟨filtering, 0, by decide⟩,
   ⟨filteringBusy, 0, by decide⟩,
   ⟨upState, 0, .inl (by decide)⟩,
   ⟨kernelSpent, 0, by decide⟩,
   ⟨upState, 0, Or.inl (by decide)⟩⟩

theorem witness_StepTakesTheFront :
    ∃ (s : State), s.pending = [] :=
  ⟨State.reset, rfl⟩

theorem witness_ArithmeticAndLogic :
    (∃ (s : State) (c : Ctx), s.canRun c [] none 1 = true) ∧
    (∃ (s : State) (c : Ctx) (d a b : Reg) (m : MMode), s.canRun c [a, b] none 1 = true) ∧
    (∃ (s : State) (c : Ctx) (d a b : Reg) (m : MMode), s.canRun c [a, b] none 1 = true) ∧
    (∃ (s : State) (c : Ctx) (d a : Reg) (m : MMode), s.canRun c [a] none 1 = true) ∧
    (∃ (s : State) (c : Ctx) (d a : Reg) (m : MMode), s.canRun c [a] none 1 = true) ∧
    (∃ (s : State) (c : Ctx) (d a b : Reg), s.canRun c [a, b] none 1 = true) ∧
    (∃ (s : State) (c : Ctx) (d a b : Reg), s.canRun c [a, b] none 1 = true) ∧
    (∃ (s : State) (c : Ctx) (a b : Reg), s.canRun c [a, b] none 1 = true) ∧
    (∃ (s : State) (c : Ctx) (d a b : Reg), s.canRun c [a, b] none 1 = true) ∧
    (∃ (s : State) (c : Ctx) (d a b : Reg), s.canRun c [a, b] none 1 = true) ∧
    (∃ (s : State) (c : Ctx) (d a b : Reg), s.canRun c [a, b] none 1 = true) ∧
    (∃ (s : State) (c : Ctx) (d a : Reg), s.canRun c [a] none 1 = true) ∧
    (∃ (s : State) (c : Ctx) (d a : Reg) (imm : BitVec 18), s.canRun c [a] none 1 = true) ∧
    (∃ (s : State) (c : Ctx) (d a : Reg) (imm : BitVec 18), s.canRun c [a] none 1 = true) ∧
    (∃ (s : State) (c : Ctx) (d a : Reg) (imm : BitVec 18), s.canRun c [a] none 1 = true) ∧
    (∃ (s : State) (c : Ctx) (d : Reg) (imm : BitVec 22), s.canRun c [] none 1 = true) ∧
    (∃ (s : State) (c : Ctx), s.halted c = true) ∧
    (∃ (s : State) (c : Ctx) (d a b : Reg) (m : MMode), s.canRun c [a, b] none 1 = true) ∧
    (∃ (s : State) (c : Ctx) (d a : Reg) (m : MMode) (sh : BitVec 5), s.canRun c [a] none 1 = true) ∧
    (∃ (s : State) (c : Ctx) (d a b : Reg) (r : RMode), s.canRun c [a, b] none 1 = true) ∧
    (∃ (s : State) (c : Ctx) (d a : Reg) (r : RMode) (sh : BitVec 5), s.canRun c [a] none 1 = true) ∧
    (∃ (s : State) (c : Ctx) (d a b : Reg), s.canRun c [a, b] none 1 = true) ∧
    (∃ (s : State) (c : Ctx) (d a : Reg) (sh : BitVec 5), s.canRun c [a] none 1 = true) ∧
    (∃ (s : State) (c : Ctx) (d a b : Reg), s.canRun c [a, b] none 18 = true ∧ ¬ (s.vctx c).v[b] = 0#32) ∧
    (∃ (s : State) (c : Ctx) (d a b : Reg), s.canRun c [a, b] none 18 = true ∧ (s.vctx c).v[b] = 0) ∧
    (∃ (s : State) (c : Ctx) (d a b : Reg) (m : MMode), s.canRun c [a, b] none 18 = true ∧ ¬ (s.vctx c).v[b] = 0#32) ∧
    (∃ (s : State) (c : Ctx) (d a b : Reg) (m : MMode), s.canRun c [a, b] none 18 = true ∧ (s.vctx c).v[b] = 0) ∧
    (∃ (s : State) (c : Ctx), s.halted c = true) ∧
    (∃ (s : State) (c : Ctx), s.halted c = false) :=
  ⟨⟨upState, ⟨0, false⟩, rfl⟩,
   ⟨upState, ⟨0, false⟩, 1, 2, 3, .follow, rfl⟩,
   ⟨upState, ⟨0, false⟩, 1, 2, 3, .modular, rfl⟩,
   ⟨upState, ⟨0, false⟩, 1, 2, .saturating, rfl⟩,
   ⟨upState, ⟨0, false⟩, 1, 2, .saturating, rfl⟩,
   ⟨upState, ⟨0, false⟩, 1, 2, 3, rfl⟩,
   ⟨upState, ⟨0, false⟩, 1, 2, 3, rfl⟩,
   ⟨upState, ⟨0, false⟩, 1, 2, rfl⟩,
   ⟨upState, ⟨0, false⟩, 1, 2, 3, rfl⟩,
   ⟨upState, ⟨0, false⟩, 1, 2, 3, rfl⟩,
   ⟨upState, ⟨0, false⟩, 1, 2, 3, rfl⟩,
   ⟨upState, ⟨0, false⟩, 1, 2, rfl⟩,
   ⟨upState, ⟨0, false⟩, 1, 2, 3, rfl⟩,
   ⟨upState, ⟨0, false⟩, 1, 2, 3, rfl⟩,
   ⟨upState, ⟨0, false⟩, 1, 2, 3, rfl⟩,
   ⟨upState, ⟨0, false⟩, 1, 3, rfl⟩,
   ⟨State.reset, ⟨0, false⟩, by decide⟩,
   ⟨upState, ⟨0, false⟩, 1, 2, 3, .follow, rfl⟩,
   ⟨upState, ⟨0, false⟩, 1, 2, .follow, 3, rfl⟩,
   ⟨upState, ⟨0, false⟩, 1, 2, 3, .follow, rfl⟩,
   ⟨upState, ⟨0, false⟩, 1, 2, .follow, 3, rfl⟩,
   ⟨upState, ⟨0, false⟩, 1, 2, 3, rfl⟩,
   ⟨upState, ⟨0, false⟩, 1, 2, 3, rfl⟩,
   ⟨sevens, ⟨0, false⟩, 1, 2, 3, rfl, by decide⟩,
   ⟨upState, ⟨0, false⟩, 1, 2, 3, rfl, by decide⟩,
   ⟨sevens, ⟨0, false⟩, 1, 2, 3, .modular, rfl, by decide⟩,
   ⟨upState, ⟨0, false⟩, 1, 2, 3, .modular, rfl, by decide⟩,
   ⟨State.reset, ⟨0, false⟩, by decide⟩,
   ⟨kernelLast, ⟨0, true⟩, by decide +kernel⟩⟩

theorem witness_LoadsAndStores :
    (∃ (s : State) (c : Ctx) (d a : Reg) (imm : BitVec 18) (w : Nat), s.canRun c [a] none 1 = true ∧
      s.vLoad c ((s.vctx c).v[a] + sext18 imm) 4 = some w) ∧
    (∃ (s : State) (c : Ctx) (d a : Reg) (imm : BitVec 18) (w : Nat), s.canRun c [a] none 1 = true ∧
      s.vLoad c ((s.vctx c).v[a] + sext18 imm) 2 = some w) ∧
    (∃ (s : State) (c : Ctx) (d a : Reg) (imm : BitVec 18) (w : Nat), s.canRun c [a] none 1 = true ∧
      s.vLoad c (s.vctx c).v[a] 4 = some w) ∧
    (∃ (s : State) (c : Ctx) (d a : Reg) (imm : BitVec 18), s.canRun c [d, a] none 1 = true ∧ c.kernel = true ∧
      ((s.vctx c).v[a] + sext18 imm).toNat % 4 = 0 ∧
      inside ((s.vctx c).v[a] + sext18 imm).toNat 4 0x10000 8192 = true) ∧
    (∃ (s : State) (c : Ctx) (d a : Reg) (imm : BitVec 18), s.canRun c [d, a] none 1 = true ∧ c.kernel = true ∧
      ((s.vctx c).v[a] + sext18 imm).toNat % 4 = 0 ∧
      inside ((s.vctx c).v[a] + sext18 imm).toNat 4 0x21000 1024 = true) ∧
    (∃ (s : State) (c : Ctx) (d a : Reg) (imm : BitVec 18), s.canRun c [d, a] none 1 = true ∧ c.kernel = false) ∧
    (∃ (s : State) (c : Ctx) (d a : Reg) (imm : BitVec 18), s.canRun c [d, a] none 1 = true ∧ c.kernel = true ∧
      ((s.vctx c).v[a] + sext18 imm).toNat % 2 = 0 ∧
      inside ((s.vctx c).v[a] + sext18 imm).toNat 2 0x10000 8192 = true) ∧
    (∃ (s : State) (c : Ctx) (d a : Reg) (imm : BitVec 18), s.canRun c [d, a] none 1 = true ∧ c.kernel = true ∧
      ((s.vctx c).v[a] + sext18 imm).toNat % 2 = 0 ∧
      inside ((s.vctx c).v[a] + sext18 imm).toNat 2 0x21000 1024 = true) ∧
    (∃ (s : State) (c : Ctx) (d a : Reg) (imm : BitVec 18), s.canRun c [d, a] none 1 = true ∧ c.kernel = false) ∧
    (∃ (s : State) (c : Ctx) (d a : Reg) (imm : BitVec 18), s.canRun c [a] none 2 = true ∧ c.kernel = true ∧
      s.core[c.core].slot.busy = true ∧ s.vLoad c ((s.vctx c).v[a] + sext18 imm) 4 = none) ∧
    (∃ (s : State) (c : Ctx) (d a : Reg) (imm : BitVec 18), s.canRun c [a] none 2 = true ∧ c.kernel = true ∧
      s.core[c.core].slot.busy = true ∧ s.vLoad c ((s.vctx c).v[a] + sext18 imm) 2 = none) ∧
    (∃ (s : State) (c : Ctx) (d a : Reg) (imm : BitVec 18), s.canRun c [d, a] none 2 = true ∧ c.kernel = true ∧
      s.core[c.core].slot.busy = true ∧
      s.vStore c ((s.vctx c).v[a] + sext18 imm) (leBytes 4 (s.vctx c).v[d].toNat) = none) ∧
    (∃ (s : State) (c : Ctx) (d a : Reg) (imm : BitVec 18), s.canRun c [d, a] none 2 = true ∧ c.kernel = true ∧
      s.core[c.core].slot.busy = true ∧
      s.vStore c ((s.vctx c).v[a] + sext18 imm) (leBytes 2 (s.vctx c).v[d].toNat) = none) ∧
    (∃ (s : State) (c : Ctx) (d a : Reg) (imm : BitVec 18), s.canRun c [a] none 2 = true ∧ c.kernel = true ∧
      s.core[c.core].slot.busy = true ∧ s.vLoad c (s.vctx c).v[a] 4 = none) ∧
    (∃ (s : State) (c : Ctx), s.halted c = true) ∧
    (∃ (s : State) (c : Ctx), s.halted c = false ∧ c.kernel = false) :=
  ⟨⟨pointing, ⟨0, true⟩, 1, 2, 0, _, rfl, rfl⟩,
   ⟨pointing, ⟨0, true⟩, 1, 2, 0, _, rfl, rfl⟩,
   ⟨pointing, ⟨0, true⟩, 1, 2, 4, _, rfl, rfl⟩,
   ⟨kernelPointing, ⟨0, true⟩, 1, 2, 0, rfl, rfl, rfl, rfl⟩,
   ⟨kernelPointing, ⟨0, true⟩, 1, 3, 0, rfl, rfl, rfl, rfl⟩,
   ⟨upState, ⟨0, false⟩, 1, 2, 0, rfl, rfl⟩,
   ⟨kernelPointing, ⟨0, true⟩, 1, 2, 0, rfl, rfl, rfl, rfl⟩,
   ⟨kernelPointing, ⟨0, true⟩, 1, 3, 0, rfl, rfl, rfl, rfl⟩,
   ⟨upState, ⟨0, false⟩, 1, 2, 0, rfl, rfl⟩,
   ⟨kernelPointing, ⟨0, true⟩, 1, 4, 0, rfl, rfl, rfl, rfl⟩,
   ⟨kernelPointing, ⟨0, true⟩, 1, 4, 0, rfl, rfl, rfl, rfl⟩,
   ⟨kernelPointing, ⟨0, true⟩, 1, 4, 0, rfl, rfl, rfl, rfl⟩,
   ⟨kernelPointing, ⟨0, true⟩, 1, 4, 0, rfl, rfl, rfl, rfl⟩,
   ⟨kernelPointing, ⟨0, true⟩, 1, 4, 0, rfl, rfl, rfl, rfl⟩,
   ⟨State.reset, ⟨0, false⟩, by decide⟩,
   ⟨upState, ⟨0, false⟩, by decide +kernel, rfl⟩⟩

theorem witness_ProductsAndAccumulators :
    (∃ (s : State) (c : Ctx) (a b : Reg), s.canRun c [a, b] none 1 = true) ∧
    (∃ (s : State) (c : Ctx) (a b : Reg) (m : MMode), s.canRun c [a, b] none 1 = true) ∧
    (∃ (s : State) (c : Ctx) (q : Nat × BitVec 64),
      ((s.vctx c).prods.filter fun p => decide (p.1 ≤ (s.vctx c).cyc)).getLast? = some q) ∧
    (∃ (s : State) (c : Ctx), (∀ p ∈ (s.vctx c).prods, (s.vctx c).cyc < p.1)) ∧
    (∃ (s : State) (c : Ctx) (k : Bool) (a b : Reg) (m : MMode) (r : RMode), s.canRun c [a, b] none 1 = true) ∧
    (∃ (s : State) (c : Ctx) (k : Bool) (a b : Reg) (m : MMode) (r : RMode), s.canRun c [a, b] none 1 = true) ∧
    (∃ (s : State) (c : Ctx) (k : Bool) (a b : Reg) (m : MMode) (r : RMode) (p q : Nat), s.canRun c [a,
      b] none 1 = true ∧ s.vLoad c (s.vctx c).v[a] 4 = some p ∧ s.vLoad c (s.vctx c).v[b] 4 = some q ∧ a ≠ b) ∧
    (∃ (s : State) (c : Ctx) (k : Bool) (a : Reg) (m : MMode) (r : RMode) (p q : Nat), s.canRun c [a, a] none 1 = true ∧
      s.vLoad c (s.vctx c).v[a] 4 = some p ∧ s.vLoad c (s.vctx c).v[a] 4 = some q) ∧
    (∃ (s : State) (c : Ctx) (k : Bool) (a b : Reg) (m : MMode) (r : RMode), s.canRun c [a, b] none 2 = true ∧
      c.kernel = true ∧ s.core[c.core].slot.busy = true ∧
      (s.vLoad c (s.vctx c).v[a] 4 = none ∨ s.vLoad c (s.vctx c).v[b] 4 = none)) ∧
    (∃ (s : State) (c : Ctx) (k : Bool), s.canRun c [] (some (accIdx k)) 1 = true) ∧
    (∃ (s : State) (c : Ctx) (k : Bool) (a : Reg), s.canRun c [a] (some (accIdx k)) 1 = true) ∧
    (∃ (s : State) (c : Ctx) (k : Bool) (d : Reg) (m : MMode) (r : RMode) (sh : BitVec 5),
      s.canRun c [] (some (accIdx k)) 1 = true) ∧
    (∃ (s : State) (c : Ctx) (k : Bool) (d : Reg), s.canRun c [] (some (accIdx k)) 1 = true) ∧
    (∃ (s : State) (c : Ctx) (k : Bool) (r : RMode) (sh : BitVec 5), s.canRun c [] (some (accIdx k)) 1 = true) ∧
    (∃ (s : State) (c : Ctx), s.halted c = true) ∧
    (∃ (s : State) (c : Ctx), s.halted c = false) ∧
    (∃ (s : State) (c : Ctx), s.halted c = false ∧ c.kernel = false) :=
  ⟨⟨upState, ⟨0, false⟩, 1, 2, rfl⟩,
   ⟨upState, ⟨0, false⟩, 1, 2, .follow, rfl⟩,
   ⟨productReady, ⟨0, false⟩, _, rfl⟩,
   ⟨productSoon, ⟨0, false⟩, by decide +kernel⟩,
   ⟨upState, ⟨0, false⟩, true, 1, 2, .follow, .halfUp, rfl⟩,
   ⟨upState, ⟨0, false⟩, true, 1, 2, .follow, .halfUp, rfl⟩,
   ⟨pointing, ⟨0, true⟩, true, 1, 2, .follow, .halfUp, _, _, rfl, rfl, rfl, by decide⟩,
   ⟨pointing, ⟨0, true⟩, true, 1, .follow, .halfUp, _, _, rfl, rfl, rfl⟩,
   ⟨kernelPointing, ⟨0, true⟩, true, 1, 4, .follow, .follow, rfl, rfl, rfl, .inl rfl⟩,
   ⟨upState, ⟨0, false⟩, true, rfl⟩,
   ⟨upState, ⟨0, false⟩, true, 1, rfl⟩,
   ⟨upState, ⟨0, false⟩, true, 1, .follow, .truncate, 3, rfl⟩,
   ⟨upState, ⟨0, false⟩, true, 1, rfl⟩,
   ⟨upState, ⟨0, false⟩, true, .halfEven, 3, rfl⟩,
   ⟨State.reset, ⟨0, false⟩, by decide⟩,
   ⟨kernelLast, ⟨0, true⟩, by decide +kernel⟩,
   ⟨upState, ⟨0, false⟩, by decide +kernel, rfl⟩⟩

theorem witness_SpecialRegisters :
    (∃ (s : State) (c : Ctx) (a : Reg), s.canRun c [a] none 1 = true) ∧
    (∃ (s : State) (c : Ctx) (a : Reg), s.canRun c [a] none 1 = true) ∧
    (∃ (s : State) (c : Ctx) (i : Fin 16) (a : Reg), s.canRun c [a] none 1 = true ∧ (i.val = 2 ∨ i.val = 3 ∨ 13 ≤ i.val)) ∧
    (∃ (s : State) (c : Ctx) (i : Fin 16) (k : Fin 3) (a : Reg), s.canRun c [a] none 1 = true ∧
      (s.vctx c).atEnd = false ∧ 4 ≤ i.val ∧ i.val ≤ 12 ∧ (i.val - 4) / 3 = k.val ∧
      ((s.vctx c).loops[k].active = false ∨ (i.val - 4) % 3 ≠ 1 ∨ (s.vctx c).v[a] ≠ (s.vctx c).pc)) ∧
    (∃ (s : State) (c : Ctx), s.halted c = true) ∧
    (∃ (s : State) (c : Ctx), s.halted c = false) ∧
    (∃ (s : State) (c : Ctx) (d : Reg), s.canRun c [] none 1 = true) ∧
    (∃ (s : State) (c : Ctx) (d : Reg), s.canRun c [] none 1 = true) ∧
    (∃ (s : State) (c : Ctx) (d : Reg), s.canRun c [] none 1 = true ∧ (∀ p ∈ (s.vctx c).prods, (s.vctx c).cyc < p.1)) ∧
    (∃ (s : State) (c : Ctx) (d : Reg), s.canRun c [] none 1 = true ∧ (∀ p ∈ (s.vctx c).prods, (s.vctx c).cyc < p.1)) ∧
    (∃ (s : State) (c : Ctx) (d : Reg) (q : Nat × BitVec 64), s.canRun c [] none 1 = true ∧
      ((s.vctx c).prods.filter fun p => decide (p.1 ≤ (s.vctx c).cyc)).getLast? = some q) ∧
    (∃ (s : State) (c : Ctx) (d : Reg) (q : Nat × BitVec 64), s.canRun c [] none 1 = true ∧
      ((s.vctx c).prods.filter fun p => decide (p.1 ≤ (s.vctx c).cyc)).getLast? = some q) ∧
    (∃ (s : State) (c : Ctx) (d : Reg), s.canRun c [] none 1 = true) ∧
    (∃ (s : State) (c : Ctx) (d : Reg), s.canRun c [] none 1 = true) ∧
    (∃ (s : State) (c : Ctx) (d : Reg), s.canRun c [] none 1 = true) ∧
    (∃ (s : State) (c : Ctx) (d : Reg), s.canRun c [] none 1 = true) ∧
    (∃ (s : State) (c : Ctx) (d : Reg), s.canRun c [] none 1 = true) ∧
    (∃ (s : State) (c : Ctx) (d : Reg), s.canRun c [] none 1 = true) ∧
    (∃ (s : State) (c : Ctx) (d : Reg), s.canRun c [] none 1 = true) ∧
    (∃ (s : State) (c : Ctx) (d : Reg), s.canRun c [] none 1 = true) ∧
    (∃ (s : State) (c : Ctx) (d : Reg), s.canRun c [] none 1 = true) ∧
    (∃ (s : State) (c : Ctx) (d : Reg), s.canRun c [] none 1 = true) ∧
    (∃ (s : State) (c : Ctx) (d : Reg), s.canRun c [] none 1 = true) ∧
    (∃ (s : State) (c : Ctx) (d : Reg), s.canRun c [] none 1 = true) :=
  ⟨⟨upState, ⟨0, false⟩, 1, rfl⟩,
   ⟨upState, ⟨0, false⟩, 1, rfl⟩,
   ⟨upState, ⟨0, false⟩, 2, 1, rfl, by decide⟩,
   ⟨upState, ⟨0, false⟩, 4, 0, 1, rfl, by decide +kernel, by decide, by decide, by decide, Or.inl rfl⟩,
   ⟨State.reset, ⟨0, false⟩, by decide⟩,
   ⟨kernelLast, ⟨0, true⟩, by decide +kernel⟩,
   ⟨upState, ⟨0, false⟩, 1, rfl⟩,
   ⟨upState, ⟨0, false⟩, 1, rfl⟩,
   ⟨productSoon, ⟨0, false⟩, 1, rfl, by decide +kernel⟩,
   ⟨productSoon, ⟨0, false⟩, 1, rfl, by decide +kernel⟩,
   ⟨productReady, ⟨0, false⟩, 1, _, rfl, rfl⟩,
   ⟨productReady, ⟨0, false⟩, 1, _, rfl, rfl⟩,
   ⟨upState, ⟨0, false⟩, 1, rfl⟩,
   ⟨upState, ⟨0, false⟩, 1, rfl⟩,
   ⟨upState, ⟨0, false⟩, 1, rfl⟩,
   ⟨upState, ⟨0, false⟩, 1, rfl⟩,
   ⟨upState, ⟨0, false⟩, 1, rfl⟩,
   ⟨upState, ⟨0, false⟩, 1, rfl⟩,
   ⟨upState, ⟨0, false⟩, 1, rfl⟩,
   ⟨upState, ⟨0, false⟩, 1, rfl⟩,
   ⟨upState, ⟨0, false⟩, 1, rfl⟩,
   ⟨upState, ⟨0, false⟩, 1, rfl⟩,
   ⟨upState, ⟨0, false⟩, 1, rfl⟩,
   ⟨upState, ⟨0, false⟩, 1, rfl⟩⟩

theorem witness_ControlTransfers :
    (∃ (s : State) (c : Ctx) (off : BitVec 26), s.canRun c [] none 3 = true ∧ (s.vctx c).atEnd = false) ∧
    (∃ (s : State) (c : Ctx) (cond : Fin 16) (off : BitVec 18), s.canRun c [] none 3 = true ∧ (s.vctx c).atEnd = false ∧
      condOk cond.val = true ∧ condHolds (s.vctx c).fl cond.val = true) ∧
    (∃ (s : State) (c : Ctx) (cond : Fin 16) (off : BitVec 18), s.canRun c [] none 1 = true ∧ (s.vctx c).atEnd = false ∧
      condOk cond.val = true ∧ condHolds (s.vctx c).fl cond.val = false) ∧
    (∃ (s : State) (c : Ctx) (off : BitVec 26), s.canRun c [] none 3 = true ∧ (s.vctx c).atEnd = false) ∧
    (∃ (s : State) (c : Ctx), s.canRun c [15] none 3 = true ∧ (s.vctx c).atEnd = false) ∧
    (∃ (s : State) (c : Ctx) (k : Fin 3) (count : Count) (endOff : BitVec 11),
      s.canRun c (countReads count) none 1 = true ∧ (s.vctx c).atEnd = false ∧ endOff ≠ 0 ∧
      (s.vctx c).loopOk k ((s.vctx c).pc + BitVec.ofNat 32 (4 * endOff.toNat)) = true ∧
      loopCount (s.vctx c).v count ≠ 0) ∧
    (∃ (s : State) (c : Ctx) (k : Fin 3) (count : Count) (endOff : BitVec 11),
      s.canRun c (countReads count) none 3 = true ∧ (s.vctx c).atEnd = false ∧ endOff ≠ 0 ∧
      (s.vctx c).loopOk k ((s.vctx c).pc + BitVec.ofNat 32 (4 * endOff.toNat)) = true ∧
      loopCount (s.vctx c).v count = 0) ∧
    (∃ (s : State) (c : Ctx) (count : Count), s.canRun c (countReads count) none 1 = true ∧ (s.vctx c).atEnd = false ∧
      controlWord (s.codeWord c ((s.vctx c).pc + 4)) = false ∧ repCount (s.vctx c).v count ≠ 0) ∧
    (∃ (s : State) (c : Ctx) (count : Count), s.canRun c (countReads count) none 1 = true ∧ (s.vctx c).atEnd = false ∧
      controlWord (s.codeWord c ((s.vctx c).pc + 4)) = false ∧ repCount (s.vctx c).v count = 0) ∧
    (∃ (s : State) (c : Ctx) (cond : Fin 16) (off : BitVec 18), s.canRun c [] none 2 = true ∧ c.kernel = true ∧
      s.core[c.core].slot.busy = true ∧ condOk cond.val = false) ∧
    (∃ (s : State) (c : Ctx) (k : Fin 3) (count : Count) (endOff : BitVec 11),
      s.canRun c (countReads count) none 2 = true ∧ c.kernel = true ∧ s.core[c.core].slot.busy = true ∧
      (endOff = 0 ∨ (s.vctx c).loopOk k ((s.vctx c).pc + BitVec.ofNat 32 (4 * endOff.toNat)) = false)) ∧
    (∃ (s : State) (c : Ctx) (count : Count), s.canRun c (countReads count) none 2 = true ∧ c.kernel = true ∧
      s.core[c.core].slot.busy = true ∧ controlWord (s.codeWord c ((s.vctx c).pc + 4)) = true) ∧
    (∃ (s : State) (c : Ctx) (off : BitVec 26), s.canRun c [] none 2 = true ∧ c.kernel = true ∧
      s.core[c.core].slot.busy = true ∧ (s.vctx c).atEnd = true) ∧
    (∃ (s : State) (c : Ctx) (off : BitVec 26), s.canRun c [] none 2 = true ∧ c.kernel = true ∧
      s.core[c.core].slot.busy = true ∧ (s.vctx c).atEnd = true) ∧
    (∃ (s : State) (c : Ctx), s.canRun c [15] none 2 = true ∧ c.kernel = true ∧ s.core[c.core].slot.busy = true ∧
      (s.vctx c).atEnd = true) ∧
    (∃ (s : State) (c : Ctx) (cond : Fin 16) (off : BitVec 18), s.canRun c [] none 2 = true ∧ c.kernel = true ∧
      s.core[c.core].slot.busy = true ∧ (s.vctx c).atEnd = true) ∧
    (∃ (s : State) (c : Ctx) (k : Fin 3) (count : Count) (endOff : BitVec 11),
      s.canRun c (countReads count) none 2 = true ∧ c.kernel = true ∧ s.core[c.core].slot.busy = true ∧
      (s.vctx c).atEnd = true) ∧
    (∃ (s : State) (c : Ctx) (count : Count), s.canRun c (countReads count) none 2 = true ∧ c.kernel = true ∧
      s.core[c.core].slot.busy = true ∧ (s.vctx c).atEnd = true) ∧
    (∃ (s : State) (c : Ctx), s.canRun c [] none 2 = true ∧ c.kernel = true ∧ s.core[c.core].slot.busy = true ∧
      (s.vctx c).atEnd = true) ∧
    (∃ (s : State) (c : Ctx), s.canRun c [] none 2 = true ∧ c.kernel = true ∧ s.core[c.core].slot.busy = true ∧
      (s.vctx c).atEnd = true) ∧
    (∃ (s : State) (c : Ctx), s.halted c = true) ∧
    (∃ (s : State) (c : Ctx), s.halted c = false ∧ c.kernel = false) :=
  ⟨⟨upState, ⟨0, false⟩, 1, by decide +kernel⟩,
   ⟨upState, ⟨0, false⟩, 15, 1, by decide +kernel⟩,
   ⟨upState, ⟨0, false⟩, 0, 1, by decide +kernel⟩,
   ⟨upState, ⟨0, false⟩, 1, by decide +kernel⟩,
   ⟨upState, ⟨0, false⟩, by decide +kernel⟩,
   ⟨upState, ⟨0, false⟩, 0, .imm 2, 1, by decide +kernel⟩,
   ⟨upState, ⟨0, false⟩, 0, .imm 0, 1, by decide +kernel⟩,
   ⟨upState, ⟨0, false⟩, .imm 2, by decide +kernel⟩,
   ⟨upState, ⟨0, false⟩, .imm 0, by decide +kernel⟩,
   ⟨kernelPointing, ⟨0, true⟩, 12, 1, rfl, rfl, rfl, by decide⟩,
   ⟨kernelPointing, ⟨0, true⟩, 0, .imm 1, 0, rfl, rfl, rfl, .inl rfl⟩,
   ⟨repBeforeControl, ⟨0, true⟩, .imm 1, rfl, rfl, rfl, by decide⟩,
   ⟨atLoopEnd, ⟨0, true⟩, 1, rfl, rfl, rfl, by decide +kernel⟩,
   ⟨atLoopEnd, ⟨0, true⟩, 1, rfl, rfl, rfl, by decide +kernel⟩,
   ⟨atLoopEnd, ⟨0, true⟩, rfl, rfl, rfl, by decide +kernel⟩,
   ⟨atLoopEnd, ⟨0, true⟩, 0, 1, rfl, rfl, rfl, by decide +kernel⟩,
   ⟨atLoopEnd, ⟨0, true⟩, 1, .imm 2, 1, rfl, rfl, rfl, by decide +kernel⟩,
   ⟨atLoopEnd, ⟨0, true⟩, .imm 2, rfl, rfl, rfl, by decide +kernel⟩,
   ⟨atLoopEnd, ⟨0, true⟩, rfl, rfl, rfl, by decide +kernel⟩,
   ⟨atLoopEnd, ⟨0, true⟩, rfl, rfl, rfl, by decide +kernel⟩,
   ⟨State.reset, ⟨0, false⟩, by decide⟩,
   ⟨upState, ⟨0, false⟩, by decide +kernel, rfl⟩⟩

theorem witness_ServicesYieldAndWait :
    (∃ (s : State) (c : Ctx), s.canRun c [] none 4 = true ∧ (s.vctx c).atEnd = false) ∧
    (∃ (s : State) (c : Ctx), s.canRun c [] none 4 = true ∧ (s.vctx c).atEnd = false ∧ s.core[c.core].slot.busy = true ∧
      s.core[c.core].slot.st = .staged) ∧
    (∃ (s : State) (c : Ctx), s.canRun c [] none 4 = true ∧ (s.vctx c).atEnd = false ∧ s.core[c.core].slot.st ≠ .staged) ∧
    (∃ (s : State) (c : Ctx), s.halted c = false ∧ c.kernel = true ∧ (s.vctx c).atEnd = false ∧
      s.core[c.core].slot.busy = true ∧ s.core[c.core].slot.st = .staged ∧
      s.core[c.core].slot.initCharge + 1 < 1000000) ∧
    (∃ (s : State) (c : Ctx), s.canRun c [] none 1 = true ∧ c.kernel = false ∧ (s.vctx c).atEnd = false) ∧
    (∃ (s : State) (c : Ctx), s.canRun c [] none 2 = true ∧ c.kernel = true ∧ s.core[c.core].slot.busy = true) ∧
    (∃ (s : State) (c : Ctx) (w : Word), s.canRun c [] none 2 = true ∧ c.kernel = true ∧
      s.core[c.core].slot.busy = true ∧ illegalIn c w = true) ∧
    (∃ (s : State) (c : Ctx) (w : Word), (illegalIn c w = false ∨ s.halted c = true)) ∧
    (∃ (s : State) (c : Ctx) (k : PlatId) (w : Word), s.canRun c [] none 2 = true ∧ c = ⟨coreOf k, false⟩ ∧
      illegalIn c w = true) ∧
    (∃ (s : State) (c : Ctx), s.halted c = true) ∧
    (∃ (s : State) (c : Ctx), s.halted c = false ∧ c.kernel = true) ∧
    (∃ (s : State) (c : Ctx), s.halted c = false ∧ c.kernel = false) :=
  ⟨⟨upState, ⟨0, false⟩, by decide +kernel⟩,
   ⟨kernelInit, ⟨0, true⟩, by decide +kernel⟩,
   ⟨kernelPointing, ⟨0, true⟩, by decide +kernel⟩,
   ⟨kernelInit, ⟨0, true⟩, by decide +kernel⟩,
   ⟨upState, ⟨0, false⟩, by decide +kernel⟩,
   ⟨kernelPointing, ⟨0, true⟩, rfl, rfl, rfl⟩,
   ⟨kernelPointing, ⟨0, true⟩, 0xC8000000, rfl, rfl, rfl, by decide⟩,
   ⟨upState, ⟨0, false⟩, 0, Or.inl (by decide)⟩,
   ⟨upState, ⟨0, false⟩, 0, 0xC4000000, rfl, rfl, by decide⟩,
   ⟨State.reset, ⟨0, false⟩, by decide⟩,
   ⟨kernelLast, ⟨0, true⟩, by decide +kernel, rfl⟩,
   ⟨upState, ⟨0, false⟩, by decide +kernel, rfl⟩⟩

end Sys2Proof.Tests
end

section
/-! Proofs: every command answers a next state (O4); the reading opcodes (O39); LOCAL, NET and the lane (O45). -/

namespace Sys2Proof.Machine

/-! ### What a command leaves alone, over the whole dispatch -/

/-- The commands that can change a memory that power-down keeps: the end of a page program (R540), IMAGE_WRITE (R567), and
the beginning of a command that waited, which may be IMAGE_WRITE. -/
def writesNvMems : Instr → Bool
  | .pageProgramDone _ | .imageWrite _ | .commandBegin => true
  | _ => false

/-- One arm per command, in the order of `exec`: each family's own frame lemma. -/
theorem exec_goes (s : State) : ∀ c : Instr, writesNvMems c = false → Goes s (exec c s)
  | .preRegulatorStart .., _ => execPreRegulatorStart_fixed ..
  | .preRegulatorReset, _ => execPreRegulatorReset_fixed ..
  | .hvSupplyLoss, _ => execHvSupplyLoss_fixed ..
  | .vcpReady .., _ => execVcpReady_fixed ..
  | .vcpFault .., _ => execVcpFault_fixed ..
  | .logicDieRelease .., _ => execLogicDieRelease_fixed ..
  | .logicSupplyReset .., _ => execLogicSupplyReset_fixed ..
  | .resetN .., _ => execResetN_fixed ..
  | .sbWatchdog, _ => execSbWatchdog_fixed ..
  | .platformWatchdog .., _ => execPlatformWatchdog_fixed ..
  | .linkSilence, _ => execLinkSilence_fixed ..
  | .linkReturn, _ => execLinkReturn_fixed ..
  | .holdOverLimit .., _ => execHoldOverLimit_fixed ..
  | .takeBack .., _ => execTakeBack_fixed ..
  | .restartBegin, _ => execRestartBegin_fixed ..
  | .restartAbandoned, _ => execRestartAbandoned_fixed ..
  | .cadTick .., _ => execCadTick_fixed ..
  | .generatedTick .., _ => execGeneratedTick_fixed ..
  | .frmMarker .., _ => execFrmMarker_fixed ..
  | .slewEnd, _ => execSlewEnd_fixed ..
  | .cadAbsent, _ => execCadAbsent_fixed ..
  | .cadOutOfTolerance .., _ => execCadOutOfTolerance_fixed ..
  | .cadQualified .., _ => execCadQualified_fixed ..
  | .frmAbsent, _ => execFrmAbsent_fixed ..
  | .crystalLost, _ => execCrystalLost_fixed ..
  | .superframeStart, _ => execSuperframeStart_fixed ..
  | .frmCapRead, _ => execFrmCapRead_fixed ..
  | .slotLatch .., _ => execSlotLatch_fixed ..
  | .slotChange .., _ => execSlotChange_fixed ..
  | .channelMatch .., _ => execChannelMatch_fixed ..
  | .channelWrap .., _ => execChannelWrap_fixed ..
  | .chnCtrlWrite .., _ => execChnCtrlWrite_fixed ..
  | .ttGo .., _ => execTtGo_fixed ..
  | .ttCancel .., _ => execTtCancel_fixed ..
  | .hsBookingRequest, _ => execHsBookingRequest_fixed ..
  | .ttCfgWrite .., _ => execTtCfgWrite_fixed ..
  | .pathGrant .., _ => execPathGrant_fixed ..
  | .setGrant .., _ => execSetGrant_fixed ..
  | .rampGrant .., _ => execRampGrant_fixed ..
  | .roleGrant .., _ => execRoleGrant_fixed ..
  | .calGrant .., _ => execCalGrant_fixed ..
  | .sinkGrant .., _ => execSinkGrant_fixed ..
  | .reserveGrant .., _ => execReserveGrant_fixed ..
  | .inrushSegment, _ => execInrushSegment_fixed ..
  | .qualifyTime .., _ => execQualifyTime_fixed ..
  | .phaseExit, _ => execPhaseExit_fixed ..
  | .phTo, _ => execPhTo_fixed ..
  | .inrushDone .., _ => execInrushDone_fixed ..
  | .pgQ .., _ => execPgQ_fixed ..
  | .bpFastTrip .., _ => execBpFastTrip_fixed ..
  | .breakerFault .., _ => execBreakerFault_fixed ..
  | .inrTo, _ => execInrTo_fixed ..
  | .bpReverseTrip .., _ => execBpReverseTrip_fixed ..
  | .feedLost .., _ => execFeedLost_fixed ..
  | .feedReturn .., _ => execFeedReturn_fixed ..
  | .holdTExpiry, _ => execHoldTExpiry_fixed ..
  | .retryTExpiry, _ => execRetryTExpiry_fixed ..
  | .retryCntClear, _ => execRetryCntClear_fixed ..
  | .warnNAssert .., _ => execWarnNAssert_fixed ..
  | .warnNRelease .., _ => execWarnNRelease_fixed ..
  | .sagSuspend .., _ => execSagSuspend_fixed ..
  | .sagClear, _ => execSagClear_fixed ..
  | .historyCopy, _ => execHistoryCopy_fixed ..
  | .sqStart, _ => execSqStart_fixed ..
  | .sqRaise, _ => execSqRaise_fixed ..
  | .sqEnableRise .., _ => execSqEnableRise_fixed ..
  | .sqPgFilter .., _ => execSqPgFilter_fixed ..
  | .railQualify .., _ => execRailQualify_fixed ..
  | .upToExpiry .., _ => execUpToExpiry_fixed ..
  | .sqFeedAlloff, _ => execSqFeedAlloff_fixed ..
  | .sqPeerAlloff, _ => execSqPeerAlloff_fixed ..
  | .sqRailFault .., _ => execSqRailFault_fixed ..
  | .sqCinFall, _ => execSqCinFall_fixed ..
  | .sqCinRise, _ => execSqCinRise_fixed ..
  | .sqRetiRise, _ => execSqRetiRise_fixed ..
  | .retToExpiry, _ => execRetToExpiry_fixed ..
  | .disToExpiry .., _ => execDisToExpiry_fixed ..
  | .alloffPulseEnd, _ => execAlloffPulseEnd_fixed ..
  | .aoDelayExpiry, _ => execAoDelayExpiry_fixed ..
  | .downRestart, _ => execDownRestart_fixed ..
  | .aoCntClear, _ => execAoCntClear_fixed ..
  | .sqFaultNArm, _ => execSqFaultNArm_fixed ..
  | .sqHostShutdown, _ => execSqHostShutdown_fixed ..
  | .portOpen .., _ => execPortOpen_fixed ..
  | .converterStartCheck .., _ => execConverterStartCheck_fixed ..
  | .ccDetect .., _ => execCcDetect_fixed ..
  | .tccdebounce .., _ => execTccdebounce_fixed ..
  | .tpddebounce .., _ => execTpddebounce_fixed ..
  | .ttryccdebounce .., _ => execTtryccdebounce_fixed ..
  | .tdrptry .., _ => execTdrptry_fixed ..
  | .ttrytimeout .., _ => execTtrytimeout_fixed ..
  | .tsrcdisconnect .., _ => execTsrcdisconnect_fixed ..
  | .vbusLoss .., _ => execVbusLoss_fixed ..
  | .vbusPresent .., _ => execVbusPresent_fixed ..
  | .vbusSafe0v .., _ => execVbusSafe0v_fixed ..
  | .terrorrecovery .., _ => execTerrorrecovery_fixed ..
  | .tSrcEnd .., _ => execTSrcEnd_fixed ..
  | .comparatorBlankEnd .., _ => execComparatorBlankEnd_fixed ..
  | .dacReadback .., _ => execDacReadback_fixed ..
  | .sinkThresholdStep .., _ => execSinkThresholdStep_fixed ..
  | .rpLevelChange .., _ => execRpLevelChange_fixed ..
  | .pathBookingRetry .., _ => execPathBookingRetry_fixed ..
  | .pathGrantLimit .., _ => execPathGrantLimit_fixed ..
  | .vconnOc .., _ => execVconnOc_fixed ..
  | .closingDone .., _ => execClosingDone_fixed ..
  | .closeFail .., _ => execCloseFail_fixed ..
  | .cpgLost .., _ => execCpgLost_fixed ..
  | .portFastTrip .., _ => execPortFastTrip_fixed ..
  | .portReverseTrip .., _ => execPortReverseTrip_fixed ..
  | .i2tTrip .., _ => execI2tTrip_fixed ..
  | .sketchComplete .., _ => execSketchComplete_fixed ..
  | .rpairEstimate .., _ => execRpairEstimate_fixed ..
  | .thermalLimitRemove .., _ => execThermalLimitRemove_fixed ..
  | .calResult .., _ => execCalResult_fixed ..
  | .ftCodeTakeover .., _ => execFtCodeTakeover_fixed ..
  | .dischargeEnd .., _ => execDischargeEnd_fixed ..
  | .dischargeTimeout .., _ => execDischargeTimeout_fixed ..
  | .retryExpiry .., _ => execRetryExpiry_fixed ..
  | .trimLoop .., _ => execTrimLoop_fixed ..
  | .trimSet .., _ => execTrimSet_fixed ..
  | .hardwareTestFail .., _ => execHardwareTestFail_fixed ..
  | .pdMessage .., _ => execPdMessage_fixed ..
  | .goodcrc .., _ => execGoodcrc_fixed ..
  | .transmitRequest .., _ => execTransmitRequest_fixed ..
  | .lineIdle .., _ => execLineIdle_fixed ..
  | .treceive .., _ => execTreceive_fixed ..
  | .tsinktx .., _ => execTsinktx_fixed ..
  | .sinktxokSample .., _ => execSinktxokSample_fixed ..
  | .sinktxDiscard .., _ => execSinktxDiscard_fixed ..
  | .chunkRequest .., _ => execChunkRequest_fixed ..
  | .chunkTimer .., _ => execChunkTimer_fixed ..
  | .hardResetSend .., _ => execHardResetSend_fixed ..
  | .hardResetReceived .., _ => execHardResetReceived_fixed ..
  | .tpshardreset .., _ => execTpshardreset_fixed ..
  | .tsrcrecover .., _ => execTsrcrecover_fixed ..
  | .sinkVbusWait .., _ => execSinkVbusWait_fixed ..
  | .tnoresponse .., _ => execTnoresponse_fixed ..
  | .cableReset .., _ => execCableReset_fixed ..
  | .cableResetReceived n, _ => execCableResetReceived_fixed n s
  | .softReset .., _ => execSoftReset_fixed ..
  | .eprKeepalive .., _ => execEprKeepalive_fixed ..
  | .eprKeepaliveSend .., _ => execEprKeepaliveSend_fixed ..
  | .notSupportedRequest .., _ => execNotSupportedRequest_fixed ..
  | .getCapabilities .., _ => execGetCapabilities_fixed ..
  | .getSinkCapSend .., _ => execGetSinkCapSend_fixed ..
  | .discoverIdentityUfp .., _ => execDiscoverIdentityUfp_fixed ..
  | .discoverIdentityCable .., _ => execDiscoverIdentityCable_fixed ..
  | .request .., _ => execRequest_fixed ..
  | .eprModeEnter .., _ => execEprModeEnter_fixed ..
  | .sourceCapabilities .., _ => execSourceCapabilities_fixed ..
  | .capabilitiesSend .., _ => execCapabilitiesSend_fixed ..
  | .offerRiseCaps .., _ => execOfferRiseCaps_fixed ..
  | .psRdy .., _ => execPsRdy_fixed ..
  | .accept .., _ => execAccept_fixed ..
  | .swapAnswer .., _ => execSwapAnswer_fixed ..
  | .prSwap .., _ => execPrSwap_fixed ..
  | .drSwap .., _ => execDrSwap_fixed ..
  | .vconnSwap .., _ => execVconnSwap_fixed ..
  | .frSwap .., _ => execFrSwap_fixed ..
  | .attention .., _ => execAttention_fixed ..
  | .vdmAck .., _ => execVdmAck_fixed ..
  | .policyTimer .., _ => execPolicyTimer_fixed ..
  | .transitionCheck .., _ => execTransitionCheck_fixed ..
  | .convFail .., _ => execConvFail_fixed ..
  | .shedTimeout .., _ => execShedTimeout_fixed ..
  | .regenStop .., _ => execRegenStop_fixed ..
  | .regenRebook, _ => execRegenRebook_fixed ..
  | .sinkPartialRebook .., _ => execSinkPartialRebook_fixed ..
  | .sinkStopRetry .., _ => execSinkStopRetry_fixed ..
  | .swapStart .., _ => execSwapStart_fixed ..
  | .turntableTimeout .., _ => execTurntableTimeout_fixed ..
  | .prSwapRoleTimeout .., _ => execPrSwapRoleTimeout_fixed ..
  | .vconnSourceReached .., _ => execVconnSourceReached_fixed ..
  | .vconnSwapFail .., _ => execVconnSwapFail_fixed ..
  | .frSwapWait .., _ => execFrSwapWait_fixed ..
  | .frsSignal .., _ => execFrsSignal_fixed ..
  | .frsNosig .., _ => execFrsNosig_fixed ..
  | .frsStandbyDetach .., _ => execFrsStandbyDetach_fixed ..
  | .discoveryStart .., _ => execDiscoveryStart_fixed ..
  | .scriptStart, _ => execScriptStart_fixed ..
  | .scriptWrite .., _ => execScriptWrite_fixed ..
  | .scriptDelay, _ => execScriptDelay_fixed ..
  | .scriptWriteRetry .., _ => execScriptWriteRetry_fixed ..
  | .arbitrationLoss ownAddress, _ => execArbitrationLoss_fixed ownAddress s
  | .auxBusStuck .., _ => execAuxBusStuck_fixed ..
  | .vdmTimeout .., _ => execVdmTimeout_fixed ..
  | .housekeepingScan .., _ => execHousekeepingScan_fixed ..
  | .enSnap .., _ => execEnSnap_fixed ..
  | .frameAssembly .., _ => execFrameAssembly_fixed ..
  | .laneFrameBoundary, _ => execLaneFrameBoundary_fixed ..
  | .linkUp, _ => execLinkUp_fixed ..
  | .linkDown, _ => execLinkDown_fixed ..
  | .arpRequest .., _ => execArpRequest_fixed ..
  | .netFrame .., _ => execNetFrame_fixed ..
  | .frameDiscard f, _ => execFrameDiscard_fixed f s
  | .filterInvocation .., _ => execFilterInvocation_fixed ..
  | .kernelBudget .., _ => execKernelBudget_fixed ..
  | .twoWireWrite .., _ => execTwoWireWrite_fixed ..
  | .twoWireRead .., _ => execTwoWireRead_fixed ..
  | .alertResponse .., _ => execAlertResponse_fixed ..
  | .twoWireTimeout .., _ => execTwoWireTimeout_fixed ..
  | .send .., _ => execSend_fixed ..
  | .rplDone .., _ => execRplDone_fixed ..
  | .evtDone .., _ => execEvtDone_fixed ..
  | .status, _ => execStatus_fixed ..
  | .localSend .., _ => execLocalSend_fixed ..
  | .readReply .., _ => execReadReply_fixed ..
  | .readEvent .., _ => execReadEvent_fixed ..
  | .overflow .., _ => execOverflow_fixed ..
  | .storeProgramStart .., _ => execStoreProgramStart_fixed ..
  | .programAbandon, _ => execProgramAbandon_fixed ..
  | .uncorrectableRecall, _ => execUncorrectableRecall_fixed ..
  | .scrubPage .., _ => execScrubPage_fixed ..
  | .scrubDue, _ => execScrubDue_fixed ..
  | .hourlySave, _ => execHourlySave_fixed ..
  | .ssnSave, _ => execSsnSave_fixed ..
  | .lifeHour .., _ => execLifeHour_fixed ..
  | .verifyDone, _ => execVerifyDone_fixed ..
  | .registerWrite .., _ => execRegisterWrite_fixed ..
  | .identity .., _ => execIdentity_fixed ..
  | .claim .., _ => execClaim_fixed ..
  | .release .., _ => execRelease_fixed ..
  | .claimBreak .., _ => execClaimBreak_fixed ..
  | .subscribe .., _ => execSubscribe_fixed ..
  | .restart .., _ => execRestart_fixed ..
  | .readRegs .., _ => execReadRegs_fixed ..
  | .writeRegs .., _ => execWriteRegs_fixed ..
  | .swap .., _ => execSwap_fixed ..
  | .altMode .., _ => execAltMode_fixed ..
  | .pathClear .., _ => execPathClear_fixed ..
  | .readTime .., _ => execReadTime_fixed ..
  | .setEpoch .., _ => execSetEpoch_fixed ..
  | .readChannel .., _ => execReadChannel_fixed ..
  | .readEntries .., _ => execReadEntries_fixed ..
  | .storeInfo .., _ => execStoreInfo_fixed ..
  | .paletteRead .., _ => execPaletteRead_fixed ..
  | .paletteWrite .., _ => execPaletteWrite_fixed ..
  | .userRead .., _ => execUserRead_fixed ..
  | .userWrite .., _ => execUserWrite_fixed ..
  | .userProtect .., _ => execUserProtect_fixed ..
  | .scrub .., _ => execScrub_fixed ..
  | .wearReset .., _ => execWearReset_fixed ..
  | .format .., _ => execFormat_fixed ..
  | .energySnapshot .., _ => execEnergySnapshot_fixed ..
  | .hkRead .., _ => execHkRead_fixed ..
  | .sketchList .., _ => execSketchList_fixed ..
  | .sketchRead .., _ => execSketchRead_fixed ..
  | .sketchPush .., _ => execSketchPush_fixed ..
  | .sketchTrigger .., _ => execSketchTrigger_fixed ..
  | .sketchRelease .., _ => execSketchRelease_fixed ..
  | .seqClear .., _ => execSeqClear_fixed ..
  | .seqShutdown .., _ => execSeqShutdown_fixed ..
  | .kernelList .., _ => execKernelList_fixed ..
  | .kernelWrite .., _ => execKernelWrite_fixed ..
  | .kernelStart .., _ => execKernelStart_fixed ..
  | .kernelUnload .., _ => execKernelUnload_fixed ..
  | .imageInfo .., _ => execImageInfo_fixed ..
  | .imageVerify .., _ => execImageVerify_fixed ..
  | .bankSelect .., _ => execBankSelect_fixed ..
  | .rollbackAdvance .., _ => execRollbackAdvance_fixed ..
  | .healthStatus .., _ => execHealthStatus_fixed ..
  | .logRead .., _ => execLogRead_fixed ..
  | .logClear .., _ => execLogClear_fixed ..
  | .selftest .., _ => execSelftest_fixed ..
  | .odometerRead .., _ => execOdometerRead_fixed ..
  | .nop .., _ => execNop_fixed ..
  | .add .., _ => execAdd_fixed ..
  | .sub .., _ => execSub_fixed ..
  | .neg .., _ => execNeg_fixed ..
  | .abs .., _ => execAbs_fixed ..
  | .min .., _ => execMin_fixed ..
  | .max .., _ => execMax_fixed ..
  | .cmp .., _ => execCmp_fixed ..
  | .and .., _ => execAnd_fixed ..
  | .or .., _ => execOr_fixed ..
  | .xor .., _ => execXor_fixed ..
  | .shl .., _ => execShl_fixed ..
  | .shr .., _ => execShr_fixed ..
  | .shrl .., _ => execShrl_fixed ..
  | .shli .., _ => execShli_fixed ..
  | .shri .., _ => execShri_fixed ..
  | .shrli .., _ => execShrli_fixed ..
  | .mov .., _ => execMov_fixed ..
  | .div .., _ => execDiv_fixed ..
  | .idiv .., _ => execIdiv_fixed ..
  | .addi .., _ => execAddi_fixed ..
  | .andi .., _ => execAndi_fixed ..
  | .ori .., _ => execOri_fixed ..
  | .lui .., _ => execLui_fixed ..
  | .ld .., _ => execLd_fixed ..
  | .st .., _ => execSt_fixed ..
  | .ldh .., _ => execLdh_fixed ..
  | .sth .., _ => execSth_fixed ..
  | .mul .., _ => execMul_fixed ..
  | .fmul .., _ => execFmul_fixed ..
  | .productWrite .., _ => execProductWrite_fixed ..
  | .mac .., _ => execMac_fixed ..
  | .msu .., _ => execMsu_fixed ..
  | .aclr .., _ => execAclr_fixed ..
  | .accl .., _ => execAccl_fixed ..
  | .accs .., _ => execAccs_fixed ..
  | .accx .., _ => execAccx_fixed ..
  | .accsh .., _ => execAccsh_fixed ..
  | .mvs .., _ => execMvs_fixed ..
  | .smv .., _ => execSmv_fixed ..
  | .macm .., _ => execMacm_fixed ..
  | .b .., _ => execB_fixed ..
  | .call .., _ => execCall_fixed ..
  | .ret .., _ => execRet_fixed ..
  | .bc .., _ => execBc_fixed ..
  | .loop .., _ => execLoop_fixed ..
  | .rep .., _ => execRep_fixed ..
  | .ttRead .., _ => execTtRead_fixed ..
  | .budget .., _ => execBudget_fixed ..
  | .yield .., _ => execYield_fixed ..
  | .wait .., _ => execWait_fixed ..
  | .ldp .., _ => execLdp_fixed ..
  | .primerCompletion .., _ => execPrimerCompletion_fixed ..
  | .serviceLevelChange .., _ => execServiceLevelChange_fixed ..
  | .vconnPresentChange .., _ => execVconnPresentChange_fixed ..
  | .converterPowerGood .., _ => execConverterPowerGood_fixed ..
  | .dischargeAssistEnd n mv, _ => execDischargeAssistEnd_fixed n mv s
  | .breakerRegulation .., _ => execBreakerRegulation_fixed ..
  | .railDischarged .., _ => execRailDischarged_fixed ..
  | .newSourceVbusReady .., _ => execNewSourceVbusReady_fixed ..
  | .frsSignalEnd .., _ => execFrsSignalEnd_fixed ..
  | .busFree .., _ => execBusFree_fixed ..
  | .bookingRetry .., _ => execBookingRetry_fixed ..
  | .selftestDone .., _ => execSelftestDone_fixed ..
  | .rollbackAdvanceDone, _ => execRollbackAdvanceDone_fixed ..
  | .sampleInstant .., _ => execSampleInstant_fixed ..
  | .illegalInstruction .., _ => execIllegalInstruction_fixed ..
  | .pageProgramDone _, h | .imageWrite _, h | .commandBegin, h => nomatch h

/-! ### Every command answers a next state -/

theorem Goes.completes {s : State} {o : Host.Outcome State Fault Refusal} (h : Goes s o) : ∃ t, o = .next t :=
  h.imp fun _ ht => ht.1

theorem execPageProgramDone_completes (verified : Bool) (s : State) : ∃ t, execPageProgramDone verified s = .next t := by
  unfold execPageProgramDone
  split <;> exact ⟨_, rfl⟩

/-- The rows outside `exec_goes` answer `.next` of a state whatever their conditions say (log entry 18). -/
theorem exec_completes (c : Instr) (s : State) : ∃ t, exec c s = .next t := by
  cases hw : writesNvMems c with
  | false => exact (exec_goes s c hw).completes
  | true =>
    cases c with
    | pageProgramDone verified => exact execPageProgramDone_completes verified s
    | imageWrite p => exact ⟨_, rfl⟩
    | commandBegin => exact ⟨_, rfl⟩
    | _ => nomatch hw

theorem State.goesOn_eq_true (s : State) : s.goesOn = true := by
  unfold State.goesOn step
  cases s.pending with
  | nil => rfl
  | cons c rest =>
    obtain ⟨t, ht⟩ := exec_completes c { s with pending := rest }
    simp only [ht]

/-- Settles O4, by the frame lemma of each command and the three rows that write a kept memory. -/
theorem everyCommandCompletes : Obligations.EveryCommandCompletes :=
  ⟨exec_completes, State.goesOn_eq_true⟩

/-! ### LOG_READ counts the groups it corrects (R545) -/

theorem execLogRead_fixes (s : State) (p : Packet) (hturn : s.turn 0x0801 p) (hcheck : s.coreCheck 0x0801 p = none)
    (hjudge : judgeLogRead s p = none) :
    ∃ t, exec (.logRead p) s = .next t ∧
      t.store.fixes = s.store.fixes + ((s.logReads p).flatMap fun pg => groupsIn s.store.weak pg 0 256).length := by
  obtain ⟨_, hrow⟩ := row_turn 0x0801 judgeLogRead effLogRead p s hturn hcheck hjudge
  exact ⟨_, hrow, rfl⟩

theorem State.reads_fixes {s t : State} {p : Packet} {op : BitVec 16} {result : List Byte} (h : s.reads t p op result) :
    t.store.fixes = s.store.fixes := by
  obtain ⟨-, hsame, -⟩ := h
  rw [hsame]

/-- LOG_READ from INDEX 0, sent by host port MA with tag 1. -/
def logReadPacket : Packet := { host := .ma, tag := 1, flags := 0x40, target := 0xFFFF, payload := [0, 0, 0, 0] }

/-- Page 128 of the Log holds one entry, and its group 0 is known to read corrected; LOG_READ stands at the front of the
inbox. -/
def correctedLogState : State :=
  { State.reset with
    sup := { Supplies.reset with hvUp := true, logicUp := true, linkSilent := false, primer := .done }
    core := Vector.replicate 5 { VCore.reset with up := true }
    host := State.reset.host.set HostPort.ma.ix { HostFe.reset with held := [1] }
    inbox := [⟨0x0801, logReadPacket, 0⟩]
    store := { State.reset.store with
      log := [(128, 0, [{ index := 0, ssn := 0, ct := 0, code := 0x0880, source := 0xFFFF, first4 := [0, 0, 0, 0] }])]
      logIndex := 1
      weak := [(128, 0)] } }

theorem correctedLogState_turn : correctedLogState.turn 0x0801 logReadPacket := by
  refine ⟨rfl, rfl, rfl, ?_, ?_⟩ <;> decide

theorem correctedLogState_coreCheck : correctedLogState.coreCheck 0x0801 logReadPacket = none := by decide

theorem correctedLogState_judge : judgeLogRead correctedLogState logReadPacket = none := by decide

theorem correctedLogState_corrects :
    ((correctedLogState.logReads logReadPacket).flatMap fun pg => groupsIn correctedLogState.store.weak pg 0 256).length = 1 := by
  decide

/-- Refutes O39: a LOG_READ that passes every check and reads a page with a corrected group counts the correction (R545), so
it changes the store beside the inbox, its tag and its replies. -/
theorem not_stationReads : ¬ Obligations.StationReads := by
  unfold Obligations.StationReads
  rintro ⟨-, -, -, -, -, -, -, -, -, -, -, -, -, hlog, -⟩
  obtain ⟨t, ht, hreads⟩ := hlog correctedLogState logReadPacket correctedLogState_turn correctedLogState_coreCheck
  obtain ⟨t', ht', hfixes⟩ := execLogRead_fixes correctedLogState logReadPacket correctedLogState_turn
    correctedLogState_coreCheck correctedLogState_judge
  obtain rfl : t = t' := Host.Outcome.next.inj (ht.symm.trans ht')
  rw [State.reads_fixes hreads, correctedLogState_corrects] at hfixes
  omega

/-! ### LS_IRQ_N and an event of the present tick (R422, R471; log entry 25) -/

/-- While the oldest event of a host port is one of the present tick, none can be read. -/
theorem State.settled_nil_of_present {s : State} {h : HostPort} {e : Event} {q : List Event}
    (hq : s.host[h.ix].events = e :: q) (he : (s.ssn - e.ssn).toNat ≤ s.seqTick.length) : s.settled h = [] := by
  unfold State.settled
  rw [hq, List.takeWhile_cons_of_neg (by simpa using he)]

theorem State.lsIrqN_eq_false {s : State} (hreplies : s.host[HostPort.ls.ix].replies = []) (hevents : s.settled .ls = []) :
    s.lsIrqN = false := by
  simp [State.lsIrqN, State.rplRdy, State.evtRdy, hreplies, hevents, b2n, -Fin.getElem_fin]

/-- OVERFLOW of one dropped event, numbered 0. -/
def overflowEvent : Event :=
  { code := 0x0182, ssn := 0, ct := 0, source := tgtStation, flags := 0, tag := 0xFF,
    payload := leBytes 4 1 ++ leBytes 4 0 ++ leBytes 4 0 }

/-- The tick in which OVERFLOW has come to LOCAL's empty queue: the sequencer has numbered it, and the tick has not ended. -/
def overflowTickState : State :=
  { State.reset with
    sup := { Supplies.reset with hvUp := true, logicUp := true, linkSilent := false, primer := .done }
    core := Vector.replicate 5 { VCore.reset with up := true }
    ssn := 1
    seqTick := [31]
    host := State.reset.host.set HostPort.ls.ix { HostFe.reset with events := [overflowEvent] } }

theorem overflowTickState_events : overflowTickState.host[HostPort.ls.ix].events = [overflowEvent] := rfl

theorem overflowTickState_hostOn : overflowTickState.hostOn .ls = true := by decide

theorem overflowTickState_lsIrqN : overflowTickState.lsIrqN = false :=
  State.lsIrqN_eq_false rfl (State.settled_nil_of_present overflowTickState_events (by decide))

/-- Refutes O45: LS_IRQ_N follows EVT_RDY (R471), which counts the events of ended ticks alone (log entry 25), so an event of
the present tick lies in LOCAL's queue with the pin released. -/
theorem not_localNetAndLane : ¬ Obligations.LocalNetAndLane := by
  unfold Obligations.LocalNetAndLane
  rintro ⟨-, -, -, -, -, -, -, -, -, -, -, -, -, -, -, -, -, -, -, hirq, -⟩
  have hasserted : overflowTickState.lsIrqN = true :=
    ((hirq overflowTickState).1 overflowTickState_hostOn).mpr
      (.inr (by simp [overflowTickState_events, -Fin.getElem_fin]))
  exact absurd (hasserted.symm.trans overflowTickState_lsIrqN) (by decide)

end Sys2Proof.Machine
end

section
/-! Proofs: requests of a sink (O27); the commands whose effects reach furthest (O60). -/

namespace Sys2Proof.Machine

/-! ### EPR capabilities of a Revision 2.0 partner (R264) -/

/-- At Revision 2.0 the port uses no EPR: EPR_Source_Capabilities are answered Reject, whatever the port's role. -/
theorem execSourceCapabilities_rejects {s u : State} {n : PortId} {m : PdMsg} {eng : Bool}
    (htake : s.takeMsg n isCaps = some (m, eng, u)) (hrev : u.port[n].pd.ctx[0].rev = 0b01)
    (hepr : isEprCaps m.body = true) :
    exec (.sourceCapabilities n) s = .next (u.sendMsg n .sop .reject false) := by
  show execSourceCapabilities n s = _
  simp [execSourceCapabilities, htake, hrev, hepr, -Fin.getElem_fin]

theorem State.sendMsg_partnerObjs (s : State) (n : PortId) (ty : Sop) (body : PdBody) (ams : Bool) :
    (s.sendMsg n ty body ams).port[n].pd.partnerObjs = s.port[n].pd.partnerObjs := by
  simp [State.sendMsg, -Fin.getElem_fin]

/-- EPR_Source_Capabilities with 5 V, 3 A as their one object. -/
def eprCapsMessage : PdMsg :=
  { sop := .sop, id := 0, rev := 0b01, body := .eprSourceCaps ⟨false, false, false, false, false⟩ [.fixed 5000 300],
    len := 0, chunk := none }

/-- Port 0 is a sink without a contract, its partner of Revision 2.0, with `queue` received. -/
def rev2SinkState (queue : List PdMsg) : State :=
  { State.reset with
    core := Vector.replicate 5 { VCore.reset with up := true }
    port := State.reset.port.set 0
      { Port.reset with
        tc := { TypeC.reset with st := .attSnk }
        pd := { Pd.reset with ctx := Pd.reset.ctx.set 0 { Context.reset with rev := 0b01 }, rxq := queue } } }

theorem rev2SinkState_takeMsg :
    (rev2SinkState [eprCapsMessage]).takeMsg 0 isCaps = some (eprCapsMessage, false, rev2SinkState []) := by
  rfl

/-- Refutes O27: a sink whose partner is of Revision 2.0 answers EPR_Source_Capabilities with Reject (R264), so it neither
keeps their objects nor hands over a Request. -/
theorem not_sinkContracts : ¬ Obligations.SinkContracts := by
  unfold Obligations.SinkContracts
  rintro ⟨hcaps, -⟩
  obtain ⟨t, ht, hkept, -⟩ := hcaps (rev2SinkState [eprCapsMessage]) (rev2SinkState []) 0 eprCapsMessage _
    rev2SinkState_takeMsg rfl rfl rfl
  obtain rfl : t = (rev2SinkState []).sendMsg 0 .sop .reject false :=
    Host.Outcome.next.inj (ht.symm.trans (execSourceCapabilities_rejects rev2SinkState_takeMsg rfl rfl))
  rw [State.sendMsg_partnerObjs] at hkept
  exact absurd hkept (by decide)

/-! ### A ROLE booking refused under WARN_N (R122, R226) -/

/-- WARN_N is asserted. Port 0, which sources VCONN, books the ROLE of its swap to source again, and port 1 waits for VCONN. -/
def refusedRoleState : State :=
  { State.reset with
    core := Vector.replicate 5 { VCore.reset with up := true }
    hs := { State.reset.hs with warn := true }
    port := (State.reset.port.set 0
      { Port.reset with
        tc := { TypeC.reset with st := .attSnk, vconnOn := true }
        rs := { Swap.reset with code := .prSnkSrc, step := .rise, retry := true } }).set 1
      { Port.reset with tc := { TypeC.reset with st := .attSrc, vconnWait := true } } }

/-- The refusal takes port 0 to ERR_RECOV, and the VCONN it releases goes to port 1. -/
theorem refusedRoleState_bookingRetry :
    ∃ t, exec (.bookingRetry 0) refusedRoleState = .next t ∧ t.port[(1 : PortId)].tc.vconnOn = true :=
  ⟨_, rfl, by decide +kernel⟩

theorem refusedRoleState_vconnOn : refusedRoleState.port[(1 : PortId)].tc.vconnOn = false := by decide

/-- Refutes O60: BOOKING_RETRY of a port whose ROLE is refused under WARN_N ends in ERR_RECOV (R122) and releases VCONN,
which the Platform's next waiting port receives (R226), so a port other than its own changes. -/
theorem not_framesOfDeepEffects : ¬ Obligations.FramesOfDeepEffects := by
  unfold Obligations.FramesOfDeepEffects framesOfDeepEffects6
  rintro ⟨-, -, -, -, -, ⟨-, hretry, -⟩, -⟩
  obtain ⟨t, ht, -, -, hothers⟩ := hretry 0 refusedRoleState
  obtain ⟨t', ht', hvconn⟩ := refusedRoleState_bookingRetry
  obtain rfl : t = t' := Host.Outcome.next.inj (ht.symm.trans ht')
  rw [hothers 1 (by decide), refusedRoleState_vconnOn] at hvconn
  exact absurd hvconn (by decide)

end Sys2Proof.Machine
end

section
/-! SUPPORT. What the rows of the link and of the take-back leave of hold-over alone (R13, R26 to R29). -/

namespace Sys2Proof.Machine

/-! ### What hold-over consists of -/

/-- The hold-over of the ports with the failures kept for core SB, the silence of the link, and the port each take-back of a
Platform in fallback has come to. -/
def State.holdOver (s : State) : Vector (Bool × Option (Fin 6 × CT)) 24 × Bool × Vector (Option Nat) 4 :=
  (s.port.map fun p => (p.hold, p.failDue), s.sup.linkSilent, s.plat.map Platform.takeBack)

theorem State.holdOver_hold {s t : State} (h : t.holdOver = s.holdOver) (n : PortId) : t.port[n].hold = s.port[n].hold := by
  obtain ⟨hport, -⟩ := Prod.mk.inj h
  have hn := congrArg (fun v : Vector (Bool × Option (Fin 6 × CT)) 24 => v[n].1) hport
  simpa using hn

theorem State.holdOver_failDue {s t : State} (h : t.holdOver = s.holdOver) (n : PortId) :
    t.port[n].failDue = s.port[n].failDue := by
  obtain ⟨hport, -⟩ := Prod.mk.inj h
  have hn := congrArg (fun v : Vector (Bool × Option (Fin 6 × CT)) 24 => v[n].2) hport
  simpa using hn

theorem State.holdOver_linkSilent {s t : State} (h : t.holdOver = s.holdOver) : t.sup.linkSilent = s.sup.linkSilent := by
  obtain ⟨-, hrest⟩ := Prod.mk.inj h
  exact (Prod.mk.inj hrest).1

theorem State.holdOver_takeBack {s t : State} (h : t.holdOver = s.holdOver) (k : PlatId) :
    t.plat[k].takeBack = s.plat[k].takeBack := by
  obtain ⟨-, hrest⟩ := Prod.mk.inj h
  have hk := congrArg (fun v : Vector (Option Nat) 4 => v[k]) (Prod.mk.inj hrest).2
  simpa using hk

@[simp] theorem State.holdOver_mk
    x_fuse x_sup x_time x_chan x_tt x_hs x_sq x_port x_plat x_core x_sidx x_phase x_snapCt x_snapPh x_stamps x_firsts
    x_sfHeld x_trips x_sketches x_hk x_host x_tw x_loc x_net x_inbox x_waiting x_active x_claim x_ssn x_resume x_seqTick
    x_setFail x_bg x_store x_bankA x_bankB x_verify x_advance x_points x_health x_pending x_fresh : State.holdOver ⟨x_fuse,
    x_sup, x_time, x_chan, x_tt, x_hs, x_sq, x_port, x_plat, x_core, x_sidx, x_phase, x_snapCt, x_snapPh, x_stamps,
    x_firsts, x_sfHeld, x_trips, x_sketches, x_hk, x_host, x_tw, x_loc, x_net, x_inbox, x_waiting, x_active, x_claim, x_ssn,
    x_resume, x_seqTick, x_setFail, x_bg, x_store, x_bankA, x_bankB, x_verify, x_advance, x_points, x_health, x_pending,
    x_fresh⟩ =
  (x_port.map fun p => (p.hold, p.failDue), x_sup.linkSilent, x_plat.map Platform.takeBack) := rfl

@[simp] theorem State.holdOver_fold (s : State) :
    (s.port.map fun p => (p.hold, p.failDue), s.sup.linkSilent, s.plat.map Platform.takeBack) = s.holdOver := rfl

theorem Vector.map_set_of_eq {α β : Type} {n : Nat} (g : α → β) (v : Vector α n) (i : Fin n) (x : α) (h : g x = g v[i]) :
    (v.set i x).map g = v.map g := by
  ext j hj
  by_cases hij : i.val = j
  · subst hij; simpa using h
  · simp [hij]

@[simp] theorem State.modPort_holdOver (s : State) (n : PortId) (f : Port → Port) (hhold : (f s.port[n]).hold = s.port[n].hold)
    (hfail : (f s.port[n]).failDue = s.port[n].failDue) : (s.modPort n f).holdOver = s.holdOver := by
  show (((s.port.set n (f s.port[n])).map fun p => (p.hold, p.failDue)), _) = _
  rw [Vector.map_set_of_eq (h := by rw [hhold, hfail])]
  rfl

@[simp] theorem State.modPlat_holdOver (s : State) (k : PlatId) (f : Platform → Platform)
    (h : (f s.plat[k]).takeBack = s.plat[k].takeBack) : (s.modPlat k f).holdOver = s.holdOver := by
  show (_, _, (s.plat.set k (f s.plat[k])).map Platform.takeBack) = _
  rw [Vector.map_set_of_eq (h := h)]
  rfl

@[simp] theorem State.foldl_holdOver {α : Type} (f : State → α → State) (h : ∀ s a, (f s a).holdOver = s.holdOver)
    (l : List α) (s : State) : (l.foldl f s).holdOver = s.holdOver :=
  List.foldlRecOn (motive := fun t => t.holdOver = s.holdOver) l f rfl fun t ht a _ => (h t a).trans ht

@[simp] theorem State.forPorts_holdOver (s : State) (f : PortId → State → State) (h : ∀ n s, (f n s).holdOver = s.holdOver) :
    (s.forPorts f).holdOver = s.holdOver :=
  State.foldl_holdOver _ (fun s n => h n s) allPorts s

@[simp] theorem Port.freshAttach_hold (p : Port) : p.freshAttach.hold = p.hold := rfl
@[simp] theorem Port.freshAttach_failDue (p : Port) : p.freshAttach.failDue = p.failDue := rfl

@[simp] theorem State.modChan_holdOver (s : State) (c : Fin 128) (f : Channel → Channel) : (s.modChan c f).holdOver = s.holdOver := by
  simp [State.modChan]

@[simp] theorem State.modCore_holdOver (s : State) (c : CoreId) (f : VCore → VCore) : (s.modCore c f).holdOver = s.holdOver := by
  simp [State.modCore]

@[simp] theorem State.modTc_holdOver (s : State) (n : PortId) (f : TypeC → TypeC) : (s.modTc n f).holdOver = s.holdOver :=
  State.modPort_holdOver s n _ rfl rfl

@[simp] theorem State.modPp_holdOver (s : State) (n : PortId) (f : Path → Path) : (s.modPp n f).holdOver = s.holdOver :=
  State.modPort_holdOver s n _ rfl rfl

@[simp] theorem State.modPd_holdOver (s : State) (n : PortId) (f : Pd → Pd) : (s.modPd n f).holdOver = s.holdOver :=
  State.modPort_holdOver s n _ rfl rfl

@[simp] theorem State.modCt_holdOver (s : State) (n : PortId) (f : Contract → Contract) : (s.modCt n f).holdOver = s.holdOver :=
  State.modPort_holdOver s n _ rfl rfl

@[simp] theorem State.modRs_holdOver (s : State) (n : PortId) (f : Swap → Swap) : (s.modRs n f).holdOver = s.holdOver :=
  State.modPort_holdOver s n _ rfl rfl

@[simp] theorem State.modAlt_holdOver (s : State) (n : PortId) (f : Alt → Alt) : (s.modAlt n f).holdOver = s.holdOver :=
  State.modPort_holdOver s n _ rfl rfl

@[simp] theorem State.modMs_holdOver (s : State) (n : PortId) (f : Measure → Measure) : (s.modMs n f).holdOver = s.holdOver :=
  State.modPort_holdOver s n _ rfl rfl

@[simp] theorem State.requestPage_holdOver (s : State) (r : PageReq) : (s.requestPage r).holdOver = s.holdOver := by
  simp [State.requestPage]

@[simp] theorem State.programOpenPage_holdOver (s : State) : s.programOpenPage.holdOver = s.holdOver := by
  simp [State.programOpenPage]

@[simp] theorem State.logAdd_holdOver (s : State) (e : Event) : (s.logAdd e).holdOver = s.holdOver := by
  simp only [State.logAdd]
  split <;> simp

@[simp] theorem State.emitFull_holdOver (s : State) (code source : BitVec 16) (payload : List Byte) (ct : CT) (hist : Bool) : (s.emitFull code source payload ct hist).holdOver = s.holdOver := by
  simp only [State.emitFull]
  split <;> simp

@[simp] theorem State.emit_holdOver (s : State) (code source : BitVec 16) (payload : List Byte) : (s.emit code source payload).holdOver = s.holdOver := by
  simp [State.emit]

@[simp] theorem State.emitSt_holdOver (s : State) (code : BitVec 16) (payload : List Byte) : (s.emitSt code payload).holdOver = s.holdOver := by
  simp [State.emitSt]

@[simp] theorem State.raiseHealth_holdOver (s : State) (cause unit detail : Nat) (value : Nat) : (s.raiseHealth cause unit detail value).holdOver = s.holdOver := by
  simp only [State.raiseHealth]
  split <;> simp

@[simp] theorem State.modHost_holdOver (s : State) (h : HostPort) (f : HostFe → HostFe) : (s.modHost h f).holdOver = s.holdOver := by
  simp [State.modHost]

@[simp] theorem State.complete_holdOver (s : State) (r : CmdRef) (st : BitVec 16) (result : List Byte) : (s.complete r st result).holdOver = s.holdOver := by
  simp only [State.complete]
  split <;> simp

@[simp] theorem State.completeOpt_holdOver (s : State) (r : Option CmdRef) (st : BitVec 16) (result : List Byte) : (s.completeOpt r st result).holdOver = s.holdOver := by
  simp only [State.completeOpt]
  split <;> simp

@[simp] theorem State.sketchPlace_holdOver (s : State) (x : Sketch) : (s.sketchPlace x).1.holdOver = s.holdOver := by
  simp only [State.sketchPlace]
  split <;> simp

@[simp] theorem State.holdTrigger_holdOver (s : State) (n : PortId) (c : Cause) : (s.holdTrigger n c).holdOver = s.holdOver := by
  simp only [State.holdTrigger]
  (repeat' split) <;> simp

@[simp] theorem State.sketchTrigger_holdOver (s : State) (n : PortId) (c : Cause) : (s.sketchTrigger n c).holdOver = s.holdOver := by
  unfold State.sketchTrigger
  (repeat' split) <;> simp

@[simp] theorem State.settleOne_holdOver (s : State) (x : Fin 256 × Nat) : (s.settleOne x).holdOver = s.holdOver := by
  unfold State.settleOne
  (repeat' split) <;> simp

@[simp] theorem State.resettle_holdOver (s : State) : s.resettle.holdOver = s.holdOver := by
  simp [State.resettle]

@[simp] theorem State.book_holdOver (s : State) (a : Asker) (b : Booking) : (s.book a b).1.holdOver = s.holdOver := by
  simp only [State.book]
  (repeat' split) <;> simp

@[simp] theorem State.bookPort_holdOver (s : State) (n : PortId) (k : Kind) (dur : Nat) (req : Option CT) (step : Int) (inc : Nat) : (s.bookPort n k dur req step inc).1.holdOver = s.holdOver := by
  simp [State.bookPort]

@[simp] theorem State.cancelWhere_holdOver (s : State) (p : Entry → Bool) : (s.cancelWhere p).holdOver = s.holdOver := by
  simp [State.cancelWhere]

@[simp] theorem State.cancelPort_holdOver (s : State) (n : PortId) : (s.cancelPort n).holdOver = s.holdOver := by
  simp [State.cancelPort]

@[simp] theorem State.cancelEntry_holdOver (s : State) (n : PortId) (i : Option (Fin 256)) : (s.cancelEntry n i).holdOver = s.holdOver := by
  unfold State.cancelEntry
  (repeat' split) <;> simp

@[simp] theorem State.shedEvent_holdOver (s : State) (phase : Nat) : (s.shedEvent phase).holdOver = s.holdOver := by
  simp [State.shedEvent]

@[simp] theorem State.shedEnd_holdOver (s : State) : s.shedEnd.holdOver = s.holdOver := by
  simp only [State.shedEnd]
  split <;> simp

@[simp] theorem State.typecEvent_holdOver (s : State) (n : PortId) : (s.typecEvent n).holdOver = s.holdOver := by
  simp [State.typecEvent]

@[simp] theorem State.pathEvent_holdOver (s : State) (n : PortId) (reason cause : Nat) : (s.pathEvent n reason cause).holdOver = s.holdOver := by
  simp [State.pathEvent]

@[simp] theorem State.contractEvent_holdOver (s : State) (n : PortId) (reason : Nat) : (s.contractEvent n reason).holdOver = s.holdOver := by
  simp [State.contractEvent]

@[simp] theorem State.altEvent_holdOver (s : State) (n : PortId) (reason : Nat) : (s.altEvent n reason).holdOver = s.holdOver := by
  simp [State.altEvent]

@[simp] theorem State.sendMsg_holdOver (s : State) (n : PortId) (ty : Sop) (body : PdBody) (ams : Bool) : (s.sendMsg n ty body ams).holdOver = s.holdOver := by
  simp [State.sendMsg]

@[simp] theorem State.askHr_holdOver (s : State) (n : PortId) : (s.askHr n).holdOver = s.holdOver := by
  simp [State.askHr]

@[simp] theorem State.openPath_holdOver (s : State) (n : PortId) (disch trip prot : Bool) : (s.openPath n disch trip prot).holdOver = s.holdOver := by
  simp only [State.openPath]
  split <;> simp

@[simp] theorem State.lockoffCheck_holdOver (s : State) (n : PortId) : (s.lockoffCheck n).holdOver = s.holdOver := by
  simp only [State.lockoffCheck]
  split
  · split
    · simp only [State.holdOver_mk, State.holdOver_fold, State.modPp_holdOver]
    · simp
  · rfl

@[simp] theorem State.endContract_holdOver (s : State) (n : PortId) : (s.endContract n).holdOver = s.holdOver := by
  simp only [State.endContract]
  split <;> simp

@[simp] theorem State.planAbort_holdOver (s : State) (n : PortId) : (s.planAbort n).holdOver = s.holdOver := by
  simp only [State.planAbort]
  split <;> simp

@[simp] theorem State.queueScript_holdOver (s : State) (n : PortId) (ev : BitVec 4) : (s.queueScript n ev).holdOver = s.holdOver := by
  simp only [State.queueScript]
  split <;> simp

@[simp] theorem State.reqScript_holdOver (s : State) (n : PortId) (ev : BitVec 4) : (s.reqScript n ev).holdOver = s.holdOver := by
  simp [State.reqScript, apply_ite State.holdOver]

@[simp] theorem State.exitRun_holdOver (s : State) (n : PortId) : (s.exitRun n).holdOver = s.holdOver := by
  simp only [State.exitRun]
  split <;> simp

@[simp] theorem State.dropScripts_holdOver (s : State) (n : PortId) (stop all : Bool) : (s.dropScripts n stop all).holdOver = s.holdOver := by
  simp [State.dropScripts]

@[simp] theorem State.altComplete_holdOver (s : State) (n : PortId) : (s.altComplete n).holdOver = s.holdOver := by
  simp [State.altComplete]

@[simp] theorem State.modeEnd_holdOver (s : State) (n : PortId) : (s.modeEnd n).holdOver = s.holdOver := by
  simp only [State.modeEnd]
  split <;> simp

@[simp] theorem State.altDetach_holdOver (s : State) (n : PortId) : (s.altDetach n).holdOver = s.holdOver := by
  simp only [State.altDetach]
  split <;> simp

@[simp] theorem State.amsEnd_holdOver (s : State) (n : PortId) : (s.amsEnd n).holdOver = s.holdOver := by
  simp [State.amsEnd]

@[simp] theorem State.swapEndWith_holdOver (s : State) (n : PortId) (result : Nat) (st : BitVec 16) : (s.swapEndWith n result st).holdOver = s.holdOver := by
  simp [State.swapEndWith, apply_ite State.holdOver]

@[simp] theorem State.swapEnd_holdOver (s : State) (n : PortId) (result : Nat) : (s.swapEnd n result).holdOver = s.holdOver := by
  simp [State.swapEnd]

@[simp] theorem State.vconnApply_holdOver (s : State) (n : PortId) : (s.vconnApply n).holdOver = s.holdOver := by
  simp [State.vconnApply]

@[simp] theorem State.vconnAttach_holdOver (s : State) (n : PortId) : (s.vconnAttach n).holdOver = s.holdOver := by
  simp [State.vconnAttach]

@[simp] theorem State.eprNoVconn_holdOver (s : State) (n : PortId) : (s.eprNoVconn n).holdOver = s.holdOver := by
  simp only [State.eprNoVconn]
  split <;> simp

@[simp] theorem State.vconnRelease_holdOver (s : State) (n : PortId) : (s.vconnRelease n).holdOver = s.holdOver := by
  simp only [State.vconnRelease]
  (repeat' split) <;> simp

@[simp] theorem State.load5_holdOver (s : State) (n : PortId) : (s.load5 n).holdOver = s.holdOver := by
  simp [State.load5]

@[simp] theorem State.bookPath_holdOver (s : State) (n : PortId) : (s.bookPath n).holdOver = s.holdOver := by
  simp [State.bookPath, apply_ite State.holdOver]

@[simp] theorem State.enterUnatt_holdOver (s : State) (n : PortId) (dest : TcState) : (s.enterUnatt n dest).holdOver = s.holdOver := by
  simp only [State.enterUnatt]
  split <;> simp

@[simp] theorem State.toUnatt_holdOver (s : State) (n : PortId) (snk : Bool) : (s.toUnatt n snk).holdOver = s.holdOver := by
  simp [State.toUnatt]

@[simp] theorem State.toUnattHome_holdOver (s : State) (n : PortId) : (s.toUnattHome n).holdOver = s.holdOver := by
  simp [State.toUnattHome]

@[simp] theorem State.enterAttached_holdOver (s : State) (n : PortId) (st : TcState) (o : Orient) (pt : Partner) (ra : Bool) : (s.enterAttached n st o pt ra).holdOver = s.holdOver := by
  simp only [State.enterAttached]
  split <;> simp

@[simp] theorem State.errRecov_holdOver (s : State) (n : PortId) : (s.errRecov n).holdOver = s.holdOver := by
  simp only [State.errRecov]
  split <;> simp

@[simp] theorem State.swapFail_holdOver (s : State) (n : PortId) : (s.swapFail n).holdOver = s.holdOver := by
  simp only [State.swapFail]
  split <;> simp

@[simp] theorem State.disablePort_holdOver (s : State) (n : PortId) : (s.disablePort n).holdOver = s.holdOver := by
  simp only [State.disablePort]
  split <;> simp

@[simp] theorem State.tripConsequence_holdOver (s : State) (n : PortId) : (s.tripConsequence n).holdOver = s.holdOver := by
  simp [State.tripConsequence, apply_ite State.holdOver]

@[simp] theorem State.retryCount_holdOver (s : State) (n : PortId) : (s.retryCount n).holdOver = s.holdOver := by
  simp [State.retryCount]

@[simp] theorem State.tripRank_holdOver (s : State) (n : PortId) (c : Cause) : (s.tripRank n c).holdOver = s.holdOver := by
  simp only [State.tripRank]
  split
  · rw [State.holdOver_mk, Vector.map_set_of_eq (h := by rfl)]
    rfl
  · rfl

@[simp] theorem State.trip_holdOver (s : State) (n : PortId) (c : Cause) : (s.trip n c).holdOver = s.holdOver := by
  simp only [State.trip]
  split
  · simp
  · split
    · simp only [State.tripConsequence_holdOver, State.lockoffCheck_holdOver, State.holdOver_mk, State.holdOver_fold]
      simp
    · rfl

@[simp] theorem State.slotReport_holdOver (s : State) : s.slotReport.holdOver = s.holdOver := by
  simp only [State.slotReport]
  split <;> simp

@[simp] theorem State.program_holdOver (s : State) (ch : Fin 128) (p n : Nat) : (s.program ch p n).holdOver = s.holdOver := by
  simp [State.program]

@[simp] theorem State.programPolicy_holdOver (s : State) (k : PlatId) : (s.programPolicy k).holdOver = s.holdOver := by
  simp [State.programPolicy]

@[simp] theorem State.programPort_holdOver (s : State) (n : PortId) : (s.programPort n).holdOver = s.holdOver := by
  simp [State.programPort]

@[simp] theorem State.hsReport_holdOver (s : State) : s.hsReport.holdOver = s.holdOver := by
  simp [State.hsReport, apply_ite State.holdOver]

@[simp] theorem State.claimSet_holdOver (s : State) (n : PortId) (new : Option HostPort) (cause : Nat) : (s.claimSet n new cause).holdOver = s.holdOver := by
  simp only [State.claimSet]
  split <;> simp

@[simp] theorem State.testHealth_holdOver (s : State) (n : PortId) (test : Nat) (ct : CT) : (s.testHealth n test ct).holdOver = s.holdOver := by
  simp [State.testHealth]

@[simp] theorem State.retireCmds_holdOver (s : State) (n : PortId) : (s.retireCmds n).holdOver = s.holdOver := by
  simp [State.retireCmds]

@[simp] theorem State.retire_holdOver (s : State) (n : PortId) (test : Nat) (ct : CT) : (s.retire n test ct).holdOver = s.holdOver := by
  simp [State.retire]

@[simp] theorem State.openBook_holdOver (s : State) (n : PortId) : (s.openBook n).holdOver = s.holdOver := by
  simp [State.openBook]

@[simp] theorem State.portOpen_holdOver (s : State) (n : PortId) : (s.portOpen n).holdOver = s.holdOver := by
  simp [State.portOpen]

@[simp] theorem State.enterTry_holdOver (s : State) (n : PortId) (st : TcState) (o : Orient) : (s.enterTry n st o).holdOver = s.holdOver := by
  simp [State.enterTry]

@[simp] theorem State.toAttSrc_holdOver (s : State) (n : PortId) (a b : CcRead) : (s.toAttSrc n a b).holdOver = s.holdOver := by
  simp [State.toAttSrc]

@[simp] theorem State.toAttSnk_holdOver (s : State) (n : PortId) (a b : CcRead) : (s.toAttSnk n a b).holdOver = s.holdOver := by
  simp [State.toAttSnk]

@[simp] theorem State.toAudio_holdOver (s : State) (n : PortId) : (s.toAudio n).holdOver = s.holdOver := by
  simp [State.toAudio]

@[simp] theorem State.waitVbus_holdOver (s : State) (n : PortId) : (s.waitVbus n).holdOver = s.holdOver := by
  simp [State.waitVbus]

@[simp] theorem State.ccDecide_holdOver (s : State) (n : PortId) (a b : CcRead) (vbus : Nat) : (s.ccDecide n a b vbus).holdOver = s.holdOver := by
  simp only [State.ccDecide]
  (repeat' split) <;> simp

@[simp] theorem State.tryDecide_holdOver (s : State) (n : PortId) (a b : CcRead) (vbus : Nat) : (s.tryDecide n a b vbus).holdOver = s.holdOver := by
  simp only [State.tryDecide]
  (repeat' split) <;> simp

@[simp] theorem State.setCc_holdOver (s : State) (n : PortId) (a b : CcRead) : (s.setCc n a b).holdOver = s.holdOver := by
  simp [State.setCc]

@[simp] theorem State.tryEnd_holdOver (s : State) (n : PortId) : (s.tryEnd n).holdOver = s.holdOver := by
  simp only [State.tryEnd]
  (repeat' split) <;> simp

@[simp] theorem State.heldDecide_holdOver (s : State) (n : PortId) (cc1 cc2 vbus : Nat) : (s.heldDecide n cc1 cc2 vbus).holdOver = s.holdOver := by
  simp only [State.heldDecide]
  (repeat' split) <;> simp

@[simp] theorem State.openRetry_holdOver (s : State) (n : PortId) : (s.openRetry n).holdOver = s.holdOver := by
  simp only [State.openRetry]
  split <;> simp

@[simp] theorem State.capsSend_holdOver (s : State) (n : PortId) (op : Nat) : (s.capsSend n op).holdOver = s.holdOver := by
  simp only [State.capsSend, State.sendMsg_holdOver, State.holdOver_mk, State.holdOver_fold]
  simp

@[simp] theorem State.policyBegin_holdOver (s : State) : s.policyBegin.holdOver = s.holdOver := by
  simp only [State.policyBegin]
  split <;> simp

@[simp] theorem State.policyAsk_holdOver (s : State) (what : PolicyAsk) : (s.policyAsk what).holdOver = s.holdOver := by
  simp only [State.policyAsk]
  split <;> simp

@[simp] theorem State.offerSend_holdOver (s : State) (n : PortId) : (s.offerSend n).holdOver = s.holdOver := by
  simp only [State.offerSend]
  split <;> simp

@[simp] theorem State.thermalSet_holdOver (s : State) (n : PortId) : (s.thermalSet n).holdOver = s.holdOver := by
  simp [State.thermalSet, apply_ite State.holdOver]

@[simp] theorem State.eprFinish_holdOver (s : State) (n : PortId) : (s.eprFinish n).holdOver = s.holdOver := by
  simp [State.eprFinish, apply_ite State.holdOver]

@[simp] theorem State.thermJudge_holdOver (s : State) (n : PortId) : (s.thermJudge n).holdOver = s.holdOver := by
  simp only [State.thermJudge]
  (repeat' split) <;> simp

@[simp] theorem State.calApply_holdOver (s : State) (n : PortId) (r : Rat) : (s.calApply n r).holdOver = s.holdOver := by
  simp [State.calApply]

@[simp] theorem State.calReports_holdOver (s : State) (n : PortId) : (s.calReports n).holdOver = s.holdOver := by
  simp [State.calReports, apply_ite State.holdOver]

theorem State.bookPort_granted_holdOver {s t : State} {n : PortId} {k : Kind} {dur : Nat} {req : Option CT} {step : Int}
    {inc : Nat} {b : Booked} (h : s.bookPort n k dur req step inc = (t, b)) : t.holdOver = s.holdOver := by
  rw [← State.bookPort_holdOver s n k dur req step inc, h]

@[simp] theorem State.standbyTry_holdOver (s : State) (n : PortId) : (s.standbyTry n).holdOver = s.holdOver := by
  unfold State.standbyTry
  split
  · split
    · next t _ _ _ hbook => simp [State.bookPort_granted_holdOver hbook]
    · rfl
  · rfl

@[simp] theorem State.vdmSend_holdOver (s : State) (n : PortId) (step : AltStep) (c : VdmCmd) (svid : BitVec 16) (arg : Nat) : (s.vdmSend n step c svid arg).holdOver = s.holdOver := by
  simp [State.vdmSend]

@[simp] theorem State.altIdle_holdOver (s : State) (n : PortId) : (s.altIdle n).holdOver = s.holdOver := by
  simp [State.altIdle]

@[simp] theorem State.entryDecide_holdOver (s : State) (n : PortId) : (s.entryDecide n).holdOver = s.holdOver := by
  simp [State.entryDecide, apply_ite State.holdOver]

@[simp] theorem State.enterFailed_holdOver (s : State) (n : PortId) : (s.enterFailed n).holdOver = s.holdOver := by
  simp [State.enterFailed]

@[simp] theorem State.modeExit_holdOver (s : State) (n : PortId) : (s.modeExit n).holdOver = s.holdOver := by
  simp only [State.modeExit]
  split <;> simp

@[simp] theorem State.altLeave_holdOver (s : State) (n : PortId) : (s.altLeave n).holdOver = s.holdOver := by
  unfold State.altLeave
  (repeat' split) <;> simp

@[simp] theorem State.altRecheck_holdOver (s : State) (n : PortId) : (s.altRecheck n).holdOver = s.holdOver := by
  simp [State.altRecheck, apply_ite State.holdOver]

@[simp] theorem State.vdmNone_holdOver (s : State) (n : PortId) : (s.vdmNone n).holdOver = s.holdOver := by
  simp only [State.vdmNone]
  split <;> simp

@[simp] theorem State.modCtx_holdOver (s : State) (n : PortId) (ty : Sop) (f : Context → Context) : (s.modCtx n ty f).holdOver = s.holdOver := by
  simp [State.modCtx]

@[simp] theorem State.notSent_holdOver (s : State) (n : PortId) (m : OutMsg) (failed : Bool) : (s.notSent n m failed).holdOver = s.holdOver := by
  simp only [State.notSent]
  (repeat' split) <;> simp

@[simp] theorem State.coreTakes_holdOver (s : State) (n : PortId) (m : PdMsg) : (s.coreTakes n m).holdOver = s.holdOver := by
  unfold State.coreTakes
  (repeat' split) <;> simp

@[simp] theorem State.softCore_holdOver (s : State) (n : PortId) : (s.softCore n).holdOver = s.holdOver := by
  simp only [State.softCore]
  split <;> simp

@[simp] theorem State.detachRun_holdOver (s : State) (n : PortId) : (s.detachRun n).holdOver = s.holdOver := by
  simp only [State.detachRun]
  split <;> simp

@[simp] theorem State.readReport_holdOver (n : PortId) (s : State) (ty : Sop) : (State.readReport n s ty).holdOver = s.holdOver := by
  unfold State.readReport
  (repeat' split) <;> simp

@[simp] theorem State.readQueue_holdOver (n : PortId) (s : State) : (State.readQueue n s).holdOver = s.holdOver := by
  simp [State.readQueue]

end Sys2Proof.Machine
end

section
/-! PROOFS. The die-to-die link, the limit of hold-over and the take-back (O8). -/

namespace Sys2Proof.Machine

@[simp] theorem State.backCommon_holdOver (s : State) (n : PortId) (c1 c2 vbus : Nat) :
    (s.backCommon n c1 c2 vbus).holdOver = s.holdOver := by
  simp only [State.backCommon]
  (repeat' split) <;> simp

@[simp] theorem State.backCore_holdOver (s : State) (n : PortId) : (s.backCore n).holdOver = s.holdOver := by
  simp only [State.backCore]
  (repeat' split) <;> simp

@[simp] theorem State.heldCopy_holdOver (s : State) (k : PlatId) : (s.heldCopy k).holdOver = s.holdOver := by
  unfold State.heldCopy
  split <;> simp

/-! ### Entering hold-over -/

/-- What holds of the start and is kept at every port holds once all ports have been visited. -/
theorem State.forPorts_keeps {P : State → Prop} {f : PortId → State → State} (hkeep : ∀ n s, P s → P (f n s)) {s : State}
    (hs : P s) : P (s.forPorts f) :=
  List.foldlRecOn allPorts _ hs fun t ht n _ => hkeep n t ht

/-- What a visit brings about for its port, and no visit ends, holds of every port at the end. -/
theorem State.forPorts_reaches {Q : PortId → State → Prop} {f : PortId → State → State} (hvisit : ∀ n s, Q n (f n s))
    (hkeep : ∀ m n s, Q m s → Q m (f n s)) (s : State) (m : PortId) : Q m (s.forPorts f) := by
  obtain ⟨l, r, hlr⟩ := List.append_of_mem (List.mem_finRange m)
  have hsplit : s.forPorts f = r.foldl (fun s n => f n s) (f m (l.foldl (fun s n => f n s) s)) := by
    unfold State.forPorts allPorts
    rw [hlr, List.foldl_append, List.foldl_cons]
  rw [hsplit]
  exact List.foldlRecOn r _ (hvisit m _) fun t ht n _ => hkeep m n t ht

theorem Port.enterHold_hold (p : Port) : p.enterHold.hold = true := by
  unfold Port.enterHold
  split
  · assumption
  · rfl

theorem Port.enterHold_ct (p : Port) : p.enterHold.ct = p.ct := by
  unfold Port.enterHold
  split <;> rfl

theorem Port.enterHold_pp (p : Port) : p.enterHold.pp = p.pp := by
  unfold Port.enterHold
  split <;> rfl

theorem Port.enterHold_tc_st (p : Port) : p.enterHold.tc.st = p.tc.st := by
  unfold Port.enterHold
  split
  · rfl
  · dsimp only
    split <;> rfl

/-- The visit of one port by the entry to hold-over. -/
def State.holdVisit (ks : PlatId → Bool) (n : PortId) (s : State) : State :=
  if bit s.fuse.present n && ks (platOf n) then s.modPort n Port.enterHold else s

/-- Between the two states no supply, fuse, contract, path or attachment differs. -/
def State.attachKept (s t : State) : Prop :=
  t.sup = s.sup ∧ t.fuse = s.fuse ∧
  ∀ n : PortId, t.port[n].ct = s.port[n].ct ∧ t.port[n].pp = s.port[n].pp ∧ t.port[n].tc.st = s.port[n].tc.st

theorem State.holdVisit_attachKept {ks : PlatId → Bool} {n : PortId} {s t : State} (h : s.attachKept t) :
    s.attachKept (State.holdVisit ks n t) := by
  unfold State.holdVisit
  split
  · obtain ⟨hsup, hfuse, hport⟩ := h
    refine ⟨hsup, hfuse, fun m => ?_⟩
    by_cases hnm : n = m
    · subst hnm
      simp only [State.modPort_same, Port.enterHold_ct, Port.enterHold_pp, Port.enterHold_tc_st]
      exact hport n
    · rw [State.modPort_other _ _ _ _ hnm]
      exact hport m
  · exact h

/-- A populated port is in hold-over once it has been visited, and no visit ends that. -/
theorem State.holdVisits_hold {ks : PlatId → Bool} {s : State} {n : PortId} (hn : bit s.fuse.present n = true)
    (hk : ks (platOf n) = true) : (s.forPorts (State.holdVisit ks)).port[n].hold = true := by
  have hfuse (m : PortId) (t : State) : (State.holdVisit ks m t).fuse = t.fuse := by
    unfold State.holdVisit
    split <;> rfl
  refine State.forPorts_reaches (Q := fun n t => bit t.fuse.present n = true → ks (platOf n) = true → t.port[n].hold = true)
    (fun n t hn hk => ?_) (fun m n t hm hp hk => ?_) s n ?_ hk
  · rw [hfuse] at hn
    simp [State.holdVisit, hn, hk, Port.enterHold_hold, -Fin.getElem_fin]
  · rw [hfuse] at hp
    unfold State.holdVisit
    split
    · by_cases hnm : n = m
      · subst hnm
        rw [State.modPort_same, Port.enterHold_hold]
      · rw [State.modPort_other _ _ _ _ hnm]
        exact hm hp hk
    · exact hm hp hk
  · exact (State.forPorts_keeps (P := fun t => t.fuse = s.fuse) (fun m t ht => (hfuse m t).trans ht) rfl).symm ▸ hn

/-- The second pass of the entry to hold-over marks Platforms only. -/
theorem State.holdEnter_marks (s : State) (ks : PlatId → Bool) (hrun : s.sup.runFlag = true) :
    (s.holdEnter ks).sup = (s.forPorts (State.holdVisit ks)).sup ∧
    (s.holdEnter ks).fuse = (s.forPorts (State.holdVisit ks)).fuse ∧
    (s.holdEnter ks).port = (s.forPorts (State.holdVisit ks)).port := by
  unfold State.holdEnter
  rw [if_neg (by simp [hrun])]
  refine List.foldlRecOn (motive := fun t : State => t.sup = (s.forPorts (State.holdVisit ks)).sup ∧
    t.fuse = (s.forPorts (State.holdVisit ks)).fuse ∧ t.port = (s.forPorts (State.holdVisit ks)).port)
    (List.finRange 4) _ ⟨rfl, rfl, rfl⟩ fun t ht k _ => ?_
  split <;> exact ht

theorem State.holdEnter_hold {s : State} {ks : PlatId → Bool} {n : PortId} (hrun : s.sup.runFlag = true)
    (hn : bit s.fuse.present n = true) (hk : ks (platOf n) = true) : (s.holdEnter ks).port[n].hold = true := by
  obtain ⟨-, -, hport⟩ := State.holdEnter_marks s ks hrun
  rw [hport]
  exact State.holdVisits_hold hn hk

theorem State.holdEnter_attachKept (s : State) (ks : PlatId → Bool) : s.attachKept (s.holdEnter ks) := by
  cases hrun : s.sup.runFlag with
  | false =>
    unfold State.holdEnter
    rw [if_pos (by simp [hrun])]
    exact ⟨rfl, rfl, fun _ => ⟨rfl, rfl, rfl⟩⟩
  | true =>
    obtain ⟨hsup, hfuse, hport⟩ := State.holdEnter_marks s ks hrun
    have hvisits : s.attachKept (s.forPorts (State.holdVisit ks)) :=
      State.forPorts_keeps (P := s.attachKept) (fun _ _ => State.holdVisit_attachKept) ⟨rfl, rfl, fun _ => ⟨rfl, rfl, rfl⟩⟩
    unfold State.attachKept
    rw [hsup, hfuse, hport]
    exact hvisits

/-! ### LINK_SILENCE and LINK_RETURN -/

theorem execLinkSilence_enters (s : State) (hup : s.sup.hvUp = true) (halive : s.sup.linkSilent = false) :
    exec .linkSilence s = .next (({ s with sup := { s.sup with linkSilent := true } } : State).holdEnter fun _ => true) := by
  show execLinkSilence s = _
  simp [execLinkSilence, hup, halive]

theorem execLinkSilence_idle (s : State) (h : s.sup.hvUp = false ∨ s.sup.linkSilent = true) :
    exec .linkSilence s = .next s := by
  show execLinkSilence s = _
  unfold execLinkSilence
  rw [if_neg (by cases h <;> simp [*])]

theorem execLinkReturn_idle (s : State) (h : s.sup.logicUp = false ∨ s.sup.linkSilent = false) :
    exec .linkReturn s = .next s := by
  show execLinkReturn s = _
  unfold execLinkReturn State.linkBack
  cases h <;> simp [*]

/-- Core SB completes a failure found while it could not act. -/
def State.failVisit (n : PortId) (s : State) : State :=
  match s.port[n].failDue with
  | some (t, ct) => (s.modPort n fun p => { p with failDue := none }).retire n t.val ct
  | none => s

theorem State.failsDue_eq (s : State) : s.failsDue = s.forPorts State.failVisit := rfl

/-- Of the hold-over, the visit changes the port's failure due alone. -/
theorem State.failVisit_holdOver (n : PortId) (s : State) :
    (State.failVisit n s).holdOver = (s.modPort n fun p => { p with failDue := none }).holdOver := by
  unfold State.failVisit
  split
  · exact State.retire_holdOver ..
  · next hnone => exact (State.modPort_holdOver s n _ rfl hnone.symm).symm

theorem State.failVisit_linkSilent (n : PortId) (s : State) : (State.failVisit n s).sup.linkSilent = s.sup.linkSilent :=
  (State.holdOver_linkSilent (State.failVisit_holdOver n s)).trans rfl

theorem State.failVisit_hold (n : PortId) (s : State) (m : PortId) : (State.failVisit n s).port[m].hold = s.port[m].hold := by
  rw [State.holdOver_hold (State.failVisit_holdOver n s) m]
  by_cases hnm : n = m
  · subst hnm
    rw [State.modPort_same]
  · rw [State.modPort_other _ _ _ _ hnm]

theorem State.failVisit_failDue_same (n : PortId) (s : State) : (State.failVisit n s).port[n].failDue = none := by
  rw [State.holdOver_failDue (State.failVisit_holdOver n s) n, State.modPort_same]

theorem State.failVisit_failDue_none (m n : PortId) (s : State) (h : s.port[m].failDue = none) :
    (State.failVisit n s).port[m].failDue = none := by
  by_cases hnm : n = m
  · subst hnm
    exact State.failVisit_failDue_same n s
  · rw [State.holdOver_failDue (State.failVisit_holdOver n s) m, State.modPort_other _ _ _ _ hnm, h]

theorem State.failsDue_linkSilent (s : State) : s.failsDue.sup.linkSilent = s.sup.linkSilent := by
  rw [State.failsDue_eq]
  exact State.forPorts_keeps (P := fun t => t.sup.linkSilent = s.sup.linkSilent)
    (fun n t ht => (State.failVisit_linkSilent n t).trans ht) (rfl)

theorem State.failsDue_hold (s : State) (m : PortId) : s.failsDue.port[m].hold = s.port[m].hold := by
  rw [State.failsDue_eq]
  exact State.forPorts_keeps (P := fun t => t.port[m].hold = s.port[m].hold)
    (fun n t ht => (State.failVisit_hold n t m).trans ht) rfl

theorem State.failsDue_failDue (s : State) (m : PortId) : s.failsDue.port[m].failDue = none := by
  rw [State.failsDue_eq]
  exact State.forPorts_reaches (Q := fun m t => t.port[m].failDue = none) State.failVisit_failDue_same
    State.failVisit_failDue_none s m

theorem State.sketchPlace_core (s : State) (x : Sketch) : (s.sketchPlace x).1.core = s.core := by
  simp only [State.sketchPlace]
  split <;> simp

theorem State.heldCopies_core (s : State) (l : List PlatId) : (l.foldl (fun s k => s.heldCopy k) s).core = s.core := by
  refine List.foldlRecOn (motive := fun t : State => t.core = s.core) l _ rfl fun t ht k _ => ?_
  unfold State.heldCopy
  split
  · exact ht
  · rw [State.sketchPlace_core, State.modPlat_core, ht]

/-- The link carries transfers again, and the Sketches held in the HV die have passed. -/
def State.linkAwake (s : State) : State :=
  (List.finRange 4).foldl (fun s k => s.heldCopy k) { s with sup := { s.sup with linkSilent := false } }

theorem State.linkAwake_holdOver (s : State) :
    s.linkAwake.holdOver = ({ s with sup := { s.sup with linkSilent := false } } : State).holdOver :=
  State.foldl_holdOver _ (fun s k => State.heldCopy_holdOver s k) _ _

theorem State.linkAwake_sbUp (s : State) : s.linkAwake.sbUp = s.sbUp := by
  unfold State.sbUp State.linkAwake
  rw [State.heldCopies_core]

theorem State.linkAwake_linkSilent (s : State) : s.linkAwake.sup.linkSilent = false :=
  State.holdOver_linkSilent (State.linkAwake_holdOver s)

theorem State.linkAwake_hold (s : State) (n : PortId) : s.linkAwake.port[n].hold = s.port[n].hold :=
  State.holdOver_hold (State.linkAwake_holdOver s) n

/-- What core SB reports and completes once it can be told. -/
def State.sbCatchUp (s : State) : State := ((s.slotReport).hsReport.failsDue).forPorts fun n s => s.detachRun n

theorem State.sbCatchUp_holdOver (s : State) : s.sbCatchUp.holdOver = (s.slotReport).hsReport.failsDue.holdOver :=
  State.forPorts_holdOver _ _ fun n s => State.detachRun_holdOver s n

theorem State.reports_holdOver (s : State) : (s.slotReport).hsReport.holdOver = s.holdOver :=
  (State.hsReport_holdOver _).trans (State.slotReport_holdOver s)

theorem State.sbCatchUp_linkSilent (s : State) : s.sbCatchUp.sup.linkSilent = s.sup.linkSilent := by
  rw [State.holdOver_linkSilent s.sbCatchUp_holdOver, State.failsDue_linkSilent, State.holdOver_linkSilent s.reports_holdOver]

theorem State.sbCatchUp_hold (s : State) (n : PortId) : s.sbCatchUp.port[n].hold = s.port[n].hold := by
  rw [State.holdOver_hold s.sbCatchUp_holdOver, State.failsDue_hold, State.holdOver_hold s.reports_holdOver]

theorem State.sbCatchUp_failDue (s : State) (n : PortId) : s.sbCatchUp.port[n].failDue = none := by
  rw [State.holdOver_failDue s.sbCatchUp_holdOver, State.failsDue_failDue]

theorem execLinkReturn_wakes (s : State) (hup : s.sup.logicUp = true) (hsilent : s.sup.linkSilent = true) :
    exec .linkReturn s = .next (if s.sbUp then s.linkAwake.sbCatchUp else s.linkAwake) := by
  show execLinkReturn s = _
  unfold execLinkReturn State.linkBack
  rw [if_pos hup, if_neg (by simp [hsilent]), ← State.linkAwake_sbUp]
  rfl

theorem execLinkReturn_completes (s : State) (hup : s.sup.logicUp = true) (hsilent : s.sup.linkSilent = true) :
    ∃ t, exec .linkReturn s = .next t ∧ t.sup.linkSilent = false ∧
      ∀ n : PortId, t.port[n].hold = s.port[n].hold ∧ (s.sbUp = true → t.port[n].failDue = none) := by
  refine ⟨_, execLinkReturn_wakes s hup hsilent, ?_⟩
  cases s.sbUp with
  | true =>
    rw [if_pos rfl]
    refine ⟨?_, fun n => ⟨?_, fun _ => State.sbCatchUp_failDue _ n⟩⟩
    · exact (State.sbCatchUp_linkSilent _).trans s.linkAwake_linkSilent
    · exact (State.sbCatchUp_hold _ n).trans (s.linkAwake_hold n)
  | false =>
    rw [if_neg Bool.false_ne_true]
    exact ⟨s.linkAwake_linkSilent, fun n => ⟨s.linkAwake_hold n, fun h => nomatch h⟩⟩

/-! ### HOLD_OVER_LIMIT -/

theorem execHoldOverLimit_takenBack (s : State) (n : PortId) (h : s.notBack n = false) :
    exec (.holdOverLimit n) s = .next s := by
  show execHoldOverLimit n s = _
  simp [execHoldOverLimit, h]

theorem execHoldOverLimit_unattached (s : State) (n : PortId) (hprimer : s.sup.primer ≠ .service)
    (hatt : s.port[n].tc.st.attached = false) : exec (.holdOverLimit n) s = .next s := by
  show execHoldOverLimit n s = _
  simp [execHoldOverLimit, hprimer, hatt, -Fin.getElem_fin]

theorem execHoldOverLimit_attached (s : State) (n : PortId) (hback : s.notBack n = true) (hprimer : s.sup.primer ≠ .service)
    (hatt : s.port[n].tc.st.attached = true) : exec (.holdOverLimit n) s = .next (s.askHr n) := by
  show execHoldOverLimit n s = _
  simp [execHoldOverLimit, hback, hprimer, hatt, -Fin.getElem_fin]

/-- In Primer's service state a port is disabled at the limit, an attached one after its Hard Reset, and its hold-over ends
(R78). -/
theorem execHoldOverLimit_service (s : State) (n : PortId) (hback : s.notBack n = true) (hprimer : s.sup.primer = .service) :
    ∃ u : State, exec (.holdOverLimit n) s = .next ((u.disablePort n).modPort n fun p => { p with hold := false }) := by
  refine ⟨if s.port[n].tc.st.attached then s.hardReset n true else s, ?_⟩
  show execHoldOverLimit n s = _
  simp [execHoldOverLimit, hback, hprimer, -Fin.getElem_fin]

/-! ### A port disabled: its path is open and its contract ended -/

/-- The state of every path, and which ports have a contract. -/
def State.powerView (s : State) : Vector (PathState × Bool) 24 := s.port.map fun p => (p.pp.st, p.pd.contract)

theorem State.powerView_st {s t : State} (h : t.powerView = s.powerView) (n : PortId) :
    t.port[n].pp.st = s.port[n].pp.st := by
  have hn := congrArg (fun v : Vector (PathState × Bool) 24 => v[n].1) h
  simpa [State.powerView] using hn

theorem State.powerView_contract {s t : State} (h : t.powerView = s.powerView) (n : PortId) :
    t.port[n].pd.contract = s.port[n].pd.contract := by
  have hn := congrArg (fun v : Vector (PathState × Bool) 24 => v[n].2) h
  simpa [State.powerView] using hn

theorem State.powerView_congr {s t : State} (h : t.port = s.port) : t.powerView = s.powerView := by
  simp only [State.powerView, h]

@[simp] theorem State.modPort_powerView (s : State) (n : PortId) (f : Port → Port)
    (hst : (f s.port[n]).pp.st = s.port[n].pp.st) (hcontract : (f s.port[n]).pd.contract = s.port[n].pd.contract) :
    (s.modPort n f).powerView = s.powerView :=
  Vector.map_set_of_eq (fun p : Port => (p.pp.st, p.pd.contract)) s.port n _ (by rw [hst, hcontract])

@[simp] theorem State.modAlt_powerView (s : State) (n : PortId) (f : Alt → Alt) : (s.modAlt n f).powerView = s.powerView :=
  State.modPort_powerView s n _ rfl rfl

@[simp] theorem State.emit_powerView (s : State) (code source : BitVec 16) (payload : List Byte) :
    (s.emit code source payload).powerView = s.powerView :=
  State.powerView_congr (by simp)

@[simp] theorem State.completeOpt_powerView (s : State) (r : Option CmdRef) (st : BitVec 16) (result : List Byte) :
    (s.completeOpt r st result).powerView = s.powerView :=
  State.powerView_congr (by simp)

theorem State.settleOne_port (s : State) (x : Fin 256 × Nat) : (s.settleOne x).port = s.port := by
  unfold State.settleOne
  (repeat' split) <;> rfl

theorem State.resettle_port (s : State) : s.resettle.port = s.port :=
  List.foldlRecOn (motive := fun t : State => t.port = s.port) s.tt.news State.settleOne rfl
    fun t ht x _ => (State.settleOne_port t x).trans ht

@[simp] theorem State.cancelPort_powerView (s : State) (n : PortId) : (s.cancelPort n).powerView = s.powerView :=
  State.powerView_congr (State.resettle_port _)

@[simp] theorem State.dropScripts_powerView (s : State) (n : PortId) (stop all : Bool) :
    (s.dropScripts n stop all).powerView = s.powerView := rfl

@[simp] theorem State.altEvent_powerView (s : State) (n : PortId) (reason : Nat) :
    (s.altEvent n reason).powerView = s.powerView :=
  State.emit_powerView ..

@[simp] theorem State.altComplete_powerView (s : State) (n : PortId) : (s.altComplete n).powerView = s.powerView := by
  simp [State.altComplete]

@[simp] theorem State.modeEnd_powerView (s : State) (n : PortId) : (s.modeEnd n).powerView = s.powerView := by
  unfold State.modeEnd
  split <;> simp

@[simp] theorem State.amsEnd_powerView (s : State) (n : PortId) : (s.amsEnd n).powerView = s.powerView :=
  State.modPort_powerView s n _ rfl rfl

@[simp] theorem State.swapEnd_powerView (s : State) (n : PortId) (result : Nat) :
    (s.swapEnd n result).powerView = s.powerView := by
  simp only [State.swapEnd, State.swapEndWith]
  (repeat' split) <;> simp

theorem State.forPorts_powerView (s : State) (f : PortId → State → State) (h : ∀ n s, (f n s).powerView = s.powerView) :
    (s.forPorts f).powerView = s.powerView :=
  State.forPorts_keeps (P := fun t => t.powerView = s.powerView) (fun n t ht => (h n t).trans ht) rfl

theorem State.shedEvent_powerView (s : State) (phase : Nat) : (s.shedEvent phase).powerView = s.powerView :=
  State.powerView_congr (by simp [State.shedEvent])

@[simp] theorem State.shedEnd_powerView (s : State) : s.shedEnd.powerView = s.powerView := by
  unfold State.shedEnd
  split
  · rw [State.shedEvent_powerView]
    exact State.forPorts_powerView _ _ fun n t => State.modPort_powerView t n _ rfl rfl
  · rfl

@[simp] theorem State.eprNoVconn_powerView (s : State) (n : PortId) : (s.eprNoVconn n).powerView = s.powerView := by
  unfold State.eprNoVconn
  split
  · exact (State.modPort_powerView _ n _ rfl rfl).trans (State.modPort_powerView s n _ rfl rfl)
  · rfl

@[simp] theorem State.vconnAttach_powerView (s : State) (n : PortId) : (s.vconnAttach n).powerView = s.powerView :=
  (State.modPort_powerView _ n _ rfl rfl).trans (State.modPort_powerView s n _ rfl rfl)

@[simp] theorem State.vconnRelease_powerView (s : State) (n : PortId) : (s.vconnRelease n).powerView = s.powerView := by
  simp only [State.vconnRelease]
  (repeat' split) <;> simp

theorem Path.opened_st_ne_closed (p : Path) (disch trip : Bool) : (p.opened disch trip).st ≠ .closed := by
  unfold Path.opened
  split
  · dsimp only
    (repeat' split) <;> decide
  · dsimp only
    (repeat' split) <;> decide
  · assumption

/-- The opening of a port's path, whatever becomes of its trace. -/
theorem State.openPath_powerView (s : State) (n : PortId) (disch trip prot : Bool) :
    (s.openPath n disch trip prot).powerView = (s.modPp n fun p =>
      if p.st.live then { p.opened disch trip with left := some (s.time.ct, p.st, p.sink, p.i2t) } else p).powerView := by
  simp only [State.openPath]
  split
  · exact State.modPort_powerView _ n _ rfl rfl
  · rfl

theorem State.openPath_st_ne_closed (s : State) (n : PortId) (disch trip prot : Bool) :
    (s.openPath n disch trip prot).port[n].pp.st ≠ .closed := by
  rw [State.powerView_st (State.openPath_powerView ..), State.modPp_same]
  dsimp only
  split
  · exact Path.opened_st_ne_closed s.port[n].pp disch trip
  · next hlive => exact fun hclosed => hlive (by rw [hclosed]; rfl)

theorem Path.loadFt_st (p : Path) : p.loadFt.st = p.st := by
  unfold Path.loadFt
  split <;> rfl

theorem State.endContract_contract (s : State) (n : PortId) : (s.endContract n).port[n].pd.contract = false := by
  simp only [State.endContract]
  rw [State.powerView_contract (State.shedEnd_powerView _), State.modPort_same]

theorem State.cancelEntry_port (s : State) (n : PortId) (i : Option (Fin 256)) : (s.cancelEntry n i).port = s.port := by
  unfold State.cancelEntry
  split
  · split
    · exact State.resettle_port _
    · rfl
  · rfl

theorem State.endContract_st (s : State) (n : PortId) : (s.endContract n).port[n].pp.st = s.port[n].pp.st := by
  simp only [State.endContract]
  rw [State.powerView_st (State.shedEnd_powerView _), State.modPort_same, Path.loadFt_st]
  split
  · rw [State.cancelEntry_port]
  · rfl

theorem State.typecEvent_port (s : State) (n : PortId) : (s.typecEvent n).port = s.port := by
  simp [State.typecEvent]

theorem State.typecEvent_ite_port (c : Prop) [Decidable c] (s : State) (n : PortId) :
    (if c then s.typecEvent n else s).port = s.port := by
  split
  · exact State.typecEvent_port s n
  · rfl

theorem Pd.clear_contract (d : Pd) : d.clear.contract = d.contract := rfl

/-- The path opens first, and what follows closes none; the contract ends, and what follows makes none. -/
theorem State.disablePort_ends (s : State) (n : PortId) :
    (s.disablePort n).port[n].tc.st = .disabled ∧ (s.disablePort n).port[n].pp.st ≠ .closed ∧
    (s.disablePort n).port[n].pd.contract = false := by
  simp only [State.disablePort, State.typecEvent_ite_port, State.modPort_same, Pd.clear_contract]
  refine ⟨trivial, ?_, ?_⟩
  · rw [State.powerView_st (State.vconnRelease_powerView ..), State.endContract_st,
      State.powerView_st (s := s.openPath n true false true) (by simp)]
    exact State.openPath_st_ne_closed s n true false true
  · rw [State.powerView_contract (State.vconnRelease_powerView ..), State.endContract_contract]

theorem execHoldOverLimit_disables (s : State) (n : PortId) (hback : s.notBack n = true) (hprimer : s.sup.primer = .service) :
    ∃ t, exec (.holdOverLimit n) s = .next t ∧ t.port[n].tc.st = .disabled ∧ t.port[n].hold = false ∧
      t.port[n].pp.st ≠ .closed ∧ t.port[n].pd.contract = false := by
  obtain ⟨u, hu⟩ := execHoldOverLimit_service s n hback hprimer
  obtain ⟨hst, hpath, hcontract⟩ := State.disablePort_ends u n
  refine ⟨_, hu, ?_⟩
  rw [State.modPort_same]
  exact ⟨hst, rfl, hpath, hcontract⟩

/-! ### TAKE_BACK -/

theorem execTakeBack_idle (s : State) (k : PlatId) (c1 c2 vbus : Nat) (h : s.nextBack k = none ∨ s.sbUp = false ∨
    s.sup.linkSilent = true ∨ (s.plat[k].fallback = false ∧ s.core[coreOf k].up = false)) :
    exec (.takeBack k c1 c2 vbus) s = .next s := by
  show execTakeBack k c1 c2 vbus s = _
  unfold execTakeBack
  cases hnext : s.nextBack k with
  | none => rfl
  | some n =>
    rcases h with h | h | h | ⟨hfallback, hcore⟩
    · exact nomatch hnext.symm.trans h
    · simp [h]
    · simp [h]
    · simp [hfallback, hcore, -Fin.getElem_fin]

/-- The Platform core takes the port back: its hold-over ends, and what the cores do then leaves hold-over as it is. -/
theorem execTakeBack_core (s : State) (k : PlatId) (n : PortId) (c1 c2 vbus : Nat) (hnext : s.nextBack k = some n)
    (hsb : s.sbUp = true) (halive : s.sup.linkSilent = false) (hfallback : s.plat[k].fallback = false)
    (hcore : s.core[coreOf k].up = true) :
    ∃ t, exec (.takeBack k c1 c2 vbus) s = .next t ∧
      t.holdOver = (s.modPort n fun p => { p with hold := false }).holdOver := by
  refine ⟨if (s.modPort n fun p => { p with hold := false }).inService n then
    ((s.modPort n fun p => { p with hold := false }).backCommon n c1 c2 vbus).backCore n
    else s.modPort n fun p => { p with hold := false }, ?_, ?_⟩
  · show execTakeBack k c1 c2 vbus s = _
    simp [execTakeBack, hnext, hsb, halive, hfallback, hcore, -Fin.getElem_fin]
  · split
    · rw [State.backCore_holdOver, State.backCommon_holdOver]
    · rfl

/-- The next port of a Platform in fallback. -/
def Platform.takeNext (p : Platform) : Platform :=
  { p with takeBack := p.takeBack.bind fun i => if i < 5 then some (i + 1) else none }

/-- Core SB takes the port back: the take-back goes on to the next port, and hold-over stays. -/
theorem execTakeBack_fallback (s : State) (k : PlatId) (n : PortId) (c1 c2 vbus : Nat) (hnext : s.nextBack k = some n)
    (hsb : s.sbUp = true) (halive : s.sup.linkSilent = false) (hfallback : s.plat[k].fallback = true) :
    ∃ t, exec (.takeBack k c1 c2 vbus) s = .next t ∧ t.holdOver = (s.modPlat k Platform.takeNext).holdOver := by
  refine ⟨if (s.modPlat k Platform.takeNext).inService n then (s.modPlat k Platform.takeNext).backCommon n c1 c2 vbus
    else s.modPlat k Platform.takeNext, ?_, ?_⟩
  · show execTakeBack k c1 c2 vbus s = _
    simp only [execTakeBack, hnext, hsb, halive, hfallback]
    rfl
  · split
    · rw [State.backCommon_holdOver]
    · rfl

/-- Settles O8: what the rows of the link and of the take-back do beside is kept apart by `State.holdOver`, which the reports,
retirements, openings and Hard Resets they call leave alone. -/
theorem holdOverAndLink : Obligations.HoldOverAndLink := by
  unfold Obligations.HoldOverAndLink
  refine ⟨?silence, fun s h => ⟨s, execLinkSilence_idle s h, rfl⟩, execLinkReturn_completes,
    fun s h => ⟨s, execLinkReturn_idle s h, rfl⟩, ?limit, execHoldOverLimit_disables, ?back, ?core, ?fallback,
    fun s k c1 c2 v h => ⟨s, execTakeBack_idle s k c1 c2 v h, rfl⟩⟩
  case silence =>
    intro s hup halive
    obtain ⟨hsup, -, hport⟩ := State.holdEnter_attachKept ({ s with sup := { s.sup with linkSilent := true } } : State) fun _ => true
    exact ⟨_, execLinkSilence_enters s hup halive, hsup, fun n hrun hn => State.holdEnter_hold hrun hn rfl, hport⟩
  case limit =>
    intro s n hback hprimer hatt
    exact ⟨_, execHoldOverLimit_attached s n hback hprimer hatt, State.modPort_same s n _,
      fun m hm => State.modPort_other s n _ m (Ne.symm hm)⟩
  case back =>
    rintro s n (hback | ⟨hprimer, hatt⟩)
    · exact ⟨s, execHoldOverLimit_takenBack s n hback, rfl⟩
    · exact ⟨s, execHoldOverLimit_unattached s n hprimer hatt, rfl⟩
  case core =>
    intro s k n c1 c2 v hnext hsb halive hfallback hcore
    obtain ⟨t, ht, hhold⟩ := execTakeBack_core s k n c1 c2 v hnext hsb halive hfallback hcore
    refine ⟨t, ht, ?_, fun m hm => ?_⟩
    · rw [State.holdOver_hold hhold, State.modPort_same]
    · rw [State.holdOver_hold hhold, State.modPort_other _ _ _ _ (Ne.symm hm)]
  case fallback =>
    intro s k n c1 c2 v hnext hsb halive hfallback
    obtain ⟨t, ht, hhold⟩ := execTakeBack_fallback s k n c1 c2 v hnext hsb halive hfallback
    refine ⟨t, ht, ?_, ?_⟩
    · rw [State.holdOver_takeBack hhold, State.modPlat_same]
      rfl
    · rw [State.holdOver_hold hhold, State.modPlat_port]

end Sys2Proof.Machine
end

section
/-! PROOFS. The state after reset (O1); the superframe start (O12). -/

namespace Sys2Proof.Machine

/-- Settles O1: every field of the state after reset is a literal, the vectors by a value repeated. -/
theorem resetState : Obligations.ResetState := by
  refine ⟨rfl, rfl, rfl, rfl, rfl, rfl, rfl, rfl, rfl, rfl, rfl, fun c => ?core, fun n => ?port, fun i => ?host, fun e => ?entry,
    rfl, rfl, rfl, rfl⟩
  case core => simp [State.reset, VCore.reset, KSlot.reset]
  case port => simp [State.reset, Port.reset, Path.reset, TypeC.reset]
  case host => simp [State.reset, HostFe.reset]
  case entry => simp [State.reset, Timetable.reset]

/-! ### TT_CFG written in the tick of a superframe start (R137, R502) -/

/-- Chassis time has come to a superframe start, and the tick's values for it are N = 16 and B = 200; core SB then writes
N = 8. -/
def lateTtCfgState : State :=
  ({ State.reset with
    sup := { Supplies.reset with hvUp := true, logicUp := true, linkSilent := false, primer := .done }
    core := Vector.replicate 5 { VCore.reset with up := true }
    sfHeld := some (0, [], 4, 200) } : State).ttCfgSet 0x030000C8

theorem lateTtCfgState_nlogPend : lateTtCfgState.tt.nlogPend = 3 := by decide

theorem lateTtCfgState_superframeStart : ∃ t, exec .superframeStart lateTtCfgState = .next t ∧ t.tt.nlog = 4 :=
  ⟨_, rfl, by decide +kernel⟩

/-- Refutes O12: a superframe start takes the N and B its tick began with, so what is written in that tick stays pending. -/
theorem not_slotsAndSuperframes : ¬ Obligations.SlotsAndSuperframes := by
  unfold Obligations.SlotsAndSuperframes
  rintro ⟨-, -, -, -, hstart, -⟩
  obtain ⟨t, ht, -, -, -, hnlog, -⟩ := hstart lateTtCfgState rfl rfl rfl
  obtain ⟨t', ht', hheld⟩ := lateTtCfgState_superframeStart
  obtain rfl : t = t' := Host.Outcome.next.inj (ht.symm.trans ht')
  rw [hheld, lateTtCfgState_nlogPend] at hnlog
  exact absurd hnlog (by decide)

end Sys2Proof.Machine
end

section
/-! PROOFS. Samples, housekeeping, Sketches, trace frames and the link (O37). -/

namespace Sys2Proof.Machine

/-! ### What the trace queue leaves alone (R390, R391) -/

/-- The state but for what the measurement of the ports and the lane hold, and for the choices made. -/
def State.untraced (s : State) : State :=
  { s with port := s.port.map fun p => { p with ms := Measure.reset }, net := Net.reset, fresh := 0 }

theorem State.eq_of_untraced {s t : State} (h : t.untraced = s.untraced) :
    t = { s with port := t.port, net := t.net, fresh := t.fresh } :=
  congrArg (fun u : State => { u with port := t.port, net := t.net, fresh := t.fresh }) h

theorem State.hs_of_untraced {s t : State} (h : t.untraced = s.untraced) : t.hs = s.hs := (congrArg State.hs h :)

theorem State.tt_of_untraced {s t : State} (h : t.untraced = s.untraced) : t.tt = s.tt := (congrArg State.tt h :)

theorem State.port_of_untraced {s t : State} (h : t.untraced = s.untraced) (n : PortId) :
    t.port[n].pp = s.port[n].pp ∧ t.port[n].tc = s.port[n].tc ∧ t.port[n].pd = s.port[n].pd ∧ t.port[n].ct = s.port[n].ct := by
  have hport : ({ t.port[n] with ms := Measure.reset } : Port) = { s.port[n] with ms := Measure.reset } := by
    simpa [State.untraced] using congrArg (fun u : State => u.port[n]) h
  exact ⟨(congrArg Port.pp hport :), (congrArg Port.tc hport :), (congrArg Port.pd hport :), (congrArg Port.ct hport :)⟩

theorem State.modMs_untraced (s : State) (n : PortId) (f : Measure → Measure) : (s.modMs n f).untraced = s.untraced :=
  congrArg (fun v : Vector Port 24 => { s with port := v, net := Net.reset, fresh := 0 })
    (Vector.map_set_of_eq (fun p : Port => { p with ms := Measure.reset }) s.port n
      { s.port[n] with ms := f s.port[n].ms } rfl)

theorem State.fresh_ite (s : State) (c : Prop) [Decidable c] (k : Nat) :
    (if c then { s with fresh := k } else s) = { s with fresh := if c then k else s.fresh } := by
  split <;> rfl

/-- A frame that is complete changes the lane and the choices made; one that is lost marks the port's next frame beside. -/
theorem State.queueTrace_cases (s : State) (n : PortId) (f : TrFrame) : ∃ net fresh,
    s.queueTrace n f = { s with net := net, fresh := fresh } ∨
    s.queueTrace n f =
      ({ s with net := net, fresh := fresh } : State).modMs n fun m => { m with trace := m.trace.setGap } := by
  refine iteInduction (motive := fun t => ∃ net fresh, t = ({ s with net := net, fresh := fresh } : State) ∨
    t = ({ s with net := net, fresh := fresh } : State).modMs n fun m => { m with trace := m.trace.setGap })
    (fun _ => ?_) fun _ => ?_
  · rw [State.fresh_ite]
    exact ⟨_, _, .inl rfl⟩
  · rw [State.fresh_ite]
    exact ⟨_, _, .inr rfl⟩

theorem State.queueTrace_untraced (s : State) (n : PortId) (f : TrFrame) : (s.queueTrace n f).untraced = s.untraced := by
  obtain ⟨net, fresh, h | h⟩ := State.queueTrace_cases s n f
  · rw [h]
    rfl
  · rw [h, State.modMs_untraced]
    rfl

theorem State.flushTrace_untraced (n : PortId) (fuel : Nat) (s : State) :
    (State.flushTrace n fuel s).untraced = s.untraced := by
  induction fuel generalizing s with
  | zero => rfl
  | succ fuel ih =>
    unfold State.flushTrace
    split
    · split
      · rfl
      · rw [ih, State.queueTrace_untraced, State.modMs_untraced]
    · rfl

theorem State.flushTrace_of_held_nil {n : PortId} {s : State} (h : s.port[n].ms.trace.held = []) (fuel : Nat) :
    State.flushTrace n fuel s = s := by
  cases fuel with
  | zero => rfl
  | succ fuel => simp only [State.flushTrace, h]

/-! ### SAMPLE_INSTANT -/

theorem State.keepFirst_eq (s : State) : s.keepFirst = { s with firsts := s.keepFirst.firsts } := by
  unfold State.keepFirst
  split <;> rfl

theorem State.hsMeas_eq (s : State) (vin vsns : BitVec 16) : s.hsMeas vin vsns = { s with hs := (s.hsMeas vin vsns).hs } := by
  unfold State.hsMeas
  dsimp only
  split <;> rfl

/-- HS_MEAS rests on the sealed hot-swap set, the block and the sample index alone. -/
theorem State.hsMeas_congr {s t : State} {vin vsns : BitVec 16} (hhs : t.hs = s.hs) (hfuse : t.fuse = s.fuse)
    (hsidx : t.sidx = s.sidx) : (t.hsMeas vin vsns).hs = (s.hsMeas vin vsns).hs := by
  have hov : t.ovV = s.ovV := by
    unfold State.ovV State.hsW0 State.hsValid
    rw [hfuse]
  unfold State.hsMeas State.seeVin
  dsimp only
  rw [hhs, hsidx, hov]
  split <;> rfl

theorem State.hsMeas_st (s : State) (vin vsns : BitVec 16) : (s.hsMeas vin vsns).hs.st = s.hs.st := by
  unfold State.hsMeas
  dsimp only
  split <;> rfl

theorem State.hsMeas_fifth (s : State) (vin vsns : BitVec 16) (h : s.sidx % 5 = 0) :
    (s.hsMeas vin vsns).hs.vin = vin ∧ (s.hsMeas vin vsns).hs.vsns = vsns ∧
    (s.hsMeas vin vsns).hs.power = ((vin.toNat * vsns.toInt : Int) :: s.hs.power).take 10000 := by
  have hmeas : s.hsMeas vin vsns = _ := if_pos h
  rw [hmeas]
  exact ⟨rfl, rfl, rfl⟩

theorem State.hsMeas_between (s : State) (vin vsns : BitVec 16) (h : s.sidx % 5 ≠ 0) :
    (s.hsMeas vin vsns).hs.vin = s.hs.vin ∧ (s.hsMeas vin vsns).hs.vsns = s.hs.vsns ∧
    (s.hsMeas vin vsns).hs.power = s.hs.power := by
  have hmeas : s.hsMeas vin vsns = _ := if_neg h
  rw [hmeas]
  exact ⟨rfl, rfl, rfl⟩

/-- The ports with the samples of an instant taken: those of the populated ports (R52). -/
def State.portsSampled (s : State) (x : Vector PortSample 24) : Vector Port 24 :=
  Vector.ofFn fun n =>
    if bit s.fuse.present n then s.port[n].sampled x[n] s.time.ct s.phase s.sidx s.narrow else s.port[n]

/-- The state with every sample of an instant taken, before the trace frames that it completes are queued. -/
def State.instantTaken (s : State) (x : Vector PortSample 24) (vin vsns : BitVec 16) : State :=
  { s with
    firsts := s.keepFirst.firsts
    port := s.portsSampled x
    sketches := s.sketches.map (Sketch.fill (s.portsSampled x) s.time.ct s.phase s.sidx)
    plat := s.plat.map fun k => k.sampled (s.portsSampled x) s.time.ct s.phase s.sidx
    health := { s.health with sinceScrub := s.health.sinceScrub + 1 }
    hs := (s.hsMeas vin vsns).hs
    stamps := ((s.time.ct, s.phase) :: s.stamps).take 1024
    sidx := s.sidx + 1
    phase := s.phase + 40 }

theorem State.instantTaken_port (s : State) (x : Vector PortSample 24) (vin vsns : BitVec 16) :
    (s.instantTaken x vin vsns).port = s.portsSampled x := rfl

theorem State.instantTaken_tt (s : State) (x : Vector PortSample 24) (vin vsns : BitVec 16) :
    (s.instantTaken x vin vsns).tt = s.tt := by
  simp only [State.instantTaken]

theorem execSampleInstant_taken (s : State) (x : Vector PortSample 24) (vin vsns : BitVec 16) (hup : s.sup.hvUp = true) :
    ∃ t, exec (.sampleInstant x vin vsns) s = .next t ∧ t.untraced = (s.instantTaken x vin vsns).untraced := by
  refine ⟨(s.instantTaken x vin vsns).forPorts fun n s => State.flushTrace n 8 s, ?_,
    State.forPorts_keeps (P := fun t => t.untraced = _) (fun n t ht => (State.flushTrace_untraced n 8 t).trans ht) rfl⟩
  show execSampleInstant x vin vsns s = _
  unfold execSampleInstant
  rw [if_neg (by simp [hup]), State.keepFirst_eq]
  dsimp only
  rw [State.hsMeas_eq, State.hsMeas_congr (s := s)]
  all_goals rfl

theorem execSampleInstant_down (s : State) (x : Vector PortSample 24) (vin vsns : BitVec 16) (hdown : s.sup.hvUp = false) :
    exec (.sampleInstant x vin vsns) s = .next s := by
  show execSampleInstant x vin vsns s = _
  simp [execSampleInstant, hdown]

theorem State.portsSampled_port (s : State) (x : Vector PortSample 24) (n : PortId) :
    (s.portsSampled x)[n] =
      if bit s.fuse.present n then s.port[n].sampled x[n] s.time.ct s.phase s.sidx s.narrow else s.port[n] :=
  Vector.getElem_ofFn_fin _ n

/-- A sample of a port is taken by its path and its measurement alone. -/
theorem State.portsSampled_kept (s : State) (x : Vector PortSample 24) (n : PortId) :
    (s.portsSampled x)[n].tc = s.port[n].tc ∧ (s.portsSampled x)[n].pd = s.port[n].pd ∧
    (s.portsSampled x)[n].ct = s.port[n].ct := by
  rw [State.portsSampled_port]
  split <;> exact ⟨rfl, rfl, rfl⟩

/-! ### SKETCH_COMPLETE -/

theorem execSketchComplete_slot (s : State) (k : PlatId) (i : Fin 8) (x : Sketch) (h : s.plat[k].slots[i] = some x) :
    ∃ t, exec (.sketchComplete k i) s = .next t ∧
      t.plat[k].slots[i] = some { x with complete := x.complete || decide (4096 ≤ x.recs.length) } ∧
      t = { s with plat := t.plat } := by
  refine ⟨_, rfl, ?_, rfl⟩
  rw [State.modPlat_same, Vector.getElem_set_fin, if_pos rfl, h]
  rfl

/-! ### FRAME_ASSEMBLY -/

theorem markAsm_singleton (f : TrFrame) : markAsm [f] = [{ f with waitAsm := false }] := by
  unfold markAsm
  split
  · rfl
  · rename_i hasm
    rw [← Bool.eq_false_of_not_eq_true hasm]
    rfl

theorem State.modMs_modMs (s : State) (n : PortId) (f g : Measure → Measure) :
    (s.modMs n f).modMs n g = s.modMs n fun m => g (f m) := by
  simp [State.modMs, State.modPort]

/-- With none held, a frame that leaves puts none back and advances no number. -/
theorem State.queueTrace_trace {s : State} {n : PortId} (h : s.port[n].ms.trace.held = []) (f : TrFrame) :
    (s.queueTrace n f).port[n].ms.trace.held = [] ∧ (s.queueTrace n f).port[n].ms.trace.seq = s.port[n].ms.trace.seq := by
  obtain ⟨net, fresh, hq | hq⟩ := State.queueTrace_cases s n f
  · rw [hq]
    exact ⟨h, rfl⟩
  · rw [hq, State.modMs_same]
    simp only [Trace.setGap, h, and_self]

/-- No frame of the port is held. -/
def Measure.heldNone (m : Measure) : Measure := { m with trace := { m.trace with held := [] } }

theorem State.flushTrace_of_held_one {n : PortId} {s : State} {f : TrFrame} (hheld : s.port[n].ms.trace.held = [f])
    (hgroup : f.waitGroup = false) (hasm : f.waitAsm = false) (fuel : Nat) :
    State.flushTrace n (fuel + 1) s = (s.modMs n Measure.heldNone).queueTrace n f := by
  have hleft : (s.modMs n Measure.heldNone).port[n].ms.trace.held = [] := by
    rw [State.modMs_same]
    rfl
  rw [State.flushTrace, hheld]
  simp only [hgroup, hasm, Bool.or_self, Bool.false_eq_true, if_false]
  exact State.flushTrace_of_held_nil (State.queueTrace_trace hleft f).1 fuel

/-- The frame that is assembled leaves; the row marks the oldest that waits for its assembly. -/
theorem execFrameAssembly_leaves (s : State) (n : PortId) (f : TrFrame) (hheld : s.port[n].ms.trace.held = [f])
    (hgroup : f.waitGroup = false) :
    exec (.frameAssembly n) s = .next ((s.modMs n Measure.heldNone).queueTrace n { f with waitAsm := false }) := by
  show Host.Outcome.next (State.flushTrace n 8 _) = _
  rw [State.flushTrace_of_held_one (f := { f with waitAsm := false }) ?marked hgroup rfl, State.modMs_modMs]
  · rfl
  case marked =>
    rw [State.modMs_same, ← markAsm_singleton, ← hheld]

theorem execFrameAssembly_none (s : State) (n : PortId) (hheld : s.port[n].ms.trace.held = []) :
    exec (.frameAssembly n) s =
      .next (s.modMs n fun m => { m with trace := { m.trace with held := markAsm m.trace.held } }) := by
  show Host.Outcome.next (State.flushTrace n 8 _) = _
  rw [State.flushTrace_of_held_nil]
  rw [State.modMs_same]
  show markAsm s.port[n].ms.trace.held = []
  rw [hheld]
  rfl

/-! ### The link and ARP -/

theorem State.laneLost_keeps (s : State) :
    s.laneLost.untraced = s.untraced ∧ s.laneLost.fresh = s.fresh ∧ s.laneLost.net =
      { s.net with traces := [], sending := none, lost := min 0xFFFF (s.net.lost + (s.net.traces ++ (s.net.sending.toList.filter fun f => decide (traceBytes f ≠ 0))).length) } := by
  unfold State.laneLost
  refine List.foldlRecOn (motive := fun t : State => t.untraced = s.untraced ∧ t.fresh = s.fresh ∧ t.net = _) _ _
    ⟨rfl, rfl, rfl⟩ fun t ⟨hrest, hfresh, hnet⟩ f _ => ?_
  split
  · exact ⟨(State.modMs_untraced t _ _).trans hrest, hfresh, hnet⟩
  · exact ⟨hrest, hfresh, hnet⟩

theorem execArpRequest_answers (s : State) (mac : BitVec 48) (ip : BitVec 32) (hon : s.hostOn .net = true)
    (hlink : s.net.link = true) :
    exec (.arpRequest mac ip s.netSip) s = .next { s with net := { s.net with urgent := s.net.urgent ++ [.arp mac ip] } } :=
  congrArg Host.Outcome.next (if_pos (by simp [hon, hlink]))

theorem execArpRequest_ignores (s : State) (mac : BitVec 48) (ip target : BitVec 32)
    (h : target ≠ s.netSip ∨ s.net.link = false ∨ s.hostOn .net = false) :
    exec (.arpRequest mac ip target) s = .next s := by
  refine congrArg Host.Outcome.next (if_neg ?_)
  rcases h with h | h | h <;> simp [h]

/-- Settles O37: what a row does beside the trace queue is written out once for each row, and what the queue does is kept
apart by `State.untraced`. -/
theorem measurementAndLink : Obligations.MeasurementAndLink := by
  unfold Obligations.MeasurementAndLink
  refine ⟨?instant, ?fifth, ?between, fun s x a b h => ⟨s, execSampleInstant_down s x a b h, rfl⟩, ?scan, ?scanDown, ?full,
    ?short, ?leaves, ?none, fun s h => ⟨_, congrArg Host.Outcome.next (if_pos h), rfl⟩,
    fun s h => ⟨s, congrArg Host.Outcome.next (if_neg (by simp [h])), rfl⟩, ?down,
    fun s m a hon hlink _ => ⟨_, execArpRequest_answers s m a hon hlink, rfl⟩,
    fun s m a b h => ⟨s, execArpRequest_ignores s m a b h, rfl⟩, fun s f => ⟨s, rfl, rfl⟩⟩
  case instant =>
    intro s x a b n hup
    obtain ⟨t, ht, hrest⟩ := execSampleInstant_taken s x a b hup
    have hport := State.port_of_untraced hrest n
    rw [State.instantTaken_port] at hport
    obtain ⟨hpp, htc, hpd, hct⟩ := hport
    obtain ⟨htcKept, hpdKept, hctKept⟩ := s.portsSampled_kept x n
    have hst : t.hs.st = s.hs.st := State.hs_of_untraced hrest ▸ s.hsMeas_st a b
    exact ⟨t, ht, (congrArg State.sidx hrest :), (congrArg State.phase hrest :),
      (congrArg (fun u : State => u.health.sinceScrub) hrest :), (congrArg State.stamps hrest :),
      hpp.trans (congrArg Port.pp (s.portsSampled_port x n)), htc.trans htcKept, hpd.trans hpdKept, hct.trans hctKept,
      hst, (State.tt_of_untraced hrest).trans (s.instantTaken_tt x a b)⟩
  case fifth =>
    intro s x a b hup hidx
    obtain ⟨t, ht, hrest⟩ := execSampleInstant_taken s x a b hup
    exact ⟨t, ht, State.hs_of_untraced hrest ▸ s.hsMeas_fifth a b hidx⟩
  case between =>
    intro s x a b hup hidx
    obtain ⟨t, ht, hrest⟩ := execSampleInstant_taken s x a b hup
    exact ⟨t, ht, State.hs_of_untraced hrest ▸ s.hsMeas_between a b hidx⟩
  case scan =>
    intro s k hup
    exact ⟨_, congrArg Host.Outcome.next (if_pos hup), rfl, rfl, rfl, rfl⟩
  case scanDown =>
    intro s k hdown
    exact ⟨s, congrArg Host.Outcome.next (if_neg (by simp [hdown])), rfl⟩
  case full =>
    intro s k i x hslot hlen
    obtain ⟨t, ht, hx, hrest⟩ := execSketchComplete_slot s k i x hslot
    exact ⟨t, ht, by simpa [hlen] using hx, hrest⟩
  case short =>
    intro s k i x hslot hlen
    obtain ⟨t, ht, hx, hrest⟩ := execSketchComplete_slot s k i x hslot
    exact ⟨t, ht, by simpa [Nat.not_le.mpr hlen] using hx, hrest⟩
  case leaves =>
    intro s n f hheld hgroup
    have hrest := (State.queueTrace_untraced (s.modMs n Measure.heldNone) n { f with waitAsm := false }).trans
      (State.modMs_untraced s n Measure.heldNone)
    obtain ⟨hnone, hseq⟩ := State.queueTrace_trace (s := s.modMs n Measure.heldNone) (n := n)
      (by rw [State.modMs_same]; rfl) { f with waitAsm := false }
    rw [State.modMs_same] at hseq
    exact ⟨_, execFrameAssembly_leaves s n f hheld hgroup, hnone, hseq, (State.port_of_untraced hrest n).1,
      State.tt_of_untraced hrest, State.eq_of_untraced hrest⟩
  case none =>
    intro s n hheld
    refine ⟨_, execFrameAssembly_none s n hheld, ?_, rfl, rfl⟩
    rw [State.modMs_same]
    show ({ s.port[n].ms.trace with held := markAsm s.port[n].ms.trace.held } : Trace) = _
    rw [hheld, markAsm, ← hheld]
  case down =>
    intro s
    obtain ⟨hrest, hfresh, hnet⟩ := State.laneLost_keeps
      { s with fresh := s.fresh + 1, net := { s.net with link := false, lock := s.net.lock && Config.lockKept s.fresh } }
    refine ⟨_, rfl, fun m => ?_, ?_⟩
    · obtain ⟨hpp, htc, hpd, -⟩ := State.port_of_untraced hrest m
      exact ⟨hpp, htc, hpd⟩
    · have heq := State.eq_of_untraced hrest
      rw [hfresh, hnet] at heq
      exact heq

end Sys2Proof.Machine
end

section
/-! PROOFS. The pre-regulator and the HV supply (O5). -/

-- Declarations in turn: the stack of every thread counts toward the memory that the check allows the one text.
set_option Elab.async false

namespace Sys2Proof.Machine

/-! ### The sequencer's first sample (R195) -/

/-- The state but for the history of the sequencer. -/
def State.sansSqHist (s : State) : State := { s with sq := { s.sq with hist := [], lost := 0 } }

theorem State.sqRecord_sansSqHist (s : State) (rail : Nat) (f : SqFlag) :
    (s.sqRecord rail f).sansSqHist = s.sansSqHist := rfl

theorem State.undetAt_sansSqHist (s : State) (rail : Nat) (x : Schmitt) : (s.undetAt rail x).sansSqHist = s.sansSqHist := by
  unfold State.undetAt
  split
  · exact State.sqRecord_sansSqHist s rail .undet
  · rfl

theorem State.sq_of_sansSqHist {s t : State} (h : t.sansSqHist = s.sansSqHist) :
    t.sq = { s.sq with hist := t.sq.hist, lost := t.sq.lost } :=
  congrArg (fun u : State => { u.sq with hist := t.sq.hist, lost := t.sq.lost }) h

theorem State.eq_of_sansSqHist {s t : State} (h : t.sansSqHist = s.sansSqHist) : t = { s with sq := t.sq } :=
  congrArg (fun u : State => { u with sq := t.sq }) h

/-- What a step for its element brings about, and no step ends, holds of every element at the end. -/
theorem State.foldl_reaches {α : Type} {Q : α → State → Prop} {f : State → α → State} (hvisit : ∀ a s, Q a (f s a))
    (hkeep : ∀ a b s, Q a s → Q a (f s b)) {l : List α} {a : α} (ha : a ∈ l) (s : State) : Q a (l.foldl f s) := by
  obtain ⟨l₁, l₂, rfl⟩ := List.append_of_mem ha
  rw [List.foldl_append, List.foldl_cons]
  exact List.foldlRecOn l₂ _ (hvisit a _) fun t ht b _ => hkeep a b t ht

/-- The first sample of one rail. -/
def State.railSample (pg : Vector Schmitt 12) (s : State) (x : RailId) : State :=
  (s.modRail x fun r => { r with pg := decide (pg[x] = .high), undet := decide (pg[x] = .band) }).undetAt x.val pg[x]

/-- A rail shows the level of its pin. -/
def State.railShows (pg : Vector Schmitt 12) (x : RailId) (s : State) : Prop :=
  s.sq.rails[x].pg = decide (pg[x] = .high) ∧ s.sq.rails[x].undet = decide (pg[x] = .band)

theorem State.railShows_of_rails {pg : Vector Schmitt 12} {x : RailId} {s t : State} (h : t.sq.rails = s.sq.rails)
    (hs : s.railShows pg x) : t.railShows pg x := by
  unfold State.railShows
  rw [h]
  exact hs

theorem State.rails_of_sansSqHist {s t : State} (h : t.sansSqHist = s.sansSqHist) : t.sq.rails = s.sq.rails :=
  (congrArg (fun u : State => u.sq.rails) h :)

theorem State.railSample_shows (pg : Vector Schmitt 12) (x : RailId) (s : State) : (s.railSample pg x).railShows pg x :=
  State.railShows_of_rails (State.rails_of_sansSqHist (State.undetAt_sansSqHist ..)) (by
    unfold State.railShows
    rw [State.modRail_same]
    exact ⟨rfl, rfl⟩)

theorem State.railSample_keeps (pg : Vector Schmitt 12) (x y : RailId) (s : State) (hs : s.railShows pg x) :
    (s.railSample pg y).railShows pg x := by
  by_cases hxy : y = x
  · subst hxy
    exact State.railSample_shows pg y s
  · refine State.railShows_of_rails (State.rails_of_sansSqHist (State.undetAt_sansSqHist ..)) ?_
    unfold State.railShows State.modRail
    dsimp only
    rw [Vector.getElem_set_fin, if_neg hxy]
    exact hs

/-- A rail's sample changes the sequencer alone. -/
theorem State.railSample_eq (pg : Vector Schmitt 12) (s : State) (x : RailId) :
    s.railSample pg x = { s with sq := (s.railSample pg x).sq } :=
  congrArg (fun u : State => { u with sq := (s.railSample pg x).sq })
    (State.undetAt_sansSqHist (s.modRail x fun r => { r with pg := decide (pg[x] = .high), undet := decide (pg[x] = .band) })
      x.val pg[x])

theorem State.railSamples_eq (pg : Vector Schmitt 12) (s : State) (l : List RailId) :
    l.foldl (State.railSample pg) s = { s with sq := (l.foldl (State.railSample pg) s).sq } :=
  List.foldlRecOn (motive := fun t : State => t = { s with sq := t.sq }) l _ rfl fun t ht x _ => by
    rw [State.railSample_eq pg t x]
    exact congrArg (fun u : State => { u with sq := (t.railSample pg x).sq }) ht

/-- The levels other than the rails', sampled. -/
def State.pinSample (cin reti faultN : Schmitt) (s : State) : State :=
  { s with sq := { s.sq with cin := decide (cin = Schmitt.high), reti := decide (reti = Schmitt.high), faultN := decide (faultN ≠ Schmitt.low), undetC := BitVec.ofNat 3 (4 * b2n (faultN = .band) + 2 * b2n (reti = .band) + b2n (cin = .band)) } }

theorem State.firstSample_sansSqHist (s : State) (pg : Vector Schmitt 12) (cin reti faultN : Schmitt) :
    (s.firstSample pg cin reti faultN).sansSqHist =
      ((allRails.foldl (State.railSample pg) s).pinSample cin reti faultN).sansSqHist := by
  show (((State.undetAt _ 0xF cin).undetAt 0xF reti).undetAt 0xF faultN).sansSqHist = _
  rw [State.undetAt_sansSqHist, State.undetAt_sansSqHist, State.undetAt_sansSqHist]
  rfl

theorem State.firstSample_eq (s : State) (pg : Vector Schmitt 12) (cin reti faultN : Schmitt) :
    s.firstSample pg cin reti faultN = { s with sq := (s.firstSample pg cin reti faultN).sq } := by
  have hpins := State.eq_of_sansSqHist (s.firstSample_sansSqHist pg cin reti faultN)
  exact hpins.trans (congrArg (fun u : State => { u with sq := (s.firstSample pg cin reti faultN).sq })
    (State.railSamples_eq pg s allRails))

theorem State.firstSample_rails (s : State) (pg : Vector Schmitt 12) (cin reti faultN : Schmitt) (x : RailId) :
    (s.firstSample pg cin reti faultN).railShows pg x :=
  State.railShows_of_rails (State.rails_of_sansSqHist (s.firstSample_sansSqHist pg cin reti faultN))
    (State.foldl_reaches (Q := State.railShows pg) (f := State.railSample pg) (State.railSample_shows pg)
      (State.railSample_keeps pg) (List.mem_finRange x) s)

theorem State.firstSample_pins (s : State) (pg : Vector Schmitt 12) (cin reti faultN : Schmitt) :
    (s.firstSample pg cin reti faultN).sq.cin = decide (cin = .high) ∧
    (s.firstSample pg cin reti faultN).sq.reti = decide (reti = .high) ∧
    (s.firstSample pg cin reti faultN).sq.faultN = decide (faultN ≠ .low) := by
  have hsq := State.sq_of_sansSqHist (s.firstSample_sansSqHist pg cin reti faultN)
  rw [hsq]
  exact ⟨rfl, rfl, rfl⟩

/-! ### PRE_REGULATOR_START (R57, R72, R195) -/

/-- The HV die is up, with what its fuse reads gave, and the insertion is counted. -/
def State.inserted (s : State) (u m d : Bool) : State :=
  { s with sup := { s.sup with hvUp := true, hvUncorr := u || m, hvMargin := d && !u && !m }, health := { s.health with insertions := sat32 (s.health.insertions + 1) } }

theorem State.hsFirst_eq (s : State) : s.hsFirst = { s with hs := s.hsFirst.hs } := by
  unfold State.hsFirst
  split <;> rfl

theorem State.hsFirst_st (s : State) : s.hsFirst.hs.st = if s.sup.hvUncorr || !s.hsSetOk then .lockout else s.hs.st := by
  unfold State.hsFirst
  split <;> rfl

theorem execPreRegulatorStart_down (s : State) (u m d : Bool) (pg : Vector Schmitt 12) (cin reti fn : Schmitt)
    (hdown : s.sup.hvUp = false) :
    exec (.preRegulatorStart u m d pg cin reti fn) s = .next ((s.inserted u m d).firstSample pg cin reti fn).hsFirst :=
  if_neg (by simp [hdown])

theorem execPreRegulatorStart_up (s : State) (u m d : Bool) (pg : Vector Schmitt 12) (cin reti fn : Schmitt)
    (hup : s.sup.hvUp = true) : exec (.preRegulatorStart u m d pg cin reti fn) s = .next s :=
  if_pos hup

/-- An insertion changes the supplies, the sequencer, the hot-swap block and the count of insertions alone. -/
theorem State.insertion_eq (s : State) (u m d : Bool) (pg : Vector Schmitt 12) (cin reti fn : Schmitt) :
    ((s.inserted u m d).firstSample pg cin reti fn).hsFirst =
      { s.inserted u m d with sq := ((s.inserted u m d).firstSample pg cin reti fn).sq, hs := (((s.inserted u m d).firstSample pg cin reti fn).hsFirst).hs } :=
  (State.hsFirst_eq _).trans (congrArg
    (fun v : State => { v with hs := (((s.inserted u m d).firstSample pg cin reti fn).hsFirst).hs })
    (State.firstSample_eq (s.inserted u m d) pg cin reti fn))

theorem State.insertion_st (s : State) (u m d : Bool) (pg : Vector Schmitt 12) (cin reti fn : Schmitt) :
    (((s.inserted u m d).firstSample pg cin reti fn).hsFirst).hs.st =
      if u || m || !s.hsSetOk then .lockout else s.hs.st := by
  rw [State.hsFirst_st, State.firstSample_eq]
  rfl

/-! ### The whole Station reset (R57, R564, R574) -/

theorem blow_zero (x : BitVec 64) : blow x 0 = x := by
  simp [blow]

/-- An advance of the anti-rollback level ends; fuses up to the new level can be blown. -/
theorem State.advanceCutShort_eq (s : State) : ∃ k fresh, k ≤ max s.arbSealed s.running.arbLevel ∧
    (s.advance = [] → k = 0) ∧
    s.advanceCutShort = { s with advance := [], fresh := fresh, fuse := { s.fuse with arb := blow s.fuse.arb k } } := by
  unfold State.advanceCutShort
  cases hadv : s.advance with
  | nil =>
    refine ⟨0, s.fresh, Nat.zero_le _, fun _ => rfl, ?_⟩
    rw [blow_zero]
    exact congrArg (fun l => ({ s with advance := l } : State)) hadv
  | cons c l =>
    refine ⟨s.arbSealed + Config.advanceCut s.fresh % (s.running.arbLevel - s.arbSealed + 1), s.fresh + 1, ?_,
      fun hnil => absurd hnil (List.cons_ne_nil c l), rfl⟩
    have hcut : Config.advanceCut s.fresh % (s.running.arbLevel - s.arbSealed + 1) < s.running.arbLevel - s.arbSealed + 1 :=
      Nat.mod_lt _ (Nat.succ_pos _)
    omega

/-- What a program cut short does not touch. -/
theorem Store.cut_array (st : Store) (k : Nat) :
    (st.cut k).user = st.user ∧ (st.cut k).copyA = st.copyA ∧ (st.cut k).copyB = st.copyB ∧
    (st.cut k).marks = st.marks ∧ (st.cut k).bad = st.bad ∧ (st.cut k).cycles = st.cycles := by
  unfold Store.cut
  cases st.prog <;> simp [Store.tear, Store.spoil]

/-- What the store array still holds is as it was, but for the page that a program was cut short in. -/
theorem Store.kept_array (st : Store) (k : Nat) :
    (st.kept k).user = st.user ∧ (st.kept k).copyA = st.copyA ∧ (st.kept k).copyB = st.copyB ∧
    (st.kept k).marks = st.marks ∧ (st.kept k).bad = st.bad ∧ (st.kept k).cycles = st.cycles :=
  st.cut_array k

theorem Store.kept_idle (st : Store) (k : Nat) (hprog : st.prog = none) :
    (st.kept k).ring = st.ring ∧ (st.kept k).log = st.log ∧ (st.kept k).gens = st.gens ∧
    (st.kept k).prot0 = st.prot0 ∧ (st.kept k).prot1 = st.prot1 := by
  have hcut : st.cut k = st := by simp only [Store.cut, hprog]
  show (st.cut k).ring = _ ∧ (st.cut k).log = _ ∧ (st.cut k).gens = _ ∧ (st.cut k).prot0 = _ ∧ (st.cut k).prot1 = _
  rw [hcut]
  exact ⟨rfl, rfl, rfl, rfl, rfl⟩

theorem Store.kept_gens (st : Store) (k : Nat) {r : PageReq} (hprog : st.prog = some r) :
    (st.kept k).gens = setCount st.gens r.page (countOf st.gens r.page + 1) := by
  show (st.cut k).gens = _
  simp only [Store.cut, hprog]
  rfl

/-- The Station after its whole reset, beside the store: the fuses with the `k` first blown, the image banks, the SERVICE
level. -/
def State.bare (s : State) (k fresh : Nat) (store : Store) : State :=
  { State.reset with fuse := { s.fuse with arb := blow s.fuse.arb k }, bankA := s.bankA, bankB := s.bankB, pending := s.pending, fresh := fresh, sup := { Supplies.reset with servicePin := s.sup.servicePin }, store := store }

theorem State.wipe_eq (s : State) : ∃ k fresh j, k ≤ max s.arbSealed s.running.arbLevel ∧ (s.advance = [] → k = 0) ∧
    s.wipe = s.bare k fresh (s.store.kept j) := by
  obtain ⟨k, fresh, hk, hnone, heq⟩ := s.advanceCutShort_eq
  refine ⟨k, fresh + 1, fresh, hk, hnone, ?_⟩
  unfold State.wipe
  rw [heq]
  rfl

/-- Settles O5: the insertion is written out once, and both losses of supply are the same whole reset. -/
theorem suppliesAndInsertion : Obligations.SuppliesAndInsertion := by
  unfold Obligations.SuppliesAndInsertion
  refine ⟨?start, fun s u m d pg cin reti fn hup => ⟨s, execPreRegulatorStart_up s u m d pg cin reti fn hup, rfl⟩,
    fun s => ⟨s.wipe, rfl, ?reset⟩, fun s => ⟨s.wipe, rfl, ?loss⟩⟩
  case start =>
    intro s u m d pg cin reti fn hdown
    refine ⟨_, execPreRegulatorStart_down s u m d pg cin reti fn hdown, ?_⟩
    obtain ⟨hcin, hreti, hfault⟩ := State.firstSample_pins (s.inserted u m d) pg cin reti fn
    have hst := State.insertion_st s u m d pg cin reti fn
    rw [State.insertion_eq]
    exact ⟨rfl, rfl, rfl, rfl, State.firstSample_rails _ pg cin reti fn, hcin, hreti, hfault, hst, rfl, rfl, rfl⟩
  case reset | loss =>
    obtain ⟨k, fresh, j, hk, hnone, heq⟩ := s.wipe_eq
    obtain ⟨huser, hA, hB, hmarks, hbad, hcycles⟩ := s.store.kept_array j
    rw [heq]
    refine ⟨rfl, fun hadv => ?_, ⟨k, rfl, hk⟩, rfl, rfl, rfl, rfl, huser, hA, hB, hmarks, hbad, hcycles,
      s.store.kept_idle j, fun r => s.store.kept_gens j⟩
    show { s.fuse with arb := blow s.fuse.arb k } = s.fuse
    rw [hnone hadv, blow_zero]

end Sys2Proof.Machine
end

section
/-! SUPPORT. The state but for what an event, a report of health, a completion or a booking changes: what such an operation
leaves alone is one equation of such states, whatever it is part of. -/

-- Declarations in turn: the stack of every thread counts toward the memory that the check allows the one text.
set_option Elab.async false

namespace Sys2Proof.Machine

/-- A fold keeps what its every step keeps. -/
theorem State.foldl_keeps {α β : Type} (g : State → β) (f : State → α → State) (h : ∀ s a, g (f s a) = g s) (l : List α)
    (s : State) : g (l.foldl f s) = g s :=
  List.foldlRecOn (motive := fun t => g t = g s) l f rfl fun t ht a _ => (h t a).trans ht

theorem State.forPorts_same {β : Type} (g : State → β) (f : PortId → State → State) (h : ∀ n s, g (f n s) = g s)
    (s : State) : g (s.forPorts f) = g s :=
  State.foldl_keeps g (fun s n => f n s) (fun s n => h n s) allPorts s

theorem Vector.map_map_of_eq {α β : Type} {n : Nat} {f : α → α} {g : α → β} (h : ∀ x, g (f x) = g x) (v : Vector α n) :
    (v.map f).map g = v.map g := by
  rw [Vector.map_map]
  exact congrArg (fun k => v.map k) (funext h)

theorem Vector.getElem_of_map_eq {α β : Type} {n : Nat} {g : α → β} {v w : Vector α n} (h : v.map g = w.map g)
    (i : Fin n) : g v[i] = g w[i] := by
  have hi := congrArg (fun u : Vector β n => u[i]) h
  simpa only [Vector.getElem_map_fin] using hi

/-! ### Events (R422, R425) -/

/-- A host port but for its queue of events. -/
def HostFe.sansEvents (h : HostFe) : HostFe := { h with events := [], dropped := 0, lost := none }

theorem HostFe.eq_of_sansEvents {v w : Vector HostFe 5} (h : v.map HostFe.sansEvents = w.map HostFe.sansEvents) (i : Fin 5) :
    v[i] = { w[i] with events := v[i].events, dropped := v[i].dropped, lost := v[i].lost } :=
  congrArg (fun x : HostFe => { x with events := v[i].events, dropped := v[i].dropped, lost := v[i].lost })
    (Vector.getElem_of_map_eq h i)

theorem HostFe.slip_sansEvents (h : HostFe) (a : Word) (j : Nat) : (h.slip a j).sansEvents = h.sansEvents := rfl

theorem HostFe.offer_sansEvents (h : HostFe) (e : Event) (j : Nat) : (h.offer e j).sansEvents = h.sansEvents := by
  unfold HostFe.offer
  dsimp only
  split <;> rfl

/-- The state but for the queues of events, the SSN and its place in the tick, and the store with the Log. -/
def State.sansEvents (s : State) : State :=
  { s with host := s.host.map HostFe.sansEvents, ssn := 0, resume := false, seqTick := [], store := Store.reset }

theorem State.host_sansEvents {s : State} {f : HostFe → HostFe} (h : ∀ x, (f x).sansEvents = x.sansEvents) :
    ({ s with host := s.host.map f } : State).sansEvents = s.sansEvents :=
  congrArg (fun v : Vector HostFe 5 => { s.sansEvents with host := v }) (Vector.map_map_of_eq h s.host)

theorem State.seqPut_sansEvents (s : State) (rank j : Nat) : (s.seqPut rank j).sansEvents = s.sansEvents :=
  State.host_sansEvents (s := s) fun x => HostFe.slip_sansEvents x (s.ssn - BitVec.ofNat 32 j) j

theorem State.logAdd_sansEvents (s : State) (e : Event) : (s.logAdd e).sansEvents = s.sansEvents := by
  simp only [State.logAdd]
  split <;> rfl

theorem State.emitFull_sansEvents (s : State) (code source : BitVec 16) (payload : List Byte) (ct : CT) (hist : Bool) :
    (s.emitFull code source payload ct hist).sansEvents = s.sansEvents := by
  have hoffer (e : Event) (u : State) (j g : Nat) :
      ({ u with host := u.host.map fun (h : HostFe) => if bit h.sub g then h.offer e j else h } : State).sansEvents =
        u.sansEvents :=
    State.host_sansEvents fun x => by
      split
      · exact HostFe.offer_sansEvents x e j
      · rfl
  simp only [State.emitFull]
  split
  · rw [State.logAdd_sansEvents, hoffer, State.seqPut_sansEvents]
  · rw [hoffer, State.seqPut_sansEvents]

theorem State.emit_sansEvents (s : State) (code source : BitVec 16) (payload : List Byte) :
    (s.emit code source payload).sansEvents = s.sansEvents :=
  State.emitFull_sansEvents ..

theorem State.emitSt_sansEvents (s : State) (code : BitVec 16) (payload : List Byte) :
    (s.emitSt code payload).sansEvents = s.sansEvents :=
  State.emitFull_sansEvents ..

/-! ### Causes of health (R579 to R581) -/

/-- The state but for what an event changes, the causes in force and core SB's request for replacement. -/
def State.sansReports (s : State) : State :=
  { s.sansEvents with health := { s.health with active := 0 }, sup := { s.sup with replaceReq := false } }

theorem State.sansReports_of_sansEvents {s t : State} (h : t.sansEvents = s.sansEvents) : t.sansReports = s.sansReports :=
  congrArg (fun u : State => { u with health := { u.health with active := 0 }, sup := { u.sup with replaceReq := false } }) h

theorem State.raiseHealth_sansReports (s : State) (cause unit detail value : Nat) :
    (s.raiseHealth cause unit detail value).sansReports = s.sansReports := by
  simp only [State.raiseHealth]
  split <;> exact (State.sansReports_of_sansEvents (State.emitSt_sansEvents ..)).trans rfl

/-! ### Completions (R410, R457, R463) -/

/-- A host port but for its queue of events, the tags held and the places kept. -/
def HostFe.sansTags (h : HostFe) : HostFe := { h.sansEvents with held := [], reserved := 0 }

/-- The state but for what an event changes, the tags held and the commands in progress. -/
def State.sansTags (s : State) : State := { s.sansEvents with host := s.host.map HostFe.sansTags, active := [] }

theorem HostFe.eq_of_sansTags {v w : Vector HostFe 5} (h : v.map HostFe.sansTags = w.map HostFe.sansTags) (i : Fin 5) :
    v[i] = { w[i] with held := v[i].held, events := v[i].events, reserved := v[i].reserved,
                       dropped := v[i].dropped, lost := v[i].lost } :=
  congrArg (fun x : HostFe => { x with held := v[i].held, events := v[i].events, reserved := v[i].reserved,
                                        dropped := v[i].dropped, lost := v[i].lost })
    (Vector.getElem_of_map_eq h i)

theorem State.sansTags_of_sansEvents {s t : State} (h : t.sansEvents = s.sansEvents) : t.sansTags = s.sansTags := by
  have hhost : t.host.map HostFe.sansTags = s.host.map HostFe.sansTags := by
    have hmap := congrArg (fun u : State => u.host.map HostFe.sansTags) h
    simp only [State.sansEvents] at hmap
    rwa [Vector.map_map_of_eq (f := HostFe.sansEvents) (g := HostFe.sansTags) (fun _ => rfl),
      Vector.map_map_of_eq (f := HostFe.sansEvents) (g := HostFe.sansTags) (fun _ => rfl)] at hmap
  unfold State.sansTags
  rw [h, hhost]

theorem State.modHost_sansTags {s : State} {h : HostPort} {f : HostFe → HostFe} (hf : ∀ x, (f x).sansTags = x.sansTags) :
    (s.modHost h f).sansTags = s.sansTags :=
  congrArg (fun v : Vector HostFe 5 => { s.sansTags with host := v }) (Vector.map_set_of_eq HostFe.sansTags s.host h.ix _ (hf _))

theorem State.complete_sansTags (s : State) (r : CmdRef) (st : BitVec 16) (result : List Byte) :
    (s.complete r st result).sansTags = s.sansTags := by
  simp only [State.complete]
  split
  · rfl
  · refine (State.modHost_sansTags ?_).trans ?_
    · exact fun _ => rfl
    · rfl

/-! ### Bookings (R122 to R127, R132, R133) -/

/-- The Timetable but for its bookings, the ledger, and what has come of those of the tick. -/
def Timetable.sansPlaces (t : Timetable) : Timetable :=
  { t with entries := Vector.replicate 256 none, ledger := [], news := [], moved := [], dropped := [] }

/-- The state but for the bookings of the Timetable. -/
def State.sansPlaces (s : State) : State := { s with tt := s.tt.sansPlaces }

theorem Timetable.eq_of_sansPlaces {t u : Timetable} (h : t.sansPlaces = u.sansPlaces) :
    t = { u with entries := t.entries, ledger := t.ledger, news := t.news, moved := t.moved, dropped := t.dropped } :=
  congrArg (fun x : Timetable => { x with entries := t.entries, ledger := t.ledger, news := t.news, moved := t.moved, dropped := t.dropped }) h

theorem State.settleOne_sansPlaces (s : State) (x : Fin 256 × Nat) : (s.settleOne x).sansPlaces = s.sansPlaces := by
  unfold State.settleOne
  (repeat' split) <;> rfl

theorem State.resettle_sansPlaces (s : State) : s.resettle.sansPlaces = s.sansPlaces :=
  State.foldl_keeps State.sansPlaces State.settleOne State.settleOne_sansPlaces s.tt.news
    { s with tt := { s.tt with ledger := s.tt.without s.tt.news } }

theorem Timetable.cancel_sansPlaces (t : Timetable) (i : Fin 256) : (t.cancel i).sansPlaces = t.sansPlaces := by
  unfold Timetable.cancel
  split <;> rfl

theorem State.book_sansPlaces (s : State) (a : Asker) (b : Booking) : (s.book a b).1.sansPlaces = s.sansPlaces := by
  simp only [State.book]
  iterate 7
    refine iteInduction (motive := fun r : State × Booked => r.1.sansPlaces = s.sansPlaces) (fun _ => rfl) fun _ => ?_
  split
  · exact State.foldl_keeps State.sansPlaces State.settleOne State.settleOne_sansPlaces _ _
  · rfl

theorem State.bookPort_sansPlaces (s : State) (n : PortId) (k : Kind) (dur : Nat) (req : Option CT) (step : Int) (inc : Nat) :
    (s.bookPort n k dur req step inc).1.sansPlaces = s.sansPlaces :=
  State.book_sansPlaces ..

end Sys2Proof.Machine
end

section
/-! SUPPORT. What the commands of the supplies, the clock, the hot-swap block and the sequencer leave alone, one equation per
group of fields that they share (O57). -/

-- Declarations in turn: the stack of every thread counts toward the memory that the check allows the one text.
set_option Elab.async false

namespace Sys2Proof.Machine

/-! ### An answer, and the equations of a blanked state -/

/-- A command that acts under a guard and does nothing without it. -/
theorem answers_ite {P : State → Prop} {c : Prop} {_ : Decidable c} {a s : State} (ha : P a) (hs : P s) :
    ∃ t, (.next (if c then a else s) : Host.Outcome State Fault Refusal) = .next t ∧ P t :=
  ⟨_, rfl, by split; exacts [ha, hs]⟩

/-- Of a host port only the queue of events differs. -/
def State.onlyEvents (s t : State) : Prop :=
  ∀ i : Fin 5, t.host[i] =
    { s.host[i] with events := t.host[i].events, dropped := t.host[i].dropped, lost := t.host[i].lost }

/-- Of the supplies only the request for replacement differs, of a host port the queue of events, of health the causes in
force. -/
def State.onlyReports (s t : State) : Prop :=
  t.sup = { s.sup with replaceReq := t.sup.replaceReq } ∧ State.onlyEvents s t ∧
    t.health = { s.health with active := t.health.active }

/-- Of the Timetable only its bookings differ. -/
def State.onlyPlaces (s t : State) : Prop :=
  t.tt = { s.tt with entries := t.tt.entries, ledger := t.tt.ledger, news := t.tt.news, moved := t.tt.moved,
                     dropped := t.tt.dropped }

theorem State.hosts_of_sansEvents {s t : State} (h : t.sansEvents = s.sansEvents) : State.onlyEvents s t :=
  HostFe.eq_of_sansEvents (congrArg State.host h)

theorem State.eq_of_sansEvents {s t : State} (h : t.sansEvents = s.sansEvents) :
    t = { s with host := t.host, ssn := t.ssn, resume := t.resume, seqTick := t.seqTick, store := t.store } :=
  congrArg (fun u : State =>
    { u with host := t.host, ssn := t.ssn, resume := t.resume, seqTick := t.seqTick, store := t.store }) h

theorem State.frame_of_sansReports {s t : State} (h : t.sansReports = s.sansReports) :
    t = { s with sup := t.sup, host := t.host, ssn := t.ssn, resume := t.resume,
                 seqTick := t.seqTick, store := t.store, health := t.health } ∧
    State.onlyReports s t :=
  ⟨congrArg (fun u : State =>
     { u with sup := t.sup, host := t.host, ssn := t.ssn, resume := t.resume, seqTick := t.seqTick, store := t.store,
              health := t.health }) h,
   congrArg (fun u : State => { u.sup with replaceReq := t.sup.replaceReq }) h,
   HostFe.eq_of_sansEvents (congrArg State.host h),
   congrArg (fun u : State => { u.health with active := t.health.active }) h⟩

theorem State.eq_of_sansPlaces {s t : State} (h : t.sansPlaces = s.sansPlaces) : t = { s with tt := t.tt } :=
  congrArg (fun u : State => { u with tt := t.tt }) h

theorem State.tt_of_sansPlaces {s t : State} (h : t.sansPlaces = s.sansPlaces) : State.onlyPlaces s t :=
  Timetable.eq_of_sansPlaces (congrArg State.tt h)

/-! ### Chassis time (R90 to R99) -/

/-- A change of chassis time, with its event where there is one. -/
theorem State.enterHoldover_time (s : State) (cause : BitVec 4) :
    ∃ x, (s.enterHoldover cause).sansEvents = ({ s with time := x } : State).sansEvents := by
  unfold State.enterHoldover
  split
  · exact ⟨_, State.emitSt_sansEvents ..⟩
  · exact ⟨_, State.emitSt_sansEvents ..⟩
  · exact ⟨s.time, rfl⟩

theorem State.frame_of_time {s t : State} (h : ∃ x, t.sansEvents = ({ s with time := x } : State).sansEvents) :
    t = { s with time := t.time, host := t.host, ssn := t.ssn, resume := t.resume, seqTick := t.seqTick, store := t.store } ∧
    State.onlyEvents s t := by
  obtain ⟨x, h⟩ := h
  obtain rfl : t.time = x := congrArg State.time h
  exact ⟨(State.eq_of_sansEvents h :), (State.hosts_of_sansEvents h :)⟩

/-! ### The slot (R46, R47) -/

theorem State.slotCheck_sansReports (s : State) : s.slotCheck.sansReports = s.sansReports := by
  unfold State.slotCheck
  split
  · split
    · exact State.raiseHealth_sansReports ..
    · rfl
  · rfl

/-- The slot's report takes the changes kept for it and raises a cause for each. -/
theorem State.slotReport_sansReports (s : State) :
    ∃ x, s.slotReport.sansReports = ({ s with sup := { s.sup with slotChanged := x } } : State).sansReports := by
  have hraise (u : State) (v : BitVec 6) : (u.raiseHealth 1 0xFF v.toNat 0).sansReports = u.sansReports :=
    State.raiseHealth_sansReports ..
  unfold State.slotReport
  split
  · exact ⟨[], State.foldl_keeps State.sansReports _ hraise _ _⟩
  · exact ⟨s.sup.slotChanged, rfl⟩

/-! ### The hot-swap block (R149, R162) -/

/-- A change of the hot-swap block, with the causes of health it raises. -/
theorem State.hsReport_hs (s : State) : ∃ x, s.hsReport.sansReports = ({ s with hs := x } : State).sansReports := by
  have hraise (u : State) (b : Bool) (x : HotSwap) (cause detail : Nat) :
      ∃ y, (if b then ({ u with hs := x } : State).raiseHealth cause 0xFF detail 0 else u).sansReports =
        ({ u with hs := y } : State).sansReports := by
    split
    · exact ⟨x, State.raiseHealth_sansReports ..⟩
    · exact ⟨u.hs, rfl⟩
  simp only [State.hsReport]
  split
  · obtain ⟨x, hx⟩ := hraise s s.hs.nocadDue { s.hs with nocadDue := false } 4 0
    obtain ⟨y, hy⟩ := hraise _ _ _ 5 3
    exact ⟨y, hy.trans (congrArg (fun u : State => { u with hs := y }) hx)⟩
  · exact ⟨s.hs, rfl⟩

theorem State.toInrush_hs (s : State) (noLock : Bool) :
    ∃ x, (s.toInrush noLock).sansReports = ({ s with hs := x } : State).sansReports :=
  State.hsReport_hs _

theorem State.frame_of_hs {s t : State} (h : ∃ x, t.sansReports = ({ s with hs := x } : State).sansReports) :
    t = { s with sup := t.sup, hs := t.hs, host := t.host, ssn := t.ssn, resume := t.resume,
                 seqTick := t.seqTick, store := t.store, health := t.health } ∧
    State.onlyReports s t := by
  obtain ⟨x, h⟩ := h
  obtain rfl : t.hs = x := congrArg State.hs h
  exact (State.frame_of_sansReports h :)

/-- The cancellation of entries touches the entries, the ledger and the bookings of the tick. -/
theorem Timetable.cancelWhere_keeps (t : Timetable) (p : Entry → Bool) :
    t.cancelWhere p = { t with entries := (t.cancelWhere p).entries, ledger := (t.cancelWhere p).ledger,
                               news := (t.cancelWhere p).news } := by
  have hkeep : ({ t.cancelWhere p with entries := t.entries, ledger := t.ledger, news := t.news } : Timetable) = t :=
    List.foldlRecOn (motive := fun u : Timetable => ({ u with entries := t.entries, ledger := t.ledger, news := t.news } : Timetable) = t)
      (t.pick p) _ rfl fun u hu i _ => by
        rw [← hu]
        unfold Timetable.cancel
        split <;> rfl
  exact congrArg (fun u : Timetable =>
    { u with entries := (t.cancelWhere p).entries, ledger := (t.cancelWhere p).ledger, news := (t.cancelWhere p).news }) hkeep

/-! ### The sequencer (R176) -/

theorem State.sqGoto_sansReports (s : State) (st : SqState) :
    ∃ h l, (s.sqGoto st).sansReports = ({ s with sq := { s.sq with st := st, hist := h, lost := l } } : State).sansReports := by
  simp only [State.sqGoto]
  split
  · exact ⟨_, _, State.raiseHealth_sansReports ..⟩
  · exact ⟨_, _, rfl⟩

theorem State.beginStep_sq (s : State) (k : Nat) : s.beginStep k = { s with sq := (s.beginStep k).sq } := by
  have hkeep : ({ s.beginStep k with sq := s.sq } : State) = s :=
    List.foldlRecOn (motive := fun u : State => ({ u with sq := s.sq } : State) = s) _ _ rfl fun _ hu _ _ => hu
  exact congrArg (fun u : State => { u with sq := (s.beginStep k).sq }) hkeep

theorem State.beginStep_sansReports {s u : State} {x : Sequencer}
    (h : u.sansReports = ({ s with sq := x } : State).sansReports) (k : Nat) :
    (u.beginStep k).sansReports = ({ s with sq := (u.beginStep k).sq } : State).sansReports :=
  (congrArg State.sansReports (State.beginStep_sq u k)).trans
    (congrArg (fun v : State => { v with sq := (u.beginStep k).sq }) h)

theorem State.frame_of_sq {s t : State} (h : ∃ x, t.sansReports = ({ s with sq := x } : State).sansReports) :
    t = { s with sup := t.sup, sq := t.sq, host := t.host, ssn := t.ssn, resume := t.resume,
                 seqTick := t.seqTick, store := t.store, health := t.health } ∧
    State.onlyReports s t := by
  obtain ⟨x, h⟩ := h
  obtain rfl : t.sq = x := congrArg State.sq h
  exact (State.frame_of_sansReports h :)

/-! ### The copy of the histories (R425) -/

/-- The state but for what an event changes and the histories of the HV die. -/
def State.sansHist (s : State) : State :=
  { s.sansEvents with hs := { s.hs with hist := [], lost := 0 }, sq := { s.sq with hist := [], lost := 0 } }

theorem State.sansHist_of_sansEvents {s t : State} (h : t.sansEvents = s.sansEvents) : t.sansHist = s.sansHist :=
  congrArg (fun u : State => { u with hs := { u.hs with hist := [], lost := 0 }, sq := { u.sq with hist := [], lost := 0 } }) h

theorem State.hsEvent_sansHist (s : State) (e : HsHist) : (s.hsEvent e).sansHist = s.sansHist :=
  State.sansHist_of_sansEvents (s := { s with hs := { s.hs with lost := 0 } }) (State.emitFull_sansEvents ..)

theorem State.sqEvent_sansHist (s : State) (e : SqHist) : (s.sqEvent e).sansHist = s.sansHist :=
  State.sansHist_of_sansEvents (s := { s with sq := { s.sq with lost := 0 } }) (State.emitFull_sansEvents ..)

theorem State.historyCopy_sansHist (s : State) : s.historyCopy.sansHist = s.sansHist := by
  simp only [State.historyCopy]
  split
  · exact (State.foldl_keeps _ _ State.sqEvent_sansHist _ _).trans (State.foldl_keeps _ _ State.hsEvent_sansHist _ _)
  · rfl

end Sys2Proof.Machine
end

section
/-! SUPPORT. What a command's visit to every port leaves alone (O57). -/

-- Declarations in turn: the stack of every thread counts toward the memory that the check allows the one text.
set_option Elab.async false

namespace Sys2Proof.Machine

/-! ### Ports but for some of their fields -/

/-- The state with every port seen through `g`, which blanks the fields that an operation may change. -/
def State.sansPorts (g : Port → Port) (s : State) : State := { s with port := s.port.map g }

theorem State.modPort_sansPorts {g : Port → Port} (s : State) (n : PortId) {f : Port → Port}
    (h : ∀ p, g (f p) = g p := by intro; rfl) : (s.modPort n f).sansPorts g = s.sansPorts g :=
  congrArg (fun v : Vector Port 24 => { s with port := v }) (Vector.map_set_of_eq g s.port n _ (h _))

/-- The state but for the bookings of the Timetable and what `g` blanks of its ports. -/
def State.sansAsks (g : Port → Port) (s : State) : State := s.sansPlaces.sansPorts g

theorem State.modPort_sansAsks {g : Port → Port} (s : State) (n : PortId) {f : Port → Port}
    (h : ∀ p, g (f p) = g p := by intro; rfl) : (s.modPort n f).sansAsks g = s.sansAsks g :=
  State.modPort_sansPorts s.sansPlaces n h

theorem State.bookPort_sansAsks {g : Port → Port} (s : State) (n : PortId) (k : Kind) (dur : Nat) (req : Option CT)
    (step : Int) (inc : Nat) : (s.bookPort n k dur req step inc).1.sansAsks g = s.sansAsks g :=
  congrArg (State.sansPorts g) (State.bookPort_sansPlaces ..)

/-! ### VCP_READY (R60, R239) -/

/-- A port but for what VCP_READY may change of it. -/
def Port.sansPathAsk (p : Port) : Port :=
  { p with tc := { p.tc with pathRetry := false }, pp := { p.pp with code := 0, lim := 0, vcpWait := false },
           pd := { p.pd with hrPend := false } }

theorem State.bookPath_sansAsks (s : State) (n : PortId) :
    (s.bookPath n).sansAsks Port.sansPathAsk = s.sansAsks Port.sansPathAsk := by
  have hload : (if s.port[n].tc.st.isSource && !s.port[n].pp.st.live then s.load5 n else s).sansAsks Port.sansPathAsk =
      s.sansAsks Port.sansPathAsk := by
    split
    · exact State.modPort_sansAsks s n
    · rfl
  unfold State.bookPath
  rw [← hload]
  generalize (if s.port[n].tc.st.isSource && !s.port[n].pp.st.live then s.load5 n else s) = u
  dsimp only
  split
  · exact State.modPort_sansAsks u n
  · exact (State.modPort_sansAsks _ n).trans (State.bookPort_sansAsks ..)

/-- A port's visit by VCP_READY. -/
def State.vcpVisit (n : PortId) (s : State) : State :=
  if s.port[n].pp.vcpWait then
    let s := s.modPp n fun p => { p with vcpWait := false }
    if s.port[n].tc.st.attached && s.port[n].tc.pathRetry then s.bookPath n else s
  else s

theorem State.vcpVisit_sansAsks (n : PortId) (s : State) :
    (s.vcpVisit n).sansAsks Port.sansPathAsk = s.sansAsks Port.sansPathAsk := by
  have hmod : (s.modPp n fun p => { p with vcpWait := false }).sansAsks Port.sansPathAsk = s.sansAsks Port.sansPathAsk :=
    State.modPort_sansAsks s n
  simp only [State.vcpVisit]
  split
  · split
    · rw [State.bookPath_sansAsks, hmod]
    · exact hmod
  · rfl

theorem State.frame_of_vcpOk {s t : State} {x : Bool}
    (h : t.sansAsks Port.sansPathAsk = ({ s with sup := { s.sup with vcpOk := x } } : State).sansAsks Port.sansPathAsk) :
    t = { s with sup := t.sup, tt := t.tt, port := t.port } ∧ t.sup = { s.sup with vcpOk := t.sup.vcpOk } ∧
    State.onlyPlaces s t ∧
    ∀ m : PortId, t.port[m] = { s.port[m] with tc := t.port[m].tc, pp := t.port[m].pp, pd := t.port[m].pd } ∧
      t.port[m].tc = { s.port[m].tc with pathRetry := t.port[m].tc.pathRetry } ∧
      t.port[m].pp = { s.port[m].pp with code := t.port[m].pp.code, lim := t.port[m].pp.lim, vcpWait := t.port[m].pp.vcpWait } ∧
      t.port[m].pd = { s.port[m].pd with hrPend := t.port[m].pd.hrPend } := by
  refine ⟨congrArg (fun u : State => { u with sup := t.sup, tt := t.tt, port := t.port }) h,
    congrArg (fun u : State => { u.sup with vcpOk := t.sup.vcpOk }) h, Timetable.eq_of_sansPlaces (congrArg State.tt h), fun m => ?_⟩
  have hm : t.port[m].sansPathAsk = s.port[m].sansPathAsk := Vector.getElem_of_map_eq (congrArg State.port h) m
  exact ⟨congrArg (fun p : Port => { p with tc := t.port[m].tc, pp := t.port[m].pp, pd := t.port[m].pd }) hm,
    congrArg (fun p : Port => { p.tc with pathRetry := t.port[m].tc.pathRetry }) hm,
    congrArg (fun p : Port => { p.pp with code := t.port[m].pp.code, lim := t.port[m].pp.lim, vcpWait := t.port[m].pp.vcpWait }) hm,
    congrArg (fun p : Port => { p.pd with hrPend := t.port[m].pd.hrPend }) hm⟩

/-! ### The release of WARN_N (R162, R348) -/

/-- A port but for what the release of WARN_N may change of it. -/
def Port.sansRebook (p : Port) : Port :=
  { p with pd := { p.pd with hrReq := false }, ct := { p.ct with plan := none }, rs := { p.rs with entry := none } }

theorem State.rampRebook_sansAsks (s : State) (n : PortId) :
    (s.rampRebook n).sansAsks Port.sansRebook = s.sansAsks Port.sansRebook := by
  have hask : (s.askHr n).sansAsks Port.sansRebook = s.sansAsks Port.sansRebook := State.modPort_sansAsks s n
  unfold State.rampRebook
  split
  case h_1 => rfl
  case h_2 q _ =>
    split
    case isTrue => rfl
    case isFalse =>
      have hbook := State.bookPort_sansAsks (g := Port.sansRebook) s n .ramp 4 none (((q.k - q.fired) * q.inc : Nat) : Int) q.inc
      dsimp only
      split
      case h_1 heq =>
        rw [heq] at hbook
        exact iteInduction (motive := fun u : State => u.sansAsks Port.sansRebook = s.sansAsks Port.sansRebook)
          (fun _ => (State.modPort_sansAsks _ n).trans hbook) (fun _ => hask)
      case h_2 => exact hask

theorem State.standbyTry_sansAsks (s : State) (n : PortId) :
    (s.standbyTry n).sansAsks Port.sansRebook = s.sansAsks Port.sansRebook := by
  unfold State.standbyTry
  split
  · have hbook := State.bookPort_sansAsks (g := Port.sansRebook) s n .role 4 none (rpUnits (s.port[n].rs.frsCur.toNat - 1)) 0
    split
    case h_1 heq =>
      rw [heq] at hbook
      exact (State.modPort_sansAsks _ n).trans hbook
    case h_2 => rfl
  · rfl

/-- WARN_N off touches the hot-swap block and Primer. -/
theorem State.warnOff_keeps (s : State) :
    ∃ x p, s.warnOff = { s with hs := x, sup := { s.sup with primer := p } } := by
  unfold State.warnOff
  split
  · dsimp only
    split
    · split
      · exact ⟨_, _, rfl⟩
      · exact ⟨_, s.sup.primer, rfl⟩
    · exact ⟨_, s.sup.primer, rfl⟩
  · exact ⟨s.hs, s.sup.primer, rfl⟩

theorem State.frame_of_warnOff {s t : State} {x : HotSwap} {q : Primer}
    (h : t.sansAsks Port.sansRebook =
      ({ s with hs := x, sup := { s.sup with primer := q } } : State).sansAsks Port.sansRebook) :
    t = { s with sup := t.sup, tt := t.tt, hs := t.hs, port := t.port } ∧ t.sup = { s.sup with primer := t.sup.primer } ∧
    State.onlyPlaces s t ∧
    ∀ m : PortId, t.port[m] = { s.port[m] with pd := t.port[m].pd, ct := t.port[m].ct, rs := t.port[m].rs } ∧
      t.port[m].pd = { s.port[m].pd with hrReq := t.port[m].pd.hrReq } ∧
      t.port[m].ct = { s.port[m].ct with plan := t.port[m].ct.plan } ∧
      t.port[m].rs = { s.port[m].rs with entry := t.port[m].rs.entry } := by
  refine ⟨congrArg (fun u : State => { u with sup := t.sup, tt := t.tt, hs := t.hs, port := t.port }) h,
    congrArg (fun u : State => { u.sup with primer := t.sup.primer }) h, Timetable.eq_of_sansPlaces (congrArg State.tt h), fun m => ?_⟩
  have hm : t.port[m].sansRebook = s.port[m].sansRebook := Vector.getElem_of_map_eq (congrArg State.port h) m
  exact ⟨congrArg (fun p : Port => { p with pd := t.port[m].pd, ct := t.port[m].ct, rs := t.port[m].rs }) hm,
    congrArg (fun p : Port => { p.pd with hrReq := t.port[m].pd.hrReq }) hm,
    congrArg (fun p : Port => { p.ct with plan := t.port[m].ct.plan }) hm,
    congrArg (fun p : Port => { p.rs with entry := t.port[m].rs.entry }) hm⟩

/-! ### The hold-over of ports (R75) -/

/-- The engine of PD but for what the entry of a hold-over may change of it. -/
def Pd.sansHold (d : Pd) : Pd := { d with ctx := Pd.reset.ctx, outbox := [], sinkTxOk := false, timers := [] }

/-- A port but for what the entry of a hold-over may change of it. -/
def Port.sansHold (p : Port) : Port :=
  { p with tc := { p.tc with rpOffer := 0, blank := false }
           pd := p.pd.sansHold, alt := { p.alt with askStatus := false }, hold := false }

theorem Pd.amsBack_sansHold (d : Pd) : d.amsBack.sansHold = d.sansHold := by
  unfold Pd.amsBack
  dsimp only
  split <;> rfl

theorem Port.enterHold_sansHold (p : Port) : p.enterHold.sansHold = p.sansHold := by
  unfold Port.enterHold
  split
  · rfl
  · dsimp only
    split
    · exact congrArg (fun d : Pd => { p.sansHold with pd := d }) (Pd.amsBack_sansHold p.pd)
    · exact congrArg (fun d : Pd => { p.sansHold with pd := d }) (Pd.amsBack_sansHold p.pd)

/-- A platform but for its place in the take-back. -/
def Platform.sansTakeBack (p : Platform) : Platform := { p with takeBack := none }

/-- The state but for what the entry of a hold-over may change of its ports and platforms. -/
def State.sansHold (s : State) : State :=
  { s.sansPorts Port.sansHold with plat := s.plat.map Platform.sansTakeBack }

theorem State.modPlat_sansHold (s : State) (k : PlatId) {f : Platform → Platform}
    (h : ∀ p, (f p).sansTakeBack = p.sansTakeBack) : (s.modPlat k f).sansHold = s.sansHold :=
  congrArg (fun v : Vector Platform 4 => { s.sansHold with plat := v })
    (Vector.map_set_of_eq Platform.sansTakeBack s.plat k _ (h _))

theorem State.holdVisit_sansHold (ks : PlatId → Bool) (n : PortId) (s : State) :
    (s.holdVisit ks n).sansHold = s.sansHold := by
  unfold State.holdVisit
  split
  · exact congrArg (fun u : State => { u with plat := s.plat.map Platform.sansTakeBack })
      (State.modPort_sansPorts s n Port.enterHold_sansHold)
  · rfl

theorem State.holdEnter_sansHold (s : State) (ks : PlatId → Bool) : (s.holdEnter ks).sansHold = s.sansHold := by
  have htake (u : State) (k : PlatId) :
      (if ks k && u.plat[k].fallback then u.modPlat k fun p => { p with takeBack := some 0 } else u).sansHold = u.sansHold := by
    split
    · exact State.modPlat_sansHold u k fun _ => rfl
    · rfl
  unfold State.holdEnter
  split
  · rfl
  · exact (State.foldl_keeps State.sansHold _ htake _ _).trans
      (State.forPorts_same State.sansHold (fun n u => u.holdVisit ks n) (State.holdVisit_sansHold ks) s)

theorem State.frame_of_linkSilent {s t : State} {x : Bool}
    (h : t.sansHold = ({ s with sup := { s.sup with linkSilent := x } } : State).sansHold) :
    t = { s with sup := t.sup, port := t.port, plat := t.plat } ∧ t.sup = { s.sup with linkSilent := t.sup.linkSilent } ∧
    (∀ m : PortId, t.port[m] =
        { s.port[m] with tc := t.port[m].tc, pd := t.port[m].pd, alt := t.port[m].alt, hold := t.port[m].hold } ∧
      t.port[m].tc = { s.port[m].tc with rpOffer := t.port[m].tc.rpOffer, blank := t.port[m].tc.blank } ∧
      t.port[m].pd = { s.port[m].pd with ctx := t.port[m].pd.ctx, outbox := t.port[m].pd.outbox,
                                         sinkTxOk := t.port[m].pd.sinkTxOk, timers := t.port[m].pd.timers } ∧
      t.port[m].alt = { s.port[m].alt with askStatus := t.port[m].alt.askStatus }) ∧
    ∀ k : PlatId, t.plat[k] = { s.plat[k] with takeBack := t.plat[k].takeBack } := by
  refine ⟨congrArg (fun u : State => { u with sup := t.sup, port := t.port, plat := t.plat }) h,
    congrArg (fun u : State => { u.sup with linkSilent := t.sup.linkSilent }) h, fun m => ?_, fun k => ?_⟩
  · have hm : t.port[m].sansHold = s.port[m].sansHold := Vector.getElem_of_map_eq (congrArg State.port h) m
    exact ⟨congrArg (fun p : Port =>
        { p with tc := t.port[m].tc, pd := t.port[m].pd, alt := t.port[m].alt, hold := t.port[m].hold }) hm,
      congrArg (fun p : Port => { p.tc with rpOffer := t.port[m].tc.rpOffer, blank := t.port[m].tc.blank }) hm,
      congrArg (fun p : Port =>
        { p.pd with ctx := t.port[m].pd.ctx, outbox := t.port[m].pd.outbox, sinkTxOk := t.port[m].pd.sinkTxOk,
                    timers := t.port[m].pd.timers }) hm,
      congrArg (fun p : Port => { p.alt with askStatus := t.port[m].alt.askStatus }) hm⟩
  · have hk : t.plat[k].sansTakeBack = s.plat[k].sansTakeBack := Vector.getElem_of_map_eq (congrArg State.plat h) k
    exact congrArg (fun p : Platform => { p with takeBack := t.plat[k].takeBack }) hk

/-! ### The service report -/

/-- The service report takes the levels kept for it. -/
theorem State.serviceReport_sansEvents (s : State) :
    s.serviceReport.sansEvents =
      ({ s with sup := { s.sup with serviceDue := if s.sbUp then [] else s.sup.serviceDue } } : State).sansEvents := by
  have hlevel (u : State) (l : Bool) : (u.emitSt 0x0185 (leBytes 1 (b2n l) ++ [0, 0, 0])).sansEvents = u.sansEvents :=
    State.emitSt_sansEvents ..
  unfold State.serviceReport
  split
  · exact State.foldl_keeps State.sansEvents _ hlevel _ _
  · rfl

end Sys2Proof.Machine
end

section
/-! PROOFS. What the commands of the card leave alone (O57). -/

-- Declarations in turn: the stack of every thread counts toward the memory that the check allows the one text.
set_option Elab.async false

namespace Sys2Proof.Machine

theorem State.hsFirst_hs (s : State) :
    s.hsFirst.hs = { s.hs with st := s.hsFirst.hs.st, hist := s.hsFirst.hs.hist, lost := s.hsFirst.hs.lost } := by
  unfold State.hsFirst
  split <;> rfl

theorem State.insertion_hs (s : State) (u m d : Bool) (pg : Vector Schmitt 12) (cin reti fn : Schmitt) :
    (((s.inserted u m d).firstSample pg cin reti fn).hsFirst).hs =
      { s.hs with st := (((s.inserted u m d).firstSample pg cin reti fn).hsFirst).hs.st,
                  hist := (((s.inserted u m d).firstSample pg cin reti fn).hsFirst).hs.hist,
                  lost := (((s.inserted u m d).firstSample pg cin reti fn).hsFirst).hs.lost } := by
  have hfirst : ((s.inserted u m d).firstSample pg cin reti fn).hs = s.hs := by rw [State.firstSample_eq]; rfl
  rw [← hfirst]
  exact State.hsFirst_hs _

theorem State.frame_of_inserted {s t : State} {u m d : Bool} {x : Sequencer} {y : HotSwap}
    (h : t = { s.inserted u m d with sq := x, hs := y }) :
    t = { s with sup := t.sup, hs := t.hs, sq := t.sq, health := t.health } ∧
    t.sup = { s.sup with hvUp := t.sup.hvUp, hvUncorr := t.sup.hvUncorr, hvMargin := t.sup.hvMargin } ∧
    t.health = { s.health with insertions := t.health.insertions } := by
  subst h
  exact ⟨rfl, rfl, rfl⟩

theorem State.frame_of_restartReq {s t : State} {x : Option RestartReq}
    (h : t.sansTags = ({ s with sup := { s.sup with restartReq := x } } : State).sansTags) :
    t = { s with sup := t.sup, host := t.host, active := t.active, ssn := t.ssn, resume := t.resume, seqTick := t.seqTick, store := t.store } ∧
    t.sup = { s.sup with restartReq := t.sup.restartReq } ∧
    ∀ i : Fin 5, t.host[i] =
      { s.host[i] with held := t.host[i].held, events := t.host[i].events, reserved := t.host[i].reserved,
                       dropped := t.host[i].dropped, lost := t.host[i].lost } :=
  ⟨congrArg (fun u : State =>
     { u with sup := t.sup, host := t.host, active := t.active, ssn := t.ssn, resume := t.resume, seqTick := t.seqTick,
              store := t.store }) h,
   congrArg (fun u : State => { u.sup with restartReq := t.sup.restartReq }) h, HostFe.eq_of_sansTags (congrArg State.host h)⟩

theorem State.frame_of_serviceDue {s t : State} {l : Bool} {x : List Bool}
    (h : t.sansEvents = ({ s with sup := { s.sup with servicePin := l, serviceDue := x } } : State).sansEvents) :
    t = { s with sup := t.sup, host := t.host, ssn := t.ssn, resume := t.resume, seqTick := t.seqTick, store := t.store } ∧
    t.sup = { s.sup with servicePin := t.sup.servicePin, serviceDue := t.sup.serviceDue } ∧
    State.onlyEvents s t :=
  ⟨congrArg (fun u : State =>
     { u with sup := t.sup, host := t.host, ssn := t.ssn, resume := t.resume, seqTick := t.seqTick, store := t.store }) h,
   congrArg (fun u : State => { u.sup with servicePin := t.sup.servicePin, serviceDue := t.sup.serviceDue }) h,
   (State.hosts_of_sansEvents h :)⟩

theorem frames_of_the_supplies : Sys2Proof.framesOfTheCard1 := by
  refine ⟨?preRegulatorStart, ?vcpReady, ?logicDieRelease, ?linkSilence, ?restartAbandoned, ?serviceLevelChange, ?lifeHour,
    ?cadAbsent, ?cadOutOfTolerance, ?cadQualified⟩
  case preRegulatorStart =>
    intro u m d pg cin reti fn s
    cases hup : s.sup.hvUp
    · refine ⟨_, execPreRegulatorStart_down s u m d pg cin reti fn hup, ?_⟩
      obtain ⟨heq, hsup, hhealth⟩ := State.frame_of_inserted (State.insertion_eq s u m d pg cin reti fn)
      exact ⟨heq, hsup, State.insertion_hs s u m d pg cin reti fn, hhealth⟩
    · exact ⟨s, execPreRegulatorStart_up s u m d pg cin reti fn hup, rfl, rfl, rfl, rfl⟩
  case vcpReady =>
    intro mv s
    have hvisits := State.forPorts_same (State.sansAsks Port.sansPathAsk) State.vcpVisit State.vcpVisit_sansAsks
      { s with sup := { s.sup with vcpOk := true } }
    have hvcp : exec (.vcpReady mv) s = .next (if s.sup.hvUp && decide (11000 ≤ mv) then
      ({ s with sup := { s.sup with vcpOk := true } } : State).forPorts State.vcpVisit else s) := rfl
    rw [hvcp]
    refine answers_ite ?_ ⟨rfl, rfl, rfl, fun _ => ⟨rfl, rfl, rfl, rfl⟩⟩
    generalize State.forPorts _ State.vcpVisit = t at hvisits ⊢
    exact State.frame_of_vcpOk hvisits
  case logicDieRelease =>
    intro vdd33 vdd09 vddnt resetN s
    refine answers_ite ⟨rfl, rfl, fun m => ?_, rfl⟩ ⟨rfl, rfl, fun _ => ⟨rfl, rfl⟩, rfl⟩
    simp only [State.primerStart, Vector.getElem_map_fin, and_self]
  case linkSilence =>
    exact fun s => answers_ite (State.frame_of_linkSilent (State.holdEnter_sansHold ..))
      ⟨rfl, rfl, fun _ => ⟨rfl, rfl, rfl, rfl⟩, fun _ => rfl⟩
  case restartAbandoned =>
    intro s
    show ∃ t, execRestartAbandoned s = .next t ∧ _
    unfold execRestartAbandoned
    split
    · exact ⟨_, rfl, State.frame_of_restartReq
        ((State.complete_sansTags ..).trans (State.sansTags_of_sansEvents (State.emitSt_sansEvents ..)))⟩
    · exact ⟨s, rfl, rfl, rfl, fun _ => rfl⟩
  case serviceLevelChange =>
    exact fun _ s => ⟨_, rfl, State.frame_of_serviceDue (State.serviceReport_sansEvents _)⟩
  case lifeHour => exact fun _ _ => answers_ite ⟨rfl, rfl⟩ ⟨rfl, rfl⟩
  case cadAbsent =>
    exact fun s => answers_ite (State.frame_of_time (State.enterHoldover_time ..)) (State.frame_of_time ⟨s.time, rfl⟩)
  case cadOutOfTolerance =>
    exact fun _ _ s => answers_ite (State.frame_of_time (State.enterHoldover_time ..)) (State.frame_of_time ⟨s.time, rfl⟩)
  case cadQualified => exact fun _ _ => answers_ite ⟨rfl, rfl⟩ ⟨rfl, rfl⟩

end Sys2Proof.Machine
end

section
/-! PROOFS. What the commands of the clock, the Timetable, the hot-swap block and the sequencer leave alone (O57). -/

-- Declarations in turn: the stack of every thread counts toward the memory that the check allows the one text.
set_option Elab.async false

namespace Sys2Proof.Machine

theorem State.frame_of_slotLatch {s t : State} {x y : Option (BitVec 6)}
    (h : t.sansReports = ({ s with sup := { s.sup with slotId := x, slotPins := y } } : State).sansReports) :
    t = { s with sup := t.sup, host := t.host, ssn := t.ssn, resume := t.resume,
                 seqTick := t.seqTick, store := t.store, health := t.health } ∧
    t.sup = { s.sup with replaceReq := t.sup.replaceReq, slotId := t.sup.slotId, slotPins := t.sup.slotPins } ∧
    State.onlyEvents s t ∧
    t.health = { s.health with active := t.health.active } := by
  obtain ⟨heq, -, hhost, hhealth⟩ := State.frame_of_sansReports h
  exact ⟨heq, congrArg (fun u : State =>
    { u.sup with replaceReq := t.sup.replaceReq, slotId := t.sup.slotId, slotPins := t.sup.slotPins }) h, hhost, hhealth⟩

theorem State.frame_of_slotChange {s t : State} {y : Option (BitVec 6)} {z : List (BitVec 6)}
    (h : t.sansReports = ({ s with sup := { s.sup with slotPins := y, slotChanged := z } } : State).sansReports) :
    t = { s with sup := t.sup, host := t.host, ssn := t.ssn, resume := t.resume,
                 seqTick := t.seqTick, store := t.store, health := t.health } ∧
    t.sup = { s.sup with replaceReq := t.sup.replaceReq, slotPins := t.sup.slotPins, slotChanged := t.sup.slotChanged } ∧
    State.onlyEvents s t ∧
    t.health = { s.health with active := t.health.active } := by
  obtain ⟨heq, -, hhost, hhealth⟩ := State.frame_of_sansReports h
  exact ⟨heq, congrArg (fun u : State =>
    { u.sup with replaceReq := t.sup.replaceReq, slotPins := t.sup.slotPins, slotChanged := t.sup.slotChanged }) h, hhost, hhealth⟩

theorem State.frame_of_timeReports {s t : State} {x : Time}
    (h : t.sansReports = ({ s with time := x } : State).sansReports) :
    t = { s with sup := t.sup, time := t.time, host := t.host, ssn := t.ssn, resume := t.resume,
                 seqTick := t.seqTick, store := t.store, health := t.health } ∧
    State.onlyReports s t := by
  obtain rfl : t.time = x := congrArg State.time h
  exact (State.frame_of_sansReports h :)

/-- The loss of the crystal: its event where it opens the hold-over, its cause of health where core SB is up. -/
theorem State.crystalLost_reports (s : State) (was : CtState) (b : Bool) :
    (if b then (if was = .holdover then s else s.timeEvent).raiseHealth 6 0xFF 0 0
      else if was = .holdover then s else s.timeEvent).sansReports = s.sansReports := by
  have hevent : (if was = .holdover then s else s.timeEvent).sansReports = s.sansReports := by
    split
    · rfl
    · exact State.sansReports_of_sansEvents (State.emitSt_sansEvents ..)
  split
  · exact (State.raiseHealth_sansReports ..).trans hevent
  · exact hevent

/-- The end of SLEW. -/
theorem State.timeEvent_sansEvents (s : State) : s.timeEvent.sansEvents = s.sansEvents :=
  State.emitSt_sansEvents ..

theorem State.chanAction_chan (s : State) (ch : Fin 128) (code : BitVec 3) :
    s.chanAction ch code = { s with chan := (s.chanAction ch code).chan } := by
  simp only [State.chanAction]
  split
  case h_3 | h_4 | h_5 => split <;> rfl
  all_goals rfl

theorem frames_of_the_clock : Sys2Proof.framesOfTheCard2 := by
  refine ⟨?frmAbsent, ?crystalLost, ?slewEnd, ?frmCapRead, ?slotLatch, ?slotChange, ?enSnap, ?channelWrap, ?chnCtrlWrite,
    ?registerWrite⟩
  case frmAbsent =>
    exact fun s => answers_ite (State.frame_of_time (State.enterHoldover_time ..)) (State.frame_of_time ⟨s.time, rfl⟩)
  case crystalLost =>
    intro s
    show ∃ t, execCrystalLost s = .next t ∧ _
    unfold execCrystalLost
    split
    · exact ⟨_, rfl, State.frame_of_timeReports (State.crystalLost_reports _ s.time.st _)⟩
    · exact ⟨s, rfl, rfl, rfl, fun _ => rfl, rfl⟩
  case slewEnd =>
    intro s
    refine answers_ite ?_ ⟨rfl, rfl, fun _ => rfl⟩
    have h := State.timeEvent_sansEvents { s with time := { s.time with st := .locked } }
    obtain ⟨heq, hhost⟩ := State.frame_of_time ⟨_, h⟩
    exact ⟨heq, congrArg (fun u : State => { u.time with st := CtState.locked }) h, hhost⟩
  case frmCapRead => exact fun s => ⟨_, rfl, rfl, rfl⟩
  case slotLatch =>
    intro samples s
    show ∃ t, execSlotLatch samples s = .next t ∧ _
    cases samples with
    | nil => exact ⟨s, rfl, rfl, rfl, fun _ => rfl, rfl⟩
    | cons v l =>
      refine answers_ite ?_ ⟨rfl, rfl, fun _ => rfl, rfl⟩
      exact State.frame_of_slotLatch (State.slotCheck_sansReports { s with sup := { s.sup with slotId := some v, slotPins := some v } })
  case slotChange =>
    intro v s
    refine answers_ite ?_ ⟨rfl, rfl, fun _ => rfl, rfl⟩
    obtain ⟨x, h⟩ := State.slotReport_sansReports
      { s with sup := { s.sup with slotPins := some v, slotChanged := s.sup.slotChanged ++ [v] } }
    exact State.frame_of_slotChange h
  case enSnap =>
    intro c s
    refine answers_ite ⟨rfl, fun m => ?_⟩ ⟨rfl, fun _ => ⟨rfl, rfl⟩⟩
    simp only [State.snapshot, Vector.getElem_map_fin, and_self]
  case channelWrap =>
    intro ch s
    show ∃ t, execChannelWrap ch s = .next t ∧ _
    unfold execChannelWrap
    split
    · exact ⟨_, rfl, State.chanAction_chan (s.modChan ch fun c => { c with dueW := false, wflag := true }) ch _⟩
    · exact ⟨s, rfl, rfl⟩
  case chnCtrlWrite => exact fun _ _ _ _ => answers_ite rfl rfl
  case registerWrite =>
    intro c r v s
    cases r with
    | chReload => exact answers_ite ⟨rfl, rfl, rfl, fun _ => rfl⟩ ⟨rfl, rfl, rfl, fun _ => rfl⟩
    | chBuf => exact answers_ite ⟨rfl, rfl, rfl, fun _ => rfl⟩ ⟨rfl, rfl, rfl, fun _ => rfl⟩
    | chMatch => exact answers_ite ⟨rfl, rfl, rfl, fun _ => rfl⟩ ⟨rfl, rfl, rfl, fun _ => rfl⟩
    | chPhase => exact answers_ite ⟨rfl, rfl, rfl, fun _ => rfl⟩ ⟨rfl, rfl, rfl, fun _ => rfl⟩
    | ttReqA => exact ⟨_, rfl, rfl, rfl, rfl, fun _ => rfl⟩
    | ttReqB => exact ⟨_, rfl, rfl, rfl, rfl, fun _ => rfl⟩
    | ttReqC => exact ⟨_, rfl, rfl, rfl, rfl, fun _ => rfl⟩
    | ttReqD => exact ⟨_, rfl, rfl, rfl, rfl, fun _ => rfl⟩
    | timeStat =>
      refine answers_ite ?_ ⟨rfl, rfl, rfl, fun _ => rfl⟩
      unfold State.w1cTime
      split <;> exact ⟨rfl, rfl, rfl, fun _ => rfl⟩
    | frmCap =>
      refine answers_ite ?_ ⟨rfl, rfl, rfl, fun _ => rfl⟩
      unfold State.w1cCap
      split <;> exact ⟨rfl, rfl, rfl, fun _ => rfl⟩
    | eventReg =>
      refine ⟨_, rfl, rfl, rfl, rfl, fun k => ?_⟩
      by_cases hk : k = c
      · subst hk
        rw [State.modCore_same]
      · rw [State.modCore_other s c _ k (Ne.symm hk)]

theorem frames_of_the_timetable : Sys2Proof.framesOfTheCard3 := by
  refine ⟨?ttGo, ?ttCancel, ?ttCfgWrite, ?reserveGrant, ?qualifyTime, ?phaseExit, ?phTo, ?inrushDone, ?pgQ, ?retryTExpiry⟩
  case ttGo => exact fun _ _ => answers_ite ⟨rfl, rfl⟩ ⟨rfl, rfl⟩
  case ttCancel =>
    intro c i s
    refine answers_ite ?_ ⟨rfl, rfl⟩
    have h := (State.resettle_sansPlaces { s with tt := s.tt.cancel i.toFin }).trans
      (congrArg (fun x : Timetable => { s with tt := x }) (Timetable.cancel_sansPlaces s.tt i.toFin))
    exact ⟨State.eq_of_sansPlaces (s := s) h, State.tt_of_sansPlaces (s := s) h⟩
  case ttCfgWrite => exact fun _ _ _ => answers_ite ⟨rfl, rfl⟩ ⟨rfl, rfl⟩
  case reserveGrant => exact fun _ _ => answers_ite ⟨rfl, rfl⟩ ⟨rfl, rfl⟩
  case qualifyTime => exact fun _ _ => answers_ite ⟨rfl, rfl⟩ ⟨rfl, rfl⟩
  case phaseExit =>
    exact fun s => answers_ite (State.frame_of_hs (State.toInrush_hs ..)) ⟨rfl, rfl, fun _ => rfl, rfl⟩
  case phTo =>
    intro s
    show ∃ t, execPhTo s = .next t ∧ _
    unfold execPhTo
    split
    · exact answers_ite (State.frame_of_hs (State.toInrush_hs ..)) ⟨rfl, rfl, fun _ => rfl, rfl⟩
    · exact ⟨s, rfl, rfl, rfl, fun _ => rfl, rfl⟩
  case inrushDone =>
    exact fun _ _ s => answers_ite ⟨rfl, Timetable.cancelWhere_keeps s.tt _⟩ ⟨rfl, rfl⟩
  case pgQ => exact fun _ _ _ _ => answers_ite ⟨rfl, rfl⟩ ⟨rfl, rfl⟩
  case retryTExpiry => exact fun _ => answers_ite ⟨rfl, rfl⟩ ⟨rfl, rfl⟩

/-- A segment that fired is counted, and recorded where the block placed it itself. -/
theorem State.segmentFired_eq (s : State) (b : Bool) : ∃ c n f h l, s.segmentFired b =
    { s with hs := { s.hs with segCnt := c, selfNext := n, lastSeg := f, hist := h, lost := l } } := by
  unfold State.segmentFired
  split
  · exact ⟨_, _, _, _, _, rfl⟩
  · dsimp only
    split <;> exact ⟨_, _, _, _, _, rfl⟩

theorem State.frame_of_sansHist {s t : State} (h : t.sansHist = s.sansHist) :
    t = { s with hs := t.hs, sq := t.sq, host := t.host, ssn := t.ssn, resume := t.resume, seqTick := t.seqTick, store := t.store } ∧
    t.hs = { s.hs with hist := t.hs.hist, lost := t.hs.lost } ∧ t.sq = { s.sq with hist := t.sq.hist, lost := t.sq.lost } ∧
    State.onlyEvents s t :=
  ⟨congrArg (fun u : State =>
     { u with hs := t.hs, sq := t.sq, host := t.host, ssn := t.ssn, resume := t.resume, seqTick := t.seqTick, store := t.store }) h,
   congrArg (fun u : State => { u.hs with hist := t.hs.hist, lost := t.hs.lost }) h,
   congrArg (fun u : State => { u.sq with hist := t.sq.hist, lost := t.sq.lost }) h,
   HostFe.eq_of_sansEvents (congrArg State.host h)⟩

theorem State.frame_of_sqGoto {s t : State} {x : SqState} {b : Bool} {h : List SqHist} {l : Nat}
    (ht : t.sansReports = ({ s with sq := { s.sq with faultDriven := b, st := x, hist := h, lost := l } } : State).sansReports) :
    t = { s with sup := t.sup, sq := t.sq, host := t.host, ssn := t.ssn, resume := t.resume,
                 seqTick := t.seqTick, store := t.store, health := t.health } ∧
    t.sup = { s.sup with replaceReq := t.sup.replaceReq } ∧
    t.sq = { s.sq with st := t.sq.st, faultDriven := t.sq.faultDriven, hist := t.sq.hist, lost := t.sq.lost } ∧
    State.onlyEvents s t ∧
    t.health = { s.health with active := t.health.active } := by
  obtain ⟨heq, hsup, hhost, hhealth⟩ := State.frame_of_sq ⟨_, ht⟩
  exact ⟨heq, hsup, congrArg (fun u : State =>
    { u.sq with st := t.sq.st, faultDriven := t.sq.faultDriven, hist := t.sq.hist, lost := t.sq.lost }) ht, hhost, hhealth⟩

theorem frames_of_the_hotSwap : Sys2Proof.framesOfTheCard4 := by
  refine ⟨?feedReturn, ?retryCntClear, ?sagSuspend, ?sagClear, ?breakerRegulation, ?warnNRelease, ?inrushSegment,
    ?historyCopy, ?sqStart, ?sqRaise⟩
  case feedReturn => exact fun _ _ => answers_ite rfl rfl
  case retryCntClear => exact fun _ => answers_ite ⟨rfl, rfl⟩ ⟨rfl, rfl⟩
  case sagSuspend => exact fun _ _ => answers_ite ⟨rfl, rfl⟩ ⟨rfl, rfl⟩
  case sagClear => exact fun _ => ⟨_, rfl, rfl, rfl⟩
  case breakerRegulation => exact fun _ _ => answers_ite ⟨rfl, rfl⟩ ⟨rfl, rfl⟩
  case warnNRelease =>
    intro vin b s
    obtain ⟨x, q, hoff⟩ := s.warnOff_keeps
    have hvisits := State.forPorts_same (State.sansAsks Port.sansRebook) (fun n u => (u.rampRebook n).standbyTry n)
      (fun n u => (State.standbyTry_sansAsks _ n).trans (State.rampRebook_sansAsks u n)) s.warnOff
    refine answers_ite ?_ ⟨rfl, rfl, rfl, fun _ => ⟨rfl, rfl, rfl, rfl⟩⟩
    rw [congrArg (State.sansAsks Port.sansRebook) hoff] at hvisits
    generalize s.warnOff.forPorts _ = t at hvisits ⊢
    exact State.frame_of_warnOff hvisits
  case inrushSegment =>
    intro s
    show ∃ t, execInrushSegment s = .next t ∧ _
    unfold execInrushSegment
    split
    · exact ⟨s, rfl, rfl, rfl, rfl⟩
    · split
      case h_1 i _ =>
        refine answers_ite ⟨rfl, rfl, rfl⟩ ?_
        obtain ⟨_, _, _, _, _, heq⟩ := State.segmentFired_eq (s.fireEntry i) false
        rw [heq]
        exact ⟨rfl, rfl, rfl⟩
      case h_2 =>
        refine answers_ite ?_ ⟨rfl, rfl, rfl⟩
        obtain ⟨_, _, _, _, _, heq⟩ := State.segmentFired_eq s s.hs.selfNext
        rw [heq]
        exact ⟨rfl, rfl, rfl⟩
  case historyCopy =>
    exact fun s => ⟨_, rfl, State.frame_of_sansHist s.historyCopy_sansHist⟩
  case sqStart =>
    intro s
    show ∃ t, execSqStart s = .next t ∧ _
    unfold execSqStart
    split
    · exact ⟨s, rfl, rfl, rfl, rfl, fun _ => rfl, rfl⟩
    · split
      · obtain ⟨h, l, hgoto⟩ := State.sqGoto_sansReports { s with sq := { s.sq with faultDriven := false } } .lock
        exact ⟨_, rfl, State.frame_of_sqGoto hgoto⟩
      · refine answers_ite ?_ ⟨rfl, rfl, rfl, fun _ => rfl, rfl⟩
        obtain ⟨h, l, hgoto⟩ := State.sqGoto_sansReports { s with sq := { s.sq with faultDriven := false } } .waitCin
        exact State.frame_of_sqGoto hgoto
  case sqRaise =>
    intro s
    refine answers_ite ?_ ⟨rfl, rfl, fun _ => rfl, rfl⟩
    split
    case h_1 k _ =>
      obtain ⟨h, l, hgoto⟩ := State.sqGoto_sansReports { s with sq := { s.sq with retEnded := false } } .raise
      exact State.frame_of_sq ⟨_, State.beginStep_sansReports (s := s) hgoto k⟩
    case h_2 => exact ⟨rfl, rfl, fun _ => rfl, rfl⟩

theorem frames_of_the_sequencer : Sys2Proof.framesOfTheCard5 := by
  refine ⟨?sqEnableRise, ?sqCinRise, ?aoDelayExpiry, ?downRestart, ?aoCntClear, ?alloffPulseEnd, ?sqFaultNArm⟩
  case sqEnableRise =>
    intro x s
    show ∃ t, execSqEnableRise x s = .next t ∧ _
    unfold execSqEnableRise
    dsimp only
    split
    · exact answers_ite ⟨rfl, rfl⟩ ⟨rfl, rfl⟩
    · exact ⟨s, rfl, rfl, rfl⟩
  case sqCinRise => exact fun _ => ⟨_, rfl, rfl, rfl⟩
  case aoDelayExpiry => exact fun _ => answers_ite ⟨rfl, rfl⟩ ⟨rfl, rfl⟩
  case downRestart => exact fun _ => answers_ite ⟨rfl, rfl⟩ ⟨rfl, rfl⟩
  case aoCntClear => exact fun _ => answers_ite ⟨rfl, rfl⟩ ⟨rfl, rfl⟩
  case alloffPulseEnd => exact fun _ => answers_ite ⟨rfl, rfl⟩ ⟨rfl, rfl⟩
  case sqFaultNArm => exact fun _ => answers_ite ⟨rfl, rfl⟩ ⟨rfl, rfl⟩

/-- Settles O57: each of the five groups of commands keeps what its equations say. -/
theorem framesOfTheCard : Obligations.FramesOfTheCard :=
  ⟨frames_of_the_supplies, frames_of_the_clock, frames_of_the_timetable, frames_of_the_hotSwap, frames_of_the_sequencer⟩

end Sys2Proof.Machine
end

section
/-! SUPPORT. What Primer and a Port's test decide is left alone by what the cores, the ports and the store do (O9). -/

-- Declarations in turn: the stack of every thread counts toward the memory that the check allows the one text.
set_option Elab.async false

namespace Sys2Proof.Machine

/-! ### What Primer decides, and the tests of the ports -/

/-- Varnish, Primer's state and bank, the cores up, the image banks and the count of warm starts. -/
def State.boot (s : State) :
    Varnish × Primer × Option Bank × Bool × Bool × Vector Bool 5 × ImageBank × ImageBank × Nat :=
  (s.fuse, s.sup.primer, s.sup.runBank, s.sup.runFlag, s.sup.primerEver, s.core.map VCore.up, s.bankA, s.bankB,
    s.health.warm)

/-- The same, with every port's test in progress and the tests it failed. -/
def State.standing (s : State) :
    (Varnish × Primer × Option Bank × Bool × Bool × Vector Bool 5 × ImageBank × ImageBank × Nat) ×
      Vector (Option (CmdRef × TcState) × BitVec 16) 24 :=
  (s.boot, s.port.map fun p => (p.test, p.ms.tests))

theorem State.boot_of_standing {s t : State} (h : t.standing = s.standing) : t.boot = s.boot :=
  congrArg Prod.fst h

theorem State.test_of_standing {s t : State} (h : t.standing = s.standing) (n : PortId) : t.port[n].test = s.port[n].test :=
  congrArg Prod.fst (Vector.getElem_of_map_eq (congrArg Prod.snd h) n)

theorem State.tests_of_standing {s t : State} (h : t.standing = s.standing) (n : PortId) :
    t.port[n].ms.tests = s.port[n].ms.tests :=
  congrArg Prod.snd (Vector.getElem_of_map_eq (congrArg Prod.snd h) n)

theorem State.standing_of_sansEvents {s t : State} (h : t.sansEvents = s.sansEvents) : t.standing = s.standing :=
  (congrArg State.standing h :)

theorem State.standing_of_sansTags {s t : State} (h : t.sansTags = s.sansTags) : t.standing = s.standing :=
  (congrArg State.standing h :)

theorem State.standing_of_sansReports {s t : State} (h : t.sansReports = s.sansReports) : t.standing = s.standing :=
  (congrArg State.standing h :)

theorem State.standing_of_sansPlaces {s t : State} (h : t.sansPlaces = s.sansPlaces) : t.standing = s.standing :=
  (congrArg State.standing h :)

/-! ### One lemma for each operation -/

@[simp] theorem State.foldl_standing {α : Type} (f : State → α → State) (h : ∀ s a, (f s a).standing = s.standing)
    (l : List α) (s : State) : (l.foldl f s).standing = s.standing :=
  State.foldl_keeps State.standing f h l s

@[simp] theorem State.forPorts_standing (s : State) (f : PortId → State → State) (h : ∀ n s, (f n s).standing = s.standing) :
    (s.forPorts f).standing = s.standing :=
  State.forPorts_same State.standing f h s

theorem State.modPort_standing (s : State) (n : PortId) (f : Port → Port)
    (h : ∀ p, ((f p).test, (f p).ms.tests) = (p.test, p.ms.tests) := by intro; rfl) :
    (s.modPort n f).standing = s.standing :=
  congrArg (Prod.mk s.boot) (Vector.map_set_of_eq (fun p : Port => (p.test, p.ms.tests)) s.port n _ (h _))

@[simp] theorem State.modTc_standing (s : State) (n : PortId) (f : TypeC → TypeC) : (s.modTc n f).standing = s.standing :=
  State.modPort_standing s n _

@[simp] theorem State.modPp_standing (s : State) (n : PortId) (f : Path → Path) : (s.modPp n f).standing = s.standing :=
  State.modPort_standing s n _

@[simp] theorem State.modPd_standing (s : State) (n : PortId) (f : Pd → Pd) : (s.modPd n f).standing = s.standing :=
  State.modPort_standing s n _

@[simp] theorem State.modCt_standing (s : State) (n : PortId) (f : Contract → Contract) : (s.modCt n f).standing = s.standing :=
  State.modPort_standing s n _

@[simp] theorem State.modRs_standing (s : State) (n : PortId) (f : Swap → Swap) : (s.modRs n f).standing = s.standing :=
  State.modPort_standing s n _

@[simp] theorem State.modAlt_standing (s : State) (n : PortId) (f : Alt → Alt) : (s.modAlt n f).standing = s.standing :=
  State.modPort_standing s n _

@[simp] theorem State.emitFull_standing (s : State) (code source : BitVec 16) (payload : List Byte) (ct : CT) (hist : Bool) :
    (s.emitFull code source payload ct hist).standing = s.standing :=
  State.standing_of_sansEvents (State.emitFull_sansEvents ..)

@[simp] theorem State.emit_standing (s : State) (code source : BitVec 16) (payload : List Byte) :
    (s.emit code source payload).standing = s.standing :=
  State.emitFull_standing ..

@[simp] theorem State.emitSt_standing (s : State) (code : BitVec 16) (payload : List Byte) :
    (s.emitSt code payload).standing = s.standing :=
  State.emitFull_standing ..

@[simp] theorem State.logAdd_standing (s : State) (e : Event) : (s.logAdd e).standing = s.standing :=
  State.standing_of_sansEvents (State.logAdd_sansEvents s e)

@[simp] theorem State.raiseHealth_standing (s : State) (cause unit detail value : Nat) :
    (s.raiseHealth cause unit detail value).standing = s.standing :=
  State.standing_of_sansReports (State.raiseHealth_sansReports ..)

@[simp] theorem State.healthClear_standing (s : State) (cause : Nat) : (s.healthClear cause).standing = s.standing := rfl

@[simp] theorem State.complete_standing (s : State) (r : CmdRef) (st : BitVec 16) (result : List Byte) :
    (s.complete r st result).standing = s.standing :=
  State.standing_of_sansTags (State.complete_sansTags ..)

@[simp] theorem State.completeOpt_standing (s : State) (r : Option CmdRef) (st : BitVec 16) (result : List Byte) :
    (s.completeOpt r st result).standing = s.standing := by
  cases r with
  | none => rfl
  | some r => exact State.complete_standing s r st result

@[simp] theorem State.resettle_standing (s : State) : s.resettle.standing = s.standing :=
  State.standing_of_sansPlaces s.resettle_sansPlaces

@[simp] theorem State.cancelWhere_standing (s : State) (p : Entry → Bool) : (s.cancelWhere p).standing = s.standing :=
  State.resettle_standing { s with tt := s.tt.cancelWhere p }

@[simp] theorem State.cancelEntry_standing (s : State) (n : PortId) (i : Option (Fin 256)) :
    (s.cancelEntry n i).standing = s.standing := by
  unfold State.cancelEntry
  split
  · split
    · exact State.resettle_standing _
    · rfl
  · rfl

/-! ### The end of a port's service (R214, R592) -/

@[simp] theorem State.retireCmds_standing (s : State) (n : PortId) : (s.retireCmds n).standing = s.standing :=
  State.foldl_standing _ (fun _ _ => State.complete_standing ..) _ _

@[simp] theorem State.openPath_standing (s : State) (n : PortId) (disch trip prot : Bool) :
    (s.openPath n disch trip prot).standing = s.standing := by
  simp only [State.openPath]
  split
  · exact (State.modPort_standing _ n _).trans (State.modPp_standing ..)
  · exact State.modPp_standing ..

@[simp] theorem State.amsEnd_standing (s : State) (n : PortId) : (s.amsEnd n).standing = s.standing :=
  State.modPort_standing s n _

@[simp] theorem State.swapEndWith_standing (s : State) (n : PortId) (result : Nat) (st : BitVec 16) :
    (s.swapEndWith n result st).standing = s.standing := by
  simp only [State.swapEndWith]
  split
  · rfl
  · rw [State.completeOpt_standing, apply_ite State.standing, State.amsEnd_standing, ite_self, State.emit_standing]
    refine State.modPort_standing s n _ fun p => ?_
    dsimp only
    split <;> rfl

@[simp] theorem State.swapEnd_standing (s : State) (n : PortId) (result : Nat) : (s.swapEnd n result).standing = s.standing :=
  State.swapEndWith_standing ..

@[simp] theorem State.altComplete_standing (s : State) (n : PortId) : (s.altComplete n).standing = s.standing := by
  simp [State.altComplete]

@[simp] theorem State.modeEnd_standing (s : State) (n : PortId) : (s.modeEnd n).standing = s.standing := by
  simp only [State.modeEnd]
  split
  · rfl
  · simp [State.altEvent]

@[simp] theorem State.dropScripts_standing (s : State) (n : PortId) (stop all : Bool) :
    (s.dropScripts n stop all).standing = s.standing := rfl

@[simp] theorem State.shedEvent_standing (s : State) (phase : Nat) : (s.shedEvent phase).standing = s.standing :=
  State.emitSt_standing ..

@[simp] theorem State.shedEnd_standing (s : State) : s.shedEnd.standing = s.standing := by
  simp only [State.shedEnd]
  split
  · exact (State.shedEvent_standing ..).trans (State.forPorts_standing _ _ fun _ _ => State.modCt_standing ..)
  · rfl

@[simp] theorem State.endContract_standing (s : State) (n : PortId) : (s.endContract n).standing = s.standing := by
  have hplan : (match s.port[n].ct.plan with | some q => s.cancelEntry n q.entry | none => s).standing = s.standing := by
    split
    · exact State.cancelEntry_standing ..
    · rfl
  simp only [State.endContract, State.shedEnd_standing]
  exact (State.modPort_standing _ n _).trans hplan

@[simp] theorem State.eprNoVconn_standing (s : State) (n : PortId) : (s.eprNoVconn n).standing = s.standing := by
  simp only [State.eprNoVconn]
  split
  · simp [State.sendMsg]
  · rfl

@[simp] theorem State.vconnAttach_standing (s : State) (n : PortId) : (s.vconnAttach n).standing = s.standing :=
  (State.modRs_standing ..).trans (State.modPort_standing s n _)

@[simp] theorem State.vconnRelease_standing (s : State) (n : PortId) : (s.vconnRelease n).standing = s.standing := by
  have hoff (u : State) : (u.modPort n fun p =>
      { p with tc := { p.tc with vconnOn := false, vconnWait := false }, rs := { p.rs with vc := false } }).standing = u.standing :=
    State.modPort_standing u n _
  simp only [State.vconnRelease]
  split
  · split
    · rw [State.vconnAttach_standing, State.eprNoVconn_standing, hoff]
    · rw [State.eprNoVconn_standing, hoff]
  · rw [State.eprNoVconn_standing, hoff]

@[simp] theorem State.typecEvent_standing (s : State) (n : PortId) : (s.typecEvent n).standing = s.standing :=
  State.emit_standing ..

@[simp] theorem State.disablePort_standing (s : State) (n : PortId) : (s.disablePort n).standing = s.standing := by
  simp only [State.disablePort, apply_ite State.standing, State.typecEvent_standing, ite_self]
  refine Eq.trans (State.modPort_standing _ n _ ?_) ?_
  · exact fun _ => rfl
  · simp [State.cancelPort]

@[simp] theorem State.claimSet_standing (s : State) (n : PortId) (new : Option HostPort) (cause : Nat) :
    (s.claimSet n new cause).standing = s.standing := by
  unfold State.claimSet
  split
  · rfl
  · exact State.emitSt_standing ..

@[simp] theorem State.testHealth_standing (s : State) (n : PortId) (test : Nat) (ct : CT) :
    (s.testHealth n test ct).standing = s.standing :=
  State.emitFull_standing ..

@[simp] theorem State.retire_standing (s : State) (n : PortId) (test : Nat) (ct : CT) :
    (s.retire n test ct).standing = s.standing := by
  have hbit (u : State) (x : BitVec 24) : ({ u with health := { u.health with retired := x } } : State).standing = u.standing :=
    rfl
  simp [State.retire, hbit]

@[simp] theorem State.failsDue_standing (s : State) : s.failsDue.standing = s.standing := by
  refine State.forPorts_standing _ _ fun n u => ?_
  split
  · exact (State.retire_standing ..).trans (State.modPort_standing u n _)
  · rfl

/-! ### The return of a port to service (R592) -/

@[simp] theorem State.enterUnatt_standing (s : State) (n : PortId) (dest : TcState) :
    (s.enterUnatt n dest).standing = s.standing := by
  simp only [State.enterUnatt, apply_ite State.standing, State.typecEvent_standing, ite_self]
  exact State.modPort_standing s n _

@[simp] theorem State.toUnatt_standing (s : State) (n : PortId) (snk : Bool) : (s.toUnatt n snk).standing = s.standing :=
  State.enterUnatt_standing ..

/-- The policy's entry leaves core SB up. -/
@[simp] theorem State.policyBegin_standing (s : State) : s.policyBegin.standing = s.standing := by
  unfold State.policyBegin
  split
  · rfl
  · exact congrArg (fun v : Vector Bool 5 => ((s.boot.1, s.sup.primer, s.sup.runBank, s.sup.runFlag, s.sup.primerEver, v,
      s.bankA, s.bankB, s.health.warm), s.standing.2)) (Vector.map_set_of_eq VCore.up s.core coreSB _ rfl)

@[simp] theorem State.policyAsk_standing (s : State) (what : PolicyAsk) : (s.policyAsk what).standing = s.standing := by
  simp only [State.policyAsk]
  split
  · exact State.policyBegin_standing _
  · rfl

@[simp] theorem State.shedWith_standing (s : State) (target : PortId → Nat) : (s.shedWith target).standing = s.standing :=
  State.foldl_standing _ (fun _ _ => State.modCt_standing ..) _ s

@[simp] theorem State.shedStart_standing (s : State) : s.shedStart.standing = s.standing := by
  have hbegin : (if s.bg.shedding then s else ({ s with bg := { s.bg with shedding := true } } : State).shedEvent 1).standing =
      s.standing := by
    split
    · rfl
    · exact State.shedEvent_standing ..
  simp only [State.shedStart]
  split
  · rw [apply_ite State.standing, State.policyAsk_standing, State.shedWith_standing, ite_self, hbegin]
  · exact State.shedEnd_standing s

end Sys2Proof.Machine
end

section
/-! SUPPORT. Core SB's start leaves alone what Primer decided (O9). -/

-- Declarations in turn: the stack of every thread counts toward the memory that the check allows the one text.
set_option Elab.async false

namespace Sys2Proof.Machine

/-! ### The link's return and the reports kept for core SB (R26, R29, R76) -/

@[simp] theorem State.startEvent_standing (s : State) (kind : Nat) (failed : Option Bank) (pl : Nat) :
    (s.startEvent kind failed pl).standing = s.standing :=
  State.emitSt_standing ..

@[simp] theorem State.sketchPlace_standing (s : State) (x : Sketch) : (s.sketchPlace x).1.standing = s.standing := by
  simp only [State.sketchPlace]
  split
  · exact State.emit_standing ..
  · exact (State.emit_standing ..).trans (State.modPp_standing ..)

@[simp] theorem State.heldCopy_standing (s : State) (k : PlatId) : (s.heldCopy k).standing = s.standing := by
  unfold State.heldCopy
  split
  · rfl
  · exact State.sketchPlace_standing ..

@[simp] theorem State.queueScript_standing (s : State) (n : PortId) (ev : BitVec 4) :
    (s.queueScript n ev).standing = s.standing := by
  unfold State.queueScript
  split <;> rfl

@[simp] theorem State.detachRun_standing (s : State) (n : PortId) : (s.detachRun n).standing = s.standing := by
  unfold State.detachRun
  split
  · simp
  · rfl

@[simp] theorem State.slotCheck_standing (s : State) : s.slotCheck.standing = s.standing :=
  State.standing_of_sansReports s.slotCheck_sansReports

@[simp] theorem State.slotReport_standing (s : State) : s.slotReport.standing = s.standing := by
  obtain ⟨_, h⟩ := s.slotReport_sansReports
  exact (State.standing_of_sansReports h).trans rfl

@[simp] theorem State.hsReport_standing (s : State) : s.hsReport.standing = s.standing := by
  obtain ⟨_, h⟩ := s.hsReport_hs
  exact (State.standing_of_sansReports h).trans rfl

@[simp] theorem State.serviceReport_standing (s : State) : s.serviceReport.standing = s.standing :=
  (State.standing_of_sansEvents s.serviceReport_sansEvents).trans rfl

@[simp] theorem State.linkBack_standing (s : State) : s.linkBack.standing = s.standing := by
  have hcopies (u : State) : ((List.finRange 4).foldl (fun s k => s.heldCopy k) u).standing = u.standing :=
    State.foldl_standing _ State.heldCopy_standing _ u
  simp only [State.linkBack]
  split
  · rfl
  · split
    · rw [State.forPorts_standing _ _ fun n u => State.detachRun_standing u n, State.failsDue_standing,
        State.hsReport_standing, State.slotReport_standing]
      exact hcopies _
    · exact hcopies _

@[simp] theorem State.healthIf_standing (s : State) (c : Bool) (cause detail value : Nat) :
    (s.healthIf c cause detail value).standing = s.standing := by
  unfold State.healthIf
  split
  · exact State.raiseHealth_standing ..
  · rfl

@[simp] theorem State.nlogReport_standing (s : State) : s.nlogReport.standing = s.standing :=
  State.healthIf_standing ..

/-- The reports of a start: each raises a cause or sends an event. -/
@[simp] theorem State.startReports_standing (s : State) (b : Bool) : (s.startReports b).standing = s.standing := by
  have hraise (u : State) (c : Bool) (cause unit detail value : Nat) :
      (if c then u.raiseHealth cause unit detail value else u).standing = u.standing := by
    split
    · exact State.raiseHealth_standing ..
    · rfl
  have hretired (u : State) : (if u.health.retired = 0 then u
      else ({ u with health := { u.health with active := u.health.active ||| 0x400 }
                     sup := { u.sup with replaceReq := true } } : State)).standing = u.standing := by
    split <;> rfl
  simp only [State.startReports, hretired, State.healthIf_standing, State.serviceReport_standing, State.hsReport_standing,
    State.nlogReport_standing, State.slotCheck_standing, State.slotReport_standing, hraise]

@[simp] theorem State.wearCheck_standing (s : State) : s.wearCheck.standing = s.standing := by
  simp only [State.wearCheck]
  split
  · exact State.raiseHealth_standing ..
  · rfl

/-! ### A configuration applied (R441 to R444) -/

@[simp] theorem State.ttCfgSet_standing (s : State) (v : Word) : (s.ttCfgSet v).standing = s.standing := rfl

@[simp] theorem State.cportNow_standing (s : State) : s.cportNow.standing = s.standing := rfl

@[simp] theorem State.twTakeFree_standing (s : State) : s.twTakeFree.standing = s.standing := by
  have hone (u : State) (i : Fin 3) : (u.twTakeOne i).standing = u.standing := by
    unfold State.twTakeOne
    split <;> rfl
  simp only [State.twTakeFree, hone]

@[simp] theorem State.cportTake_standing (s : State) : s.cportTake.standing = s.standing := by
  unfold State.cportTake
  split
  · rfl
  · split <;> rfl

@[simp] theorem State.calPeriodSet_standing (s : State) (n : PortId) : (s.calPeriodSet n).standing = s.standing := rfl

@[simp] theorem State.reqScript_standing (s : State) (n : PortId) (ev : BitVec 4) : (s.reqScript n ev).standing = s.standing := by
  simp [State.reqScript, apply_ite State.standing]

@[simp] theorem State.modeExit_standing (s : State) (n : PortId) : (s.modeExit n).standing = s.standing := by
  simp [State.modeExit, apply_ite State.standing]

@[simp] theorem State.sendMsg_standing (s : State) (n : PortId) (ty : Sop) (body : PdBody) (ams : Bool) :
    (s.sendMsg n ty body ams).standing = s.standing :=
  State.modPd_standing ..

@[simp] theorem State.altLeave_standing (s : State) (n : PortId) : (s.altLeave n).standing = s.standing := by
  unfold State.altLeave
  split
  · rfl
  · exact State.modeExit_standing s n
  · split <;> simp [State.vdmSend]

@[simp] theorem State.altRecheck_standing (s : State) (n : PortId) : (s.altRecheck n).standing = s.standing := by
  simp [State.altRecheck, apply_ite State.standing]

@[simp] theorem State.pointsLoad_standing (s : State) : s.pointsLoad.standing = s.standing := by
  simp only [State.pointsLoad]
  split
  · rfl
  · exact State.raiseHealth_standing ..

@[simp] theorem State.cfgApply_standing (s old : State) (h : Option HostPort) : (s.cfgApply old h).standing = s.standing := by
  have hcport (u : State) : ({ u with net := { u.net with cportAfter := h } } : State).cportTake.standing = u.standing :=
    State.cportTake_standing _
  simp [State.cfgApply, apply_ite State.standing, hcport]

/-! ### The end of a commit (R446, R449) -/

theorem State.modRail_standing (s : State) (x : RailId) (f : Rail → Rail) : (s.modRail x f).standing = s.standing := rfl

@[simp] theorem State.w1c_standing (s : State) (o : Obj) (rid : Nat) (v : Word) : (s.w1c o rid v).standing = s.standing := by
  have hrails (a : Bool) : (s.w1cRails a v).standing = s.standing := 
    State.foldl_standing _ (fun u x => State.modRail_standing u x _) _ s
  have hport (p : Port) : ((p.w1c rid v).test, (p.w1c rid v).ms.tests) = (p.test, p.ms.tests) := by
    unfold Port.w1c
    split <;> rfl
  unfold State.w1c
  split
  case h_1 n => exact State.modPort_standing s n _ hport
  case h_2 => rfl
  case h_3 =>
    simp only [State.w1cTime, State.w1cCap, apply_ite State.standing, hrails]
    (repeat' split) <;> rfl

@[simp] theorem State.startCommit_standing (s : State) (cfg : Mem) (cmd : Option CmdRef) (w : List (BitVec 16 × Word)) :
    (s.startCommit cfg cmd w).standing = s.standing := rfl

@[simp] theorem State.recallEvent_standing (s : State) (copy reset : Nat) (seq : Word) :
    (s.recallEvent copy reset seq).standing = s.standing :=
  State.emitSt_standing ..

@[simp] theorem State.afterCommit_standing (s : State) : s.afterCommit.standing = s.standing := by
  simp only [State.afterCommit]
  split
  · exact (State.startCommit_standing ..).trans (State.recallEvent_standing ..)
  · rfl

@[simp] theorem State.commitDone_standing (s : State) : s.commitDone.standing = s.standing := by
  unfold State.commitDone
  split
  · rfl
  · dsimp only
    rw [State.afterCommit_standing, State.completeOpt_standing,
      State.foldl_standing _ (fun _ _ => State.w1c_standing ..), State.cfgApply_standing, State.emitSt_standing]
    rfl

@[simp] theorem State.commitFound_standing (s : State) : s.commitFound.standing = s.standing := by
  unfold State.commitFound
  split
  · rfl
  · unfold State.commitEnd
    split
    · rfl
    · dsimp only
      split
      · rfl
      · rw [apply_ite State.standing, State.commitDone_standing, State.afterCommit_standing, State.completeOpt_standing]
        exact ite_self s.standing

/-! ### Recall (R448, R450) -/

theorem State.store_standing (s : State) (x : Store) : ({ s with store := x } : State).standing = s.standing := rfl

@[simp] theorem State.coldRecall_standing (s : State) : s.coldRecall.standing = s.standing := by
  simp only [State.coldRecall]
  split
  · exact (State.recallEvent_standing ..).trans (State.store_standing s _)
  · split
    · rw [State.startCommit_standing, State.recallEvent_standing]
      exact State.store_standing s _
    · split
      · rw [State.logAdd_standing, State.recallEvent_standing]
        exact State.store_standing s _
      · exact (State.recallEvent_standing ..).trans (State.store_standing s _)

@[simp] theorem State.warmRecall_standing (s : State) : s.warmRecall.standing = s.standing := by
  unfold State.warmRecall
  split
  · rfl
  · dsimp only
    split
    · exact State.store_standing s _
    · exact s.coldRecall_standing

/-! ### A cold start ends the tests in progress (R76) -/

theorem State.modPort_boot (s : State) (n : PortId) (f : Port → Port) : (s.modPort n f).boot = s.boot := rfl

theorem State.coldStart_boot (s : State) : s.coldStart.boot = s.boot := by
  have hports (u : State) : (u.forPorts fun n v => (v.disablePort n).modPort n Port.coldStart).boot = u.boot :=
    State.forPorts_same State.boot (fun n v => (v.disablePort n).modPort n Port.coldStart)
      (fun n v => (State.modPort_boot ..).trans (State.boot_of_standing (v.disablePort_standing n))) u
  have hclaims : (s.forPorts fun n v => v.claimSet n none 4).standing = s.standing :=
    State.forPorts_standing _ _ fun n v => v.claimSet_standing n none 4
  have hhealth (u : State) : (({ u with health := { u.health with active := u.health.active &&& replaceCauses } } : State).healthClear 14).boot =
      u.boot := rfl
  show s.coldStart.standing.1 = s.boot
  simp only [State.coldStart, State.shedStart_standing, State.pointsLoad_standing, State.twTakeFree_standing,
    State.cportNow_standing, State.ttCfgSet_standing, State.coldRecall_standing]
  exact (hports _).trans ((hhealth _).trans (State.boot_of_standing hclaims))

end Sys2Proof.Machine
end

section
/-! SUPPORT. Core SB's start (R76, R78), cut where Primer's part ends. -/

-- Declarations in turn: the stack of every thread counts toward the memory that the check allows the one text.
set_option Elab.async false

namespace Sys2Proof.Machine

/-- Primer's part of a start: the cores loaded, the bank that runs, the fallbacks of a cold start ended (R74, R76). -/
def State.startLoaded (s : State) (warm : Bool) (x : Bank) (body : List Byte) : State :=
  { s with
    core := Vector.ofFn fun c =>
      if h : c.val < 4 then (if warm && s.plat[(⟨c.val, h⟩ : PlatId)].fallback then VCore.reset else loadCore body c)
      else loadCore body c
    sup := { s.sup with primer := .done, runFlag := true, primerEver := true, runBank := some x, lastBank := some x }
    setFail := !s.hostSetOk
    plat := if warm then s.plat
            else s.plat.map fun (k : Platform) => { k with fallback := false, dogs := [], takeBack := none }
    health := if warm then { s.health with warm := sat32 (s.health.warm + 1) } else s.health }

/-- The counters of a cold start, read from the store where they were not kept (R57, R432). -/
def State.startCounted (s : State) (warm : Bool) : State :=
  if warm then s
  else
    let s := if s.sup.retainedKept then s else s.loadCounters.logResume
    { s with health := { s.health with cold := sat32 (s.health.cold + 1) }, sup := { s.sup with retainedKept := true } }

/-- What core SB does once it runs: its event, the link, the configuration, the reports (R76). -/
def State.startRuns (s old : State) (warm : Bool) (failed : Option Bank) (differ : Bool) : State :=
  let s := (s.startEvent (b2n warm) failed 0xFF).linkBack
  let s := if warm then ((s.commitFound.warmRecall).cfgApply old none).cportNow else s.coldStart
  let s := (s.startReports differ).failsDue
  (s.forPorts fun n s => s.detachRun n).wearCheck

theorem State.startSb_eq (s : State) (warm : Bool) (x : Bank) (body : List Byte) (failed : Option Bank) (differ : Bool) :
    s.startSb warm x body failed differ = ((s.startLoaded warm x body).startCounted warm).startRuns s warm failed differ :=
  rfl

theorem State.startRuns_boot (s old : State) (warm : Bool) (failed : Option Bank) (differ : Bool) :
    (s.startRuns old warm failed differ).boot = s.boot := by
  have hcfg (u : State) : (if warm then ((u.commitFound.warmRecall).cfgApply old none).cportNow else u.coldStart).standing.1 =
      u.standing.1 := by
    split
    · rw [State.cportNow_standing, State.cfgApply_standing, State.warmRecall_standing, State.commitFound_standing]
    · exact u.coldStart_boot
  have hdetach (u : State) : (u.forPorts fun n v => v.detachRun n).standing = u.standing :=
    State.forPorts_standing u _ fun n v => v.detachRun_standing n
  show (s.startRuns old warm failed differ).standing.1 = s.standing.1
  simp only [State.startRuns, State.wearCheck_standing, hdetach, State.failsDue_standing, State.startReports_standing,
    hcfg, State.linkBack_standing, State.startEvent_standing]

/-- Measures of the ports change the ports alone. -/
theorem State.forPorts_modMs (s : State) (f : PortId → Measure → Measure) :
    ({ s.forPorts (fun n u => u.modMs n (f n)) with port := s.port } : State) = s :=
  List.foldlRecOn (motive := fun u : State => ({ u with port := s.port } : State) = s) allPorts _ rfl fun _ hu _ _ => hu

/-- The counters read from the store touch the ports' measures, the SSN, the store and the counts of health. -/
theorem State.loadCounters_keeps (s : State) :
    ({ s.loadCounters with port := s.port, ssn := s.ssn, resume := s.resume, store := s.store, health := s.health } : State) =
      s := by
  unfold State.loadCounters
  split
  · rfl
  · next r _ =>
      exact congrArg (fun u : State => { u with ssn := s.ssn, resume := s.resume, store := s.store, health := s.health })
        (s.forPorts_modMs fun n m => m.load (fun i => r.slots.getD i 0) n.val)

theorem State.logResume_keeps (s : State) : s.logResume = { s with store := s.logResume.store } := by
  unfold State.logResume
  split <;> rfl

/-- A cold start's counters leave alone all that Primer decided but the count of warm starts. -/
theorem State.startCounted_boot (s : State) (warm : Bool) :
    ∃ w, (s.startCounted warm).boot = ({ s with health := { s.health with warm := w } } : State).boot := by
  have hread : ∃ w, (if s.sup.retainedKept then s else s.loadCounters.logResume).boot =
      ({ s with health := { s.health with warm := w } } : State).boot := by
    split
    · exact ⟨s.health.warm, rfl⟩
    · refine ⟨s.loadCounters.health.warm, ?_⟩
      rw [State.logResume_keeps]
      exact (congrArg (fun u : State => ({ u with health := s.loadCounters.health } : State).boot) s.loadCounters_keeps :)
  cases warm with
  | true => exact ⟨s.health.warm, rfl⟩
  | false => exact hread

/-- What a start leaves: Primer done with its bank, the cores it loads up, the image banks as they were. -/
theorem State.startSb_starts (s : State) (warm : Bool) (x : Bank) (body : List Byte) (failed : Option Bank) (differ : Bool) :
    ∃ w, (s.startSb warm x body failed differ).boot =
        ({ s.startLoaded warm x body with health := { (s.startLoaded warm x body).health with warm := w } } : State).boot ∧
      (warm = true → w = sat32 (s.health.warm + 1)) := by
  rw [State.startSb_eq, State.startRuns_boot]
  cases warm with
  | true => exact ⟨_, rfl, fun _ => rfl⟩
  | false =>
    obtain ⟨w, hw⟩ := (s.startLoaded false x body).startCounted_boot false
    exact ⟨w, hw, fun h => absurd h (by decide)⟩

/-- The cores a start loads: core SB always, on a cold start each (R74, R78). -/
theorem State.startLoaded_up (s : State) (warm : Bool) (x : Bank) (body : List Byte) (c : CoreId)
    (hc : warm = false ∨ c = coreSB) : (s.startLoaded warm x body).core[c].up = true := by
  simp only [State.startLoaded, Fin.getElem_fin, Vector.getElem_ofFn]
  obtain rfl | rfl := hc
  · split <;> rfl
  · rfl

end Sys2Proof.Machine
end

section
/-! SUPPORT. What a restart of all cores leaves (R74, R75, R488). -/

-- Declarations in turn: the stack of every thread counts toward the memory that the check allows the one text.
set_option Elab.async false

namespace Sys2Proof.Machine

/-! ### The commands in progress come to an end (R457, R488) -/

/-- A completion ends the command it names and begins none. -/
theorem State.mem_active_of_complete {s : State} {r : CmdRef} {st : BitVec 16} {result : List Byte} {c : Held}
    (hc : c ∈ (s.complete r st result).active) : c ∈ s.active ∧ CmdRef.of c ≠ r := by
  simp only [State.complete] at hc
  split at hc
  case isTrue h =>
    refine ⟨hc, fun hr => ?_⟩
    simp only [Bool.not_eq_true', List.any_eq_false, decide_eq_true_eq] at h
    exact h c hc hr
  case isFalse =>
    obtain ⟨hmem, hne⟩ := List.mem_filter.mp hc
    refine ⟨hmem, fun hr => ?_⟩
    subst hr
    simp [CmdRef.of] at hne

/-- A completion of every command in progress leaves none. -/
theorem State.foldl_complete_active (s : State) (f : Held → BitVec 16 × List Byte) :
    (s.active.foldl (fun u c => u.complete (CmdRef.of c) (f c).1 (f c).2) s).active = [] := by
  refine List.eq_nil_iff_forall_not_mem.mpr fun c hc => ?_
  have hstart : c ∈ s.active := by
    have hback (l : List Held) (u : State) :
        c ∈ (l.foldl (fun u c => u.complete (CmdRef.of c) (f c).1 (f c).2) u).active → c ∈ u.active :=
      List.foldlRecOn (motive := fun t : State => c ∈ t.active → c ∈ u.active) l _ id
        fun _ ht _ _ hmem => ht (State.mem_active_of_complete hmem).1
    exact hback s.active s hc
  exact State.foldl_reaches (Q := fun (c : Held) (t : State) => c ∉ t.active)
    (fun a u hmem => (State.mem_active_of_complete hmem).2 rfl)
    (fun a b u hnot hmem => hnot (State.mem_active_of_complete hmem).1) hstart s hc

/-! ### What a restart keeps or empties -/

/-- The hot-swap block, the restart asked for, the commands of the front ends, and of each port its contract, its path's
state and its attachment. -/
def State.atRest (s : State) :
    (HotSwap × Option RestartReq × List Held × List Held × List Held) × Vector (Contract × PathState × TcState) 24 :=
  ((s.hs, s.sup.restartReq, s.inbox, s.waiting, s.active), s.port.map fun p => (p.ct, p.pp.st, p.tc.st))

theorem State.modAlt_atRest (s : State) (n : PortId) (f : Alt → Alt) : (s.modAlt n f).atRest = s.atRest :=
  congrArg (Prod.mk s.atRest.1) (Vector.map_set_of_eq (fun p : Port => (p.ct, p.pp.st, p.tc.st)) s.port n _ rfl)

theorem State.mapPort_atRest (s : State) (f : Port → Port)
    (h : ∀ p, ((f p).ct, (f p).pp.st, (f p).tc.st) = (p.ct, p.pp.st, p.tc.st)) :
    ({ s with port := s.port.map f } : State).atRest = s.atRest :=
  congrArg (Prod.mk s.atRest.1) (Vector.map_map_of_eq (g := fun p : Port => (p.ct, p.pp.st, p.tc.st)) h s.port)

theorem State.atRest_of_sansEvents {s t : State} (h : t.sansEvents = s.sansEvents) : t.atRest = s.atRest :=
  (congrArg State.atRest h :)

theorem State.coreStop_atRest (s : State) (c : CoreId) : (s.coreStop c).atRest = s.atRest := by
  simp only [State.coreStop]
  split
  · exact (State.atRest_of_sansEvents (State.emit_sansEvents ..)).trans rfl
  · rfl

theorem State.coreLost_port (p : Port) : (p.coreLost.ct, p.coreLost.pp.st, p.coreLost.tc.st) = (p.ct, p.pp.st, p.tc.st) := by
  unfold Port.coreLost
  split <;> rfl

theorem State.coresDown_atRest (s : State) : s.coresDown.atRest = s.atRest := by
  have hmark (l : List Script) (f : Script → Alt → Alt) (u : State) :
      (l.foldl (fun u x => u.modAlt x.port (f x)) u).atRest = u.atRest :=
    State.foldl_keeps State.atRest (fun u x => u.modAlt x.port (f x)) (fun u x => State.modAlt_atRest u x.port (f x)) l u
  have hstop (u : State) : ((List.finRange 5).foldl (fun v c => v.coreStop c) u).atRest = u.atRest :=
    State.foldl_keeps State.atRest _ State.coreStop_atRest _ u
  have hlost (u : State) : ({ u with points := { u.points with queue := [], running := false, delay := false }
                                     bg := { u.bg with policy := [], shedQueue := [] }, verify := []
                                     sup := { u.sup with reload := [] }, port := u.port.map Port.coreLost } : State).atRest =
      u.atRest := State.mapPort_atRest u Port.coreLost State.coreLost_port
  have hadvance (u : State) : u.advanceCutShort.atRest = u.atRest := by
    obtain ⟨_, _, -, -, heq⟩ := u.advanceCutShort_eq
    rw [heq]
    rfl
  simp only [State.coresDown]
  rw [hadvance, hstop, hlost, hmark _ (fun _ a => { a with exitDue := true }), hmark _ (fun _ a => { a with detPend := true })]

theorem State.holdEnter_atRest (s : State) (ks : PlatId → Bool) : (s.holdEnter ks).atRest = s.atRest := by
  have hrest := congrArg (fun u : State => u.atRest.1) (s.holdEnter_sansHold ks)
  have hport := congrArg (fun u : State => u.port.map fun p => (p.ct, p.pp.st, p.tc.st)) (s.holdEnter_sansHold ks)
  have hsans (u : State) : (u.sansHold.port.map fun p => (p.ct, p.pp.st, p.tc.st)) = u.port.map fun p => (p.ct, p.pp.st, p.tc.st) :=
    Vector.map_map_of_eq (f := Port.sansHold) (fun _ => rfl) u.port
  exact Prod.ext hrest ((hsans _).symm.trans (hport.trans (hsans s)))

/-- The state but for the host ports and what an event or a completion changes. -/
def State.sansFront (s : State) : State := { s.sansTags with host := Vector.replicate 5 HostFe.reset }

theorem State.complete_sansFront (s : State) (r : CmdRef) (st : BitVec 16) (result : List Byte) :
    (s.complete r st result).sansFront = s.sansFront :=
  (congrArg (fun u : State => { u with host := Vector.replicate 5 HostFe.reset }) (s.complete_sansTags r st result) :)

/-- How a restart completes a command in progress (R488, log entry 80). -/
def restartAnswer (c : Held) : BitVec 16 × List Byte := if restartOp c.op then (stOk, [1]) else (stHoldover, [])

theorem State.complete_restartAnswer (s : State) (c : Held) :
    (if restartOp c.op then s.complete (CmdRef.of c) stOk [1] else s.complete (CmdRef.of c) stHoldover []) =
      s.complete (CmdRef.of c) (restartAnswer c).1 (restartAnswer c).2 := by
  unfold restartAnswer
  split <;> rfl

theorem State.forget_atRest (s : State) (p : CmdRef → Bool) (hreq : s.sup.restartReq = none) : (s.forget p).atRest = s.atRest := by
  have hport := State.mapPort_atRest s (fun q : Port =>
    { q with alt := { q.alt with host := q.alt.host.filter fun r => !p r },
             rs := { q.rs with host := q.rs.host.filter fun r => !p r } }) fun _ => rfl
  refine Prod.ext ?_ (congrArg Prod.snd hport :)
  show (s.hs, s.sup.restartReq.filter (fun x => !p x.cmd), s.inbox, s.waiting, s.active) = s.atRest.1
  rw [hreq, Option.filter_none, ← hreq]
  rfl

/-- The answer to all commands leaves the front ends empty, and a restart no more asked for stays so. -/
theorem State.answerHeld_atRest (s : State) (hreq : s.sup.restartReq = none) :
    (s.answerHeld fun _ => true).atRest = ((s.hs, none, [], [], []), s.atRest.2) := by
  have hnone (l : List Held) : l.filter (fun _ => false) = [] := List.filter_eq_nil_iff.mpr fun _ _ => by decide
  have hreplies (l : List Held) (u : State) :
      (l.foldl (fun v c => v.replyTag c.p c.op stHoldover []) u).sansFront = u.sansFront ∧
      (l.foldl (fun v c => v.replyTag c.p c.op stHoldover []) u).active = u.active :=
    List.foldlRecOn (motive := fun v : State => v.sansFront = u.sansFront ∧ v.active = u.active) l _ ⟨rfl, rfl⟩ fun _ hv _ _ => hv
  have hends (l : List Held) (u : State) :
      (l.foldl (fun v c => v.complete (CmdRef.of c) (restartAnswer c).1 (restartAnswer c).2) u).sansFront = u.sansFront :=
    State.foldl_keeps State.sansFront (fun v c => v.complete (CmdRef.of c) (restartAnswer c).1 (restartAnswer c).2)
      (fun v c => v.complete_sansFront (CmdRef.of c) (restartAnswer c).1 (restartAnswer c).2) l u
  simp only [State.answerHeld, State.complete_restartAnswer, List.filter_true, Bool.not_true, hnone]
  obtain ⟨hfront, hactive⟩ := hreplies (s.inbox ++ s.waiting) { s with inbox := [], waiting := [] }
  generalize (s.inbox ++ s.waiting).foldl _ _ = u at hfront hactive ⊢
  have hfront' := (hends s.active u).trans hfront
  have hdone := u.foldl_complete_active restartAnswer
  rw [hactive] at hdone
  generalize s.active.foldl _ u = v at hfront' hdone ⊢
  rw [State.forget_atRest v _ ((congrArg (fun u : State => u.sup.restartReq) hfront').trans hreq)]
  refine (congrArg (fun w : State => ({ w with active := v.active } : State).atRest) hfront' :).trans ?_
  rw [hdone, ← hreq]
  rfl

/-- With the cores stopped none is up. -/
theorem State.coresDown_up (s : State) (c : CoreId) : s.coresDown.core[c].up = false := by
  have hcore (a : CoreId) (u : State) : (u.coreStop a).core = (u.modCore a fun _ => VCore.reset).core := by
    simp only [State.coreStop]
    split
    · exact State.emit_core ..
    · rfl
  have hstop (a : CoreId) (u : State) : (u.coreStop a).core[a].up = false := by
    rw [hcore, State.modCore_same]
    rfl
  have hkeep (a b : CoreId) (u : State) (ha : u.core[a].up = false) : (u.coreStop b).core[a].up = false := by
    by_cases hab : b = a
    · exact hab ▸ hstop b u
    · rw [hcore, State.modCore_other u b _ a hab, ha]
  have hall (u : State) : ((List.finRange 5).foldl (fun v k => v.coreStop k) u).core[c].up = false :=
    State.foldl_reaches (Q := fun (a : CoreId) (t : State) => t.core[a].up = false) hstop hkeep (List.mem_finRange c) u
  have hadvance (u : State) : u.advanceCutShort.core = u.core := by
    obtain ⟨_, _, -, -, heq⟩ := u.advanceCutShort_eq
    rw [heq]
  simp only [State.coresDown, hadvance]
  exact hall _

theorem State.holdEnter_core (s : State) (ks : PlatId → Bool) : (s.holdEnter ks).core = s.core :=
  (congrArg State.core (s.holdEnter_sansHold ks) :)

end Sys2Proof.Machine
end

section
/-! SUPPORT. What the end of a Port's test decides is left alone by what follows it (R592). -/

-- Declarations in turn: the stack of every thread counts toward the memory that the check allows the one text.
set_option Elab.async false

namespace Sys2Proof.Machine

/-! ### The ports retired, the claims and the attachments -/

/-- The ports retired, the claims, and every port's attachment with its path's state. -/
def State.ended (s : State) : BitVec 24 × Vector (Option HostPort) 24 × Vector (TcState × PathState) 24 :=
  (s.health.retired, s.claim, s.port.map fun p => (p.tc.st, p.pp.st))

theorem State.ended_of_sansEvents {s t : State} (h : t.sansEvents = s.sansEvents) : t.ended = s.ended :=
  (congrArg State.ended h :)

theorem State.modCt_ended (s : State) (n : PortId) (f : Contract → Contract) : (s.modCt n f).ended = s.ended :=
  congrArg (fun v : Vector (TcState × PathState) 24 => (s.health.retired, s.claim, v))
    (Vector.map_set_of_eq (fun p : Port => (p.tc.st, p.pp.st)) s.port n _ rfl)

theorem State.shedEvent_ended (s : State) (phase : Nat) : (s.shedEvent phase).ended = s.ended :=
  State.ended_of_sansEvents (State.emitSt_sansEvents ..)

theorem State.shedEnd_ended (s : State) : s.shedEnd.ended = s.ended := by
  simp only [State.shedEnd]
  split
  · rw [State.shedEvent_ended]
    exact State.forPorts_same State.ended _ (fun n u => State.modCt_ended u n _) _
  · rfl

theorem State.testHealth_ended (s : State) (n : PortId) (test : Nat) (ct : CT) : (s.testHealth n test ct).ended = s.ended :=
  (State.ended_of_sansEvents (State.emitFull_sansEvents ..)).trans rfl

theorem State.policyAsk_ended (s : State) (what : PolicyAsk) : (s.policyAsk what).ended = s.ended := by
  have hbegin (u : State) : u.policyBegin.ended = u.ended := by
    unfold State.policyBegin
    split <;> rfl
  simp only [State.policyAsk]
  split
  · exact hbegin _
  · rfl

theorem State.shedWith_ended (s : State) (target : PortId → Nat) : (s.shedWith target).ended = s.ended :=
  State.foldl_keeps State.ended _ (fun u n => State.modCt_ended u n _) _ s

theorem State.shedStart_ended (s : State) : s.shedStart.ended = s.ended := by
  have hbegin : (if s.bg.shedding then s else ({ s with bg := { s.bg with shedding := true } } : State).shedEvent 1).ended =
      s.ended := by
    split
    · rfl
    · exact State.shedEvent_ended ..
  simp only [State.shedStart]
  split
  · rw [apply_ite State.ended, State.policyAsk_ended, State.shedWith_ended, ite_self, hbegin]
  · exact State.shedEnd_ended s

/-! ### A retired port (R592) -/

theorem State.claimSet_claim (s : State) (n : PortId) (new : Option HostPort) (cause : Nat) :
    (s.claimSet n new cause).claim[n] = new := by
  by_cases h : s.claim[n] = new
  · rw [State.claimSet, if_pos h, h]
  · simp only [State.claimSet, if_neg h, State.emitSt_claim]
    exact Vector.getElem_set_self ..

theorem State.claimSet_keeps (s : State) (n : PortId) (new : Option HostPort) (cause : Nat) :
    (s.claimSet n new cause).health = s.health ∧ (s.claimSet n new cause).port = s.port := by
  unfold State.claimSet
  split
  · exact ⟨rfl, rfl⟩
  · exact ⟨State.emitSt_health .., State.emitSt_port ..⟩

theorem State.ended_parts {s t : State} (h : t.ended = s.ended) :
    t.health.retired = s.health.retired ∧ t.claim = s.claim ∧
    ∀ n : PortId, t.port[n].tc.st = s.port[n].tc.st ∧ t.port[n].pp.st = s.port[n].pp.st :=
  ⟨congrArg Prod.fst h, congrArg (fun x => x.2.1) h, fun n =>
    Prod.mk.inj (Vector.getElem_of_map_eq (g := fun p : Port => (p.tc.st, p.pp.st)) (congrArg (fun x => x.2.2) h) n)⟩

/-- The bit of a port in a mask. -/
theorem bit_port (n : PortId) : bit (BitVec.ofNat 24 (1 <<< n.val)) n.val = true := by
  simp only [bit, BitVec.getLsbD_ofNat, Nat.one_shiftLeft, Nat.testBit_two_pow_self, n.isLt, decide_true, Bool.and_self]

theorem bit_set_port (x : BitVec 24) (n : PortId) : bit (x ||| BitVec.ofNat 24 (1 <<< n.val)) n.val = true := by
  have h := bit_port n
  unfold bit at h ⊢
  rw [BitVec.getLsbD_or, h, Bool.or_true]

theorem bit_clear_port (x : BitVec 24) (n : PortId) : bit (x &&& ~~~ BitVec.ofNat 24 (1 <<< n.val)) n.val = false := by
  have h := bit_port n
  unfold bit at h ⊢
  rw [BitVec.getLsbD_and, BitVec.getLsbD_not, h, Bool.not_true, Bool.and_false, Bool.and_false]

/-- A port taken out of service keeps its attachment and its path, is retired and unclaimed. -/
theorem State.outOfService_ends (s : State) (n : PortId) (test : Nat) (ct : CT) {t : State}
    (ht : t = ((({ s with health := { s.health with retired := s.health.retired ||| BitVec.ofNat 24 (1 <<< n.val) } } : State).claimSet
      n none 3).shedEnd).testHealth n test ct) :
    bit t.health.retired n = true ∧ t.port[n].tc.st = s.port[n].tc.st ∧ t.port[n].pp.st = s.port[n].pp.st ∧
    t.claim[n] = none := by
  obtain ⟨hhealth, hsame⟩ := State.claimSet_keeps
    { s with health := { s.health with retired := s.health.retired ||| BitVec.ofNat 24 (1 <<< n.val) } } n none 3
  obtain ⟨hretired, hclaim, hport⟩ := State.ended_parts ((congrArg State.ended ht).trans
    ((State.testHealth_ended ..).trans (State.shedEnd_ended _)))
  obtain ⟨htc, hpath⟩ := hport n
  simp only [hretired, hclaim, htc, hpath, hhealth, hsame]
  exact ⟨bit_set_port _ n, trivial, trivial, State.claimSet_claim ..⟩

/-- A port that is retired is out of service: disabled, its path open, unclaimed. -/
theorem State.retire_ends (s : State) (n : PortId) (test : Nat) (ct : CT) :
    bit (s.retire n test ct).health.retired n = true ∧ (s.retire n test ct).port[n].tc.st = .disabled ∧
    (s.retire n test ct).port[n].pp.st ≠ .closed ∧ (s.retire n test ct).claim[n] = none := by
  obtain ⟨hst, hpp, -⟩ := (s.retireCmds n).disablePort_ends n
  obtain ⟨hretired, htc, hpath, hclaim⟩ := State.outOfService_ends ((s.retireCmds n).disablePort n) n test ct
    (t := s.retire n test ct) rfl
  exact ⟨hretired, htc.trans hst, fun h => hpp (hpath.symm.trans h), hclaim⟩

/-- A port that passes its test is in service. -/
theorem State.testPass_retired (s : State) (n : PortId) (st : TcState) : bit (s.testPass n st).health.retired n = false := by
  have hunatt (u : State) (b : Bool) : (u.toUnatt n b).health = u.health := by
    simp only [State.toUnatt, State.enterUnatt]
    split
    · exact State.emit_health ..
    · rfl
  unfold State.testPass
  split
  case isTrue =>
    dsimp only
    rw [(State.ended_parts (State.shedStart_ended _)).1, State.modTc_health]
    split <;> exact bit_clear_port _ n
  case isFalse hin =>
    rw [Bool.not_eq_true] at hin
    split
    · rw [hunatt, hin]
    · exact hin

/-- A test failed is one of the six. -/
theorem find_failed {f : BitVec 6} : ((List.range 6).find? fun i => bit f i) = none ↔ f = 0 := by
  rw [List.find?_eq_none]
  constructor
  · intro h
    refine BitVec.eq_of_getLsbD_eq fun i hi => ?_
    simpa [bit] using h i (List.mem_range.mpr hi)
  · rintro rfl i -
    simp [bit]

end Sys2Proof.Machine
end

section
/-! PROOFS. Primer, restarts, SERVICE, the life counter and the end of a Port's test (O9). -/

-- Declarations in turn: the stack of every thread counts toward the memory that the check allows the one text.
set_option Elab.async false

namespace Sys2Proof.Machine

/-! ### Primer (R74, R76, R78) -/

theorem State.boot_parts {s t : State} (h : t.boot = s.boot) :
    t.fuse = s.fuse ∧ t.sup.primer = s.sup.primer ∧ t.sup.runBank = s.sup.runBank ∧ t.sup.runFlag = s.sup.runFlag ∧
    t.sup.primerEver = s.sup.primerEver ∧ (∀ c : CoreId, t.core[c].up = s.core[c].up) ∧ t.bankA = s.bankA ∧
    t.bankB = s.bankB ∧ t.health.warm = s.health.warm := by
  simp only [State.boot, Prod.mk.injEq] at h
  obtain ⟨hfuse, hprimer, hbank, hflag, hever, hcore, hA, hB, hwarm⟩ := h
  exact ⟨hfuse, hprimer, hbank, hflag, hever, Vector.getElem_of_map_eq hcore, hA, hB, hwarm⟩

/-- The outcome of Primer's choice of a bank. -/
def State.primed (s t : State) (w : Bool) (b : Option Bank) (x : Bank) : Prop :=
  t.sup.primer = .done ∧ t.sup.runBank = some x ∧ t.sup.runFlag = true ∧ t.sup.primerEver = true ∧
  (∀ c : CoreId, (w = false ∨ c = coreSB) → t.core[c].up = true) ∧
  (b = some x → (t.bank x).sel = (s.bank x.other).sel + 1) ∧ (b ≠ some x → (t.bank x).sel = (s.bank x).sel) ∧
  (w = true → t.health.warm = sat32 (s.health.warm + 1))

/-- A start keeps Varnish and the banks, and runs the bank it is given. -/
theorem State.startSb_primed (s : State) (w : Bool) (x : Bank) (body : List Byte) (failed : Option Bank) (differ : Bool)
    {t : State} (ht : t = s.startSb w x body failed differ) :
    t.sup.primer = .done ∧ t.sup.runBank = some x ∧ t.sup.runFlag = true ∧ t.sup.primerEver = true ∧
    (∀ c : CoreId, (w = false ∨ c = coreSB) → t.core[c].up = true) ∧ t.bank x = s.bank x ∧
    (w = true → t.health.warm = sat32 (s.health.warm + 1)) ∧ t.fuse = s.fuse := by
  obtain ⟨k, hboot, hk⟩ := s.startSb_starts w x body failed differ
  rw [← ht] at hboot
  obtain ⟨hfuse, hprimer, hbank, hflag, hever, hcore, hA, hB, hwarm⟩ := State.boot_parts hboot
  refine ⟨hprimer, hbank, hflag, hever, fun c hc => (hcore c).trans (s.startLoaded_up w x body c hc), ?_,
    fun h => hwarm.trans (hk h), hfuse⟩
  cases x with
  | a => exact hA
  | b => exact hB

theorem State.selWrite_bank (s : State) (x : Bank) :
    ((s.selWrite x).bank x).sel = (s.bank x.other).sel + 1 ∧ (s.selWrite x).health = s.health ∧
    (s.selWrite x).fuse = s.fuse := by
  cases x <;> exact ⟨rfl, rfl, rfl⟩

theorem State.primerRuns_primed (s : State) (w : Bool) (b : Option Bank) (x : Bank) (body : List Byte) (failed : Option Bank)
    (differ : Bool) {t : State} (ht : t = (if b = some x then s.selWrite x else s).startSb w x body failed differ) :
    s.primed t w b x ∧ t.fuse = s.fuse := by
  by_cases hb : b = some x
  · rw [if_pos hb] at ht
    obtain ⟨hprimer, hrun, hflag, hever, hup, hsame, hwarm, hfuse⟩ := State.startSb_primed _ w x body failed differ ht
    obtain ⟨hsel, hhealth, hfuses⟩ := s.selWrite_bank x
    exact ⟨⟨hprimer, hrun, hflag, hever, hup, fun _ => (congrArg ImageBank.sel hsame).trans hsel, fun h => absurd hb h,
      fun h => by rw [hwarm h, hhealth]⟩, hfuse.trans hfuses⟩
  · rw [if_neg hb] at ht
    obtain ⟨hprimer, hrun, hflag, hever, hup, hsame, hwarm, hfuse⟩ := State.startSb_primed _ w x body failed differ ht
    exact ⟨⟨hprimer, hrun, hflag, hever, hup, fun h => absurd h hb, fun _ => congrArg ImageBank.sel hsame, hwarm⟩, hfuse⟩

/-- Primer's answer, once the thermometer has been read. -/
theorem execPrimerCompletion_running (s : State) (w : Bool) (b : Option Bank) (d : MainReads)
    (hrun : s.sup.primer = .running w b) :
    ∃ t, exec (.primerCompletion false d) s = .next t ∧
      ((∃ x body failed, (s.readThermo d.oneRef).chooseBank w b = some (x, body, failed) ∧
          t = (if b = some x then (s.readThermo d.oneRef).selWrite x else s.readThermo d.oneRef).startSb w x body failed
            (mainDiffer d)) ∨
        ((s.readThermo d.oneRef).chooseBank w b = none ∧ t = (s.readThermo d.oneRef).toService)) := by
  show ∃ t, execPrimerCompletion false d s = .next t ∧ _
  simp only [execPrimerCompletion, hrun, Bool.false_eq_true, if_false]
  refine ⟨_, rfl, ?_⟩
  cases (s.readThermo d.oneRef).chooseBank w b with
  | none => exact .inr ⟨rfl, rfl⟩
  | some r => exact .inl ⟨r.1, r.2.1, r.2.2, rfl, rfl⟩

/-- A reload of a Platform's core, where it is due and the running bank still passes (R78, log entry 127). -/
theorem State.reloadOne_due (s : State) (k : PlatId) (l : List PlatId) (hl : s.sup.reload = k :: l) (hw : s.hs.warn = false) :
    if (s.verifyBank (s.sup.runBank.getD .a)).1 = 0 then
      s.reloadOne.core[coreOf k].up = true ∧ s.reloadOne.sup.reload = l ∧ s.reloadOne.port = s.port ∧
        ∀ c : CoreId, c ≠ coreOf k → s.reloadOne.core[c] = s.core[c]
    else s.reloadOne = s := by
  have heq : s.reloadOne = if (s.verifyBank (s.sup.runBank.getD .a)).1 = 0 then
      (({ s with sup := { s.sup with reload := l } } : State).modCore (coreOf k) fun _ =>
        loadCore (s.verifyBank (s.sup.runBank.getD .a)).2 (coreOf k)).startEvent 2 none k.val
      else s := by
    unfold State.reloadOne
    rw [hl, hw]
  split
  case isTrue hok =>
    rw [if_pos hok] at heq
    have hcore : s.reloadOne.core = (s.modCore (coreOf k) fun _ => loadCore (s.verifyBank (s.sup.runBank.getD .a)).2 (coreOf k)).core :=
      (congrArg State.core heq).trans (State.emitSt_core ..)
    refine ⟨?_, ?_, ?_, fun c hc => ?_⟩
    · simp only [hcore, State.modCore_same]
      rfl
    · rw [heq]
      exact congrArg Supplies.reload (State.emitSt_sup ..)
    · rw [heq]
      exact State.emitSt_port ..
    · simp only [hcore]
      exact State.modCore_other s _ _ c (Ne.symm hc)
  case isFalse hok => rw [heq, if_neg hok]

/-! ### A restart (R74, R488) -/

/-- The restart that RESTART_BEGIN makes. -/
def State.restarted (s : State) (r : RestartReq) : State :=
  (({ s with sup := { s.sup with restartReq := none } } : State).complete r.cmd stOk [0]).restartAll r.bank

theorem execRestartBegin_begins (s : State) (r : RestartReq) (hr : s.sup.restartReq = some r) (hup : s.sbUp = true)
    (hbusy : allPorts.any s.portBusy = false) (hadvance : s.advance = []) :
    exec (.restartBegin) s = .next (s.restarted r) := by
  show execRestartBegin s = _
  simp only [execRestartBegin, hr, hup, hbusy, hadvance, List.isEmpty_nil, Bool.not_false, Bool.and_self, if_true,
    State.restarted]

theorem execRestartBegin_idle (s : State)
    (hno : s.sup.restartReq = none ∨ s.sbUp = false ∨ allPorts.any s.portBusy = true ∨ s.advance ≠ []) :
    exec (.restartBegin) s = .next s := by
  show execRestartBegin s = _
  cases hr : s.sup.restartReq with
  | none => simp only [execRestartBegin, hr]
  | some r =>
    have hguard : (s.sbUp && s.advance.isEmpty && !allPorts.any s.portBusy) = false := by
      rcases hno with h | h | h | h
      · exact absurd (hr.symm.trans h) (Option.some_ne_none r)
      · rw [h, Bool.false_and, Bool.false_and]
      · rw [h, Bool.not_true, Bool.and_false]
      · rw [List.isEmpty_eq_false_iff.mpr h, Bool.and_false, Bool.false_and]
    simp only [execRestartBegin, hr, hguard, Bool.false_eq_true, if_false]

/-- What the stop of all cores leaves at rest. -/
theorem State.stopped_atRest (s : State) (hreq : s.sup.restartReq = none) :
    (((s.answerHeld fun _ => true).coresDown.holdEnter fun _ => true)).atRest = ((s.hs, none, [], [], []), s.atRest.2) := by
  rw [State.holdEnter_atRest, State.coresDown_atRest, s.answerHeld_atRest hreq]

theorem State.atRest_parts {s t : State} (h : t.atRest = ((s.hs, none, [], [], []), s.atRest.2)) :
    t.hs = s.hs ∧ t.sup.restartReq = none ∧ t.inbox = [] ∧ t.waiting = [] ∧ t.active = [] ∧
    ∀ n : PortId, t.port[n].ct = s.port[n].ct ∧ t.port[n].pp.st = s.port[n].pp.st ∧ t.port[n].tc.st = s.port[n].tc.st := by
  simp only [State.atRest, Prod.mk.injEq] at h
  obtain ⟨⟨hhs, hreq, hinbox, hwaiting, hactive⟩, hport⟩ := h
  refine ⟨hhs, hreq, hinbox, hwaiting, hactive, fun n => ?_⟩
  obtain ⟨hct, hpath⟩ := Prod.mk.inj (Vector.getElem_of_map_eq (g := fun p : Port => (p.ct, p.pp.st, p.tc.st)) hport n)
  exact ⟨hct, Prod.mk.inj hpath⟩

/-- A restart of all cores: Primer starts, the front ends are empty, no core is up, the ports stay attached. -/
theorem State.restartAll_leaves (s : State) (named : Option Bank) (hreq : s.sup.restartReq = none) {t : State}
    (ht : t = s.restartAll named) :
    t.sup.primer = (if s.hs.warn then .stopped s.sup.runFlag named else .running s.sup.runFlag named) ∧
    t.sup.restartReq = none ∧ t.inbox = [] ∧ t.waiting = [] ∧ t.active = [] ∧ (∀ c : CoreId, t.core[c].up = false) ∧
    ∀ n : PortId, t.port[n].ct = s.port[n].ct ∧ t.port[n].pp.st = s.port[n].pp.st ∧ t.port[n].tc.st = s.port[n].tc.st := by
  have hrest := s.stopped_atRest hreq
  have hcore := State.holdEnter_core (s.answerHeld fun _ => true).coresDown fun _ => true
  have hup (c : CoreId) := State.coresDown_up (s.answerHeld fun _ => true) c
  unfold State.restartAll at ht
  generalize (s.answerHeld fun _ => true).coresDown = u at hrest hcore hup ht
  generalize (u.holdEnter fun _ => true) = v at hrest hcore ht
  obtain ⟨hhs, hnone, hinbox, hwaiting, hactive, hport⟩ := State.atRest_parts hrest
  subst ht
  refine ⟨?_, hnone, hinbox, hwaiting, hactive, fun c => ?_, hport⟩
  · rw [← hhs]
    rfl
  · show v.core[c].up = false
    simp only [hcore, hup]

theorem State.restarted_leaves (s : State) (r : RestartReq) {t : State} (ht : t = s.restarted r) :
    t.sup.primer = (if s.hs.warn then .stopped s.sup.runFlag r.bank else .running s.sup.runFlag r.bank) ∧
    t.sup.restartReq = none ∧ t.inbox = [] ∧ t.waiting = [] ∧ t.active = [] ∧ (∀ c : CoreId, t.core[c].up = false) ∧
    ∀ n : PortId, t.port[n].ct = s.port[n].ct ∧ t.port[n].pp.st = s.port[n].pp.st ∧ t.port[n].tc.st = s.port[n].tc.st := by
  have hsup : (({ s with sup := { s.sup with restartReq := none } } : State).complete r.cmd stOk [0]).sup =
      { s.sup with restartReq := none } := State.complete_sup ..
  have hhs : (({ s with sup := { s.sup with restartReq := none } } : State).complete r.cmd stOk [0]).hs = s.hs :=
    State.complete_hs ..
  have hport : (({ s with sup := { s.sup with restartReq := none } } : State).complete r.cmd stOk [0]).port = s.port :=
    State.complete_port ..
  have hleaves := State.restartAll_leaves _ r.bank (congrArg Supplies.restartReq hsup) ht
  simp only [hsup, hhs, hport] at hleaves
  exact hleaves

/-! ### The end of a test (R592) -/

theorem State.kp_of_retired (s : State) (n : PortId) (h : bit s.health.retired n = true) : s.kp n = 0 := by
  unfold State.kp State.inService
  rw [h, Bool.not_true, Bool.and_false]
  rfl

/-- The port with its test ended and the tests it failed kept. -/
def State.testEnded (s : State) (n : PortId) (f : BitVec 6) : State :=
  s.modPort n fun p => { p with test := none, ms := { p.ms with tests := p.ms.tests ||| f.zeroExtend 16 } }

/-- The port's return to service or its retirement. -/
def State.testJudged (s : State) (n : PortId) (f : BitVec 6) (st : TcState) : State :=
  match (List.range 6).find? fun i => bit f i with
  | some i => s.retire n i s.time.ct
  | none => s.testPass n st

theorem execSelftestDone_ends (s : State) (n : PortId) (f : BitVec 6) (c : CmdRef) (st : TcState)
    (htest : s.port[n].test = some (c, st)) :
    exec (.selftestDone n f) s = .next (((s.testEnded n f).testJudged n f st).complete c stOk (leBytes 4 f.toNat)) := by
  show execSelftestDone n f s = _
  simp only [execSelftestDone, htest, State.testEnded, State.testJudged] <;> rfl

theorem execSelftestDone_idle (s : State) (n : PortId) (f : BitVec 6) (htest : s.port[n].test = none) :
    exec (.selftestDone n f) s = .next s := by
  show execSelftestDone n f s = _
  simp only [execSelftestDone, htest]

theorem State.testPass_standing (s : State) (n : PortId) (st : TcState) : (s.testPass n st).standing = s.standing := by
  unfold State.testPass
  split
  · dsimp only
    rw [State.shedStart_standing, State.modTc_standing]
    split <;> rfl
  · split
    · exact State.toUnatt_standing ..
    · exact State.modTc_standing ..

theorem State.testJudged_standing (s : State) (n : PortId) (f : BitVec 6) (st : TcState) :
    (s.testJudged n f st).standing = s.standing := by
  unfold State.testJudged
  split
  · exact State.retire_standing ..
  · exact State.testPass_standing s n st

/-- What the judgement leaves: a port that failed a test retired, one that passed in service. -/
theorem State.testJudged_ends (s : State) (n : PortId) (f : BitVec 6) (st : TcState) :
    if f = 0 then bit (s.testJudged n f st).health.retired n = false
    else bit (s.testJudged n f st).health.retired n = true ∧ (s.testJudged n f st).port[n].tc.st = .disabled ∧
      (s.testJudged n f st).port[n].pp.st ≠ .closed ∧ (s.testJudged n f st).claim[n] = none := by
  unfold State.testJudged
  cases hfind : (List.range 6).find? fun i => bit f i with
  | none =>
    rw [if_pos (find_failed.mp hfind)]
    exact s.testPass_retired n st
  | some i =>
    rw [if_neg fun hf => Option.some_ne_none i (hfind.symm.trans (find_failed.mpr hf))]
    exact s.retire_ends n i s.time.ct

/-- The end of a port's test. -/
theorem State.selftest_ends (s : State) (n : PortId) (f : BitVec 6) (c : CmdRef) (st : TcState) {t : State}
    (ht : t = ((s.testEnded n f).testJudged n f st).complete c stOk (leBytes 4 f.toNat)) :
    t.port[n].test = none ∧ t.port[n].ms.tests = s.port[n].ms.tests ||| f.zeroExtend 16 ∧
    (if f = 0 then bit t.health.retired n = false
      else bit t.health.retired n = true ∧ t.port[n].tc.st = .disabled ∧ t.port[n].pp.st ≠ .closed ∧ t.claim[n] = none ∧
        t.kp n = 0) := by
  have hends := (s.testEnded n f).testJudged_ends n f st
  have hstanding := State.testJudged_standing (s.testEnded n f) n f st
  generalize (s.testEnded n f).testJudged n f st = u at ht hends hstanding
  have hport : t.port = u.port := (congrArg State.port ht).trans (State.complete_port ..)
  have hhealth : t.health = u.health := (congrArg State.health ht).trans (State.complete_health ..)
  have hclaim : t.claim = u.claim := (congrArg State.claim ht).trans (State.complete_claim ..)
  have hsame : (s.testEnded n f).port[n] =
      { s.port[n] with test := none, ms := { s.port[n].ms with tests := s.port[n].ms.tests ||| f.zeroExtend 16 } } :=
    State.modPort_same ..
  have htest : u.port[n].test = none := (State.test_of_standing hstanding n).trans (congrArg Port.test hsame)
  have htests : u.port[n].ms.tests = s.port[n].ms.tests ||| f.zeroExtend 16 :=
    (State.tests_of_standing hstanding n).trans (congrArg (fun p : Port => p.ms.tests) hsame)
  have hkp (h : bit u.health.retired n = true) : t.kp n = 0 := State.kp_of_retired t n (by rw [hhealth, h])
  simp only [hport, hhealth, hclaim]
  refine ⟨htest, htests, ?_⟩
  split at hends
  case isTrue hf => rwa [if_pos hf]
  case isFalse hf =>
    obtain ⟨hretired, hst, hpp, hnone⟩ := hends
    rw [if_neg hf]
    exact ⟨hretired, hst, hpp, hnone, hkp hretired⟩

/-! ### The other rows -/

theorem execPrimerCompletion_uncorrectable (s : State) (w : Bool) (b : Option Bank) (d : MainReads)
    (hrun : s.sup.primer = .running w b) : exec (.primerCompletion true d) s = .next s.toService := by
  show execPrimerCompletion true d s = _
  simp only [execPrimerCompletion, hrun, if_true]

theorem execPrimerCompletion_done (s : State) (u : Bool) (d : MainReads) (hdone : s.sup.primer = .done) :
    exec (.primerCompletion u d) s = .next s.reloadOne := by
  show execPrimerCompletion u d s = _
  simp only [execPrimerCompletion, hdone]

theorem execPrimerCompletion_idle (s : State) (u : Bool) (d : MainReads)
    (hidle : s.sup.primer = .off ∨ s.sup.primer = .service ∨
      (s.sup.primer = .done ∧ (s.sup.reload = [] ∨ s.hs.warn = true))) :
    exec (.primerCompletion u d) s = .next s := by
  rcases hidle with h | h | ⟨h, hnone⟩
  · show execPrimerCompletion u d s = _
    simp only [execPrimerCompletion, h]
  · show execPrimerCompletion u d s = _
    simp only [execPrimerCompletion, h]
  · have hsame : s.reloadOne = s := by
      unfold State.reloadOne
      rcases hnone with hnone | hwarn
      · rw [hnone]
      · cases s.sup.reload <;> rw [hwarn]
    rw [execPrimerCompletion_done s u d h, hsame]

/-- A restart abandoned: its event and its answer. -/
theorem execRestartAbandoned_drops (s : State) (r : RestartReq) (n : PortId) (hr : s.sup.restartReq = some r)
    (hn : allPorts.find? s.portBusy = some n) :
    ∃ t, exec (.restartAbandoned) s = .next t ∧ t.sup = { s.sup with restartReq := none } ∧ t.port = s.port ∧
      t.core = s.core := by
  have heq : exec (.restartAbandoned) s = .next ((({ s with sup := { s.sup with restartReq := none } } : State).emitSt 0x0183
      (leBytes 1 n.val ++ [0, 0, 0])).complete r.cmd stOk [1]) := by
    show execRestartAbandoned s = _
    simp only [execRestartAbandoned, hr, hn]
  exact ⟨_, heq, (State.complete_sup ..).trans (State.emitSt_sup ..), (State.complete_port ..).trans (State.emitSt_port ..),
    (State.complete_core ..).trans (State.emitSt_core ..)⟩

theorem execRestartAbandoned_idle (s : State) (hno : s.sup.restartReq = none ∨ allPorts.find? s.portBusy = none) :
    exec (.restartAbandoned) s = .next s := by
  show execRestartAbandoned s = _
  rcases hno with h | h
  · simp only [execRestartAbandoned, h]
  · cases hr : s.sup.restartReq <;> simp only [execRestartAbandoned, hr, h]

/-- A change of the SERVICE pin, with its report where core SB runs. -/
theorem execServiceLevelChange_takes (s : State) (l : Bool) {t : State}
    (ht : exec (.serviceLevelChange l) s = .next t) :
    t.sup.servicePin = l ∧ t.sup.service = s.sup.service ∧ t.port = s.port ∧ (s.sbUp = true → t.sup.serviceDue = []) ∧
    (s.sbUp = false → t.sup.serviceDue =
      if l ≠ s.sup.servicePin && s.sup.logicUp then s.sup.serviceDue ++ [l] else s.sup.serviceDue) := by
  have hreport := State.serviceReport_sansEvents { s with sup := { s.sup with servicePin := l, serviceDue :=
    if l ≠ s.sup.servicePin && s.sup.logicUp then s.sup.serviceDue ++ [l] else s.sup.serviceDue } }
  rw [Host.Outcome.next.inj ht] at hreport
  have hdue : t.sup.serviceDue = if s.sbUp then [] else
      if l ≠ s.sup.servicePin && s.sup.logicUp then s.sup.serviceDue ++ [l] else s.sup.serviceDue :=
    (congrArg (fun u : State => u.sup.serviceDue) hreport :)
  exact ⟨(congrArg (fun u : State => u.sup.servicePin) hreport :), (congrArg (fun u : State => u.sup.service) hreport :),
    (congrArg State.port hreport :), fun hup => by rw [hdue, if_pos hup], fun hdown => by rw [hdue, hdown, if_neg Bool.false_ne_true]⟩

/-- Settles O9: each command is written out by the lemma about it. -/
theorem primerAndRestarts : Obligations.PrimerAndRestarts := by
  unfold Obligations.PrimerAndRestarts
  refine ⟨?uncorrectable, ?primer, ?reload, ?idle, ?restart, ?noRestart, ?abandoned, ?notAbandoned, ?service, ?hour,
    ?noHour, ?tested, ?untested⟩
  case uncorrectable =>
    exact fun s w b d hrun => ⟨_, execPrimerCompletion_uncorrectable s w b d hrun, rfl, rfl, rfl, rfl, rfl⟩
  case primer =>
    intro s w b d hrun
    obtain ⟨t, ht, hcase⟩ := execPrimerCompletion_running s w b d hrun
    refine ⟨t, ht, ?_⟩
    rcases hcase with ⟨x, body, failed, hx, heq⟩ | ⟨hx, heq⟩
    · obtain ⟨hprimed, hfuse⟩ := State.primerRuns_primed _ w b x body failed (mainDiffer d) heq
      rw [hx]
      exact ⟨hprimed, hfuse⟩
    · rw [hx, heq]
      exact ⟨⟨rfl, rfl, rfl, rfl⟩, rfl⟩
  case reload =>
    exact fun s u d k l hdone hl hw => ⟨_, execPrimerCompletion_done s u d hdone, s.reloadOne_due k l hl hw⟩
  case idle => exact fun s u d hidle => ⟨s, execPrimerCompletion_idle s u d hidle, rfl⟩
  case restart =>
    intro s r hr hup hbusy hadvance
    obtain ⟨t, ht⟩ : ∃ t, t = s.restarted r := ⟨_, rfl⟩
    exact ⟨t, ht ▸ execRestartBegin_begins s r hr hup hbusy hadvance, s.restarted_leaves r ht⟩
  case noRestart => exact fun s hno => ⟨s, execRestartBegin_idle s hno, rfl⟩
  case abandoned => exact execRestartAbandoned_drops
  case notAbandoned => exact fun s hno => ⟨s, execRestartAbandoned_idle s hno, rfl⟩
  case service => exact fun s l => ⟨_, rfl, execServiceLevelChange_takes s l rfl⟩
  case hour => exact fun s x hup => ⟨_, congrArg Host.Outcome.next (if_pos hup), rfl⟩
  case noHour => exact fun s x hdown => ⟨s, congrArg Host.Outcome.next (if_neg (by simp [hdown])), rfl⟩
  case tested =>
    intro s n f c st htest
    obtain ⟨t, ht⟩ : ∃ t, t = ((s.testEnded n f).testJudged n f st).complete c stOk (leBytes 4 f.toNat) := ⟨_, rfl⟩
    exact ⟨t, ht ▸ execSelftestDone_ends s n f c st htest, s.selftest_ends n f c st ht⟩
  case untested => exact fun s n f htest => ⟨s, execSelftestDone_idle s n f htest, rfl⟩

end Sys2Proof.Machine
end

section
/-! PROOFS. A tick that ends with a booking displaced (O10); a marker where three frame errors stand already (O11); a sink
that presents Rp (O21). -/

-- Declarations in turn: the stack of every thread counts toward the memory that the check allows the one text.
set_option Elab.async false

namespace Sys2Proof.Machine

/-! ### The ports in a CAD tick (R98, R132, R257) -/

/-- The state at an edge of CAD, before its tick: CAD is present. -/
def State.cadSeen (s : State) : State := { s with time := { s.time with cadHere := true } }

theorem State.tick_port (s : State) (clk : Nat) : (s.tick clk).port = s.placeGos.newsEnd.tripsEnd.port := by
  simp only [State.tick, State.ledgerClear]

/-- In LOCKED a CAD tick changes the ports as the end of the tick before it does. -/
theorem execCadTick_port (s : State) (e : CadEdge) (hup : s.sup.hvUp = true) (hst : s.time.st = .locked) :
    ∃ t, exec (.cadTick e) s = .next t ∧ t.port = s.cadSeen.placeGos.newsEnd.tripsEnd.port := by
  have hcad : s.cadSeen.fromCad = true := by simp only [State.fromCad, State.cadSeen, hst]
  have hedge : (if s.cadSeen.fromCad then s.cadSeen.tick e.clk else s.cadSeen) = s.cadSeen.tick e.clk := if_pos hcad
  exact ⟨_, congrArg Host.Outcome.next (if_pos hup), (congrArg State.port hedge).trans (State.tick_port ..)⟩

/-- A PATH booking of port 0. -/
def displacedEntry : Entry :=
  { owner := 0, kind := .path, dur := 4, step := 0, inc := 0, todo := [(0, 0)], fired := 0, last := 0 }

/-- In LOCKED, in a tick in which a higher-ranked booking has left no place for the PATH booking of port 0, attached. -/
def displacedState : State :=
  { State.reset.modTc 0 fun c => { c with st := .attSrc } with
    sup := { State.reset.sup with hvUp := true }
    time := { State.reset.time with st := .locked }
    tt := { State.reset.tt with dropped := [(0, displacedEntry)] } }

theorem displacedState_pathRetry : displacedState.port[(0 : PortId)].tc.pathRetry = false := by decide

/-- At the end of the tick the owner is told, and makes its booking again (R132, R220). -/
theorem displacedState_tells :
    displacedState.cadSeen.placeGos.newsEnd.tripsEnd.port[(0 : PortId)].tc.pathRetry = true := by decide +kernel

/-- Refutes O10: with no trip waiting, the tick still tells the owner of a booking that the tick before has displaced (R132),
and its port changes. -/
theorem not_chassisTicks : ¬ Obligations.ChassisTicks := by
  unfold Obligations.ChassisTicks
  rintro ⟨htick, -⟩
  obtain ⟨t, ht, -, -, -, -, -, -, -, -, hkept⟩ := htick displacedState 0 false rfl rfl
  obtain ⟨hport, -⟩ := hkept rfl
  obtain ⟨u, hu, hmoved⟩ := execCadTick_port displacedState ⟨0, false⟩ rfl rfl
  obtain rfl : u = t := Host.Outcome.next.inj (hu.symm.trans ht)
  have hretry := displacedState_tells
  rw [← hmoved, hport, displacedState_pathRetry] at hretry
  exact Bool.false_ne_true hretry

/-! ### A frame marker at tick 0 of a frame (R97, R614) -/

/-- In LOCKED a frame marker at tick 0 of a frame ends the run of tick errors; the run of frame errors is judged again. -/
theorem State.judgeMarker_inTime (s : State) (rise : CT) (hst : s.time.st = .locked) (hrise : rise.toNat % 2048 = 0) :
    s.judgeMarker rise 0 false =
      if run3 s.time.frameRun then ({ s with time := { s.time with tickRun := none } } : State).enterHoldover 3
      else { s with time := { s.time with tickRun := none } } := by
  have hat : (rise + (0 : BitVec 32).signExtend 48).toNat % 2048 = 0 := by simpa using hrise
  simp only [State.judgeMarker, hat, Nat.sub_zero, Nat.mod_self, Bool.false_and, Bool.false_eq_true, if_false, ne_eq,
    not_true_eq_false, decide_false, Bool.or_self, hst, reduceCtorEq, runOf, if_true, run3, Bool.false_or]

theorem State.enterHoldover_of_locked (s : State) (cause : BitVec 4) (hst : s.time.st = .locked) :
    (s.enterHoldover cause).time.st = .holdover := by
  simp only [State.enterHoldover, hst]
  exact congrArg Time.st (State.emitSt_time ..)

/-- FRM_MARKER for a frame marker that has ended, outside ACQUIRE. -/
theorem execFrmMarker_frame (s : State) (m : Marker) (hdone : s.time.frmDone = some m) (hwidth : m.width = 1)
    (hst : s.time.st ≠ .acquire) :
    exec (.frmMarker m.rise m.width) s =
      .next (({ s with time := ({ s.time with frmDone := none } : Time).capture m 0 } : State).judgeMarker m.rise m.ofs
        false) := by
  show execFrmMarker m.rise m.width s = _
  have hcaptured : (({ s.time with frmDone := none } : Time).capture m 0).st ≠ .acquire := hst
  simp only [execFrmMarker, hdone, hwidth, ne_eq, not_true_eq_false, decide_false, Bool.or_self, Bool.false_eq_true,
    if_false, if_true, hcaptured]
  rfl

/-- In LOCKED, with a frame marker at tick 0 to be taken, and three frame errors in a row counted before it. -/
def frameErrorsState : State :=
  { State.reset with time := { State.reset.time with st := .locked, frameRun := some (1, 3),
                                                     frmDone := some { rise := 0, fall := 1, width := 1, ofs := 0 } } }

/-- Refutes O11: a frame marker at tick 0 leaves the run of frame errors and judges it again (R614), so that where it holds
three already the marker enters HOLDOVER. No run of the Station leaves such a count in LOCKED (the third error enters
HOLDOVER, which empties it), but the statement's clause for a marker in time has no premise about it. -/
theorem not_chassisStates : ¬ Obligations.ChassisStates := by
  unfold Obligations.ChassisStates
  rintro ⟨-, -, -, -, -, -, -, -, -, -, -, -, -, -, -, hmarker, -⟩
  obtain ⟨t, ht, hlocked, -⟩ := hmarker frameErrorsState { rise := 0, fall := 1, width := 1, ofs := 0 } rfl rfl rfl rfl rfl
  have hnext := execFrmMarker_frame frameErrorsState _ rfl rfl (by decide)
  rw [State.judgeMarker_inTime _ _ (by rfl) (by rfl), if_pos (by rfl)] at hnext
  obtain rfl := Host.Outcome.next.inj (hnext.symm.trans ht)
  rw [State.enterHoldover_of_locked _ _ (by rfl)] at hlocked
  exact CtState.noConfusion hlocked

/-! ### The threshold of a sink pin that presents Rp (R208) -/

/-- Where the port presents Rp there is no step of the sink threshold. -/
theorem execSinkThresholdStep_rp (s : State) (n : PortId) (mv : Nat) (hrp : s.port[n].tc.rpOffer ≠ 0) :
    exec (.sinkThresholdStep n mv) s = .next s := by
  show execSinkThresholdStep n mv s = _
  simp only [execSinkThresholdStep, hrp, decide_false, Bool.and_false, Bool.false_and, Bool.false_eq_true, if_false]

/-- Port 0 in ATT_SNK presenting Rp, as between steps 3 and 5 of a swap to source (R342). -/
def rpSinkState : State := State.reset.modTc 0 fun c => { c with st := .attSnk, rpOffer := 1 }

/-- Refutes O21: the clauses for a threshold step ask for a state of the sink's table, and not that the port presents Rd;
a sink that a swap to source has made present Rp (R342) takes no step. -/
theorem not_openingOfPorts : ¬ Obligations.OpeningOfPorts := by
  unfold Obligations.OpeningOfPorts
  rintro ⟨-, -, -, -, -, -, -, -, -, -, -, -, hstep, -⟩
  obtain ⟨t, ht, hnext, -⟩ := hstep rpSinkState 0 300 (by decide) (by decide) (by decide)
  obtain rfl : rpSinkState = t :=
    Host.Outcome.next.inj ((execSinkThresholdStep_rp rpSinkState 0 300 (by decide)).symm.trans ht)
  exact absurd hnext (by decide)

end Sys2Proof.Machine
end

section
/-! PROOFS. Counter channels and the registers that a core writes (O13). -/

-- Declarations in turn: the stack of every thread counts toward the memory that the check allows the one text.
set_option Elab.async false

namespace Sys2Proof.Machine

/-! ### The action of a match or a wrap (R105, R107) -/

theorem Channel.act_stop (c : Channel) (h : c.rank < 3) : (c.act 3).run = false ∧ (c.act 3).count = c.edgeCount := by
  simp [Channel.act, Nat.not_le.mpr h]

theorem Channel.act_restart (c : Channel) (h : c.rank < 2) : (c.act 2).run = true ∧ (c.act 2).count = c.phase := by
  simp [Channel.act, Nat.not_le.mpr h]

/-- The flags of a channel, set and due. -/
def Channel.marks (c : Channel) : Bool × Bool × Bool × Bool := (c.mflag, c.wflag, c.dueM, c.dueW)

theorem Channel.act_marks (c : Channel) (r : Nat) : (c.act r).marks = c.marks := by
  unfold Channel.act
  (repeat' split) <;> rfl

/-- An action reaches at most one channel: that of the match or wrap, or the one it links. -/
theorem State.chanAction_reaches (s : State) (ch : Fin 128) (code : BitVec 3) :
    s.chanAction ch code = s ∨
    ∃ (k : Fin 128) (r : Nat), (k = ch ∨ k.val = s.chan[ch].link.toNat) ∧
      s.chanAction ch code = s.modChan k fun x => x.act r := by
  simp only [State.chanAction]
  split
  case h_1 => exact .inr ⟨ch, 3, .inl rfl, rfl⟩
  case h_2 => exact .inr ⟨ch, 2, .inl rfl, rfl⟩
  case h_3 | h_4 | h_5 =>
    split
    · exact .inr ⟨_, _, .inr rfl, rfl⟩
    · exact .inl rfl
  case h_6 => exact .inl rfl

theorem State.chanAction_other (s : State) (ch : Fin 128) (code : BitVec 3) (k : Fin 128) (hk : k ≠ ch)
    (hlink : k.val ≠ s.chan[ch].link.toNat) : (s.chanAction ch code).chan[k] = s.chan[k] := by
  rcases s.chanAction_reaches ch code with h | ⟨j, r, hj, h⟩
  · rw [h]
  · have hjk : j ≠ k := by
      rintro rfl
      exact hj.elim hk hlink
    simp only [h, State.modChan_other s j _ k hjk]

theorem State.chanAction_marks (s : State) (ch : Fin 128) (code : BitVec 3) (k : Fin 128) :
    (s.chanAction ch code).chan[k].marks = s.chan[k].marks := by
  rcases s.chanAction_reaches ch code with h | ⟨j, r, -, h⟩
  · rw [h]
  · by_cases hjk : j = k
    · subst hjk
      simp only [h, State.modChan_same, Channel.act_marks]
    · simp only [h, State.modChan_other s j _ k hjk]

/-- A flag set on a channel, and the action after it: the channel's marks are those of the flag, no port changes, and no
channel but this one and the linked one. -/
theorem State.flagged_acts (s : State) (ch : Fin 128) (f : Channel → Channel) (code : BitVec 3)
    (hlink : (f s.chan[ch]).link = s.chan[ch].link) {t : State} (ht : t = (s.modChan ch f).chanAction ch code) :
    t.chan[ch].marks = (f s.chan[ch]).marks ∧ t.port = s.port ∧
    ∀ k : Fin 128, k ≠ ch → k.val ≠ s.chan[ch].link.toNat → t.chan[k] = s.chan[k] := by
  subst ht
  refine ⟨?_, (congrArg State.port (State.chanAction_chan (s.modChan ch f) ch code) :), fun k hk hne => ?_⟩
  · rw [State.chanAction_marks, State.modChan_same]
  · rw [State.chanAction_other _ ch code k hk (by rwa [State.modChan_same, hlink]), State.modChan_other s ch f k (Ne.symm hk)]

/-- Action 1 stops the channel at its count, action 2 begins it again at PHASE. -/
theorem State.flagged_stops (s : State) (ch : Fin 128) (f : Channel → Channel)
    (hrank : (f s.chan[ch]).rank < 3) :
    ((s.modChan ch f).chanAction ch 1).chan[ch].run = false ∧
    ((s.modChan ch f).chanAction ch 1).chan[ch].count = (f s.chan[ch]).edgeCount := by
  have hact : ((s.modChan ch f).chanAction ch 1).chan[ch] = (f s.chan[ch]).act 3 := by
    show ((s.modChan ch f).modChan ch fun x => x.act 3).chan[ch] = _
    rw [State.modChan_same, State.modChan_same]
  rw [hact]
  exact Channel.act_stop _ hrank

theorem State.flagged_restarts (s : State) (ch : Fin 128) (f : Channel → Channel)
    (hrank : (f s.chan[ch]).rank < 2) :
    ((s.modChan ch f).chanAction ch 2).chan[ch].run = true ∧
    ((s.modChan ch f).chanAction ch 2).chan[ch].count = (f s.chan[ch]).phase := by
  have hact : ((s.modChan ch f).chanAction ch 2).chan[ch] = (f s.chan[ch]).act 2 := by
    show ((s.modChan ch f).modChan ch fun x => x.act 2).chan[ch] = _
    rw [State.modChan_same, State.modChan_same]
  rw [hact]
  exact Channel.act_restart _ hrank

/-! ### The activities of a port's channels (R109) -/

theorem State.bookPort_port (s : State) (n : PortId) (k : Kind) (dur : Nat) (req : Option CT) (step : Int) (inc : Nat) :
    (s.bookPort n k dur req step inc).1.port = s.port :=
  (congrArg State.port (State.bookPort_sansPlaces s n k dur req step inc) :)

theorem State.enterUnatt_other (s : State) (n m : PortId) (dest : TcState) (h : n ≠ m) :
    (s.enterUnatt n dest).port[m] = s.port[m] := by
  simp only [State.enterUnatt, State.typecEvent_ite_port]
  exact State.modPort_other s n _ m h

theorem State.drpMatch_other (s : State) (n m : PortId) (h : n ≠ m) : (s.drpMatch n).port[m] = s.port[m] := by
  unfold State.drpMatch
  dsimp only
  split
  · exact (State.enterUnatt_other _ n m _ h).trans (State.modPort_other s n _ m h)
  · rfl

theorem State.calBook_port (s : State) (n : PortId) : (s.calBook n).port = s.port := by
  unfold State.calBook
  dsimp only
  split
  · exact State.bookPort_port ..
  · rfl

theorem State.queueTrace_other (s : State) (n m : PortId) (f : TrFrame) (h : n ≠ m) :
    (s.queueTrace n f).port[m] = s.port[m] := by
  obtain ⟨net, fresh, hq | hq⟩ := s.queueTrace_cases n f
  · rw [hq]
  · rw [hq, State.modMs_other _ n m _ h]

theorem State.flushTrace_other (n m : PortId) (h : n ≠ m) (fuel : Nat) (s : State) :
    (State.flushTrace n fuel s).port[m] = s.port[m] := by
  induction fuel generalizing s with
  | zero => rfl
  | succ fuel ih =>
    cases hheld : s.port[n].ms.trace.held with
    | nil => rw [State.flushTrace_of_held_nil hheld]
    | cons f r =>
      simp only [State.flushTrace, hheld]
      split
      · rfl
      · rw [ih, State.queueTrace_other _ n m _ h, State.modMs_other _ n m _ h]

theorem State.traceCut_other (s : State) (n m : PortId) (h : n ≠ m) : (s.traceCut n).port[m] = s.port[m] := by
  unfold State.traceCut
  dsimp only
  split
  · rfl
  · rw [State.flushTrace_other n m h, State.modMs_other _ n m _ h]

/-- The activity of a port's channel changes that port alone. -/
theorem State.portMatch_other (s : State) (n m : PortId) (j : Nat) (h : n ≠ m) : (s.portMatch n j).port[m] = s.port[m] := by
  unfold State.portMatch
  split
  · exact s.drpMatch_other n m h
  · simp only [s.calBook_port n]
  · exact s.traceCut_other n m h
  · rfl

/-! ### CHANNEL_MATCH and CHANNEL_WRAP -/

/-- The channel with its match flagged, and with its wrap flagged. -/
def Channel.matched (c : Channel) : Channel := { c with dueM := false, mflag := true }
def Channel.wrapped (c : Channel) : Channel := { c with dueW := false, wflag := true }

theorem execChannelMatch_due (s : State) (ch : Fin 128) (hdue : s.chan[ch].dueM = true) :
    exec (.channelMatch ch) s = .next (
      if h : ch.val < 96 then
        ((s.modChan ch Channel.matched).chanAction ch s.chan[ch].actM).portMatch ⟨ch.val / 4, by omega⟩ (ch.val % 4)
      else (s.modChan ch Channel.matched).chanAction ch s.chan[ch].actM) :=
  if_pos hdue

theorem execChannelMatch_idle (s : State) (ch : Fin 128) (hidle : s.chan[ch].dueM = false) :
    exec (.channelMatch ch) s = .next s :=
  if_neg (Bool.not_eq_true _ ▸ hidle)

theorem execChannelWrap_due (s : State) (ch : Fin 128) (hdue : s.chan[ch].dueW = true) :
    exec (.channelWrap ch) s = .next ((s.modChan ch Channel.wrapped).chanAction ch s.chan[ch].actW) := by
  have hact : (s.modChan ch Channel.wrapped).chan[ch].actW = s.chan[ch].actW := by rw [State.modChan_same, Channel.wrapped]
  rw [← hact]
  exact if_pos hdue

theorem execChannelWrap_idle (s : State) (ch : Fin 128) (hidle : s.chan[ch].dueW = false) :
    exec (.channelWrap ch) s = .next s :=
  if_neg (Bool.not_eq_true _ ▸ hidle)

/-! ### Registers of a channel (R104, R105, R108) -/

theorem execChnCtrlWrite_own (s : State) (ch : Fin 128) (v : Word) :
    exec (.chnCtrlWrite (chanOwner ch) ch v) s = .next (s.modChan ch fun c => c.writeCtrl v) :=
  congrArg Host.Outcome.next (if_pos rfl)

/-- A channel's registers are written by its owner alone. -/
theorem execRegisterWrite_foreign (s : State) (c : CoreId) (ch : Fin 128) (v : Word) (r : CoreReg) (hown : chanOwner ch ≠ c)
    (hr : r ∈ [.chReload ch, .chBuf ch, .chMatch ch, .chPhase ch]) : exec (.registerWrite c r v) s = .next s := by
  simp only [List.mem_cons, List.not_mem_nil, or_false] at hr
  rcases hr with rfl | rfl | rfl | rfl <;> exact congrArg Host.Outcome.next (if_neg hown)

/-- What a channel's register reads after a write of the channel. -/
theorem State.modChan_reads {β : Type} (g : Channel → β) (s : State) (ch : Fin 128) (f : Channel → Channel) :
    g (s.modChan ch f).chan[ch] = g (f s.chan[ch]) :=
  congrArg g (State.modChan_same ..)

theorem State.modChan_others (s : State) (ch : Fin 128) (f : Channel → Channel) (k : Fin 128) (hk : k ≠ ch) :
    (s.modChan ch f).chan[k] = s.chan[k] :=
  State.modChan_other s ch f k (Ne.symm hk)

/-! ### The registers of a core (R86, R93, R143, R526) -/

/-- A write of a core's request set reaches no other core's. -/
theorem State.modReq_req (s : State) (c : CoreId) (f : TtReq → TtReq) :
    (s.modReq c f).tt.req[c] = f s.tt.req[c] ∧ ∀ k : CoreId, k ≠ c → (s.modReq c f).tt.req[k] = s.tt.req[k] :=
  ⟨by simp only [State.modReq, Vector.getElem_set_fin, if_true],
   fun k hk => by simp only [State.modReq, Vector.getElem_set_fin, if_neg (Ne.symm hk)]⟩

/-- Settles O13: each command is written out by the lemma about it. -/
theorem counterChannels : Obligations.CounterChannels := by
  unfold Obligations.CounterChannels
  refine ⟨?freeMatch, ?portMatch, ?noMatch, ?wrap, ?noWrap, ?ctrl, ?foreignCtrl, ?reload, ?buf, ?mtch, ?phase, ?foreign,
    ?event, ?reqA, ?reqB, ?reqC, ?reqD, ?timeStat, ?frmCap, ?foreignTime⟩
  case freeMatch =>
    intro s ch hdue hfree
    refine ⟨_, (execChannelMatch_due s ch hdue).trans (congrArg Host.Outcome.next (dif_neg (Nat.not_lt.mpr hfree))), ?_⟩
    obtain ⟨hmarks, hport, hothers⟩ := s.flagged_acts ch Channel.matched s.chan[ch].actM rfl rfl
    refine ⟨congrArg Prod.fst hmarks, congrArg (fun x => x.2.2.1) hmarks, hport, hothers, fun hact hrank => ?_,
      fun hact hrank => ?_⟩
    · rw [hact]
      exact s.flagged_stops ch Channel.matched hrank
    · rw [hact]
      exact s.flagged_restarts ch Channel.matched hrank
  case portMatch =>
    intro s ch hdue hport
    refine ⟨_, (execChannelMatch_due s ch hdue).trans (congrArg Host.Outcome.next (dif_pos hport)), fun m hm => ?_⟩
    have hsame := State.portMatch_other ((s.modChan ch Channel.matched).chanAction ch s.chan[ch].actM) ⟨ch.val / 4, by omega⟩
      m (ch.val % 4) fun h => hm (congrArg Fin.val h).symm
    obtain ⟨-, hports, -⟩ := s.flagged_acts ch Channel.matched s.chan[ch].actM rfl rfl
    rw [hports] at hsame
    rw [hsame]
    exact ⟨rfl, rfl, rfl⟩
  case noMatch => exact fun s ch hidle => ⟨s, execChannelMatch_idle s ch hidle, rfl⟩
  case wrap =>
    intro s ch hdue
    refine ⟨_, execChannelWrap_due s ch hdue, ?_⟩
    obtain ⟨hmarks, hport, hothers⟩ := s.flagged_acts ch Channel.wrapped s.chan[ch].actW rfl rfl
    refine ⟨congrArg (fun x => x.2.1) hmarks, congrArg (fun x => x.2.2.2) hmarks, hport, hothers, fun hact hrank => ?_⟩
    rw [hact]
    exact (s.flagged_stops ch Channel.wrapped hrank).1
  case noWrap => exact fun s ch hidle => ⟨s, execChannelWrap_idle s ch hidle, rfl⟩
  case ctrl =>
    intro s ch v
    refine ⟨_, execChnCtrlWrite_own s ch v, s.modChan_others ch _, ?_⟩
    rw [State.modChan_same]
    exact ⟨rfl, rfl, rfl, rfl, rfl, rfl, rfl, rfl, rfl⟩
  case foreignCtrl => exact fun s c ch v hown => ⟨s, congrArg Host.Outcome.next (if_neg hown), rfl⟩
  case reload =>
    exact fun s ch v => ⟨_, congrArg Host.Outcome.next (if_pos rfl), State.modChan_reads Channel.reload ..,
      State.modChan_reads Channel.force .., State.modChan_reads Channel.count .., s.modChan_others ch _⟩
  case buf =>
    exact fun s ch v => ⟨_, congrArg Host.Outcome.next (if_pos rfl), State.modChan_reads Channel.buf ..,
      State.modChan_reads Channel.count .., s.modChan_others ch _⟩
  case mtch =>
    exact fun s ch v => ⟨_, congrArg Host.Outcome.next (if_pos rfl), State.modChan_reads Channel.mtch ..,
      State.modChan_reads Channel.count .., s.modChan_others ch _⟩
  case phase =>
    exact fun s ch v => ⟨_, congrArg Host.Outcome.next (if_pos rfl), State.modChan_reads Channel.phase ..,
      State.modChan_reads Channel.count .., s.modChan_others ch _⟩
  case foreign => exact fun s c ch v r hown hr => ⟨s, execRegisterWrite_foreign s c ch v r hown hr, rfl⟩
  case event =>
    exact fun s c v => ⟨_, rfl, State.modCore_same .., fun k hk => State.modCore_other s c _ k (Ne.symm hk)⟩
  case reqA => exact fun s c v => ⟨_, rfl, s.modReq_req c _⟩
  case reqB =>
    intro s c v
    refine ⟨_, rfl, ?_⟩
    rw [show v &&& 0xFFFFFFFF = v from BitVec.and_allOnes]
    exact s.modReq_req c _
  case reqC => exact fun s c v => ⟨_, rfl, s.modReq_req c _⟩
  case reqD => exact fun s c v => ⟨_, rfl, s.modReq_req c _⟩
  case timeStat => exact fun s v => ⟨_, rfl, rfl⟩
  case frmCap => exact fun s v => ⟨_, rfl, rfl⟩
  case foreignTime =>
    intro s c v r hc hr
    simp only [List.mem_cons, List.not_mem_nil, or_false] at hr
    rcases hr with rfl | rfl <;> exact ⟨s, congrArg Host.Outcome.next (if_neg hc), rfl⟩

end Sys2Proof.Machine
end

section
/-! PROOFS. RESTART, SET_EPOCH, WRITE_REGS, claims and subscriptions (O40). -/

-- Declarations in turn: the stack of every thread counts toward the memory that the check allows the one text.
set_option Elab.async false

namespace Sys2Proof.Machine

/-! ### The replies and the tags of the host ports -/

/-- What a host port holds for its answers: the replies queued and the tags held. -/
def HostFe.answers (h : HostFe) : List Reply × List Byte := (h.replies, h.held)

/-- The replies and the tags of every host port. -/
def State.answers (s : State) : Vector (List Reply × List Byte) 5 := s.host.map HostFe.answers

theorem State.answered_of_answers {s z : State} (h : z.answers = s.answers) (p : Packet) (op : BitVec 16)
    (result : List Byte) (ct : CT) : s.answered (z.ok ⟨op, p, ct⟩ result) p op stOk result := by
  have hix := Vector.getElem_of_map_eq (g := HostFe.answers) h p.host.ix
  obtain ⟨hreplies, hheld⟩ := Prod.mk.inj hix
  exact answered_ok s z p op result ct hreplies hheld

theorem State.answers_of_sansEvents {s t : State} (h : t.sansEvents = s.sansEvents) : t.answers = s.answers := by
  have hmap := congrArg (fun u : State => u.host.map HostFe.answers) h
  simp only [State.sansEvents] at hmap
  rwa [Vector.map_map_of_eq (f := HostFe.sansEvents) (g := HostFe.answers) (fun _ => rfl),
    Vector.map_map_of_eq (f := HostFe.sansEvents) (g := HostFe.answers) (fun _ => rfl)] at hmap

theorem State.modHost_answers (s : State) (h : HostPort) (f : HostFe → HostFe) (hf : ∀ x, (f x).answers = x.answers) :
    (s.modHost h f).answers = s.answers :=
  Vector.map_set_of_eq HostFe.answers s.host h.ix _ (hf _)

/-! ### The clearing entries of WRITE_REGS (R93, R483) -/

theorem State.w1cRails_keeps (s : State) (a : Bool) (v : Word) :
    (s.w1cRails a v).answers = s.answers ∧ (s.w1cRails a v).store = s.store :=
  ⟨State.foldl_keeps State.answers _ (fun _ _ => by simp only [State.answers, State.modRail_host]) allRails s,
   State.foldl_keeps State.store _ (fun _ _ => State.modRail_store ..) allRails s⟩

/-- A bit cleared by writing 1 is none of a host port's replies and tags, nor of the store's. -/
theorem State.w1c_keeps (s : State) (o : Obj) (rid : Nat) (v : Word) :
    (s.w1c o rid v).answers = s.answers ∧ (s.w1c o rid v).store = s.store := by
  cases o with
  | port n => exact ⟨by simp only [State.w1c, State.answers, State.modPort_host], State.modPort_store ..⟩
  | plat k => exact ⟨rfl, rfl⟩
  | station =>
    unfold State.w1c State.w1cTime State.w1cCap
    dsimp only
    split
    · split <;> exact ⟨rfl, rfl⟩
    split
    · split
      · split
        · exact ⟨rfl, rfl⟩
        · exact ⟨State.modHost_answers s _ _ fun _ => rfl, State.modHost_store ..⟩
      · exact ⟨rfl, rfl⟩
    iterate 4
      split
      · split <;> exact ⟨rfl, rfl⟩
    iterate 2
      split
      · exact s.w1cRails_keeps _ v
    exact ⟨rfl, rfl⟩

theorem State.startCommit_host (s : State) (cfg : Mem) (cmd : Option CmdRef) (w1c : List (BitVec 16 × Word)) :
    (s.startCommit cfg cmd w1c).host = s.host := (rfl)
theorem State.startCommit_active (s : State) (cfg : Mem) (cmd : Option CmdRef) (w1c : List (BitVec 16 × Word)) :
    (s.startCommit cfg cmd w1c).active = s.active := (rfl)
theorem State.startCommit_port (s : State) (cfg : Mem) (cmd : Option CmdRef) (w1c : List (BitVec 16 × Word)) :
    (s.startCommit cfg cmd w1c).port = s.port := (rfl)

/-- WRITE_REGS with Palette fields: the running configuration with them, clamped, is committed. -/
theorem execWriteRegs_commits (gg : Byte) (op : BitVec 16) (hop : BitVec.ofNat 16 (256 * gg.toNat + 2) = op) (s : State)
    (p : Packet) (o : Obj) (hturn : s.turn op p) (hcheck : s.coreCheck op p = none) (ho : Obj.ofTarget p.target = some o)
    (hpal : (entriesOf p.payload).filter RegWrite.pal ≠ []) (hjudge : judgeWriteRegs gg s p = none) :
    ∃ t, exec (.writeRegs gg p) s = .next t ∧ t.store.commit.map Commit.cfg =
      some (s.clampCfg (putEntries o s.store.run ((entriesOf p.payload).filter RegWrite.pal))) ∧ t.store.run = s.store.run ∧
      s.accepted t p op ∧ t.port = s.port := by
  subst hop
  obtain ⟨ct, hrow⟩ := row_turn _ (judgeWriteRegs gg) effWriteRegs p s hturn hcheck hjudge
  refine ⟨_, hrow, ?_⟩
  simp only [effWriteRegs, ho, List.isEmpty_eq_false_iff.mpr hpal, Bool.false_eq_true, if_false]
  exact ⟨rfl, rfl, accepted_of s _ p _ ct (by rw [State.startCommit_host]) (State.startCommit_active ..),
    State.startCommit_port ..⟩

/-- WRITE_REGS without them: its bits are cleared, and it is answered at once. -/
theorem execWriteRegs_clears (gg : Byte) (op : BitVec 16) (hop : BitVec.ofNat 16 (256 * gg.toNat + 2) = op) (s : State)
    (p : Packet) (o : Obj) (hturn : s.turn op p) (hcheck : s.coreCheck op p = none) (ho : Obj.ofTarget p.target = some o)
    (hpal : (entriesOf p.payload).filter RegWrite.pal = []) (hjudge : judgeWriteRegs gg s p = none) :
    ∃ t, exec (.writeRegs gg p) s = .next t ∧ s.answered t p op stOk [] ∧ t.store = s.store ∧
      t.port = ((clearsOf (entriesOf p.payload)).foldl (fun s x => s.w1c o x.1.toNat x.2) s.rest).port ∧
      t.sq = ((clearsOf (entriesOf p.payload)).foldl (fun s x => s.w1c o x.1.toNat x.2) s.rest).sq ∧
      t.time = ((clearsOf (entriesOf p.payload)).foldl (fun s x => s.w1c o x.1.toNat x.2) s.rest).time ∧
      t.bg = ((clearsOf (entriesOf p.payload)).foldl (fun s x => s.w1c o x.1.toNat x.2) s.rest).bg ∧
      t.net = ((clearsOf (entriesOf p.payload)).foldl (fun s x => s.w1c o x.1.toNat x.2) s.rest).net := by
  subst hop
  obtain ⟨ct, hrow⟩ := row_turn _ (judgeWriteRegs gg) effWriteRegs p s hturn hcheck hjudge
  have hanswers := State.foldl_keeps State.answers (fun u (x : BitVec 16 × Word) => u.w1c o x.1.toNat x.2)
    (fun u x => (u.w1c_keeps o x.1.toNat x.2).1) (clearsOf (entriesOf p.payload)) s.rest
  have hstore := State.foldl_keeps State.store (fun u (x : BitVec 16 × Word) => u.w1c o x.1.toNat x.2)
    (fun u x => (u.w1c_keeps o x.1.toNat x.2).2) (clearsOf (entriesOf p.payload)) s.rest
  refine ⟨_, hrow, ?_⟩
  simp only [effWriteRegs, ho, hpal, List.isEmpty_nil, if_true]
  exact ⟨State.answered_of_answers hanswers p _ [] ct, hstore, rfl, rfl, rfl, rfl, rfl⟩

/-! ### Claims (R414 to R417) -/

/-- A claim set changes no port, and none of the replies and tags. -/
theorem State.claimSet_apart (s : State) (n : PortId) (new : Option HostPort) (cause : Nat) :
    (s.claimSet n new cause).answers = s.answers ∧ (s.claimSet n new cause).port = s.port := by
  unfold State.claimSet
  split
  · exact ⟨rfl, rfl⟩
  · exact ⟨(State.answers_of_sansEvents (State.emitSt_sansEvents ..)).trans rfl, State.emitSt_port ..⟩

/-- So does a row of them. -/
theorem State.claims_apart {α : Type} (f : State → α → State)
    (h : ∀ s a, (f s a).answers = s.answers ∧ (f s a).port = s.port) (l : List α) (s : State) :
    (l.foldl f s).answers = s.answers ∧ (l.foldl f s).port = s.port :=
  ⟨State.foldl_keeps State.answers f (fun s a => (h s a).1) l s, State.foldl_keeps State.port f (fun s a => (h s a).2) l s⟩

theorem maskBad_of_bounds {m : Nat} (hpos : 1 ≤ m) (hlt : m < 16777216) : maskBad m = false := by
  simp only [maskBad, Bool.or_eq_false_iff, decide_eq_false_iff_not]
  exact ⟨by omega, by omega⟩

theorem judgeMask_of_bounds (s : State) (p : Packet) (hpos : 1 ≤ claimMask p) (hlt : claimMask p < 16777216) :
    judgeMask s p = none := by
  simp only [judgeMask, badIf, maskBad_of_bounds hpos hlt, Bool.false_eq_true, if_false]

theorem judgeClaim_of_free (s : State) (p : Packet) (hpos : 1 ≤ claimMask p) (hlt : claimMask p < 16777216)
    (hfree : ∀ n ∈ maskPorts (claimMask p), s.inService n = true ∧ (s.claim[n] = none ∨ s.claim[n] = some p.host)) :
    judgeClaim s p = none := by
  have hserved : ((maskPorts (claimMask p)).any fun n => !s.inService n) = false :=
    List.any_eq_false.mpr fun n hn => by rw [(hfree n hn).1]; decide
  have howned : ((maskPorts (claimMask p)).any fun n => s.claim[n] ≠ none && s.claim[n] ≠ some p.host) = false :=
    List.any_eq_false.mpr fun n hn => by rcases (hfree n hn).2 with h | h <;> simp only [h] <;> simp
  simp only [judgeClaim, maskBad_of_bounds hpos hlt, hserved, howned, Bool.false_eq_true, if_false]

/-- A command that sets claims and then answers keeps the ports; its answer is the one reply. -/
theorem State.claims_answered {s z : State} (h : z.answers = s.answers ∧ z.port = s.port) (p : Packet) (op : BitVec 16)
    (result : List Byte) (ct : CT) {t : State} (ht : t = z.ok ⟨op, p, ct⟩ result) :
    s.answered t p op stOk result ∧ t.port = s.port := by
  obtain ⟨hanswers, hport⟩ := h
  subst ht
  exact ⟨State.answered_of_answers hanswers p op result ct, hport⟩

theorem execClaim_claims (s : State) (p : Packet) (hturn : s.turn 0x0110 p) (hcheck : s.coreCheck 0x0110 p = none)
    (hjudge : judgeClaim s p = none) :
    ∃ t, exec (.claim p) s = .next t ∧
      (∀ n : PortId, t.claim[n] = if (claimMask p).testBit n.val then some p.host else s.claim[n]) ∧
      s.answered t p 0x0110 stOk (leBytes 4 (t.heldMask p.host)) ∧ t.port = s.port := by
  obtain ⟨ct, hrow⟩ := row_turn _ judgeClaim effClaim p s hturn hcheck hjudge
  refine ⟨_, hrow, fun n => ?_, State.claims_answered ?_ p 0x0110 _ ct rfl⟩
  · simp only [effClaim, ok_claim, claimFold, mem_maskPorts, rest_claim]
  · exact State.claims_apart _ (fun u n => u.claimSet_apart n _ _) _ s.rest

theorem execRelease_releases (s : State) (p : Packet) (hturn : s.turn 0x0111 p) (hcheck : s.coreCheck 0x0111 p = none)
    (hjudge : judgeMask s p = none) :
    ∃ t, exec (.release p) s = .next t ∧
      (∀ n : PortId, t.claim[n] = if (claimMask p).testBit n.val ∧ s.claim[n] = some p.host then none else s.claim[n]) ∧
      s.answered t p 0x0111 stOk (leBytes 4 (t.heldMask p.host)) ∧ t.port = s.port := by
  obtain ⟨ct, hrow⟩ := row_turn _ judgeMask effRelease p s hturn hcheck hjudge
  refine ⟨_, hrow, fun n => ?_, State.claims_answered ?_ p 0x0111 _ ct rfl⟩
  · simp only [effRelease, ok_claim, claimFoldR _ (maskPorts_nodup _), mem_maskPorts, rest_claim]
  · refine State.claims_apart _ (fun u n => ?_) _ s.rest
    split
    · exact u.claimSet_apart n _ _
    · exact ⟨rfl, rfl⟩

theorem execClaimBreak_breaks (s : State) (p : Packet) (hturn : s.turn 0x0112 p) (hcheck : s.coreCheck 0x0112 p = none)
    (hjudge : judgeMask s p = none) :
    ∃ t, exec (.claimBreak p) s = .next t ∧
      (∀ n : PortId, t.claim[n] = if (claimMask p).testBit n.val then none else s.claim[n]) ∧
      s.answered t p 0x0112 stOk
        (leBytes 4 ((((maskPorts (claimMask p)).filter fun n => s.claim[n] ≠ none).map fun n => 2 ^ n.val).sum)) ∧
      t.port = s.port := by
  obtain ⟨ct, hrow⟩ := row_turn _ judgeMask effClaimBreak p s hturn hcheck hjudge
  refine ⟨_, hrow, fun n => ?_, State.claims_answered ?_ p 0x0112 _ ct rfl⟩
  · simp only [effClaimBreak, ok_claim, claimFold, List.mem_filter, mem_maskPorts, rest_claim]
    by_cases hclaim : s.claim[n] = none
    · simp only [hclaim, ite_self]
    · simp only [ne_eq, hclaim, not_false_eq_true, decide_true, and_true]
  · exact State.claims_apart _ (fun u n => u.claimSet_apart n _ _) _ s.rest

/-! ### RESTART, SET_EPOCH and SUBSCRIBE (R101, R421, R488) -/

theorem execRestart_asks (s : State) (p : Packet) (hturn : s.turn 0x0120 p) (hcheck : s.coreCheck 0x0120 p = none)
    (hbars : s.restartBars = false) :
    ∃ t, exec (.restart p) s = .next t ∧ t.sup.restartReq =
        some { bank := none, cmd := { host := p.host, tag := p.tag, op := 0x0120, target := p.target } } ∧
      s.accepted t p 0x0120 ∧ t.port = s.port ∧ t.store = s.store := by
  have hjudge : judgeRestart s.rest p = none := congrArg badIf hbars
  obtain ⟨ct, hrow⟩ := row_turn _ judgeRestart effRestart p s hturn hcheck hjudge
  exact ⟨_, hrow, rfl, accepted_of s _ p _ ct rfl rfl, rfl, rfl⟩

theorem execSetEpoch_asks (s : State) (p : Packet) (hturn : s.turn 0x0303 p) (hcheck : s.coreCheck 0x0303 p = none)
    (hlt : le32 p.payload 0 < 134217728) (hnone : s.time.epochPend = none) :
    ∃ t, exec (.setEpoch p) s = .next t ∧ t.time.epochPend = some (BitVec.ofNat 27 (le32 p.payload 0),
        some { host := p.host, tag := p.tag, op := 0x0303, target := p.target }) ∧
      s.accepted t p 0x0303 ∧ t.port = s.port ∧ t.time.ct = s.time.ct := by
  have hjudge : judgeSetEpoch s.rest p = none := by
    show badIf (decide (2 ^ 27 ≤ le32 p.payload 0) || s.time.epochPend.isSome) = none
    rw [hnone, decide_eq_false (by omega)]
    rfl
  obtain ⟨ct, hrow⟩ := row_turn _ judgeSetEpoch effSetEpoch p s hturn hcheck hjudge
  exact ⟨_, hrow, rfl, accepted_of s _ p _ ct rfl rfl, rfl, rfl⟩

/-- A subscription: the host port's groups are set, and of the lane the destination where it is the NET port's. -/
theorem effSubscribe_cases (s : State) (c : Held) :
    ∃ net, (c.p.host ≠ .net → net = s.net) ∧ effSubscribe s c =
      (({ s with net := net } : State).modHost c.p.host fun x => { x with sub := c.p.payload.headD 0 }).ok c
        [c.p.payload.headD 0] := by
  unfold effSubscribe
  dsimp only
  by_cases hnet : c.p.host = .net
  · rw [if_pos hnet]
    exact ⟨_, fun h => absurd hnet h, rfl⟩
  · rw [if_neg hnet]
    exact ⟨s.net, fun _ => rfl, rfl⟩

theorem execSubscribe_sets (s : State) (p : Packet) (hturn : s.turn 0x0118 p) (hcheck : s.coreCheck 0x0118 p = none) :
    ∃ t, exec (.subscribe p) s = .next t ∧ t.host[p.host.ix].sub = p.payload.headD 0 ∧
      s.answered t p 0x0118 stOk [p.payload.headD 0] ∧ t.port = s.port ∧ t.claim = s.claim ∧
      (p.host ≠ .net → t.net = s.net) := by
  obtain ⟨ct, hrow⟩ := row_turn _ noJudge effSubscribe p s hturn hcheck rfl
  obtain ⟨net, hnet, heff⟩ := effSubscribe_cases s.rest ⟨0x0118, p, ct⟩
  rw [heff] at hrow
  refine ⟨_, hrow, ?_, State.answered_of_answers ?_ p _ _ ct, rfl, rfl, hnet⟩
  · simp only [State.ok, State.replyTag, State.modHost, vset_self]
  · exact State.modHost_answers ({ s.rest with net := net } : State) p.host _ fun _ => rfl

/-- Settles O40: each opcode at its turn takes its effect, written out by the lemma about it. -/
theorem stationActions : Obligations.StationActions := by
  unfold Obligations.StationActions
  refine ⟨execRestart_asks, execSetEpoch_asks, ?commit1, ?clear1, ?commit2, ?clear2, ?commit3, ?clear3, ?commit5, ?clear5,
    ?clear6, ?claim, ?release, ?claimBreak, execSubscribe_sets⟩
  case commit1 => exact execWriteRegs_commits 1 0x0102 rfl
  case clear1 => exact execWriteRegs_clears 1 0x0102 rfl
  case commit2 => exact execWriteRegs_commits 2 0x0202 rfl
  case clear2 => exact execWriteRegs_clears 2 0x0202 rfl
  case commit3 => exact execWriteRegs_commits 3 0x0302 rfl
  case clear3 => exact execWriteRegs_clears 3 0x0302 rfl
  case commit5 => exact execWriteRegs_commits 5 0x0502 rfl
  case clear5 => exact execWriteRegs_clears 5 0x0502 rfl
  case clear6 => exact execWriteRegs_clears 6 0x0602 rfl
  case claim =>
    exact fun s p hturn hcheck hpos hlt hfree => execClaim_claims s p hturn hcheck (judgeClaim_of_free s p hpos hlt hfree)
  case release =>
    exact fun s p hturn hcheck hpos hlt => execRelease_releases s p hturn hcheck (judgeMask_of_bounds s p hpos hlt)
  case claimBreak =>
    exact fun s p hturn hcheck hpos hlt => execClaimBreak_breaks s p hturn hcheck (judgeMask_of_bounds s p hpos hlt)

end Sys2Proof.Machine
end

section
/-! PROOFS. What the end of INRUSH cancels: the increments to fire, and no entry whose last increment's action still lasts
(O15). -/

-- Declarations in turn: the stack of every thread counts toward the memory that the check allows the one text.
set_option Elab.async false

namespace Sys2Proof.Machine

/-! ### Entries that a cancellation leaves (R121, R133) -/

theorem Timetable.cancel_other (t : Timetable) (j i : Fin 256) (h : j ≠ i) : (t.cancel j).entries[i] = t.entries[i] := by
  unfold Timetable.cancel
  split
  · exact (Vector.getElem_set_fin ..).trans (if_neg h)
  · rfl

theorem Timetable.notMem_pick_of_fired (t : Timetable) (p : Entry → Bool) (i : Fin 256) (e : Entry)
    (hentry : t.entries[i] = some e) (hfired : e.todo = []) : i ∉ t.pick p := by
  simp [Timetable.pick, hentry, hfired, -Fin.getElem_fin]

/-- An entry with no increment to fire is not cancelled: it stays until its last action ends. -/
theorem Timetable.cancelWhere_fired (t : Timetable) (p : Entry → Bool) (i : Fin 256) (e : Entry)
    (hentry : t.entries[i] = some e) (hfired : e.todo = []) : (t.cancelWhere p).entries[i] = some e :=
  List.foldlRecOn (motive := fun u : Timetable => u.entries[i] = some e) (t.pick p) _ hentry fun u hu j hj => by
    have hne : j ≠ i := ne_of_mem_of_not_mem hj (t.notMem_pick_of_fired p i e hentry hfired)
    rw [u.cancel_other j i hne, hu]

/-! ### INRUSH_SEGMENT and INRUSH_DONE (R149, R154) -/

theorem execInrushSegment_grant (s : State) (i : Fin 256) (hst : s.hs.st = .inrush) (hdue : s.dueEntry ownHs .inrush = some i)
    (hgoes : s.hs.suspended = false) : exec (.inrushSegment) s = .next ((s.fireEntry i).segmentFired false) := by
  have hgoes' : (s.fireEntry i).hs.suspended = false := hgoes
  show execInrushSegment s = _
  simp only [execInrushSegment, hst, hdue, hgoes', ne_eq, not_true_eq_false, if_false, Bool.false_eq_true]

theorem execInrushDone_settles (s : State) (vin vout : Nat) (hst : s.hs.st = .inrush) (hpg : vin < vout + s.pgDv) :
    exec (.inrushDone vin vout) s = .next (s.hsMark.inrushEnd.hsGoto .settle) := by
  show execInrushDone vin vout s = _
  simp only [execInrushDone, hst, hpg, decide_true, Bool.and_self, if_true]

theorem execInrushDone_keeps_fired (s t : State) (vin vout : Nat) (i : Fin 256) (e : Entry) (hst : s.hs.st = .inrush)
    (hpg : vin < vout + s.pgDv) (hentry : s.tt.entries[i] = some e) (hfired : e.todo = [])
    (ht : exec (.inrushDone vin vout) s = .next t) : t.tt.entries[i] = some e := by
  obtain rfl := Host.Outcome.next.inj ((execInrushDone_settles s vin vout hst hpg).symm.trans ht)
  exact s.tt.cancelWhere_fired _ i e hentry hfired

/-! ### The last segment of an inrush (R121, R152, R154) -/

/-- A booking of the hot-swap block: one segment of 64 tk at tick 32 of frame 0, a step of 150 W. -/
def lastSegment : Entry :=
  { owner := ownHs, kind := .inrush, dur := 64, step := 600, inc := 600, todo := [(32, 600)], fired := 0, last := 32 }

/-- In INRUSH, core SB running and the link alive, at the grant tick of the block's last segment. -/
def lastSegmentDue : State :=
  { State.reset with
    sup := { Supplies.reset with hvUp := true, vcpOk := true, logicUp := true, linkSilent := false, primer := .done,
                                 primerEver := true, slotId := some 0 }
    core := Vector.replicate 5 { VCore.reset with up := true }
    time := { State.reset.time with ct := 32 }
    hs := { State.reset.hs with st := .inrush, inrTo := true }
    tt := { State.reset.tt with entries := State.reset.tt.entries.set 0 (some lastSegment) } }

/-- In that tick the segment has fired, and its 64 tk have begun. -/
def lastSegmentFired : State := (lastSegmentDue.fireEntry 0).segmentFired false

theorem lastSegmentDue_fires : exec (.inrushSegment) lastSegmentDue = .next lastSegmentFired :=
  execInrushSegment_grant lastSegmentDue 0 rfl (by decide) rfl

theorem lastSegmentFired_entry :
    lastSegmentFired.tt.entries[(0 : Fin 256)] = some { lastSegment with todo := [], fired := 1 } := by
  decide

/-- Refutes O15: leaving INRUSH cancels what is unfired (R154), and an entry whose last increment has fired is held until
that action ends at t + DUR (R121). Where the output comes within PG_DV of the input while the last segment lasts
(`lastSegmentDue_fires` leads there), the block's entry stands on in SETTLE, and the statement says that it has none. -/
theorem not_hotSwapStates : ¬ Obligations.HotSwapStates := by
  unfold Obligations.HotSwapStates
  rintro ⟨-, -, -, -, -, -, -, -, hdone, -⟩
  have hst : lastSegmentFired.hs.st = .inrush := by decide
  have hpg : 48000 < 48000 + lastSegmentFired.pgDv := by decide
  obtain ⟨t, ht, -, -, -, -, hnone, -⟩ := hdone lastSegmentFired 48000 48000 hst hpg
  have hstays := execInrushDone_keeps_fired lastSegmentFired t 48000 48000 0 _ hst hpg lastSegmentFired_entry rfl ht
  have hgone := hnone 0
  rw [hstays] at hgone
  exact absurd hgone (by decide)

end Sys2Proof.Machine
end

section
/-! PROOFS. Starting the rails: the steps, their rails, and the states they lead through (O18). -/

-- Declarations in turn: the stack of every thread counts toward the memory that the check allows the one text.
set_option Elab.async false

namespace Sys2Proof.Machine

/-! ### The sealed set and the steps (R172, R198) -/

theorem State.used_of_fuse {s t : State} (h : t.fuse = s.fuse) : t.used = s.used := by
  unfold State.used State.sqRailW State.sqValid
  rw [h]

theorem State.stepOf_of_fuse {s t : State} (h : t.fuse = s.fuse) : t.stepOf = s.stepOf := by
  unfold State.stepOf State.sqRailW State.sqValid
  rw [h]

theorem State.usesCout_of_fuse {s t : State} (h : t.fuse = s.fuse) : t.usesCout = s.usesCout := by
  unfold State.usesCout State.casc State.sqCfgW State.sqValid
  rw [h]

theorem State.mem_usedRails {s : State} {x : RailId} : x ∈ s.usedRails ↔ s.used x = true := by
  simp [State.usedRails, allRails, -Fin.getElem_fin]

/-- The next step is not before the one asked from. -/
theorem State.le_of_nextStep {s : State} {j k : Nat} (h : s.nextStep j = some k) : j ≤ k := by
  have hk := List.find?_some h
  simp only [Bool.and_eq_true, decide_eq_true_eq] at hk
  exact hk.1

/-! ### The rails of a list, one after another -/

/-- A change of the rails that a condition picks. -/
def State.changeRails (s : State) (p : RailId → Bool) (f : Rail → Rail) : State :=
  { s with sq := { s.sq with rails := Vector.ofFn fun x => if p x then f s.sq.rails[x] else s.sq.rails[x] } }

theorem State.changeRails_rail (s : State) (p : RailId → Bool) (f : Rail → Rail) (x : RailId) :
    (s.changeRails p f).sq.rails[x] = if p x then f s.sq.rails[x] else s.sq.rails[x] := by
  unfold State.changeRails
  dsimp only
  rw [Vector.getElem_ofFn_fin]

theorem State.modRail_rail (s : State) (x y : RailId) (f : Rail → Rail) :
    (s.modRail x f).sq.rails[y] = if x = y then f s.sq.rails[x] else s.sq.rails[y] := by
  unfold State.modRail
  dsimp only
  rw [Vector.getElem_set_fin]

theorem State.modRail_other (s : State) (x y : RailId) (f : Rail → Rail) (h : y ≠ x) :
    (s.modRail x f).sq.rails[y] = s.sq.rails[y] := by
  rw [State.modRail_rail, if_neg h.symm]

/-- Two states that differ in the rails alone, and have the same rails, are one. -/
theorem State.eq_of_rails {s t : State} (hrest : t = { s with sq := { s.sq with rails := t.sq.rails } })
    (h : ∀ x : RailId, t.sq.rails[x] = s.sq.rails[x]) : t = s := by
  have hrails : t.sq.rails = s.sq.rails := Vector.ext fun i hi => h ⟨i, hi⟩
  rw [hrest, hrails]

/-- A change that a second one leaves as it is, made to each rail of a list. -/
theorem State.foldl_modRail (f : CT → Rail → Rail) (hf : ∀ t r, f t (f t r) = f t r) (l : List RailId) (s : State) :
    l.foldl (fun s x => s.modRail x (f s.time.ct)) s = s.changeRails (fun x => decide (x ∈ l)) (f s.time.ct) := by
  induction l generalizing s with
  | nil =>
    refine (State.eq_of_rails rfl fun x => ?_).symm
    rw [State.changeRails_rail]
    simp
  | cons y l ih =>
    rw [List.foldl_cons, ih]
    have htime : (s.modRail y (f s.time.ct)).time = s.time := rfl
    refine State.eq_of_rails rfl fun x => ?_
    rw [htime, State.changeRails_rail, State.changeRails_rail, State.modRail_rail]
    by_cases hyx : y = x
    · subst hyx
      simp [hf, -Fin.getElem_fin]
    · simp [hyx, Ne.symm hyx, -Fin.getElem_fin]

/-! ### A step begins (R172, R181) -/

/-- A rail whose step has begun. -/
def Rail.begun (now : CT) (r : Rail) : Rail :=
  { r with waiting := true, qualified := false, upTo := false, stepAt := now, qualAt := none }

/-- The used rails of a step. -/
theorem State.decide_mem_stepRails (s : State) (k : Nat) : (fun x => decide (x ∈ s.usedRails.filter fun x => s.stepOf x = k)) =
    fun x => s.used x && decide (s.stepOf x = k) := by
  funext x
  simp [State.mem_usedRails]

theorem State.beginStep_eq (s : State) (k : Nat) :
    s.beginStep k = ({ s with sq := { s.sq with stepNow := k } } : State).changeRails
      (fun x => s.used x && decide (s.stepOf x = k)) (Rail.begun s.time.ct) := by
  rw [← State.decide_mem_stepRails]
  exact State.foldl_modRail Rail.begun (fun _ _ => rfl) _ _

/-- What the beginning of a step says of each rail. -/
theorem State.beginStep_rail (s : State) (k : Nat) (x : RailId) : (s.beginStep k).sq.rails[x] =
    if s.used x && decide (s.stepOf x = k) then s.sq.rails[x].begun s.time.ct else s.sq.rails[x] := by
  rw [State.beginStep_eq, State.changeRails_rail]

theorem State.beginStep_waiting (s : State) (k : Nat) (x : RailId) : (s.beginStep k).sq.rails[x].waiting =
    (s.sq.rails[x].waiting || (s.used x && decide (s.stepOf x = k))) := by
  rw [State.beginStep_rail]
  cases s.used x && decide (s.stepOf x = k) <;> simp [Rail.begun, -Fin.getElem_fin]

theorem State.beginStep_en (s : State) (k : Nat) (x : RailId) :
    (s.beginStep k).sq.rails[x].en = s.sq.rails[x].en := by
  rw [State.beginStep_rail]
  split <;> rfl

@[simp] theorem State.beginStep_st (s : State) (k : Nat) : (s.beginStep k).sq.st = s.sq.st := by
  rw [State.beginStep_eq]
  rfl

@[simp] theorem State.beginStep_stepNow (s : State) (k : Nat) : (s.beginStep k).sq.stepNow = k := by
  rw [State.beginStep_eq]
  rfl

@[simp] theorem State.beginStep_aoCnt (s : State) (k : Nat) : (s.beginStep k).sq.aoCnt = s.sq.aoCnt := by
  rw [State.beginStep_eq]
  rfl

@[simp] theorem State.beginStep_port (s : State) (k : Nat) : (s.beginStep k).port = s.port := by
  rw [State.beginStep_sq]

@[simp] theorem State.beginStep_core (s : State) (k : Nat) : (s.beginStep k).core = s.core := by
  rw [State.beginStep_sq]

/-! ### A change of the sequencer's state (R174, R176) -/

theorem State.sqGoto_sq (s : State) (st : SqState) :
    ∃ h l, (s.sqGoto st).sq = { s.sq with st := st, hist := h, lost := l } := by
  obtain ⟨h, l, hgoto⟩ := State.sqGoto_sansReports s st
  exact ⟨h, l, (congrArg State.sq hgoto :)⟩

/-- Beside the sequencer it changes reports alone. -/
theorem State.sqGoto_rest (s : State) (st : SqState) :
    (s.sqGoto st).sansReports = ({ s with sq := (s.sqGoto st).sq } : State).sansReports := by
  obtain ⟨h, l, hgoto⟩ := State.sqGoto_sansReports s st
  exact hgoto.trans (congrArg (fun q => ({ s with sq := q } : State).sansReports) (congrArg State.sq hgoto).symm)

@[simp] theorem State.sqGoto_port (s : State) (st : SqState) : (s.sqGoto st).port = s.port :=
  (congrArg State.port (s.sqGoto_rest st) :)

@[simp] theorem State.sqGoto_core (s : State) (st : SqState) : (s.sqGoto st).core = s.core :=
  (congrArg State.core (s.sqGoto_rest st) :)

@[simp] theorem State.sqGoto_fuse (s : State) (st : SqState) : (s.sqGoto st).fuse = s.fuse :=
  (congrArg State.fuse (s.sqGoto_rest st) :)

@[simp] theorem State.sqGoto_st (s : State) (st : SqState) : (s.sqGoto st).sq.st = st := by
  obtain ⟨h, l, hsq⟩ := s.sqGoto_sq st
  rw [hsq]

@[simp] theorem State.sqGoto_rails (s : State) (st : SqState) : (s.sqGoto st).sq.rails = s.sq.rails := by
  obtain ⟨h, l, hsq⟩ := s.sqGoto_sq st
  rw [hsq]

@[simp] theorem State.sqGoto_aoCnt (s : State) (st : SqState) : (s.sqGoto st).sq.aoCnt = s.sq.aoCnt := by
  obtain ⟨h, l, hsq⟩ := s.sqGoto_sq st
  rw [hsq]

@[simp] theorem State.sqGoto_faultDriven (s : State) (st : SqState) :
    (s.sqGoto st).sq.faultDriven = s.sq.faultDriven := by
  obtain ⟨h, l, hsq⟩ := s.sqGoto_sq st
  rw [hsq]

/-! ### BP_PGOOD comes first (R176) -/

theorem State.feedFirst_lower (s : State) (f : State → State) (h : s.sq.st.live = false ∨ s.pgood = true) :
    s.feedFirst f = f s := by
  unfold State.feedFirst
  rcases h with h | h <;> simp [h]

/-! ### SQ_START and SQ_RAISE (R176, R177, R179, R198) -/

/-- SQ_START out of IDLE. -/
def State.sqStarted (s : State) (st : SqState) : State :=
  ({ s with sq := { s.sq with faultDriven := false } } : State).sqGoto st

theorem State.sqStarted_facts (s : State) (st : SqState) : (s.sqStarted st).sq.st = st ∧
    (s.sqStarted st).sq.faultDriven = false ∧ (s.sqStarted st).sq.rails = s.sq.rails ∧
    (s.sqStarted st).port = s.port ∧ (s.sqStarted st).core = s.core := by
  simp [State.sqStarted]

theorem execSqStart_starts (s : State) (hst : s.sq.st = .idle) (hup : s.sup.hvUp = true) (hset : s.sqSetOk = true)
    (hon : s.hs.st = .on) : exec (.sqStart) s = .next (s.sqStarted .waitCin) := by
  show execSqStart s = _
  simp [execSqStart, hst, hup, hset, State.pgood, hon, State.sqStarted]

theorem execSqStart_locks (s : State) (hst : s.sq.st = .idle) (hup : s.sup.hvUp = true) (hset : s.sqSetOk = false) :
    exec (.sqStart) s = .next (s.sqStarted .lock) := by
  show execSqStart s = _
  simp [execSqStart, hst, hup, hset, State.sqStarted]

theorem execSqStart_idle (s : State) (h : s.sq.st ≠ .idle ∨ s.sup.hvUp = false ∨ (s.sqSetOk = true ∧ s.pgood = false)) :
    exec (.sqStart) s = .next s := by
  show execSqStart s = _
  unfold execSqStart
  rcases h with h | h | ⟨hset, hlow⟩
  · simp [h]
  · simp [h]
  · simp [hset, hlow]

theorem execSqRaise_raises (s : State) (k : Nat) (hgood : s.pgood = true) (hallowed : s.startAllowed = true)
    (hnext : s.nextStep 0 = some k) :
    exec (.sqRaise) s = .next ((({ s with sq := { s.sq with retEnded := false } } : State).sqGoto .raise).beginStep k) := by
  show execSqRaise s = _
  simp [execSqRaise, hgood, hallowed, hnext]

theorem execSqRaise_idle (s : State) (h : s.pgood = false ∨ s.startAllowed = false) : exec (.sqRaise) s = .next s := by
  show execSqRaise s = _
  unfold execSqRaise
  rcases h with h | h <;> simp [h]

/-! ### SQ_ENABLE_RISE (R181 to R183) -/

/-- A rail whose enable rises. -/
def Rail.raised (r : Rail) : Rail :=
  { r with en := true, waiting := false, upTo := true, qualified := false, disTo := false, disEnded := false,
           discharged := false, fell := false, prebias := r.prebias || r.pg }

theorem execSqEnableRise_raises (s : State) (x : RailId) (hst : s.sq.st = .raise) (hwait : s.sq.rails[x].waiting = true)
    (hwin : s.sqWin = true → s.atWindowStart x = true) :
    exec (.sqEnableRise x) s = .next (if s.sq.rails[x].pg then (s.modRail x Rail.raised).sqRecord x.val .prebias
      else s.modRail x Rail.raised) := by
  have hstart : (!s.sqWin || s.atWindowStart x) = true := by
    cases hw : s.sqWin with
    | false => rfl
    | true => simpa using hwin hw
  show execSqEnableRise x s = _
  simp only [execSqEnableRise, hst, hwait, hstart, decide_true, Bool.and_self, if_true]
  rfl

/-- A rail whose enable rises, good before or not. -/
theorem execSqEnableRise_rail (s : State) (x : RailId) (hst : s.sq.st = .raise) (hwait : s.sq.rails[x].waiting = true)
    (hwin : s.sqWin = true → s.atWindowStart x = true) :
    ∃ t, exec (.sqEnableRise x) s = .next t ∧ t.sq.rails[x] = s.sq.rails[x].raised ∧
      (∀ y : RailId, y ≠ x → t.sq.rails[y] = s.sq.rails[y]) ∧ t.sq.st = .raise ∧ t.port = s.port ∧ t.core = s.core := by
  have hrail : (s.modRail x Rail.raised).sq.rails[x] = s.sq.rails[x].raised := State.modRail_same ..
  have hothers (y : RailId) (hy : y ≠ x) : (s.modRail x Rail.raised).sq.rails[y] = s.sq.rails[y] :=
    State.modRail_other s x y _ hy
  refine ⟨_, execSqEnableRise_raises s x hst hwait hwin, ?_⟩
  split
  · exact ⟨hrail, hothers, hst, rfl, rfl⟩
  · exact ⟨hrail, hothers, hst, rfl, rfl⟩

theorem execSqEnableRise_idle (s : State) (x : RailId) (h : s.sq.st ≠ .raise ∨ s.sq.rails[x].waiting = false ∨
    (s.sqWin = true ∧ s.atWindowStart x = false)) : exec (.sqEnableRise x) s = .next s := by
  show execSqEnableRise x s = _
  unfold execSqEnableRise
  rcases h with h | h | ⟨hwin, hstart⟩
  · simp [h]
  · simp [h, -Fin.getElem_fin]
  · simp [hwin, hstart]

/-! ### RAIL_QUALIFY (R172, R176, R181) -/

/-- A rail that has qualified. -/
def State.railGood (s : State) (x : RailId) : State :=
  s.modRail x fun r => { r with qualified := true, qualAt := some s.time.ct }

/-- Every rail of the present step has qualified. -/
def State.stepGood (s : State) : Bool := s.usedRails.all fun y => s.stepOf y ≠ s.sq.stepNow || s.sq.rails[y].qualified

theorem State.stepGood_iff (s : State) : s.stepGood = true ↔
    ∀ y : RailId, s.used y = true → s.stepOf y = s.sq.stepNow → s.sq.rails[y].qualified = true := by
  simp only [State.stepGood, List.all_eq_true, State.mem_usedRails, Bool.or_eq_true, decide_eq_true_eq, ne_eq,
    Classical.or_iff_not_imp_left, not_not]

/-- A complete step begins the next one in use, or ends the sequence. -/
def State.stepDone (s : State) : State :=
  match s.nextStep (s.sq.stepNow + 1) with
  | some k => s.beginStep k
  | none => s.sqGoto .run

theorem State.stepDone_some {s : State} {k : Nat} (h : s.nextStep (s.sq.stepNow + 1) = some k) : s.stepDone = s.beginStep k := by
  rw [State.stepDone, h]

theorem State.stepDone_none {s : State} (h : s.nextStep (s.sq.stepNow + 1) = none) : s.stepDone = s.sqGoto .run := by
  rw [State.stepDone, h]

theorem State.railGood_same (s : State) (x : RailId) : (s.railGood x).sq.rails[x].qualified = true := by
  rw [State.railGood, State.modRail_same]

theorem State.railGood_other (s : State) (x y : RailId) (h : y ≠ x) : (s.railGood x).sq.rails[y] = s.sq.rails[y] :=
  State.modRail_other s x y _ h

theorem execRailQualify_idle (s : State) (x : RailId) (h : s.sq.st ≠ .raise ∨ s.used x = false ∨ s.sq.rails[x].en = false ∨
    s.sq.rails[x].pg = false ∨ s.sq.rails[x].qualified = true) : exec (.railQualify x) s = .next s := by
  show execRailQualify x s = _
  unfold execRailQualify
  rcases h with h | h | h | h | h <;> simp [h, -Fin.getElem_fin]

/-- A rail is the last of its step where every other one of it has qualified. -/
theorem State.railGood_stepGood (s : State) (x : RailId)
    (h : ∀ y : RailId, s.used y = true → s.stepOf y = s.sq.stepNow → y = x ∨ s.sq.rails[y].qualified = true) :
    (s.railGood x).stepGood = true := by
  refine (State.stepGood_iff _).mpr fun y hused hstep => ?_
  by_cases hyx : y = x
  · rw [hyx]
    exact s.railGood_same x
  · rw [s.railGood_other x y hyx]
    exact (h y hused hstep).resolve_left hyx

theorem State.railGood_stepOpen (s : State) (x y : RailId) (hused : s.used y = true) (hstep : s.stepOf y = s.sq.stepNow)
    (hnot : s.sq.rails[y].qualified = false) (hyx : y ≠ x) : (s.railGood x).stepGood = false := by
  refine Bool.eq_false_iff.mpr fun h => ?_
  have hy := (State.stepGood_iff _).mp h y hused hstep
  rw [s.railGood_other x y hyx, hnot] at hy
  exact nomatch hy

section

variable (s : State) (x : RailId) (hst : s.sq.st = .raise) (hgood : s.pgood = true) (hused : s.used x = true)
  (hen : s.sq.rails[x].en = true) (hpg : s.sq.rails[x].pg = true) (hnot : s.sq.rails[x].qualified = false)

include hst hgood hused hen hpg hnot

theorem execRailQualify_qualifies :
    exec (.railQualify x) s = .next (if (s.railGood x).stepGood then (s.railGood x).stepDone else s.railGood x) := by
  show execRailQualify x s = _
  simp only [execRailQualify, hst, hused, hen, hpg, hnot, decide_true, Bool.and_self, Bool.not_false, if_true]
  rw [State.feedFirst_lower s _ (.inr hgood)]
  rfl

/-- A rail that qualifies while another one of its step has not. -/
theorem execRailQualify_stays (y : RailId) (hy : s.used y = true) (hstep : s.stepOf y = s.sq.stepNow)
    (hopen : s.sq.rails[y].qualified = false) (hxy : x ≠ y) : exec (.railQualify x) s = .next (s.railGood x) := by
  rw [execRailQualify_qualifies s x hst hgood hused hen hpg hnot, s.railGood_stepOpen x y hy hstep hopen hxy.symm]
  rfl

/-- The last rail of a step qualifies, and the rails of the next step in use wait. -/
theorem execRailQualify_next (k : Nat) (hstep : s.stepOf x = s.sq.stepNow)
    (hlast : ∀ y : RailId, s.used y = true → s.stepOf y = s.sq.stepNow → y = x ∨ s.sq.rails[y].qualified = true)
    (hnext : s.nextStep (s.sq.stepNow + 1) = some k) :
    ∃ t, exec (.railQualify x) s = .next t ∧ t.sq.rails[x].qualified = true ∧ t.sq.stepNow = k ∧ t.sq.st = .raise ∧
      (∀ y : RailId, s.used y = true → s.stepOf y = k → t.sq.rails[y].waiting = true) ∧ t.port = s.port ∧
      t.core = s.core := by
  refine ⟨(s.railGood x).beginStep k, ?_, ?_, State.beginStep_stepNow .., ?_, fun y hy hk => ?_, State.beginStep_port ..,
    State.beginStep_core ..⟩
  · rw [execRailQualify_qualifies s x hst hgood hused hen hpg hnot, s.railGood_stepGood x hlast, if_pos rfl,
      State.stepDone_some (s := s.railGood x) hnext]
  · have hother : (s.railGood x).stepOf x ≠ k := by
      have hk := State.le_of_nextStep hnext
      show s.stepOf x ≠ k
      omega
    rw [State.beginStep_rail, decide_eq_false hother, Bool.and_false, if_neg Bool.false_ne_true]
    exact s.railGood_same x
  · rw [State.beginStep_st]
    exact hst
  · have hbegun : ((s.railGood x).used y && decide ((s.railGood x).stepOf y = k)) = true := by
      show (s.used y && decide (s.stepOf y = k)) = true
      rw [hy, hk]
      simp
    rw [State.beginStep_waiting, hbegun, Bool.or_true]

/-- The last rail of the last step qualifies. -/
theorem execRailQualify_runs
    (hlast : ∀ y : RailId, s.used y = true → s.stepOf y = s.sq.stepNow → y = x ∨ s.sq.rails[y].qualified = true)
    (hnext : s.nextStep (s.sq.stepNow + 1) = none) :
    ∃ t, exec (.railQualify x) s = .next t ∧ t.sq.rails[x].qualified = true ∧ t.sq.st = .run ∧ t.sqCout = s.usesCout ∧
      t.port = s.port ∧ t.core = s.core := by
  refine ⟨(s.railGood x).sqGoto .run, ?_, ?_, State.sqGoto_st .., ?_, State.sqGoto_port .., State.sqGoto_core ..⟩
  · rw [execRailQualify_qualifies s x hst hgood hused hen hpg hnot, s.railGood_stepGood x hlast, if_pos rfl,
      State.stepDone_none (s := s.railGood x) hnext]
  · rw [State.sqGoto_rails]
    exact s.railGood_same x
  · rw [State.sqCout, State.sqGoto_st, State.usesCout_of_fuse (State.sqGoto_fuse ..)]
    exact Bool.and_true _

end

/-! ### The times of the sequencer (R177, R178) -/

theorem execDownRestart_elapses (s : State) (hst : s.sq.st = .down) (hcause : s.sq.cause = .host) (htime : s.sq.restart ≠ 0) :
    exec (.downRestart) s = .next { s with sq := { s.sq with restartUp := true } } := by
  show execDownRestart s = _
  simp [execDownRestart, hst, hcause, htime]

theorem execDownRestart_idle (s : State) (h : s.sq.st ≠ .down ∨ s.sq.cause ≠ .host ∨ s.sq.restart = 0) :
    exec (.downRestart) s = .next s := by
  show execDownRestart s = _
  unfold execDownRestart
  rcases h with h | h | h <;> simp [h]

/-- Settles O18: SQ_START and SQ_RAISE begin the sequence, a rail's enable and its QUAL carry it from step to step
(`beginStep_rail` says what a step's beginning changes), and each time of the sequencer ends in its own state. -/
theorem sequencerStart : Obligations.SequencerStart := by
  unfold Obligations.SequencerStart
  refine ⟨?starts, ?locks, ?startIdle, ?raises, ?raiseIdle, ?enables, ?enableIdle, ?stays, ?next, ?runs, ?qualifyIdle,
    ?cinRise, ?aoDelay, ?aoDelayIdle, ?restart, ?restartIdle, ?aoCnt, ?aoCntIdle⟩
  case starts => exact fun s hst hup hset hon => ⟨_, execSqStart_starts s hst hup hset hon, s.sqStarted_facts .waitCin⟩
  case locks => exact fun s hst hup hset => ⟨_, execSqStart_locks s hst hup hset, s.sqStarted_facts .lock⟩
  case startIdle => exact fun s h => ⟨s, execSqStart_idle s h, rfl⟩
  case raises =>
    intro s k hgood hallowed hnext
    have hfuse : (({ s with sq := { s.sq with retEnded := false } } : State).sqGoto .raise).fuse = s.fuse :=
      State.sqGoto_fuse ..
    refine ⟨_, execSqRaise_raises s k hgood hallowed hnext, ?_, State.beginStep_stepNow .., fun x => ?_, fun x => ?_, ?_, ?_, ?_⟩
    · rw [State.beginStep_st, State.sqGoto_st]
    · rw [State.beginStep_waiting, State.sqGoto_rails, State.used_of_fuse hfuse, State.stepOf_of_fuse hfuse]
    · rw [State.beginStep_en, State.sqGoto_rails]
    · rw [State.beginStep_aoCnt, State.sqGoto_aoCnt]
    · rw [State.beginStep_port, State.sqGoto_port]
    · rw [State.beginStep_core, State.sqGoto_core]
  case raiseIdle => exact fun s h => ⟨s, execSqRaise_idle s h, rfl⟩
  case enables =>
    intro s x hst hwait hwin
    obtain ⟨t, ht, hrail, hrest⟩ := execSqEnableRise_rail s x hst hwait hwin
    exact ⟨t, ht, by rw [hrail]; exact ⟨rfl, rfl, rfl, rfl, rfl, hrest⟩⟩
  case enableIdle => exact fun s x h => ⟨s, execSqEnableRise_idle s x h, rfl⟩
  case stays =>
    intro s x y hst hgood hused hen hpg hnot hy hstep hopen hxy
    refine ⟨_, execRailQualify_stays s x hst hgood hused hen hpg hnot y hy hstep hopen hxy, s.railGood_same x, ?_, rfl,
      hst, rfl, rfl⟩
    rw [s.railGood_other x y hxy.symm, hopen]
  case next =>
    exact fun s x k hst hgood hused hen hpg hnot => execRailQualify_next s x hst hgood hused hen hpg hnot k
  case runs => exact execRailQualify_runs
  case qualifyIdle => exact fun s x h => ⟨s, execRailQualify_idle s x h, rfl⟩
  case cinRise => exact fun _ => ⟨_, rfl, rfl⟩
  case aoDelay => exact fun _ hst => ⟨_, congrArg Host.Outcome.next (if_pos hst), rfl⟩
  case aoDelayIdle => exact fun _ hst => ⟨_, congrArg Host.Outcome.next (if_neg hst), rfl⟩
  case restart => exact fun s hst hcause htime => ⟨_, execDownRestart_elapses s hst hcause htime, rfl⟩
  case restartIdle => exact fun s h => ⟨s, execDownRestart_idle s h, rfl⟩
  case aoCnt => exact fun _ hst => ⟨_, congrArg Host.Outcome.next (if_pos hst), rfl⟩
  case aoCntIdle => exact fun _ hst => ⟨_, congrArg Host.Outcome.next (if_neg hst), rfl⟩

end Sys2Proof.Machine
end

section
/-! SUPPORT. What a port that an all-off or a shut-down disables leaves of the sequencer and of the other ports (R30, R189). -/

-- Declarations in turn: the stack of every thread counts toward the memory that the check allows the one text.
set_option Elab.async false

namespace Sys2Proof.Machine

/-! ### What a disabled port leaves of the card -/

/-- What an all-off switches of a port: its attachment, Pn_CEN and hold-over. -/
def Port.switched (p : Port) : TcState × Bool × Bool := (p.tc.st, p.pp.cen, p.hold)

/-- The sequencer, the all-offs counted, and what an all-off switches of every port. -/
def State.cardView (s : State) : Sequencer × Nat × Vector (TcState × Bool × Bool) 24 :=
  (s.sq, s.health.alloffs, s.port.map Port.switched)

theorem State.sq_of_cardView {s t : State} (h : t.cardView = s.cardView) : t.sq = s.sq :=
  congrArg Prod.fst h

theorem State.alloffs_of_cardView {s t : State} (h : t.cardView = s.cardView) : t.health.alloffs = s.health.alloffs :=
  congrArg (fun v => v.2.1) h

theorem State.switched_of_cardView {s t : State} (h : t.cardView = s.cardView) (n : PortId) :
    t.port[n].switched = s.port[n].switched :=
  Vector.getElem_of_map_eq (congrArg (fun v => v.2.2) h) n

theorem State.cardView_of_sansEvents {s t : State} (h : t.sansEvents = s.sansEvents) : t.cardView = s.cardView :=
  (congrArg State.cardView h :)

theorem State.cardView_of_sansTags {s t : State} (h : t.sansTags = s.sansTags) : t.cardView = s.cardView :=
  (congrArg State.cardView h :)

theorem State.cardView_of_sansPlaces {s t : State} (h : t.sansPlaces = s.sansPlaces) : t.cardView = s.cardView :=
  (congrArg State.cardView h :)

/-- A change of a port that switches nothing. -/
theorem State.modPort_cardView (s : State) (n : PortId) (f : Port → Port)
    (h : ∀ p, (f p).switched = p.switched := by intro; rfl) : (s.modPort n f).cardView = s.cardView :=
  congrArg (fun v : Vector (TcState × Bool × Bool) 24 => (s.sq, s.health.alloffs, v))
    (Vector.map_set_of_eq Port.switched s.port n _ (h _))

theorem State.modCt_cardView (s : State) (n : PortId) (f : Contract → Contract) : (s.modCt n f).cardView = s.cardView :=
  State.modPort_cardView s n _

theorem State.emit_cardView (s : State) (code source : BitVec 16) (payload : List Byte) :
    (s.emit code source payload).cardView = s.cardView :=
  State.cardView_of_sansEvents (State.emit_sansEvents ..)

theorem State.completeOpt_cardView (s : State) (r : Option CmdRef) (st : BitVec 16) (result : List Byte) :
    (s.completeOpt r st result).cardView = s.cardView := by
  cases r with
  | none => rfl
  | some r => exact State.cardView_of_sansTags (State.complete_sansTags ..)

theorem State.resettle_cardView (s : State) : s.resettle.cardView = s.cardView :=
  State.cardView_of_sansPlaces s.resettle_sansPlaces

theorem State.cancelPort_cardView (s : State) (n : PortId) : (s.cancelPort n).cardView = s.cardView :=
  State.resettle_cardView _

theorem State.cancelEntry_cardView (s : State) (n : PortId) (i : Option (Fin 256)) :
    (s.cancelEntry n i).cardView = s.cardView := by
  unfold State.cancelEntry
  split
  · split
    · exact State.resettle_cardView _
    · rfl
  · rfl

theorem Path.opened_cen (p : Path) (disch trip : Bool) : (p.opened disch trip).cen = p.cen := by
  unfold Path.opened
  split <;> rfl

theorem Path.loadFt_cen (p : Path) : p.loadFt.cen = p.cen := by
  unfold Path.loadFt
  split <;> rfl

theorem State.openPath_cardView (s : State) (n : PortId) (disch trip prot : Bool) :
    (s.openPath n disch trip prot).cardView = s.cardView := by
  have hopen : (s.modPp n fun p =>
      if p.st.live then { p.opened disch trip with left := some (s.time.ct, p.st, p.sink, p.i2t) } else p).cardView =
        s.cardView := by
    refine State.modPort_cardView s n _ fun p => ?_
    dsimp only
    split
    · exact congrArg (fun b => (p.tc.st, b, p.hold)) (p.pp.opened_cen disch trip)
    · rfl
  simp only [State.openPath]
  split
  · exact (State.modPort_cardView _ n _).trans hopen
  · exact hopen

theorem State.amsEnd_cardView (s : State) (n : PortId) : (s.amsEnd n).cardView = s.cardView := by
  refine State.modPort_cardView s n _ fun p => ?_
  dsimp only [Port.switched]
  split <;> rfl

theorem State.swapEnd_cardView (s : State) (n : PortId) (result : Nat) : (s.swapEnd n result).cardView = s.cardView := by
  simp only [State.swapEnd, State.swapEndWith]
  split
  · rfl
  · rw [State.completeOpt_cardView, apply_ite State.cardView, State.amsEnd_cardView, ite_self, State.emit_cardView]
    exact State.modPort_cardView s n _

theorem State.altComplete_cardView (s : State) (n : PortId) : (s.altComplete n).cardView = s.cardView :=
  (State.completeOpt_cardView ..).trans (State.modPort_cardView s n _)

theorem State.modeEnd_cardView (s : State) (n : PortId) : (s.modeEnd n).cardView = s.cardView := by
  unfold State.modeEnd
  split
  · rfl
  · exact (State.emit_cardView ..).trans (State.modPort_cardView s n _)

theorem State.shedEvent_cardView (s : State) (phase : Nat) : (s.shedEvent phase).cardView = s.cardView :=
  State.emit_cardView ..

theorem State.shedEnd_cardView (s : State) : s.shedEnd.cardView = s.cardView := by
  simp only [State.shedEnd]
  split
  · rw [State.shedEvent_cardView]
    exact State.forPorts_same State.cardView _ (fun n u => State.modCt_cardView u n _) _
  · rfl

theorem State.endContract_cardView (s : State) (n : PortId) : (s.endContract n).cardView = s.cardView := by
  have hplan : (match s.port[n].ct.plan with | some q => s.cancelEntry n q.entry | none => s).cardView = s.cardView := by
    split
    · exact State.cancelEntry_cardView ..
    · rfl
  simp only [State.endContract, State.shedEnd_cardView]
  refine (State.modPort_cardView _ n _ ?_).trans hplan
  exact fun p => congrArg (fun b => (p.tc.st, b, p.hold)) (Path.loadFt_cen _)

theorem State.eprNoVconn_cardView (s : State) (n : PortId) : (s.eprNoVconn n).cardView = s.cardView := by
  simp only [State.eprNoVconn]
  split
  · exact (State.modPort_cardView _ n _).trans (State.modPort_cardView s n _)
  · rfl

theorem State.vconnAttach_cardView (s : State) (n : PortId) : (s.vconnAttach n).cardView = s.cardView :=
  (State.modPort_cardView _ n _).trans (State.modPort_cardView s n _)

theorem State.vconnRelease_cardView (s : State) (n : PortId) : (s.vconnRelease n).cardView = s.cardView := by
  have hoff (u : State) : (u.modPort n fun p =>
      { p with tc := { p.tc with vconnOn := false, vconnWait := false }, rs := { p.rs with vc := false } }).cardView =
        u.cardView :=
    State.modPort_cardView u n _
  simp only [State.vconnRelease]
  split
  · split
    · rw [State.vconnAttach_cardView, State.eprNoVconn_cardView, hoff]
    · rw [State.eprNoVconn_cardView, hoff]
  · rw [State.eprNoVconn_cardView, hoff]

theorem State.typecEvent_cardView (s : State) (n : PortId) : (s.typecEvent n).cardView = s.cardView :=
  State.emit_cardView ..

/-- A port before it is disabled: its path opened, its bookings, its swap, its mode, its contract and its VCONN ended. -/
def State.portEnded (s : State) (n : PortId) : State :=
  ((((((((s.openPath n true false true).cancelPort n).swapEnd n 5).dropScripts n true true).modeEnd n).modAlt n
    Alt.detached).altComplete n).endContract n).vconnRelease n

theorem State.portEnded_cardView (s : State) (n : PortId) : (s.portEnded n).cardView = s.cardView := by
  have hdrop (u : State) : (u.dropScripts n true true).cardView = u.cardView := rfl
  have hdetach (u : State) : (u.modAlt n Alt.detached).cardView = u.cardView := State.modPort_cardView u n _
  rw [State.portEnded, State.vconnRelease_cardView, State.endContract_cardView, State.altComplete_cardView, hdetach,
    State.modeEnd_cardView, hdrop, State.swapEnd_cardView, State.cancelPort_cardView, State.openPath_cardView]

/-- A port disabled, with its Front end off (R30, R189). -/
def Port.off (p : Port) : Port :=
  { p with pd := { p.pd.clear with hrPend := false, timers := [] }
           rs := { p.rs with pr := .none, dr := .none, basePr := .none, baseDr := .none, baseVc := false, stby := false,
                             leaving := false }
           pp := { p.pp with cen := false, vcpWait := false }
           ct := { p.ct with kind := .none, mv := 0, i10 := 0 }
           tc := { p.tc with st := .disabled, orient := .none, partner := .none, rpOffer := 0, rpSeen := 0,
                             opening := .closed, pathRetry := false, pathLimit := false, holdAttach := false } }

theorem State.disablePort_eq (s : State) (n : PortId) : s.disablePort n =
    if s.port[n].tc.st.attached then ((s.portEnded n).modPort n Port.off).typecEvent n
    else (s.portEnded n).modPort n Port.off := rfl

theorem State.disablePort_cardView (s : State) (n : PortId) :
    (s.disablePort n).cardView = ((s.portEnded n).modPort n Port.off).cardView := by
  rw [State.disablePort_eq, apply_ite State.cardView, State.typecEvent_cardView, ite_self]

/-! ### Every port at once (R30, R189) -/

/-- A port's turn in an all-off or a shut-down. -/
def State.portOff (n : PortId) (s : State) : State := (s.disablePort n).modPort n fun p => { p with hold := false }

theorem State.portOff_sq (n : PortId) (s : State) : (s.portOff n).sq = s.sq := by
  rw [State.portOff, State.modPort_sq, State.sq_of_cardView (s.disablePort_cardView n), State.modPort_sq,
    State.sq_of_cardView (s.portEnded_cardView n)]

theorem State.portOff_alloffs (n : PortId) (s : State) : (s.portOff n).health.alloffs = s.health.alloffs := by
  rw [State.portOff, State.modPort_health, State.alloffs_of_cardView (s.disablePort_cardView n), State.modPort_health,
    State.alloffs_of_cardView (s.portEnded_cardView n)]

theorem State.portOff_same (n : PortId) (s : State) : (s.portOff n).port[n].switched = (.disabled, false, false) := by
  have h := State.switched_of_cardView (s.disablePort_cardView n) n
  rw [State.modPort_same] at h
  rw [State.portOff, State.modPort_same]
  exact congrArg (fun x : TcState × Bool × Bool => (x.1, x.2.1, false)) h

theorem State.portOff_other (m n : PortId) (s : State) (h : n ≠ m) :
    (s.portOff n).port[m].switched = s.port[m].switched := by
  have hdisable := State.switched_of_cardView (s.disablePort_cardView n) m
  rw [State.modPort_other _ _ _ _ h] at hdisable
  rw [State.portOff, State.modPort_other _ _ _ _ h, hdisable]
  exact State.switched_of_cardView (s.portEnded_cardView n) m

theorem State.startSave_keeps (s : State) (warn : Bool) :
    (s.startSave warn).cardView = s.cardView ∧ (s.startSave warn).sup.runFlag = s.sup.runFlag := by
  unfold State.startSave
  split
  · split
    · exact ⟨rfl, rfl⟩
    · exact ⟨rfl, rfl⟩
  · split
    · exact ⟨rfl, rfl⟩
    · split
      · exact ⟨rfl, rfl⟩
      · exact ⟨rfl, rfl⟩

theorem State.allOffPorts_keeps (s : State) :
    s.allOffPorts.cardView = (s.forPorts State.portOff).cardView ∧ s.allOffPorts.sup.runFlag = false := by
  have hvisit : State.portOff = fun n s => (s.disablePort n).modPort n fun p => { p with hold := false } := rfl
  rw [hvisit]
  unfold State.allOffPorts
  generalize s.forPorts _ = u
  exact State.startSave_keeps { u with sup := { u.sup with runFlag := false } } false

theorem State.allOffPorts_sq (s : State) : s.allOffPorts.sq = s.sq :=
  (State.sq_of_cardView s.allOffPorts_keeps.1).trans (State.forPorts_same State.sq _ State.portOff_sq s)

theorem State.allOffPorts_alloffs (s : State) : s.allOffPorts.health.alloffs = s.health.alloffs :=
  (State.alloffs_of_cardView s.allOffPorts_keeps.1).trans
    (State.forPorts_same (fun u => u.health.alloffs) _ State.portOff_alloffs s)

theorem State.allOffPorts_port (s : State) (n : PortId) :
    s.allOffPorts.port[n].tc.st = .disabled ∧ s.allOffPorts.port[n].hold = false ∧
      s.allOffPorts.port[n].pp.cen = false := by
  have hvisits : (s.forPorts State.portOff).port[n].switched = (.disabled, false, false) := by
    refine State.forPorts_reaches (Q := fun m u => u.port[m].switched = (.disabled, false, false)) State.portOff_same
      (fun m k u hu => ?_) s n
    by_cases hkm : k = m
    · subst hkm
      exact u.portOff_same k
    · exact (u.portOff_other m k hkm).trans hu
  have h := (State.switched_of_cardView s.allOffPorts_keeps.1 n).trans hvisits
  obtain ⟨htc, hcen, hhold⟩ : _ ∧ _ ∧ _ := by simpa only [Port.switched, Prod.mk.injEq] using h
  exact ⟨htc, hhold, hcen⟩

end Sys2Proof.Machine
end

section
/-! SUPPORT. The sequencer on its way down: what SHUTDOWN and ALLOFF change step after step (R185 to R188, R192). -/

-- Declarations in turn: the stack of every thread counts toward the memory that the check allows the one text.
set_option Elab.async false

namespace Sys2Proof.Machine

/-! ### On the way down (R185 to R188, R192) -/

theorem Rail.fall_en (r : Rail) : r.fall.en = false := by
  unfold Rail.fall
  split
  · rfl
  · exact Bool.eq_false_iff.mpr ‹_›

theorem Rail.fall_waiting (r : Rail) : r.fall.waiting = false := by
  unfold Rail.fall
  split <;> rfl

theorem Rail.fall_of_low {r : Rail} (h : r.en = false) : r.fall = { r with waiting := false, upTo := false } := by
  unfold Rail.fall
  rw [h]
  rfl

theorem Rail.fall_fall (r : Rail) : r.fall.fall = r.fall := by
  rw [Rail.fall_of_low r.fall_en]
  unfold Rail.fall
  split <;> rfl

/-- From `s` to `t` the sequencer goes on with a shut-down or an all-off that stands: rails fall, and its state moves with
what belongs to it; beside the sequencer only reports differ. -/
structure State.Lowered (s t : State) : Prop where
  rest : t.sansReports = ({ s with sq := t.sq } : State).sansReports
  sq : t.sq = { s.sq with st := t.sq.st, aoCnt := t.sq.aoCnt, aoDelay := t.sq.aoDelay, stepNow := t.sq.stepNow,
                          restartUp := t.sq.restartUp, rails := t.sq.rails, hist := t.sq.hist, lost := t.sq.lost }
  rail : ∀ x : RailId, t.sq.rails[x] = s.sq.rails[x] ∨ t.sq.rails[x] = s.sq.rails[x].fall

theorem State.Lowered.refl (s : State) : s.Lowered s := ⟨rfl, rfl, fun _ => .inl rfl⟩

theorem State.Lowered.trans {s t u : State} (h : s.Lowered t) (g : t.Lowered u) : s.Lowered u where
  rest := g.rest.trans (congrArg (fun v : State => { v with sq := u.sq }) h.rest)
  sq := by
    rw [g.sq, h.sq]
  rail x := by
    rcases g.rail x with hg | hg <;> rcases h.rail x with hh | hh <;> rw [hg, hh]
    · exact .inl rfl
    · exact .inr rfl
    · exact .inr rfl
    · exact .inr (Rail.fall_fall _)

theorem State.Lowered.port {s t : State} (h : s.Lowered t) : t.port = s.port := (congrArg State.port h.rest :)

theorem State.Lowered.runFlag {s t : State} (h : s.Lowered t) : t.sup.runFlag = s.sup.runFlag :=
  (congrArg (fun u : State => u.sup.runFlag) h.rest :)

theorem State.Lowered.alloffs {s t : State} (h : s.Lowered t) : t.health.alloffs = s.health.alloffs :=
  (congrArg (fun u : State => u.health.alloffs) h.rest :)

theorem State.Lowered.cause {s t : State} (h : s.Lowered t) : t.sq.cause = s.sq.cause :=
  (congrArg Sequencer.cause h.sq :)

/-- A rail whose enable is low keeps all but what waits for its enable. -/
theorem State.Lowered.rail_low {s t : State} (h : s.Lowered t) {x : RailId} (hen : s.sq.rails[x].en = false) :
    t.sq.rails[x] = { s.sq.rails[x] with waiting := t.sq.rails[x].waiting, upTo := t.sq.rails[x].upTo } := by
  rcases h.rail x with hx | hx
  · rw [hx]
  · rw [hx, Rail.fall_of_low hen]

theorem State.Lowered.en_low {s t : State} (h : s.Lowered t) {x : RailId} (hen : s.sq.rails[x].en = false) :
    t.sq.rails[x].en = false := by
  rw [h.rail_low hen, hen]

theorem State.Lowered.waiting_low {s t : State} (h : s.Lowered t) {x : RailId} (hwait : s.sq.rails[x].waiting = false) :
    t.sq.rails[x].waiting = false := by
  rcases h.rail x with hx | hx <;> rw [hx]
  · exact hwait
  · exact Rail.fall_waiting _

theorem State.sqGoto_lowered (s : State) (st : SqState) : s.Lowered (s.sqGoto st) := by
  obtain ⟨h, l, hsq⟩ := s.sqGoto_sq st
  exact ⟨s.sqGoto_rest st, by rw [hsq], fun x => .inl (by rw [hsq])⟩

/-- DOWN, where the restart time has not elapsed. -/
theorem State.sqDown_lowered (s : State) :
    s.Lowered (({ s with sq := { s.sq with restartUp := false } } : State).sqGoto .down) := by
  have hclear : s.Lowered { s with sq := { s.sq with restartUp := false } } := ⟨rfl, rfl, fun _ => .inl rfl⟩
  exact hclear.trans (State.sqGoto_lowered _ _)

/-! ### SHUTDOWN, step after step (R187, R188) -/

/-- A step of SHUTDOWN: the enables of its rails fall. -/
def State.stepFalls (s : State) (k : Nat) : State :=
  let s := s.changeRails (fun x => s.used x && decide (s.stepOf x = k)) Rail.fall
  { s with sq := { s.sq with stepNow := k } }

/-- The end of SHUTDOWN: LATCHED after a failed start, else DOWN. -/
def State.shutdownEnd (s : State) : State :=
  if s.sq.cause = .start then s.sqGoto .latched
  else ({ s with sq := { s.sq with restartUp := false } } : State).sqGoto .down

theorem State.foldl_fall (s : State) (k : Nat) :
    (s.usedRails.filter fun x => s.stepOf x = k).foldl (fun s x => s.modRail x Rail.fall) s =
      s.changeRails (fun x => s.used x && decide (s.stepOf x = k)) Rail.fall := by
  rw [← State.decide_mem_stepRails]
  exact State.foldl_modRail (fun _ => Rail.fall) (fun _ => Rail.fall_fall) _ s

/-- SHUTDOWN waits, or a step falls and it goes on, or it ends. -/
theorem State.shutdownStep_cases (fuel : Nat) (s : State) :
    State.shutdownStep (fuel + 1) s = s ∨ (∃ k, State.shutdownStep (fuel + 1) s = State.shutdownStep fuel (s.stepFalls k)) ∨
      State.shutdownStep (fuel + 1) s = s.shutdownEnd := by
  rw [State.shutdownStep]
  split
  · split
    case h_1 k _ =>
      refine .inr (.inl ⟨k, ?_⟩)
      rw [State.foldl_fall]
      rfl
    case h_2 => exact .inr (.inr rfl)
  · exact .inl rfl

theorem State.stepFalls_lowered (s : State) (k : Nat) : s.Lowered (s.stepFalls k) where
  rest := rfl
  sq := rfl
  rail x := by
    have hrail : (s.stepFalls k).sq.rails[x] = _ := State.changeRails_rail s _ Rail.fall x
    rw [hrail]
    split
    · exact .inr rfl
    · exact .inl rfl

theorem State.shutdownEnd_lowered (s : State) : s.Lowered s.shutdownEnd := by
  unfold State.shutdownEnd
  split
  · exact s.sqGoto_lowered .latched
  · exact s.sqDown_lowered

theorem State.shutdownStep_lowered (fuel : Nat) (s : State) : s.Lowered (State.shutdownStep fuel s) := by
  induction fuel generalizing s with
  | zero => exact .refl s
  | succ fuel ih =>
    rcases s.shutdownStep_cases fuel with h | ⟨k, h⟩ | h <;> rw [h]
    · exact .refl s
    · exact (s.stepFalls_lowered k).trans (ih _)
    · exact s.shutdownEnd_lowered

/-- The state in which a shut-down with a cause ends (R176). -/
def SqCause.shutEnd (c : SqCause) : SqState := if c = .start then .latched else .down

theorem State.shutdownEnd_st (s : State) : s.shutdownEnd.sq.st = s.sq.cause.shutEnd := by
  unfold State.shutdownEnd SqCause.shutEnd
  split
  · exact State.sqGoto_st ..
  · exact State.sqGoto_st ..

theorem State.shutdownStep_st (fuel : Nat) (s : State) :
    (State.shutdownStep fuel s).sq.st = s.sq.st ∨ (State.shutdownStep fuel s).sq.st = s.sq.cause.shutEnd := by
  induction fuel generalizing s with
  | zero => exact .inl rfl
  | succ fuel ih =>
    rcases s.shutdownStep_cases fuel with h | ⟨k, h⟩ | h <;> rw [h]
    · exact .inl rfl
    · exact ih (s.stepFalls k)
    · exact .inr s.shutdownEnd_st

/-! ### The end of ALLOFF (R192) -/

theorem State.alloffDone_lowered (s : State) : s.Lowered s.alloffDone := by
  have hdelay : s.Lowered { s with sq := { s.sq with aoCnt := s.sq.aoCnt + 1, aoDelay := false } } :=
    ⟨rfl, rfl, fun _ => .inl rfl⟩
  unfold State.alloffDone
  split
  · split
    · exact s.sqDown_lowered
    · split
      · exact s.sqGoto_lowered .latched
      · exact hdelay.trans (State.sqGoto_lowered _ _)
  · exact .refl s

theorem State.wentDown_lowered (s : State) (h : s.sq.st.live = false ∨ s.pgood = true) : s.Lowered s.wentDown := by
  rw [State.wentDown, State.feedFirst_lower s _ h]
  exact (State.shutdownStep_lowered 14 s).trans (State.alloffDone_lowered _)

end Sys2Proof.Machine
end

section
/-! PROOFS. An all-off and the levels of the rails (O19). -/

-- Declarations in turn: the stack of every thread counts toward the memory that the check allows the one text.
set_option Elab.async false

namespace Sys2Proof.Machine

/-! ### What an all-off leaves (R30, R190 to R193, R261) -/

/-- From `s` to the answer of a command an all-off with a cause and a rail has come. -/
def State.alloffIn (s : State) (o : Host.Outcome State Fault Refusal) (c : SqCause) (rail : Nat) : Prop :=
  ∃ t, o = .next t ∧ t.sq.cause = c ∧ t.sq.faultRail = rail ∧ t.sq.faultDriven = true ∧ t.sq.armed = false ∧
  t.health.alloffs = sat32 (s.health.alloffs + 1) ∧ t.sup.runFlag = false ∧ t.sketches = [] ∧
  (∀ x : RailId, t.sq.rails[x].en = false) ∧
  (∀ n : PortId, t.port[n].tc.st = .disabled ∧ t.port[n].hold = false ∧ t.port[n].pp.cen = false) ∧
  ∀ k : PlatId, t.plat[k].slots = Vector.replicate 8 none

/-- The sequencer as an all-off begins: every enable falls, SQ_FAULT_N is driven and disarmed. -/
def Sequencer.alloffBegun (q : Sequencer) (c : SqCause) (rail : Nat) : Sequencer :=
  { q with fromStart := decide (q.st = .shutdown) && decide (q.cause = .start), cause := c, faultRail := rail,
           faultDriven := true, faultN := false, armed := false, hostPend := false, retTo := false,
           rails := q.rails.map Rail.allOff }

/-- The state as an all-off begins, the all-off counted. -/
def State.alloffBegun (s : State) (c : SqCause) (rail : Nat) : State :=
  ({ s with sq := s.sq.alloffBegun c rail
            health := { s.health with alloffs := sat32 (s.health.alloffs + 1) } } : State).sqGoto .alloff

/-- Its Sketch slots emptied. -/
def Platform.emptied (k : Platform) : Platform := { k with slots := Vector.replicate 8 none, pushCut := k.push.isSome }

theorem State.sqAlloff_eq (s : State) (c : SqCause) (rail : Nat) : s.sqAlloff c rail =
    { (s.alloffBegun c rail).allOffPorts.alloffDone with
      sketches := [], plat := (s.alloffBegun c rail).allOffPorts.alloffDone.plat.map Platform.emptied } := rfl

theorem State.alloffBegun_sq (s : State) (c : SqCause) (rail : Nat) :
    ∃ h l, (s.alloffBegun c rail).sq = { s.sq.alloffBegun c rail with st := .alloff, hist := h, lost := l } :=
  State.sqGoto_sq _ .alloff

theorem State.alloffBegun_alloffs (s : State) (c : SqCause) (rail : Nat) :
    (s.alloffBegun c rail).health.alloffs = sat32 (s.health.alloffs + 1) :=
  (State.sqGoto_lowered _ .alloff).alloffs

theorem State.alloffIn_of_sqAlloff {s : State} {o : Host.Outcome State Fault Refusal} {c : SqCause} {rail : Nat}
    (ho : o = .next (s.sqAlloff c rail)) : s.alloffIn o c rail := by
  obtain ⟨h, l, hbegun⟩ := s.alloffBegun_sq c rail
  have hsq := (State.allOffPorts_sq _).trans hbegun
  have hcount := (State.allOffPorts_alloffs _).trans (s.alloffBegun_alloffs c rail)
  have hflag := (s.alloffBegun c rail).allOffPorts_keeps.2
  have hports := (s.alloffBegun c rail).allOffPorts_port
  rw [State.sqAlloff_eq] at ho
  generalize (s.alloffBegun c rail).allOffPorts = u at ho hsq hcount hflag hports
  have hdone := u.alloffDone_lowered
  have hrails (x : RailId) : u.sq.rails[x].en = false := by
    rw [hsq]
    exact congrArg Rail.en (Vector.getElem_map_fin Rail.allOff s.sq.rails x)
  have hcause : u.alloffDone.sq.cause = c ∧ u.alloffDone.sq.faultRail = rail ∧ u.alloffDone.sq.faultDriven = true ∧
      u.alloffDone.sq.armed = false := by
    rw [hdone.sq, hsq]
    exact ⟨rfl, rfl, rfl, rfl⟩
  obtain ⟨hc, hrail, hdriven, harmed⟩ := hcause
  refine ⟨_, ho, hc, hrail, hdriven, harmed, hdone.alloffs.trans hcount, hdone.runFlag.trans hflag, rfl,
    fun x => hdone.en_low (hrails x), fun n => ?_, fun k => ?_⟩
  · show u.alloffDone.port[n].tc.st = .disabled ∧ u.alloffDone.port[n].hold = false ∧ u.alloffDone.port[n].pp.cen = false
    rw [hdone.port]
    exact hports n
  · exact congrArg Platform.slots (Vector.getElem_map_fin Platform.emptied _ k)

theorem State.feedFirst_feed (s : State) (f : State → State) (hlive : s.sq.st.live = true) (hlow : s.pgood = false) :
    s.feedFirst f = s.sqAlloff .feed 0xF := by
  unfold State.feedFirst
  rw [hlive, hlow]
  rfl

theorem SqState.live_of_raised {st : SqState} (h : st = .raise ∨ st = .run) : st.live = true := by
  rcases h with rfl | rfl <;> rfl

theorem SqState.raised_of_live {st : SqState} (hlive : st.live = true) (hnot : st ≠ .shutdown) : st = .raise ∨ st = .run := by
  cases st with
  | raise => exact .inl rfl
  | run => exact .inr rfl
  | shutdown => exact absurd rfl hnot
  | _ => exact nomatch hlive

theorem SqState.ne_of_not_live {st : SqState} (h : st.live = false) : st ≠ .raise ∧ st ≠ .run ∧ st ≠ .shutdown := by
  refine ⟨?_, ?_, ?_⟩ <;> rintro rfl <;> exact nomatch h

/-! ### The rows of an all-off (R176, R190, R191) -/

theorem execSqFeedAlloff_idle (s : State) (h : s.sq.st.live = false ∨ s.pgood = true) : exec (.sqFeedAlloff) s = .next s :=
  congrArg Host.Outcome.next (s.feedFirst_lower id h)

theorem execSqFeedAlloff_feed (s : State) (hlive : s.sq.st.live = true) (hlow : s.pgood = false) :
    exec (.sqFeedAlloff) s = .next (s.sqAlloff .feed 0xF) :=
  congrArg Host.Outcome.next (s.feedFirst_feed id hlive hlow)

theorem execSqPeerAlloff_peer (s : State) (hlive : s.sq.st.live = true) (harmed : s.sq.armed = true)
    (hgood : s.pgood = true) : exec (.sqPeerAlloff) s = .next (s.sqAlloff .peer 0xF) := by
  show execSqPeerAlloff s = _
  rw [execSqPeerAlloff, hlive, harmed, s.feedFirst_lower _ (.inr hgood)]
  rfl

theorem execSqPeerAlloff_idle (s : State) (h : s.sq.st.live = false ∨ s.sq.armed = false) :
    exec (.sqPeerAlloff) s = .next s := by
  show execSqPeerAlloff s = _
  unfold execSqPeerAlloff
  rcases h with h | h <;> simp [h]

/-- A rail whose filtered level is low. -/
def State.railLow (s : State) (x : RailId) : State := s.modRail x fun r => { r with pg := false }

theorem execSqRailFault_faults (s : State) (x : RailId) (hst : s.sq.st = .raise ∨ s.sq.st = .run) (hused : s.used x = true)
    (hen : s.sq.rails[x].en = true) (hqual : s.sq.rails[x].qualified = true) :
    exec (.sqRailFault x) s = .next ((s.railLow x).feedFirst (·.railFault x)) := by
  show execSqRailFault x s = _
  have hst' : (decide (s.sq.st = .raise) || decide (s.sq.st = .run)) = true := by simpa using hst
  simp only [execSqRailFault, hst', hused, hen, hqual, Bool.and_self, if_true]
  rfl

theorem execSqRailFault_rail (s : State) (x : RailId) (hst : s.sq.st = .raise ∨ s.sq.st = .run) (hgood : s.pgood = true)
    (hused : s.used x = true) (hen : s.sq.rails[x].en = true) (hqual : s.sq.rails[x].qualified = true) :
    exec (.sqRailFault x) s = .next ((s.railLow x).sqAlloff .rail x.val) := by
  rw [execSqRailFault_faults s x hst hused hen hqual, State.feedFirst_lower (s.railLow x) _ (.inr hgood)]
  rfl

/-- With BP_PGOOD low as well the cause is FEED. -/
theorem execSqRailFault_feed (s : State) (x : RailId) (hst : s.sq.st = .raise ∨ s.sq.st = .run) (hlow : s.pgood = false)
    (hused : s.used x = true) (hen : s.sq.rails[x].en = true) (hqual : s.sq.rails[x].qualified = true) :
    exec (.sqRailFault x) s = .next ((s.railLow x).sqAlloff .feed 0xF) := by
  rw [execSqRailFault_faults s x hst hused hen hqual,
    State.feedFirst_feed (s.railLow x) _ (SqState.live_of_raised hst) hlow]

theorem execSqRailFault_idle (s : State) (x : RailId) (h : (s.sq.st ≠ .raise ∧ s.sq.st ≠ .run) ∨ s.used x = false ∨
    s.sq.rails[x].en = false ∨ s.sq.rails[x].qualified = false) : exec (.sqRailFault x) s = .next s := by
  show execSqRailFault x s = _
  unfold execSqRailFault
  rcases h with ⟨hraise, hrun⟩ | h | h | h
  · simp [hraise, hrun]
  all_goals simp [h, -Fin.getElem_fin]

/-! ### The filtered levels (R180, R185, R188, R190) -/

/-- A rail whose level fell before its enable does. -/
def State.railFell (s : State) (x : RailId) : State :=
  (s.modRail x fun r => { r with downFail := true, fell := true }).sqRecord x.val .downFail

theorem State.railLow_feedFirst (s : State) (x : RailId) (f : State → State) (hgood : s.pgood = true) :
    (s.railLow x).feedFirst f = f (s.railLow x) :=
  State.feedFirst_lower _ f (.inr hgood)

/-- A fall in RAISE, RUN or SHUTDOWN, judged by the state before it. -/
theorem execSqPgFilter_falls (s : State) (x : RailId) (hused : s.used x = true) (hen : s.sq.rails[x].en = true) :
    exec (.sqPgFilter x false) s = .next
      (if s.sq.rails[x].qualified && (s.sq.st = .raise || s.sq.st = .run) then (s.railLow x).feedFirst (·.railFault x)
      else if s.sq.st = .shutdown && s.sq.rails[x].pg then (s.railLow x).feedFirst (·.railFell x) else s.railLow x) := by
  have hused' : (s.railLow x).used x = true := hused
  show execSqPgFilter x false s = _
  unfold execSqPgFilter
  dsimp only
  rw [← State.railLow, hused', hen]
  rfl

theorem execSqPgFilter_faults (s : State) (x : RailId) (hst : s.sq.st = .raise ∨ s.sq.st = .run) (hgood : s.pgood = true)
    (hused : s.used x = true) (hen : s.sq.rails[x].en = true) (hqual : s.sq.rails[x].qualified = true) :
    exec (.sqPgFilter x false) s = .next ((s.railLow x).sqAlloff .rail x.val) := by
  have hst' : (decide (s.sq.st = .raise) || decide (s.sq.st = .run)) = true := by simpa using hst
  rw [execSqPgFilter_falls s x hused hen, hqual, hst', s.railLow_feedFirst x _ hgood]
  rfl

theorem execSqPgFilter_downFail (s : State) (x : RailId) (hst : s.sq.st = .shutdown) (hgood : s.pgood = true)
    (hused : s.used x = true) (hen : s.sq.rails[x].en = true) (hpg : s.sq.rails[x].pg = true) :
    exec (.sqPgFilter x false) s = .next ((s.railLow x).railFell x) := by
  rw [execSqPgFilter_falls s x hused hen, hpg, hst, s.railLow_feedFirst x _ hgood, s.railLow_feedFirst x _ hgood]
  simp

theorem execSqPgFilter_kept (s : State) (x : RailId) (h : s.used x = false ∨ s.sq.rails[x].en = false ∨
    s.sq.st.live = false) : exec (.sqPgFilter x false) s = .next (s.railLow x) := by
  have hused : (s.railLow x).used = s.used := rfl
  have hst : (s.railLow x).sq.st = s.sq.st := rfl
  show execSqPgFilter x false s = _
  unfold execSqPgFilter
  dsimp only
  rw [← State.railLow, hused, hst]
  rcases h with h | h | h
  · simp [h]
  · simp [h, -Fin.getElem_fin]
  · obtain ⟨hraise, hrun, hshut⟩ := SqState.ne_of_not_live h
    simp [hraise, hrun, hshut]

theorem State.railLow_same (s : State) (x : RailId) : (s.railLow x).sq.rails[x] = { s.sq.rails[x] with pg := false } :=
  State.modRail_same ..

theorem State.railFell_same (s : State) (x : RailId) :
    (s.railFell x).sq.rails[x] = { s.sq.rails[x] with downFail := true, fell := true } :=
  State.modRail_same s x fun r => { r with downFail := true, fell := true }

/-- A level that becomes good. -/
theorem execSqPgFilter_rises (s : State) (x : RailId) :
    exec (.sqPgFilter x true) s = .next (s.modRail x fun r => { r with pg := true }) := rfl

/-- Settles O19: every row of an all-off ends in `sqAlloff`, with its cause, or leaves the state as it is
(`State.alloffIn_of_sqAlloff` says what an all-off changes), and a level's change touches its rail alone. -/
theorem sequencerAllOff : Obligations.SequencerAllOff := by
  unfold Obligations.SequencerAllOff
  refine ⟨?feed, ?feedIdle, ?peer, ?peerIdle, ?rail, ?railIdle, ?level, ?railFeed, ?rises, ?downFail, ?kept, ?pulse,
    ?pulseIdle, ?arm, ?armIdle⟩
  case feed => exact fun s hlive hlow => State.alloffIn_of_sqAlloff (execSqFeedAlloff_feed s hlive hlow)
  case feedIdle => exact fun s h => ⟨s, execSqFeedAlloff_idle s h, rfl⟩
  case peer => exact fun s hlive harmed hgood => State.alloffIn_of_sqAlloff (execSqPeerAlloff_peer s hlive harmed hgood)
  case peerIdle => exact fun s h => ⟨s, execSqPeerAlloff_idle s h, rfl⟩
  case rail =>
    exact fun s x hst hgood hused hen hqual =>
      State.alloffIn_of_sqAlloff (s := s.railLow x) (execSqRailFault_rail s x hst hgood hused hen hqual)
  case railIdle => exact fun s x h => ⟨s, execSqRailFault_idle s x h, rfl⟩
  case level =>
    exact fun s x hst hgood hused hen hqual =>
      State.alloffIn_of_sqAlloff (s := s.railLow x) (execSqPgFilter_faults s x hst hgood hused hen hqual)
  case railFeed =>
    intro s x hlow hlive hused hen hqual hnot
    have hst := SqState.raised_of_live hlive hnot
    exact State.alloffIn_of_sqAlloff (s := s.railLow x) (execSqRailFault_feed s x hst hlow hused hen hqual)
  case rises =>
    refine fun s x => ⟨_, execSqPgFilter_rises s x, ?_, ?_, fun y hy => State.modRail_other s x y _ hy, rfl, rfl, rfl⟩
    · rw [State.modRail_same]
    · rw [State.modRail_same]
  case downFail =>
    intro s x hst hgood hused hen hpg
    refine ⟨_, execSqPgFilter_downFail s x hst hgood hused hen hpg, ?_⟩
    rw [State.railFell_same, State.railLow_same]
    exact ⟨rfl, rfl, hen, hst, rfl, rfl⟩
  case kept =>
    intro s x h
    refine ⟨_, execSqPgFilter_kept s x h, ?_⟩
    rw [State.railLow_same]
    exact ⟨rfl, rfl, rfl, rfl, rfl, rfl⟩
  case pulse => exact fun _ hst => ⟨_, congrArg Host.Outcome.next (if_neg hst), rfl⟩
  case pulseIdle => exact fun _ hst => ⟨_, congrArg Host.Outcome.next (if_pos hst), rfl⟩
  case arm => exact fun _ hnot => ⟨_, congrArg Host.Outcome.next (if_neg (Bool.eq_false_iff.mp hnot)), rfl⟩
  case armIdle => exact fun _ hdriven => ⟨_, congrArg Host.Outcome.next (if_pos hdriven), rfl⟩

end Sys2Proof.Machine
end

section
/-! PROOFS. An ordered shut-down and what ends its waits (O20). -/

-- Declarations in turn: the stack of every thread counts toward the memory that the check allows the one text.
set_option Elab.async false

namespace Sys2Proof.Machine

/-! ### What an ordered shut-down leaves (R176, R186 to R189) -/

/-- From the answer of a command an ordered shut-down with a cause and a rail has come: it stands in SHUTDOWN or has ended. -/
def State.shutBy (t : State) (c : SqCause) (rail : Nat) : Prop :=
  t.sq.cause = c ∧ t.sq.faultRail = rail ∧ (t.sq.st = .shutdown ∨ t.sq.st = c.shutEnd) ∧ t.sup.runFlag = false ∧
  t.sq.hostPend = false ∧ (∀ x : RailId, t.sq.rails[x].waiting = false) ∧
  ∀ n : PortId, t.port[n].tc.st = .disabled ∧ t.port[n].hold = false

/-- A rail as SHUTDOWN begins. -/
def Rail.shutBegun (r : Rail) : Rail := { r with waiting := false, upTo := false, fell := false }

/-- The state as SHUTDOWN begins, before its ports go. -/
def State.shutBegun (s : State) (c : SqCause) (rail : Nat) : State :=
  ({ s with sq := { s.sq with cause := c, faultRail := rail, retEnded := false, hostPend := false,
                              retTo := s.usesReti && !s.sq.reti } } : State).sqGoto .shutdown

/-- The rails as SHUTDOWN begins, its ports gone. -/
def State.shutRails (s : State) : State :=
  { s with sq := { s.sq with stepNow := s.topStep.getD s.sq.stepNow, rails := s.sq.rails.map Rail.shutBegun } }

theorem State.sqShutdown_eq (s : State) (c : SqCause) (rail : Nat) :
    s.sqShutdown c rail = State.shutdownStep 14 (s.shutBegun c rail).allOffPorts.shutRails := by
  unfold State.sqShutdown State.shutRails State.shutBegun
  rfl

theorem State.shutBegun_sq (s : State) (c : SqCause) (rail : Nat) : ∃ h l, (s.shutBegun c rail).sq =
    { s.sq with st := .shutdown, cause := c, faultRail := rail, retEnded := false, hostPend := false,
                retTo := s.usesReti && !s.sq.reti, hist := h, lost := l } :=
  State.sqGoto_sq _ .shutdown

theorem State.shutBy_of_sqShutdown {s t : State} {c : SqCause} {rail : Nat} (ht : t = s.sqShutdown c rail) :
    t.shutBy c rail ∧ t.sq.cin = s.sq.cin := by
  obtain ⟨h, l, hbegun⟩ := s.shutBegun_sq c rail
  have hsq := (State.allOffPorts_sq _).trans hbegun
  have hflag := (s.shutBegun c rail).allOffPorts_keeps.2
  have hports := (s.shutBegun c rail).allOffPorts_port
  rw [State.sqShutdown_eq] at ht
  generalize (s.shutBegun c rail).allOffPorts = u at ht hsq hflag hports
  have hdown : u.shutRails.Lowered t := ht ▸ State.shutdownStep_lowered 14 u.shutRails
  have hu : u.shutRails.sq.cause = c ∧ u.shutRails.sq.st = .shutdown ∧ u.shutRails.sq.hostPend = false ∧
      u.shutRails.sq.faultRail = rail ∧ u.shutRails.sq.cin = s.sq.cin := by
    unfold State.shutRails
    rw [hsq]
    exact ⟨rfl, rfl, rfl, rfl, rfl⟩
  obtain ⟨hcause, hst, hpend, hrail, hcin⟩ := hu
  have hwaiting (x : RailId) : u.shutRails.sq.rails[x].waiting = false :=
    congrArg Rail.waiting (Vector.getElem_map_fin Rail.shutBegun u.sq.rails x)
  refine ⟨⟨hdown.cause.trans hcause, ?_, ?_, hdown.runFlag.trans hflag, ?_, fun x => hdown.waiting_low (hwaiting x),
    fun n => ?_⟩, ?_⟩
  · rw [hdown.sq]
    exact hrail
  · rw [ht, ← hst, ← hcause]
    exact State.shutdownStep_st 14 u.shutRails
  · rw [hdown.sq]
    exact hpend
  · obtain ⟨htc, hhold, -⟩ := hports n
    rw [hdown.port]
    exact ⟨htc, hhold⟩
  · rw [hdown.sq]
    exact hcin

/-! ### The rows that begin one (R176, R181) -/

theorem execUpToExpiry_shuts (s : State) (x : RailId) (hst : s.sq.st = .raise) (hgood : s.pgood = true)
    (hup : s.sq.rails[x].upTo = true) (hnot : s.sq.rails[x].qualified = false) :
    exec (.upToExpiry x) s = .next (s.sqShutdown .start x.val) := by
  have hlate : s.upLate x = true := by
    simp [State.upLate, hst, hup, hnot, -Fin.getElem_fin]
  show execUpToExpiry x s = _
  rw [execUpToExpiry, hlate, if_pos rfl, s.feedFirst_lower _ (.inr hgood)]

theorem execUpToExpiry_idle (s : State) (x : RailId)
    (h : s.sq.rails[x].upTo = false ∨ (s.sq.st ≠ .raise ∧ s.sq.st ≠ .run)) : exec (.upToExpiry x) s = .next s := by
  have hlate : s.upLate x = false := by
    unfold State.upLate
    rcases h with h | ⟨hraise, hrun⟩
    · simp [h, -Fin.getElem_fin]
    · simp [hraise, hrun]
  show execUpToExpiry x s = _
  rw [execUpToExpiry, hlate]
  rfl

/-- SQ_CIN low. -/
def State.cinLow (s : State) : State := { s with sq := { s.sq with cin := false, cinQual := false } }

theorem execSqCinFall_eq (s : State) : exec (.sqCinFall) s = .next
    (if s.usesCin && (s.sq.st = .raise || s.sq.st = .run) then s.cinLow.feedFirst (·.sqShutdown .cascade 0xF)
    else s.cinLow) := rfl

theorem execSqCinFall_shuts (s : State) (huses : s.usesCin = true) (hst : s.sq.st = .raise ∨ s.sq.st = .run)
    (hgood : s.pgood = true) : exec (.sqCinFall) s = .next (s.cinLow.sqShutdown .cascade 0xF) := by
  have hst' : (decide (s.sq.st = .raise) || decide (s.sq.st = .run)) = true := by simpa using hst
  rw [execSqCinFall_eq, huses, hst', s.cinLow.feedFirst_lower _ (.inr hgood)]
  simp only [Bool.and_self, if_true]

theorem execSqCinFall_kept (s : State) (h : s.usesCin = false ∨ (s.sq.st ≠ .raise ∧ s.sq.st ≠ .run)) :
    exec (.sqCinFall) s = .next s.cinLow := by
  rw [execSqCinFall_eq]
  rcases h with h | ⟨hraise, hrun⟩
  · simp [h]
  · simp [hraise, hrun]

theorem execSqHostShutdown_shuts (s : State) (hst : s.sq.st = .run) (hpend : s.sq.hostPend = true) (hgood : s.pgood = true) :
    exec (.sqHostShutdown) s = .next (s.sqShutdown .host 0xF) := by
  show execSqHostShutdown s = _
  rw [execSqHostShutdown, hst, hpend, s.feedFirst_lower _ (.inr hgood)]
  simp only [decide_true, Bool.and_self, if_true]

theorem execSqHostShutdown_idle (s : State) (h : s.sq.st ≠ .run ∨ s.sq.hostPend = false) :
    exec (.sqHostShutdown) s = .next s := by
  show execSqHostShutdown s = _
  unfold execSqHostShutdown
  rcases h with h | h <;> simp [h]

/-! ### The wait for SQ_RETI (R185, R186; log entry 12) -/

/-- The other level of SQ_RETI. -/
def State.retiEdge (s : State) : State := { s with sq := { s.sq with reti := !s.sq.reti } }

/-- The wait for SQ_RETI over. -/
def State.retArrived (s : State) : State := { s with sq := { s.sq with retTo := false } }

theorem execSqRetiRise_eq (s : State) : exec (.sqRetiRise) s = .next
    (if !s.sq.reti && s.sq.st = .shutdown && s.sq.retTo then
      s.retiEdge.feedFirst fun u => State.shutdownStep 14 u.retArrived
    else s.retiEdge) := rfl

theorem execSqRetiRise_kept (s : State) (h : s.sq.reti = true ∨ s.sq.st ≠ .shutdown ∨ s.sq.retTo = false) :
    exec (.sqRetiRise) s = .next s.retiEdge := by
  rw [execSqRetiRise_eq]
  rcases h with h | h | h <;> simp [h]

theorem execSqRetiRise_ends (s : State) (hreti : s.sq.reti = false) (hst : s.sq.st = .shutdown) (hwait : s.sq.retTo = true)
    (hgood : s.pgood = true) : exec (.sqRetiRise) s = .next (State.shutdownStep 14 s.retiEdge.retArrived) := by
  rw [execSqRetiRise_eq, hreti, hst, hwait, s.retiEdge.feedFirst_lower _ (.inr hgood)]
  simp only [Bool.not_false, decide_true, Bool.and_self, if_true]

/-- RET_TO has ended, which is recorded. -/
def State.retMissed (s : State) : State :=
  ({ s with sq := { s.sq with retTo := false, retEnded := true, retLate := true } } : State).sqRecord 0xF .retLate

theorem execRetToExpiry_ends (s : State) (hst : s.sq.st = .shutdown) (hwait : s.sq.retTo = true) (hgood : s.pgood = true) :
    exec (.retToExpiry) s = .next (State.shutdownStep 14 s.retMissed) := by
  show execRetToExpiry s = _
  rw [execRetToExpiry, hst, hwait, s.feedFirst_lower _ (.inr hgood)]
  simp only [decide_true, Bool.and_self, if_true]
  rfl

theorem execRetToExpiry_idle (s : State) (h : s.sq.st ≠ .shutdown ∨ s.sq.retTo = false) :
    exec (.retToExpiry) s = .next s := by
  show execRetToExpiry s = _
  unfold execRetToExpiry
  rcases h with h | h <;> simp [h]

/-! ### The discharge of a rail (R185, R187, R192) -/

/-- A rail whose DIS_TO has ended, which is recorded. -/
def State.disMissed (s : State) (x : RailId) : State :=
  (s.modRail x fun r => { r with disTo := false, disEnded := true, disLate := true }).sqRecord x.val .disLate

theorem State.disMissed_same (s : State) (x : RailId) :
    (s.disMissed x).sq.rails[x] = { s.sq.rails[x] with disTo := false, disEnded := true, disLate := true } :=
  State.modRail_same s x fun r => { r with disTo := false, disEnded := true, disLate := true }

theorem execDisToExpiry_late (s : State) (x : RailId) (hused : s.used x = true) (hrun : s.sq.rails[x].disTo = true)
    (hnot : s.sq.rails[x].discharged = false) : exec (.disToExpiry x) s = .next (s.disMissed x).wentDown := by
  show execDisToExpiry x s = _
  simp only [execDisToExpiry, hused, hrun, hnot, Bool.not_false, Bool.and_self, if_true]
  rfl

theorem execDisToExpiry_idle (s : State) (x : RailId) (h : s.used x = false ∨ s.sq.rails[x].disTo = false ∨
    s.sq.rails[x].discharged = true) : exec (.disToExpiry x) s = .next s := by
  show execDisToExpiry x s = _
  unfold execDisToExpiry
  rcases h with h | h | h <;> simp [h, -Fin.getElem_fin]

/-- A rail that is discharged. -/
def State.disDone (s : State) (x : RailId) : State := s.modRail x fun r => { r with discharged := true, disTo := false }

theorem State.disDone_same (s : State) (x : RailId) :
    (s.disDone x).sq.rails[x] = { s.sq.rails[x] with discharged := true, disTo := false } :=
  State.modRail_same ..

theorem execRailDischarged_done (s : State) (x : RailId) (hused : s.used x = true) (hen : s.sq.rails[x].en = false)
    (hpg : s.sq.rails[x].pg = false) (hnot : s.sq.rails[x].discharged = false) :
    exec (.railDischarged x) s = .next (s.disDone x).wentDown := by
  show execRailDischarged x s = _
  simp only [execRailDischarged, hused, hen, hpg, hnot, Bool.not_false, Bool.and_self, if_true]
  rfl

theorem execRailDischarged_idle (s : State) (x : RailId) (h : s.used x = false ∨ s.sq.rails[x].en = true ∨
    s.sq.rails[x].pg = true ∨ s.sq.rails[x].discharged = true) : exec (.railDischarged x) s = .next s := by
  show execRailDischarged x s = _
  unfold execRailDischarged
  rcases h with h | h | h | h <;> simp [h, -Fin.getElem_fin]

/-- Settles O20: the rows that begin a shut-down all end in `sqShutdown` (`State.shutBy_of_sqShutdown` says what it
changes), and what ends a wait lets SHUTDOWN or ALLOFF go on, where a rail that is off keeps its record
(`State.Lowered.rail_low`). -/
theorem sequencerShutdown : Obligations.SequencerShutdown := by
  unfold Obligations.SequencerShutdown
  refine ⟨?upTo, ?upToIdle, ?cinFall, ?cinKept, ?host, ?hostIdle, ?retiKept, ?retiEnds, ?retTo, ?retToIdle, ?disTo,
    ?disToIdle, ?discharged, ?dischargedIdle⟩
  case upTo =>
    intro s x hst hgood hup hnot
    obtain ⟨t, ht⟩ : ∃ t, t = s.sqShutdown .start x.val := ⟨_, rfl⟩
    obtain ⟨hshut, -⟩ := State.shutBy_of_sqShutdown ht
    exact ⟨t, ht ▸ execUpToExpiry_shuts s x hst hgood hup hnot, hshut⟩
  case upToIdle => exact fun s x h => ⟨s, execUpToExpiry_idle s x h, rfl⟩
  case cinFall =>
    intro s huses hst hgood
    obtain ⟨t, ht⟩ : ∃ t, t = s.cinLow.sqShutdown .cascade 0xF := ⟨_, rfl⟩
    obtain ⟨⟨hcause, hrail, hends, hrest⟩, hcin⟩ := State.shutBy_of_sqShutdown ht
    exact ⟨t, ht ▸ execSqCinFall_shuts s huses hst hgood, hcause, hrail, hends, hcin, hrest⟩
  case cinKept => exact fun s h => ⟨_, execSqCinFall_kept s h, rfl⟩
  case host =>
    intro s hst hpend hgood
    obtain ⟨t, ht⟩ : ∃ t, t = s.sqShutdown .host 0xF := ⟨_, rfl⟩
    obtain ⟨hshut, -⟩ := State.shutBy_of_sqShutdown ht
    exact ⟨t, ht ▸ execSqHostShutdown_shuts s hst hpend hgood, hshut⟩
  case hostIdle => exact fun s h => ⟨s, execSqHostShutdown_idle s h, rfl⟩
  case retiKept => exact fun s h => ⟨_, execSqRetiRise_kept s h, rfl⟩
  case retiEnds =>
    intro s hreti hst hwait hgood
    have hdown := State.shutdownStep_lowered 14 s.retiEdge.retArrived
    refine ⟨_, execSqRetiRise_ends s hreti hst hwait hgood, ?_⟩
    rw [hdown.port, hdown.sq]
    exact ⟨congrArg (!·) hreti, rfl, rfl, rfl⟩
  case retTo =>
    intro s hst hwait hgood
    have hdown := State.shutdownStep_lowered 14 s.retMissed
    refine ⟨_, execRetToExpiry_ends s hst hwait hgood, ?_⟩
    rw [hdown.port, hdown.sq]
    exact ⟨rfl, rfl, rfl, rfl⟩
  case retToIdle => exact fun s h => ⟨s, execRetToExpiry_idle s h, rfl⟩
  case disTo =>
    intro s x hused hrun hnot hen hfeed
    have hdown := (s.disMissed x).wentDown_lowered hfeed
    have hlow : (s.disMissed x).sq.rails[x].en = false := by rw [State.disMissed_same, hen]
    refine ⟨_, execDisToExpiry_late s x hused hrun hnot, ?_⟩
    rw [hdown.rail_low hlow, hdown.port, State.disMissed_same]
    exact ⟨rfl, rfl, rfl⟩
  case disToIdle => exact fun s x h => ⟨s, execDisToExpiry_idle s x h, rfl⟩
  case discharged =>
    intro s x hused hen hpg hnot hfeed
    have hdown := (s.disDone x).wentDown_lowered hfeed
    have hlow : (s.disDone x).sq.rails[x].en = false := by rw [State.disDone_same, hen]
    refine ⟨_, execRailDischarged_done s x hused hen hpg hnot, ?_⟩
    rw [hdown.rail_low hlow, hdown.port, State.disDone_same]
    exact ⟨rfl, hen, rfl⟩
  case dischargedIdle => exact fun s x h => ⟨s, execRailDischarged_idle s x h, rfl⟩

end Sys2Proof.Machine
end

section
/-! SUPPORT. Views of the state: what a command of a port leaves alone is that a view which takes in all but its footprint
stays the same (O58). -/

-- Declarations in turn: the stack of every thread counts toward the memory that the check allows the one text.
set_option Elab.async false

namespace Sys2Proof.Machine

/-! ### Views -/

/-- What of events and completions a view leaves out. -/
inductive Told where
  | nothing
  | events
  | completions

def Told.blank : Told → State → State
  | .nothing, s => s
  | .events, s => s.sansEvents
  | .completions, s => s.sansTags

/-- Events may be told: those of a completion are among them. -/
def Told.mayTell : Told → Bool
  | .nothing => false
  | .events | .completions => true

/-- A view of the state: one port through `own` and the rest of them through `others`, the parts that the commands of the
ports change through the function of their name, and all else as it is. -/
structure View where
  port : PortId
  own : Port → Port
  others : Port → Port := id
  told : Told := .nothing
  tt : Timetable → Timetable := id
  core : Vector VCore 5 → Vector VCore 5 := id
  bg : Budget → Budget := id
  points : Points → Points := id

def View.ports (V : View) (v : Vector Port 24) : Vector Port 24 := (v.map V.others).set V.port (V.own v[V.port])

/-- The view of a state whose ports are taken from elsewhere. -/
def View.over (V : View) (v : Vector Port 24) (s : State) : State :=
  { V.told.blank s with port := v, tt := V.tt s.tt, core := V.core s.core, bg := V.bg s.bg, points := V.points s.points }

def View.see (V : View) (s : State) : State := V.over (V.ports s.port) s

/-- The view of every port through one function. -/
def View.whole (V : View) : Prop := V.others = V.own

/-- The bookings of the Timetable are no part of the view. -/
def View.freePlaces (V : View) : Prop := ∀ t u : Timetable, t.sansPlaces = u.sansPlaces → V.tt t = V.tt u

theorem View.ports_set (V : View) (v : Vector Port 24) {x : Port} (h : V.own x = V.own v[V.port]) :
    V.ports (v.set V.port x) = V.ports v := by
  ext j hj
  by_cases hij : V.port.val = j
  · subst hij
    simpa [View.ports] using h
  · simp [View.ports, hij]

theorem View.whole.ports {V : View} (hV : V.whole) (v : Vector Port 24) : V.ports v = v.map V.own := by
  ext j hj
  by_cases hij : V.port.val = j
  · subst hij
    simp [View.ports]
  · rw [View.whole] at hV
    simp [View.ports, hij, hV]

/-- A view of every port through one function has no port of its own. -/
theorem View.whole.see_eq {V : View} (hV : V.whole) (m : PortId) (s : State) : V.see s = View.see { V with port := m } s := by
  have hm : View.whole { V with port := m } := hV
  unfold View.see
  rw [hV.ports, hm.ports]
  rfl

/-! ### What leaves a view as it is -/

variable {V : View} {s t : State}

theorem View.over_modPort (v : Vector Port 24) (n : PortId) (f : Port → Port) : V.over v (s.modPort n f) = V.over v s := by
  unfold View.over
  cases V.told <;> rfl

theorem View.see_modPort {f : Port → Port} (h : ∀ p, V.own (f p) = V.own p) : V.see (s.modPort V.port f) = V.see s := by
  unfold View.see
  rw [View.over_modPort]
  exact congrArg (fun v => V.over v s) (V.ports_set s.port (h _))

theorem View.see_of_sansTags (hV : V.told = .completions) (h : t.sansTags = s.sansTags) : V.see t = V.see s := by
  unfold View.see View.over
  rw [hV]
  exact congrArg (fun u : State =>
    { u with port := V.ports u.port, tt := V.tt u.tt, core := V.core u.core, bg := V.bg u.bg, points := V.points u.points }) h

theorem View.see_of_sansEvents (hV : V.told.mayTell = true) (h : t.sansEvents = s.sansEvents) : V.see t = V.see s := by
  cases hT : V.told with
  | nothing => rw [hT] at hV; exact nomatch hV
  | events =>
    unfold View.see View.over
    rw [hT]
    exact congrArg (fun u : State =>
      { u with port := V.ports u.port, tt := V.tt u.tt, core := V.core u.core, bg := V.bg u.bg, points := V.points u.points }) h
  | completions => exact View.see_of_sansTags hT (State.sansTags_of_sansEvents h)

theorem View.see_of_tt {u : Timetable} (h : V.tt u = V.tt s.tt) : V.see { s with tt := u } = V.see s := by
  unfold View.see View.over
  rw [h]
  cases V.told <;> rfl

theorem View.see_of_sansPlaces (hV : V.freePlaces) (h : t.sansPlaces = s.sansPlaces) : V.see t = V.see s := by
  rw [State.eq_of_sansPlaces h]
  exact View.see_of_tt (hV _ _ (congrArg State.tt h))

theorem View.see_of_bg {b : Budget} (h : V.bg b = V.bg s.bg) : V.see { s with bg := b } = V.see s := by
  unfold View.see View.over
  rw [h]
  cases V.told <;> rfl

theorem View.see_of_points {p : Points} (h : V.points p = V.points s.points) : V.see { s with points := p } = V.see s := by
  unfold View.see View.over
  rw [h]
  cases V.told <;> rfl

theorem View.see_of_core {c : Vector VCore 5} (h : V.core c = V.core s.core) : V.see { s with core := c } = V.see s := by
  unfold View.see View.over
  rw [h]
  cases V.told <;> rfl

end Sys2Proof.Machine
end

section
/-! SUPPORT. What an operation on one port leaves alone: its records, its attach, its bookings, its path (O58). -/

-- Declarations in turn: the stack of every thread counts toward the memory that the check allows the one text.
set_option Elab.async false

namespace Sys2Proof.Machine

variable {V : View} {s t : State}

/-! ### One port -/

/-- What `g` overwrites is no part of the view of its port. -/
def View.omits (V : View) (g : Port → Port → Port) : Prop := ∀ x p, V.own (g x p) = V.own p

theorem View.omits.own_eq {g : Port → Port → Port} (hV : V.omits g) {p q : Port} (h : g q p = q) : V.own q = V.own p := by
  rw [← h, hV]

/-- A change that `g` can make. -/
theorem View.omits.see_modPort {g : Port → Port → Port} (hV : V.omits g) {f : Port → Port}
    (hf : ∀ p, g (f p) p = f p := by intro; rfl) :
    V.see (s.modPort V.port f) = V.see s :=
  View.see_modPort fun p => hV.own_eq (hf p)

theorem View.see_modTc {f : TypeC → TypeC} (h : ∀ p : Port, V.own { p with tc := f p.tc } = V.own p := by intro; rfl) :
    V.see (s.modTc V.port f) = V.see s :=
  View.see_modPort h

theorem View.see_modPp {f : Path → Path} (h : ∀ p : Port, V.own { p with pp := f p.pp } = V.own p := by intro; rfl) :
    V.see (s.modPp V.port f) = V.see s :=
  View.see_modPort h

theorem View.see_modPd {f : Pd → Pd} (h : ∀ p : Port, V.own { p with pd := f p.pd } = V.own p := by intro; rfl) :
    V.see (s.modPd V.port f) = V.see s :=
  View.see_modPort h

theorem View.see_modCt {f : Contract → Contract} (h : ∀ p : Port, V.own { p with ct := f p.ct } = V.own p := by intro; rfl) :
    V.see (s.modCt V.port f) = V.see s :=
  View.see_modPort h

theorem View.see_modRs {f : Swap → Swap} (h : ∀ p : Port, V.own { p with rs := f p.rs } = V.own p := by intro; rfl) :
    V.see (s.modRs V.port f) = V.see s :=
  View.see_modPort h

theorem View.see_modAlt {f : Alt → Alt} (h : ∀ p : Port, V.own { p with alt := f p.alt } = V.own p := by intro; rfl) :
    V.see (s.modAlt V.port f) = V.see s :=
  View.see_modPort h

/-! ### Events, bookings and messages -/

theorem View.see_emit (hV : V.told.mayTell = true) (code source : BitVec 16) (payload : List Byte) :
    V.see (s.emit code source payload) = V.see s :=
  View.see_of_sansEvents hV (State.emit_sansEvents ..)

theorem View.see_bookPort (hV : V.freePlaces) (n : PortId) (k : Kind) (dur : Nat) (req : Option CT) (step : Int) (inc : Nat) :
    V.see (s.bookPort n k dur req step inc).1 = V.see s :=
  View.see_of_sansPlaces hV (State.bookPort_sansPlaces ..)

theorem View.see_bookPort_of (hV : V.freePlaces) {n : PortId} {k : Kind} {dur : Nat} {req : Option CT} {step : Int} {inc : Nat}
    {b : Booked} (h : s.bookPort n k dur req step inc = (t, b)) : V.see t = V.see s := by
  have ht := View.see_bookPort (V := V) (s := s) hV n k dur req step inc
  rwa [h] at ht

theorem Timetable.cancelWhere_sansPlaces (x : Timetable) (p : Entry → Bool) : (x.cancelWhere p).sansPlaces = x.sansPlaces :=
  List.foldlRecOn (motive := fun u : Timetable => u.sansPlaces = x.sansPlaces) _ _ rfl fun u hu i _ =>
    (Timetable.cancel_sansPlaces u i).trans hu

theorem View.see_cancelWhere (hV : V.freePlaces) (p : Entry → Bool) : V.see (s.cancelWhere p) = V.see s :=
  View.see_of_sansPlaces hV ((State.resettle_sansPlaces _).trans
    (congrArg (fun x : Timetable => { s with tt := x }) (Timetable.cancelWhere_sansPlaces s.tt p)))

theorem View.see_cancelEntry (hV : V.freePlaces) (n : PortId) (i : Option (Fin 256)) : V.see (s.cancelEntry n i) = V.see s := by
  unfold State.cancelEntry
  split
  · split
    · exact View.see_of_sansPlaces hV ((State.resettle_sansPlaces _).trans
        (congrArg (fun x : Timetable => { s with tt := x }) (Timetable.cancel_sansPlaces s.tt _)))
    · rfl
  · rfl

theorem View.see_sendMsg (ty : Sop) (b : PdBody) (ams : Bool)
    (h : ∀ p x, V.own { p with pd := { p.pd with outbox := x } } = V.own p := by intros; rfl) :
    V.see (s.sendMsg V.port ty b ams) = V.see s :=
  View.see_modPd fun p => h p _

theorem View.see_askHr (h : ∀ p x, V.own { p with pd := { p.pd with hrReq := x } } = V.own p := by intros; rfl) :
    V.see (s.askHr V.port) = V.see s :=
  View.see_modPd fun p => h p _

/-- A message at hand is taken out of the queue it stood in. -/
theorem View.see_takeMsg {ok : PdBody → Bool} {m : PdMsg} {e : Bool} (htake : s.takeMsg V.port ok = some (m, e, t))
    (h : ∀ p x y z, V.own { p with pd := { p.pd with rxq := x, rxDone := y, eng := z } } = V.own p := by intros; rfl) :
    V.see t = V.see s := by
  unfold State.takeMsg at htake
  dsimp only at htake
  split at htake
  · cases htake
    exact View.see_modPd fun p => h p _ _ _
  · split at htake
    · split at htake
      · cases htake
        exact View.see_modPd fun p => h p _ _ _
      · cases htake
    · split at htake
      · split at htake
        · cases htake
          exact View.see_modPd fun p => h p _ _ _
        · cases htake
      · cases htake

/-! ### The PATH of an attach -/

theorem View.see_load5 (h : ∀ p x y, V.own { p with pp := { p.pp with code := x, lim := y } } = V.own p := by intros; rfl) :
    V.see (s.load5 V.port) = V.see s :=
  View.see_modPp fun p => h p _ _

theorem View.see_bookPath (hV : V.freePlaces)
    (h : ∀ p x y r b, V.own { p with tc := { p.tc with pathRetry := r }, pp := { p.pp with code := x, lim := y },
                                     pd := { p.pd with hrPend := b } } = V.own p := by intros; rfl) :
    V.see (s.bookPath V.port) = V.see s := by
  have hload : V.see (if s.port[V.port].tc.st.isSource && !s.port[V.port].pp.st.live then s.load5 V.port else s) = V.see s := by
    split
    · exact View.see_load5 fun p x y => h p x y p.tc.pathRetry p.pd.hrPend
    · rfl
  unfold State.bookPath
  rw [← hload]
  generalize (if s.port[V.port].tc.st.isSource && !s.port[V.port].pp.st.live then s.load5 V.port else s) = u
  dsimp only
  split
  · exact View.see_modTc fun p => h p p.pp.code p.pp.lim _ p.pd.hrPend
  · exact (View.see_modPort fun p => h p p.pp.code p.pp.lim _ _).trans (View.see_bookPort hV ..)

/-! ### Unattached, attached, and the states between -/

theorem View.see_enterUnatt (hV : V.told.mayTell = true)
    (h : ∀ p x b, V.own { p with tc := x, pp := { p.pp with cen := b } } = V.own p) (dest : TcState) :
    V.see (s.enterUnatt V.port dest) = V.see s := by
  unfold State.enterUnatt
  dsimp only
  split
  · exact (View.see_emit hV ..).trans (View.see_modPort fun p => h p _ _)
  · exact View.see_modPort fun p => h p _ _

theorem View.see_toUnatt (hV : V.told.mayTell = true)
    (h : ∀ p x b, V.own { p with tc := x, pp := { p.pp with cen := b } } = V.own p) (snk : Bool) :
    V.see (s.toUnatt V.port snk) = V.see s :=
  View.see_enterUnatt hV h _

/-- A port with the fields that an attach changes taken from another. -/
def Port.overAttach (x p : Port) : Port :=
  { p with tc := x.tc, pp := x.pp, pd := x.pd, rs := x.rs, alt := x.alt
           ct := { p.ct with kind := x.ct.kind, mv := x.ct.mv, i10 := x.ct.i10, imax := x.ct.imax }
           ms := { p.ms with attaches := x.ms.attaches } }

/-- What the attach of a port changes is no part of the view. -/
structure View.FreeAttach (V : View) : Prop where
  tell : V.told.mayTell = true
  places : V.freePlaces
  own : V.omits Port.overAttach

theorem View.FreeAttach.see_modTc (hV : V.FreeAttach) (f : TypeC → TypeC) : V.see (s.modTc V.port f) = V.see s :=
  hV.own.see_modPort

theorem View.FreeAttach.see_unatt (hV : V.FreeAttach) (snk : Bool) : V.see (s.toUnatt V.port snk) = V.see s :=
  View.see_toUnatt hV.tell (fun _ _ _ => hV.own.own_eq rfl) snk

theorem View.FreeAttach.see_enterAttached (hV : V.FreeAttach) (st : TcState) (o : Orient) (pt : Partner) (ra : Bool) :
    V.see (s.enterAttached V.port st o pt ra) = V.see s := by
  unfold State.enterAttached
  exact (View.see_bookPath hV.places fun _ _ _ _ _ => hV.own.own_eq rfl).trans
    ((View.see_emit hV.tell ..).trans (hV.own.see_modPort))

theorem View.FreeAttach.see_toAudio (hV : V.FreeAttach) : V.see (s.toAudio V.port) = V.see s :=
  (View.see_emit hV.tell ..).trans (hV.see_modTc _)

/-- Each row of the end of tCCDebounce enters a state, waits for VBUS or leaves the port where it is. -/
theorem View.FreeAttach.see_ccDecide (hV : V.FreeAttach) (a b : CcRead) (vbus : Nat) :
    V.see (s.ccDecide V.port a b vbus) = V.see s := by
  cases hst : s.port[V.port].tc.st <;>
    simp only [State.ccDecide, hst, apply_ite V.see, State.toUnattHome, State.toAttSrc, State.toAttSnk, State.enterTry,
      State.waitVbus, hV.see_modTc, hV.see_unatt, hV.see_enterAttached, hV.see_toAudio, ite_self]

theorem View.FreeAttach.see_tryDecide (hV : V.FreeAttach) (a b : CcRead) (vbus : Nat) :
    V.see (s.tryDecide V.port a b vbus) = V.see s := by
  cases hst : s.port[V.port].tc.st <;>
    simp only [State.tryDecide, hst, apply_ite V.see, State.toAttSrc, State.toAttSnk, State.enterTry, State.waitVbus,
      hV.see_modTc, hV.see_enterAttached, ite_self]

end Sys2Proof.Machine
end

section
/-! SUPPORT. Answers that show the same; what VCONN, grants, the path's trim and messages leave alone (O58). -/

-- Declarations in turn: the stack of every thread counts toward the memory that the check allows the one text.
set_option Elab.async false

namespace Sys2Proof.Machine

variable {V : View} {s t : State}

/-! ### Answers -/

/-- The answer is a next state that shows the same. -/
def View.keeps (V : View) (o : Host.Outcome State Fault Refusal) (s : State) : Prop := ∃ t, o = .next t ∧ V.see t = V.see s

theorem View.keeps_next (h : V.see t = V.see s) : V.keeps (.next t) s := ⟨t, rfl, h⟩

theorem View.see_ite {c : Prop} {_ : Decidable c} {u : State} (ht : V.see t = V.see s) (hu : V.see u = V.see s) :
    V.see (if c then t else u) = V.see s := by
  split
  · exact ht
  · exact hu

theorem View.keeps_ite {c : Prop} {_ : Decidable c} (h : V.see t = V.see s) : V.keeps (.next (if c then t else s)) s :=
  View.keeps_next (View.see_ite h rfl)

/-- What is answered once a message is at hand. -/
theorem View.keeps_take {ok : PdBody → Bool} {m : PdMsg} {e : Bool} {o : Host.Outcome State Fault Refusal}
    (htake : s.takeMsg V.port ok = some (m, e, t))
    (hk : V.keeps o t)
    (h : ∀ p x y z, V.own { p with pd := { p.pd with rxq := x, rxDone := y, eng := z } } = V.own p := by intros; rfl) :
    V.keeps o s := by
  obtain ⟨u, hu, hsee⟩ := hk
  exact ⟨u, hu, hsee.trans (View.see_takeMsg htake h)⟩

/-- A view of every port takes in no more of another one. -/
theorem View.whole.see_at (hV : V.whole) (m : PortId)
    (h : View.see { V with port := m } t = View.see { V with port := m } s) : V.see t = V.see s := by
  rw [hV.see_eq m, hV.see_eq m, h]

/-! ### Parts that every view shows -/

@[simp] theorem View.see_chan (V : View) (s : State) : (V.see s).chan = s.chan := by
  unfold View.see View.over
  cases V.told <;> rfl

@[simp] theorem View.see_trips (V : View) (s : State) : (V.see s).trips = s.trips := by
  unfold View.see View.over
  cases V.told <;> rfl

theorem View.see_with_chan (h : V.see t = V.see s) (c : Vector Channel 128) :
    V.see { t with chan := c } = V.see { s with chan := c } := by
  have hset (u : State) : V.see { u with chan := c } = { V.see u with chan := c } := by
    unfold View.see View.over
    cases V.told <;> rfl
  rw [hset, hset, h]

theorem View.see_with_trips (h : V.see t = V.see s) (l : List TripNote) :
    V.see { t with trips := l } = V.see { s with trips := l } := by
  have hset (u : State) : V.see { u with trips := l } = { V.see u with trips := l } := by
    unfold View.see View.over
    cases V.told <;> rfl
  rw [hset, hset, h]

/-! ### VCONN -/

theorem View.see_vconnApply (h : ∀ p a b c, V.own { p with tc := { p.tc with vconnOn := a, vconnWait := b },
                                                           rs := { p.rs with vc := c } } = V.own p := by intros; rfl) :
    V.see (s.vconnApply V.port) = V.see s :=
  View.see_modPort fun p => h p _ _ _

theorem View.see_vconnAttach
    (h : ∀ p a b c d, V.own { p with tc := { p.tc with vconnOn := a, vconnWait := b },
                                     rs := { p.rs with vc := c, baseVc := d } } = V.own p := by intros; rfl) :
    V.see (s.vconnAttach V.port) = V.see s :=
  (View.see_modRs fun p => h p p.tc.vconnOn p.tc.vconnWait p.rs.vc _).trans
    (View.see_vconnApply fun p a b c => h p a b c p.rs.baseVc)

theorem View.see_eprNoVconn
    (h : ∀ p x e, V.own { p with pd := { p.pd with outbox := x, eprEntry := e } } = V.own p := by intros; rfl) :
    V.see (s.eprNoVconn V.port) = V.see s := by
  unfold State.eprNoVconn
  exact View.see_ite ((View.see_sendMsg _ _ _ fun p x => h p x p.pd.eprEntry).trans (View.see_modPd fun p => h p p.pd.outbox _)) rfl

theorem View.see_vconnRelease (hV : V.whole)
    (h : ∀ p a b c d x e, V.own { p with tc := { p.tc with vconnOn := a, vconnWait := b },
                                         rs := { p.rs with vc := c, baseVc := d },
                                         pd := { p.pd with outbox := x, eprEntry := e } } = V.own p := by intros; rfl) :
    V.see (s.vconnRelease V.port) = V.see s := by
  have hown (u : State) : V.see ((u.modPort V.port fun p =>
      { p with tc := { p.tc with vconnOn := false, vconnWait := false }, rs := { p.rs with vc := false } }).eprNoVconn V.port) =
      V.see u :=
    (View.see_eprNoVconn fun p x e => h p p.tc.vconnOn p.tc.vconnWait p.rs.vc p.rs.baseVc x e).trans
      (View.see_modPort fun p => h p _ _ _ p.rs.baseVc p.pd.outbox p.pd.eprEntry)
  unfold State.vconnRelease
  dsimp only
  split
  · split
    · next m _ =>
      exact (hV.see_at m (View.see_vconnAttach (V := { V with port := m }) fun p a b c d =>
        h p a b c d p.pd.outbox p.pd.eprEntry)).trans (hown s)
    · exact hown s
  · exact hown s

theorem View.see_vconnTry
    (h : ∀ p a b c d, V.own { p with tc := { p.tc with vconnOn := a, vconnWait := b },
                                     rs := { p.rs with vc := c, baseVc := d } } = V.own p := by intros; rfl) :
    V.see (s.vconnTry V.port) = V.see s := by
  unfold State.vconnTry
  exact View.see_ite
    (View.see_ite (View.see_vconnAttach h) (View.see_modTc fun p => h p p.tc.vconnOn _ p.rs.vc p.rs.baseVc)) rfl

/-! ### Grants, the path and its trim -/

/-- What a grant changes of the Timetable is no part of the view. -/
def View.freeGrants (V : View) : Prop := ∀ t e f, V.tt { t with entries := e, firedAt := f } = V.tt t

theorem View.see_fireEntry (hV : V.freeGrants) (i : Fin 256) : V.see (s.fireEntry i) = V.see s :=
  View.see_of_tt (hV _ _ _)

theorem View.see_trimGrant (hV : V.told.mayTell = true)
    (h : ∀ p x y c l b, V.own { p with pp := { p.pp with trim := x, trimPend := y, code := c, lim := l, trimLim := b } } = V.own p
      := by intros; rfl) :
    V.see (s.trimGrant V.port) = V.see s := by
  have happly (u : State) : V.see (u.modPp V.port Path.applyTrim) = V.see u :=
    View.see_modPp fun p => h p _ _ _ _ p.pp.trimLim
  have hlim (u : State) (b : Bool) : V.see (u.modPp V.port fun p => { p with trimLim := b }) = V.see u :=
    View.see_modPp fun p => h p p.pp.trim p.pp.trimPend p.pp.code p.pp.lim b
  unfold State.trimGrant
  exact View.see_ite rfl (View.see_ite ((View.see_emit hV ..).trans ((hlim ..).trans (happly s))) ((hlim ..).trans (happly s)))

theorem View.see_planStep
    (h : ∀ p x q, V.own { p with pp := x, ct := { p.ct with plan := q } } = V.own p := by intros; rfl) :
    V.see (s.planStep V.port) = V.see s := by
  unfold State.planStep
  split
  · rfl
  · exact View.see_modPort fun p => h p _ _

theorem View.see_closePath
    (h : ∀ p x b a, V.own { p with pp := { p.pp with st := x, closeFail := b, i2t := a } } = V.own p := by intros; rfl) :
    V.see (s.closePath V.port) = V.see s := by
  unfold State.closePath
  exact View.see_ite rfl (View.see_ite (View.see_modPp fun p => h p p.pp.st _ p.pp.i2t)
    (View.see_modPp fun p => h p _ p.pp.closeFail _))

theorem View.see_openBook (hV : V.freePlaces)
    (h : ∀ p x, V.own { p with tc := { p.tc with opening := x } } = V.own p := by intros; rfl) :
    V.see (s.openBook V.port) = V.see s :=
  (View.see_modTc fun p => h p _).trans (View.see_bookPort hV ..)

/-! ### Messages that waited -/

theorem View.see_sendWaited (b : PdBody)
    (h : ∀ p x y, V.own { p with pd := { p.pd with outbox := x, reqSent := y } } = V.own p := by intros; rfl) :
    V.see (s.sendWaited V.port b) = V.see s := by
  refine (View.see_sendMsg _ _ _ fun p x => h p x p.pd.reqSent).trans ?_
  cases b with
  | request r => exact View.see_modPd fun p => h p p.pd.outbox _
  | _ => exact View.see_modPd fun p => h p p.pd.outbox p.pd.reqSent

end Sys2Proof.Machine
end

section
/-! SUPPORT. What capabilities, a contract and its end leave alone (O58). -/

-- Declarations in turn: the stack of every thread counts toward the memory that the check allows the one text.
set_option Elab.async false

namespace Sys2Proof.Machine

variable {V : View} {s t : State}

/-! ### Capabilities (R290 to R305, R538) -/

/-- A port with what capabilities change of it taken from another. -/
def Port.overCaps (x p : Port) : Port :=
  { p with pd := { p.pd with outbox := x.pd.outbox, cacheSrc := x.pd.cacheSrc, cacheEprSrc := x.pd.cacheEprSrc
                             capsCnt := x.pd.capsCnt, objs := x.pd.objs }
           ct := { p.ct with shed := x.ct.shed, offer := x.ct.offer, waits := x.ct.waits, shedDue := x.ct.shedDue } }

/-- The invocations of the policy kernel, and what a kernel runs on, are no part of the view. -/
structure View.FreePolicy (V : View) : Prop where
  policy : ∀ b q, V.bg { b with policy := q } = V.bg b
  kernel : ∀ (v : Vector VCore 5) (c : CoreId) fw kn slot,
    V.core (v.set c { v[c] with fw := fw, kn := kn, slot := slot }) = V.core v

/-- What capabilities change is no part of the view. -/
structure View.FreeCaps (V : View) : Prop extends V.FreePolicy where
  queue : ∀ b q, V.bg { b with shedQueue := q } = V.bg b
  own : V.omits Port.overCaps

theorem View.FreePolicy.see_policyBegin (hV : V.FreePolicy) : V.see s.policyBegin = V.see s := by
  unfold State.policyBegin
  split
  · rfl
  · exact View.see_of_core (hV.kernel ..)

theorem View.FreePolicy.see_policyAsk (hV : V.FreePolicy) (ask : PolicyAsk) : V.see (s.policyAsk ask) = V.see s := by
  have hput : V.see { s with bg := { s.bg with policy := s.bg.policy ++ [ask] } } = V.see s := View.see_of_bg (hV.policy ..)
  exact View.see_ite (hV.see_policyBegin.trans hput) hput

theorem View.FreeCaps.see_capsSend (hV : V.FreeCaps) (op : Nat) : V.see (s.capsSend V.port op) = V.see s :=
  (View.see_sendMsg _ _ _ fun _ _ => hV.own.own_eq rfl).trans
    ((View.see_of_bg (hV.queue ..)).trans hV.own.see_modPort)

theorem View.FreeCaps.see_offerSend (hV : V.FreeCaps) : V.see (s.offerSend V.port) = V.see s :=
  View.see_ite (hV.see_policyAsk _) (hV.see_capsSend _)

theorem View.FreeCaps.see_riseSend (hV : V.FreeCaps) (op : Nat)
    (h : ∀ p x, V.own { p with ct := { p.ct with capsAt := x } } = V.own p := by intros; rfl) :
    V.see (s.riseSend V.port op) = V.see s :=
  View.see_ite ((hV.see_capsSend op).trans (View.see_modCt fun p => h p _)) rfl

theorem View.see_capsReply (epr : Bool) (op : Nat)
    (h : ∀ p x o, V.own { p with pd := x, ct := { p.ct with offer := o } } = V.own p := by intros; rfl) :
    V.see (s.capsReply V.port epr op) = V.see s :=
  (View.see_sendMsg _ _ _ fun p _ => h p _ p.ct.offer).trans
    ((View.see_modCt fun p => h p p.pd _).trans (View.see_modPd fun p => h p _ p.ct.offer))

theorem View.FreePolicy.see_capsAnswer (hV : V.FreePolicy) (b : PdBody)
    (h : ∀ p x o, V.own { p with pd := x, ct := { p.ct with offer := o } } = V.own p := by intros; rfl) :
    V.see (s.capsAnswer V.port b) = V.see s := by
  have hask (epr : Bool) : V.see (if (s.underTarget V.port).isNone && s.policyRuns then s.policyAsk (.answer V.port epr)
      else s.capsReply V.port epr (s.offerFor V.port)) = V.see s :=
    View.see_ite (hV.see_policyAsk _) (View.see_capsReply _ _ h)
  have hsnk (f : Pd → Pd) (x : PdBody) : V.see ((s.modPd V.port f).sendMsg V.port .sop x false) = V.see s :=
    (View.see_sendMsg _ _ _ fun p _ => h p _ p.ct.offer).trans (View.see_modPd fun p => h p _ p.ct.offer)
  cases b
  case getSourceCap => exact hask false
  case eprGetSourceCap => exact hask true
  all_goals exact hsnk _ _

/-! ### Requests (R302 to R313) -/

/-- A port with what the answer to a Request changes of it taken from another. -/
def Port.overRequest (x p : Port) : Port :=
  { p with pp := { p.pp with protPend := x.pp.protPend }
           pd := { p.pd with rxq := x.pd.rxq, rxDone := x.pd.rxDone, eng := x.pd.eng, outbox := x.pd.outbox
                             timers := x.pd.timers }
           ct := { p.ct with commit := x.ct.commit, plan := x.ct.plan, waits := x.ct.waits } }

/-- What the answer to a Request changes is no part of the view. -/
structure View.FreeRequest (V : View) : Prop where
  tell : V.told.mayTell = true
  places : V.freePlaces
  own : V.omits Port.overRequest

theorem View.FreeRequest.see_send (hV : V.FreeRequest) (b : PdBody) : V.see (s.sendMsg V.port .sop b false) = V.see s :=
  View.see_sendMsg _ _ _ fun _ _ => hV.own.own_eq rfl

theorem View.FreeRequest.see_answerReq (hV : V.FreeRequest) (b : PdBody) : V.see (s.answerReq V.port b) = V.see s :=
  (hV.see_send b).trans hV.own.see_modPort

theorem View.FreeRequest.see_waitReq (hV : V.FreeRequest) (budget : Bool) : V.see (s.waitReq V.port budget) = V.see s :=
  View.see_ite ((View.see_emit hV.tell ..).trans ((hV.see_send .wait).trans hV.own.see_modPort)) (hV.see_answerReq .wait)

theorem View.FreeRequest.see_planTake (hV : V.FreeRequest) (q : Plan) : V.see (s.planTake V.port q) = V.see s :=
  (hV.see_send .accept).trans (hV.own.see_modPort.trans (View.see_cancelWhere hV.places _))

theorem View.FreeRequest.see_evaluate (hV : V.FreeRequest) (r : Rdo) (kind : CtKind) (v1 i10 imax : Nat) :
    V.see (s.evaluate V.port r kind v1 i10 imax) = V.see s := by
  unfold State.evaluate
  refine View.see_ite (hV.see_waitReq true) (View.see_ite (hV.see_planTake _) ?_)
  dsimp only
  split
  · next u i f l hbook =>
    have hu : V.see u = V.see s := View.see_bookPort_of hV.places hbook
    exact View.see_ite ((hV.see_planTake _).trans hu) ((hV.see_waitReq false).trans ((View.see_cancelEntry hV.places _ _).trans hu))
  · exact hV.see_waitReq false

theorem View.FreeRequest.see_requestOne (hV : V.FreeRequest) : V.see (s.requestOne V.port) = V.see s := by
  unfold State.requestOne
  split
  · rfl
  · next m eng t htake =>
    refine Eq.trans ?_ (View.see_takeMsg htake fun _ _ _ _ => hV.own.own_eq rfl)
    refine View.see_ite (View.see_ite ?_ (hV.see_answerReq _)) (View.see_ite ?_ rfl)
    · split
      · exact hV.see_evaluate ..
      · rfl
    · split
      · exact hV.see_answerReq _
      · exact View.see_ite ((hV.see_evaluate ..).trans hV.own.see_modPort) (hV.see_waitReq false)

/-! ### The end of a shedding, of a contract and of a transition (R303, R306, R315) -/

/-- What shedding sets is no part of the view. -/
structure View.FreeShed (V : View) : Prop where
  tell : V.told.mayTell = true
  bg : ∀ b x q, V.bg { b with shedding := x, shedQueue := q } = V.bg b
  whole : V.whole
  own : ∀ p x y, V.own { p with ct := { p.ct with target := x, shedDue := y } } = V.own p

theorem View.FreeShed.see_shedEnd (hV : V.FreeShed) : V.see s.shedEnd = V.see s := by
  have hport (m : PortId) (u : State) : V.see (u.modCt m fun c =>
      if c.shedDue && c.therm.isNone then { c with target := none, shedDue := false } else c) = V.see u :=
    hV.whole.see_at m (View.see_modCt (V := { V with port := m }) fun p => by
      split
      · exact hV.own p _ _
      · rfl)
  refine View.see_ite ?_ rfl
  exact (View.see_of_sansEvents hV.tell (State.emitSt_sansEvents ..)).trans
    ((State.forPorts_same V.see _ hport _).trans (View.see_of_bg (hV.bg ..)))

/-- A contract ends, whatever the cancellation of its transition's booking changes. -/
theorem View.FreeShed.see_endContract (hV : V.FreeShed) (h : ∀ p x y z, V.own { p with pp := x, pd := y, ct := z } = V.own p)
    (hplan : ∀ q, s.port[V.port].ct.plan = some q → V.see (s.cancelEntry V.port q.entry) = V.see s) :
    V.see (s.endContract V.port) = V.see s := by
  refine hV.see_shedEnd.trans ((View.see_modPort fun p => h p _ _ _).trans ?_)
  split
  · next hq => exact hplan _ hq
  · rfl

/-- A port with what the end of a transition changes of it taken from another. -/
def Port.overDone (x p : Port) : Port :=
  { p with pp := { p.pp with prot := x.pp.prot, protPend := x.pp.protPend, ftPend := x.pp.ftPend, ftHold := x.pp.ftHold
                             assist := x.pp.assist }
           pd := { p.pd with outbox := x.pd.outbox, contract := x.pd.contract, ams := x.pd.ams, rdoEpr := x.pd.rdoEpr
                             period := x.pd.period }
           ct := x.ct }

theorem Path.loadFt_eq (p : Path) : p.loadFt = { p with ftPend := p.loadFt.ftPend, ftHold := p.loadFt.ftHold } := by
  unfold Path.loadFt
  split <;> rfl

theorem View.FreeShed.see_planDone (hV : V.FreeShed) (q : Plan) (h : V.omits Port.overDone) :
    V.see (s.planDone V.port q) = V.see s := by
  unfold State.planDone
  refine hV.see_shedEnd.trans ?_
  dsimp only
  generalize hsent : State.sendMsg _ V.port .sop .psRdy false = u
  have hu : V.see u = V.see s := by
    rw [← hsent]
    refine (View.see_sendMsg _ _ _ fun _ _ => h.own_eq rfl).trans (h.see_modPort fun p => ?_)
    cases p.pp.protPend with
    | none => rfl
    | some w =>
      dsimp only
      rw [Path.loadFt_eq]
      rfl
  exact View.see_ite hu ((View.see_emit hV.tell ..).trans hu)

end Sys2Proof.Machine
end

section
/-! SUPPORT. What the draw of a sink, a cancellation's owners and swaps leave alone (O58). -/

-- Declarations in turn: the stack of every thread counts toward the memory that the check allows the one text.
set_option Elab.async false

namespace Sys2Proof.Machine

variable {V : View} {s t : State}

/-! ### The draw of a sink (R324 to R327) -/

/-- A port with what the stop of its draw changes of it taken from another. -/
def Port.overStop (x p : Port) : Port :=
  { p with pd := { p.pd with outbox := x.pd.outbox, reqSent := x.pd.reqSent }
           ct := { p.ct with intended := x.ct.intended, stopFor := x.ct.stopFor, stopRetry := x.ct.stopRetry } }

theorem View.see_stopBook (hV : V.freePlaces) (b : PdBody) (h : V.omits Port.overStop := by intro _ _; rfl) :
    V.see (s.stopBook V.port b) = V.see s := by
  have hcancel : V.see (s.cancelKind V.port .sink) = V.see s := View.see_cancelWhere hV _
  refine View.see_ite ?_ ?_
  · exact (View.see_sendWaited b fun _ _ _ => h.own_eq rfl).trans ((View.see_modCt fun _ => h.own_eq rfl).trans hcancel)
  · exact (View.see_modCt fun _ => h.own_eq rfl).trans ((View.see_bookPort hV ..).trans hcancel)

theorem View.see_stopSend
    (h : ∀ p x y z, V.own { p with pd := { p.pd with outbox := x, reqSent := y }, ct := { p.ct with stopFor := z } } = V.own p
      := by intros; rfl) :
    V.see (s.stopSend V.port) = V.see s := by
  unfold State.stopSend
  split
  · exact View.see_ite ((View.see_sendWaited _ fun p x y => h p x y p.ct.stopFor).trans
      (View.see_modCt fun p => h p p.pd.outbox p.pd.reqSent _)) rfl
  · rfl

theorem View.see_sinkBook (hV : V.freePlaces) (n : PortId) : V.see (s.sinkBook n) = V.see s :=
  View.see_ite (View.see_bookPort hV ..) rfl

/-- A port with what the choice of a Request changes of it taken from another. -/
def Port.overSink (x p : Port) : Port :=
  { p with pd := x.pd
           ct := { p.ct with intended := x.ct.intended, stopFor := x.ct.stopFor, stopRetry := x.ct.stopRetry }
           rs := { p.rs with leaving := x.rs.leaving, entry := x.rs.entry, retry := x.rs.retry } }

theorem View.see_sinkRequest (r : Rdo) (h : V.omits Port.overSink := by intro _ _; rfl) :
    V.see (s.sinkRequest V.port r) = V.see s :=
  (View.see_sendMsg _ _ _ fun _ _ => h.own_eq rfl).trans h.see_modPort

theorem View.see_standbyLeave (hV : V.freePlaces) (b : PdBody) (h : V.omits Port.overSink := by intro _ _; rfl) :
    V.see (s.standbyLeave V.port b) = V.see s :=
  (View.see_modCt fun _ => h.own_eq rfl).trans
    ((View.see_modRs fun _ => h.own_eq rfl).trans (View.see_bookPort hV ..))

theorem View.see_sinkDecide (hV : V.freePlaces) (answer : Bool) (h : V.omits Port.overSink := by intro _ _; rfl) :
    V.see (s.sinkDecide V.port answer) = V.see s := by
  have hcancel : V.see ((s.cancelEntry V.port s.port[V.port].rs.entry).modRs V.port fun q => { q with entry := none }) = V.see s :=
    (View.see_modRs fun _ => h.own_eq rfl).trans (View.see_cancelEntry hV _ _)
  have hstop (u : State) (b : PdBody) : V.see (u.stopBook V.port b) = V.see u :=
    View.see_stopBook hV b fun _ _ => h.own_eq rfl
  unfold State.sinkDecide
  dsimp only
  split
  · rfl
  · refine View.see_ite (View.see_sinkRequest _ h) (View.see_ite (View.see_modCt fun _ => h.own_eq rfl)
      (View.see_ite (View.see_standbyLeave hV _ h) (View.see_ite ((View.see_sinkRequest _ h).trans hcancel) (View.see_ite ?_ ?_))))
    · exact (View.see_sinkRequest _ h).trans ((hstop _ _).trans hcancel)
    · exact (hstop _ _).trans hcancel

/-! ### Owners told of a cancellation (R25, R137) -/

/-- A port with what the loss of a booking changes of it taken from another. -/
def Port.overTold (x p : Port) : Port :=
  { p with tc := { p.tc with opening := x.tc.opening, pathRetry := x.tc.pathRetry }
           pd := { p.pd with hrReq := x.pd.hrReq }
           ct := { p.ct with stopRetry := x.ct.stopRetry }
           rs := { p.rs with entry := x.rs.entry, retry := x.rs.retry } }

theorem View.see_tellRole (h : V.omits Port.overTold) : V.see (s.tellRole V.port) = V.see s := by
  have hentry (f : Swap → Swap) (hf : ∀ r, f r = { r with entry := (f r).entry, retry := (f r).retry }) :
      V.see (s.modRs V.port f) = V.see s :=
    View.see_modRs fun p => by rw [hf]; exact h.own_eq rfl
  refine View.see_ite (View.see_ite ?_ rfl) (hentry _ fun _ => rfl)
  exact (View.see_askHr fun _ _ => h.own_eq rfl).trans (hentry _ fun _ => rfl)

theorem View.whole.see_tellOwner (hV : V.whole) (h : V.omits Port.overTold) (e : Entry) :
    V.see (s.tellOwner e) = V.see s := by
  unfold State.tellOwner
  split
  · next hport =>
    refine hV.see_at ⟨e.owner, hport⟩ ?_
    have hm : View.omits { V with port := ⟨e.owner, hport⟩ } Port.overTold := h
    dsimp only
    split
    · exact hm.see_modPort
    · exact hm.see_modPort
    · exact View.see_tellRole hm
    · exact hm.see_modPort
    · rfl
  · rfl

theorem View.whole.see_protCancel (hV : V.whole) (hp : V.freePlaces) (h : V.omits Port.overTold) (n : PortId) :
    V.see (s.protCancel n) = V.see s := by
  refine Eq.trans (State.foldl_keeps V.see _ (fun u i => ?_) _ _) (View.see_cancelWhere hp _)
  split
  · exact hV.see_tellOwner h _
  · rfl

/-! ### Swaps (R335 to R350) -/

theorem View.see_swapGo (c : SwapCode) (st : SwapStep)
    (h : ∀ p x y, V.own { p with rs := { p.rs with code := x, step := y } } = V.own p := by intros; rfl) :
    V.see (s.swapGo V.port c st) = V.see s :=
  View.see_modRs fun p => h p _ _

theorem View.see_swapStep (st : SwapStep)
    (h : ∀ p y, V.own { p with rs := { p.rs with step := y } } = V.own p := by intros; rfl) :
    V.see (s.swapStep V.port st) = V.see s :=
  View.see_modRs fun p => h p _

theorem View.see_bookRoleOff (hV : V.freePlaces) {ahead : CT} {limit : Nat} (hbook : s.bookRoleOff V.port ahead limit = some t)
    (h : ∀ p x, V.own { p with rs := { p.rs with entry := x } } = V.own p := by intros; rfl) : V.see t = V.see s := by
  unfold State.bookRoleOff at hbook
  dsimp only at hbook
  split at hbook
  · next u i f l hport =>
    split at hbook
    · cases hbook
      exact (View.see_modRs fun p => h p _).trans ((View.see_bookPort_of hV hport).trans (View.see_cancelWhere hV _))
    · cases hbook
  · cases hbook

/-- A port with what the Station's own request for a swap changes of it taken from another. -/
def Port.overAsk (x p : Port) : Port := { x.overStop p with rs := x.rs }

theorem View.see_swapAsk (hV : V.freePlaces) (k : SwapKind) (cmd : Option CmdRef) (h : V.omits Port.overAsk) :
    V.see (s.swapAsk V.port k cmd) = V.see s := by
  have hgo (c : SwapCode) : V.see ((s.modRs V.port fun r => { r with kind := some k, host := cmd }).swapGo V.port c .asked) =
      V.see s :=
    (View.see_swapGo _ _ fun _ _ _ => h.own_eq rfl).trans (View.see_modRs fun _ => h.own_eq rfl)
  have hsend (u : State) (b : PdBody) : V.see (u.sendMsg V.port .sop b true) = V.see u :=
    View.see_sendMsg _ _ _ fun _ _ => h.own_eq rfl
  cases k with
  | power =>
    exact View.see_ite ((hsend ..).trans (hgo _)) ((View.see_stopBook hV _ fun _ _ => h.own_eq rfl).trans (hgo _))
  | data => exact (hsend ..).trans (hgo _)
  | vconn => exact (hsend ..).trans (hgo _)

/-- A port with what a ROLE grant changes of it taken from another. -/
def Port.overRole (x p : Port) : Port :=
  { p with pp := x.pp, pd := x.pd, ct := x.ct
           rs := { p.rs with step := x.rs.step, stby := x.rs.stby, leaving := x.rs.leaving, entry := x.rs.entry
                             retry := x.rs.retry } }

theorem View.see_standbyEnd (code : BitVec 12) (h : V.omits Port.overRole) : V.see (s.standbyEnd V.port code) = V.see s := by
  unfold State.standbyEnd
  dsimp only
  split
  · exact (View.see_sendWaited _ fun _ _ _ => h.own_eq rfl).trans ((View.see_modCt fun _ => h.own_eq rfl).trans h.see_modPort)
  · exact h.see_modPort

theorem View.FreeShed.see_swapContractEnd (hV : V.FreeShed) (hp : V.freePlaces) (h : V.omits Port.overRole) :
    V.see (s.swapContractEnd V.port) = V.see s := by
  exact (View.see_modCt fun _ => h.own_eq rfl).trans
    (hV.see_endContract (fun _ _ _ _ => h.own_eq rfl) fun _ _ => View.see_cancelEntry hp _ _)

theorem View.see_rampRebook (hV : V.freePlaces)
    (h : ∀ p x q, V.own { p with pd := { p.pd with hrReq := x }, ct := { p.ct with plan := q } } = V.own p := by intros; rfl) :
    V.see (s.rampRebook V.port) = V.see s := by
  have hask : V.see (s.askHr V.port) = V.see s := View.see_askHr fun p x => h p x p.ct.plan
  unfold State.rampRebook
  dsimp only
  split
  · rfl
  · refine View.see_ite rfl ?_
    split
    · next hbook =>
      exact View.see_ite ((View.see_modCt fun p => h p p.pd.hrReq _).trans (View.see_bookPort_of hV hbook)) hask
    · exact hask

end Sys2Proof.Machine
end

section
/-! SUPPORT. What completions, scripts and the modes of a port leave alone (O58). -/

-- Declarations in turn: the stack of every thread counts toward the memory that the check allows the one text.
set_option Elab.async false

namespace Sys2Proof.Machine

variable {V : View} {s t : State}

/-! ### Completions and scripts (R363 to R370) -/

theorem View.see_completeOpt (hV : V.told = .completions) (r : Option CmdRef) (st : BitVec 16) (result : List Byte) :
    V.see (s.completeOpt r st result) = V.see s := by
  cases r with
  | none => rfl
  | some r => exact View.see_of_sansTags hV (State.complete_sansTags ..)

/-- The queue of scripts is no part of the view. -/
def View.freeQueue (V : View) : Prop := ∀ p q, V.points { p with queue := q } = V.points p

theorem View.see_queueScript (hV : V.freeQueue) (n : PortId) (ev : BitVec 4) : V.see (s.queueScript n ev) = V.see s := by
  unfold State.queueScript
  split
  · rfl
  · refine View.see_of_points ?_
    unfold Points.enqueue
    dsimp only
    split <;> exact hV ..

theorem View.see_reqScript (hV : V.freeQueue) (ev : BitVec 4)
    (h : ∀ p x y, V.own { p with alt := { p.alt with detPend := x, exitDue := y } } = V.own p := by intros; rfl) :
    V.see (s.reqScript V.port ev) = V.see s :=
  View.see_ite (View.see_ite (View.see_queueScript hV ..) (View.see_modAlt fun p => h p _ p.alt.exitDue))
    (View.see_ite (View.see_ite (View.see_modAlt fun p => h p p.alt.detPend _) rfl) (View.see_queueScript hV ..))

theorem View.see_hpdSee (hV : V.freeQueue) (high : Bool)
    (h : ∀ p x y a b, V.own { p with alt := { p.alt with detPend := x, exitDue := y, hpd := a, askStatus := b } } = V.own p
      := by intros; rfl) :
    V.see (s.hpdSee V.port high) = V.see s :=
  View.see_ite rfl ((View.see_reqScript hV _ fun p x y => h p x y p.alt.hpd p.alt.askStatus).trans
    (View.see_modAlt fun p => h p p.alt.detPend p.alt.exitDue _ _))

/-! ### Modes of a port (R357 to R371) -/

theorem View.see_vdmSend (step : AltStep) (c : VdmCmd) (svid : BitVec 16) (arg : Nat)
    (h : ∀ p x y, V.own { p with pd := { p.pd with outbox := x }, alt := { p.alt with step := y } } = V.own p := by intros; rfl) :
    V.see (s.vdmSend V.port step c svid arg) = V.see s :=
  (View.see_sendMsg _ _ _ fun p x => h p x p.alt.step).trans (View.see_modAlt fun p => h p p.pd.outbox _)

/-- A port with what modes change of it taken from another. -/
def Port.overModes (x p : Port) : Port := { p with pd := { p.pd with outbox := x.pd.outbox }, alt := x.alt }

/-- What modes change is no part of the view. -/
structure View.FreeModes (V : View) : Prop where
  told : V.told = .completions
  queue : V.freeQueue
  own : V.omits Port.overModes

theorem View.FreeModes.tell (hV : V.FreeModes) : V.told.mayTell = true := by rw [hV.told]; rfl

theorem View.FreeModes.see_modAlt (hV : V.FreeModes) (f : Alt → Alt) : V.see (s.modAlt V.port f) = V.see s :=
  hV.own.see_modPort

theorem View.FreeModes.see_altComplete (hV : V.FreeModes) : V.see (s.altComplete V.port) = V.see s :=
  (View.see_completeOpt hV.told ..).trans (hV.see_modAlt _)

theorem View.FreeModes.see_altEvent (hV : V.FreeModes) (n : PortId) (reason : Nat) : V.see (s.altEvent n reason) = V.see s :=
  View.see_emit hV.tell ..

theorem View.FreeModes.see_vdm (hV : V.FreeModes) (step : AltStep) (c : VdmCmd) (svid : BitVec 16) (arg : Nat) :
    V.see (s.vdmSend V.port step c svid arg) = V.see s :=
  View.see_vdmSend _ _ _ _ fun _ _ _ => hV.own.own_eq rfl

theorem View.FreeModes.see_script (hV : V.FreeModes) (ev : BitVec 4) : V.see (s.reqScript V.port ev) = V.see s :=
  View.see_reqScript hV.queue ev fun _ _ _ => hV.own.own_eq rfl

theorem View.FreeModes.see_altIdle (hV : V.FreeModes) : V.see (s.altIdle V.port) = V.see s :=
  hV.see_altComplete.trans (hV.see_modAlt _)

theorem View.FreeModes.see_entryDecide (hV : V.FreeModes) : V.see (s.entryDecide V.port) = V.see s := by
  have hnone : V.see ((s.modAlt V.port fun a => { a with noScript := true }).altIdle V.port) = V.see s :=
    hV.see_altIdle.trans (hV.see_modAlt _)
  refine View.see_ite hV.see_altIdle (View.see_ite (View.see_ite ?_ hnone) (View.see_ite (hV.see_vdm ..) hnone))
  exact (View.see_sendMsg _ _ _ fun _ _ => hV.own.own_eq rfl).trans (hV.see_modAlt _)

theorem View.FreeModes.see_modeEnd (hV : V.FreeModes) : V.see (s.modeEnd V.port) = V.see s :=
  View.see_ite rfl ((hV.see_altEvent ..).trans (hV.see_modAlt _))

theorem View.FreeModes.see_modeExit (hV : V.FreeModes) : V.see (s.modeExit V.port) = V.see s := by
  have hend : V.see ((s.modeEnd V.port).modAlt V.port fun a => { a with step := .idle }) = V.see s :=
    (hV.see_modAlt _).trans hV.see_modeEnd
  exact hV.see_altComplete.trans (View.see_ite ((hV.see_script 6).trans hend) hend)

theorem View.FreeModes.see_altLeave (hV : V.FreeModes) : V.see (s.altLeave V.port) = V.see s := by
  unfold State.altLeave
  split
  · rfl
  · exact hV.see_modeExit
  · exact View.see_ite ((hV.see_script 1).trans (hV.see_modAlt _)) (hV.see_vdm ..)

theorem View.FreeModes.see_enterFailed (hV : V.FreeModes) : V.see (s.enterFailed V.port) = V.see s :=
  hV.see_altComplete.trans ((hV.see_altEvent ..).trans (hV.see_modAlt _))

theorem View.FreeModes.see_modeEntered (hV : V.FreeModes) (m : AltMode) (pin : Fin 4) (step : AltStep) :
    V.see (s.modeEntered V.port m pin step) = V.see s :=
  hV.see_altComplete.trans ((hV.see_altEvent ..).trans (hV.see_modAlt _))

theorem View.FreeModes.see_vdmNone (hV : V.FreeModes) : V.see (s.vdmNone V.port) = V.see s := by
  cases hstep : s.port[V.port].alt.step <;> simp only [State.vdmNone, hstep, hV.see_entryDecide, hV.see_enterFailed,
    hV.see_modeExit, hV.see_altLeave, hV.see_altEvent, hV.see_modAlt]

theorem View.FreeModes.see_vdmAnswer (hV : V.FreeModes) (b : PdBody) : V.see (s.vdmAnswer V.port b) = V.see s := by
  unfold State.vdmAnswer
  dsimp only
  split
  · exact View.see_ite ((hV.see_vdm ..).trans (hV.see_modAlt _)) rfl
  · exact View.see_ite (View.see_ite (hV.see_vdm ..) hV.see_entryDecide) rfl
  · exact View.see_ite (hV.see_entryDecide.trans (hV.see_modAlt _)) rfl
  · exact View.see_ite rfl (View.see_ite ((hV.see_script 1).trans (hV.see_modeEntered ..))
      (View.see_ite (hV.see_vdm ..) hV.see_altIdle))
  · have hseen (st : Nat) : V.see (if s.port[V.port].alt.mode = .displayPort then s.hpdSee V.port (hpdOf st) else s) = V.see s :=
      View.see_ite (View.see_hpdSee hV.queue _ fun _ _ _ _ _ => hV.own.own_eq rfl) rfl
    exact View.see_ite ((hV.see_vdm ..).trans (hseen _)) (hseen _)
  · exact View.see_ite ((hV.see_script _).trans (hV.see_modAlt _)) rfl
  · exact View.see_ite hV.see_modeExit rfl
  · exact hV.see_vdmNone
  · exact hV.see_vdmNone
  · rfl

/-! ### Running scripts -/

/-- The queue of scripts and its running are no part of the view. -/
def View.freeScripts (V : View) : Prop := ∀ p q r d, V.points { p with queue := q, running := r, delay := d } = V.points p

theorem View.whole.see_scriptEnded (hV : V.whole) (hq : V.freeScripts)
    (h : ∀ p x y, V.own { p with pd := { p.pd with outbox := x }, alt := { p.alt with step := y } } = V.own p := by intros; rfl) :
    V.see s.scriptEnded = V.see s := by
  have hsend (u : State) (m : PortId) (step : AltStep) (c : VdmCmd) : V.see (u.vdmSend m step c 0xFF01 0) = V.see u :=
    hV.see_at m (View.see_vdmSend (V := { V with port := m }) _ _ _ _ h)
  unfold State.scriptEnded
  dsimp only
  split
  · rfl
  · next x l _ =>
    have hput : V.see { s with points := { s.points with queue := l, running := false, delay := false } } = V.see s :=
      View.see_of_points (hq ..)
    exact View.see_ite ((hsend ..).trans hput) (View.see_ite ((hsend ..).trans hput) hput)

theorem View.whole.see_scriptNext (hV : V.whole) (hq : V.freeScripts)
    (h : ∀ p x y, V.own { p with pd := { p.pd with outbox := x }, alt := { p.alt with step := y } } = V.own p := by intros; rfl) :
    V.see s.scriptNext = V.see s := by
  unfold State.scriptNext
  dsimp only
  split
  · rfl
  · have hput (x : Script) (l : List Script) :
        V.see { s with points := { s.points with queue := x :: l, delay := false } } = V.see s :=
      View.see_of_points (hq s.points (x :: l) s.points.running false)
    exact View.see_ite ((hV.see_scriptEnded hq h).trans (hput ..)) (hput ..)

theorem View.whole.see_scriptStopped (hV : V.whole) (hq : V.freeScripts)
    (h : ∀ p x y, V.own { p with pd := { p.pd with outbox := x }, alt := { p.alt with step := y } } = V.own p := by intros; rfl) :
    V.see s.scriptStopped = V.see s :=
  View.see_ite (hV.see_scriptEnded hq h) rfl

end Sys2Proof.Machine
end

section
/-! SUPPORT. What the end of an AMS, sending, Hard Reset and Discovery leave alone (O58). -/

-- Declarations in turn: the stack of every thread counts toward the memory that the check allows the one text.
set_option Elab.async false

namespace Sys2Proof.Machine

variable {V : View} {s t : State}

/-! ### The end of an AMS and of a swap (R273, R355) -/

theorem View.see_amsEnd
    (h : ∀ p a b x y, V.own { p with tc := { p.tc with rpOffer := x, blank := y }, pd := { p.pd with ams := a, sinkTxOk := b } } =
      V.own p := by intros; rfl) :
    V.see (s.amsEnd V.port) = V.see s := by
  refine View.see_modPort fun p => ?_
  dsimp only
  split
  · exact h p _ _ _ _
  · exact h p _ _ p.tc.rpOffer p.tc.blank

/-- A port with what the end of a swap changes of it taken from another. -/
def Port.overSwapEnd (x p : Port) : Port :=
  { p with tc := { p.tc with rpOffer := x.tc.rpOffer, blank := x.tc.blank }
           pd := { p.pd with ams := x.pd.ams, sinkTxOk := x.pd.sinkTxOk }
           rs := x.rs
           ms := { p.ms with swaps := x.ms.swaps } }

theorem View.see_swapEnd (hV : V.told = .completions) (result : Nat) (h : V.omits Port.overSwapEnd := by intro _ _; rfl) :
    V.see (s.swapEnd V.port result) = V.see s := by
  have htell : V.told.mayTell = true := by rw [hV]; rfl
  unfold State.swapEnd State.swapEndWith
  refine View.see_ite rfl ((View.see_completeOpt hV ..).trans ?_)
  dsimp only
  generalize hevent : State.emit _ _ _ _ = u
  have hu : V.see u = V.see s := by
    rw [← hevent]
    refine (View.see_emit htell ..).trans (h.see_modPort fun p => ?_)
    by_cases hdone : result = 0
    · rw [if_pos hdone]; rfl
    · rw [if_neg hdone]; rfl
  exact View.see_ite ((View.see_amsEnd fun _ _ _ _ _ => h.own_eq rfl).trans hu) hu

/-! ### Sending (R271 to R273) -/

theorem View.see_unsample
    (h : ∀ p x y, V.own { p with tc := { p.tc with blank := x }, pd := { p.pd with timers := y } } = V.own p := by intros; rfl) :
    V.see (s.unsample V.port) = V.see s :=
  View.see_ite (View.see_modPort fun p => h p _ _) rfl

/-- A port with what the beginning of a transmission changes of it taken from another. -/
def Port.overTxGo (x p : Port) : Port :=
  { p with pd := { p.pd with ctx := x.pd.ctx, ams := x.pd.ams, cable := x.pd.cable, timers := x.pd.timers }
           ct := { p.ct with rdyOut := x.ct.rdyOut } }

theorem View.see_txGo (m : OutMsg) (h : V.omits Port.overTxGo := by intro _ _; rfl) : V.see (s.txGo V.port m) = V.see s := by
  have hams : V.see (s.modPd V.port fun d => { d with ams := d.ams || m.ams }) = V.see s := View.see_modPd fun _ => h.own_eq rfl
  have hrdy : V.see (if m.body = .psRdy then (s.modPd V.port fun d => { d with ams := d.ams || m.ams }).rdySent V.port
      else s.modPd V.port fun d => { d with ams := d.ams || m.ams }) = V.see s :=
    View.see_ite ((View.see_modCt fun _ => h.own_eq rfl).trans hams) hams
  exact (View.see_modPd fun _ => h.own_eq rfl).trans (View.see_ite ((View.see_modPd fun _ => h.own_eq rfl).trans hrdy) hrdy)

/-! ### Discharge and Hard Reset (R239, R255, R282) -/

theorem View.see_openPath (disch trip prot : Bool)
    (h : ∀ p x y, V.own { p with pp := x, ms := { p.ms with trace := y } } = V.own p := by intros; rfl) :
    V.see (s.openPath V.port disch trip prot) = V.see s := by
  have hopen (f : Path → Path) : V.see (s.modPp V.port f) = V.see s := View.see_modPp fun p => h p _ p.ms.trace
  exact View.see_ite ((View.see_modPort fun p => h p p.pp _).trans (hopen _)) (hopen _)

theorem View.see_atSafe0v (h : ∀ p x, V.own { p with pd := { p.pd with timers := x } } = V.own p := by intros; rfl) :
    V.see (s.atSafe0v V.port) = V.see s :=
  View.see_ite (View.see_modPd fun p => h p _) rfl

theorem View.see_fellToSafe
    (h : ∀ p a b x o r y, V.own { p with tc := { p.tc with rpOffer := a, blank := b }, pp := x, pd := { p.pd with outbox := o }
                                         rs := { p.rs with step := r }
                                         ms := { p.ms with trace := y } } = V.own p := by intros; rfl) :
    V.see (s.fellToSafe V.port) = V.see s :=
  (View.see_sendMsg _ _ _ fun p o => h p p.tc.rpOffer p.tc.blank p.pp o p.rs.step p.ms.trace).trans
    ((View.see_swapStep _ fun p r => h p p.tc.rpOffer p.tc.blank p.pp p.pd.outbox r p.ms.trace).trans
      ((View.see_modPort fun p => h p _ _ _ p.pd.outbox p.rs.step p.ms.trace).trans
        (View.see_openPath _ _ _ fun p x y => h p p.tc.rpOffer p.tc.blank x p.pd.outbox p.rs.step y)))

/-- LOCKOFF tells of itself, or leaves it to the event of a trip of the tick. -/
theorem View.see_dischargeDone (hV : V.told.mayTell = true)
    (h : ∀ p x, V.own { p with pp := x } = V.own p := by intros; rfl) :
    V.see (s.dischargeDone V.port) = V.see { s with trips := (s.dischargeDone V.port).trips } := by
  have hmod (u : State) (f : Path → Path) : V.see (u.modPp V.port f) = V.see u := View.see_modPp fun p => h p _
  have hdone : ∃ l, V.see (s.dischargeDone V.port) = V.see { s with trips := l } := by
    unfold State.dischargeDone State.lockoffCheck
    dsimp only
    split
    · split
      · exact ⟨_, View.see_with_trips ((hmod ..).trans (hmod s _)) _⟩
      · exact ⟨s.trips, (View.see_emit hV ..).trans ((hmod ..).trans (hmod s _))⟩
    · exact ⟨s.trips, hmod s _⟩
  obtain ⟨l, hl⟩ := hdone
  have htrips : (s.dischargeDone V.port).trips = l := by simpa using congrArg State.trips hl
  rw [htrips, hl]

theorem View.see_hrStep4 (hp : V.freePlaces) (hq : V.freeQueue)
    (h : ∀ p x y c l r b, V.own { p with tc := { p.tc with pathRetry := r }, pp := { p.pp with code := c, lim := l }
                                         pd := { p.pd with hrPend := b }
                                         alt := { p.alt with detPend := x, exitDue := y } } = V.own p := by intros; rfl) :
    V.see (s.hrStep4 V.port) = V.see s := by
  refine (View.see_bookPath hp fun p c l r b => h p p.alt.detPend p.alt.exitDue c l r b).trans (View.see_ite ?_ rfl)
  exact (View.see_reqScript hq _ fun p x y => h p x y p.pp.code p.pp.lim p.tc.pathRetry p.pd.hrPend).trans
    (View.see_modAlt fun p => h p p.alt.detPend _ p.pp.code p.pp.lim p.tc.pathRetry p.pd.hrPend)

/-! ### Discovery (R359) -/

theorem View.see_discoveryGo
    (h : ∀ p o a b c d e, V.own { p with pd := { p.pd with outbox := o }
                                         alt := { p.alt with noScript := a, step := b, partnerUsb4 := c, tried := d, pins := e } } =
      V.own p := by intros; rfl) :
    V.see (s.discoveryGo V.port) = V.see s :=
  (View.see_vdmSend _ _ _ _ fun p o b => h p o p.alt.noScript b p.alt.partnerUsb4 p.alt.tried p.alt.pins).trans
    (View.see_modAlt fun p => h p p.pd.outbox _ p.alt.step _ _ _)

end Sys2Proof.Machine
end

section
/-! SUPPORT. What a view that stays the same says of the state and of its ports (O58). -/

-- Declarations in turn: the stack of every thread counts toward the memory that the check allows the one text.
set_option Elab.async false

namespace Sys2Proof.Machine

/-! ### What a view that stays the same says of the state -/

/-- The ports but one are seen as they are, or every port as that one. -/
def View.tame (V : View) : Prop := V.others = id ∨ V.whole

theorem View.other_of_see {V : View} {s t : State} (hV : V.others = id) (h : V.see t = V.see s) {m : PortId} (hm : m ≠ V.port) :
    t.port[m] = s.port[m] := by
  have hports : V.ports t.port = V.ports s.port := congrArg State.port h
  have hne : V.port.val ≠ m.val := fun he => hm (Fin.ext he.symm)
  have hat := congrArg (fun v : Vector Port 24 => v[m]) hports
  simpa [View.ports, hV, hne] using hat

theorem View.own_of_see {V : View} {s t : State} (hV : V.tame) (h : V.see t = V.see s) (m : PortId) :
    V.own t.port[m] = V.own s.port[m] := by
  have hports : V.ports t.port = V.ports s.port := congrArg State.port h
  cases hV with
  | inr hwhole =>
    rw [hwhole.ports, hwhole.ports] at hports
    exact Vector.getElem_of_map_eq hports m
  | inl hid =>
    by_cases hm : m = V.port
    · subst hm
      simpa [View.ports] using congrArg (fun v : Vector Port 24 => v[V.port]) hports
    · rw [View.other_of_see hid h hm]

/-- Where every view of a family stays the same, a port keeps what a view of it omits. -/
theorem View.port_of_sees {W : Port → View} {s t : State} (h : ∀ x, (W x).see t = (W x).see s) (hW : ∀ x, (W x).tame)
    (hself : ∀ p, (W p).own p = p) (m : PortId) : t.port[m] = (W t.port[m]).own s.port[m] := by
  rw [← View.own_of_see (hW _) (h _), hself]

theorem View.keeps_all {W : Port → View} {o : Host.Outcome State Fault Refusal} {s : State} (h : ∀ x, (W x).keeps o s) :
    ∃ t, o = .next t ∧ ∀ x, (W x).see t = (W x).see s := by
  obtain ⟨t, ht, -⟩ := h Port.reset
  refine ⟨t, ht, fun x => ?_⟩
  obtain ⟨u, hu, hsee⟩ := h x
  cases ht.symm.trans hu
  exact hsee

/-! ### What the commands of one port leave alone -/

section
variable {o : Host.Outcome State Fault Refusal} {s : State} {n : PortId} {g : Port → Port → Port}
  {Q : State → PortId → Prop}

/-- Only the port of the command changes. -/
theorem frame_port (h : ∀ x, View.keeps { port := n, own := g x } o s)
    (hQ : ∀ t m, t.port[m] = g t.port[m] s.port[m] → Q t m := by intro _ _ hm; rw [hm]; and_intros <;> rfl)
    (hself : ∀ p, g p p = p := by intro; rfl) :
    ∃ t, o = .next t ∧ t = { s with port := t.port } ∧ (∀ m, Q t m) ∧ ∀ m, m ≠ n → t.port[m] = s.port[m] := by
  obtain ⟨t, ht, hsee⟩ := View.keeps_all h
  exact ⟨t, ht, congrArg (fun u : State => { u with port := t.port }) (hsee s.port[n]),
    fun m => hQ t m (View.port_of_sees hsee (fun _ => Or.inl rfl) hself m), fun m hm => View.other_of_see rfl (hsee s.port[n]) hm⟩

/-- Only ports change. -/
theorem frame_ports (h : ∀ x, View.keeps { port := n, own := g x, others := g x } o s)
    (hQ : ∀ t m, t.port[m] = g t.port[m] s.port[m] → Q t m := by intro _ _ hm; rw [hm]; and_intros <;> rfl)
    (hself : ∀ p, g p p = p := by intro; rfl) :
    ∃ t, o = .next t ∧ t = { s with port := t.port } ∧ ∀ m, Q t m := by
  obtain ⟨t, ht, hsee⟩ := View.keeps_all h
  exact ⟨t, ht, congrArg (fun u : State => { u with port := t.port }) (hsee s.port[n]),
    fun m => hQ t m (View.port_of_sees hsee (fun _ => Or.inr rfl) hself m)⟩

/-- The port of the command changes, and events are told. -/
theorem frame_events (h : ∀ x, View.keeps { port := n, own := g x, told := .events } o s)
    (hQ : ∀ t m, t.port[m] = g t.port[m] s.port[m] → Q t m := by intro _ _ hm; rw [hm]; and_intros <;> rfl)
    (hself : ∀ p, g p p = p := by intro; rfl) :
    ∃ t, o = .next t ∧ t = { s with port := t.port, host := t.host, ssn := t.ssn, resume := t.resume, seqTick := t.seqTick
                                    store := t.store } ∧
      (∀ m, Q t m) ∧ State.onlyEvents s t ∧ ∀ m, m ≠ n → t.port[m] = s.port[m] := by
  obtain ⟨t, ht, hsee⟩ := View.keeps_all h
  exact ⟨t, ht, congrArg (fun u : State => { u with port := t.port, host := t.host, ssn := t.ssn, resume := t.resume
                                                    seqTick := t.seqTick, store := t.store }) (hsee s.port[n]),
    fun m => hQ t m (View.port_of_sees hsee (fun _ => Or.inl rfl) hself m),
    HostFe.eq_of_sansEvents (congrArg State.host (hsee s.port[n])), fun m hm => View.other_of_see rfl (hsee s.port[n]) hm⟩

/-- The port of the command changes and bookings are made. -/
theorem frame_places (h : ∀ x, View.keeps { port := n, own := g x, tt := Timetable.sansPlaces } o s)
    (hQ : ∀ t m, t.port[m] = g t.port[m] s.port[m] → Q t m := by intro _ _ hm; rw [hm]; and_intros <;> rfl)
    (hself : ∀ p, g p p = p := by intro; rfl) :
    ∃ t, o = .next t ∧ t = { s with tt := t.tt, port := t.port } ∧ State.onlyPlaces s t ∧ (∀ m, Q t m) ∧
      ∀ m, m ≠ n → t.port[m] = s.port[m] := by
  obtain ⟨t, ht, hsee⟩ := View.keeps_all h
  exact ⟨t, ht, congrArg (fun u : State => { u with tt := t.tt, port := t.port }) (hsee s.port[n]),
    Timetable.eq_of_sansPlaces (congrArg State.tt (hsee s.port[n])),
    fun m => hQ t m (View.port_of_sees hsee (fun _ => Or.inl rfl) hself m), fun m hm => View.other_of_see rfl (hsee s.port[n]) hm⟩

/-- The port of the command changes, bookings are made and events told. -/
theorem frame_placesEvents (h : ∀ x, View.keeps { port := n, own := g x, told := .events, tt := Timetable.sansPlaces } o s)
    (hQ : ∀ t m, t.port[m] = g t.port[m] s.port[m] → Q t m := by intro _ _ hm; rw [hm]; and_intros <;> rfl)
    (hself : ∀ p, g p p = p := by intro; rfl) :
    ∃ t, o = .next t ∧ t = { s with tt := t.tt, port := t.port, host := t.host, ssn := t.ssn, resume := t.resume
                                    seqTick := t.seqTick, store := t.store } ∧
      State.onlyPlaces s t ∧ (∀ m, Q t m) ∧ State.onlyEvents s t ∧ ∀ m, m ≠ n → t.port[m] = s.port[m] := by
  obtain ⟨t, ht, hsee⟩ := View.keeps_all h
  exact ⟨t, ht, congrArg (fun u : State => { u with tt := t.tt, port := t.port, host := t.host, ssn := t.ssn, resume := t.resume
                                                    seqTick := t.seqTick, store := t.store }) (hsee s.port[n]),
    Timetable.eq_of_sansPlaces (congrArg State.tt (hsee s.port[n])),
    fun m => hQ t m (View.port_of_sees hsee (fun _ => Or.inl rfl) hself m),
    HostFe.eq_of_sansEvents (congrArg State.host (hsee s.port[n])), fun m hm => View.other_of_see rfl (hsee s.port[n]) hm⟩

/-- The Timetable but for what a grant changes of it. -/
def Timetable.sansGrants (t : Timetable) : Timetable := { t with entries := Vector.replicate 256 none, firedAt := none }

/-- A grant fires: the port of the command changes, and events are told. -/
theorem frame_grant (h : ∀ x, View.keeps { port := n, own := g x, told := .events, tt := Timetable.sansGrants } o s)
    (hQ : ∀ t m, t.port[m] = g t.port[m] s.port[m] → Q t m := by intro _ _ hm; rw [hm]; and_intros <;> rfl)
    (hself : ∀ p, g p p = p := by intro; rfl) :
    ∃ t, o = .next t ∧ t = { s with tt := t.tt, port := t.port, host := t.host, ssn := t.ssn, resume := t.resume
                                    seqTick := t.seqTick, store := t.store } ∧
      t.tt = { s.tt with entries := t.tt.entries, firedAt := t.tt.firedAt } ∧ (∀ m, Q t m) ∧ State.onlyEvents s t ∧
      ∀ m, m ≠ n → t.port[m] = s.port[m] := by
  obtain ⟨t, ht, hsee⟩ := View.keeps_all h
  exact ⟨t, ht, congrArg (fun u : State => { u with tt := t.tt, port := t.port, host := t.host, ssn := t.ssn, resume := t.resume
                                                    seqTick := t.seqTick, store := t.store }) (hsee s.port[n]),
    congrArg (fun u : State => { u.tt with entries := t.tt.entries, firedAt := t.tt.firedAt }) (hsee s.port[n]),
    fun m => hQ t m (View.port_of_sees hsee (fun _ => Or.inl rfl) hself m),
    HostFe.eq_of_sansEvents (congrArg State.host (hsee s.port[n])), fun m hm => View.other_of_see rfl (hsee s.port[n]) hm⟩

end

variable {V : View}

theorem freePlaces_sansPlaces (hV : V.tt = Timetable.sansPlaces := by rfl) : V.freePlaces := fun _ _ h => by rw [hV, h]

theorem freeGrants_sansGrants (hV : V.tt = Timetable.sansGrants := by rfl) : V.freeGrants := fun _ _ _ => by rw [hV]; rfl

end Sys2Proof.Machine
end

section
/-! SUPPORT. What the commands of a port's attach leave alone (O58). -/

-- Declarations in turn: the stack of every thread counts toward the memory that the check allows the one text.
set_option Elab.async false

namespace Sys2Proof.Machine

/-! ### Opening and the readings of an unattached port (R206 to R219, R241) -/

theorem State.programPort_chan (s : State) (n : PortId) : ∃ c, s.programPort n = { s with chan := c } := by
  have hpolicy : ∃ c, s.programPolicy (platOf n) = { s with chan := c } :=
    List.foldlRecOn (motive := fun u : State => ∃ c, u = { s with chan := c }) _ _ ⟨s.chan, rfl⟩ fun u hu j _ => by
      obtain ⟨c, rfl⟩ := hu
      exact ⟨_, rfl⟩
  obtain ⟨c, hc⟩ := hpolicy
  unfold State.programPort
  rw [hc]
  exact ⟨_, rfl⟩

/-- A port with what its opening changes of it taken from another. -/
def Port.overOpen (x p : Port) : Port :=
  { p with tc := { p.tc with lfsr := x.tc.lfsr, opening := x.tc.opening }
           pp := { p.pp with rEst := x.pp.rEst, rc := x.pp.rc } }

theorem View.see_portOpen {V : View} (hV : V.freePlaces) (s : State) (h : V.omits Port.overOpen) :
    V.see (s.portOpen V.port) = V.see { s with chan := (s.portOpen V.port).chan } := by
  have hopen : ∃ c, V.see (s.portOpen V.port) = V.see { s with chan := c } := by
    unfold State.portOpen
    dsimp only
    generalize hseed : State.modPort _ _ _ = u
    obtain ⟨c, hc⟩ := u.programPort_chan V.port
    refine ⟨c, (View.see_openBook hV fun _ _ => h.own_eq rfl).trans ?_⟩
    rw [hc]
    refine View.see_with_chan ?_ c
    rw [← hseed]
    refine h.see_modPort fun p => ?_
    by_cases hknown : p.pp.rKnown = true
    · rw [if_pos hknown]; rfl
    · rw [if_neg hknown]; rfl
  obtain ⟨c, hc⟩ := hopen
  have hchan : (s.portOpen V.port).chan = c := by simpa using congrArg State.chan hc
  rw [hchan, hc]

theorem execPortOpen_see (n : PortId) (s : State) :
    ∃ c, ∀ x : Port, View.keeps { port := n, own := x.overOpen, tt := Timetable.sansPlaces } (exec (.portOpen n) s)
      { s with chan := c } := by
  show ∃ c, ∀ x : Port, View.keeps _ (execPortOpen n s) _
  unfold execPortOpen
  split
  · exact ⟨(s.portOpen n).chan, fun x => View.keeps_next
      (View.see_portOpen (V := { port := n, own := x.overOpen, tt := Timetable.sansPlaces }) freePlaces_sansPlaces s
        fun _ _ => rfl)⟩
  · exact ⟨s.chan, fun _ => View.keeps_next rfl⟩

theorem execConverterPowerGood_see (x : Port) (n : PortId) (undet : Bool) (s : State) :
    View.keeps { port := n, own := fun p => { p with tc := x.tc, pp := { p.pp with cen := x.pp.cen, cpg := x.pp.cpg } }
                 told := .events } (exec (.converterPowerGood n undet) s) s :=
  View.keeps_next ((View.see_ite ((View.see_toUnatt rfl (fun _ _ _ => rfl) true).trans View.see_modTc) rfl).trans View.see_modPp)

/-- A port with what the return to an Unattached state changes of it taken from another. -/
def Port.overUnatt (x p : Port) : Port := { p with tc := x.tc, pp := { p.pp with cen := x.pp.cen } }

theorem execCcDetect_see (x : Port) (n : PortId) (mv1 mv2 : Nat) (s : State) :
    View.keeps { port := n, own := x.overUnatt, told := .events } (exec (.ccDetect n mv1 mv2) s) s := by
  show View.keeps _ (execCcDetect n mv1 mv2 s) s
  unfold execCcDetect
  dsimp only
  split
  · exact View.keeps_next rfl
  · refine View.keeps_next (Eq.trans ?_ (View.see_modTc (f := fun t =>
      { t with cc1 := s.port[n].tc.readCc mv1, cc2 := s.port[n].tc.readCc mv2 })))
    split
    · exact View.see_ite View.see_modTc rfl
    · exact View.see_ite View.see_modTc rfl
    · exact View.see_ite (View.see_toUnatt rfl (fun _ _ _ => rfl) true) rfl
    · exact View.see_ite View.see_modTc rfl

theorem execComparatorBlankEnd_see (x : Port) (n : PortId) (s : State) :
    View.keeps { port := n, own := fun p => { p with tc := { p.tc with blank := x.tc.blank } } }
      (exec (.comparatorBlankEnd n) s) s :=
  View.keeps_next View.see_modTc

/-- A port with what a step of its thresholds changes of it taken from another. -/
def Port.overStep (x p : Port) : Port :=
  { p with tc := { p.tc with blank := x.tc.blank, sinkStep := x.tc.sinkStep, rpRound := x.tc.rpRound, rpPend := x.tc.rpPend } }

theorem execSinkThresholdStep_see (x : Port) (n : PortId) (mv : Nat) (s : State) :
    View.keeps { port := n, own := x.overStep } (exec (.sinkThresholdStep n mv) s) s := by
  refine View.keeps_ite (View.see_modTc fun p => ?_)
  dsimp only
  split <;> rfl

/-- A port with what a change of its partner's Rp level changes of it taken from another. -/
def Port.overLevel (x p : Port) : Port :=
  { p with tc := { p.tc with rpSeen := x.tc.rpSeen, rpPend := x.tc.rpPend }
           pp := { p.pp with prot := x.pp.prot, ftPend := x.pp.ftPend, ftHold := x.pp.ftHold }
           ct := { p.ct with imax := x.ct.imax } }

theorem execRpLevelChange_see (x : Port) (n : PortId) (s : State) :
    View.keeps { port := n, own := x.overLevel } (exec (.rpLevelChange n) s) s := by
  refine View.keeps_next (View.see_modPort fun p => ?_)
  split
  · split
    · dsimp only
      split
      · rw [Path.loadFt_eq]; rfl
      · rfl
    · rfl
  · rfl

theorem execTSrcEnd_see (x : Port) (n : PortId) (s : State) :
    View.keeps { port := n, own := x.overUnatt, told := .events } (exec (.tSrcEnd n) s) s :=
  View.keeps_ite (View.see_toUnatt rfl (fun _ _ _ => rfl) true)

/-! ### The debounces and the Try states (R213, R231) -/

theorem freeAttach (x : Port) (n : PortId) :
    View.FreeAttach { port := n, own := x.overAttach, told := .events, tt := Timetable.sansPlaces } :=
  ⟨rfl, freePlaces_sansPlaces, fun _ _ => rfl⟩

theorem execTccdebounce_see (x : Port) (n : PortId) (cc1 cc2 vbus : Nat) (s : State) :
    View.keeps { port := n, own := x.overAttach, told := .events, tt := Timetable.sansPlaces }
      (exec (.tccdebounce n cc1 cc2 vbus) s) s :=
  View.keeps_next ((View.see_ite View.see_modTc ((freeAttach x n).see_ccDecide ..)).trans View.see_modTc)

theorem execTtryccdebounce_see (x : Port) (n : PortId) (cc1 cc2 vbus : Nat) (s : State) :
    View.keeps { port := n, own := x.overAttach, told := .events, tt := Timetable.sansPlaces }
      (exec (.ttryccdebounce n cc1 cc2 vbus) s) s :=
  View.keeps_next ((View.see_ite View.see_modTc ((freeAttach x n).see_tryDecide ..)).trans View.see_modTc)

theorem execVbusSafe0v_see (x : Port) (n : PortId) (mv : Nat) (s : State) :
    View.keeps { port := n, own := x.overAttach, told := .events, tt := Timetable.sansPlaces } (exec (.vbusSafe0v n mv) s) s :=
  View.keeps_ite (View.see_ite View.see_modTc ((freeAttach x n).see_ccDecide ..))

theorem execTpddebounce_see (x : Port) (n : PortId) (s : State) :
    View.keeps { port := n, own := x.overUnatt, told := .events } (exec (.tpddebounce n) s) s := by
  have hhome : View.see { port := n, own := x.overUnatt, told := .events } ((s.setCc n .opn .opn).toUnattHome n) = View.see _ s :=
    (View.see_toUnatt rfl (fun _ _ _ => rfl) true).trans View.see_modTc
  refine View.keeps_next ?_
  split
  · exact hhome
  · exact hhome
  · exact hhome
  · rfl

theorem View.see_tryEnd {V : View} {s : State} (hV : V.told.mayTell = true) (h : V.omits Port.overUnatt) :
    V.see (s.tryEnd V.port) = V.see s := by
  have hmod (f : TypeC → TypeC) : V.see (s.modTc V.port f) = V.see s := h.see_modPort
  unfold State.tryEnd
  dsimp only
  split
  · exact View.see_ite (hmod _) (hmod _)
  · exact View.see_ite (hmod _) (hmod _)
  · exact View.see_ite (hmod _) (View.see_toUnatt hV (fun _ _ _ => h.own_eq rfl) true)
  · rfl

theorem execTdrptry_see (x : Port) (n : PortId) (s : State) :
    View.keeps { port := n, own := x.overUnatt, told := .events } (exec (.tdrptry n) s) s :=
  View.keeps_next (View.see_ite View.see_modTc (View.see_tryEnd rfl fun _ _ => rfl))

theorem execTtrytimeout_see (x : Port) (n : PortId) (s : State) :
    View.keeps { port := n, own := x.overUnatt, told := .events } (exec (.ttrytimeout n) s) s := by
  have hunatt : View.see { port := n, own := x.overUnatt, told := .events } (s.toUnatt n true) = View.see _ s :=
    View.see_toUnatt rfl (fun _ _ _ => rfl) true
  refine View.keeps_next (View.see_ite rfl ?_)
  split
  · exact hunatt
  · exact hunatt
  · rfl

theorem execTerrorrecovery_see (x : Port) (n : PortId) (s : State) :
    View.keeps { port := n, own := x.overUnatt, told := .events } (exec (.terrorrecovery n) s) s :=
  View.keeps_ite (View.see_toUnatt rfl (fun _ _ _ => rfl) true)

/-! ### PATH and VCONN of an attach (R220, R226) -/

/-- A port with what a PATH booking changes of it taken from another. -/
def Port.overBookPath (x p : Port) : Port :=
  { p with tc := { p.tc with pathRetry := x.tc.pathRetry }
           pp := { p.pp with code := x.pp.code, lim := x.pp.lim }
           pd := { p.pd with hrPend := x.pd.hrPend } }

theorem execPathBookingRetry_see (x : Port) (n : PortId) (s : State) :
    View.keeps { port := n, own := x.overBookPath, tt := Timetable.sansPlaces } (exec (.pathBookingRetry n) s) s :=
  View.keeps_ite (View.see_bookPath freePlaces_sansPlaces)

/-- A port with what an overcurrent of VCONN changes of it taken from another. -/
def Port.overVconnOc (x p : Port) : Port :=
  { p with tc := { p.tc with vconnOn := x.tc.vconnOn, vconnWait := x.tc.vconnWait, vconnOc := x.tc.vconnOc
                             vconnOff := x.tc.vconnOff }
           pd := { p.pd with outbox := x.pd.outbox, eprEntry := x.pd.eprEntry, hrReq := x.pd.hrReq }
           rs := { p.rs with vc := x.rs.vc, baseVc := x.rs.baseVc, fail := x.rs.fail } }

theorem execVconnOc_see (x : Port) (n : PortId) (s : State) :
    View.keeps { port := n, own := x.overVconnOc, others := x.overVconnOc } (exec (.vconnOc n) s) s := by
  have hoff : View.see { port := n, own := x.overVconnOc, others := x.overVconnOc }
      ((s.vconnRelease n).modTc n fun t => { t with vconnOc := true, vconnOff := true }) = View.see _ s :=
    (View.see_modTc).trans (View.see_vconnRelease rfl)
  exact View.keeps_ite (View.see_ite ((View.see_askHr).trans ((View.see_modRs).trans hoff)) hoff)

end Sys2Proof.Machine
end

section
/-! SUPPORT. What the commands of a port's path leave alone (O58). -/

-- Declarations in turn: the stack of every thread counts toward the memory that the check allows the one text.
set_option Elab.async false

namespace Sys2Proof.Machine

/-! ### Grants and the path (R224, R239 to R242, R256 to R259) -/

/-- A port with what a PATH grant changes of it taken from another. -/
def Port.overPathGrant (x p : Port) : Port :=
  { p with tc := { p.tc with vconnOn := x.tc.vconnOn, vconnWait := x.tc.vconnWait, pathRetry := x.tc.pathRetry
                             pathLimit := x.tc.pathLimit }
           pp := x.pp
           rs := { p.rs with vc := x.rs.vc, baseVc := x.rs.baseVc } }

theorem execPathGrant_see (x : Port) (n : PortId) (s : State) :
    View.keeps { port := n, own := x.overPathGrant, told := .events, tt := Timetable.sansGrants } (exec (.pathGrant n) s) s := by
  show View.keeps _ (execPathGrant n s) s
  unfold execPathGrant
  split
  · exact View.keeps_next rfl
  · next i _ =>
    have hgrant : View.see { port := n, own := x.overPathGrant, told := .events, tt := Timetable.sansGrants }
        ((s.fireEntry i).trimGrant n) = View.see _ s :=
      (View.see_trimGrant rfl).trans (View.see_fireEntry freeGrants_sansGrants i)
    refine View.keeps_next (Eq.trans ?_ hgrant)
    exact View.see_ite rfl (View.see_ite View.see_modTc (View.see_ite View.see_closePath
      ((View.see_vconnTry).trans ((View.see_modTc).trans View.see_closePath))))

/-- A port with what a SET grant changes of it taken from another. -/
def Port.overSetGrant (x p : Port) : Port :=
  { p with tc := { p.tc with opening := x.tc.opening }, pp := x.pp, ct := { p.ct with plan := x.ct.plan } }

theorem execSetGrant_see (x : Port) (n : PortId) (s : State) :
    View.keeps { port := n, own := x.overSetGrant, told := .events, tt := Timetable.sansGrants } (exec (.setGrant n) s) s := by
  show View.keeps _ (execSetGrant n s) s
  unfold execSetGrant
  split
  · exact View.keeps_next rfl
  · next i _ =>
    refine View.keeps_next (Eq.trans ?_ (View.see_fireEntry freeGrants_sansGrants i))
    refine View.see_ite ((View.see_planStep).trans (View.see_trimGrant rfl)) (View.see_ite ?_ ?_)
    · exact View.see_modPort fun _ => rfl
    · exact (View.see_ite rfl View.see_modPp).trans (View.see_trimGrant rfl)

theorem execCalGrant_see (x : Port) (n : PortId) (s : State) :
    View.keeps { port := n, own := fun p => { p with pp := x.pp }, told := .events, tt := Timetable.sansGrants }
      (exec (.calGrant n) s) s := by
  show View.keeps _ (execCalGrant n s) s
  unfold execCalGrant
  split
  · exact View.keeps_next rfl
  · next i _ =>
    refine View.keeps_next (Eq.trans (View.see_ite View.see_modPp View.see_modPp) ?_)
    exact (View.see_trimGrant rfl).trans (View.see_fireEntry freeGrants_sansGrants i)

theorem execRampGrant_see (x : Port) (n : PortId) (s : State) :
    View.keeps { port := n, own := fun p => { p with pp := x.pp, ct := { p.ct with plan := x.ct.plan } }, told := .events
                 tt := Timetable.sansGrants } (exec (.rampGrant n) s) s := by
  show View.keeps _ (execRampGrant n s) s
  unfold execRampGrant
  split
  · exact View.keeps_next rfl
  · next i _ =>
    exact View.keeps_next ((View.see_planStep).trans ((View.see_trimGrant rfl).trans (View.see_fireEntry freeGrants_sansGrants i)))

theorem execClosingDone_see (x : Port) (n : PortId) (near far : Nat) (s : State) :
    View.keeps { port := n, own := fun p => { p with pp := { p.pp with st := x.pp.st } } } (exec (.closingDone n near far) s) s :=
  View.keeps_ite View.see_modPp

/-- A port with what the end of RETRY changes of it taken from another. -/
def Port.overRetry (x p : Port) : Port :=
  { p with tc := { p.tc with pathRetry := x.tc.pathRetry }
           pp := { p.pp with st := x.pp.st, code := x.pp.code, lim := x.pp.lim, retryRun := x.pp.retryRun }
           pd := { p.pd with hrPend := x.pd.hrPend } }

theorem execRetryExpiry_see (x : Port) (n : PortId) (s : State) :
    View.keeps { port := n, own := x.overRetry, tt := Timetable.sansPlaces } (exec (.retryExpiry n) s) s := by
  show View.keeps _ (execRetryExpiry n s) s
  unfold execRetryExpiry
  split
  · exact View.keeps_next rfl
  · exact View.keeps_next ((View.see_ite (View.see_bookPath freePlaces_sansPlaces) rfl).trans View.see_modPp)

/-- A port with what the takeover of a fast-trip code changes of it taken from another. -/
def Port.overTakeover (x p : Port) : Port :=
  { p with pp := { p.pp with ftCode := x.pp.ftCode, ftPend := x.pp.ftPend, ftHold := x.pp.ftHold } }

theorem Path.ftSettle_eq (p : Path) (now : CT) :
    p.ftSettle now = { p with ftPend := (p.ftSettle now).ftPend, ftHold := (p.ftSettle now).ftHold } := by
  unfold Path.ftSettle
  split <;> rfl

theorem execFtCodeTakeover_see (x : Port) (n : PortId) (s : State) :
    View.keeps { port := n, own := x.overTakeover } (exec (.ftCodeTakeover n) s) s := by
  refine View.keeps_next (View.see_modPp fun p => ?_)
  dsimp only
  rw [Path.ftSettle_eq]
  split <;> rfl

/-- A port with what the trim loop changes of it taken from another. -/
def Port.overTrim (x p : Port) : Port :=
  { p with pp := { p.pp with code := x.pp.code, trimPend := x.pp.trimPend, lim := x.pp.lim } }

theorem execTrimLoop_see (n : PortId) (s : State) :
    ∃ k, ∀ x : Port, View.keeps { port := n, own := x.overTrim } (exec (.trimLoop n) s) { s with fresh := k } := by
  show ∃ k, ∀ x : Port, View.keeps { port := n, own := x.overTrim } (execTrimLoop n s) { s with fresh := k }
  unfold execTrimLoop
  dsimp only
  split
  · exact ⟨s.fresh, fun _ => View.keeps_next rfl⟩
  · split
    · exact ⟨s.fresh + 1, fun _ => View.keeps_next View.see_modPp⟩
    · refine ⟨s.fresh, fun _ => View.keeps_next ?_⟩
      split
      · exact View.see_modPp
      · exact View.see_modPp

end Sys2Proof.Machine
end

section
/-! SUPPORT. What the commands of a contract leave alone (O58). -/

-- Declarations in turn: the stack of every thread counts toward the memory that the check allows the one text.
set_option Elab.async false

namespace Sys2Proof.Machine

/-! ### Contracts (chapter 11) -/

/-- A core but for what its firmware and its kernel run on. -/
def VCore.sansRuns (c : VCore) : VCore := { c with fw := VCore.reset.fw, kn := VCore.reset.kn, slot := VCore.reset.slot }

/-- The budget but for the ports and the invocations that wait. -/
def Budget.sansQueues (b : Budget) : Budget := { b with shedQueue := [], policy := [] }

theorem freeCaps (V : View) (hcore : V.core = fun v => v.map VCore.sansRuns) (hbg : V.bg = Budget.sansQueues)
    (hown : V.omits Port.overCaps) : V.FreeCaps where
  policy _ _ := by rw [hbg]; rfl
  kernel v c fw kn slot := by rw [hcore]; exact Vector.map_set_of_eq VCore.sansRuns v c _ rfl
  queue _ _ := by rw [hbg]; rfl
  own := hown

theorem execCapabilitiesSend_see (x : Port) (n : PortId) (s : State) :
    View.keeps { port := n, own := x.overCaps, others := x.overCaps, core := fun v => v.map VCore.sansRuns
                 bg := Budget.sansQueues } (exec (.capabilitiesSend n) s) s := by
  have hfree (m : PortId) : View.FreeCaps { port := m, own := x.overCaps, others := x.overCaps
                                            core := fun v => v.map VCore.sansRuns, bg := Budget.sansQueues } :=
    freeCaps _ rfl rfl fun _ _ => rfl
  refine View.keeps_ite ((hfree n).see_offerSend.trans (State.foldl_keeps _ _ (fun u m => ?_) _ _))
  exact View.whole.see_at rfl m (hfree m).see_offerSend

/-- A port with what capabilities for a risen offer change of it taken from another. -/
def Port.overRise (x p : Port) : Port := { x.overCaps p with ct := { (x.overCaps p).ct with capsAt := x.ct.capsAt } }

theorem execOfferRiseCaps_see (x : Port) (n : PortId) (s : State) :
    View.keeps { port := n, own := x.overRise, core := fun v => v.map VCore.sansRuns, bg := Budget.sansQueues }
      (exec (.offerRiseCaps n) s) s := by
  have hfree : View.FreeCaps { port := n, own := x.overRise, core := fun v => v.map VCore.sansRuns, bg := Budget.sansQueues } :=
    freeCaps _ rfl rfl fun _ _ => rfl
  exact View.keeps_next (View.see_ite rfl (View.see_ite hfree.see_offerSend (View.see_ite (hfree.see_policyAsk _)
    (hfree.see_riseSend _))))

theorem execRequest_see (x : Port) (n : PortId) (s : State) :
    View.keeps { port := n, own := x.overRequest, others := x.overRequest, told := .events, tt := Timetable.sansPlaces }
      (exec (.request n) s) s := by
  have hfree (m : PortId) : View.FreeRequest { port := m, own := x.overRequest, others := x.overRequest, told := .events
                                               tt := Timetable.sansPlaces } :=
    ⟨rfl, freePlaces_sansPlaces, fun _ _ => rfl⟩
  refine View.keeps_next ((hfree n).see_requestOne.trans (State.foldl_keeps _ _ (fun u m => ?_) _ _))
  exact View.whole.see_at rfl m (hfree m).see_requestOne

/-- A port with what a message at hand and an answer to it change of it taken from another. -/
def Port.overAnswer (x p : Port) : Port :=
  { p with pd := { p.pd with rxq := x.pd.rxq, rxDone := x.pd.rxDone, eng := x.pd.eng, outbox := x.pd.outbox } }

theorem execEprModeEnter_see (x : Port) (n : PortId) (s : State) :
    View.keeps { port := n, own := fun p => { x.overAnswer p with pd := { (x.overAnswer p).pd with eprEntry := x.pd.eprEntry } } }
      (exec (.eprModeEnter n) s) s := by
  show View.keeps _ (execEprModeEnter n s) s
  unfold execEprModeEnter
  split
  · exact View.keeps_next rfl
  · next htake =>
    refine View.keeps_take htake (View.keeps_next (View.see_ite (View.see_sendMsg _ _ _) ?_))
    split
    · exact View.see_sendMsg _ _ _
    · exact (View.see_ite (View.see_sendMsg _ _ _) View.see_modPd).trans (View.see_sendMsg _ _ _)

theorem execTransitionCheck_see (x : Port) (n : PortId) (meanVc : Nat) (s : State) :
    View.keeps { port := n, own := x.overDone, others := x.overDone, told := .events
                 bg := fun b => { b with shedding := false, shedQueue := [] } } (exec (.transitionCheck n meanVc) s) s := by
  have hfree : View.FreeShed { port := n, own := x.overDone, others := x.overDone, told := .events
                               bg := fun b => { b with shedding := false, shedQueue := [] } } :=
    ⟨rfl, fun _ _ _ => rfl, rfl, fun _ _ _ => rfl⟩
  refine View.keeps_next ?_
  split
  · exact View.see_ite (hfree.see_planDone _ fun _ _ => rfl) rfl
  · rfl

theorem execConvFail_see (x : Port) (n : PortId) (s : State) :
    View.keeps { port := n, own := fun p => { p with pd := { p.pd with hrReq := x.pd.hrReq }
                                                     ct := { p.ct with convFail := x.ct.convFail } }, told := .events }
      (exec (.convFail n) s) s :=
  View.keeps_ite ((View.see_askHr).trans ((View.see_emit rfl ..).trans View.see_modCt))

theorem execShedTimeout_see (x : Port) (n : PortId) (s : State) :
    View.keeps { port := n, own := fun p => { p with pd := { p.pd with hrReq := x.pd.hrReq } }, told := .events }
      (exec (.shedTimeout n) s) s :=
  View.keeps_ite ((View.see_askHr).trans (View.see_emit rfl ..))

theorem execDischargeAssistEnd_see (x : Port) (n : PortId) (mv : Nat) (s : State) :
    View.keeps { port := n, own := fun p => { p with pp := { p.pp with assist := x.pp.assist } } }
      (exec (.dischargeAssistEnd n mv) s) s :=
  View.keeps_next (View.see_ite rfl View.see_modPp)

/-- A port with what the end of its thermal limit changes of it taken from another. -/
def Port.overTherm (x p : Port) : Port :=
  { p with pp := { p.pp with tWarn := x.pp.tWarn }
           ct := { p.ct with shed := x.ct.shed, therm := x.ct.therm, target := x.ct.target, shedDue := x.ct.shedDue } }

theorem execThermalLimitRemove_see (x : Port) (n : PortId) (s : State) :
    View.keeps { port := n, own := x.overTherm, told := .events } (exec (.thermalLimitRemove n) s) s :=
  View.keeps_ite ((View.see_emit rfl ..).trans ((View.see_modPp).trans View.see_modCt))

/-! ### Sink role (R324 to R328) -/

theorem execSourceCapabilities_see (x : Port) (n : PortId) (s : State) :
    View.keeps { port := n, own := x.overSink, tt := Timetable.sansPlaces } (exec (.sourceCapabilities n) s) s := by
  show View.keeps _ (execSourceCapabilities n s) s
  unfold execSourceCapabilities
  split
  · exact View.keeps_next rfl
  · next htake =>
    refine View.keeps_take htake (View.keeps_next (View.see_ite (View.see_sendMsg _ _ _) (View.see_ite rfl (View.see_ite
      (View.see_ite (View.see_sendMsg _ _ _) View.see_askHr) ?_))))
    exact (View.see_sinkDecide freePlaces_sansPlaces true).trans View.see_modPd

/-- A port with what a SINK grant changes of it taken from another. -/
def Port.overSinkGrant (x p : Port) : Port :=
  { p with pp := { p.pp with code := x.pp.code }
           pd := { p.pd with outbox := x.pd.outbox, reqSent := x.pd.reqSent }
           ct := { p.ct with draw := x.ct.draw, stopFor := x.ct.stopFor } }

theorem execSinkGrant_see (x : Port) (n : PortId) (s : State) :
    View.keeps { port := n, own := x.overSinkGrant, tt := Timetable.sansGrants } (exec (.sinkGrant n) s) s := by
  show View.keeps _ (execSinkGrant n s) s
  unfold execSinkGrant
  split
  · exact View.keeps_next rfl
  · next i _ =>
    refine View.keeps_next ((View.see_stopSend).trans (Eq.trans ?_ (View.see_fireEntry freeGrants_sansGrants i)))
    exact View.see_modPort fun _ => rfl

theorem execSinkStopRetry_see (x : Port) (n : PortId) (s : State) :
    View.keeps { port := n, own := x.overStop, tt := Timetable.sansPlaces } (exec (.sinkStopRetry n) s) s := by
  refine View.keeps_next ?_
  split
  · exact View.see_ite (View.see_stopBook freePlaces_sansPlaces _) rfl
  · rfl

theorem State.sinkBook_sansPlaces (s : State) (n : PortId) : (s.sinkBook n).sansPlaces = s.sansPlaces := by
  unfold State.sinkBook
  dsimp only
  split
  · exact State.bookPort_sansPlaces ..
  · rfl

/-- A port with what the end of its draw by REGEN_STOP changes of it taken from another. -/
def Port.overRegen (x p : Port) : Port :=
  { p with tc := { p.tc with opening := x.tc.opening, pathRetry := x.tc.pathRetry }
           pp := { p.pp with code := x.pp.code }
           pd := { p.pd with outbox := x.pd.outbox, hrReq := x.pd.hrReq, reqSent := x.pd.reqSent }
           ct := { p.ct with draw := x.ct.draw, intended := x.ct.intended, stopFor := x.ct.stopFor
                             stopRetry := x.ct.stopRetry, regenHold := x.ct.regenHold }
           rs := { p.rs with entry := x.rs.entry, retry := x.rs.retry } }

theorem execRegenStop_see {V : View} (hV : V.whole) (hp : V.freePlaces) (hbg : ∀ b r, V.bg { b with regenStop := r } = V.bg b)
    (h : V.omits Port.overRegen) (vsns : Int) (s : State) : V.keeps (exec (.regenStop vsns) s) s := by
  have hend (n : PortId) (u : State) : V.see ((u.protCancel n).modPort n fun p =>
      { p with ct := { p.ct with draw := 0, regenHold := true }, pp := { p.pp with code := 0 } }) = V.see u :=
    (hV.see_at n (View.see_modPort (V := { V with port := n }) fun p => h.own_eq rfl)).trans
      (hV.see_protCancel hp (fun _ _ => h.own_eq rfl) n)
  have hstop (n : PortId) (u : State) (b : PdBody) : V.see (u.stopBook n b) = V.see u :=
    hV.see_at n (View.see_stopBook (V := { V with port := n }) hp b fun _ _ => h.own_eq rfl)
  show V.keeps (execRegenStop vsns s) s
  unfold execRegenStop
  split
  · refine View.keeps_next ((View.see_of_bg (hbg ..)).trans (State.forPorts_same V.see _ (fun n u => ?_) s))
    split
    · dsimp only
      split
      · exact View.see_ite ((hstop ..).trans (hend n u)) (hend n u)
      · exact hend n u
    · rfl
  · exact View.keeps_next rfl

theorem execRegenRebook_see (x : Port) (s : State) :
    View.keeps { port := 0, own := fun p => { p with ct := { p.ct with regenHold := x.ct.regenHold } }
                 others := fun p => { p with ct := { p.ct with regenHold := x.ct.regenHold } }
                 tt := Timetable.sansPlaces } (exec (.regenRebook) s) s := by
  refine View.keeps_ite (State.forPorts_same _ _ (fun n u => ?_) s)
  exact View.whole.see_at rfl n ((View.see_sinkBook freePlaces_sansPlaces n).trans View.see_modCt)

end Sys2Proof.Machine
end

section
/-! SUPPORT. What the commands of role swaps and alternate modes leave alone (O58). -/

-- Declarations in turn: the stack of every thread counts toward the memory that the check allows the one text.
set_option Elab.async false

namespace Sys2Proof.Machine

/-! ### Role swaps (chapter 12) -/

/-- A port with what a PR_Swap asked of it changes of it taken from another. -/
def Port.overPrSwap (x p : Port) : Port :=
  { p with pd := { p.pd with rxq := x.pd.rxq, rxDone := x.pd.rxDone, eng := x.pd.eng, outbox := x.pd.outbox
                             reqSent := x.pd.reqSent }
           ct := { p.ct with intended := x.ct.intended, stopFor := x.ct.stopFor, stopRetry := x.ct.stopRetry }
           rs := { p.rs with code := x.rs.code, step := x.rs.step, entry := x.rs.entry } }

theorem execPrSwap_see (x : Port) (n : PortId) (s : State) :
    View.keeps { port := n, own := x.overPrSwap, tt := Timetable.sansPlaces } (exec (.prSwap n) s) s := by
  show View.keeps _ (execPrSwap n s) s
  unfold execPrSwap
  split
  · exact View.keeps_next rfl
  · next htake =>
    refine View.keeps_take htake (View.keeps_next (View.see_ite (View.see_sendMsg _ _ _) (View.see_ite (View.see_sendMsg _ _ _)
      (View.see_ite (View.see_ite (View.see_sendMsg _ _ _) ?_) ?_))))
    · split
      · next hbook =>
        exact (View.see_sendMsg _ _ _).trans ((View.see_swapGo _ _).trans (View.see_bookRoleOff freePlaces_sansPlaces hbook))
      · exact View.see_sendMsg _ _ _
    · exact (View.see_stopBook freePlaces_sansPlaces _).trans (View.see_swapGo _ _)

/-- A port with what a swap asked of it changes of it taken from another. -/
def Port.overSwap (x p : Port) : Port :=
  { x.overAnswer p with rs := { p.rs with code := x.rs.code, step := x.rs.step } }

theorem execDrSwap_see (x : Port) (n : PortId) (s : State) :
    View.keeps { port := n, own := fun p => { x.overSwap p with pd := { (x.overSwap p).pd with hrReq := x.pd.hrReq } } }
      (exec (.drSwap n) s) s := by
  show View.keeps _ (execDrSwap n s) s
  unfold execDrSwap
  split
  · exact View.keeps_next rfl
  · next htake =>
    exact View.keeps_take htake (View.keeps_next (View.see_ite (View.see_sendMsg _ _ _) (View.see_ite View.see_askHr
      (View.see_ite ((View.see_sendMsg _ _ _).trans (View.see_swapGo _ _)) (View.see_sendMsg _ _ _)))))

theorem execVconnSwap_see (x : Port) (n : PortId) (s : State) :
    View.keeps { port := n, own := x.overSwap } (exec (.vconnSwap n) s) s := by
  show View.keeps _ (execVconnSwap n s) s
  unfold execVconnSwap
  split
  · exact View.keeps_next rfl
  · next htake =>
    refine View.keeps_take htake (View.keeps_next (View.see_ite (View.see_sendMsg _ _ _) (View.see_ite (View.see_sendMsg _ _ _)
      (View.see_ite ?_ (View.see_ite ?_ (View.see_sendMsg _ _ _))))))
    · exact (View.see_sendMsg _ _ _).trans (View.see_swapGo _ _)
    · exact (View.see_sendMsg _ _ _).trans (View.see_swapGo _ _)

theorem execFrSwap_see (x : Port) (n : PortId) (s : State) :
    View.keeps { port := n, own := fun p => { x.overAnswer p with rs := { p.rs with step := x.rs.step } } }
      (exec (.frSwap n) s) s := by
  show View.keeps _ (execFrSwap n s) s
  unfold execFrSwap
  split
  · exact View.keeps_next rfl
  · next htake =>
    exact View.keeps_take htake (View.keeps_next (View.see_ite (View.see_sendMsg _ _ _) (View.see_ite
      ((View.see_sendMsg _ _ _).trans (View.see_swapStep _)) (View.see_ite (View.see_sendMsg _ _ _) (View.see_sendMsg _ _ _)))))

theorem execSwapStart_see (x : Port) (n : PortId) (k : SwapKind) (s : State) :
    View.keeps { port := n, own := x.overAsk, tt := Timetable.sansPlaces } (exec (.swapStart n k) s) s :=
  View.keeps_ite ((View.see_swapAsk freePlaces_sansPlaces k none fun _ _ => rfl).trans View.see_modRs)

theorem execRoleGrant_see (x : Port) (y : Timetable) (n : PortId) (s : State) :
    View.keeps { port := n, own := x.overRole, others := x.overRole, told := .events, tt := fun _ => y
                 bg := fun b => { b with shedding := false, shedQueue := [] } } (exec (.roleGrant n) s) s := by
  have hfree : View.FreeShed { port := n, own := x.overRole, others := x.overRole, told := .events, tt := fun _ => y
                               bg := fun b => { b with shedding := false, shedQueue := [] } } :=
    ⟨rfl, fun _ _ _ => rfl, rfl, fun _ _ _ => rfl⟩
  show View.keeps _ (execRoleGrant n s) s
  unfold execRoleGrant
  split
  · exact View.keeps_next rfl
  · next i _ =>
    refine View.keeps_next (Eq.trans ?_ (View.see_fireEntry (fun _ _ _ => rfl) i))
    refine View.see_ite rfl (View.see_ite (View.see_standbyEnd 0 fun _ _ => rfl) ?_)
    split
    · exact (View.see_modRs).trans ((View.see_modPp).trans (hfree.see_swapContractEnd (fun _ _ _ => rfl) fun _ _ => rfl))
    · exact (View.see_closePath).trans (View.see_modPort fun _ => rfl)
    · exact View.see_ite View.see_modRs (View.see_modPort fun _ => rfl)
    · rfl

theorem execVconnSourceReached_see (x : Port) (n : PortId) (mv : Nat) (s : State) :
    View.keeps { port := n, own := fun p => { p with pd := { p.pd with outbox := x.pd.outbox }
                                                     rs := { p.rs with step := x.rs.step } } }
      (exec (.vconnSourceReached n mv) s) s :=
  View.keeps_ite ((View.see_sendMsg _ _ _).trans (View.see_swapStep _))

theorem execVconnSwapFail_see (x : Port) (n : PortId) (s : State) :
    View.keeps { port := n, own := fun p => { p with pd := { p.pd with hrReq := x.pd.hrReq }
                                                     rs := { p.rs with fail := x.rs.fail } } }
      (exec (.vconnSwapFail n) s) s :=
  View.keeps_ite ((View.see_askHr).trans View.see_modRs)

theorem execFrsSignalEnd_see (x : Port) (n : PortId) (s : State) :
    View.keeps { port := n, own := fun p => { p with rs := { p.rs with step := x.rs.step } } } (exec (.frsSignalEnd n) s) s :=
  View.keeps_ite (View.see_swapStep _)

/-- A port with what a Fast Role Swap that did not come changes of it taken from another. -/
def Port.overQuiet (x p : Port) : Port :=
  { p with pd := { p.pd with hrReq := x.pd.hrReq }
           ct := { p.ct with plan := x.ct.plan }
           rs := { p.rs with code := x.rs.code, step := x.rs.step, entry := x.rs.entry, kind := x.rs.kind } }

theorem execFrSwapWait_see (x : Port) (n : PortId) (s : State) :
    View.keeps { port := n, own := x.overQuiet, tt := Timetable.sansPlaces } (exec (.frSwapWait n) s) s :=
  View.keeps_ite ((View.see_rampRebook freePlaces_sansPlaces).trans View.see_modRs)

/-- A port with what a Fast Role Swap signal changes of it taken from another. -/
def Port.overSignal (x p : Port) : Port :=
  { p with pd := { p.pd with outbox := x.pd.outbox }
           rs := { p.rs with code := x.rs.code, step := x.rs.step, stby := x.rs.stby, leaving := x.rs.leaving
                             entry := x.rs.entry } }

theorem execFrsSignal_see (x : Port) (n : PortId) (s : State) :
    View.keeps { port := n, own := x.overSignal, tt := Timetable.sansPlaces } (exec (.frsSignal n) s) s :=
  View.keeps_ite ((View.see_sendMsg _ _ _).trans ((View.see_modRs).trans (View.see_cancelWhere freePlaces_sansPlaces _)))

theorem execFrsNosig_see (x : Port) (n : PortId) (s : State) :
    View.keeps { port := n, own := fun p => { p with pd := { p.pd with hrReq := x.pd.hrReq }
                                                     rs := { p.rs with nosig := x.rs.nosig } } }
      (exec (.frsNosig n) s) s :=
  View.keeps_ite ((View.see_askHr).trans View.see_modRs)

/-! ### Alternate modes (chapter 13) -/

/-- A port with what the beginning of discovery changes of it taken from another. -/
def Port.overDiscovery (x p : Port) : Port :=
  { p with pd := { p.pd with outbox := x.pd.outbox }
           alt := { p.alt with noScript := x.alt.noScript, step := x.alt.step, partnerUsb4 := x.alt.partnerUsb4
                               tried := x.alt.tried, pins := x.alt.pins } }

theorem execDiscoveryStart_see (x : Port) (n : PortId) (s : State) :
    View.keeps { port := n, own := x.overDiscovery } (exec (.discoveryStart n) s) s :=
  View.keeps_ite View.see_discoveryGo

/-- The scripts but for those that are queued. -/
def Points.sansQueue (p : Points) : Points := { p with queue := [] }

/-- A port with what an answer to a VDM changes of it taken from another. -/
def Port.overVdmAck (x p : Port) : Port :=
  { p with tc := { p.tc with rpOffer := x.tc.rpOffer, blank := x.tc.blank }, pd := x.pd, alt := x.alt }

theorem execVdmAck_see (x : Port) (n : PortId) (s : State) :
    View.keeps { port := n, own := x.overVdmAck, told := .completions, points := Points.sansQueue } (exec (.vdmAck n) s) s := by
  have hfree : View.FreeModes { port := n, own := x.overVdmAck, told := .completions, points := Points.sansQueue } :=
    ⟨rfl, fun _ _ => rfl, fun _ _ => rfl⟩
  show View.keeps _ (execVdmAck n s) s
  unfold execVdmAck
  split
  · exact View.keeps_next rfl
  · next htake =>
    exact View.keeps_take htake (View.keeps_next (View.see_ite
      ((hfree.see_vdmAnswer _).trans ((View.see_amsEnd).trans View.see_modPd)) View.see_amsEnd))

/-- A port with what a VDM that is not answered changes of it taken from another. -/
def Port.overVdmTimeout (x p : Port) : Port :=
  { p with tc := { p.tc with rpOffer := x.tc.rpOffer, blank := x.tc.blank }
           pd := { p.pd with outbox := x.pd.outbox, ams := x.pd.ams, sinkTxOk := x.pd.sinkTxOk, timers := x.pd.timers }
           alt := x.alt }

theorem execVdmTimeout_see (x : Port) (n : PortId) (s : State) :
    View.keeps { port := n, own := x.overVdmTimeout, told := .completions, points := Points.sansQueue }
      (exec (.vdmTimeout n) s) s := by
  have hfree : View.FreeModes { port := n, own := x.overVdmTimeout, told := .completions, points := Points.sansQueue } :=
    ⟨rfl, fun _ _ => rfl, fun _ _ => rfl⟩
  exact View.keeps_ite (hfree.see_vdmNone.trans ((View.see_amsEnd).trans View.see_modPd))

/-- A port with what an Attention changes of it taken from another. -/
def Port.overAttention (x p : Port) : Port :=
  { x.overAnswer p with alt := { p.alt with hpd := x.alt.hpd, detPend := x.alt.detPend, exitDue := x.alt.exitDue
                                            askStatus := x.alt.askStatus } }

theorem execAttention_see (x : Port) (n : PortId) (s : State) :
    View.keeps { port := n, own := x.overAttention, points := Points.sansQueue } (exec (.attention n) s) s := by
  show View.keeps _ (execAttention n s) s
  unfold execAttention
  split
  · exact View.keeps_next rfl
  · next htake =>
    refine View.keeps_take htake (View.keeps_next (View.see_ite (View.see_sendMsg _ _ _) ?_))
    split
    · exact View.see_ite (View.see_hpdSee (fun _ _ => rfl) _) rfl
    · rfl

/-- The scripts but for those that are queued and the running of the first. -/
def Points.sansRun (p : Points) : Points := { p with queue := [], running := false, delay := false }

theorem execScriptStart_see {V : View} (hV : V.whole) (hq : V.freeScripts)
    (h : ∀ p x y z, V.own { p with pd := { p.pd with outbox := x }, alt := { p.alt with step := y, lastEvt := z } } = V.own p)
    (s : State) : V.keeps (exec (.scriptStart) s) s := by
  have hend (u : State) : V.see u.scriptEnded = V.see u := hV.see_scriptEnded hq fun p x y => h p x y p.alt.lastEvt
  have hevt (u : State) (m : PortId) (ev : BitVec 4) : V.see (u.modAlt m fun a => { a with lastEvt := ev }) = V.see u :=
    hV.see_at m (View.see_modAlt (V := { V with port := m }) fun p => h p p.pd.outbox p.alt.step ev)
  refine View.keeps_next (View.see_ite rfl ?_)
  split
  · rfl
  · dsimp only
    generalize hput : ({ s with points := _ } : State) = u
    have hu : V.see u = V.see s := by
      rw [← hput]
      exact View.see_of_points (hq ..)
    exact View.see_ite ((hend _).trans ((hevt ..).trans hu)) ((hevt ..).trans hu)

/-- A port with what the end of one of its scripts changes of it taken from another. -/
def Port.overStatus (x p : Port) : Port :=
  { p with pd := { p.pd with outbox := x.pd.outbox }, alt := { p.alt with step := x.alt.step } }

/-- A port with what the start of one of its scripts changes of it taken from another. -/
def Port.overScript (x p : Port) : Port :=
  { x.overStatus p with alt := { (x.overStatus p).alt with lastEvt := x.alt.lastEvt } }

theorem execScriptDelay_see {V : View} (hV : V.whole) (hq : V.freeScripts)
    (h : ∀ p x y, V.own { p with pd := { p.pd with outbox := x }, alt := { p.alt with step := y } } = V.own p)
    (s : State) : V.keeps (exec (.scriptDelay) s) s := by
  refine View.keeps_next ?_
  split
  · exact View.see_ite (hV.see_scriptNext hq h) rfl
  · exact hV.see_scriptStopped hq h

end Sys2Proof.Machine
end

section
/-! SUPPORT. What the commands of the PD engine leave alone (O58). -/

-- Declarations in turn: the stack of every thread counts toward the memory that the check allows the one text.
set_option Elab.async false

namespace Sys2Proof.Machine

/-! ### The PD engine (chapter 10) -/

theorem execEprKeepalive_see (x : Port) (n : PortId) (s : State) :
    View.keeps { port := n, own := fun p => { x.overAnswer p with pd := { (x.overAnswer p).pd with timers := x.pd.timers } } }
      (exec (.eprKeepalive n) s) s := by
  show View.keeps _ (execEprKeepalive n s) s
  unfold execEprKeepalive
  split
  · exact View.keeps_next rfl
  · next htake =>
    exact View.keeps_take htake (View.keeps_next (View.see_ite (View.see_sendMsg _ _ _)
      ((View.see_sendMsg _ _ _).trans View.see_modPd)))

theorem execNotSupportedRequest_see (x : Port) (n : PortId) (s : State) :
    View.keeps { port := n, own := x.overAnswer } (exec (.notSupportedRequest n) s) s := by
  show View.keeps _ (execNotSupportedRequest n s) s
  unfold execNotSupportedRequest
  split
  · exact View.keeps_next rfl
  · next htake => exact View.keeps_take htake (View.keeps_next (View.see_sendMsg _ _ _))

theorem execGetCapabilities_see (x : Port) (n : PortId) (s : State) :
    View.keeps { port := n, own := fun p => { p with pd := x.pd, ct := { p.ct with offer := x.ct.offer } }
                 core := fun v => v.map VCore.sansRuns, bg := fun b => { b with policy := [] } }
      (exec (.getCapabilities n) s) s := by
  have hfree : View.FreePolicy { port := n, own := fun p => { p with pd := x.pd, ct := { p.ct with offer := x.ct.offer } }
                                 core := fun v => v.map VCore.sansRuns, bg := fun b => { b with policy := [] } } :=
    ⟨fun _ _ => rfl, fun v c _ _ _ => Vector.map_set_of_eq VCore.sansRuns v c _ rfl⟩
  show View.keeps _ (execGetCapabilities n s) s
  unfold execGetCapabilities
  split
  · exact View.keeps_next rfl
  · next htake =>
    refine View.keeps_take htake (View.keeps_next (View.see_ite (hfree.see_capsAnswer _) ?_))
    split
    · exact View.see_sendMsg _ _ _
    · exact (View.see_sendMsg _ _ _).trans View.see_modPd

theorem execDiscoverIdentityUfp_see (x : Port) (n : PortId) (s : State) :
    View.keeps { port := n, own := x.overAnswer } (exec (.discoverIdentityUfp n) s) s := by
  show View.keeps _ (execDiscoverIdentityUfp n s) s
  unfold execDiscoverIdentityUfp
  split
  · exact View.keeps_next rfl
  · next htake =>
    refine View.keeps_take htake (View.keeps_next ?_)
    split
    · exact View.see_ite (View.see_sendMsg _ _ _) (View.see_sendMsg _ _ _)
    · rfl

theorem execTransmitRequest_see (x : Port) (n : PortId) (s : State) :
    View.keeps { port := n, own := fun p => { p with pd := { p.pd with ctx := x.pd.ctx, outbox := x.pd.outbox } } }
      (exec (.transmitRequest n) s) s := by
  refine View.keeps_next (Eq.trans ?_ (View.see_modPd (f := fun d =>
    { d with outbox := d.outbox.filter fun m => s.ctxActive n m.sop })))
  split
  · rfl
  · exact (View.see_modPd).trans View.see_modPd

/-- A port with what the beginning of an AMS changes of it taken from another. -/
def Port.overLineIdle (x p : Port) : Port :=
  { x.overTxGo p with tc := { p.tc with rpOffer := x.tc.rpOffer, blank := x.tc.blank }
                      pd := { (x.overTxGo p).pd with sinkTxOk := x.pd.sinkTxOk } }

theorem execLineIdle_see (x : Port) (n : PortId) (s : State) :
    View.keeps { port := n, own := x.overLineIdle } (exec (.lineIdle n) s) s := by
  refine View.keeps_next ?_
  split
  · rfl
  · exact View.see_ite rfl (View.see_ite (View.see_txGo _) (View.see_ite rfl
      (View.see_ite (View.see_modPort fun _ => rfl) (View.see_modPort fun _ => rfl))))

theorem execTsinktx_see (x : Port) (n : PortId) (s : State) :
    View.keeps { port := n, own := x.overTxGo } (exec (.tsinktx n) s) s := by
  refine View.keeps_ite (Eq.trans ?_ (View.see_modPd (f := fun d => d.disarm .tSinkTx)))
  dsimp only
  split
  · exact View.see_txGo _
  · rfl

theorem execSinktxokSample_see (x : Port) (n : PortId) (mv : Nat) (s : State) :
    View.keeps { port := n, own := fun p => { x.overTxGo p with tc := { p.tc with blank := x.tc.blank } } }
      (exec (.sinktxokSample n mv) s) s := by
  refine View.keeps_ite (Eq.trans ?_ View.see_unsample)
  dsimp only
  split
  · exact View.see_txGo _
  · rfl

theorem execEprKeepaliveSend_see (x : Port) (n : PortId) (s : State) :
    View.keeps { port := n, own := fun p => { p with pd := { p.pd with outbox := x.pd.outbox } } }
      (exec (.eprKeepaliveSend n) s) s :=
  View.keeps_ite (View.see_sendMsg _ _ _)

theorem execGetSinkCapSend_see (x : Port) (n : PortId) (s : State) :
    View.keeps { port := n, own := fun p => { p with pd := { p.pd with outbox := x.pd.outbox, sentGetSink := x.pd.sentGetSink } } }
      (exec (.getSinkCapSend n) s) s :=
  View.keeps_ite ((View.see_sendMsg _ _ _).trans View.see_modPd)

theorem execDiscoverIdentityCable_see (x : Port) (n : PortId) (s : State) :
    View.keeps { port := n, own := fun p => { p with pd := { p.pd with outbox := x.pd.outbox, eprEntry := x.pd.eprEntry } } }
      (exec (.discoverIdentityCable n) s) s :=
  View.keeps_next (View.see_ite (View.see_sendMsg _ _ _) View.see_eprNoVconn)

theorem execCableReset_see (x : Port) (n : PortId) (s : State) :
    View.keeps { port := n, own := fun p => { p with pd := { p.pd with ctx := x.pd.ctx } } } (exec (.cableReset n) s) s :=
  View.keeps_ite ((View.see_modPd).trans View.see_modPd)

/-- A port with what an answer to its request for a swap changes of it taken from another. -/
def Port.overSwapAnswer (x p : Port) : Port :=
  { p with tc := { p.tc with rpOffer := x.tc.rpOffer, blank := x.tc.blank }, pd := x.pd, rs := x.rs, alt := x.alt
           ms := { p.ms with swaps := x.ms.swaps } }

theorem execSwapAnswer_see (x : Port) (n : PortId) (s : State) :
    View.keeps { port := n, own := x.overSwapAnswer, told := .completions, points := Points.sansQueue }
      (exec (.swapAnswer n) s) s := by
  have hfree : View.FreeModes { port := n, own := x.overSwapAnswer, told := .completions, points := Points.sansQueue } :=
    ⟨rfl, fun _ _ => rfl, fun _ _ => rfl⟩
  show View.keeps _ (execSwapAnswer n s) s
  unfold execSwapAnswer
  split
  · exact View.keeps_next rfl
  · next htake =>
    refine View.keeps_take htake (View.keeps_next (Eq.trans ?_ (Eq.trans View.see_amsEnd (View.see_modPd (f := fun d =>
      { (d.disarm .senderResponse).disarm .vdm with askedSnk := false })))))
    exact View.see_ite rfl (View.see_ite (View.see_swapEnd rfl _) (View.see_ite hfree.see_enterFailed
      (View.see_ite View.see_modPd hfree.see_vdmNone)))

/-! ### Hard Reset (R281 to R285) -/

/-- A port with what step 2 of a Hard Reset changes of it taken from another. -/
def Port.overPsHardReset (x p : Port) : Port :=
  { p with tc := { p.tc with vconnOn := x.tc.vconnOn, vconnWait := x.tc.vconnWait }
           pp := x.pp
           pd := { p.pd with outbox := x.pd.outbox, eprEntry := x.pd.eprEntry, timers := x.pd.timers }
           rs := { p.rs with vc := x.rs.vc, baseVc := x.rs.baseVc }
           ms := { p.ms with trace := x.ms.trace } }

theorem execTpshardreset_see (x : Port) (n : PortId) (s : State) :
    View.keeps { port := n, own := x.overPsHardReset, others := x.overPsHardReset } (exec (.tpshardreset n) s) s := by
  refine View.keeps_ite ((View.see_ite rfl View.see_atSafe0v).trans ?_)
  exact Eq.trans (View.see_vconnRelease rfl) ((View.see_openPath _ _ _).trans View.see_modPd)

/-- A port with what step 4 of a Hard Reset changes of it taken from another. -/
def Port.overRecover (x p : Port) : Port :=
  { p with tc := { p.tc with pathRetry := x.tc.pathRetry }
           pp := { p.pp with code := x.pp.code, lim := x.pp.lim }
           pd := { p.pd with hrPend := x.pd.hrPend, timers := x.pd.timers }
           alt := { p.alt with detPend := x.alt.detPend, exitDue := x.alt.exitDue } }

theorem execTsrcrecover_see (x : Port) (n : PortId) (s : State) :
    View.keeps { port := n, own := x.overRecover, tt := Timetable.sansPlaces, points := Points.sansQueue }
      (exec (.tsrcrecover n) s) s :=
  View.keeps_ite ((View.see_hrStep4 freePlaces_sansPlaces fun _ _ => rfl).trans View.see_modPd)

theorem execVbusPresent_see (x : Port) (n : PortId) (mv : Nat) (s : State) :
    View.keeps { port := n, own := x.overAttach, told := .events, tt := Timetable.sansPlaces, points := Points.sansQueue }
      (exec (.vbusPresent n mv) s) s := by
  have hfree : View.FreeAttach { port := n, own := x.overAttach, told := .events, tt := Timetable.sansPlaces
                                 points := Points.sansQueue } :=
    ⟨rfl, freePlaces_sansPlaces, fun _ _ => rfl⟩
  refine View.keeps_next (View.see_ite rfl (View.see_ite ?_ (View.see_ite ?_ rfl)))
  · exact (View.see_hrStep4 freePlaces_sansPlaces fun _ _ => rfl).trans View.see_modPd
  · split
    · exact View.see_ite View.see_modTc (hfree.see_ccDecide ..)
    · exact View.see_ite View.see_modTc (hfree.see_ccDecide ..)
    · exact View.see_ite View.see_modTc (hfree.see_tryDecide ..)
    · rfl

/-- A port with what the end of a discharge changes of it taken from another. -/
def Port.overDischarge (x p : Port) : Port :=
  { p with tc := { p.tc with rpOffer := x.tc.rpOffer, blank := x.tc.blank }
           pp := x.pp
           pd := { p.pd with outbox := x.pd.outbox, timers := x.pd.timers }
           rs := { p.rs with step := x.rs.step }
           ms := { p.ms with trace := x.ms.trace } }

theorem execDischargeEnd_see (n : PortId) (mv : Nat) (s : State) :
    ∃ l, ∀ x : Port, View.keeps { port := n, own := x.overDischarge, told := .events } (exec (.dischargeEnd n mv) s)
      { s with trips := l } := by
  show ∃ l, ∀ x : Port, View.keeps _ (execDischargeEnd n mv s) _
  unfold execDischargeEnd
  split
  · exact ⟨s.trips, fun _ => View.keeps_next rfl⟩
  · split
    · exact ⟨s.trips, fun x => View.keeps_next
        (View.see_fellToSafe (V := { port := n, own := x.overDischarge, told := .events }))⟩
    · split
      · exact ⟨(s.dischargeDone n).trips, fun x => View.keeps_next ((View.see_atSafe0v).trans
          (View.see_dischargeDone (V := { port := n, own := x.overDischarge, told := .events }) rfl))⟩
      · exact ⟨s.trips, fun _ => View.keeps_next rfl⟩

end Sys2Proof.Machine
end

section
/-! PROOFS. What the commands of the ports and of the PD engine leave alone (O58). -/

-- Declarations in turn: the stack of every thread counts toward the memory that the check allows the one text.
set_option Elab.async false

namespace Sys2Proof.Machine

/-! ### The equations of chapters 08 and 09 -/

theorem frames_of_the_attach : Sys2Proof.framesOfThePorts1 := by
  refine ⟨?portOpen, ?converterPowerGood, ?ccDetect, ?comparatorBlankEnd, ?sinkThresholdStep, ?rpLevelChange, ?tSrcEnd,
    ?tccdebounce, ?ttryccdebounce, ?tpddebounce⟩
  case portOpen =>
    intro n s
    obtain ⟨c, hc⟩ := execPortOpen_see n s
    obtain ⟨t, ht, heq, htt, hport, hother⟩ := frame_places (Q := fun t m => t.port[m] = Port.overOpen t.port[m] s.port[m]) hc
      fun _ _ hm => hm
    obtain rfl : t.chan = c := congrArg State.chan heq
    exact ⟨t, ht, heq, htt, fun m => by rw [hport m]; exact ⟨rfl, rfl, rfl⟩, hother⟩
  case converterPowerGood => exact fun n b s => frame_events fun x => execConverterPowerGood_see x n b s
  case ccDetect => exact fun n a b s => frame_events fun x => execCcDetect_see x n a b s
  case comparatorBlankEnd => exact fun n s => frame_port fun x => execComparatorBlankEnd_see x n s
  case sinkThresholdStep => exact fun n a s => frame_port fun x => execSinkThresholdStep_see x n a s
  case rpLevelChange => exact fun n s => frame_port fun x => execRpLevelChange_see x n s
  case tSrcEnd => exact fun n s => frame_events fun x => execTSrcEnd_see x n s
  case tccdebounce => exact fun n a b v s => frame_placesEvents fun x => execTccdebounce_see x n a b v s
  case ttryccdebounce => exact fun n a b v s => frame_placesEvents fun x => execTtryccdebounce_see x n a b v s
  case tpddebounce => exact fun n s => frame_events fun x => execTpddebounce_see x n s

theorem frames_of_the_path : Sys2Proof.framesOfThePorts2 := by
  refine ⟨?tdrptry, ?ttrytimeout, ?vbusSafe0v, ?terrorrecovery, ?pathBookingRetry, ?vconnOc, ?pathGrant, ?setGrant,
    ?closingDone, ?retryExpiry⟩
  case tdrptry => exact fun n s => frame_events fun x => execTdrptry_see x n s
  case ttrytimeout => exact fun n s => frame_events fun x => execTtrytimeout_see x n s
  case vbusSafe0v => exact fun n v s => frame_placesEvents fun x => execVbusSafe0v_see x n v s
  case terrorrecovery => exact fun n s => frame_events fun x => execTerrorrecovery_see x n s
  case pathBookingRetry => exact fun n s => frame_places fun x => execPathBookingRetry_see x n s
  case vconnOc => exact fun n s => frame_ports fun x => execVconnOc_see x n s
  case pathGrant => exact fun n s => frame_grant fun x => execPathGrant_see x n s
  case setGrant => exact fun n s => frame_grant fun x => execSetGrant_see x n s
  case closingDone => exact fun n a b s => frame_port fun x => execClosingDone_see x n a b s
  case retryExpiry => exact fun n s => frame_places fun x => execRetryExpiry_see x n s

/-! ### The equations of chapters 09 and 11 -/

theorem execTrimLoop_frame (n : PortId) (s : State) :
    ∃ t, exec (.trimLoop n) s = .next t ∧ t = { s with port := t.port, fresh := t.fresh } ∧
      (∀ m : PortId, t.port[m] = Port.overTrim t.port[m] s.port[m]) ∧ ∀ m : PortId, m ≠ n → t.port[m] = s.port[m] := by
  obtain ⟨k, hk⟩ := execTrimLoop_see n s
  obtain ⟨t, ht, heq, hport, hother⟩ :=
    frame_port (Q := fun t m => t.port[m] = Port.overTrim t.port[m] s.port[m]) hk fun _ _ hm => hm
  obtain rfl : t.fresh = k := congrArg State.fresh heq
  exact ⟨t, ht, heq, hport, hother⟩

/-- A core but for what its firmware and its kernel run on is as it was. -/
theorem VCore.eq_of_sansRuns {v w : Vector VCore 5} (h : v.map VCore.sansRuns = w.map VCore.sansRuns) (c : CoreId) :
    v[c] = { w[c] with fw := v[c].fw, kn := v[c].kn, slot := v[c].slot } :=
  congrArg (fun x : VCore => { x with fw := v[c].fw, kn := v[c].kn, slot := v[c].slot }) (Vector.getElem_of_map_eq h c)

theorem frames_of_the_capabilities : Sys2Proof.framesOfThePorts3 := by
  refine ⟨?ftCodeTakeover, ?vconnPresentChange, ?trimSet, ?calGrant, ?trimLoop, ?capabilitiesSend, ?offerRiseCaps, ?request,
    ?eprModeEnter, ?rampGrant⟩
  case ftCodeTakeover => exact fun n s => frame_port fun x => execFtCodeTakeover_see x n s
  case vconnPresentChange =>
    intro k mv s
    refine ⟨_, rfl, rfl, fun i => ?_⟩
    by_cases hki : k = i
    · subst hki
      rw [State.modPlat_same]
    · rw [State.modPlat_other s k _ i hki]
  case trimSet =>
    exact fun n s => answers_ite ⟨State.eq_of_sansPlaces (State.bookPort_sansPlaces ..),
      State.tt_of_sansPlaces (State.bookPort_sansPlaces ..)⟩ ⟨rfl, rfl⟩
  case calGrant => exact fun n s => frame_grant (fun x => execCalGrant_see x n s) fun _ _ hm => by rw [hm]
  case trimLoop =>
    intro n s
    obtain ⟨t, ht, heq, hport, hother⟩ := execTrimLoop_frame n s
    exact ⟨t, ht, heq, fun m => by rw [hport m]; exact ⟨rfl, rfl⟩, hother⟩
  case capabilitiesSend =>
    intro n s
    obtain ⟨t, ht, hsee⟩ := View.keeps_all fun x => execCapabilitiesSend_see x n s
    have hport := View.port_of_sees hsee (fun _ => Or.inr rfl) fun _ => rfl
    exact ⟨t, ht, congrArg (fun u : State => { u with port := t.port, core := t.core, bg := t.bg }) (hsee s.port[n]),
      fun m => by rw [hport m]; exact ⟨rfl, rfl, rfl⟩, VCore.eq_of_sansRuns (congrArg State.core (hsee s.port[n])),
      congrArg (fun u : State => { u.bg with shedQueue := t.bg.shedQueue, policy := t.bg.policy }) (hsee s.port[n])⟩
  case offerRiseCaps =>
    intro n s
    obtain ⟨t, ht, hsee⟩ := View.keeps_all fun x => execOfferRiseCaps_see x n s
    have hport := View.port_of_sees hsee (fun _ => Or.inl rfl) fun _ => rfl
    exact ⟨t, ht, congrArg (fun u : State => { u with port := t.port, core := t.core, bg := t.bg }) (hsee s.port[n]),
      fun m => by rw [hport m]; exact ⟨rfl, rfl, rfl⟩, VCore.eq_of_sansRuns (congrArg State.core (hsee s.port[n])),
      congrArg (fun u : State => { u.bg with shedQueue := t.bg.shedQueue, policy := t.bg.policy }) (hsee s.port[n]),
      fun m hm => View.other_of_see rfl (hsee s.port[n]) hm⟩
  case request =>
    intro n s
    obtain ⟨t, ht, hsee⟩ := View.keeps_all fun x => execRequest_see x n s
    have hport := View.port_of_sees hsee (fun _ => Or.inr rfl) fun _ => rfl
    exact ⟨t, ht, congrArg (fun u : State => { u with tt := t.tt, port := t.port, host := t.host, ssn := t.ssn, resume := t.resume
                                                      seqTick := t.seqTick, store := t.store }) (hsee s.port[n]),
      Timetable.eq_of_sansPlaces (congrArg State.tt (hsee s.port[n])),
      fun m => by rw [hport m]; exact ⟨rfl, rfl, rfl, rfl⟩, HostFe.eq_of_sansEvents (congrArg State.host (hsee s.port[n]))⟩
  case eprModeEnter => exact fun n s => frame_port fun x => execEprModeEnter_see x n s
  case rampGrant => exact fun n s => frame_grant fun x => execRampGrant_see x n s

theorem frames_of_the_contracts : Sys2Proof.framesOfThePorts4 := by
  refine ⟨?transitionCheck, ?convFail, ?shedTimeout, ?dischargeAssistEnd, ?thermalLimitRemove, ?sourceCapabilities, ?sinkGrant,
    ?sinkStopRetry, ?sinkPartialRebook, ?regenStop⟩
  case transitionCheck =>
    intro n v s
    obtain ⟨t, ht, hsee⟩ := View.keeps_all fun x => execTransitionCheck_see x n v s
    have hport := View.port_of_sees hsee (fun _ => Or.inr rfl) fun _ => rfl
    exact ⟨t, ht, congrArg (fun u : State => { u with port := t.port, host := t.host, ssn := t.ssn, resume := t.resume
                                                      seqTick := t.seqTick, bg := t.bg, store := t.store }) (hsee s.port[n]),
      fun m => by rw [hport m]; exact ⟨rfl, rfl, rfl⟩, HostFe.eq_of_sansEvents (congrArg State.host (hsee s.port[n])),
      congrArg (fun u : State => { u.bg with shedding := t.bg.shedding, shedQueue := t.bg.shedQueue }) (hsee s.port[n])⟩
  case convFail => exact fun n s => frame_events fun x => execConvFail_see x n s
  case shedTimeout => exact fun n s => frame_events fun x => execShedTimeout_see x n s
  case dischargeAssistEnd => exact fun n v s => frame_port fun x => execDischargeAssistEnd_see x n v s
  case thermalLimitRemove => exact fun n s => frame_events fun x => execThermalLimitRemove_see x n s
  case sourceCapabilities => exact fun n s => frame_places fun x => execSourceCapabilities_see x n s
  case sinkGrant =>
    intro n s
    obtain ⟨t, ht, hsee⟩ := View.keeps_all fun x => execSinkGrant_see x n s
    have hport := View.port_of_sees hsee (fun _ => Or.inl rfl) fun _ => rfl
    exact ⟨t, ht, congrArg (fun u : State => { u with tt := t.tt, port := t.port }) (hsee s.port[n]),
      congrArg (fun u : State => { u.tt with entries := t.tt.entries, firedAt := t.tt.firedAt }) (hsee s.port[n]),
      fun m => by rw [hport m]; exact ⟨rfl, rfl, rfl, rfl⟩⟩
  case sinkStopRetry => exact fun n s => frame_places fun x => execSinkStopRetry_see x n s
  case sinkPartialRebook =>
    exact fun n s => answers_ite ⟨State.eq_of_sansPlaces (State.sinkBook_sansPlaces s n),
      State.tt_of_sansPlaces (State.sinkBook_sansPlaces s n)⟩ ⟨rfl, rfl⟩
  case regenStop =>
    intro v s
    obtain ⟨t, ht, hsee⟩ := View.keeps_all fun x => execRegenStop_see
      (V := { port := 0, own := Port.overRegen x, others := Port.overRegen x, tt := Timetable.sansPlaces
              bg := fun b => { b with regenStop := false } }) rfl freePlaces_sansPlaces (fun _ _ => rfl) (fun _ _ => rfl) v s
    have hport := View.port_of_sees hsee (fun _ => Or.inr rfl) fun _ => rfl
    exact ⟨t, ht, congrArg (fun u : State => { u with tt := t.tt, port := t.port, bg := t.bg }) (hsee Port.reset),
      Timetable.eq_of_sansPlaces (congrArg State.tt (hsee Port.reset)),
      fun m => by rw [hport m]; exact ⟨rfl, rfl, rfl, rfl, rfl, rfl⟩,
      congrArg (fun u : State => { u.bg with regenStop := t.bg.regenStop }) (hsee Port.reset)⟩

/-! ### The equations of chapters 10, 12 and 13 -/

theorem frames_of_the_swaps : Sys2Proof.framesOfThePorts5 := by
  refine ⟨?regenRebook, ?prSwap, ?drSwap, ?vconnSwap, ?frSwap, ?swapStart, ?roleGrant, ?vconnSourceReached, ?vconnSwapFail,
    ?frsSignalEnd⟩
  case regenRebook =>
    intro s
    obtain ⟨t, ht, hsee⟩ := View.keeps_all fun x => execRegenRebook_see x s
    have hport := View.port_of_sees hsee (fun _ => Or.inr rfl) fun _ => rfl
    exact ⟨t, ht, congrArg (fun u : State => { u with tt := t.tt, port := t.port }) (hsee Port.reset),
      Timetable.eq_of_sansPlaces (congrArg State.tt (hsee Port.reset)), fun m => by rw [hport m]; exact ⟨rfl, rfl⟩⟩
  case prSwap => exact fun n s => frame_places fun x => execPrSwap_see x n s
  case drSwap => exact fun n s => frame_port fun x => execDrSwap_see x n s
  case vconnSwap => exact fun n s => frame_port fun x => execVconnSwap_see x n s
  case frSwap => exact fun n s => frame_port fun x => execFrSwap_see x n s
  case swapStart => exact fun n k s => frame_places fun x => execSwapStart_see x n k s
  case roleGrant =>
    intro n s
    obtain ⟨t, ht, hsee⟩ := View.keeps_all fun x => execRoleGrant_see x s.tt n s
    have hport := View.port_of_sees hsee (fun _ => Or.inr rfl) fun _ => rfl
    exact ⟨t, ht, congrArg (fun u : State => { u with tt := t.tt, port := t.port, host := t.host, ssn := t.ssn, resume := t.resume
                                                      seqTick := t.seqTick, bg := t.bg, store := t.store }) (hsee s.port[n]),
      fun m => by rw [hport m]; exact ⟨rfl, rfl⟩, HostFe.eq_of_sansEvents (congrArg State.host (hsee s.port[n])),
      congrArg (fun u : State => { u.bg with shedding := t.bg.shedding, shedQueue := t.bg.shedQueue }) (hsee s.port[n])⟩
  case vconnSourceReached => exact fun n v s => frame_port fun x => execVconnSourceReached_see x n v s
  case vconnSwapFail => exact fun n s => frame_port fun x => execVconnSwapFail_see x n s
  case frsSignalEnd => exact fun n s => frame_port fun x => execFrsSignalEnd_see x n s

/-- The port of the command changes, commands complete and scripts are queued. -/
theorem frame_completions {o : Host.Outcome State Fault Refusal} {s : State} {n : PortId} {g : Port → Port → Port}
    {Q : State → PortId → Prop}
    (h : ∀ x, View.keeps { port := n, own := g x, told := .completions, points := Points.sansQueue } o s)
    (hQ : ∀ t m, t.port[m] = g t.port[m] s.port[m] → Q t m := by intro _ _ hm; rw [hm]; and_intros <;> rfl)
    (hself : ∀ p, g p p = p := by intro; rfl) :
    ∃ t, o = .next t ∧ t = { s with port := t.port, host := t.host, active := t.active, ssn := t.ssn, resume := t.resume
                                    seqTick := t.seqTick, store := t.store, points := t.points } ∧
      (∀ m, Q t m) ∧ (∀ h : Fin 5, t.host[h] = { s.host[h] with held := t.host[h].held, events := t.host[h].events
                                                                reserved := t.host[h].reserved, dropped := t.host[h].dropped
                                                                lost := t.host[h].lost }) ∧
      t.points = { s.points with queue := t.points.queue } ∧ ∀ m, m ≠ n → t.port[m] = s.port[m] := by
  obtain ⟨t, ht, hsee⟩ := View.keeps_all h
  exact ⟨t, ht, congrArg (fun u : State => { u with port := t.port, host := t.host, active := t.active, ssn := t.ssn
                                                    resume := t.resume, seqTick := t.seqTick, store := t.store
                                                    points := t.points }) (hsee s.port[n]),
    fun m => hQ t m (View.port_of_sees hsee (fun _ => Or.inl rfl) hself m),
    HostFe.eq_of_sansTags (congrArg State.host (hsee s.port[n])),
    congrArg (fun u : State => { u.points with queue := t.points.queue }) (hsee s.port[n]),
    fun m hm => View.other_of_see rfl (hsee s.port[n]) hm⟩

theorem frames_of_the_modes : Sys2Proof.framesOfThePorts6 := by
  refine ⟨?frSwapWait, ?frsSignal, ?frsNosig, ?discoveryStart, ?vdmAck, ?vdmTimeout, ?attention, ?scriptStart, ?scriptDelay,
    ?eprKeepalive⟩
  case frSwapWait => exact fun n s => frame_places fun x => execFrSwapWait_see x n s
  case frsSignal => exact fun n s => frame_places fun x => execFrsSignal_see x n s
  case frsNosig => exact fun n s => frame_port fun x => execFrsNosig_see x n s
  case discoveryStart => exact fun n s => frame_port fun x => execDiscoveryStart_see x n s
  case vdmAck => exact fun n s => frame_completions fun x => execVdmAck_see x n s
  case vdmTimeout => exact fun n s => frame_completions fun x => execVdmTimeout_see x n s
  case attention =>
    intro n s
    obtain ⟨t, ht, hsee⟩ := View.keeps_all fun x => execAttention_see x n s
    have hport := View.port_of_sees hsee (fun _ => Or.inl rfl) fun _ => rfl
    exact ⟨t, ht, congrArg (fun u : State => { u with port := t.port, points := t.points }) (hsee s.port[n]),
      fun m => by rw [hport m]; exact ⟨rfl, rfl, rfl⟩,
      congrArg (fun u : State => { u.points with queue := t.points.queue }) (hsee s.port[n]),
      fun m hm => View.other_of_see rfl (hsee s.port[n]) hm⟩
  case scriptStart =>
    intro s
    obtain ⟨t, ht, hsee⟩ := View.keeps_all fun x => execScriptStart_see
      (V := { port := 0, own := Port.overScript x, others := Port.overScript x, points := Points.sansRun }) rfl
      (fun _ _ _ _ => rfl) (fun _ _ _ _ => rfl) s
    have hport := View.port_of_sees hsee (fun _ => Or.inr rfl) fun _ => rfl
    exact ⟨t, ht, congrArg (fun u : State => { u with port := t.port, points := t.points }) (hsee Port.reset),
      fun m => by rw [hport m]; exact ⟨rfl, rfl, rfl⟩,
      congrArg (fun u : State => { u.points with queue := t.points.queue, running := t.points.running, delay := t.points.delay })
        (hsee Port.reset)⟩
  case scriptDelay =>
    intro s
    obtain ⟨t, ht, hsee⟩ := View.keeps_all fun x => execScriptDelay_see
      (V := { port := 0, own := Port.overStatus x, others := Port.overStatus x, points := Points.sansRun }) rfl
      (fun _ _ _ _ => rfl) (fun _ _ _ => rfl) s
    have hport := View.port_of_sees hsee (fun _ => Or.inr rfl) fun _ => rfl
    exact ⟨t, ht, congrArg (fun u : State => { u with port := t.port, points := t.points }) (hsee Port.reset),
      fun m => by rw [hport m]; exact ⟨rfl, rfl, rfl⟩,
      congrArg (fun u : State => { u.points with queue := t.points.queue, running := t.points.running, delay := t.points.delay })
        (hsee Port.reset)⟩
  case eprKeepalive => exact fun n s => frame_port fun x => execEprKeepalive_see x n s

theorem frames_of_the_engine : Sys2Proof.framesOfThePorts7 := by
  refine ⟨?notSupportedRequest, ?getCapabilities, ?discoverIdentityUfp, ?transmitRequest, ?lineIdle, ?tsinktx, ?sinktxokSample,
    ?eprKeepaliveSend, ?getSinkCapSend, ?discoverIdentityCable⟩
  case notSupportedRequest => exact fun n s => frame_port fun x => execNotSupportedRequest_see x n s
  case getCapabilities =>
    intro n s
    obtain ⟨t, ht, hsee⟩ := View.keeps_all fun x => execGetCapabilities_see x n s
    have hport := View.port_of_sees hsee (fun _ => Or.inl rfl) fun _ => rfl
    exact ⟨t, ht, congrArg (fun u : State => { u with port := t.port, core := t.core, bg := t.bg }) (hsee s.port[n]),
      fun m => by rw [hport m]; exact ⟨rfl, rfl⟩, VCore.eq_of_sansRuns (congrArg State.core (hsee s.port[n])),
      congrArg (fun u : State => { u.bg with policy := t.bg.policy }) (hsee s.port[n]),
      fun m hm => View.other_of_see rfl (hsee s.port[n]) hm⟩
  case discoverIdentityUfp => exact fun n s => frame_port fun x => execDiscoverIdentityUfp_see x n s
  case transmitRequest =>
    intro n s
    obtain ⟨t, ht, heq, hport, -⟩ := frame_port (Q := fun t m => t.port[m] = { s.port[m] with pd := t.port[m].pd } ∧
      t.port[m].pd = { s.port[m].pd with ctx := t.port[m].pd.ctx, outbox := t.port[m].pd.outbox })
      fun x => execTransmitRequest_see x n s
    exact ⟨t, ht, heq, hport⟩
  case lineIdle => exact fun n s => frame_port fun x => execLineIdle_see x n s
  case tsinktx => exact fun n s => frame_port fun x => execTsinktx_see x n s
  case sinktxokSample => exact fun n v s => frame_port fun x => execSinktxokSample_see x n v s
  case eprKeepaliveSend => exact fun n s => frame_port fun x => execEprKeepaliveSend_see x n s
  case getSinkCapSend => exact fun n s => frame_port fun x => execGetSinkCapSend_see x n s
  case discoverIdentityCable => exact fun n s => frame_port fun x => execDiscoverIdentityCable_see x n s

theorem frames_of_the_hardReset : Sys2Proof.framesOfThePorts8 := by
  refine ⟨?tpshardreset, ?tsrcrecover, ?vbusPresent, ?dischargeEnd, ?cableReset, ?swapAnswer⟩
  case tpshardreset => exact fun n s => frame_ports fun x => execTpshardreset_see x n s
  case tsrcrecover =>
    intro n s
    obtain ⟨t, ht, hsee⟩ := View.keeps_all fun x => execTsrcrecover_see x n s
    have hport := View.port_of_sees hsee (fun _ => Or.inl rfl) fun _ => rfl
    exact ⟨t, ht, congrArg (fun u : State => { u with tt := t.tt, port := t.port, points := t.points }) (hsee s.port[n]),
      Timetable.eq_of_sansPlaces (congrArg State.tt (hsee s.port[n])),
      fun m => by rw [hport m]; exact ⟨rfl, rfl, rfl, rfl, rfl⟩,
      congrArg (fun u : State => { u.points with queue := t.points.queue }) (hsee s.port[n]),
      fun m hm => View.other_of_see rfl (hsee s.port[n]) hm⟩
  case vbusPresent =>
    intro n v s
    obtain ⟨t, ht, hsee⟩ := View.keeps_all fun x => execVbusPresent_see x n v s
    have hport := View.port_of_sees hsee (fun _ => Or.inl rfl) fun _ => rfl
    exact ⟨t, ht, congrArg (fun u : State => { u with tt := t.tt, port := t.port, host := t.host, ssn := t.ssn, resume := t.resume
                                                      seqTick := t.seqTick, store := t.store, points := t.points })
        (hsee s.port[n]),
      Timetable.eq_of_sansPlaces (congrArg State.tt (hsee s.port[n])),
      fun m => by rw [hport m]; exact ⟨rfl, rfl, rfl⟩, HostFe.eq_of_sansEvents (congrArg State.host (hsee s.port[n])),
      congrArg (fun u : State => { u.points with queue := t.points.queue }) (hsee s.port[n]),
      fun m hm => View.other_of_see rfl (hsee s.port[n]) hm⟩
  case dischargeEnd =>
    intro n v s
    obtain ⟨l, hl⟩ := execDischargeEnd_see n v s
    obtain ⟨t, ht, heq, hport, hhost, -⟩ :=
      frame_events (Q := fun t m => t.port[m] = Port.overDischarge t.port[m] s.port[m]) hl fun _ _ hm => hm
    obtain rfl : t.trips = l := congrArg State.trips heq
    exact ⟨t, ht, heq, fun m => by rw [hport m]; exact ⟨rfl, rfl, rfl, rfl, rfl⟩, hhost⟩
  case cableReset => exact fun n s => frame_port fun x => execCableReset_see x n s
  case swapAnswer => exact fun n s => frame_completions fun x => execSwapAnswer_see x n s

/-- Settles O58: of every command, a view of the state that takes in all but what the command changes stays the same. -/
theorem framesOfThePorts : Obligations.FramesOfThePorts :=
  ⟨frames_of_the_attach, frames_of_the_path, frames_of_the_capabilities, frames_of_the_contracts, frames_of_the_swaps,
    frames_of_the_modes, frames_of_the_engine, frames_of_the_hardReset⟩

end Sys2Proof.Machine
end

section
/-! PROOFS. What a detach cancels: the increments to fire, and no entry whose last increment's action still lasts (O22). -/

-- Declarations in turn: the stack of every thread counts toward the memory that the check allows the one text.
set_option Elab.async false

namespace Sys2Proof.Machine

/-! ### What a detach leaves of the Timetable (R25, R121, R133) -/

/-- A booking that is placed again with no increment to fire stays as it is. -/
theorem State.settleOne_fired (s : State) (x : Fin 256 × Nat) (i : Fin 256) (e : Entry) (hentry : s.tt.entries[i] = some e)
    (hfired : e.todo = []) : (s.settleOne x).tt.entries[i] = some e := by
  by_cases hx : x.1 = i
  · subst hx
    simp only [State.settleOne, hentry, hfired, placeAll, List.map_nil, List.getLast?_nil, Option.map_none, Option.getD_none]
    rw [Vector.getElem_set_fin, if_pos rfl, ← hfired]
  · have hset (o : Option Entry) : (s.tt.entries.set x.1 o)[i] = some e := by
      rw [Vector.getElem_set_fin, if_neg hx, hentry]
    unfold State.settleOne
    split
    · exact hentry
    · split
      · exact hset _
      · exact hset _

theorem State.cancelPort_keeps_fired (s : State) (n : PortId) (i : Fin 256) (e : Entry) (hentry : s.tt.entries[i] = some e)
    (hfired : e.todo = []) : (s.cancelPort n).tt.entries[i] = some e :=
  List.foldlRecOn (motive := fun u : State => u.tt.entries[i] = some e) _ State.settleOne
    (s.tt.cancelWhere_fired _ i e hentry hfired) fun u hu x _ => u.settleOne_fired x i e hu hfired

/-- A port but for the transition of its contract. -/
def Port.planOnly (p : Port) : Port := { Port.reset with ct := { Port.reset.ct with plan := p.ct.plan } }

/-- The Timetable and the transitions of the contracts. -/
def planView (n : PortId) : View :=
  { port := n, own := Port.planOnly, others := Port.planOnly, told := .completions, bg := fun _ => State.reset.bg
    points := fun _ => State.reset.points }

/-- The Timetable without the ports. -/
def portlessView (n : PortId) : View :=
  { port := n, own := fun _ => Port.reset, others := fun _ => Port.reset, told := .completions, bg := fun _ => State.reset.bg
    points := fun _ => State.reset.points }

theorem View.FreeModes.see_altDetach {V : View} {s : State} (hV : V.FreeModes)
    (hdrop : ∀ p n stop all, V.points (p.drop n stop all) = V.points p) :
    V.see (s.altDetach V.port) = V.see s := by
  have hend : V.see ((s.dropScripts V.port true false).modeEnd V.port) = V.see s :=
    hV.see_modeEnd.trans (View.see_of_points (hdrop ..))
  exact hV.see_altComplete.trans ((hV.see_modAlt _).trans (View.see_ite ((hV.see_script 7).trans hend) hend))

theorem View.tt_of_see {V : View} {s t : State} (hV : V.tt = id) (h : V.see t = V.see s) : t.tt = s.tt := by
  have htt : V.tt t.tt = V.tt s.tt := congrArg State.tt h
  rwa [hV] at htt

theorem State.plan_of_planView {s t : State} {n : PortId} (h : (planView n).see t = (planView n).see s) :
    t.port[n].ct.plan = s.port[n].ct.plan := by
  have hwhole : (planView n).whole := rfl
  have hown : (planView n).own t.port[n] = (planView n).own s.port[n] := View.own_of_see (Or.inr hwhole) h n
  have hct := congrArg (fun p : Port => p.ct.plan) hown
  exact hct

/-- A detach before it ends the contract. -/
def State.detachBegun (s : State) (n : PortId) : State :=
  ((((s.openPath n true false false).cancelPort n).modPp n fun p =>
    { p with st := if p.st = .tripped || p.st = .lockoff then .opn else p.st }).swapEnd n 5).altDetach n

theorem State.openPath_planView (s : State) (n : PortId) :
    (planView n).see (s.openPath n true false false) = (planView n).see s :=
  View.see_openPath (V := planView n) _ _ _

theorem State.detachBegun_planView (s : State) (n : PortId) :
    (planView n).see (s.detachBegun n) = (planView n).see ((s.openPath n true false false).cancelPort n) := by
  have hmodes : (planView n).FreeModes := ⟨rfl, fun _ _ => rfl, fun _ _ => rfl⟩
  exact (hmodes.see_altDetach fun _ _ _ _ => rfl).trans
    ((View.see_swapEnd (V := planView n) rfl 5).trans (View.see_modPp (V := planView n)))

theorem State.detachBegun_plan (s : State) (n : PortId) : (s.detachBegun n).port[n].ct.plan = s.port[n].ct.plan := by
  have hcancel : ((s.openPath n true false false).cancelPort n).port = (s.openPath n true false false).port := State.resettle_port _
  rw [State.plan_of_planView (s.detachBegun_planView n), hcancel, State.plan_of_planView (s.openPath_planView n)]

theorem State.detachBegun_keeps_fired (s : State) (n : PortId) (i : Fin 256) (e : Entry) (hentry : s.tt.entries[i] = some e)
    (hfired : e.todo = []) : (s.detachBegun n).tt.entries[i] = some e := by
  rw [View.tt_of_see rfl (s.detachBegun_planView n)]
  refine State.cancelPort_keeps_fired _ n i e ?_ hfired
  rw [View.tt_of_see rfl (s.openPath_planView n), hentry]

/-- Where no transition is admitted, the end of a contract cancels no booking of it. -/
theorem State.endContract_portlessView (s : State) (n : PortId) (hplan : s.port[n].ct.plan = none) :
    (portlessView n).see (s.endContract n) = (portlessView n).see s := by
  have hshed : (portlessView n).FreeShed := ⟨rfl, fun _ _ _ => rfl, rfl, fun _ _ _ => rfl⟩
  refine hshed.see_endContract (fun _ _ _ _ => rfl) fun q hq => ?_
  cases hplan.symm.trans hq

theorem State.detach_tt (s : State) (n : PortId) (vbus : Bool) (hplan : s.port[n].ct.plan = none) :
    (s.detach n vbus).tt = (s.detachBegun n).tt := by
  have hcontract : (portlessView n).see ((s.detachBegun n).endContract n) = (portlessView n).see (s.detachBegun n) :=
    State.endContract_portlessView _ n ((s.detachBegun_plan n).trans hplan)
  have hvconn : (portlessView n).see (((s.detachBegun n).endContract n).vconnRelease n) = (portlessView n).see (s.detachBegun n) :=
    (View.see_vconnRelease (V := portlessView n) rfl).trans hcontract
  have hload (u : State) (f : Port → Port) : (portlessView n).see ((u.modPort n f).load5 n) = (portlessView n).see u :=
    (View.see_load5 (V := portlessView n)).trans (View.see_modPort (V := portlessView n) fun _ => rfl)
  have hunatt (u : State) :
      (portlessView n).see (if vbus then u.enterUnatt n .unattSnk else u.toUnattHome n) = (portlessView n).see u :=
    View.see_ite (View.see_enterUnatt (V := portlessView n) rfl (fun _ _ _ => rfl) _)
      (View.see_toUnatt (V := portlessView n) rfl (fun _ _ _ => rfl) true)
  exact View.tt_of_see (V := portlessView n) rfl ((hunatt _).trans ((hload _ _).trans hvconn))

/-- An entry whose last increment has fired outlives a detach of its port. -/
theorem State.detach_keeps_fired (s : State) (n : PortId) (vbus : Bool) (i : Fin 256) (e : Entry)
    (hplan : s.port[n].ct.plan = none) (hentry : s.tt.entries[i] = some e) (hfired : e.todo = []) :
    (s.detach n vbus).tt.entries[i] = some e := by
  rw [s.detach_tt n vbus hplan, s.detachBegun_keeps_fired n i e hentry hfired]

theorem execTsrcdisconnect_detaches (s : State) (n : PortId) (hst : s.port[n].tc.st.isSource = true)
    (hstep : s.port[n].rs.step = .idle) : exec (.tsrcdisconnect n) s = .next (s.detach n false) := by
  show execTsrcdisconnect n s = _
  simp [execTsrcdisconnect, State.swapping, hst, hstep, -Fin.getElem_fin]

/-! ### A PATH grant that still lasts (R121, R239) -/

/-- The PATH booking of port 0 at 5 V and 3 A, of 64 tk from tick 32 of frame 0 on. -/
def lastPath : Entry :=
  { owner := 0, kind := .path, dur := 64, step := 60, inc := 0, todo := [(32, 60)], fired := 0, last := 32 }

/-- Port 0 attached as source, with the link alive and core SB running, at the grant tick of its PATH. -/
def lastPathDue : State :=
  { State.reset with
    sup := { Supplies.reset with hvUp := true, vcpOk := true, logicUp := true, linkSilent := false, primer := .done,
                                 primerEver := true, slotId := some 0 }
    core := Vector.replicate 5 { VCore.reset with up := true }
    time := { State.reset.time with ct := 32 }
    port := State.reset.port.set 0
      { Port.reset with tc := { TypeC.reset with st := .attSrc, opening := .opened }
                        pp := { Path.reset with cen := true, cpg := true }
                        rs := { Swap.reset with pr := .source, dr := .dfp } }
    tt := { State.reset.tt with entries := State.reset.tt.entries.set 0 (some lastPath) } }

/-- In that tick the path closes, and the 64 tk of the grant have begun. -/
def lastPathFired : State :=
  ((lastPathDue.fireEntry 0).closePath 0).modTc 0 fun t => { t with pathRetry := false, pathLimit := false }

theorem execPathGrant_closes (s : State) (n : PortId) (i : Fin 256) (hdue : s.dueEntry n.val .path = some i)
    (htrim : s.port[n].pp.trimPend = 0) (hopen : s.port[n].pp.st = .opn) (hmay : s.mayClose n = true)
    (hcpg : s.port[n].pp.cpg = true) (hra : s.port[n].tc.raOther = false) (hbase : s.port[n].rs.baseVc = false) :
    exec (.pathGrant n) s = .next (((s.fireEntry i).closePath n).modTc n fun t =>
      { t with pathRetry := false, pathLimit := false }) := by
  have hport : (s.fireEntry i).port = s.port := rfl
  have hmay' : (s.fireEntry i).mayClose n = true := hmay
  have htrim' : (s.fireEntry i).trimGrant n = s.fireEntry i := by simp [State.trimGrant, hport, htrim, -Fin.getElem_fin]
  show execPathGrant n s = _
  simp only [execPathGrant, hdue, htrim', hport, hopen, hmay', hcpg]
  simp [State.vconnTry, State.closePath, hport, hopen, hmay', hcpg, hra, hbase, -Fin.getElem_fin]

theorem lastPathDue_fires : exec (.pathGrant 0) lastPathDue = .next lastPathFired :=
  execPathGrant_closes lastPathDue 0 0 (by decide) rfl rfl (by decide) rfl rfl rfl

theorem lastPathFired_entry : lastPathFired.tt.entries[(0 : Fin 256)] = some { lastPath with todo := [], fired := 1 } := by
  decide

/-- Refutes O22: a detach cancels the port's granted and unfired bookings (R25, R213), and an entry whose last increment has
fired is held until that action ends at t + DUR (R121). Where a source's partner leaves while the 64 tk of its PATH last
(`lastPathDue_fires` leads there), the entry stands on after the detach, and the statement says that the port has none. -/
theorem not_attachAndDetach : ¬ Obligations.AttachAndDetach := by
  unfold Obligations.AttachAndDetach
  rintro ⟨-, -, -, -, -, -, -, -, -, -, -, -, -, -, -, -, -, -, -, -, -, -, hdetach, -⟩
  have hst : lastPathFired.port[(0 : PortId)].tc.st.isSource = true := by decide
  have hstep : lastPathFired.port[(0 : PortId)].rs.step = .idle := by decide
  have hplan : lastPathFired.port[(0 : PortId)].ct.plan = none := by decide
  obtain ⟨t, ht, -, -, -, -, -, -, -, -, -, -, hnone⟩ := hdetach lastPathFired 0 hst hstep
  obtain rfl := Host.Outcome.next.inj ((execTsrcdisconnect_detaches lastPathFired 0 hst hstep).symm.trans ht)
  have hgone := hnone 0
  rw [lastPathFired.detach_keeps_fired 0 false 0 _ hplan lastPathFired_entry rfl] at hgone
  exact absurd hgone (by decide)

end Sys2Proof.Machine
end

section
/-! PROOFS. Requests of a source: one that is rejected ends a row of budget Waits (O26). -/

-- Declarations in turn: the stack of every thread counts toward the memory that the check allows the one text.
set_option Elab.async false

namespace Sys2Proof.Machine

/-! ### A Request that matches no object (R302, R304) -/

/-- Where no Request of a port below is at hand, REQUEST answers that of its own port alone. -/
theorem execRequest_first {s : State} {n : PortId} (hfirst : s.firstRequest n = true) :
    exec (.request n) s = .next (s.requestOne n) := by
  have hnone : (allPorts.filter fun m => decide (m < n) && s.requestHere m) = [] := by
    rw [List.filter_eq_nil_iff]
    intro m hm
    simpa only [Bool.not_eq_true', Bool.not_eq_true] using List.all_eq_true.mp hfirst m hm
  show execRequest n s = _
  rw [execRequest, hnone, List.foldl_nil]

/-- The core of a source rejects a Request that matches no object last sent. -/
theorem execRequest_rejects {s u : State} {n : PortId} {m : PdMsg} (hfirst : s.firstRequest n = true)
    (htake : s.takeMsg n isRequest = some (m, false, u)) (hsource : u.port[n].tc.st.isSource = true)
    (hstray : u.port[n].pd.asked m.body = none) : exec (.request n) s = .next (u.answerReq n .reject) := by
  rw [execRequest_first hfirst]
  simp [State.requestOne, htake, hsource, hstray, -Fin.getElem_fin]

/-- An answer to a Request that is no budget Wait ends a row of those. -/
theorem State.answerReq_waits (s : State) (n : PortId) (b : PdBody) : (s.answerReq n b).port[n].ct.waits = 0 := by
  simp [State.answerReq, State.sendMsg, -Fin.getElem_fin]

/-- A Request for the second of the objects sent. -/
def secondObjectRequest : PdMsg :=
  { sop := .sop, id := 1, rev := 0b10, body := .request { pos := 2, opI := 300, maxI := 300, mv := 0, eprCapable := false },
    len := 1, chunk := none }

/-- Port 0 sources 5 V, 3 A, the one object it has sent, with `queue` received. It has answered one Request with a budget
Wait. -/
def waitedSource (queue : List PdMsg) : State :=
  { State.reset with
    core := Vector.replicate 5 { VCore.reset with up := true }
    port := State.reset.port.set 0
      { Port.reset with
        tc := { TypeC.reset with st := .attSrc }
        pp := { Path.reset with st := .closed }
        pd := { Pd.reset with objs := [.fixed 5000 300], rxq := queue }
        ct := { Contract.reset with kind := .typeC, mv := 5000, i10 := 300, imax := 3000, waits := 1 } } }

theorem waitedSource_takeMsg :
    (waitedSource [secondObjectRequest]).takeMsg 0 isRequest = some (secondObjectRequest, false, waitedSource []) := by
  rfl

theorem waitedSource_waits : (waitedSource []).port[(0 : PortId)].ct.waits = 1 := by
  rfl

/-- Refutes O26: the Reject to a Request that matches no object ends a row of budget Waits (R304), so where the source has
answered the Request before with such a Wait, the count of them changes, and the statement says that the contract stays as it
was. -/
theorem not_sourceContracts : ¬ Obligations.SourceContracts := by
  unfold Obligations.SourceContracts
  rintro ⟨-, -, -, -, -, -, hreject, -⟩
  have hfirst : (waitedSource [secondObjectRequest]).firstRequest 0 = true := by decide
  have hstray : (waitedSource []).port[(0 : PortId)].pd.asked secondObjectRequest.body = none := by decide
  obtain ⟨t, ht, -, hsame, -⟩ := hreject _ _ 0 secondObjectRequest hfirst waitedSource_takeMsg rfl hstray
  obtain rfl := Host.Outcome.next.inj ((execRequest_rejects hfirst waitedSource_takeMsg rfl hstray).symm.trans ht)
  have hwaits := State.answerReq_waits (waitedSource []) 0 .reject
  rw [hsame, waitedSource_waits] at hwaits
  exact absurd hwaits (by decide)

end Sys2Proof.Machine
end

section
/-! PROOFS. SWAP, ALT_MODE and PATH_CLEAR (O41). -/

-- Declarations in turn: the stack of every thread counts toward the memory that the check allows the one text.
set_option Elab.async false

namespace Sys2Proof.Machine

/-! ### A command for a port at its turn -/

theorem State.modAlt_vconnCount (s : State) (n : PortId) (f : Alt → Alt) (k : PlatId) :
    (s.modAlt n f).vconnCount k = s.vconnCount k := by
  have hport (m : PortId) : (s.modAlt n f).port[m].tc = s.port[m].tc ∧ (s.modAlt n f).port[m].rs = s.port[m].rs := by
    by_cases hm : n = m
    · subst hm
      rw [State.modAlt_same]
      exact ⟨rfl, rfl⟩
    · rw [State.modAlt_other _ _ _ _ hm]
      exact ⟨rfl, rfl⟩
  simp only [State.vconnCount, hport]

/-- Who asked for a discovery is no condition of its beginning. -/
theorem State.mayDiscover_host {s t : State} {n : PortId} {r : Option CmdRef}
    (hport : t.port = (s.modAlt n fun a => { a with host := r }).port) (hplat : t.plat = s.plat) (hcore : t.core = s.core)
    (hstore : t.store = s.store) (htt : t.tt = s.tt) : t.mayDiscover n = s.mayDiscover n := by
  have hcount (k : PlatId) : t.vconnCount k = s.vconnCount k := by
    rw [← State.modAlt_vconnCount s n fun a => { a with host := r }, State.vconnCount, hport, State.vconnCount]
  simp only [State.mayDiscover, State.served, State.portCore, State.swapFree, State.modesAllowed, State.swapPending,
    State.swapWanted, State.pMeasFits, State.pMeasQ, State.stepBudget, State.rsCfg, State.cfgW, State.vconnRoom,
    State.vcMax, hcount, hport, hplat, hcore, hstore, htt, State.modAlt_same]
  rfl

theorem State.modPort_modPort (s : State) (n : PortId) (f g : Port → Port) :
    (s.modPort n f).modPort n g = s.modPort n fun p => g (f p) := by
  rw [State.modPort, State.modPort_same]
  simp only [State.modPort, Vector.set_set]

/-! ### SWAP (R336, R340, R343, R344) -/

/-- The code of a swap that the Station asks for. -/
def State.askCode (s : State) (n : PortId) : SwapKind → SwapCode
  | .power => if s.port[n].tc.st = .attSrc then .prSrcSnk else .prSnkSrc
  | .data => .dr
  | .vconn => if s.port[n].tc.vconnOn then .vconnOff else .vconnOn

/-- All but the draw of port `n`, its messages, and the bookings. -/
def stopView (n : PortId) : View := { port := n, own := Port.reset.overStop, tt := Timetable.sansPlaces }

/-- A swap asked for: its request is handed over, or waits for the draw to stop. -/
theorem State.swapAsk_see (s : State) (n : PortId) (k : SwapKind) (cmd : Option CmdRef) :
    (stopView n).see (s.swapAsk n k cmd) = (stopView n).see
      (s.modRs n fun r => { r with kind := some k, host := cmd, code := s.askCode n k, step := .asked }) := by
  have hgo (c : SwapCode) : (s.modRs n fun r => { r with kind := some k, host := cmd }).swapGo n c .asked =
      s.modRs n fun r => { r with kind := some k, host := cmd, code := c, step := .asked } := by
    rw [State.swapGo, State.modRs, State.modRs, State.modPort_modPort, State.modRs]
  have hsend (u : State) (b : PdBody) : (stopView n).see (u.sendMsg n .sop b true) = (stopView n).see u :=
    View.see_sendMsg (V := stopView n) _ _ _
  have hstop (u : State) (b : PdBody) : (stopView n).see (u.stopBook n b) = (stopView n).see u :=
    View.see_stopBook (V := stopView n) freePlaces_sansPlaces b
  have htc : (s.modRs n fun r => { r with kind := some k, host := cmd }).port[n].tc = s.port[n].tc := by
    rw [State.modRs_same]
  cases k with
  | power =>
    simp only [State.swapAsk, State.askCode, htc]
    split
    · rw [hsend, hgo]
    · rw [hstop, hgo]
  | data =>
    simp only [State.swapAsk, State.askCode]
    rw [hsend, hgo]
  | vconn =>
    simp only [State.swapAsk, State.askCode, htc]
    rw [hsend, hgo]

/-- SWAP at its turn: the swap it names is asked for, and the command stands accepted. -/
theorem execSwap_asks {s : State} {p : Packet} {n : PortId} {k : SwapKind} (hturn : s.turn 0x0210 p)
    (hcheck : s.coreCheck 0x0210 p = none) (htarget : Obj.ofTarget p.target = some (.port n))
    (hkind : swapKind (p.payload.headD 0).toNat = some k) (hjudge : judgeSwap s p = none) :
    ∃ t, exec (.swap p) s = .next t ∧ t.port[n].rs.kind = some k ∧ t.port[n].rs.step = .asked ∧
      t.port[n].rs.code = s.askCode n k ∧
      t.port[n].rs.host = some { host := p.host, tag := p.tag, op := 0x0210, target := p.target } ∧
      s.accepted t p 0x0210 ∧ t.port[n].tc.st = s.port[n].tc.st ∧ t.port[n].pp = s.port[n].pp := by
  obtain ⟨ct, hrow⟩ := row_turn _ judgeSwap effSwap p s hturn hcheck hjudge
  have heff : effSwap s.rest ⟨0x0210, p, ct⟩ = (s.rest.accept ⟨0x0210, p, ct⟩).swapAsk n k
      (some { host := p.host, tag := p.tag, op := 0x0210, target := p.target }) := by
    simp only [effSwap, portOf_target _ _ htarget, hkind, refOf_eq]
  have hsee := (s.rest.accept ⟨0x0210, p, ct⟩).swapAsk_see n k
    (some { host := p.host, tag := p.tag, op := 0x0210, target := p.target })
  have hport := View.own_of_see (V := stopView n) (Or.inl rfl) hsee n
  rw [State.modRs_same] at hport
  have hrs := congrArg Port.rs hport
  have htc := congrArg (fun q : Port => q.tc.st) hport
  have hpp := congrArg Port.pp hport
  rw [← heff] at hsee hrs htc hpp
  have hhost := congrArg State.host hsee
  have hactive := congrArg State.active hsee
  exact ⟨_, hrow, congrArg Swap.kind hrs, congrArg Swap.step hrs, congrArg Swap.code hrs, congrArg Swap.host hrs,
    accepted_of s _ p _ ct (congrArg (fun v : Vector HostFe 5 => v[p.host.ix].replies) hhost) hactive, htc, hpp⟩

/-! ### ALT_MODE (R357, R359, R368) -/

/-- ALT_MODE at its turn, up to what it begins: the host that waits is kept, and the command stands accepted. -/
theorem execAltMode_turn {s : State} {p : Packet} {n : PortId} (hturn : s.turn 0x0220 p)
    (hcheck : s.coreCheck 0x0220 p = none) (htarget : Obj.ofTarget p.target = some (.port n))
    (hjudge : judgeAltMode s p = none) :
    ∃ u : State, u.port[n] = { s.port[n] with alt := { s.port[n].alt with host := some { host := p.host, tag := p.tag, op := 0x0220, target := p.target } } } ∧
      s.accepted u p 0x0220 ∧ u.mayDiscover n = s.mayDiscover n ∧
      exec (.altMode p) s = .next (if p.payload.headD 0 = 0 then (if u.mayDiscover n then u.discoveryGo n else u)
        else if u.port[n].alt.step = .exitSafe || u.port[n].alt.step = .exiting then u else u.altLeave n) := by
  obtain ⟨ct, hrow⟩ := row_turn _ judgeAltMode effAltMode p s hturn hcheck hjudge
  refine ⟨(s.rest.accept ⟨0x0220, p, ct⟩).modAlt n fun a =>
    { a with host := some { host := p.host, tag := p.tag, op := 0x0220, target := p.target } }, ?_, ?_, ?_, ?_⟩
  · rw [State.modAlt_same]
    rfl
  · exact accepted_of s _ p _ ct rfl rfl
  · have hport : ((s.rest.accept ⟨0x0220, p, ct⟩).modAlt n fun a =>
        { a with host := some { host := p.host, tag := p.tag, op := 0x0220, target := p.target } }).port =
      (s.modAlt n fun a => { a with host := some { host := p.host, tag := p.tag, op := 0x0220, target := p.target } }).port := rfl
    exact State.mayDiscover_host hport rfl rfl rfl rfl
  · show execAltMode p s = _
    rw [execAltMode, hrow]
    simp only [effAltMode, portOf_target _ _ htarget, refOf_eq]
    rfl

/-! ### PATH_CLEAR (R239, R613) -/

/-- PATH_CLEAR at its turn: the path is open, and what follows depends on a PATH booking that waited. -/
theorem execPathClear_turn {s : State} {p : Packet} {n : PortId} (hturn : s.turn 0x0230 p)
    (hcheck : s.coreCheck 0x0230 p = none) (htarget : Obj.ofTarget p.target = some (.port n))
    (hlock : s.port[n].pp.st = .lockoff) :
    ∃ (ct : CT) (u : State), u.port[n] = { s.port[n] with pp := { s.port[n].pp with st := .opn } } ∧ u.host = s.host ∧ u.hs = s.hs ∧
      exec (.pathClear p) s = .next (if s.port[n].tc.st.attached && s.port[n].tc.pathRetry then
          (u.bookPath n).replyTag p 0x0230
            (if s.hs.warn && !u.pathHeld n && (u.bookPath n).port[n].tc.pathRetry then stBudgetRefused else stOk) []
        else u.ok ⟨0x0230, p, ct⟩ []) := by
  have hjudge : judgePathClear s.rest p = none := by
    simp [judgePathClear, portOf_target _ _ htarget, rest_port, hlock, badIf, -Fin.getElem_fin]
  obtain ⟨ct, hrow⟩ := row_turn _ judgePathClear effPathClear p s hturn hcheck hjudge
  have hport : (s.rest.modPp n fun q => { q with st := .opn }).port[n] =
      { s.port[n] with pp := { s.port[n].pp with st := .opn } } := State.modPp_same ..
  refine ⟨ct, s.rest.modPp n fun q => { q with st := .opn }, hport, rfl, rfl, ?_⟩
  show execPathClear p s = _
  rw [execPathClear, hrow]
  simp only [effPathClear, portOf_target _ _ htarget, hport]
  rfl

/-- All but what the PATH booking of port `n` changes. -/
def pathBookView (n : PortId) : View :=
  { port := n, tt := Timetable.sansPlaces
    own := fun p => { p with tc := { p.tc with pathRetry := false }, pp := { p.pp with code := 0, lim := 0 }
                             pd := { p.pd with hrPend := false } } }

theorem State.bookPath_see (s : State) (n : PortId) : (pathBookView n).see (s.bookPath n) = (pathBookView n).see s :=
  View.see_bookPath (V := pathBookView n) freePlaces_sansPlaces

theorem State.answered_replyTag {s u : State} (hhost : u.host = s.host) (p : Packet) (op st : BitVec 16) :
    s.answered (u.replyTag p op st []) p op st [] := by
  simp [State.answered, State.replyTag, hhost, -Fin.getElem_fin]

/-- Settles O41: each opcode at its turn takes its effect, and the views of a stopped draw and of a PATH booking keep what the
statement says to be kept. -/
theorem portActions : Obligations.PortActions := by
  unfold Obligations.PortActions
  refine ⟨?source, ?sink, ?data, ?vconn, ?discovers, ?waits, ?joins, ?clear, ?clearBooks⟩
  case source =>
    intro s p n hturn hcheck htarget hkind hjudge hst
    have h := execSwap_asks hturn hcheck htarget hkind hjudge
    rwa [State.askCode, if_pos hst] at h
  case sink =>
    intro s p n hturn hcheck htarget hkind hjudge hst
    have h := execSwap_asks hturn hcheck htarget hkind hjudge
    rwa [State.askCode, if_neg hst] at h
  case data => exact fun s p n hturn hcheck htarget hkind hjudge => execSwap_asks hturn hcheck htarget hkind hjudge
  case vconn => exact fun s p n hturn hcheck htarget hkind hjudge => execSwap_asks hturn hcheck htarget hkind hjudge
  case discovers =>
    intro s p n hturn hcheck htarget hact hjudge hmay
    obtain ⟨u, hport, haccepted, hdiscover, hexec⟩ := execAltMode_turn hturn hcheck htarget hjudge
    rw [if_pos hact, hdiscover, if_pos hmay] at hexec
    refine ⟨_, hexec, ?_, ?_, ?_, haccepted, ?_⟩ <;>
      simp [State.discoveryGo, State.vdmSend, State.sendMsg, hport, -Fin.getElem_fin]
  case waits =>
    intro s p n hturn hcheck htarget hact hjudge hcontract
    obtain ⟨u, hport, haccepted, hdiscover, hexec⟩ := execAltMode_turn hturn hcheck htarget hjudge
    have hmay : s.mayDiscover n = false := by simp [State.mayDiscover, hcontract, -Fin.getElem_fin]
    rw [if_pos hact, hdiscover, hmay, if_neg Bool.false_ne_true] at hexec
    exact ⟨_, hexec, by rw [hport], haccepted, by rw [hport], by rw [hport]⟩
  case joins =>
    intro s p n hturn hcheck htarget hact hjudge hstep
    obtain ⟨u, hport, haccepted, -, hexec⟩ := execAltMode_turn hturn hcheck htarget hjudge
    have hleaving : (u.port[n].alt.step = .exitSafe || u.port[n].alt.step = .exiting) = true := by
      rw [hport]
      simpa using hstep.symm
    rw [if_neg (by rw [hact]; decide), if_pos hleaving] at hexec
    exact ⟨_, hexec, by rw [hport], haccepted, by rw [hport]⟩
  case clear =>
    intro s p n hturn hcheck htarget hlock hnone
    obtain ⟨ct, u, hport, hhost, -, hexec⟩ := execPathClear_turn hturn hcheck htarget hlock
    rw [if_neg (by rcases hnone with h | h <;> simp [h, -Fin.getElem_fin])] at hexec
    exact ⟨_, hexec, (congrArg Port.pp hport :), answered_repl s u p _ [] ct hhost, (congrArg Port.pd hport :)⟩
  case clearBooks =>
    intro s p n hturn hcheck htarget hlock hatt hretry
    obtain ⟨ct, u, hport, hhost, -, hexec⟩ := execPathClear_turn hturn hcheck htarget hlock
    rw [if_pos (by rw [hatt, hretry]; rfl)] at hexec
    have hown := View.own_of_see (V := pathBookView n) (Or.inl rfl) (u.bookPath_see n) n
    rw [hport] at hown
    have hbooked : (u.bookPath n).host = s.host := (congrArg State.host (u.bookPath_see n)).trans hhost
    have hst : (u.bookPath n).port[n].pp.st = .opn := by
      simpa only [pathBookView] using congrArg (fun q : Port => q.pp.st) hown
    have htc : (u.bookPath n).port[n].tc.st = s.port[n].tc.st := by
      simpa only [pathBookView] using congrArg (fun q : Port => q.tc.st) hown
    refine ⟨_, hexec, by rw [State.replyTag_port, hst], ?_, by rw [State.replyTag_port, htc]⟩
    split
    · next hrefused =>
      simp only [Bool.and_eq_true] at hrefused
      obtain ⟨⟨hwarn, -⟩, hagain⟩ := hrefused
      exact Or.inr ⟨hwarn, hagain, State.answered_replyTag hbooked p _ _⟩
    · exact Or.inl (State.answered_replyTag hbooked p _ _)

end Sys2Proof.Machine
end

section
/-! SUPPORT. What thermal limits and trips leave alone of a port's calibration (O25). -/

-- Declarations in turn: the stack of every thread counts toward the memory that the check allows the one text.
set_option Elab.async false

namespace Sys2Proof.Machine

/-! ### The calibration of a port -/

/-- A path but for the results of its calibration pulses, and the pulse in flight. -/
def Path.calOnly (p : Path) : Path :=
  { Path.reset with rHeld := p.rHeld, rc := p.rc, rKnown := p.rKnown, rCal := p.rCal, rCalQ := p.rCalQ, rejRun := p.rejRun
                    calAt := p.calAt, pulse := p.pulse }

def State.cal (s : State) (n : PortId) : Path := s.port[n].pp.calOnly

def Port.calOnly (p : Port) : Port := { Port.reset with pp := p.pp.calOnly }

/-- The calibration of every port. -/
def calView (n : PortId) : View :=
  { port := n, own := Port.calOnly, others := Port.calOnly, told := .completions, tt := fun _ => State.reset.tt
    core := fun _ => State.reset.core, bg := fun _ => State.reset.bg, points := fun _ => State.reset.points }

theorem State.cal_of_see {s t : State} {n : PortId} (h : (calView n).see t = (calView n).see s) : t.cal n = s.cal n :=
  congrArg Port.pp (View.own_of_see (V := calView n) (Or.inr rfl) h n)

theorem State.cal_of_port {s t : State} {n : PortId} (h : t.port = s.port) : t.cal n = s.cal n := by
  rw [State.cal, h, State.cal]

theorem State.cal_modPort (s : State) (n : PortId) (f : Port → Port)
    (h : ∀ p : Port, (f p).pp.calOnly = p.pp.calOnly := by intro; rfl) : (s.modPort n f).cal n = s.cal n := by
  rw [State.cal, State.modPort_same, h, State.cal]

theorem State.cal_modPp (s : State) (n : PortId) (f : Path → Path) (h : ∀ p : Path, (f p).calOnly = p.calOnly := by intro; rfl) :
    (s.modPp n f).cal n = s.cal n :=
  State.cal_modPort s n _ fun p => h p.pp

theorem State.cal_ite {c : Prop} {_ : Decidable c} {s t u : State} {n : PortId} (ht : t.cal n = s.cal n) (hu : u.cal n = s.cal n) :
    (if c then t else u).cal n = s.cal n := by
  split
  · exact ht
  · exact hu

theorem State.pulse_of_cal {s t : State} {n : PortId} (h : t.cal n = s.cal n) : t.port[n].pp.pulse = s.port[n].pp.pulse := by
  have hpulse := congrArg Path.pulse h
  exact hpulse

/-- The load of a fast-trip code is none of it. -/
theorem Path.calOnly_loadFt (p : Path) : p.loadFt.calOnly = p.calOnly := by
  rw [Path.loadFt_eq]
  rfl

theorem Path.calOnly_setTrip (p : Path) (c : Cause) : (p.setTrip c).calOnly = p.calOnly := by
  cases c <;> rfl

/-- An opening ends the pulse in flight; where none is, the calibration stays. -/
theorem Path.calOnly_opened (p : Path) (disch trip : Bool) (hpulse : p.pulse = none) :
    (p.opened disch trip).calOnly = p.calOnly := by
  unfold Path.opened
  split <;> simp only [Path.calOnly, hpulse]

/-! ### A thermal limit (R308) -/

theorem calView_freeCaps (n : PortId) : (calView n).FreeCaps where
  policy _ _ := rfl
  kernel _ _ _ _ _ := rfl
  queue _ _ := rfl
  own _ _ := rfl

theorem State.thermalSet_cal (s : State) (n : PortId) : (s.thermalSet n).cal n = s.cal n := by
  have hct (u : State) (f : Contract → Contract) : (calView n).see (u.modCt n f) = (calView n).see u :=
    View.see_modCt (V := calView n)
  have hset (f : Contract → Contract) : (calView n).see ((s.modCt n f).contractEvent n 4) = (calView n).see s :=
    (View.see_emit (V := calView n) rfl ..).trans (hct s f)
  refine State.cal_of_see (View.see_ite rfl (View.see_ite (View.see_ite ?_ ?_) (hset _)))
  · exact ((calView_freeCaps n).see_capsSend _).trans ((hct ..).trans (hset _))
  · exact (hct ..).trans (hset _)

/-! ### A trip (R252 to R257, R261) -/

theorem State.sketchTrigger_cal (s : State) (n : PortId) (c : Cause) : (s.sketchTrigger n c).cal n = s.cal n := by
  have hold : (s.holdTrigger n c).cal n = s.cal n := by
    unfold State.holdTrigger
    dsimp only
    split
    · exact State.cal_of_port rfl
    · refine State.cal_ite (State.cal_of_port rfl) ?_
      exact State.cal_modPp (s.modPlat (platOf n) _) n _
  unfold State.sketchTrigger
  refine State.cal_ite hold (State.cal_ite (State.cal_of_port rfl) ?_)
  split <;> exact State.cal_of_port rfl

theorem State.openPath_cal (s : State) (n : PortId) (disch trip prot : Bool) (hpulse : s.port[n].pp.pulse = none) :
    (s.openPath n disch trip prot).cal n = s.cal n := by
  have hopen : (s.modPp n fun p =>
      if p.st.live then { p.opened disch trip with left := some (s.time.ct, p.st, p.sink, p.i2t) } else p).cal n = s.cal n := by
    rw [State.cal, State.modPp_same]
    split
    · exact Path.calOnly_opened s.port[n].pp disch trip hpulse
    · rfl
  unfold State.openPath
  exact State.cal_ite (Eq.trans (State.cal_modPort _ n _) hopen) hopen

theorem State.cancelPort_cal (s : State) (n : PortId) : (s.cancelPort n).cal n = s.cal n :=
  State.cal_of_port (State.resettle_port _)

theorem State.lockoffCheck_cal (s : State) (n : PortId) : (s.lockoffCheck n).cal n = s.cal n := by
  have hlock : (s.modPp n fun p => { p with st := .lockoff }).cal n = s.cal n := State.cal_modPp s n _
  unfold State.lockoffCheck
  dsimp only
  split
  · split
    · refine Eq.trans ?_ hlock
      exact State.cal_of_port rfl
    · exact (State.cal_of_port (State.emit_port ..)).trans hlock
  · rfl

theorem calView_freeModes (n : PortId) : (calView n).FreeModes := ⟨rfl, fun _ _ => rfl, fun _ _ => rfl⟩

theorem calView_freeShed (n : PortId) : (calView n).FreeShed := ⟨rfl, fun _ _ _ => rfl, rfl, fun _ _ _ => rfl⟩

theorem State.endContract_cal (s : State) (n : PortId) : (s.endContract n).cal n = s.cal n := by
  refine Eq.trans (State.cal_of_see (calView_freeShed n).see_shedEnd) ?_
  refine Eq.trans (State.cal_modPort _ n _ fun p => ?_) ?_
  · exact Path.calOnly_loadFt _
  · split
    · exact State.cal_of_port (State.cancelEntry_port ..)
    · rfl

theorem State.errRecov_cal (s : State) (n : PortId) (hpulse : s.port[n].pp.pulse = none) : (s.errRecov n).cal n = s.cal n := by
  have hmodes : (((s.openPath n true false false).cancelPort n).altDetach n).cal n = s.cal n :=
    (State.cal_of_see ((calView_freeModes n).see_altDetach fun _ _ _ _ => rfl)).trans
      ((State.cancelPort_cal _ n).trans (s.openPath_cal n true false false hpulse))
  have hvconn (u : State) : (u.vconnRelease n).cal n = u.cal n := State.cal_of_see (View.see_vconnRelease (V := calView n) rfl)
  have hload (u : State) : (u.load5 n).cal n = u.cal n := State.cal_of_see (View.see_load5 (V := calView n))
  unfold State.errRecov
  split
  · refine (State.cal_of_port (State.typecEvent_port ..)).trans ((hload _).trans ((State.cal_modPort _ n _).trans ?_))
    exact (hvconn _).trans ((State.endContract_cal _ n).trans hmodes)
  · rfl

theorem State.swapFail_cal (s : State) (n : PortId) (hpulse : s.port[n].pp.pulse = none) : (s.swapFail n).cal n = s.cal n := by
  have hend : (((s.cancelEntry n s.port[n].rs.entry).modRs n fun r => { r with fail := true }).swapEnd n 4).cal n = s.cal n :=
    (State.cal_of_see (View.see_swapEnd (V := calView n) rfl 4)).trans
      ((State.cal_modPort _ n _).trans (State.cal_of_port (State.cancelEntry_port ..)))
  unfold State.swapFail
  split
  · rfl
  · exact (State.errRecov_cal _ n ((State.pulse_of_cal hend).trans hpulse)).trans hend

theorem State.tripConsequence_cal (s : State) (n : PortId) (hpulse : s.port[n].pp.pulse = none) :
    (s.tripConsequence n).cal n = s.cal n := by
  unfold State.tripConsequence
  dsimp only
  split
  · exact s.swapFail_cal n hpulse
  · split
    · exact (State.cal_modPort _ n _).trans (s.endContract_cal n)
    · exact State.cal_ite (State.cal_modPort s n _) rfl

theorem State.tripRank_cal (s : State) (n : PortId) (c : Cause) : (s.tripRank n c).cal n = s.cal n := by
  unfold State.tripRank
  exact State.cal_ite (State.cal_of_port rfl) rfl

/-- A trip of a port with no pulse in flight leaves its calibration alone. -/
theorem State.trip_cal (s : State) (n : PortId) (c : Cause) (hpulse : s.port[n].pp.pulse = none) :
    (s.trip n c).cal n = s.cal n := by
  have hsketch : (s.sketchTrigger n c).cal n = s.cal n := s.sketchTrigger_cal n c
  have hopened : (((s.sketchTrigger n c).openPath n true true true).cancelPort n).cal n = s.cal n :=
    (State.cancelPort_cal _ n).trans
      ((State.openPath_cal _ n true true true ((State.pulse_of_cal hsketch).trans hpulse)).trans hsketch)
  unfold State.trip
  dsimp only
  refine State.cal_ite ?_ (State.cal_ite ?_ rfl)
  · exact (State.tripRank_cal _ n c).trans (State.cal_modPp s n _ fun p => p.calOnly_setTrip c)
  · generalize hu : State.lockoffCheck _ n = u
    have hlock : u.cal n = s.cal n := by
      rw [← hu]
      refine (State.lockoffCheck_cal _ n).trans ?_
      simp only [State.cal, State.modPort_same]
      exact (Path.calOnly_setTrip _ c).trans hopened
    exact (u.tripConsequence_cal n ((State.pulse_of_cal hlock).trans hpulse)).trans hlock

/-- T_FET judged against its limits leaves the calibration alone, where no pulse is in flight. -/
theorem State.thermJudge_cal (s : State) (n : PortId) (hpulse : s.port[n].pp.pulse = none) :
    (s.thermJudge n).cal n = s.cal n := by
  unfold State.thermJudge
  split
  · rfl
  · next t _ =>
    extract_lets m u
    have hwarn : u.cal n = s.cal n := by
      have hmax : (s.modMs n fun m => { m with tMax := some (max t (m.tMax.getD t)) }).cal n = s.cal n := State.cal_modPort s n _
      exact State.cal_ite ((State.thermalSet_cal _ n).trans
        ((State.cal_of_port (State.emit_port ..)).trans ((State.cal_modPp _ n _).trans hmax))) hmax
    exact State.cal_ite ((u.trip_cal n .therm ((State.pulse_of_cal hwarn).trans hpulse)).trans hwarn) hwarn

end Sys2Proof.Machine
end

section
/-! PROOFS. Calibration pulses, their results, the estimate of the pair and the trim loop (O25). -/

-- Declarations in turn: the stack of every thread counts toward the memory that the check allows the one text.
set_option Elab.async false

namespace Sys2Proof.Machine

/-! ### CAL_GRANT (R245 to R247) -/

theorem State.trimGrant_none {s : State} {n : PortId} (h : s.port[n].pp.trimPend = 0) : s.trimGrant n = s := by
  simp [State.trimGrant, h, -Fin.getElem_fin]

/-- A pulse may start at a grant. -/
def State.pulseMay (s : State) (n : PortId) : Bool :=
  s.port[n].pp.st = .closed && !s.port[n].pp.sink && s.port[n].rs.pr ≠ .sink && decide (s.port[n].pp.meanAbs 20 ≤ 4000) &&
    !s.port[n].pp.i2tOver

theorem execCalGrant_due {s : State} {n : PortId} {i : Fin 256} (hdue : s.dueEntry n.val .cal = some i)
    (htrim : s.port[n].pp.trimPend = 0) :
    exec (.calGrant n) s = .next (if s.pulseMay n then
        (s.fireEntry i).modPp n fun p => { p with calSkip := false, pulse := some (s.time.ct, (s.calMa n).floor.toNat) }
      else (s.fireEntry i).modPp n fun p => { p with calSkip := true }) := by
  have htrim' : (s.fireEntry i).trimGrant n = s.fireEntry i := State.trimGrant_none htrim
  show execCalGrant n s = _
  simp only [execCalGrant, hdue, htrim']
  rfl

theorem execCalGrant_idle {s : State} {n : PortId} (hdue : s.dueEntry n.val .cal = none) : exec (.calGrant n) s = .next s := by
  show execCalGrant n s = _
  rw [execCalGrant, hdue]

/-! ### CAL_RESULT (R248, R249) -/

/-- The path after a result that its tests reject. -/
def Path.calRejected (p : Path) : Path := { p with pulse := none, calRej := true, rejRun := p.rejRun + 1 }

/-- The path after an accepted result: the value, its date, the pulse current and the balance of the pair. -/
def Path.calAccepted (p : Path) (now : CT) (r dss : Rat) (ok : Bool) : Path :=
  { p with pulse := none, rejRun := 0, rKnown := true, rCalQ := r, calGot := some now, rHeld := true
           rCal := BitVec.ofInt 16 (roundFree r), iCal := BitVec.ofInt 16 (roundFree (dss * 4 / 100))
           fetImb := p.fetImb || !ok, imbDue := p.imbDue || !ok }

section
variable {s : State} {n : PortId} {a b c d r : Rat} {e f : Int}

theorem execCalResult_incomplete (hsets : (s.port[n].pp.pulse.bind fun x => s.calSets n x.1) ≠ some (a, b, c, d)) :
    exec (.calResult n a b c d e f) s = .next s := by
  show execCalResult n a b c d e f s = _
  rw [execCalResult, if_pos hsets]

variable (hsets : (s.port[n].pp.pulse.bind fun x => s.calSets n x.1) = some (a, b, c, d))
include hsets

theorem execCalResult_rejected (hvalue : calValue s.port[n].pp a b c d = none) :
    exec (.calResult n a b c d e f) s = .next (if s.coreRuns n then (s.modPp n Path.calRejected).calReports n
      else s.modPp n Path.calRejected) := by
  show execCalResult n a b c d e f s = _
  rw [execCalResult, if_neg (not_not.mpr hsets), hvalue]
  rfl

theorem execCalResult_accepted (hvalue : calValue s.port[n].pp a b c d = some r) :
    ∃ u : State, u.port[n] = { s.port[n] with pp := s.port[n].pp.calAccepted s.time.ct r d (balanced e f (Config.zeroRatio s.fresh)) } ∧
      exec (.calResult n a b c d e f) s = .next (if s.coreRuns n then (u.calApply n r).calReports n else u) := by
  refine ⟨({ s with fresh := s.fresh + 1 } : State).modPp n fun p =>
    p.calAccepted s.time.ct r d (balanced e f (Config.zeroRatio s.fresh)), State.modPp_same .., ?_⟩
  show execCalResult n a b c d e f s = _
  rw [execCalResult, if_neg (not_not.mpr hsets), hvalue]
  simp only [Path.calAccepted]
  cases s.coreRuns n <;> simp only [Bool.false_eq_true, if_false, if_true]

end

/-- Eight rejections in a row told, and counted anew. -/
def State.rejectsTold (s : State) (n : PortId) : State :=
  if 8 ≤ s.port[n].pp.rejRun then
    (s.modPp n fun p => { p with rejRun := 0 }).raiseHealth 11 n.val 0 s.port[n].pp.rCal.toNat
  else s

theorem State.calReports_eq (s : State) (n : PortId) :
    s.calReports n = if (s.rejectsTold n).port[n].pp.imbDue then
      ((s.rejectsTold n).modPp n fun p => { p with imbDue := false }).pathEvent n 3 0 else s.rejectsTold n := rfl

theorem State.rejectsTold_pp (s : State) (n : PortId) :
    (s.rejectsTold n).port[n].pp =
      { s.port[n].pp with rejRun := if 8 ≤ s.port[n].pp.rejRun then 0 else s.port[n].pp.rejRun } := by
  by_cases hrow : 8 ≤ s.port[n].pp.rejRun
  · rw [State.rejectsTold, if_pos hrow, if_pos hrow, State.raiseHealth_port, State.modPp_same]
  · rw [State.rejectsTold, if_neg hrow, if_neg hrow]

/-- What a core tells of calibrations changes no more of a path than what it has told. -/
theorem State.calReports_pp (s : State) (n : PortId) :
    (s.calReports n).port[n].pp =
      { s.port[n].pp with rejRun := if 8 ≤ s.port[n].pp.rejRun then 0 else s.port[n].pp.rejRun, imbDue := false } := by
  have htold := s.rejectsTold_pp n
  rw [State.calReports_eq]
  by_cases hdue : (s.rejectsTold n).port[n].pp.imbDue = true
  · rw [if_pos hdue, State.pathEvent, State.emit_port, State.modPp_same, htold]
  · rw [if_neg hdue]
    rw [htold] at hdue ⊢
    rw [← Bool.eq_false_of_not_eq_true hdue]

theorem bit_set_word (x : Word) {k : Nat} (hk : k < 32) : bit (x ||| BitVec.ofNat 32 (1 <<< k)) k = true := by
  rw [bit, BitVec.getLsbD_or, BitVec.getLsbD_ofNat, Nat.testBit_shiftLeft]
  simp [hk]

theorem State.raiseHealth_cause (s : State) {cause : Nat} (hcause : cause < 32) (unit detail value : Nat) :
    bit (s.raiseHealth cause unit detail value).health.active cause = true := by
  simp only [State.raiseHealth, State.emitSt_health]
  split <;> exact bit_set_word _ hcause

/-- The eighth rejection in a row is health cause 11. -/
theorem State.calReports_cause (s : State) (n : PortId) (hrow : 8 ≤ s.port[n].pp.rejRun) :
    bit (s.calReports n).health.active 11 = true := by
  have htold : bit (s.rejectsTold n).health.active 11 = true := by
    rw [State.rejectsTold, if_pos hrow]
    exact State.raiseHealth_cause _ (by decide) _ _ _
  rw [State.calReports_eq]
  split
  · rw [State.pathEvent, State.emit_health]
    exact htold
  · exact htold

/-- The core applies an accepted value: it is the value in force, with the date of its pulse. -/
theorem State.calApply_cal (s : State) (n : PortId) (r : Rat) (hpulse : s.port[n].pp.pulse = none) :
    (s.calApply n r).cal n =
      ({ s.port[n].pp with rc := r, rHeld := false, calAt := s.port[n].pp.calGot } : Path).calOnly := by
  unfold State.calApply
  refine (State.thermJudge_cal _ n ?_).trans ?_
  · rw [State.modPp_same, Path.loadFt_eq]
    exact hpulse
  · rw [State.cal, State.modPp_same, Path.calOnly_loadFt]
    rfl

/-! ### RPAIR_ESTIMATE (R250) -/

theorem execRpairEstimate_halted {s : State} {n : PortId} (hcore : s.coreRuns n = false) :
    exec (.rpairEstimate n) s = .next s := by
  show execRpairEstimate n s = _
  rw [execRpairEstimate, hcore]
  rfl

/-- A port with no reference for its temperature has none to judge. -/
theorem State.thermJudge_unlearned {s : State} {n : PortId} (href : s.thermRef n = none) : s.thermJudge n = s := by
  simp [State.thermJudge, State.tFet, href]

/-- The self-heating of the pair after 10 ms more (R250). -/
def Path.heated (p : Path) (th ta : Rat) : Rat := p.dT + (th * (p.meanSq * p.rEst / 1000000) - p.dT) * (1 / 100) / ta

/-- The estimate with the self-heating since the last calibration. -/
def Path.estimated (p : Path) (al th ta : Rat) : Path :=
  { p with dT := p.heated th ta, rEst := p.rc * (1 + al * (p.heated th ta - p.dTc)) }

theorem execRpairEstimate_runs {s : State} {n : PortId} (hcore : s.coreRuns n = true) (href : s.thermRef n = none) :
    exec (.rpairEstimate n) s = .next (s.modPp n fun p => p.estimated ((s.portU16 n 0x28 : Rat) / 1000000)
      ((s.portU16 n 0x2A : Rat) / 100) ((s.portU16 n 0x2C : Rat) / 10)) := by
  have href' (al th ta : Rat) : (s.modPp n fun p => p.estimated al th ta).thermRef n = none := by
    rw [← href, State.thermRef, State.modPp_same]
    rfl
  show execRpairEstimate n s = _
  rw [execRpairEstimate, if_pos hcore, ← State.thermJudge_unlearned (href' _ _ _)]
  rfl

/-! ### TRIM_LOOP (R259, R316) -/

section
variable {s : State} {n : PortId}

theorem execTrimLoop_idle (h : s.coreRuns n = false ∨ s.port[n].pp.st ≠ .closed ∨ s.port[n].pp.sink = true ∨
    s.port[n].ct.mv = 0 ∨ s.trimStopped n = true) : exec (.trimLoop n) s = .next s := by
  show execTrimLoop n s = _
  unfold execTrimLoop
  dsimp only
  rw [if_pos]
  rcases h with h | h | h | h | h <;> simp [h, -Fin.getElem_fin]

/-- The trim that the loop holds for the next grant. -/
def State.trimAsk (s : State) (n : PortId) : Int :=
  if (trimDb (s.ppCfg n) : Rat) < (s.port[n].ct.mv : Rat) - s.port[n].pp.meanVc 5000 ∨
      (s.port[n].ct.mv : Rat) - s.port[n].pp.meanVc 5000 < -(trimDb (s.ppCfg n) : Rat) then
    max (-8) (min 8 (roundHalfUp ((s.portU16 n 0x22 : Rat) * ((s.port[n].ct.mv : Rat) - s.port[n].pp.meanVc 5000) / 256000)))
  else 0

/-- What a comparison of a closed source path in a contract leads to. -/
theorem execTrimLoop_runs (hcore : s.coreRuns n = true) (hst : s.port[n].pp.st = .closed) (hsink : s.port[n].pp.sink = false)
    (hmv : s.port[n].ct.mv ≠ 0) (hstop : s.trimStopped n = false) :
    exec (.trimLoop n) s = .next (
      if (s.port[n].ct.kind = .pps || s.port[n].ct.kind = .avs) &&
          decide ((102 * s.port[n].ct.i10 : Nat) ≤ 10 * s.port[n].pp.meanAbs 5000) then
        ({ s with fresh := s.fresh + 1 } : State).modPp n fun p =>
          { p with code := code12 ((p.code.toNat : Int) - ((Config.limitCodes s.fresh).val + 1))
                   lim := p.lim + min ((Config.limitCodes s.fresh).val + 1) p.code.toNat }
      else s.modPp n fun p => { p with trimPend := s.trimAsk n }) := by
  show execTrimLoop n s = _
  unfold execTrimLoop State.trimAsk
  dsimp only
  rw [if_neg (by simp [hcore, hst, hsink, hmv, hstop, -Fin.getElem_fin])]
  split
  · rfl
  · split
    · next herr => rw [if_pos (by simpa only [Bool.or_eq_true, decide_eq_true_eq] using herr)]
    · next herr => rw [if_neg (by simpa only [Bool.or_eq_true, decide_eq_true_eq] using herr)]

end

/-- Settles O25: each row of a calibration, of the estimate and of the trim loop gives the state its lemma writes out; what
T_FET's limits do beside an accepted value is kept apart by `State.cal`. -/
theorem calibrationAndTrim : Obligations.CalibrationAndTrim := by
  unfold Obligations.CalibrationAndTrim
  refine ⟨?starts, ?skips, fun s n hdue => ⟨s, execCalGrant_idle hdue, rfl⟩,
    fun s n e f a b c d hsets => ⟨s, execCalResult_incomplete hsets, rfl⟩, ?rejected, ?eighth, ?held, ?applied,
    fun s n hcore => ⟨s, execRpairEstimate_halted hcore, rfl⟩, ?estimate, fun s n h => ⟨s, execTrimLoop_idle h, rfl⟩,
    ?trims, ?limits⟩
  case starts =>
    intro s n i hdue hst hsink htrim hmean hover hrole
    have hmay : s.pulseMay n = true := by simp [State.pulseMay, hst, hsink, hmean, hover, hrole, -Fin.getElem_fin]
    have hexec := execCalGrant_due hdue htrim
    rw [hmay, if_pos rfl] at hexec
    refine ⟨_, hexec, ?_, ?_, ?_, rfl, rfl, rfl⟩
    · rw [State.modPp_same]
    · rw [State.modPp_same]
    · rw [State.modPp_same]
      exact hst
  case skips =>
    intro s n i hdue htrim hbar
    have hmay : s.pulseMay n = false := by
      rcases hbar with h | h | h | h | h <;> simp [State.pulseMay, h, -Fin.getElem_fin]
    have hexec := execCalGrant_due hdue htrim
    rw [hmay, if_neg Bool.false_ne_true] at hexec
    refine ⟨_, hexec, ?_, ?_, rfl, rfl, rfl⟩
    · rw [State.modPp_same]
    · rw [State.modPp_same]
      rfl
  case rejected =>
    intro s n e f a b c d _ hsets hvalue hrow
    refine ⟨_, execCalResult_rejected hsets hvalue, ?_⟩
    have hpp : (s.modPp n Path.calRejected).port[n].pp = s.port[n].pp.calRejected := by rw [State.modPp_same]
    split
    · rw [State.calReports_pp, hpp]
      exact ⟨rfl, rfl, if_neg (by simp only [Path.calRejected]; omega), rfl, rfl, rfl⟩
    · rw [hpp]
      exact ⟨rfl, rfl, rfl, rfl, rfl, rfl⟩
  case eighth =>
    intro s n e f a b c d _ hsets hvalue hrow hcore
    have hpp : (s.modPp n Path.calRejected).port[n].pp = s.port[n].pp.calRejected := by rw [State.modPp_same]
    have hlast : 8 ≤ (s.modPp n Path.calRejected).port[n].pp.rejRun := by
      rw [hpp]
      simp only [Path.calRejected]
      omega
    have hexec := execCalResult_rejected (e := e) (f := f) hsets hvalue
    rw [if_pos hcore] at hexec
    refine ⟨_, hexec, ?_, ?_, State.calReports_cause _ n hlast⟩
    · rw [State.calReports_pp, hpp]
      rfl
    · rw [State.calReports_pp]
      exact if_pos hlast
  case held =>
    intro s n e f a b c d r _ hsets hvalue hcore
    obtain ⟨u, hport, hexec⟩ := execCalResult_accepted (e := e) (f := f) hsets hvalue
    rw [hcore, if_neg Bool.false_ne_true] at hexec
    refine ⟨u, hexec, ?_⟩
    rw [hport]
    exact ⟨rfl, rfl, rfl, rfl, rfl, rfl⟩
  case applied =>
    intro s n e f a b c d r _ hsets hvalue hcore
    obtain ⟨u, hport, hexec⟩ := execCalResult_accepted (e := e) (f := f) hsets hvalue
    rw [hcore, if_pos rfl] at hexec
    refine ⟨_, hexec, ?_⟩
    have hcal := u.calApply_cal n r (by rw [hport]; rfl)
    rw [hport] at hcal
    have hrow : (u.calApply n r).port[n].pp.rejRun = 0 := congrArg Path.rejRun hcal
    rw [State.calReports_pp, hrow]
    exact ⟨congrArg Path.rKnown hcal, congrArg Path.pulse hcal,
      congrArg Path.rCalQ hcal, congrArg Path.rc hcal,
      congrArg Path.calAt hcal, congrArg Path.rHeld hcal, rfl,
      congrArg Path.rCal hcal⟩
  case estimate =>
    intro s n hcore href
    refine ⟨_, execRpairEstimate_runs hcore href, ?_⟩
    rw [State.modPp_same]
    exact ⟨rfl, rfl, rfl⟩
  case trims =>
    intro s n hcore hst hsink hmv hstop hpps havs
    have hexec := execTrimLoop_runs hcore hst hsink hmv hstop
    rw [if_neg (by simp [hpps, havs, -Fin.getElem_fin])] at hexec
    refine ⟨_, hexec, ?_⟩
    rw [State.modPp_same]
    exact ⟨rfl, rfl, rfl⟩
  case limits =>
    intro s n hcore hst hsink hmv hstop hkind hover
    have hexec := execTrimLoop_runs hcore hst hsink hmv hstop
    rw [if_pos (by rw [decide_eq_true hover, Bool.and_true]; simpa using hkind)] at hexec
    refine ⟨_, hexec, ?_, rfl, rfl⟩
    rw [State.modPp_same]

end Sys2Proof.Machine
end

section
/-! PROOFS. Messages received by the PD engine (O33); messages sent by it (O34). -/

-- Declarations in turn: the stack of every thread counts toward the memory that the check allows the one text.
set_option Elab.async false

namespace Sys2Proof.Machine

/-! ### A repeat that finds the receive queue full (R269, R270) -/

/-- With the receive queue full a message for the core is not acknowledged, whether or not it repeats the last one. -/
theorem execPdMessage_queueFull {s : State} {n : PortId} {m : PdMsg} (hvalid : m.valid = true)
    (hactive : s.ctxActive n m.sop = true) (hcore : (s.seen n m).engTakes n m = false) (hsoft : m.body ≠ .softReset)
    (hfull : 4 ≤ s.port[n].pd.rxq.length + s.port[n].pd.rxDone) :
    exec (.pdMessage n m) s = .next (s.modPd n fun d => { d with rxFull := true }) := by
  show execPdMessage n m s = _
  have hnoRoom : (!(s.seen n m).engTakes n m && m.body ≠ .softReset &&
      decide (4 ≤ s.port[n].pd.rxq.length + s.port[n].pd.rxDone)) = true := by
    simp only [hcore, hsoft, hfull, ne_eq, not_false_eq_true, decide_true, Bool.not_false, Bool.and_self]
  simp only [execPdMessage, hvalid, hactive, Bool.not_true, Bool.false_eq_true, if_false]
  rw [if_pos hnoRoom]

/-- Port 0 is attached as source with its SOP context active, and its engine is `d`. -/
def engineState (d : Pd) : State :=
  { State.reset with
    port := State.reset.port.set 0
      { Port.reset with tc := { TypeC.reset with st := .attSrc, pdCfg := 0x20000000 }, pd := d } }

/-- Get_Source_Cap with MessageID 3. -/
def fourthMessage : PdMsg := { sop := .sop, id := 3, rev := 0b10, body := .getSourceCap, len := 0, chunk := none }

/-- The core has read none of the four messages received; the last of them had MessageID 3. -/
def fullQueueState : State :=
  engineState
    { Pd.reset with
      ctx := Pd.reset.ctx.set 0 { Context.reset with rev := 0b10, rxValid := true, rxId := 3 }
      rxq := [0, 1, 2, 3].map fun i => { fourthMessage with id := i } }

/-- The fourth message, sent again as where its GoodCRC was lost, is not acknowledged: RX_FULL is set. -/
theorem fullQueueState_pdMessage :
    exec (.pdMessage 0 fourthMessage) fullQueueState = .next (fullQueueState.modPd 0 fun d => { d with rxFull := true }) :=
  execPdMessage_queueFull rfl (by decide) (by decide) (by decide) (by decide)

/-- Refutes O33: a repeat that finds the queue full gets no GoodCRC (R270), and RX_FULL is set. -/
theorem not_pdReceiving : ¬ Obligations.PdReceiving := by
  unfold Obligations.PdReceiving
  rintro ⟨-, hrepeat, -⟩
  obtain ⟨t, ht, hacked⟩ := hrepeat fullQueueState 0 fourthMessage rfl (by decide) (by decide) (by decide)
  obtain rfl : t = fullQueueState.modPd 0 fun d => { d with rxFull := true } :=
    Host.Outcome.next.inj (ht.symm.trans fullQueueState_pdMessage)
  have hfull := congrArg (fun u : State => u.port[(0 : PortId)].pd.rxFull) hacked
  simp only [State.modPd_same] at hfull
  exact absurd hfull (by decide)

/-! ### CHUNK_TIMER while a chunk is on the line (R279, R280) -/

/-- While neither a Chunk Request nor a chunk is awaited, CHUNK_TIMER changes nothing. -/
theorem execChunkTimer_notAwaited {s : State} {n : PortId} {ty : Sop} (h : (s.ctx n ty).chunkWait = false) :
    exec (.chunkTimer n ty) s = .next s := by
  show execChunkTimer n ty s = _
  simp only [execChunkTimer, h, Bool.false_eq_true, if_false]

/-- The first of the two chunks of an EPR_Source_Capabilities of eleven objects is out, and its GoodCRC is awaited. -/
def chunkOutState : State :=
  engineState
    { Pd.reset with
      contract := true
      ctx := Pd.reset.ctx.set 0
        { Context.reset with
          rev := 0b10
          tx := .waitGoodcrc
          cur := some
            { sop := .sop, ams := true
              body := .eprSourceCaps ⟨false, false, false, false, true⟩ (List.replicate 11 .zero) } } }

/-- Refutes O34: the wait for a Chunk Request begins with the GoodCRC of the chunk before it (R279), so CHUNK_TIMER
abandons nothing of a chunked message whose first chunk has not had its GoodCRC. -/
theorem not_pdTransmitting : ¬ Obligations.PdTransmitting := by
  unfold Obligations.PdTransmitting
  rintro ⟨-, -, -, -, -, -, -, -, -, -, -, -, -, -, -, -, -, -, -, -, -, -, -, htimer, -⟩
  obtain ⟨t, ht, -, hidle, -⟩ := htimer chunkOutState 0 .sop (by decide)
  obtain rfl : t = chunkOutState := Host.Outcome.next.inj (ht.symm.trans (execChunkTimer_notAwaited (by decide)))
  exact absurd hidle (by decide)

end Sys2Proof.Machine
end

section
/-! PROOFS. A swap request of a Revision 2.0 partner (O28); the end of FRS standby (O29). -/

-- Declarations in turn: the stack of every thread counts toward the memory that the check allows the one text.
set_option Elab.async false

namespace Sys2Proof.Machine

/-! ### FR_Swap of a Revision 2.0 partner (R264, R335) -/

/-- At Revision 2.0 FR_Swap is not used: it is answered Reject, whatever swap is in progress. -/
theorem execFrSwap_rejects {s u : State} {n : PortId} {m : PdMsg} {eng : Bool}
    (htake : s.takeMsg n (fun b => b = .frSwap) = some (m, eng, u)) (hrev : u.port[n].pd.ctx[0].rev = 0b01) :
    exec (.frSwap n) s = .next (u.sendMsg n .sop .reject false) := by
  show execFrSwap n s = _
  simp only [execFrSwap, htake, hrev, if_true]

theorem State.sendMsg_handed (s : State) (n : PortId) (b : PdBody) (ams : Bool) :
    s.handed (s.sendMsg n .sop b ams) n b ams :=
  ⟨_, congrArg (fun p : Port => p.pd.outbox) (s.modPd_same n _)⟩

/-- Between two states a port hands over no two different messages. -/
theorem State.handed_body_inj {s t : State} {n : PortId} {b c : PdBody} {x y : Bool} (hb : s.handed t n b x)
    (hc : s.handed t n c y) : b = c := by
  obtain ⟨_, hb⟩ := hb
  obtain ⟨_, hc⟩ := hc
  have hlast := List.append_cancel_left (hb.symm.trans hc)
  simp only [List.cons.injEq, OutMsg.mk.injEq] at hlast
  exact hlast.1.2.1

/-- FR_Swap of a Revision 2.0 partner. -/
def rev2FrSwap : PdMsg := { sop := .sop, id := 0, rev := 0b01, body := .frSwap, len := 0, chunk := none }

/-- Port 0 is a source whose partner is of Revision 2.0; it has sent DR_Swap and awaits the answer. The engine is to answer
`queue`. -/
def rev2DrSwapState (queue : List PdMsg) : State :=
  (engineState { Pd.reset with
    contract := true, ctx := Pd.reset.ctx.set 0 { Context.reset with rev := 0b01 }, eng := queue }).modRs 0 fun r =>
      { r with pr := .source, dr := .dfp, code := .dr, step := .asked, kind := some .data }

/-- The engine keeps FR_Swap, a message of Revision 3.x, to answer it itself (R264). -/
theorem rev2DrSwapState_receives :
    ∃ t, exec (.pdMessage 0 rev2FrSwap) (rev2DrSwapState []) = .next t ∧ t.port[(0 : PortId)].pd.eng = [rev2FrSwap] :=
  ⟨_, rfl, by decide⟩

theorem rev2DrSwapState_takeMsg :
    (rev2DrSwapState [rev2FrSwap]).takeMsg 0 (fun b => b = .frSwap) = some (rev2FrSwap, true, rev2DrSwapState []) := by
  rfl

/-- Refutes O28: an FR_Swap that comes during another swap is answered Wait only at Revision 3.x (R335); a Revision 2.0
partner that sends it has Reject for an answer (R264). -/
theorem not_swapRequests : ¬ Obligations.SwapRequests := by
  unfold Obligations.SwapRequests
  rintro ⟨-, -, -, -, -, -, -, -, -, -, -, -, -, -, -, -, -, -, hbusy, -⟩
  obtain ⟨t, ht, hwait, -⟩ := hbusy (rev2DrSwapState [rev2FrSwap]) (rev2DrSwapState []) 0 rev2FrSwap true
    rev2DrSwapState_takeMsg (by decide) (by decide)
  obtain rfl : t = (rev2DrSwapState []).sendMsg 0 .sop .reject false :=
    Host.Outcome.next.inj (ht.symm.trans (execFrSwap_rejects rev2DrSwapState_takeMsg (by decide)))
  exact PdBody.noConfusion (State.handed_body_inj hwait (State.sendMsg_handed _ 0 .reject false))

/-! ### FRS standby is left (R258, R339) -/

theorem State.sendWaited_pp (s : State) (n : PortId) (b : PdBody) : (s.sendWaited n b).port[n].pp = s.port[n].pp := by
  rw [State.sendWaited, State.sendMsg, State.modPd_same, State.modPd_same]

/-- The end of FRS standby loads the code given, whatever message waits for it. -/
theorem State.standbyEnd_code (s : State) (n : PortId) (code : BitVec 12) :
    (s.standbyEnd n code).port[n].pp.code = code := by
  dsimp only [State.standbyEnd]
  split
  · rw [State.sendWaited_pp, State.modCt_same, State.modPort_same, Path.loadFt_eq]
  · rw [State.modPort_same, Path.loadFt_eq]

/-- The ROLE grant that leaves FRS standby loads code 0. -/
theorem execRoleGrant_leaves {s : State} {n : PortId} {i : Fin 256} (hdue : s.dueEntry n.val .role = some i)
    (hentry : s.port[n].rs.entry = some i) (hleaving : s.port[n].rs.leaving = true) :
    exec (.roleGrant n) s = .next ((s.fireEntry i).standbyEnd n 0) := by
  show execRoleGrant n s = _
  have hport : (s.fireEntry i).port = s.port := rfl
  simp only [execRoleGrant, hdue, hport, hentry, hleaving, ne_eq, not_true_eq_false, if_false, if_true]

/-- The negative ROLE of port 0 that leaves standby at the default FRS current, granted in tick 32 of frame 0. -/
def leavingRole : Entry :=
  { owner := 0, kind := .role, dur := 4, step := -18, inc := 0, todo := [(32, -18)], fired := 0, last := 32 }

/-- Port 0 is a sink in FRS standby at 5 V with a Request for 9 V waiting, in the tick of the grant that leaves standby. The
sink map of its Palette entry has the offset SK0 = 1. -/
def leavingStandbyState : State :=
  { State.reset.withRun (Mem.set cfgDefault [] (portOff 0 0x24) 1) with
    sup := { Supplies.reset with hvUp := true, vcpOk := true, logicUp := true, linkSilent := false, primer := .done }
    core := Vector.replicate 5 { VCore.reset with up := true }
    time := { State.reset.time with ct := 32 }
    port := State.reset.port.set 0
      { Port.reset with
        tc := { TypeC.reset with st := .attSnk, opening := .opened }
        pp := { Path.reset with st := .closed, cen := true, cpg := true }
        pd := { Pd.reset with contract := true, ctx := Pd.reset.ctx.set 0 { Context.reset with rev := 0b10 } }
        ct := { Contract.reset with
          kind := .sinkFixed, pos := 1, mv := 5000, i10 := 300, imax := 3000
          stopFor := some (.request { pos := 2, opI := 300, maxI := 300, mv := 9000, eprCapable := false }) }
        rs := { Swap.reset with pr := .sink, dr := .ufp, stby := true, leaving := true, entry := some 0, frsCur := 1 } }
    tt := { State.reset.tt with entries := State.reset.tt.entries.set 0 (some leavingRole) } }

/-- With that offset the map gives no draw the code 1. -/
theorem leavingStandbyState_snkCode : leavingStandbyState.snkCode 0 0 = 1 := by decide

/-- Refutes O29: the grant that leaves FRS standby loads code 0 itself, and the statement asks for the sink map's code of no
draw (R258), which differs from it where the port's Palette entry gives the map an offset SK0. -/
theorem not_theTurntable : ¬ Obligations.TheTurntable := by
  unfold Obligations.TheTurntable
  rintro ⟨-, -, -, -, -, hleaves, -⟩
  have hdue : leavingStandbyState.dueEntry (0 : PortId).val .role = some 0 := by decide
  obtain ⟨t, ht, -, -, -, hcode, -⟩ := hleaves leavingStandbyState 0 0 hdue rfl rfl
  obtain rfl := Host.Outcome.next.inj ((execRoleGrant_leaves hdue rfl rfl).symm.trans ht)
  rw [State.standbyEnd_code, leavingStandbyState_snkCode] at hcode
  exact absurd hcode (by decide)

end Sys2Proof.Machine
end
